-- ==== Sys2Proof/Word.lean ====
section
/-! DEFINITION. The word types of the machine and their plainest arithmetic (R7, R13, R15, R22). -/

namespace Sys2Proof

/-- A 64-bit register. -/
abbrev Word := BitVec 64

/-- A 256-bit vector register: lane L is bits 64L + 63 down to 64L (R15). -/
abbrev VReg := BitVec 256

/-- One bit for each of the four lanes. -/
abbrev Mask := BitVec 4

/-- A code offset in ULM (R13). -/
abbrev Off := BitVec 17

/-- A cause code (R5). -/
abbrev Cause := BitVec 8

/-- A byte. -/
abbrev Byte := BitVec 8

/-- The cause codes of R5. -/
def Cause.illop : Cause := 0x01
def Cause.badpair : Cause := 0x02
def Cause.priv : Cause := 0x03
def Cause.align : Cause := 0x04
def Cause.ulmbound : Cause := 0x05
def Cause.window : Cause := 0x06
def Cause.pagewait : Cause := 0x07
def Cause.pageinv : Cause := 0x08
def Cause.poison : Cause := 0x09
def Cause.mstack : Cause := 0x0A
def Cause.rstack : Cause := 0x0B
def Cause.wmask : Cause := 0x0C
def Cause.mdesync : Cause := 0x0D
def Cause.mshape : Cause := 0x0E
def Cause.xcoll : Cause := 0x0F
def Cause.xlong : Cause := 0x10
def Cause.swtrap : Cause := 0x11
def Cause.launchbad : Cause := 0x12
def Cause.fabric : Cause := 0x13
def Cause.brkStep : Cause := 0x14
def Cause.claim : Cause := 0x15

/-- Bit `i` of a number kept as bits. -/
def bitOf {n : Nat} (x : BitVec n) (i : Nat) : Bool := x.getLsbD i

/-- `x` with bit `i` set to `b`. -/
def withBit {n : Nat} (x : BitVec n) (i : Nat) (b : Bool) : BitVec n :=
  if b then x ||| (1#n <<< i) else x &&& ~~~(1#n <<< i)

/-- Element of `w` bits at position `i` (R15). -/
def elem {n : Nat} (w i : Nat) (x : BitVec n) : BitVec w := x.extractLsb' (w * i) w

/-- `x` with element `i` of `w` bits replaced (R15). -/
def setElem {n : Nat} (w i : Nat) (x : BitVec n) (e : BitVec w) : BitVec n :=
  (x &&& ~~~(((BitVec.allOnes w).setWidth n) <<< (w * i))) ||| ((e.setWidth n) <<< (w * i))

/-- Lane `l` of a vector register. -/
def lane (l : Nat) (x : VReg) : Word := elem 64 l x

/-- A vector register with lane `l` replaced. -/
def setLane (l : Nat) (x : VReg) (e : Word) : VReg := setElem 64 l x e

/-- The lanes of a mask in ascending order (R11, R30). -/
def lanesOf (m : Mask) : List Nat := (List.range 4).filter fun l => bitOf m l

/-- A truth value as one bit of any width. -/
def ofBool (n : Nat) (b : Bool) : BitVec n := if b then 1#n else 0#n

end Sys2Proof
end

