-- ==== Sys2Proof/Config.lean ====
section
/-! DEFINITION. What the manual leaves open: free values. Each is a constant without a body, so that no proof
can see what it is; the assumption log names every one. -/

namespace Sys2Proof.Config

/-- Which of the pending device events comes next, one fresh number for each choice (log 2). -/
opaque freeTurn : Nat → Nat

/-- The cycles beyond the first that a tick of the model takes (log 3). -/
opaque moreCycles : Nat → Nat

/-- The cycles that have passed after a number of ticks of the model, at least one in each (R2, R21; log 3). -/
def cyclesOf : Nat → BitVec 64
  | 0 => 0
  | n + 1 => cyclesOf n + 1 + BitVec.ofNat 64 (moreCycles n)

/-- A byte that the manual calls undefined: data of flits that meet (R175), elements of a poisoned `rdc`
sector (R388), an image cut short by a failed segment check (R114). One fresh number for each byte (log 2). -/
opaque freeByte : Nat → BitVec 8

/-- KADDR of a trap for which the manual names no address (R22, R110; log 14). One fresh number for each. -/
opaque freeAddr : Nat → BitVec 64

/-- Which of the two neighbours `frcp` or `frsq` delivers for an inexact result, by the operand's bits: true
is the one away from zero (R133; log 6). -/
opaque sfuUp : Nat → BitVec 64 → Bool

/-- The code `fexp2`, `flog2`, `fsin` or `fcos` delivers where the exact result is not representable, by function
and format and the operand's bits; the model takes it when it lies within the bounds of R133 (log 6). -/
opaque sfuNear : Nat → BitVec 64 → BitVec 64

/-- The link CRC-16 of a flit and of bits [31:16] of its sideband. R402 gives no polynomial (DESIGN CHOICE, log 17). -/
opaque linkCrc : BitVec 256 → BitVec 16 → BitVec 16

/-- Contents of the core supervisor that set-up writes to offset 0 of every core, by the firmware image power-up loaded
(R222, R317, R445; log 7). -/
opaque supervisorByte : List (BitVec 8) → Nat → BitVec 8

/-- A column of a die fails in a self-test (R443; log 7). -/
opaque failing : Nat → Nat → Nat → Bool

/-! ### Board flash, keys and the algorithms the manual names (R444 to R448; log 7) -/

/-- How a body is signed: a root public key, further public keys, each with its signature by the one before it, and the
signature of the body by the last of them (R446). -/
structure Signed where
  root : List (BitVec 8) := []
  keys : List (List (BitVec 8) × List (BitVec 8)) := []
  sig : List (BitVec 8) := []
  deriving DecidableEq, Repr, Inhabited

/-- The firmware image (R446). -/
structure Firmware where
  version : Nat := 0
  code : List (BitVec 8) := []
  signed : Signed := {}
  deriving DecidableEq, Repr, Inhabited

/-- The configuration record (R444, R446, R447). -/
structure BoardRecord where
  sku : Nat := 0
  serial : Nat := 0
  cert : List (BitVec 8) := []
  minVersion : Nat := 0
  /-- the wrapped attestation key, and the helper data that correct the SRAM's pattern -/
  wrapped : List (BitVec 8) := []
  helper : List (BitVec 8) := []
  signed : Signed := {}
  deriving DecidableEq, Repr, Inhabited

/-- Board flash (R444, R446). -/
structure BoardFlash where
  image : Firmware := {}
  record : BoardRecord := {}
  deriving DecidableEq, Repr, Inhabited

/-- What board flash holds, and the keys that stand in the boot hart's SRAM, where the model begins (log 4, log 7). -/
opaque board : BoardFlash
opaque bornDeviceKey : BitVec 256
opaque bornAttestKey : List (BitVec 8)

/-- SHA-256 (R446, R447, R448). -/
opaque sha256 : List (BitVec 8) → BitVec 256

/-- RSASSA-PSS of R446 accepts a signature of a message under a public key: key, message, signature. -/
opaque rsaPss : List (BitVec 8) → List (BitVec 8) → List (BitVec 8) → Bool

/-- The SHA-256 digest of the root public key that ROM holds (R446), and the digest of the ROM (R448). -/
opaque rootDigest : BitVec 256
opaque romDigest : BitVec 256

/-- The power-up contents of the SRAM block, one number for each power-up (R445), and their correction with the helper
data of the record (R447). -/
opaque sramPattern : Nat → List (BitVec 8)
opaque corrected : List (BitVec 8) → List (BitVec 8) → List (BitVec 8)

/-- The attestation private key unwrapped under AES-256-GCM; none where the tag fails (R447). -/
opaque unwrap : BitVec 256 → List (BitVec 8) → Option (List (BitVec 8))

/-- The signature with a private key over a digest and a nonce (R448). -/
opaque sign : List (BitVec 8) → BitVec 256 → Nat → List (BitVec 8)

end Sys2Proof.Config
end

