-- ==== Sys2Proof/Syntax.lean ====
section
/-! DEFINITION. The instruction type: one constructor for each row of the opcode table, first the encoded
words (R40, R42), then the device events that have no encoding. What an event acts on (a core, a request, a
register) stands in the state's event latch, since no word carries it. -/

namespace Sys2Proof

/-- Element view of a lane (R15, R42). -/
inductive View where
  | b
  | h
  | w
  | d
  deriving DecidableEq, Repr

/-- The code of the field. -/
def View.code : View → Nat
  | .b => 0
  | .h => 1
  | .w => 2
  | .d => 3

/-- The value a code names; none where the code is reserved. -/
def View.ofCode : Nat → Option View
  | 0 => some .b
  | 1 => some .h
  | 2 => some .w
  | 3 => some .d
  | _ => none

/-- Float format named by ty2 (R42). -/
inductive FFmt where
  | d
  | w
  | h
  | bf
  deriving DecidableEq, Repr

/-- The code of the field. -/
def FFmt.code : FFmt → Nat
  | .d => 0
  | .w => 1
  | .h => 2
  | .bf => 3

/-- The value a code names; none where the code is reserved. -/
def FFmt.ofCode : Nat → Option FFmt
  | 0 => some .d
  | 1 => some .w
  | 2 => some .h
  | 3 => some .bf
  | _ => none

/-- SFU format (R42). -/
inductive SFmt where
  | d
  | w
  deriving DecidableEq, Repr

/-- The code of the field. -/
def SFmt.code : SFmt → Nat
  | .d => 0
  | .w => 1

/-- The value a code names; none where the code is reserved. -/
def SFmt.ofCode : Nat → Option SFmt
  | 0 => some .d
  | 1 => some .w
  | _ => none

/-- Type codes of R44. -/
inductive TyCode where
  | i8
  | i16
  | i32
  | i64
  | n8
  | n16
  | n32
  | n64
  | f64
  | f32
  | f16
  | bf16
  | e4m3
  | e5m2
  | e2m1
  | e8m0
  | q16
  deriving DecidableEq, Repr

/-- The code of the field. -/
def TyCode.code : TyCode → Nat
  | .i8 => 0
  | .i16 => 1
  | .i32 => 2
  | .i64 => 3
  | .n8 => 4
  | .n16 => 5
  | .n32 => 6
  | .n64 => 7
  | .f64 => 8
  | .f32 => 9
  | .f16 => 10
  | .bf16 => 11
  | .e4m3 => 12
  | .e5m2 => 13
  | .e2m1 => 14
  | .e8m0 => 15
  | .q16 => 16

/-- The value a code names; none where the code is reserved. -/
def TyCode.ofCode : Nat → Option TyCode
  | 0 => some .i8
  | 1 => some .i16
  | 2 => some .i32
  | 3 => some .i64
  | 4 => some .n8
  | 5 => some .n16
  | 6 => some .n32
  | 7 => some .n64
  | 8 => some .f64
  | 9 => some .f32
  | 10 => some .f16
  | 11 => some .bf16
  | 12 => some .e4m3
  | 13 => some .e5m2
  | 14 => some .e2m1
  | 15 => some .e8m0
  | 16 => some .q16
  | _ => none

/-- Mode field of R45; `dyn` is KFPC.RM. -/
inductive RMode where
  | rne
  | rtz
  | rdn
  | rup
  | rna
  | dyn
  deriving DecidableEq, Repr

/-- The code of the field. -/
def RMode.code : RMode → Nat
  | .rne => 0
  | .rtz => 1
  | .rdn => 2
  | .rup => 3
  | .rna => 4
  | .dyn => 7

/-- The value a code names; none where the code is reserved. -/
def RMode.ofCode : Nat → Option RMode
  | 0 => some .rne
  | 1 => some .rtz
  | 2 => some .rdn
  | 3 => some .rup
  | 4 => some .rna
  | 7 => some .dyn
  | _ => none

/-- Cull field of R198. -/
inductive Cull where
  | off
  | back
  | front
  deriving DecidableEq, Repr

/-- The code of the field. -/
def Cull.code : Cull → Nat
  | .off => 0
  | .back => 1
  | .front => 2

/-- The value a code names; none where the code is reserved. -/
def Cull.ofCode : Nat → Option Cull
  | 0 => some .off
  | 1 => some .back
  | 2 => some .front
  | _ => none

/-- Width of an atomic (R40). -/
inductive AWidth where
  | w
  | d
  deriving DecidableEq, Repr

/-- The code of the field. -/
def AWidth.code : AWidth → Nat
  | .w => 0
  | .d => 1

/-- The value a code names; none where the code is reserved. -/
def AWidth.ofCode : Nat → Option AWidth
  | 0 => some .w
  | 1 => some .d
  | _ => none

/-- Order of an atomic (R40). -/
inductive Order where
  | rlx
  | acq
  | rel
  | ar
  deriving DecidableEq, Repr

/-- The code of the field. -/
def Order.code : Order → Nat
  | .rlx => 0
  | .acq => 1
  | .rel => 2
  | .ar => 3

/-- The value a code names; none where the code is reserved. -/
def Order.ofCode : Nat → Option Order
  | 0 => some .rlx
  | 1 => some .acq
  | 2 => some .rel
  | 3 => some .ar
  | _ => none

/-- Scope code (R40, R233). -/
inductive Scope where
  | co
  | gr
  | pk
  | sy
  deriving DecidableEq, Repr

/-- The code of the field. -/
def Scope.code : Scope → Nat
  | .co => 0
  | .gr => 1
  | .pk => 2
  | .sy => 3

/-- The value a code names; none where the code is reserved. -/
def Scope.ofCode : Nat → Option Scope
  | 0 => some .co
  | 1 => some .gr
  | 2 => some .pk
  | 3 => some .sy
  | _ => none

/-- Queue port (R6). -/
inductive Port where
  | q0
  | q1
  | q2
  | q3
  deriving DecidableEq, Repr

/-- The code of the field. -/
def Port.code : Port → Nat
  | .q0 => 0
  | .q1 => 1
  | .q2 => 2
  | .q3 => 3

/-- The value a code names; none where the code is reserved. -/
def Port.ofCode : Nat → Option Port
  | 0 => some .q0
  | 1 => some .q1
  | 2 => some .q2
  | 3 => some .q3
  | _ => none

/-- Selector of `xsend` (R40). -/
inductive XMode where
  | uc
  | row
  | col
  deriving DecidableEq, Repr

/-- The code of the field. -/
def XMode.code : XMode → Nat
  | .uc => 0
  | .row => 1
  | .col => 2

/-- The value a code names; none where the code is reserved. -/
def XMode.ofCode : Nat → Option XMode
  | 0 => some .uc
  | 1 => some .row
  | 2 => some .col
  | _ => none

/-- A source the distributor takes launches from (R313): a channel, or the pending-launch queue of a group. -/
inductive Source where
  | channel (n : Nat)
  | group (id : Nat)
  deriving DecidableEq, Repr

/-- What a fault report carries (R222, R309): status, core, context, KEPC, KCAUSE, KADDR. -/
structure EndInfo where
  status : BitVec 8
  core : Nat
  ctx : Nat
  kepc : BitVec 64
  kcause : BitVec 64
  kaddr : BitVec 64
  deriving DecidableEq, Repr

/-- The host's answer to an ATS translation request (R412). -/
inductive AtsAnswer where
  | granted (hpa : Nat) (w : Bool)
  | noAccess
  | abort
  deriving DecidableEq, Repr

/-- Which register space a write names: BAR0 (R409), the management registers (R451), or, through
management, board flash (R446). -/
inductive RegSpace where
  | bar0
  | management
  | flash
  deriving DecidableEq, Repr

/-- One flit on a Lenbo link with its sideband: link CRC-16, sequence number, POOL and virtual channel (R402). -/
structure LenboFlit where
  data : BitVec 256
  seq : BitVec 12
  shared : Bool
  vc : BitVec 3
  crc : BitVec 16 := 0
  deriving DecidableEq, Repr

/-- Bits [31:16] of the sideband (R402). -/
def LenboFlit.side (f : LenboFlit) : BitVec 16 := f.vc ++ BitVec.ofBool f.shared ++ f.seq

/-- One packet as its receiver sees it (R403); `e2eOk` is the verdict of the CRC-32 check. -/
structure LenboPacket where
  kind : BitVec 8
  src : Nat
  dst : Nat
  epoch : Nat
  seq : Nat
  op : BitVec 16
  addr : BitVec 64
  aux : BitVec 32
  data : List (BitVec 256)
  e2eOk : Bool
  deriving DecidableEq, Repr

/-- What an instruction with a residue mismatch writes: a register, a v register in some lanes, or the accumulator
elements of a matrix operation (R428). -/
inductive Written where
  | g (r : Fin 32)
  | v (r : Fin 32) (lanes : BitVec 4)
  | p (r : Fin 8)
  | acc
  deriving DecidableEq, Repr

/-- A place that a check code covers (R425). -/
inductive Place where
  | g (core : Nat) (ctx : Fin 11) (r : Fin 32)
  | v (core : Nat) (ctx : Fin 11) (r : Fin 32) (lane : Fin 4)
  | p (core : Nat) (ctx : Fin 11) (r : Fin 8)
  | k (core : Nat) (ctx : Fin 11) (number : Fin 192)
  | acc (core : Nat) (row : Fin 32) (elem : Fin 8)
  | maskEntry (core : Nat) (ctx : Fin 11) (n : Fin 32)
  | retEntry (core : Nat) (ctx : Fin 11) (n : Fin 8)
  | fifo (core : Nat) (n : Nat)
  | rep (core : Nat) (n : Nat)
  | queue (core : Nat) (port : Port) (n : Nat)
  | send (core : Nat) (n : Nat) (word : Nat)
  | window (core : Nat) (n : Nat) (word : Fin 4)
  /-- structures with parity alone: a bundle or an entry of a cache that is fetched again -/
  | fetch (core : Nat) (ctx : Fin 11)
  | salternCache (core : Nat) (n : Nat)
  | forward (core : Nat) (n : Nat)
  | tlb (n : Nat)
  | ulm (core : Nat) (off : Nat)
  | llc (pa : Nat)
  | hbm (pa : Nat)
  | router (core : Nat)
  | residue (core : Nat) (ctx : Fin 11) (d : Written)
  /-- a register of the hart that runs a walk -/
  | hart (walk : Nat) (r : Fin 32)
  /-- header and routing state of a core's router, and its slot table -/
  | coreControl (core : Nat)
  | control (where_ : Nat)
  /-- the distributor's own state -/
  | distributor (where_ : Nat)
  deriving DecidableEq, Repr

/-- What a check of a stored datum finds (R426). -/
inductive CheckOutcome where
  | clean
  | corrected
  | uncorrectable
  deriving DecidableEq, Repr

/-- The instructions: encoded words and device events. -/
inductive Instr where
  | trap (i : BitVec 14)  -- R111
  | tret (d : Bool) (m : BitVec 4)  -- R112
  | kget (d : Fin 32) (k : BitVec 14)  -- R113
  | kset (s : Fin 32) (k : BitVec 14)  -- R113
  | kswp (s : Fin 32) (k : BitVec 14)  -- R113
  | csave (s : Fin 32)  -- R114
  | crest (s : Fin 32)  -- R115
  | dbg (s : Fin 32)  -- R116
  | br (o : BitVec 24)  -- R94
  | call (o : BitVec 24)  -- R95
  | bany (pr : Fin 8) (o : BitVec 18)  -- R94
  | ball (pr : Fin 8) (o : BitVec 18)  -- R94
  | bnone (pr : Fin 8) (o : BitVec 18)  -- R94
  | bnall (pr : Fin 8) (o : BitVec 18)  -- R94
  | bz (a : Fin 32) (o : BitVec 18)  -- R94
  | bnz (a : Fin 32) (o : BitVec 18)  -- R94
  | blt (a : Fin 32) (b : Fin 32) (o : BitVec 12)  -- R94
  | bge (a : Fin 32) (b : Fin 32) (o : BitVec 12)  -- R94
  | bltu (a : Fin 32) (b : Fin 32) (o : BitVec 12)  -- R94
  | bgeu (a : Fin 32) (b : Fin 32) (o : BitVec 12)  -- R94
  | callr (a : Fin 32)  -- R95
  | jr (a : Fin 32)  -- R95
  | jv (a : Fin 32)  -- R96
  | ifm (o : BitVec 15) (pr : Fin 8)  -- R98
  | elm (o : BitVec 15)  -- R98
  | lpm (o : BitVec 15)  -- R99
  | brk (pr : Fin 8)  -- R99
  | cnt (pr : Fin 8)  -- R99
  | lpe (pr : Fin 8)  -- R99
  | cstart (d : Fin 32) (a : Fin 32) (b : Fin 32)  -- R102
  | cquery (d : Fin 32) (a : Fin 32)  -- R103
  | cwait (a : Fin 32)  -- R104
  | wform (d : Fin 32) (a : Fin 32)  -- R106
  | wsync (a : Fin 32)  -- R108
  | reord (a : Fin 32) (b : Fin 32)  -- R109
  | ld8 (d : Fin 32) (a : Fin 32) (o : BitVec 11)  -- R149
  | ld8z (d : Fin 32) (a : Fin 32) (o : BitVec 11)  -- R149
  | ld16 (d : Fin 32) (a : Fin 32) (o : BitVec 11)  -- R149
  | ld16z (d : Fin 32) (a : Fin 32) (o : BitVec 11)  -- R149
  | ld32 (d : Fin 32) (a : Fin 32) (o : BitVec 11)  -- R149
  | ld32z (d : Fin 32) (a : Fin 32) (o : BitVec 11)  -- R149
  | ld64 (d : Fin 32) (a : Fin 32) (o : BitVec 11)  -- R149
  | st8 (s : Fin 32) (a : Fin 32) (o : BitVec 11)  -- R149
  | st16 (s : Fin 32) (a : Fin 32) (o : BitVec 11)  -- R149
  | st32 (s : Fin 32) (a : Fin 32) (o : BitVec 11)  -- R149
  | st64 (s : Fin 32) (a : Fin 32) (o : BitVec 11)  -- R149
  | vld (d : Fin 32) (a : Fin 32) (o : BitVec 11)  -- R150
  | vst (s : Fin 32) (a : Fin 32) (o : BitVec 11)  -- R150
  | vldx (d : Fin 32) (a : Fin 32) (b : Fin 32)  -- R150
  | vstx (s : Fin 32) (a : Fin 32) (b : Fin 32)  -- R150
  | ldw32 (d : Fin 32) (a : Fin 32) (b : Fin 32)  -- R151
  | ldw64 (d : Fin 32) (a : Fin 32) (b : Fin 32)  -- R151
  | stw32 (s : Fin 32) (a : Fin 32) (b : Fin 32)  -- R151
  | stw64 (s : Fin 32) (a : Fin 32) (b : Fin 32)  -- R151
  | vldw (d : Fin 32) (a : Fin 32) (b : Fin 32)  -- R151
  | vstw (s : Fin 32) (a : Fin 32) (b : Fin 32)  -- R151
  | aadd (d : Fin 32) (a : Fin 32) (b : Fin 32) (width : AWidth) (r : Order) (s : Scope)  -- R154
  | aand (d : Fin 32) (a : Fin 32) (b : Fin 32) (width : AWidth) (r : Order) (s : Scope)  -- R154
  | aor (d : Fin 32) (a : Fin 32) (b : Fin 32) (width : AWidth) (r : Order) (s : Scope)  -- R154
  | axor (d : Fin 32) (a : Fin 32) (b : Fin 32) (width : AWidth) (r : Order) (s : Scope)  -- R154
  | amin (d : Fin 32) (a : Fin 32) (b : Fin 32) (width : AWidth) (r : Order) (s : Scope)  -- R154
  | amax (d : Fin 32) (a : Fin 32) (b : Fin 32) (width : AWidth) (r : Order) (s : Scope)  -- R154
  | aminu (d : Fin 32) (a : Fin 32) (b : Fin 32) (width : AWidth) (r : Order) (s : Scope)  -- R154
  | amaxu (d : Fin 32) (a : Fin 32) (b : Fin 32) (width : AWidth) (r : Order) (s : Scope)  -- R154
  | aswp (d : Fin 32) (a : Fin 32) (b : Fin 32) (width : AWidth) (r : Order) (s : Scope)  -- R154
  | acas (d : Fin 32) (a : Fin 32) (b : Fin 32) (width : AWidth) (r : Order) (s : Scope)  -- R154
  | afadd (d : Fin 32) (a : Fin 32) (b : Fin 32) (width : AWidth) (r : Order) (s : Scope)  -- R154
  | adecz (d : Fin 32) (a : Fin 32) (b : Fin 32) (width : AWidth) (r : Order) (s : Scope)  -- R154
  | fence (s : Scope)  -- R155
  | rprobe (d : Fin 32) (a : Fin 32)  -- R157
  | mwait (d : Fin 32) (a : Fin 32) (b : Fin 32) (width : Bool) (s : Scope)  -- R158
  | cpy (d : Fin 32) (a : Fin 32) (b : Fin 32) (m : Bool) (n : Bool) (t : Fin 16)  -- R159
  | cpy2d (d : Fin 32) (a : Fin 32) (b : Fin 32) (m : Bool) (n : Bool) (t : Fin 16)  -- R159
  | lcp (a : Fin 32) (b : Fin 32) (m : Bool) (t : Fin 16)  -- R159
  | lcpNf (d : Fin 8) (a : Fin 32) (b : Fin 32) (m : Bool) (t : Fin 16)  -- R162
  | lcs (a : Fin 32) (b : Fin 32) (m : Bool) (t : Fin 16)  -- R159
  | rdc (d : Fin 32) (a : Fin 32) (b : Fin 32) (m : Bool) (t : Fin 16)  -- R159
  | ired (a : Fin 32) (m : Bool) (t : Fin 16)  -- R389
  | ctw (d : Fin 32) (t : Fin 16)  -- R166
  | ctq (d : Fin 32) (t : Fin 16)  -- R166
  | qpop (d : Fin 32) (a : Fin 32) (q : Port)  -- R168
  | qpopl (d : Fin 32) (a : Fin 32) (pr : Fin 8) (q : Port)  -- R169
  | qpeek (d : Fin 32) (a : Fin 32) (pr : Fin 8) (q : Port)  -- R169
  | qcnt (d : Fin 32) (a : Fin 32) (q : Port)  -- R170
  | qwait (a : Fin 32) (q : Port)  -- R170
  | qpush (a : Fin 32)  -- R170
  | msend (a : Fin 32) (b : Fin 32)  -- R171
  | hsend (a : Fin 32) (b : Fin 32)  -- R171
  | rsend (b : Fin 32)  -- R269
  | bsend (b : Fin 32)  -- R363
  | xsend (a : Fin 32) (b : Fin 32) (xm : XMode)  -- R175
  | xred (a : Fin 32) (b : Fin 32) (xm : Bool)  -- R175
  | gvote (d : Fin 32) (a : Fin 32)  -- R176
  | launch (a : Fin 32)  -- R177
  | launchNb (d : Fin 8) (a : Fin 32)  -- R177
  | ekickGecko (a : Fin 32)  -- R380
  | ekickRake (a : Fin 32)  -- R352
  | ekickCham (a : Fin 32)  -- R392
  | ztst (s : Fin 32) (a : Fin 32) (o : BitVec 11)  -- R206
  | add (d : Fin 32) (a : Fin 32) (b : Fin 32)  -- R87
  | sub (d : Fin 32) (a : Fin 32) (b : Fin 32)  -- R87
  | and (d : Fin 32) (a : Fin 32) (b : Fin 32)  -- R87
  | or (d : Fin 32) (a : Fin 32) (b : Fin 32)  -- R87
  | xor (d : Fin 32) (a : Fin 32) (b : Fin 32)  -- R87
  | andn (d : Fin 32) (a : Fin 32) (b : Fin 32)  -- R87
  | shl (d : Fin 32) (a : Fin 32) (b : Fin 32)  -- R87
  | shr (d : Fin 32) (a : Fin 32) (b : Fin 32)  -- R87
  | sar (d : Fin 32) (a : Fin 32) (b : Fin 32)  -- R87
  | rol (d : Fin 32) (a : Fin 32) (b : Fin 32)  -- R87
  | min (d : Fin 32) (a : Fin 32) (b : Fin 32)  -- R87
  | max (d : Fin 32) (a : Fin 32) (b : Fin 32)  -- R87
  | minu (d : Fin 32) (a : Fin 32) (b : Fin 32)  -- R87
  | maxu (d : Fin 32) (a : Fin 32) (b : Fin 32)  -- R87
  | slt (d : Fin 32) (a : Fin 32) (b : Fin 32)  -- R87
  | sltu (d : Fin 32) (a : Fin 32) (b : Fin 32)  -- R87
  | mul (d : Fin 32) (a : Fin 32) (b : Fin 32)  -- R88
  | mulh (d : Fin 32) (a : Fin 32) (b : Fin 32)  -- R88
  | mulhu (d : Fin 32) (a : Fin 32) (b : Fin 32)  -- R88
  | div (d : Fin 32) (a : Fin 32) (b : Fin 32)  -- R88
  | divu (d : Fin 32) (a : Fin 32) (b : Fin 32)  -- R88
  | rem (d : Fin 32) (a : Fin 32) (b : Fin 32)  -- R88
  | remu (d : Fin 32) (a : Fin 32) (b : Fin 32)  -- R88
  | sel (d : Fin 32) (a : Fin 32) (b : Fin 32)  -- R89
  | clz (d : Fin 32) (a : Fin 32)  -- R89
  | ctz (d : Fin 32) (a : Fin 32)  -- R89
  | popc (d : Fin 32) (a : Fin 32)  -- R89
  | bfx (d : Fin 32) (a : Fin 32) (b : Fin 32)  -- R89
  | bfi (d : Fin 32) (a : Fin 32) (b : Fin 32)  -- R89
  | mov (d : Fin 32) (a : Fin 32)  -- R90
  | lea (d : Fin 32) (a : Fin 32) (b : Fin 32)  -- R90
  | wadr (d : Fin 32) (a : Fin 32) (b : Fin 32)  -- R90
  | addi (d : Fin 32) (a : Fin 32) (i : BitVec 11)  -- R91
  | andi (d : Fin 32) (a : Fin 32) (i : BitVec 11)  -- R91
  | ori (d : Fin 32) (a : Fin 32) (i : BitVec 11)  -- R91
  | xori (d : Fin 32) (a : Fin 32) (i : BitVec 11)  -- R91
  | shli (d : Fin 32) (a : Fin 32) (s : BitVec 6)  -- R91
  | shri (d : Fin 32) (a : Fin 32) (s : BitVec 6)  -- R91
  | sari (d : Fin 32) (a : Fin 32) (s : BitVec 6)  -- R91
  | li (d : Fin 32) (i : BitVec 11)  -- R91
  | lui (d : Fin 32) (i : BitVec 19)  -- R92
  | lhi (d : Fin 32) (i : BitVec 19)  -- R92
  | vadd (d : Fin 32) (a : Fin 32) (b : Fin 32) (t : View) (pr : Fin 8)  -- R122
  | vsub (d : Fin 32) (a : Fin 32) (b : Fin 32) (t : View) (pr : Fin 8)  -- R122
  | vmul (d : Fin 32) (a : Fin 32) (b : Fin 32) (t : View) (pr : Fin 8)  -- R122
  | vmulh (d : Fin 32) (a : Fin 32) (b : Fin 32) (t : View) (pr : Fin 8)  -- R122
  | vmin (d : Fin 32) (a : Fin 32) (b : Fin 32) (t : View) (pr : Fin 8)  -- R122
  | vmax (d : Fin 32) (a : Fin 32) (b : Fin 32) (t : View) (pr : Fin 8)  -- R122
  | vminu (d : Fin 32) (a : Fin 32) (b : Fin 32) (t : View) (pr : Fin 8)  -- R122
  | vmaxu (d : Fin 32) (a : Fin 32) (b : Fin 32) (t : View) (pr : Fin 8)  -- R122
  | vand (d : Fin 32) (a : Fin 32) (b : Fin 32) (t : View) (pr : Fin 8)  -- R122
  | vor (d : Fin 32) (a : Fin 32) (b : Fin 32) (t : View) (pr : Fin 8)  -- R122
  | vxor (d : Fin 32) (a : Fin 32) (b : Fin 32) (t : View) (pr : Fin 8)  -- R122
  | vshl (d : Fin 32) (a : Fin 32) (b : Fin 32) (t : View) (pr : Fin 8)  -- R122
  | vshr (d : Fin 32) (a : Fin 32) (b : Fin 32) (t : View) (pr : Fin 8)  -- R122
  | vsar (d : Fin 32) (a : Fin 32) (b : Fin 32) (t : View) (pr : Fin 8)  -- R122
  | vabs (d : Fin 32) (a : Fin 32) (t : View) (pr : Fin 8)  -- R122
  | vneg (d : Fin 32) (a : Fin 32) (t : View) (pr : Fin 8)  -- R122
  | vadds (d : Fin 32) (a : Fin 32) (b : Fin 32) (t : View) (pr : Fin 8)  -- R122
  | vsubs (d : Fin 32) (a : Fin 32) (b : Fin 32) (t : View) (pr : Fin 8)  -- R122
  | vaddsu (d : Fin 32) (a : Fin 32) (b : Fin 32) (t : View) (pr : Fin 8)  -- R122
  | vsubsu (d : Fin 32) (a : Fin 32) (b : Fin 32) (t : View) (pr : Fin 8)  -- R122
  | vcmpeq (d : Fin 8) (a : Fin 32) (b : Fin 32) (t : View) (pr : Fin 8)  -- R123
  | vcmpne (d : Fin 8) (a : Fin 32) (b : Fin 32) (t : View) (pr : Fin 8)  -- R123
  | vcmplt (d : Fin 8) (a : Fin 32) (b : Fin 32) (t : View) (pr : Fin 8)  -- R123
  | vcmple (d : Fin 8) (a : Fin 32) (b : Fin 32) (t : View) (pr : Fin 8)  -- R123
  | vcmpltu (d : Fin 8) (a : Fin 32) (b : Fin 32) (t : View) (pr : Fin 8)  -- R123
  | vcmpleu (d : Fin 8) (a : Fin 32) (b : Fin 32) (t : View) (pr : Fin 8)  -- R123
  | vsel (d : Fin 32) (a : Fin 32) (b : Fin 32) (pr : Fin 8)  -- R124
  | vdot4 (d : Fin 32) (a : Fin 32) (b : Fin 32) (t : Bool) (pr : Fin 8)  -- R125
  | vdot4u (d : Fin 32) (a : Fin 32) (b : Fin 32) (t : Bool) (pr : Fin 8)  -- R125
  | fadd (d : Fin 32) (a : Fin 32) (b : Fin 32) (t : FFmt) (pr : Fin 8)  -- R127
  | fsub (d : Fin 32) (a : Fin 32) (b : Fin 32) (t : FFmt) (pr : Fin 8)  -- R127
  | fmul (d : Fin 32) (a : Fin 32) (b : Fin 32) (t : FFmt) (pr : Fin 8)  -- R127
  | fmin (d : Fin 32) (a : Fin 32) (b : Fin 32) (t : FFmt) (pr : Fin 8)  -- R127
  | fmax (d : Fin 32) (a : Fin 32) (b : Fin 32) (t : FFmt) (pr : Fin 8)  -- R127
  | fabs (d : Fin 32) (a : Fin 32) (t : FFmt) (pr : Fin 8)  -- R127
  | fneg (d : Fin 32) (a : Fin 32) (t : FFmt) (pr : Fin 8)  -- R127
  | fcpsgn (d : Fin 32) (a : Fin 32) (b : Fin 32) (t : FFmt) (pr : Fin 8)  -- R127
  | fcmpeq (d : Fin 8) (a : Fin 32) (b : Fin 32) (t : FFmt) (pr : Fin 8)  -- R128
  | fcmplt (d : Fin 8) (a : Fin 32) (b : Fin 32) (t : FFmt) (pr : Fin 8)  -- R128
  | fcmple (d : Fin 8) (a : Fin 32) (b : Fin 32) (t : FFmt) (pr : Fin 8)  -- R128
  | fcmpun (d : Fin 8) (a : Fin 32) (b : Fin 32) (t : FFmt) (pr : Fin 8)  -- R128
  | fclass (d : Fin 32) (a : Fin 32) (t : FFmt) (pr : Fin 8)  -- R129
  | fround (d : Fin 32) (a : Fin 32) (m : RMode) (t : FFmt) (pr : Fin 8)  -- R127
  | cvtf (d : Fin 32) (a : Fin 32) (y : TyCode) (t : FFmt) (pr : Fin 8)  -- R131
  | cvtfi (d : Fin 32) (a : Fin 32) (y : TyCode) (t : FFmt) (pr : Fin 8)  -- R74
  | cvtif (d : Fin 32) (a : Fin 32) (y : TyCode) (t : FFmt) (pr : Fin 8)  -- R74
  | cvtq (d : Fin 32) (a : Fin 32) (y : TyCode) (t : FFmt) (pr : Fin 8)  -- R132
  | cvtdq (d : Fin 32) (a : Fin 32) (pr : Fin 8)  -- R69
  | cvtsr (d : Fin 32) (a : Fin 32) (y : TyCode) (t : FFmt) (pr : Fin 8)  -- R75
  | ffma (d : Fin 32) (a : Fin 32) (b : Fin 32) (c : Fin 32) (t : FFmt) (pr : Fin 4)  -- R130
  | ffms (d : Fin 32) (a : Fin 32) (b : Fin 32) (c : Fin 32) (t : FFmt) (pr : Fin 4)  -- R130
  | ffnma (d : Fin 32) (a : Fin 32) (b : Fin 32) (c : Fin 32) (t : FFmt) (pr : Fin 4)  -- R130
  | frcp (d : Fin 32) (a : Fin 32) (t : SFmt) (pr : Fin 8)  -- R133
  | frsq (d : Fin 32) (a : Fin 32) (t : SFmt) (pr : Fin 8)  -- R133
  | fsqrt (d : Fin 32) (a : Fin 32) (t : SFmt) (pr : Fin 8)  -- R133
  | fexp2 (d : Fin 32) (a : Fin 32) (t : SFmt) (pr : Fin 8)  -- R133
  | flog2 (d : Fin 32) (a : Fin 32) (t : SFmt) (pr : Fin 8)  -- R133
  | fsin (d : Fin 32) (a : Fin 32) (t : SFmt) (pr : Fin 8)  -- R133
  | fcos (d : Fin 32) (a : Fin 32) (t : SFmt) (pr : Fin 8)  -- R133
  | fdiv (d : Fin 32) (a : Fin 32) (b : Fin 32) (t : SFmt) (pr : Fin 8)  -- R133
  | vbcast (d : Fin 32) (a : Fin 32) (t : View) (pr : Fin 8)  -- R136
  | vget (d : Fin 32) (a : Fin 32) (b : Fin 32) (t : View) (pr : Fin 8)  -- R136
  | vput (d : Fin 32) (a : Fin 32) (b : Fin 32) (t : View) (pr : Fin 8)  -- R136
  | vperm (d : Fin 32) (a : Fin 32) (b : Fin 32) (t : View) (pr : Fin 8)  -- R136
  | vext (d : Fin 32) (a : Fin 32) (b : Fin 32) (t : View) (pr : Fin 8)  -- R137
  | vins (d : Fin 32) (a : Fin 32) (b : Fin 32) (t : View) (pr : Fin 8)  -- R137
  | vmov (d : Fin 32) (a : Fin 32) (pr : Fin 8)  -- R136
  | vli (d : Fin 32) (i : BitVec 11)  -- R126
  | vaddi (d : Fin 32) (a : Fin 32) (i : BitVec 11)  -- R126
  | vshli (d : Fin 32) (a : Fin 32) (s : BitVec 6)  -- R126
  | vshri (d : Fin 32) (a : Fin 32) (s : BitVec 6)  -- R126
  | wballot (d : Fin 32) (a : Fin 8) (b : Fin 32) (pr : Fin 8)  -- R141
  | wany (d : Fin 8) (a : Fin 8) (b : Fin 32) (pr : Fin 8)  -- R141
  | wall (d : Fin 8) (a : Fin 8) (b : Fin 32) (pr : Fin 8)  -- R141
  | wshfl (d : Fin 32) (a : Fin 32) (b : Fin 32) (pr : Fin 8)  -- R142
  | wshup (d : Fin 32) (a : Fin 32) (b : Fin 32) (pr : Fin 8)  -- R142
  | wshdn (d : Fin 32) (a : Fin 32) (b : Fin 32) (pr : Fin 8)  -- R142
  | wbfly (d : Fin 32) (a : Fin 32) (b : Fin 32) (pr : Fin 8)  -- R142
  | wsum (d : Fin 32) (a : Fin 32) (b : Fin 32) (t : View) (pr : Fin 8)  -- R143
  | wmin (d : Fin 32) (a : Fin 32) (b : Fin 32) (t : View) (pr : Fin 8)  -- R143
  | wmax (d : Fin 32) (a : Fin 32) (b : Fin 32) (t : View) (pr : Fin 8)  -- R143
  | wscan (d : Fin 32) (a : Fin 32) (b : Fin 32) (t : View) (pr : Fin 8)  -- R143
  | mshape (d : Fin 32) (a : Fin 32)  -- R186
  | mclaim (d : Fin 32)  -- R184
  | mzero (n : Fin 32)  -- R193
  | mgo (n : Fin 32) (a : Fin 32) (b : Fin 32) (r : Bool)  -- R188
  | msc (a : Fin 32)  -- R191
  | mrd (d : Fin 32) (n : Fin 32)  -- R193
  | mwr (n : Fin 32) (a : Fin 32)  -- R193
  | rep (n : BitVec 4) (c : BitVec 5) (s : BitVec 5)  -- R195
  | bxt (d : Fin 32) (a : Fin 32) (b : Fin 32) (pr : Fin 8)  -- R200
  | trix (d : Fin 32) (a : Fin 32) (b : Fin 32) (c : Cull) (pr : Fin 8)  -- R201
  | cdec (d : Fin 32) (a : Fin 32) (b : Fin 32) (pr : Fin 8)  -- R202
  | rbase (d : Fin 32) (a : Fin 32) (b : Fin 32) (pr : Fin 8)  -- R203
  | cov (d : Fin 32) (a : Fin 32) (b : Fin 32) (c : Cull) (pr : Fin 8)  -- R205
  | hcmp (d : Fin 32) (a : Fin 32) (b : Fin 32) (pr : Fin 8)  -- R204
  | nopC  -- R93
  | ret  -- R95
  | fim  -- R98
  | cyield  -- R104
  | cexit  -- R105
  | ifence  -- R156
  | xsync  -- R176
  | gbar  -- R176
  | nopA  -- R93
  | mrel  -- R184
  | repe  -- R195
  | illegalBundle  -- R46
  | sfuResultRetire  -- R135
  | windowRequest  -- R152
  | windowResponse  -- R152
  | parkedResume  -- R213
  | c0CompletionReport  -- R105
  | waveFormation  -- R106
  | partialWaveTimeout  -- R284
  | waveInstancePerform  -- R139
  | wsyncComplete  -- R108
  | gangBarrierComplete  -- R188
  | matrixOpStart  -- R189
  | scaleFifoConsume  -- R191
  | matrixOpEnd  -- R192
  | replayIssue  -- R196
  | flitInject  -- R175
  | xredChainAdd  -- R258
  | flitLanding  -- R259
  | xlongPhaseEnd  -- R458
  | xsyncComplete  -- R176
  | inboxArrival  -- R171
  | hitSorterArrival  -- R283
  | mailboxArrival  -- R165
  | overflowReturn  -- R172
  | copyRequestReceipt  -- R161
  | copySectorWrite  -- R161
  | copyComplete  -- R161
  | heatRaise  -- R339
  | sweeperHalving  -- R339
  | pageRequestGroup  -- R341
  | pageRequestResponse  -- R342
  | rdcSectorUpdate  -- R388
  | iredFold  -- R390
  | iredCombine  -- R390
  | geckoWalkStart  -- R382
  | geckoMigration  -- R384
  | geckoStepLimit  -- R384
  | geckoWalkEnd  -- R386
  | rakeCommand  -- R353
  | rakeCompletion  -- R358
  | chameleonCommand  -- R396
  | chameleonWindowAck  -- R398
  | chameleonEnd  -- R400
  | rayAtHome  -- R276
  | rayArrival  -- R278
  | salternCacheFill  -- R373
  | pageIn  -- R374
  | evictionIdleCheck  -- R374
  | treeletFillComplete  -- R374
  | initialPin  -- R368
  | heatPeriodEnd  -- R378
  | lport  -- R308
  | launchValidate  -- R312
  | waitWordCheck  -- R313
  | launchSelection  -- R314
  | panGrant  -- R315
  | c0Start  -- R317
  | swapOut  -- R319
  | groupRestore  -- R333
  | preemptDelivery  -- R325
  | deferredHalt  -- R326
  | coreSave  -- R328
  | groupRetirement  -- R321
  | launchEnd  -- R322
  | iqtail  -- R410
  | invalidationStart  -- R343
  | invalidationComplete  -- R343
  | atsInvalidateRequest  -- R344
  | atsInvalidateCompletion  -- R344
  | atsTranslationResponse  -- R412
  | pmap  -- R406
  | registerWrite  -- R9
  | hostBar2Access  -- R408
  | priReset  -- R412
  | lenboFlitReceive  -- R404
  | lenboNak  -- R404
  | lenboLaneLoss  -- R404
  | lenboLinkDown  -- R434
  | lenboPacketReceive  -- R407
  | lenboRetransmitTimeout  -- R407
  | epochRefusal  -- R407
  | lenboRequestGiveUp  -- R435
  | lenboCreditReturn  -- R405
  | widthreq  -- R434
  | scrub  -- R427
  | repeatedCorrection  -- R427
  | brineDivergence  -- R440
  | dbgctlStop  -- R452
  | dbgctlDump  -- R452
  | dbgctlLoad  -- R452
  | dbgctlResume  -- R452
  | thermalWarning  -- R454
  | thermalTrip  -- R454
  | thermalRecover  -- R454
  | thermalPowerOff  -- R454
  | powerUp  -- R445
  | fundamentalReset  -- R450
  | functionLevelReset  -- R450
  | getVersion  -- R448
  | getCapabilities  -- R448
  | negotiateAlgorithms  -- R448
  | getDigests  -- R448
  | getCertificate  -- R448
  | challenge  -- R448
  | getMeasurements  -- R448
  | powerOff  -- R450
  deriving DecidableEq, Repr

/-- Whether the instruction is an encoded word; the other rows are device events. -/
def Instr.isWord : Instr → Bool
  | .illegalBundle => false
  | .sfuResultRetire => false
  | .windowRequest => false
  | .windowResponse => false
  | .parkedResume => false
  | .c0CompletionReport => false
  | .waveFormation => false
  | .partialWaveTimeout => false
  | .waveInstancePerform => false
  | .wsyncComplete => false
  | .gangBarrierComplete => false
  | .matrixOpStart => false
  | .scaleFifoConsume => false
  | .matrixOpEnd => false
  | .replayIssue => false
  | .flitInject => false
  | .xredChainAdd => false
  | .flitLanding => false
  | .xlongPhaseEnd => false
  | .xsyncComplete => false
  | .inboxArrival => false
  | .hitSorterArrival => false
  | .mailboxArrival => false
  | .overflowReturn => false
  | .copyRequestReceipt => false
  | .copySectorWrite => false
  | .copyComplete => false
  | .heatRaise => false
  | .sweeperHalving => false
  | .pageRequestGroup => false
  | .pageRequestResponse => false
  | .rdcSectorUpdate => false
  | .iredFold => false
  | .iredCombine => false
  | .geckoWalkStart => false
  | .geckoMigration => false
  | .geckoStepLimit => false
  | .geckoWalkEnd => false
  | .rakeCommand => false
  | .rakeCompletion => false
  | .chameleonCommand => false
  | .chameleonWindowAck => false
  | .chameleonEnd => false
  | .rayAtHome => false
  | .rayArrival => false
  | .salternCacheFill => false
  | .pageIn => false
  | .evictionIdleCheck => false
  | .treeletFillComplete => false
  | .initialPin => false
  | .heatPeriodEnd => false
  | .lport => false
  | .launchValidate => false
  | .waitWordCheck => false
  | .launchSelection => false
  | .panGrant => false
  | .c0Start => false
  | .swapOut => false
  | .groupRestore => false
  | .preemptDelivery => false
  | .deferredHalt => false
  | .coreSave => false
  | .groupRetirement => false
  | .launchEnd => false
  | .iqtail => false
  | .invalidationStart => false
  | .invalidationComplete => false
  | .atsInvalidateRequest => false
  | .atsInvalidateCompletion => false
  | .atsTranslationResponse => false
  | .pmap => false
  | .registerWrite => false
  | .hostBar2Access => false
  | .priReset => false
  | .lenboFlitReceive => false
  | .lenboNak => false
  | .lenboLaneLoss => false
  | .lenboLinkDown => false
  | .lenboPacketReceive => false
  | .lenboRetransmitTimeout => false
  | .epochRefusal => false
  | .lenboRequestGiveUp => false
  | .lenboCreditReturn => false
  | .widthreq => false
  | .scrub => false
  | .repeatedCorrection => false
  | .brineDivergence => false
  | .dbgctlStop => false
  | .dbgctlDump => false
  | .dbgctlLoad => false
  | .dbgctlResume => false
  | .thermalWarning => false
  | .thermalTrip => false
  | .thermalRecover => false
  | .thermalPowerOff => false
  | .powerUp => false
  | .fundamentalReset => false
  | .functionLevelReset => false
  | .getVersion => false
  | .getCapabilities => false
  | .negotiateAlgorithms => false
  | .getDigests => false
  | .getCertificate => false
  | .challenge => false
  | .getMeasurements => false
  | .powerOff => false
  | _ => true

end Sys2Proof
end

