-- ==== Sys2Proof/Machine/State.lean ====
section
/-! DEFINITION. The state of the machine: everything the manual gives a package, as plain data, the reasons a
step can stop, and the state after reset. -/

namespace Sys2Proof.Machine

/-- Why the machine stops. -/
inductive Fault where
  /-- The package has no power and nothing is pending: no agent takes a step (R449, R450, R454). Raised by
  `step`. Safe: nothing can be proved of a package that is off. -/
  | powerless
  deriving DecidableEq, Repr

/-- Why a step is refused. -/
inductive Refusal where
  /-- An instruction that has no meaning yet, by its mnemonic. Raised by `exec`. Safe. -/
  | notModelled (mnemonic : String)
  deriving DecidableEq, Repr

/-! ### Contexts (R13, R16, R17, R21 to R24, R208) -/

/-- Kind of a mask-stack entry (R16). -/
inductive MaskKind where
  | ifKind
  | loopKind
  | repeatKind
  deriving DecidableEq, Repr

/-- A mask-stack entry (R16); `bad` is an uncorrectable entry (R429). -/
structure MaskEntry where
  mask : Mask := 0
  kind : MaskKind := .ifKind
  resume : Off := 0
  bad : Bool := false
  deriving DecidableEq, Repr

/-- A destination register with a write pending. -/
inductive Dest where
  | none
  | g (r : Fin 32)
  | v (r : Fin 32) (lanes : Mask)
  | p (r : Fin 8)
  deriving DecidableEq, Repr

/-- An undelivered WINDOW or FABRIC report (R153). -/
structure Report where
  cause : Cause
  va : Word
  off : Off
  dst : Dest
  deriving DecidableEq, Repr

/-- What a context is stalled in (R103, R208). -/
inductive BlockKind where
  /-- the context it waits for -/
  | cwait (c : Fin 11)
  | wform
  | wsync
  /-- the count it waits for -/
  | qwait (q : Port) (n : Nat)
  /-- the port, and the entry of q1 asked for (R168) -/
  | qpop (q : Port) (sel : BitVec 9)
  | mwait (swap : Bool) (va bound : Word)
  | ctw (t : Fin 16)
  | launch
  | wave
  | gang
  | reord
  | save
  /-- a supervisor access held by a parked copy, and the missing pages it waits for (R214) -/
  | parkWait (vas : List Nat)
  | other
  deriving DecidableEq, Repr

/-- A stall: its kind, when it began, and the offset of the stalled word. -/
structure Block where
  kind : BlockKind
  since : Nat
  off : Off
  deriving DecidableEq, Repr

/-- The wave instructions (R138 to R143). -/
inductive WaveFn where
  | ballot
  | any
  | all
  | shfl
  | shup
  | shdn
  | bfly
  | sum
  | min
  | max
  | scan
  deriving DecidableEq, Repr

/-- A wave operation of a context (R139): the instruction, its operands as read at issue, the lanes active in it,
the poisoned ones among them, where issue goes on, and whether it is a replayed word (R196). -/
structure WaveOp where
  fn : WaveFn
  view : View
  dst : Fin 32
  src : VReg
  old : VReg
  pred : Mask
  bad : Mask
  members : BitVec 32
  arg : Word
  active : Mask
  since : Nat
  next : Off
  replayed : Bool
  deriving DecidableEq, Repr

/-- An entry of the hit sorter (R283): key, kind (none a hit record, some the resume offset of a reorder entry),
payload words with marks, stamp. -/
structure HitEntry where
  key : Byte
  resume : Option Off
  words : List Word
  marks : List Bool
  stamp : Word
  /-- its place in the order of arrival at the sorter (R215) -/
  num : Nat := 0
  /-- it stands in its overflow ring in main memory -/
  ring : Bool := false
  deriving DecidableEq, Repr

/-- What a formation leaves for a member (R107): gD; KWAVE and KLANE, none for a member without a lane; its lanes; the
entries dealt and how many v registers they fill, none in a plain wave; the resume offset of a reorder wave. The
registers are written when the `wform` issues, so that the A-word of its pair reads those before it (R34). -/
structure Formed where
  gd : Word
  wave : Option (Word × Word) := none
  own : Option Mask := none
  regs : Nat := 0
  entries : List HitEntry := []
  resume : Option Off := none
  deriving DecidableEq, Repr

/-- What ends a wait in `wform` or `wsync` (R106 to R108): a formation, the completion of a `wsync`, or a fault; in
`cwait` or `qwait`, that what the context waits for has come (R209, R216). -/
inductive Wake where
  | formed (f : Formed)
  | synced
  | fault (c : Cause)
  | released
  deriving DecidableEq, Repr

/-- The general registers with their poison marks (R13, R19). -/
structure Regs where
  g : Vector Word 32
  v : Vector VReg 32
  p : Vector Mask 8
  gMark : BitVec 32
  /-- bit 4n + L marks lane L of vn -/
  vMark : BitVec 128
  pMark : BitVec 8
  /-- what `Core.epoch` was when each g register was last written (R232; log 30) -/
  gAt : Vector Nat 32 := Vector.replicate 32 0
  deriving DecidableEq, Repr

/-- The K-registers of scope context that hold a value of their own (R21 to R24). -/
structure KRegs where
  cause : Word := 0
  epc : Word := 0
  addr : Word := 0
  lres : Word := 0
  lf : Vector Word 4 := Vector.replicate 4 0
  spill : Word := 0
  utvec : Word := 0
  fpc : Word := 0
  seed : Word := 0
  mshape : Word := 0
  lane : Word := 0xFFFFFFFF
  wave : Word := 0
  group : Word := 0
  pan : Word := 0
  launch : Word := 0
  sscr0 : Word := 0
  sscr1 : Word := 0
  /-- poison marks by K-register number (R85) -/
  mark : BitVec 192 := 0
  deriving DecidableEq, Repr

/-- Active mask, mask stack and return stack (R16, R17). -/
structure Flow where
  kmask : Mask := 0xF
  stack : Vector MaskEntry 32 := Vector.replicate 32 {}
  kmsd : BitVec 6 := 0
  ret : Vector Off 8 := Vector.replicate 8 0
  retBad : BitVec 8 := 0
  depth : BitVec 4 := 0
  spilled : BitVec 16 := 0
  deriving DecidableEq, Repr

/-- A bundle that a `tret` or the end of a parking is still to issue in some lanes (R112, R213): the lanes of its C-word,
and what the context goes back to when it is stopped before that: the cause it came from, PC and mode, and whether it
was parked. -/
structure Redo where
  lanes : Mask
  cause : Word
  pc : Off
  mode : Bool
  parked : Bool
  deriving DecidableEq, Repr

/-- A context (R13, R208). -/
structure Context where
  r : Regs
  k : KRegs := {}
  f : Flow := {}
  pc : Off := 0
  mode : Bool := false
  pmode : Bool := false
  sstep : Bool := false
  live : Bool := false
  susp : Bool := false
  parked : Bool := false
  ending : Bool := false
  /-- what ended a wait, not yet taken -/
  wake : Option Wake := none
  block : Option Block := none
  /-- the A-word at the PC is executed alone (R112, R457) -/
  aword : Bool := false
  /-- lanes the C-word of the next bundle is limited to (R112) -/
  reLanes : Option Redo := none
  /-- bundles read ahead under an earlier KSEGn: offset and words (R29, R225) -/
  fbuf : List (Off × Nat × Nat) := []
  gPend : BitVec 32 := 0
  vPend : BitVec 32 := 0
  pPend : BitVec 8 := 0
  reports : List Report := []
  waveOp : Option WaveOp := none
  /-- wave operations that failed a local check and count as arrived, oldest first (R140) -/
  waveFaults : List WaveOp := []
  /-- operand of a waiting `wform` or `wsync` -/
  req : Option Word := none
  /-- value a remote `mwait` read brought back, with its mark -/
  mwaitVal : Option (Word × Bool) := none
  /-- window accesses of the starter that a helper's first bundle waits for (R102) -/
  after : List Nat := []
  /-- the word and bound of a `mwait.swap` that a save withdrew (R158, R319) -/
  offer : Option (Word × Word) := none
  /-- contexts a `cyield` waits for (R104) -/
  yieldFor : BitVec 11 := 0
  /-- treelet hold mask (R370) -/
  hold : BitVec 6 := 0
  /-- main-memory addresses of the missing pages a parked context waits for (R212) -/
  waitVA : List Nat := []
  deriving DecidableEq, Repr

/-! ### Per-core state (R14, R21, R331) -/

/-- What a window store of another core has overwritten in ULM, for the contexts that no rule lets see the new bytes yet
(R232; log 30): offset, old bytes and whether they were poisoned, the number of the store at its core, the contexts. -/
structure Overwritten where
  off : Nat
  old : List Byte
  bad : Bool
  at_ : Nat
  open_ : BitVec 11
  deriving DecidableEq, Repr

/-- Operation of an atomic (R154). -/
inductive AtomFn where
  | add
  | and
  | or
  | xor
  | min
  | max
  | minu
  | maxu
  | swp
  | cas
  | fadd
  | decz
  deriving DecidableEq, Repr

/-- What a window entry does at the receiving port (R151, R154, R158, R157). -/
inductive WinOp where
  | ld (n : Nat)
  | st (n : Nat)
  | vld (lanes : Mask)
  | vst (lanes : Mask)
  | atom (fn : AtomFn) (width : AWidth)
  | mwait
  | probe
  deriving DecidableEq, Repr

/-- The answer of a window access (R152, R153). -/
structure WinResp where
  cause : Cause
  data : VReg
  mark : Mask
  deriving DecidableEq, Repr

/-- An outstanding window access (R151, R152). -/
structure WinEntry where
  id : Nat
  ctx : Fin 11
  off : Off
  op : WinOp
  va : Word
  data : VReg
  cmp : Word
  dst : Dest
  /-- it is an acquire (R235) -/
  acq : Bool
  resp : Option WinResp
  /-- sent to another package over Lenbo, with its SEQ -/
  remote : Option Nat
  /-- marked words of the data to be written (R425) -/
  mark : Mask := 0
  /-- the segments of the target core when the access issued, where it was there (R29) -/
  segs : Option (Vector Word 4) := none
  deriving DecidableEq, Repr

/-- An entry of a queue: its bytes as 64-bit words, and their marks (R6, R425). -/
structure QEntry where
  words : List Word
  marks : List Bool
  /-- it stands in its overflow ring in main memory -/
  ring : Bool := false
  deriving DecidableEq, Repr

/-- A range of own-ULM offsets, from `lo` up to but not including `hi`. -/
structure Range where
  lo : Nat
  hi : Nat
  deriving DecidableEq, Repr

/-- A copy tag (R163, R166). `parked` pairs a range with the missing address; `landing` holds such pairs whose page has
come, until the copy has landed (R213). -/
structure Tag where
  count : Nat := 0
  status : Cause := 0
  poisoned : BitVec 32 := 0
  dst : Option Range := none
  src : Option Range := none
  failed : List Range := []
  parked : List (Range × Nat) := []
  landing : List (Range × Nat) := []
  deriving DecidableEq, Repr

/-- State of a treelet slot (R369). -/
inductive SlotState where
  | free
  | filling
  | resident
  | evicting
  deriving DecidableEq, Repr

/-- A row of the slot table (R369). -/
structure Slot where
  id : Nat := 0
  state : SlotState := .free
  count : Nat := 0
  last : Nat := 0
  /-- KCYCLE when the fill was complete (R375) -/
  stamp : Word := 0
  deriving DecidableEq, Repr

/-- A home entry of the saltern: identifier, pan key, replicas as (core, slot) in order (R372); whose it is. -/
structure Home where
  id : Nat
  pan : Nat
  launch : Nat
  reps : List (Nat × Nat)
  /-- replicas marked leaving, once for each agent that asks (R374) -/
  leaving : List (Nat × Nat) := []
  sum : Nat := 0
  lastSum : Nat := 0
  deriving DecidableEq, Repr

/-- The repetition buffer (R195 to R197, R330). -/
structure Rep where
  owner : Fin 11
  words : List (BitVec 32)
  offs : List Off
  n : Nat
  stride : BitVec 5
  count : Nat
  iter : Nat
  next : Nat
  capturing : Bool
  /-- traps taken since, and not returned from (R197) -/
  suspended : Nat
  ended : Bool
  /-- the uncorrectable words (R429) -/
  bad : BitVec 16 := 0
  deriving DecidableEq, Repr

/-- The operand latch (R189). -/
structure Latch where
  a5 : Nat
  rows : List VReg
  marks : List Mask
  deriving DecidableEq, Repr

/-- An `mgo` that has arrived at the gang barrier (R188). -/
structure Arrival where
  ctx : Fin 11
  off : Off
  next : Off
  d5 : Nat
  a5 : Nat
  gB : Word
  keep : Bool
  shape : Word
  super : Bool
  /-- it is a replayed word -/
  replayed : Bool
  /-- the barrier that completed with it -/
  read : Option Nat
  /-- the tick in which its core's port last read a sector of B (R263) -/
  port : Option Nat := none
  /-- the operation has started in this tick, and the `mgo` has issued (R188) -/
  started : Bool := false
  deriving DecidableEq, Repr

/-- A running matrix operation of a core (R189, R190): where it goes, what the A side and the B side hold, the
blocks of scales consumed, whether it is out of step. -/
structure MatOp where
  /-- the barrier it came from, the same at every participant -/
  id : Nat
  ctx : Fin 11
  off : Off
  d5 : Nat
  shape : Word
  rows : List VReg
  marks : List Mask
  b : List Byte
  bMark : List Bool
  scales : List VReg
  blocks : Nat
  endTick : Nat
  desync : Bool
  /-- a residue mismatch: every element written is marked (R428) -/
  residue : Bool := false
  /-- it met an uncorrectable scale entry of its core (R429) -/
  scaleBad : Bool := false
  deriving DecidableEq, Repr

/-- An SFU result on its way (R51, R135). -/
structure SfuItem where
  ctx : Fin 11
  dst : Fin 32
  value : VReg
  lanes : Mask
  flags : BitVec 5
  deriving DecidableEq, Repr

/-- What a core is doing (R208, R221, R317, R325). -/
inductive RunState where
  | free
  | setup
  | running
  | halting
  | halted
  | saved
  | stopped
  deriving DecidableEq, Repr

/-- Kind of a barrier arrival of a core (R176). -/
inductive BarKind where
  | xsync
  | gbar
  | gvote (vote : Bool) (dst : Fin 32)
  deriving DecidableEq, Repr

/-- How a barrier ended for a core that waits in it (R176, R458). -/
inductive BarEnd where
  | done (gvote : Word)
  | trap (c : Cause) (addr : Word) (gvote : Option Word)
  deriving DecidableEq, Repr

/-- A message in the send buffer or on its way (R171): kind of send, target core, key, sender, words, marks. -/
inductive SendKind where
  | msend
  | hsend
  | rsend
  | bsend
  | mail
  deriving DecidableEq, Repr

/-- A message under way. -/
structure Msg where
  id : Nat
  kind : SendKind
  sender : Nat
  ctx : Fin 11
  launch : Nat
  target : Nat
  key : Byte
  off : Off
  va : Word
  words : List Word
  marks : List Bool
  deriving DecidableEq, Repr

/-- A core (R14, R21, R331). Its contexts are eleven. -/
structure Core where
  ctxs : Vector Context 11
  run : RunState := .free
  launch : Nat := 0
  group : Nat := 0
  helpers : Nat := 0
  /-- round-robin pointer and the contexts tried since (R210) -/
  rr : Fin 11 := 0
  tried : Nat := 0
  kseg : Vector Word 4
  kxph : BitVec 32 := 0
  kwtmo : BitVec 16 := 256
  kstvec : Word := 0
  kbrine : Word := 0
  kerr : Word := 0
  klatent : BitVec 32 := 0
  /-- poison marks of per-core K-registers by number (R85) -/
  kMark : BitVec 192 := 0
  claim : Option (Fin 11) := none
  acc : Vector VReg 32 := Vector.replicate 32 0
  /-- bit 64N + 8r + c (R330) -/
  accMark : BitVec 256 := 0
  fifo : List VReg := []
  fifoBad : List Bool := []
  latch : Option Latch := none
  desync : Option Off := none
  /-- the report that is pending is that of an uncorrectable scale entry (R429) -/
  scaleBad : Bool := false
  arrival : Option Arrival := none
  matOp : Option MatOp := none
  rep : Option Rep := none
  sfu : List SfuItem := []
  q0 : List QEntry := []
  q2 : List QEntry := []
  q3 : List QEntry := []
  /-- overflow rings of q0, q2 and q3, oldest first, with their indexes (R172, R282, R331) -/
  ov0 : List QEntry := []
  ov2 : List QEntry := []
  ov3 : List QEntry := []
  ovIdx : Vector Word 8 := Vector.replicate 8 0
  tags : Vector Tag 16 := Vector.replicate 16 {}
  win : List WinEntry := []
  /-- the last window stores of other cores, the newest first, and how many there were (R232; log 30) -/
  past : List Overwritten := []
  epoch : Nat := 0
  sends : List Nat := []
  slots : Vector Slot 6 := Vector.replicate 6 {}
  /-- forwarding pointers, oldest first (R376) -/
  fptrs : List (Nat × Nat) := []
  /-- saltern cache: the most recently used first (R373) -/
  scache : List Home := []
  dbgWord : Word := 0
  dbgHalt : Bool := false
  /-- XLONG waits for the next bundle (R174) -/
  xlongDue : Bool := false
  /-- barriers that an XLONG already ended for this core, in order: true when the next barrier instruction is it, false when
  it is the next `xsync` or `gvote` (R458) -/
  owed : List Bool := []
  barrier : Option BarKind := none
  barEnd : Option BarEnd := none
  /-- a refused kick or a core fault waits for the distributor -/
  faulted : Option EndInfo := none
  /-- the supervisor segment holds the core supervisor; how far it has come with the start (R317); a BREAK has halted
  the core for a debugger (R222) -/
  sup : Bool := false
  boot : Nat := 0
  brkHeld : Bool := false
  deriving DecidableEq, Repr

/-! ### Beds and groups (R4, R106, R172, R283; R173 to R176, R253 to R261, R318 to R320) -/

/-- A bed: its hit sorter, overflow, formation count; pending `wform` and `wsync` stand in the contexts. -/
structure Bed where
  sorter : List HitEntry := []
  spill : List HitEntry := []
  ovIdx : Vector Word 2 := Vector.replicate 2 0
  forms : BitVec 16 := 0
  deriving DecidableEq, Repr

/-- Use of a router output in a tick, by a flit (R255, R260): router core, output (0 inject, 1 north, 2 east,
3 south, 4 west, 5 eject). -/
structure LinkUse where
  tick : Nat
  router : Nat
  out : Nat
  flit : Nat
  deriving DecidableEq, Repr

/-- A flit that will land (R256 to R259); `segs` are the segments of its target when its instruction issued (R29). -/
structure Flit where
  id : Nat
  target : Nat
  doff : Nat
  tick : Nat
  data : VReg
  mark : Bool
  met : Bool
  segs : Vector Word 4 := Vector.replicate 4 0
  deriving DecidableEq, Repr

/-- A core that contributes to a reduction (R175, R258): `base` is the tick of its first slot, `done` counts the flits
read. -/
structure Contrib where
  core : Nat
  row : Bool
  s : Nat
  f : Nat
  tgt : Nat
  doff : Nat
  soff : Nat
  base : Nat
  done : Nat
  /-- the segments of the target cores when it issued (R29) -/
  segs : List (Nat × Vector Word 4) := []
  deriving DecidableEq, Repr

/-- A unicast or multicast send in progress (R175): flits are injected one a slot. -/
structure Xsend where
  id : Nat
  core : Nat
  mode : XMode
  s : Nat
  f : Nat
  tgt : Nat
  doff : Nat
  soff : Nat
  base : Nat
  done : Nat
  /-- the segments of the target cores when it issued (R29) -/
  segs : List (Nat × Vector Word 4) := []
  deriving DecidableEq, Repr

/-- Residency of a group (R320). -/
inductive GroupState where
  | notStarted
  | setup
  | resident
  | swapped
  | preempted
  | retired
  deriving DecidableEq, Repr

/-- A record in a pending-launch queue (R318): its offset in the issuing core, its bytes, and who issued it. -/
structure PendRec where
  va : Nat
  bytes : List Byte
  core : Nat
  ctx : Fin 11
  deriving DecidableEq, Repr

/-- A group of a launch. -/
structure Group where
  launch : Nat
  num : Nat
  corner : Nat
  w : Nat
  h : Nat
  st : GroupState := .notStarted
  kxslot : Nat := 0
  exch : Bool := false
  /-- conditions of R175 recorded in this phase, by slot and core; those of its injections that the next phase names count
  on from 1000 (R253) -/
  xcolls : List (Nat × Nat) := []
  /-- the tick in which the barrier of this phase completes, once every core has arrived (R261) -/
  ready : Option Nat := none
  uses : List LinkUse := []
  flits : List Flit := []
  xsends : List Xsend := []
  contribs : List Contrib := []
  pending : List PendRec := []
  head : Option Nat := none
  deferred : Bool := false
  /-- phases of R253 were frozen at this slot by a save -/
  done : Nat := 0
  deriving DecidableEq, Repr

/-! ### Memory side (R159 to R166, R334 to R344, R352 to R401) -/

/-- A copy or reduction outstanding (R159 to R162, R388, R390): `next` counts the chunks done. -/
inductive CopyKind where
  | cpy
  | cpy2d
  | lcp
  | lcs
  | rdc
  | ired
  /-- a chunk of a Chameleon command: `idx` holds the command, the chunk, and the packages that own main-memory ends,
  1024 standing for this one (R398) -/
  | chunk
  deriving DecidableEq, Repr

/-- A copy outstanding. -/
structure Copy where
  id : Nat
  kind : CopyKind
  core : Nat
  ctx : Fin 11
  tag : Fin 16
  launch : Nat
  pasid : Nat
  dst : Word
  src : Word
  shape : Word
  /-- per-lane addresses of `lcp` and `lcs`, with their lanes -/
  lanes : List (Nat × Word)
  nf : Bool
  mb : Bool
  pd : Option (Fin 8)
  pdBits : Mask
  dstR : Option Range
  srcR : Option Range
  next : Nat
  started : Bool
  status : Cause
  poisoned : Nat
  zeroed : Nat
  /-- the first destination address in copy order of a condition met, with its place in that order -/
  addr : Option (Nat × Word)
  /-- source sectors read, each once and in one step: first address, bytes, poison, and whether zeros stand for a missing page
  (R241) -/
  read : List (Nat × List Byte × Bool × Bool) := []
  /-- missing granules it is parked on, with the ranges the core marked for each; those whose page has come (R213) -/
  park : List (Nat × List Range)
  landing : List (Nat × List Range) := []
  /-- partial sums of `ired` by die, with their marks, and the indices still to fold -/
  parts : List (Nat × List (BitVec 32) × List Bool)
  idx : List Nat
  /-- destination sectors of `ired` written poisoned -/
  marked : List Nat
  /-- bytes another package sent for the current piece, with their poison; a request to another package is out; it
  was refused (R153, R407) -/
  got : Option (List Byte × Bool)
  out : Bool
  refused : Option Cause
  deriving DecidableEq, Repr

/-- An entry of a base die's TLB or ATS cache (R338, R339, R344). -/
structure TlbEntry where
  pasid : Nat
  va : Nat
  size : Nat
  pa : Nat
  r : Bool
  w : Bool
  host : Bool
  pteAddr : Nat
  pte : Word
  reads : Nat
  writes : Nat
  deriving DecidableEq, Repr

/-- A page request group (R341, R342). -/
structure PageGroup where
  id : Nat
  pasid : Nat
  prg : Nat
  pages : List (Nat × Bool)
  sent : Bool
  deriving DecidableEq, Repr

/-- A walk of the Gecko (R380 to R386). -/
structure Walk where
  id : Nat
  core : Nat
  ctx : Fin 11
  launch : Nat
  pasid : Nat
  die : Nat
  cmd : List Byte
  counted : Bool
  running : Bool
  migrated : Bool
  words : List (BitVec 32)
  g : Vector Word 32
  /-- marked registers of its hart (R425, R429) -/
  gMark : BitVec 32 := 0
  pc : Nat
  steps : Nat
  n : Nat
  migr : Nat
  /-- outcome, status and address, once ended -/
  ended : Option (Nat × Cause × Word) := none
  /-- the result block is on its way to another package, and how that ended -/
  sent : Bool := false
  ack : Option Cause := none
  deriving DecidableEq, Repr

/-- A Rake command (R352 to R358). -/
structure RakeCmd where
  id : Nat
  core : Nat
  ctx : Fin 11
  launch : Nat
  pasid : Nat
  cmd : List Byte
  /-- residency answers got so far, by cluster (R356) -/
  probes : List (Nat × Bool) := []
  /-- what is to be written, by address, and the completion (R357, R358) -/
  result : Option (List (Nat × List Byte) × List Byte) := none
  deriving DecidableEq, Repr

/-- A dimension of a layout record: extent, grid, block of a cyclic map (R394). -/
structure Dim where
  extent : Nat
  grid : Nat
  cyclic : Option Nat
  deriving DecidableEq, Repr

/-- A layout as read: type code, dimensions, shards as base and owning package (R394). -/
structure Layout where
  ty : Nat := 0
  dims : List Dim := []
  shards : List (Word × Option Nat) := []
  deriving DecidableEq, Repr

/-- A Chameleon command (R392 to R400). -/
structure ChamCmd where
  id : Nat
  core : Nat
  ctx : Fin 11
  launch : Nat
  pasid : Nat
  cmd : List Byte
  started : Bool := false
  src : Layout := {}
  dst : Layout := {}
  /-- first chunk not issued, first chunk of the oldest window not covered by the cursor -/
  issued : Nat := 0
  acked : Nat := 0
  /-- chunks of open windows without acknowledgement -/
  open_ : List Nat := []
  /-- bytes of the cursor as last written or read; a cursor to be written -/
  cursor : List Byte := []
  due : Option (List Byte) := none
  status : Cause := 0
  detail : Nat := 0
  /-- chunks that met FABRIC or PAGEINV; the launch has ended; the cursor is final and DONE is to be incremented -/
  failed : List Nat := []
  stop : Bool := false
  ending : Bool := false
  deriving DecidableEq, Repr

/-- A page-in under way at a paging agent (R374). -/
structure PageIn where
  id : Nat
  launch : Nat
  treelet : Nat
  replica : Bool
  initial : Bool
  /-- the slot it fills, once it has one: core and slot -/
  place : Option (Nat × Nat) := none
  /-- slots found not idle since the last choice began anew; an eviction is under way -/
  skip : List (Nat × Nat) := []
  evicting : Bool := false
  /-- pages of the image that have landed, the CUT bytes being the last -/
  next : Nat := 0
  /-- its fill is counted in PAGES -/
  counted : Bool := false
  deriving DecidableEq, Repr

/-! ### Distributor and host registers (R308 to R322, R409, R410) -/

/-- A launch record, field by field (R310). -/
structure Rec where
  image : Nat := 0
  imglen : Nat := 0
  entry : Nat := 0
  panw : Nat := 7
  panh : Nat := 0
  grpw : Nat := 7
  grph : Nat := 0
  helpers : Nat := 10
  treelets : Nat := 0
  flags : Byte := 0
  prio : Nat := 0
  param : Nat := 0
  kseg : Vector Word 4 := Vector.replicate 4 0
  ovfl : Nat := 0
  compl : Nat := 0
  waitva : List Nat := []
  waittg : List Nat := []
  deriving DecidableEq, Repr

/-- Where a launch stands. -/
inductive LaunchState where
  | head
  | selected
  | granted
  | started
  | ending
  | retired
  deriving DecidableEq, Repr

/-- A launch (R310 to R322). -/
structure Launch where
  id : Nat
  va : Nat
  src : Source
  r : Rec := {}
  prio : Nat := 0
  pasid : Nat := 0
  brine : Nat := 0
  root : Nat := 0
  parent : Option (Nat × Nat × Nat) := none
  st : LaunchState
  validated : Bool := false
  eligible : Bool := false
  corner : Nat := 0
  serial : Nat := 0
  grantOrder : Nat := 0
  startTick : Option Nat := none
  /-- catalogue of R366: address, count, threshold -/
  cat : Option (Nat × Nat × Nat) := none
  pinsLeft : Nat := 0
  first : Option EndInfo := none
  groups : List Nat := []
  /-- a retired launch: bytes of the NOTIFY completion that is still to be posted (R321) -/
  notice : Option (List Byte) := none
  /-- the NOTIFY completion that has been posted -/
  told : Option (List Byte) := none
  /-- how far the check of R312 has come: 0 the record is to be read, 1 the parameter block, 2 + i page i of the image -/
  stage : Nat := 0
  /-- bytes of the parameter block; a sector of what was read is poisoned -/
  pblock : List Byte := []
  bad : Bool := false
  deriving DecidableEq, Repr

/-- A launch channel (R308). -/
structure Channel where
  fifo : List Nat := []
  cfg : Word := 0
  rlost : BitVec 16 := 0
  ovf : Bool := false
  rrbase : Word := 0
  rrtail : BitVec 32 := 0
  rrhead : BitVec 32 := 0
  head : Option Nat := none
  /-- report entries that wait for a page (R309) -/
  waiting : List (List Byte) := []
  deriving DecidableEq, Repr

/-- An invalidation under way (R343): descriptor bytes and the walkers that have not finished. -/
structure Inval where
  id : Nat
  pasid : Nat
  va : Nat
  log : Nat
  word : Nat
  value : Word
  bad : Bool
  deriving DecidableEq, Repr

/-- A Lenbo port (R402 to R405, R434). -/
structure LenboPort where
  width : Nat := 0
  req : Nat := 8
  up : Bool := false
  retrain : BitVec 16 := 0
  expect : BitVec 12 := 0
  replay : List LenboFlit := []
  txSeq : BitVec 12 := 0
  vcCredits : Vector Nat 6 := Vector.replicate 6 9
  pool : Nat := 1024
  /-- packets that wait for credits, with their virtual channel -/
  queue : List (LenboPacket × Nat) := []
  /-- flits put on the wire, the oldest first, those sent again among them -/
  wire : List LenboFlit := []
  errors : Nat := 0
  discarding : Bool := false
  /-- the NAK last returned carries this number (R404) -/
  nak : Option (BitVec 12) := none
  /-- flits of packets not yet complete, by virtual channel -/
  rx : List (Nat × List (BitVec 256)) := []
  /-- flits in the receiver's buffers: of each reserve, and of the shared pool (R405) -/
  held : Vector Nat 6 := Vector.replicate 6 0
  heldPool : Nat := 0
  /-- credits returned to the sender, the oldest first: POOL, virtual channel, flits (R405) -/
  returned : List (Bool × Nat × Nat) := []
  deriving DecidableEq, Repr

/-- A request outstanding toward another package (R407). -/
structure LenboReq where
  target : Nat
  seq : Nat
  packet : LenboPacket
  plane : Nat
  /-- who waits: a window entry of a core; or a copy, a walk or a message, by its identifier -/
  core : Nat
  win : Option Nat
  copy : Option Nat
  deriving DecidableEq, Repr

/-- A filter entry of the target (R407). -/
structure LenboDone where
  src : Nat
  seq : Nat
  answer : Option LenboPacket
  deriving DecidableEq, Repr

/-- The Lenbo side of the package. -/
structure Lenbo where
  ports : Vector LenboPort 16 := Vector.replicate 16 {}
  reqs : List LenboReq := []
  done : List LenboDone := []
  epoch : BitVec 16 := 0
  epochs : List (Nat × BitVec 16) := []
  nextSeq : List (Nat × Nat) := []
  /-- packets and flits handed to the links, newest first -/
  sent : List LenboPacket := []
  deriving DecidableEq, Repr

/-- Registers the host sees in BAR0 (R410). -/
structure HostRegs where
  ptab : Word := 0
  spbase : Word := 0
  spcnt : BitVec 32 := 0
  iqbase : Word := 0
  iqtail : BitVec 32 := 0
  iqhead : BitVec 32 := 0
  pagbase : Word := 0
  pmap : Word := 0xFEDCBA9876543210
  /-- page requests the host allocates to the device, and whether PRI is stopped (R341, R342, R412) -/
  alloc : Nat := 0
  priStopped : Bool := false
  deriving DecidableEq, Repr

/-- Management registers (R451). -/
structure Mgmt where
  fatal : Bool := false
  therm : BitVec 2 := 0
  repairFail : Bool := false
  stage : BitVec 4 := 6
  bootFail : Bool := false
  ready : Bool := true
  pkgnum : BitVec 10 := 0
  errbase : Word := 0
  errtail : BitVec 32 := 0
  lost : BitVec 16 := 0
  errhead : BitVec 32 := 0
  brbase : Word := 0
  diverged : Bool := false
  brlost : Bool := false
  replay : Bool := false
  brtail : BitVec 32 := 0
  brhead : BitVec 32 := 0
  attach : Bool := false
  dbgcore : BitVec 16 := 0
  dbgslot : BitVec 32 := 0
  dbghalted : Bool := false
  dbgword : Word := 0
  ttrip : BitVec 8 := 105
  twarn : BitVec 8 := 95
  tmax : BitVec 8 := 0
  repairOk : BitVec 8 := 0xFF
  unused : Vector (BitVec 16) 8 := Vector.replicate 8 0x8081
  /-- error counts by class and source since the last record (R433) -/
  errCounts : List (Nat × Nat) := []
  corrections : List (Place × Nat) := []
  /-- the distributor grants nothing (warning), and holds launches (trip) (R454) -/
  noGrant : Bool := false
  hold : Bool := false
  deriving DecidableEq, Repr

/-- Progress of an SPDM exchange (R448). -/
structure Spdm where
  version : Bool := false
  caps : Bool := false
  algs : Bool := false
  /-- the last answer sent, as bytes -/
  answer : List Byte := []
  deriving DecidableEq, Repr

/-- Power of the package (R445, R449, R450, R454). -/
inductive Power where
  | off
  | booting
  | service
  | unserviceable
  deriving DecidableEq, Repr

/-! ### Events under way, the issue latch, and the whole -/

/-- What a device event acts on. -/
structure EvArg where
  core : Nat := 0
  ctx : Nat := 0
  id : Nat := 0
  die : Nat := 0
  group : Nat := 0
  launch : Nat := 0
  port : Nat := 0
  pasid : Nat := 0
  addr : Nat := 0
  n : Nat := 0
  m : Nat := 0
  cause : Cause := 0
  flag : Bool := false
  value : Word := 0
  wide : VReg := 0
  bytes : List Byte := []
  qport : Port := .q0
  source : Source := .channel 0
  info : EndInfo := ⟨0, 0, 0, 0, 0, 0⟩
  answer : AtsAnswer := .abort
  space : RegSpace := .bar0
  flit : LenboFlit := ⟨0, 0, false, 0, 0⟩
  packet : LenboPacket := ⟨0, 0, 0, 0, 0, 0, 0, 0, [], false⟩
  place : Place := .control 0
  outcome : CheckOutcome := .clean
  home : Option Home := none
  flash : Config.BoardFlash := {}
  deriving DecidableEq, Repr

/-- A device event that waits to happen. Events of one `lane` other than 0 keep their order. -/
structure Task where
  op : Instr
  arg : EvArg
  lane : Nat
  deriving DecidableEq, Repr

/-- A request parked on a missing granule: what happens again when a response comes (R340, R342). -/
structure PageWait where
  req : Nat
  task : Task
  launch : Nat
  pasid : Nat
  granule : Nat
  write : Bool
  deriving DecidableEq, Repr

/-- The bundle a step is executing: whose it is, where it stands, and what has come of it. The registers the
A-word of a pair reads are those before the bundle (R34). The model's own (log 1). -/
structure Cur where
  core : Nat := 0
  ctx : Fin 11 := 0
  /-- offset of the bundle and of the word being executed -/
  p : Off := 0
  at_ : Off := 0
  /-- offset after the bundle -/
  next : Off := 0
  isA : Bool := false
  pair : Bool := false
  lanes : Mask := 0xF
  snap : Option Context := none
  /-- the bundle has not issued -/
  stalled : Bool := false
  /-- a trap, a parking or an end took the bundle -/
  trapped : Bool := false
  /-- the A-word has become pending on its own (R457) -/
  joined : Bool := false
  /-- the C-word wrote KSEED -/
  seedSet : Bool := false
  /-- the word is a replayed one: iteration and index -/
  replay : Option (Nat × Nat) := none
  deriving DecidableEq, Repr

/-- The machine: one package. -/
structure State where
  cur : Cur := {}
  ev : EvArg := {}
  agenda : List Task := []
  /-- events bound to a time, in order of time: 2t is the beginning of tick t, 2t + 1 its end -/
  timed : List (Nat × Task) := []
  /-- ticks so far, the next core to issue in this tick, free values taken, identifiers given -/
  ticks : Nat := 0
  turn : Nat := 0
  fresh : Nat := 0
  nextId : Nat := 1
  cores : List (Nat × Core) := []
  /-- saved cores by launch × 2^16 + core, and the hit sorters of saved beds by launch × 2^16 + bed (R332) -/
  saved : List (Nat × Core) := []
  savedBeds : List (Nat × Bed) := []
  beds : List (Nat × Bed) := []
  groups : List (Nat × Group) := []
  mem : List Host.Cell := []
  /-- poisoned 32-byte sectors, by number, ascending (R149, R425) -/
  poison : List Nat := []
  msgs : List Msg := []
  copies : List Copy := []
  tlb : List (Nat × TlbEntry) := []
  pageGroups : List PageGroup := []
  /-- parked requests; groups answered and refusals by request and granule (R342) -/
  pageWaits : List PageWait := []
  answered : List (Nat × Nat × Nat) := []
  denied : List (Nat × Nat) := []
  /-- PASID table entries walks have used since the last full invalidation (R410): PASID, both doublewords -/
  pasidSeen : List (Nat × Word × Word) := []
  /-- ATS translation requests without an answer, and refusals: die, PASID, host page (R412) -/
  atsAsked : List (Nat × Nat × Nat) := []
  atsDenied : List (Nat × Nat × Nat × Bool) := []
  walks : List Walk := []
  rakes : List (Nat × RakeCmd) := []
  chams : List (Nat × ChamCmd) := []
  homes : List (Nat × Home) := []
  /-- rays held at a home or waiting at an agent: die, launch, message -/
  rays : List (Nat × Msg) := []
  pageIns : List PageIn := []
  launches : List Launch := []
  /-- sequence numbers of sources toward destinations that Brine records (R438) -/
  seqs : List (Nat × Nat) := []
  channels : Vector Channel 64 := Vector.replicate 64 {}
  /-- the source served last (R314), the launch selected -/
  lastSrc : Nat := 0
  selected : Option Nat := none
  grants : Nat := 0
  serials : Nat := 0
  /-- groups saved and the first slot each holds (R329) -/
  saves : List (Nat × Nat) := []
  hostRegs : HostRegs := {}
  invals : List Inval := []
  /-- MSI-X vectors sent to the host, newest first; an ATS Invalidate Completion is 256 plus its tag -/
  msix : List Nat := []
  lenbo : Lenbo := {}
  mgmt : Mgmt := {}
  spdm : Spdm := {}
  power : Power := .service
  /-- the tick of the last power-up (R433) -/
  poweredAt : Nat := 0
  /-- the device key and the attestation private key in the boot hart's SRAM (R447) -/
  deviceKey : Option (BitVec 256) := some Config.bornDeviceKey
  attestKey : Option (List Byte) := some Config.bornAttestKey
  /-- board flash as the last power-up read it, and an update written since (R444, R446) -/
  flash : Config.BoardFlash := Config.board
  flashNext : Option Config.BoardFlash := none
  /-- configuration requests answered with Configuration Request Retry Status (R445); alerts sent over I3C (R454) -/
  retries : Nat := 0
  alerts : Nat := 0
  deriving DecidableEq, Repr

/-! ### Reset -/

/-- Registers at reset (R13). -/
def Regs.zero : Regs :=
  { g := Vector.replicate 32 0, v := Vector.replicate 32 0, p := Vector.replicate 8 0,
    gMark := 0, vMark := 0, pMark := 0 }

/-- A context at core reset: not live (R13). -/
def Context.reset : Context := { r := Regs.zero }

/-- The segments at core reset: KSEG0 covers the supervisor segment (R27). -/
def ksegReset : Vector Word 4 := ⟨#[0x0000038040000000, 0, 0, 0], rfl⟩

/-- A core at core reset: c0 is in supervisor mode (R13, R14, R21, R27). -/
def Core.reset : Core :=
  { ctxs := (Vector.replicate 11 Context.reset).set 0 { Context.reset with mode := true }, kseg := ksegReset }

/-- The machine right after reset: the package has come up and is in service, no launch has been made, no core
belongs to a pan, memory is zero; board flash and the keys hold what that power-up read, which is free (R9, R442, R445; log 4, log 5, log 7). -/
def State.reset : State := {}

end Sys2Proof.Machine
end

