-- ==== Sys2Proof/Machine/Mem.lean ====
section
/-! DEFINITION. Memory: one list of bytes for every ULM, for device memory and for host memory, in canonical
form, and the poison bits of the 32-byte sectors (R7, R9, R146, R149, R335, R425). -/

namespace Sys2Proof.Machine

/-- Where byte `o` of the ULM of core `c` stands in the list of bytes: its window address without the package
(R146). Device memory stands at its physical address, host memory with bit 51 set (R335). -/
def ulmKey (c o : Nat) : Nat := 2 ^ 55 + c * 2 ^ 29 + o

/-- The byte at a key; an unlisted byte is zero (R9, R442; log 5). -/
def memGet (m : List Host.Cell) (a : Nat) : Byte :=
  match m with
  | [] => 0
  | (b, x) :: rest => if a = b then x else if a < b then 0 else memGet rest a

/-- The list with the byte at a key replaced, in canonical form. -/
def memSet (m : List Host.Cell) (a : Nat) (v : Byte) : List Host.Cell :=
  match m with
  | [] => if v = 0 then [] else [(a, v)]
  | (b, x) :: rest =>
    if a < b then if v = 0 then (b, x) :: rest else (a, v) :: (b, x) :: rest
    else if a = b then if v = 0 then rest else (a, v) :: rest
    else (b, x) :: memSet rest a v

/-- Every address is above `lo` and the addresses rise, and no byte is zero. -/
def memAbove (lo : Nat) : List Host.Cell → Bool
  | [] => true
  | (b, x) :: rest => decide (lo ≤ b) && decide (x ≠ 0) && memAbove (b + 1) rest

/-- The canonical form: addresses strictly rising, no entry equal to what an unlisted byte reads as. -/
def Memory.wf (m : List Host.Cell) : Bool := memAbove 0 m

/-- `n` bytes from key `a` up. -/
def memBytes (m : List Host.Cell) (a : Nat) : Nat → List Byte
  | 0 => []
  | n + 1 => memGet m a :: memBytes m (a + 1) n

/-- Bytes stored from key `a` up. -/
def memPut (m : List Host.Cell) (a : Nat) : List Byte → List Host.Cell
  | [] => m
  | b :: bs => memPut (memSet m a b) (a + 1) bs

/-- The number that bytes hold, least significant first (R7). -/
def leNat : List Byte → Nat
  | [] => 0
  | b :: bs => b.toNat + 256 * leNat bs

/-- The `n` bytes of a number, least significant first (R7). -/
def natBytes (x : Nat) : Nat → List Byte
  | 0 => []
  | n + 1 => BitVec.ofNat 8 x :: natBytes (x / 256) n

/-- A sector list with one sector added, kept ascending. -/
def addSector (k : Nat) : List Nat → List Nat
  | [] => [k]
  | a :: l => if k < a then k :: a :: l else if k = a then a :: l else a :: addSector k l

/-- A list of pairs kept by ascending key: the value at a key, or the default. -/
def assoc {α : Type} (d : α) (k : Nat) : List (Nat × α) → α
  | [] => d
  | (j, a) :: l => if j = k then a else assoc d k l

/-- The list with the value at a key replaced. -/
def assocSet {α : Type} (k : Nat) (x : α) : List (Nat × α) → List (Nat × α)
  | [] => [(k, x)]
  | (j, a) :: l => if j = k then (k, x) :: l else if k < j then (k, x) :: (j, a) :: l else (j, a) :: assocSet k x l

/-- `n` bytes at key `a` as a number. -/
def State.loadNat (s : State) (a n : Nat) : Nat := leNat (memBytes s.mem a n)

/-- `n` bytes of a number stored at key `a`. -/
def State.storeNat (s : State) (a n x : Nat) : State := { s with mem := memPut s.mem a (natBytes x n) }

/-- Bytes stored at key `a`. -/
def State.storeBytes (s : State) (a : Nat) (bs : List Byte) : State := { s with mem := memPut s.mem a bs }

/-- The sector of a byte. -/
def sectorOf (a : Nat) : Nat := a / 32

/-- The poison bit of the sector that holds key `a` (R149). -/
def State.poisoned (s : State) (a : Nat) : Bool := s.poison.contains (sectorOf a)

/-- The poison bit of a sector set. -/
def State.setPoison (s : State) (a : Nat) : State := { s with poison := addSector (sectorOf a) s.poison }

/-- The poison bit of a sector cleared. -/
def State.clearPoison (s : State) (a : Nat) : State :=
  { s with poison := s.poison.filter fun k => decide (k ≠ sectorOf a) }

/-- Bytes stored at a key; a poisoned sector replaced whole is clean again (R149, R430). -/
def State.storeClean (s : State) (a : Nat) (bs : List Byte) : State :=
  { s.storeBytes a bs with
    poison := s.poison.filter fun k => !(decide (a ≤ 32 * k) && decide (32 * k + 32 ≤ a + bs.length)) }

/-- Some sector of `n` bytes at key `a` is poisoned. -/
def State.poisonedRange (s : State) (a n : Nat) : Bool :=
  s.poison.any fun k => decide (a < 32 * k + 32) && decide (32 * k < a + n)

/-- The cells of `n` bytes at key `a`, and the other cells. -/
def cellIn (a n : Nat) (c : Host.Cell) : Bool := decide (a ≤ c.1) && decide (c.1 < a + n)
def memDrop (m : List Host.Cell) (a n : Nat) : List Host.Cell := m.filter fun c => !cellIn a n c

/-- `n` bytes at key `src` copied to key `dst`. -/
def memCopy (m : List Host.Cell) (src dst n : Nat) : List Host.Cell :=
  (m.filter (cellIn src n)).foldl (fun m c => memSet m (c.1 - src + dst) c.2) (memDrop m dst n)

/-- A sector of a poison list lies in `n` bytes at key `a`. -/
def sectorIn (a n k : Nat) : Bool := decide (a ≤ 32 * k) && decide (32 * k < a + n)

/-- `n` bytes at key `a` made zero, without poison. -/
def State.wipe (s : State) (a n : Nat) : State :=
  { s with mem := memDrop s.mem a n, poison := s.poison.filter fun k => !sectorIn a n k }

/-- `n` bytes of whole sectors at key `src` copied to key `dst`, with their poison bits. -/
def State.copyBytes (s : State) (src dst n : Nat) : State :=
  { s with
    mem := memCopy s.mem src dst n
    poison := (s.poison.filter (sectorIn src n)).foldl (fun l k => addSector (k - src / 32 + dst / 32) l)
      (s.poison.filter fun k => !sectorIn dst n k) }

end Sys2Proof.Machine
end

