-- ==== Sys2Proof/Machine/Ops.lean ====
section
/-! DEFINITION. The named operations of a core: reading and writing registers and their marks, the segment
check, error records, taking a trap and returning from one, stalls, and device events put on the agenda. -/

namespace Sys2Proof.Machine

/-- A next state. -/
abbrev Result := Host.Outcome State Fault Refusal

/-! ### Cores and contexts -/

/-- The core of a number; a core nothing has touched is as at core reset. -/
def State.core (s : State) (c : Nat) : Core := assoc Core.reset c s.cores

/-- A core replaced. -/
def State.setCore (s : State) (c : Nat) (k : Core) : State := { s with cores := assocSet c k s.cores }

/-- A core changed. -/
def State.modCore (s : State) (c : Nat) (f : Core → Core) : State := s.setCore c (f (s.core c))

/-- A context of a core changed. -/
def Core.modCtx (k : Core) (c : Fin 11) (f : Context → Context) : Core :=
  { k with ctxs := k.ctxs.set c (f k.ctxs[c]) }

/-- A context of the package. -/
def State.ctx (s : State) (n : Nat) (c : Fin 11) : Context := (s.core n).ctxs[c]

/-- A context of the package changed. -/
def State.modCtx (s : State) (n : Nat) (c : Fin 11) (f : Context → Context) : State :=
  s.modCore n fun k => k.modCtx c f

/-- The issuing core. -/
def State.here (s : State) : Core := s.core s.cur.core

/-- The issuing core changed. -/
def State.modHere (s : State) (f : Core → Core) : State := s.modCore s.cur.core f

/-- The issuing context. -/
def State.cx (s : State) : Context := s.here.ctxs[s.cur.ctx]

/-- The issuing context changed. -/
def State.modCx (s : State) (f : Context → Context) : State := s.modHere fun k => k.modCtx s.cur.ctx f

/-- The registers an instruction reads: those the bundle started with (R34). -/
def State.src (s : State) : Context := s.cur.snap.getD s.cx

/-- The bed, gang and launch of a core (R4). -/
def bedOf (c : Nat) : Nat := c / 8
def gangOf (c : Nat) : Nat := c / 16

def State.bed (s : State) (b : Nat) : Bed := assoc {} b s.beds
def State.modBed (s : State) (b : Nat) (f : Bed → Bed) : State := { s with beds := assocSet b (f (s.bed b)) s.beds }

/-- The group of an identifier; a group nothing has made is retired. -/
def State.group (s : State) (g : Nat) : Group :=
  assoc { launch := 0, num := 0, corner := 0, w := 0, h := 0, st := .retired } g s.groups
def State.modGroup (s : State) (g : Nat) (f : Group → Group) : State :=
  { s with groups := assocSet g (f (s.group g)) s.groups }

/-- A launch by its identifier. -/
def State.launch? (s : State) (n : Nat) : Option Launch := s.launches.find? fun l => decide (l.id = n)
def State.modLaunch (s : State) (n : Nat) (f : Launch → Launch) : State :=
  { s with launches := s.launches.map fun l => if l.id = n then f l else l }

/-- The core numbers of a rectangle, ascending. -/
def rectCores (corner w h : Nat) : List Nat :=
  (List.range h).flatMap fun y => (List.range w).map fun x => corner + 256 * y + x

/-- The cores of a group, ascending. -/
def Group.cores (g : Group) : List Nat := rectCores g.corner g.w g.h

/-! ### Registers (R13, R15, R16, R19, R430) -/

/-- KLATENT counts `n` cleared marks, saturating (R430). -/
def Core.latent (k : Core) (n : Nat) : Core :=
  { k with klatent := BitVec.ofNat 32 (min (2 ^ 32 - 1) (k.klatent.toNat + n)) }

/-- Bits set in a lane mask. -/
def maskCount (m : Mask) : Nat := (lanesOf m).length

/-- A g register; g0 reads 0 (R13). -/
def Context.g (x : Context) (r : Fin 32) : Word := if r = 0 then 0 else x.r.g[r]

/-- A predicate; p0 reads 0xF (R13). -/
def Context.p (x : Context) (r : Fin 8) : Mask := if r = 0 then 0xF else x.r.p[r]

/-- A v register. -/
def Context.v (x : Context) (r : Fin 32) : VReg := x.r.v[r]

/-- Poison marks of a g register, of a predicate, and of the lanes of a v register (R19). -/
def Context.gBad (x : Context) (r : Fin 32) : Bool := decide (r ≠ 0) && bitOf x.r.gMark r
def Context.pBad (x : Context) (r : Fin 8) : Bool := decide (r ≠ 0) && bitOf x.r.pMark r
def Context.vBad (x : Context) (r : Fin 32) : Mask := elem 4 r.val x.r.vMark

/-- All bits of the lanes of a mask. -/
def laneBits (m : Mask) : VReg :=
  (if bitOf m 0 then laneAt 0 else 0) ||| (if bitOf m 1 then laneAt 1 else 0) |||
  (if bitOf m 2 then laneAt 2 else 0) ||| (if bitOf m 3 then laneAt 3 else 0)
where
  /-- All bits of lane `l`. -/
  laneAt (l : Nat) : VReg := (BitVec.allOnes 64).setWidth 256 <<< (64 * l)

/-- A g register written, with its mark; g0 discards (R13, R430). -/
def Core.writeG (k : Core) (c : Fin 11) (r : Fin 32) (x : Word) (mark : Bool := false) : Core :=
  if r = 0 then k else
  (k.modCtx c fun y => { y with r.g := y.r.g.set r x, r.gMark := withBit y.r.gMark r mark, r.gAt := y.r.gAt.set r k.epoch }).latent
    (if bitOf k.ctxs[c].r.gMark r && !mark then 1 else 0)

/-- A context no longer sees what was there before the stores of other cores that meet a condition (R232; log 30). -/
def Core.closePast (k : Core) (c : Fin 11) (f : Overwritten → Bool) : Core :=
  { k with past := (k.past.map fun e => if f e then { e with open_ := withBit e.open_ c false } else e).filter fun e =>
      decide (e.open_ ≠ 0) }

/-- Bytes of a store meet `n` bytes at `a`, and hold all of them. -/
def Overwritten.meets (e : Overwritten) (a n : Nat) : Bool := decide (e.off < a + n) && decide (a < e.off + e.old.length)
def Overwritten.holds (e : Overwritten) (a n : Nat) : Bool := decide (e.off ≤ a) && decide (a + n ≤ e.off + e.old.length)

/-- A bundle of a fetch buffer lies in a sector that `n` bytes at `a` touch (R149). -/
def inSectors (a n : Nat) (b : Off × Nat × Nat) : Bool :=
  decide (b.1.toNat < (a + n + 31) / 32 * 32) &&
  decide (a / 32 * 32 < b.1.toNat + if bitOf (BitVec.ofNat 32 b.2.1) 31 then 4 else 8)

/-- What a write of `n` bytes at `a` of a core's ULM leaves: no fetch buffer keeps a bundle of their sectors, and no earlier
bytes stay readable (R149, R225, R230, R242). -/
def Core.wrote (k : Core) (a n : Nat) : Core :=
  { k with
    past := k.past.filter fun e => !e.meets a n
    ctxs := k.ctxs.map fun x => { x with fbuf := x.fbuf.filter fun b => !inSectors a n b } }

/-- A write of `n` bytes has been accepted at a key; where it is ULM, its core drops what the write invalidates. -/
def State.wrote (s : State) (key n : Nat) : State :=
  let c := (key - 2 ^ 55) / 2 ^ 29
  let k := s.core c
  if key < 2 ^ 55 ∨ (k.past = [] ∧ k.ctxs.all fun x => x.fbuf.isEmpty) then s
  else s.modCore c fun k => k.wrote ((key - 2 ^ 55) % 2 ^ 29) n

/-- Lanes of a v register written whole, with their marks (R15, R430). -/
def Core.writeV (k : Core) (c : Fin 11) (r : Fin 32) (m : Mask) (x : VReg) (marks : Mask := 0) : Core :=
  let old := k.ctxs[c].v r
  let bad := k.ctxs[c].vBad r
  (k.modCtx c fun y => { y with
    r.v := y.r.v.set r ((old &&& ~~~laneBits m) ||| (x &&& laneBits m)),
    r.vMark := setElem 4 r.val y.r.vMark ((bad &&& ~~~m) ||| (marks &&& m)) }).latent
    (maskCount (bad &&& m &&& ~~~marks))

/-- Bits `m` of a predicate written; p0 discards. A write of every bit clears the mark (R13, R430). -/
def Core.writeP (k : Core) (c : Fin 11) (r : Fin 8) (m bits : Mask) : Core :=
  if r = 0 then k else
  let clears := decide (m = 0xF) && bitOf k.ctxs[c].r.pMark r
  (k.modCtx c fun y => { y with
    r.p := y.r.p.set r ((y.r.p[r] &&& ~~~m) ||| (bits &&& m)),
    r.pMark := if m = 0xF then withBit y.r.pMark r false else y.r.pMark }).latent (if clears then 1 else 0)

/-- The issuing context's registers, as an instruction reads them. -/
def State.g (s : State) (r : Fin 32) : Word := s.src.g r
def State.v (s : State) (r : Fin 32) : VReg := s.src.v r
def State.p (s : State) (r : Fin 8) : Mask := s.src.p r

/-- The active mask an instruction runs under: KMASK, limited to the lanes a `tret` names (R16, R112). -/
def State.kmask (s : State) : Mask := s.src.f.kmask &&& s.cur.lanes

/-- Active(P) (R30). -/
def State.active (s : State) (p : Fin 8) : Mask := s.kmask &&& s.p p

/-- The issuing context's registers written. -/
def State.setG (s : State) (r : Fin 32) (x : Word) (mark : Bool := false) : State :=
  s.modHere fun k => k.writeG s.cur.ctx r x mark
def State.setV (s : State) (r : Fin 32) (m : Mask) (x : VReg) (marks : Mask := 0) : State :=
  s.modHere fun k => k.writeV s.cur.ctx r m x marks
def State.setP (s : State) (r : Fin 8) (m bits : Mask) : State :=
  s.modHere fun k => k.writeP s.cur.ctx r m bits

/-- The PC of the issuing context written. -/
def State.setPc (s : State) (a : Off) : State := s.modCx fun x => { x with pc := a }

/-- KMASK of the issuing context written. -/
def State.setMask (s : State) (m : Mask) : State := s.modCx fun x => { x with f.kmask := m }

/-! ### Pending registers (R48) -/

/-- A destination marked pending, or released. -/
def Context.pend (x : Context) (d : Dest) (b : Bool) : Context :=
  match d with
  | .none => x
  | .g r => if r = 0 then x else { x with gPend := withBit x.gPend r b }
  | .v r _ => { x with vPend := withBit x.vPend r b }
  | .p r => if r = 0 then x else { x with pPend := withBit x.pPend r b }

/-! ### Device events on the agenda -/

/-- A device event put behind those that wait. -/
def State.post (s : State) (op : Instr) (arg : EvArg) (lane : Nat := 0) : State :=
  { s with agenda := s.agenda ++ [{ op := op, arg := arg, lane := lane }] }

/-- A device event that could not happen yet, put back in front: it keeps its place in its lane. -/
def State.repost (s : State) (op : Instr) (arg : EvArg) (lane : Nat) : State :=
  { s with agenda := { op := op, arg := arg, lane := lane } :: s.agenda }

/-- An event bound to the end of a tick, kept in order of time. -/
def insertTimed (t : Nat) (x : Task) : List (Nat × Task) → List (Nat × Task)
  | [] => [(t, x)]
  | (u, y) :: l => if t < u then (t, x) :: (u, y) :: l else (u, y) :: insertTimed t x l

def State.postAt (s : State) (t : Nat) (op : Instr) (arg : EvArg) : State :=
  { s with timed := insertTimed (2 * t + 1) { op := op, arg := arg, lane := 0 } s.timed }

/-- An event bound to the beginning of tick `t`, before any core issues in it. -/
def State.postStart (s : State) (t : Nat) (op : Instr) (arg : EvArg) : State :=
  { s with timed := insertTimed (2 * t) { op := op, arg := arg, lane := 0 } s.timed }

/-- An event bound to the beginning of the next tick, unless it is bound to a time already. What happens in one cycle on
every core of a group happens so (R176, R253, R333). -/
def State.postNext (s : State) (op : Instr) (arg : EvArg) : State :=
  if s.timed.any fun x => decide (x.2 = { op := op, arg := arg, lane := 0 }) then s else s.postStart (s.ticks + 1) op arg

/-- A fresh identifier. -/
def State.newId (s : State) : Nat × State := (s.nextId, { s with nextId := s.nextId + 1 })

/-- A free number, and a free byte: the counter moves on (log 2). -/
def State.freeNat (s : State) : Nat × State := (Config.freeTurn s.fresh, { s with fresh := s.fresh + 1 })
def State.freeBytes (s : State) (n : Nat) : List Byte × State :=
  ((List.range n).map fun i => Config.freeByte (s.fresh + i), { s with fresh := s.fresh + n })

/-! ### Segments (R27, R28) -/

/-- The kinds of access the segment check knows. -/
structure Perm where
  r : Bool := false
  w : Bool := false
  x : Bool := false
  rrd : Bool := false
  rwr : Bool := false
  deriving DecidableEq, Repr

/-- A segment grants a set of kinds to a mode: bits UR UW UX at 36 to 38, SR SW SX at 39 to 41, RRD 42, RWR 43. -/
def segGrants (k : Word) (super : Bool) (n : Perm) : Bool :=
  let b := if super then 39 else 36
  (!n.r || bitOf k b) && (!n.w || bitOf k (b + 1)) && (!n.x || bitOf k (b + 2)) &&
  (!n.rrd || bitOf k 42) && (!n.rwr || bitOf k 43)

/-- BASE and LIMIT of a segment. -/
def segBase (k : Word) : Nat := (k.extractLsb' 0 17).toNat
def segLimit (k : Word) : Nat := (k.extractLsb' 18 18).toNat

/-- A segment covers `n` bytes at `a`. -/
def segCovers (k : Word) (a n : Nat) : Bool := decide (segBase k ≤ a) && decide (a + n ≤ segLimit k)

/-- The check of R28: none, or the cause. -/
def segCheck (segs : Vector Word 4) (super : Bool) (a n : Nat) (need : Perm) : Option Cause :=
  if (n = 1 ∨ n = 2 ∨ n = 4 ∨ n = 8) ∧ a % n ≠ 0 then some Cause.align
  else if 0x20000 < a + n then some Cause.ulmbound
  else
    let cov := segs.toList.filter fun k => segCovers k a n
    if cov = [] then some Cause.ulmbound
    else if cov.any fun k => segGrants k super need then none
    else some Cause.priv

/-! ### Integrity: KERR, error records, messages to the host (R408, R432, R433) -/

/-- A vector sent to the host (R408). -/
def State.sendMsix (s : State) (v : Nat) : State := { s with msix := v :: s.msix }

/-- A device record written at a ring: base and size from a register of the form BASE[51:12], LOG[4:0], legal
logs up to `top`; none when the ring is disabled or full (R309, R433, R439). -/
def ringSlot (reg : Word) (top : Nat) (tail head : BitVec 32) (size : Nat) : Option Nat :=
  let log := (reg.extractLsb' 0 5).toNat
  let base := (reg.extractLsb' 12 44).toNat * 4096
  if log < 4 ∨ top < log then none
  else if (tail - head).toNat = 2 ^ log then none
  else some (base + size * (tail.toNat % 2 ^ log))

/-- A configuration request is answered with Configuration Request Retry Status (R445). -/
def State.retry (s : State) : State := { s with retries := s.retries + 1 }

/-- An error record; TIME counts from the power-up (R433). -/
def State.errRecord (s : State) (cls src index : Nat) (addr detail : Word) : State :=
  let m := s.mgmt
  let key := cls * 256 + src
  let n := assoc 0 key m.errCounts + 1
  match ringSlot m.errbase 16 m.errtail m.errhead 32 with
  | none =>
    { s with mgmt.lost := if m.lost = BitVec.allOnes 16 then m.lost else m.lost + 1,
             mgmt.errCounts := assocSet key n m.errCounts }
  | some a =>
    let bytes := natBytes cls 1 ++ natBytes src 1 ++ natBytes index 2 ++ natBytes (min n (2 ^ 32 - 1)) 4 ++
      natBytes addr.toNat 8 ++ natBytes (Config.cyclesOf s.ticks - Config.cyclesOf s.poweredAt).toNat 8 ++ natBytes detail.toNat 8
    { s.storeClean a bytes with
      mgmt.errtail := m.errtail + 1, mgmt.errCounts := assocSet key 0 m.errCounts }

/-- An event of a class at a core counted for the next record of both (R433). -/
def State.countError (s : State) (cls : Nat) : State :=
  { s with mgmt.errCounts := assocSet (cls * 256) (assoc 0 (cls * 256) s.mgmt.errCounts + 1) s.mgmt.errCounts }

/-- A bit of KERR set; from 0 to 1 it writes a record and sends vector 64, and while it is set further events are counted
(R432, R433). -/
def State.setKerr (s : State) (c bit cls : Nat) (addr detail : Word) : State :=
  if bitOf (s.core c).kerr bit then (if bit = 0 then s else s.countError cls) else
  let s := s.modCore c fun k => { k with kerr := withBit k.kerr bit true }
  if bit = 0 then s else (s.errRecord cls 0 c addr detail).sendMsix 64

/-! ### Traps (R22, R35, R110, R197, R221) -/

/-- What a trap records. -/
structure TrapRec where
  code : Cause
  epc : Off
  addr : Word := 0
  pair : Bool := false
  lanep : Bool := false
  lflt : Mask := 0
  lres : Option Mask := none
  lf : Option (Vector Word 4) := none
  deriving DecidableEq, Repr

/-- KCAUSE of a trap (R22). -/
def TrapRec.kcause (t : TrapRec) : Word :=
  t.code.setWidth 64 ||| (t.lflt.setWidth 64 <<< 8) ||| (ofBool 64 t.lanep <<< 14) ||| (ofBool 64 t.pair <<< 15)

/-- A KLFn value: cause and address (R22). -/
def klf (c : Cause) (a : Word) : Word := (c.setWidth 64 <<< 56) ||| (a &&& 0x00FFFFFFFFFFFFFF)

/-- The records of a trap written, the context's mode and PC left alone. -/
def Context.record (x : Context) (t : TrapRec) : Context :=
  { x with
    k.cause := t.kcause
    k.epc := t.epc.setWidth 64
    k.addr := t.addr &&& 0x00FFFFFFFFFFFFFF
    k.lres := match t.lres with
      | some m => m.setWidth 64
      | none => x.k.lres
    k.lf := t.lf.getD x.k.lf }

/-- Where a trap enters: KSTVEC[11:2] × 4 (R110). -/
def trapEntry (stvec : Word) : Off := (stvec &&& 0xFFC).setWidth 17

/-- The records of R110 and the entry: PMODE takes MODE, MODE becomes supervisor, the PC goes to the entry. -/
def Context.enter (x : Context) (t : TrapRec) (stvec : Word) : Context :=
  { x.record t with pmode := x.mode, mode := true, pc := trapEntry stvec, block := none, aword := false,
                    reLanes := none, wake := none, waveOp := none, fbuf := [], mwaitVal := none }

/-- A trap of a context suspends its replay or capture (R197); an arrived replayed `mgo` is withdrawn. -/
def Core.suspendRep (k : Core) (c : Fin 11) : Core :=
  { k with
    arrival := if (k.arrival.map Arrival.ctx) = some c then none else k.arrival
    rep := k.rep.map fun r => if r.owner = c then { r with suspended := r.suspended + 1 } else r }

/-- A trap of c0 while its core defers a halt: c0 halts before the first bundle of its handler (R326). -/
def Core.deferTrap (k : Core) (c : Fin 11) : Core :=
  if c = 0 ∧ k.run = .halting then { k with run := .halted } else k

/-- A trap taken by context `c` of core `n`, whose bundle stands at `p` (R110, R221, R326). A trap of the bundle at
the entry, in supervisor mode, stops the core instead. -/
def State.trapOf (s : State) (n : Nat) (c : Fin 11) (p : Off) (t : TrapRec) : State :=
  let k := s.core n
  let x := k.ctxs[c]
  if x.mode ∧ p = trapEntry k.kstvec then
    let info : EndInfo :=
      { status := t.code, core := n, ctx := c, kepc := t.epc.setWidth 64, kcause := t.kcause, kaddr := t.addr }
    let s := s.modCore n fun k => { k with run := .stopped }
    (s.setKerr n 7 10 0 t.kcause).post .launchEnd { launch := k.launch, info := info }
  else s.modCore n fun k => ((k.modCtx c fun x => x.enter t k.kstvec).suspendRep c).deferTrap c

/-- The bundle is over by a trap. -/
def State.trap (s : State) (t : TrapRec) : State :=
  { s.trapOf s.cur.core s.cur.ctx s.cur.p t with cur.trapped := true }

/-- The record of an execution fault of the current word: KEPC at the word, PAIR for the A-word of a pair; a
replayed word reports the next fetched bundle and its own offset and iteration in KLF0 (R35, R197). -/
def State.faultRec (s : State) (c : Cause) (a : Word) : TrapRec :=
  match s.cur.replay with
  | none => { code := c, epc := s.cur.at_, addr := a, pair := s.cur.pair && s.cur.isA }
  | some (i, _) =>
    { code := c, epc := s.cx.pc, addr := a,
      lf := some (s.cx.k.lf.set 0 (klf c (s.cur.at_.setWidth 64 ||| (BitVec.ofNat 64 i <<< 17)))) }

/-- A faulting replayed word ends the replay; the buffer stays owned (R197). -/
def Core.endReplay (k : Core) : Core :=
  { k with rep := k.rep.map fun r => { r with ended := true, iter := 0, next := 0 } }

/-- An execution fault of the current word (R30, R35). -/
def State.fault (s : State) (c : Cause) (a : Word) : State :=
  let s' := if s.cur.replay.isSome then s.modHere Core.endReplay else s
  s'.trap (s.faultRec c a)

/-- An execution fault whose address the manual does not give: KADDR is a free value (log 14). -/
def State.faultOpen (s : State) (c : Cause) : State :=
  { s with fresh := s.fresh + 1 }.fault c (Config.freeAddr s.fresh)

/-- A poisoned operand (R85, R120). -/
def State.faultPoison (s : State) : State := s.fault Cause.poison 0

/-- Per-core numbers of K-registers (R21). -/
def kPerCore (n : Nat) : Bool :=
  (decide (0x40 ≤ n) && decide (n ≤ 0x46)) || [0x80, 0x82, 0x83, 0x86].contains n

/-- The mark of a K-register (R85; which instructions have it as a source: DEDUCED, log 69). -/
def State.kBad (s : State) (k : Nat) : Bool :=
  if kPerCore k then bitOf s.here.kMark k else bitOf s.cx.k.mark k

/-! ### Stalls (R48, R208, R457) -/

/-- The bundle has not issued: nothing of it takes effect, and the context waits. -/
def State.stall (s : State) (k : BlockKind) : State :=
  let since := match s.cx.block with
    | some b => if b.off = s.cur.at_ ∧ b.kind = k then b.since else s.ticks
    | none => s.ticks
  { s.modCx fun x => { x with block := some { kind := k, since := since, off := s.cur.at_ } } with
    cur.stalled := true }

/-- A capture takes an issued A-word (R195): the buffer grows, and the replay begins when it is full. -/
def Core.capture (k : Core) (c : Fin 11) (w : Option (BitVec 32)) (a : Off) : Core :=
  match w, k.rep with
  | some w, some r =>
    if r.owner = c ∧ r.capturing ∧ r.suspended = 0 then
      let full := decide (r.words.length + 1 = r.n)
      { k with rep := some { r with
          words := r.words ++ [w], offs := r.offs ++ [a], capturing := !full,
          iter := if full then 1 else 0, next := 0, ended := full && decide (r.count = 1) } }
    else k
  | _, _ => k

/-- BREAK after a retired bundle of a context under KMODE.SSTEP: KEPC is the next bundle (R24, R111). -/
def State.breakStep (s : State) (n : Nat) (c : Fin 11) : State :=
  { s with fresh := s.fresh + 1 }.trapOf n c (s.ctx n c).pc
    { code := Cause.brkStep, epc := (s.ctx n c).pc, addr := Config.freeAddr s.fresh }

/-! ### A-words that join an instance or a barrier (R457) -/

/-- The current A-word waits on its own for its instance or its operation: the C-word of a pair has issued, the PC
stands at the A-word (R457). A replayed word leaves the PC alone. -/
def State.joinUp (s : State) : State :=
  let s := if s.cur.replay.isSome then s
    else if s.cur.pair then s.modCx fun x => { x with pc := s.cur.p + 4, aword := true }
    else s.modCx fun x => { x with pc := s.cur.p }
  { s with cur.joined := true }

/-- The position of a replay after a word (R195). -/
def Rep.advance (r : Rep) : Rep :=
  if r.next + 1 < r.words.length then { r with next := r.next + 1 }
  else { r with next := 0, iter := r.iter + 1, ended := decide (r.count ≤ r.iter + 1) }

/-- The wait of a joined A-word is over, and the context goes on: the word has issued (R195, R457). -/
def State.joinDone (s : State) (n : Nat) (c : Fin 11) (next : Off) (replayed : Bool) : State :=
  if replayed then s.modCore n fun k => { k with rep := k.rep.map Rep.advance }
  else
    let x := s.ctx n c
    let w := BitVec.ofNat 32 (s.loadNat (ulmKey n x.pc.toNat) 4)
    let s := s.modCore n fun k => (k.modCtx c fun x =>
      { x with pc := next, aword := false, reLanes := none, block := none }).capture c (some w) x.pc
    if x.sstep && !x.mode && x.live && !x.ending then s.breakStep n c else s

/-- A joined A-word raises a fault while it waits (R139, R197). -/
def State.joinFault (s : State) (n : Nat) (c : Fin 11) (cause : Cause) (addr : Word) (replayed : Bool) : State :=
  let x := s.ctx n c
  if replayed then
    let r := ((s.core n).rep.bind fun r => (r.offs[r.next]?).map fun o => (o, r.iter)).getD (0, 0)
    (s.modCore n Core.endReplay).trapOf n c x.pc
      { code := cause, epc := x.pc, addr := addr,
        lf := some (x.k.lf.set 0 (klf cause (r.1.setWidth 64 ||| (BitVec.ofNat 64 r.2 <<< 17)))) }
  else s.trapOf n c (if x.aword then x.pc - 4 else x.pc) { code := cause, epc := x.pc, addr := addr, pair := x.aword }

/-! ### Return from a trap (R112) -/

/-- The lone-word size at an offset: 4 when its word has L = 1, else 8. -/
def State.bundleSize (s : State) (n : Nat) (a : Off) : Off :=
  if bitOf (BitVec.ofNat 32 (s.loadNat (ulmKey n a.toNat) 4)) 31 then 4 else 8

/-- A returning context goes on with its replay or capture (R197). -/
def Core.resumeRep (k : Core) (c : Fin 11) : Core :=
  { k with rep := k.rep.map fun r => if r.owner = c then { r with suspended := r.suspended - 1 } else r }

/-- The resumption of R112 after KCAUSE has been read: where the context goes on, and what it executes there.
The re-execution itself is the next bundle of the context (DESIGN CHOICE, log 13), whose words are fetched again. Bits [1:0] of KEPC
do not reach the PC (R33; R112 does not say; DESIGN CHOICE, log 70). -/
def State.resumeAt (s : State) (n : Nat) (c : Fin 11) (back : Redo) (m : Mask) : State :=
  let x := s.ctx n c
  let cause := back.cause
  let a : Off := x.k.epc.setWidth 17 &&& 0x1FFFC
  let code : Cause := cause.setWidth 8
  let size := s.bundleSize n a
  s.modCtx n c fun x => let x := { x with fbuf := [] }
    if code = Cause.swtrap ∨ code = Cause.brkStep ∨ code = 0 then { x with pc := a }
    else if bitOf cause 15 then
      if m = 0 then { x with pc := a + 4 } else { x with pc := a, aword := true }
    else if m = 0 then { x with pc := a + size }
    else if bitOf cause 14 then { x with pc := a, reLanes := some { back with lanes := m } }
    else { x with pc := a }

/-- The return of a `tret m` (R112): the mode comes back from PMODE, KCAUSE is cleared, and the context goes on
as its cause says. -/
def State.trapReturn (s : State) (m : Mask) : State :=
  let back : Redo := { lanes := m, cause := s.cx.k.cause, pc := s.cur.p, mode := s.cx.mode, parked := false }
  let s := s.modCx fun x => { x with mode := x.pmode, k.cause := 0 }
  (s.resumeAt s.cur.core s.cur.ctx back m).modHere fun k => k.resumeRep s.cur.ctx

/-! ### Window addresses (R146) -/

/-- PKG, CORE and OFF of a window address (R146). -/
def winPkg (va : Word) : Nat := (va.extractLsb' 45 10).toNat
def winCore (va : Word) : Nat := (va.extractLsb' 29 16).toNat
def winOff (va : Word) : Nat := (va.extractLsb' 0 17).toNat
/-- Bits [63:56] and [27:17] are zero and bit 55 is one (R146). -/
def winForm (va : Word) : Bool := bitOf va 55 && decide (va.extractLsb' 56 8 = 0) && decide (va.extractLsb' 17 11 = 0)
/-- The package a window address names, from a package (R146). -/
def winTarget (own : Nat) (va : Word) : Nat := if winPkg va = 0x3FF ∧ !bitOf va 28 then own else winPkg va
/-- The window address names another package, whose answer comes from outside (log 59, log 68). -/
def State.remote (s : State) (va : Word) : Bool := decide (winTarget s.mgmt.pkgnum.toNat va ≠ s.mgmt.pkgnum.toNat)

/-! ### Releases (R235) -/

/-- Every earlier window access of the issuing context is performed. -/
def State.released (s : State) : Bool :=
  !(s.here.win.any fun e => decide (e.ctx = s.cur.ctx) && e.resp.isNone)

/-- An acquire of the issuing context is still to be performed. -/
def State.acquiring (s : State) : Bool :=
  s.here.win.any fun e => decide (e.ctx = s.cur.ctx) && e.acq && e.resp.isNone

/-- A release waits for the earlier accesses. -/
def State.afterRelease (s : State) (body : State) : State := if s.released then body else s.stall .other

/-! ### Reports of window accesses and sends (R153) -/

/-- A refused access becomes a report of its context; a refused load keeps its old value and is not pending. The oldest
report is the one whose refusal came first (R153 does not say whether issue or refusal counts; DESIGN CHOICE, log 70). -/
def State.report (s : State) (n : Nat) (c : Fin 11) (r : Report) : State :=
  s.modCtx n c fun x => { x.pend r.dst false with reports := x.reports ++ [r] }

/-- The oldest report taken as a trap at the current bundle (R153). -/
def State.deliver (s : State) (r : Report) : State :=
  let rec_ : TrapRec :=
    { code := r.cause, epc := r.off, addr := r.va, lres := some 0,
      lf := some (s.cx.k.lf.set 0 (klf r.cause (s.cur.p.setWidth 64))) }
  (s.modCx fun x => { x with reports := x.reports.drop 1 }).trap rec_

/-- A word at a core lies in its launch: the two cores belong to one launch, and both are resident. -/
def State.sameLaunch (s : State) (a b : Nat) : Bool :=
  decide ((s.core a).launch = (s.core b).launch) && decide ((s.core b).run ≠ .free)

/-- The pan key and corner of the launch of a core (R4, R371). -/
def State.panOf (s : State) (c : Nat) : Option Launch := s.launch? (s.core c).launch

/-- The PASID under which a core's launch translates (R308, R313). -/
def State.pasidOf (s : State) (c : Nat) : Nat := ((s.panOf c).map Launch.pasid).getD 0

end Sys2Proof.Machine
end

