-- ==== Sys2Proof/Machine/Scalar.lean ====
section
/-! DEFINITION. Scalar A-words: majors 0x00 to 0x05 (R84 to R93). -/

namespace Sys2Proof.Machine

/-- A scalar instruction: a poisoned source raises POISON and nothing takes effect (R85); otherwise its effect. -/
def State.scalar (s : State) (srcs : List (Fin 32)) (effect : State) : Result :=
  .next (if srcs.any s.src.gBad then s.faultPoison else effect)

/-- gD := f gA gB. -/
def State.alu3 (s : State) (f : Word → Word → Word) (d a b : Fin 32) : Result :=
  s.scalar [a, b] (s.setG d (f (s.g a) (s.g b)))

/-- gD := f gA. -/
def State.alu2 (s : State) (f : Word → Word) (d a : Fin 32) : Result :=
  s.scalar [a] (s.setG d (f (s.g a)))

/-- gD := f gA (sext imm11) (R91). -/
def State.aluI (s : State) (f : Word → Word → Word) (d a : Fin 32) (i : BitVec 11) : Result :=
  s.alu2 (fun x => f x (i.signExtend 64)) d a

/-- The shift count of a register operand: bits [5:0] (R87). -/
def shamt (b : Word) : Nat := (b.extractLsb' 0 6).toNat

/-- Rotation left (R87). -/
def rotl (a : Word) (n : Nat) : Word := (a <<< n) ||| (a >>> ((64 - n) % 64))

/-- Signed and unsigned division of R88, with the cases of its table. -/
def divS (a b : Word) : Word :=
  if b = 0 then BitVec.allOnes 64 else BitVec.ofInt 64 (a.toInt.tdiv b.toInt)
def remS (a b : Word) : Word := if b = 0 then a else BitVec.ofInt 64 (a.toInt.tmod b.toInt)
def divU (a b : Word) : Word := if b = 0 then BitVec.allOnes 64 else BitVec.ofNat 64 (a.toNat / b.toNat)
def remU (a b : Word) : Word := if b = 0 then a else BitVec.ofNat 64 (a.toNat % b.toNat)

/-- Leading and trailing zero bits below bit `n` of a number, and its one bits (R89). -/
def clzBelow (x : Nat) : Nat → Nat
  | 0 => 0
  | n + 1 => if x.testBit n then 0 else clzBelow x n + 1
def ctzFrom (x : Nat) : Nat → Nat
  | 0 => 0
  | n + 1 => if x % 2 = 1 then 0 else ctzFrom (x / 2) n + 1
def popBelow (x : Nat) : Nat → Nat
  | 0 => 0
  | n + 1 => (if x.testBit n then 1 else 0) + popBelow x n

/-- Position and cut width of a bit field, from gB (R89). -/
def fieldPos (b : Word) : Nat := (b.extractLsb' 0 6).toNat
def fieldWidth (b : Word) : Nat := min ((b.extractLsb' 8 6).toNat + 1) (64 - fieldPos b)
/-- 2^w − 1. -/
def ones (w : Nat) : Word := BitVec.ofNat 64 (2 ^ w - 1)

/-- Bit-field extraction and insertion (R89). -/
def bfxVal (a b : Word) : Word := (a >>> fieldPos b) &&& ones (fieldWidth b)
def bfiVal (d a b : Word) : Word :=
  let m := ones (fieldWidth b) <<< fieldPos b
  (d &&& ~~~m) ||| ((a <<< fieldPos b) &&& m)

/-- The window address `wadr` builds from a KCORE layout and an offset (R90). -/
def wadrVal (a b : Word) : Word :=
  (1#64 <<< 55) ||| ((a.extractLsb' 32 10).setWidth 64 <<< 45) ||| ((a.extractLsb' 0 16).setWidth 64 <<< 29) |||
  ((a.extractLsb' 42 1).setWidth 64 <<< 28) ||| (b.extractLsb' 0 17).setWidth 64

/-- gD := gA + gB (R87). -/
def execAdd (d a b : Fin 32) (s : State) : Result := s.alu3 (fun a b => a + b) d a b

/-- gD := gA − gB (R87). -/
def execSub (d a b : Fin 32) (s : State) : Result := s.alu3 (fun a b => a - b) d a b

/-- gD := gA AND gB (R87). -/
def execAnd (d a b : Fin 32) (s : State) : Result := s.alu3 (fun a b => a &&& b) d a b

/-- gD := gA OR gB (R87). -/
def execOr (d a b : Fin 32) (s : State) : Result := s.alu3 (fun a b => a ||| b) d a b

/-- gD := gA XOR gB (R87). -/
def execXor (d a b : Fin 32) (s : State) : Result := s.alu3 (fun a b => a ^^^ b) d a b

/-- gD := gA AND NOT gB (R87). -/
def execAndn (d a b : Fin 32) (s : State) : Result := s.alu3 (fun a b => a &&& ~~~b) d a b

/-- Shift left (R87). -/
def execShl (d a b : Fin 32) (s : State) : Result := s.alu3 (fun a b => a <<< shamt b) d a b

/-- Shift right, zero fill (R87). -/
def execShr (d a b : Fin 32) (s : State) : Result := s.alu3 (fun a b => a >>> shamt b) d a b

/-- Shift right, sign fill (R87). -/
def execSar (d a b : Fin 32) (s : State) : Result := s.alu3 (fun a b => a.sshiftRight (shamt b)) d a b

/-- Rotate left (R87). -/
def execRol (d a b : Fin 32) (s : State) : Result := s.alu3 (fun a b => rotl a (shamt b)) d a b

/-- Signed minimum (R87). -/
def execMin (d a b : Fin 32) (s : State) : Result := s.alu3 (fun a b => if b.slt a then b else a) d a b

/-- Signed maximum (R87). -/
def execMax (d a b : Fin 32) (s : State) : Result := s.alu3 (fun a b => if a.slt b then b else a) d a b

/-- Unsigned minimum (R87). -/
def execMinu (d a b : Fin 32) (s : State) : Result := s.alu3 (fun a b => if b < a then b else a) d a b

/-- Unsigned maximum (R87). -/
def execMaxu (d a b : Fin 32) (s : State) : Result := s.alu3 (fun a b => if a < b then b else a) d a b

/-- 1 when gA < gB, signed (R87). -/
def execSlt (d a b : Fin 32) (s : State) : Result := s.alu3 (fun a b => ofBool 64 (a.slt b)) d a b

/-- 1 when gA < gB, unsigned (R87). -/
def execSltu (d a b : Fin 32) (s : State) : Result := s.alu3 (fun a b => ofBool 64 (decide (a < b))) d a b

/-- Low half of the product (R88). -/
def execMul (d a b : Fin 32) (s : State) : Result := s.alu3 (fun a b => a * b) d a b

/-- High half of the signed product (R88). -/
def execMulh (d a b : Fin 32) (s : State) : Result := s.alu3 (fun a b => BitVec.ofInt 64 (a.toInt * b.toInt / 2 ^ 64)) d a b

/-- High half of the unsigned product (R88). -/
def execMulhu (d a b : Fin 32) (s : State) : Result := s.alu3 (fun a b => BitVec.ofNat 64 (a.toNat * b.toNat / 2 ^ 64)) d a b

/-- Signed quotient, truncated (R88). -/
def execDiv (d a b : Fin 32) (s : State) : Result := s.alu3 divS d a b

/-- Unsigned quotient (R88). -/
def execDivu (d a b : Fin 32) (s : State) : Result := s.alu3 divU d a b

/-- Signed remainder (R88). -/
def execRem (d a b : Fin 32) (s : State) : Result := s.alu3 remS d a b

/-- Unsigned remainder (R88). -/
def execRemu (d a b : Fin 32) (s : State) : Result := s.alu3 remU d a b

/-- gD := gA when gD ≠ 0, else gB; gD is read first (R89). -/
def execSel (d a b : Fin 32) (s : State) : Result :=
  s.scalar [d, a, b] (s.setG d (if s.g d ≠ 0 then s.g a else s.g b))

/-- Leading zeros (R89). -/
def execClz (d a : Fin 32) (s : State) : Result := s.alu2 (fun a => BitVec.ofNat 64 (clzBelow a.toNat 64)) d a

/-- Trailing zeros (R89). -/
def execCtz (d a : Fin 32) (s : State) : Result := s.alu2 (fun a => BitVec.ofNat 64 (ctzFrom a.toNat 64)) d a

/-- One bits (R89). -/
def execPopc (d a : Fin 32) (s : State) : Result := s.alu2 (fun a => BitVec.ofNat 64 (popBelow a.toNat 64)) d a

/-- Bit-field extraction (R89). -/
def execBfx (d a b : Fin 32) (s : State) : Result := s.alu3 bfxVal d a b

/-- Bit-field insertion; gD is read first (R89). -/
def execBfi (d a b : Fin 32) (s : State) : Result :=
  s.scalar [d, a, b] (s.setG d (bfiVal (s.g d) (s.g a) (s.g b)))

/-- gD := gA (R90). -/
def execMov (d a : Fin 32) (s : State) : Result := s.alu2 (fun a => a) d a

/-- gD := gA + 8 × gB (R90). -/
def execLea (d a b : Fin 32) (s : State) : Result := s.alu3 (fun a b => a + 8 * b) d a b

/-- A window address from a core name and an offset (R90). -/
def execWadr (d a b : Fin 32) (s : State) : Result := s.alu3 wadrVal d a b

/-- gD := gA + sext(imm11) (R91). -/
def execAddi (d a : Fin 32) (i : BitVec 11) (s : State) : Result := s.aluI (fun a i => a + i) d a i

/-- gD := gA AND sext(imm11) (R91). -/
def execAndi (d a : Fin 32) (i : BitVec 11) (s : State) : Result := s.aluI (fun a i => a &&& i) d a i

/-- gD := gA OR sext(imm11) (R91). -/
def execOri (d a : Fin 32) (i : BitVec 11) (s : State) : Result := s.aluI (fun a i => a ||| i) d a i

/-- gD := gA XOR sext(imm11) (R91). -/
def execXori (d a : Fin 32) (i : BitVec 11) (s : State) : Result := s.aluI (fun a i => a ^^^ i) d a i

/-- Shift left by an immediate (R91). -/
def execShli (d a : Fin 32) (i : BitVec 6) (s : State) : Result := s.alu2 (fun a => a <<< i.toNat) d a

/-- Shift right by an immediate, zero fill (R91). -/
def execShri (d a : Fin 32) (i : BitVec 6) (s : State) : Result := s.alu2 (fun a => a >>> i.toNat) d a

/-- Shift right by an immediate, sign fill (R91). -/
def execSari (d a : Fin 32) (i : BitVec 6) (s : State) : Result := s.alu2 (fun a => a.sshiftRight i.toNat) d a

/-- gD := sext(imm11) (R91). -/
def execLi (d : Fin 32) (i : BitVec 11) (s : State) : Result := s.scalar [] (s.setG d (i.signExtend 64))

/-- gD := sext(imm19) << 11 (R92). -/
def execLui (d : Fin 32) (i : BitVec 19) (s : State) : Result := s.scalar [] (s.setG d (i.signExtend 64 <<< 11))

/-- gD := (gD AND (2^30 − 1)) OR (sext(imm19) << 30) (R92). -/
def execLhi (d : Fin 32) (i : BitVec 19) (s : State) : Result :=
  s.scalar [d] (s.setG d ((s.g d &&& ones 30) ||| (i.signExtend 64 <<< 30)))

/-- The C-class `nop` does nothing (R93). -/
def execNopC (s : State) : Result := .next s

/-- The A-class `nop` does nothing (R93). -/
def execNopA (s : State) : Result := .next s

end Sys2Proof.Machine
end

