-- ==== Sys2Proof/Machine/Flags.lean ====
section
/-! DEFINITION. Floating formats, exact values, rounding in the five modes, and the flags of KFPC (R64 to R74). A
value is exact: a sign, a natural magnitude and a power of two. -/

namespace Sys2Proof.Machine

/-! ### Formats (R65, R66) -/

/-- What the codes with every exponent bit set mean: infinity and NaNs; finite values but for one NaN fraction;
finite values alone. -/
inductive TopCodes where
  | ieee
  | oneNan
  | finite
  deriving DecidableEq, Repr

/-- A floating format: exponent bits, fraction bits, the codes at the top (R65). -/
structure FloatFmt where
  ebits : Nat
  fbits : Nat
  top : TopCodes := .ieee
  deriving DecidableEq, Repr

def fmtF64 : FloatFmt := ⟨11, 52, .ieee⟩
def fmtF32 : FloatFmt := ⟨8, 23, .ieee⟩
def fmtF16 : FloatFmt := ⟨5, 10, .ieee⟩
def fmtBf16 : FloatFmt := ⟨8, 7, .ieee⟩
def fmtE5m2 : FloatFmt := ⟨5, 2, .ieee⟩
def fmtE4m3 : FloatFmt := ⟨4, 3, .oneNan⟩
def fmtE2m1 : FloatFmt := ⟨2, 1, .finite⟩

def FloatFmt.width (f : FloatFmt) : Nat := 1 + f.ebits + f.fbits
def FloatFmt.emax (f : FloatFmt) : Nat := 2 ^ f.ebits - 1
def FloatFmt.bias (f : FloatFmt) : Int := 2 ^ (f.ebits - 1) - 1
/-- The power of two of the smallest subnormal. -/
def FloatFmt.emin (f : FloatFmt) : Int := 1 - f.bias - f.fbits
/-- One of the four formats of at least 16 bits, the ones that flush and have signalling NaNs (R66, R73). -/
def FloatFmt.big (f : FloatFmt) : Bool := decide (16 ≤ f.width)
/-- The code of the largest finite magnitude, of infinity, of the default NaN (R65, R66). -/
def FloatFmt.maxCode (f : FloatFmt) : Nat :=
  match f.top with
  | .ieee => f.emax * 2 ^ f.fbits - 1
  | .oneNan => f.emax * 2 ^ f.fbits + 2 ^ f.fbits - 2
  | .finite => f.emax * 2 ^ f.fbits + 2 ^ f.fbits - 1
def FloatFmt.infCode (f : FloatFmt) : Nat := f.emax * 2 ^ f.fbits
def FloatFmt.nanCode (f : FloatFmt) : Nat :=
  match f.top with
  | .ieee => f.emax * 2 ^ f.fbits + 2 ^ (f.fbits - 1)
  | .oneNan => f.emax * 2 ^ f.fbits + 2 ^ f.fbits - 1
  | .finite => 0
/-- A code with a sign. -/
def FloatFmt.signed (f : FloatFmt) (neg : Bool) (code : Nat) : Nat := (if neg then 2 ^ (f.width - 1) else 0) + code

/-- The five modes (R70). -/
inductive RndMode where
  | rne
  | rtz
  | rdn
  | rup
  | rna
  deriving DecidableEq, Repr

end Sys2Proof.Machine

namespace Sys2Proof

open Sys2Proof.Machine

/-- The format of ty2 in majors 0x0A to 0x0F (R119). -/
def FFmt.fmt : FFmt → FloatFmt
  | .d => fmtF64
  | .w => fmtF32
  | .h => fmtF16
  | .bf => fmtBf16
def SFmt.fmt : SFmt → FloatFmt
  | .d => fmtF64
  | .w => fmtF32

/-- Bits of an element of a view (R15). -/
def View.bits : View → Nat
  | .b => 8
  | .h => 16
  | .w => 32
  | .d => 64

/-- The mode of a mode field (R45). -/
def RMode.mode (m : RMode) (dyn : RndMode) : RndMode :=
  match m with
  | .rne => .rne
  | .rtz => .rtz
  | .rdn => .rdn
  | .rup => .rup
  | .rna => .rna
  | .dyn => dyn

end Sys2Proof

namespace Sys2Proof.Machine

/-! ### Exact values -/

/-- What a code stands for: a NaN, an infinity, or (−1)^neg × m × 2^e. -/
inductive FVal where
  | nan (signalling : Bool)
  | inf (neg : Bool)
  | num (neg : Bool) (m : Nat) (e : Int)
  deriving DecidableEq, Repr

/-- The value of a code (R65). -/
def FloatFmt.value (f : FloatFmt) (x : Nat) : FVal :=
  let neg := x.testBit (f.width - 1)
  let e := x / 2 ^ f.fbits % 2 ^ f.ebits
  let m := x % 2 ^ f.fbits
  if e = 0 then .num neg m f.emin
  else if e = f.emax ∧ f.top = .ieee then
    if m = 0 then .inf neg else .nan (f.big && !m.testBit (f.fbits - 1))
  else if e = f.emax ∧ f.top = .oneNan ∧ m = 2 ^ f.fbits - 1 then .nan false
  else .num neg (2 ^ f.fbits + m) (f.emin + (e - 1))

/-- A value read by an instruction that flushes: a subnormal of the four formats counts as zero (R73). -/
def FloatFmt.read (f : FloatFmt) (ftz : Bool) (x : Nat) : FVal :=
  match f.value x with
  | .num neg m e => if ftz && f.big && decide (m < 2 ^ f.fbits) then .num neg 0 e else .num neg m e
  | v => v

def FVal.isNan : FVal → Bool
  | .nan _ => true
  | _ => false
def FVal.isSig : FVal → Bool
  | .nan s => s
  | _ => false
def FVal.isInf : FVal → Bool
  | .inf _ => true
  | _ => false
def FVal.isZero : FVal → Bool
  | .num _ m _ => decide (m = 0)
  | _ => false
def FVal.neg : FVal → Bool
  | .nan _ => false
  | .inf n => n
  | .num n _ _ => n
/-- The value with its sign reversed. -/
def FVal.flip : FVal → FVal
  | .nan s => .nan s
  | .inf n => .inf (!n)
  | .num n m e => .num (!n) m e

/-- m × 2^e as an integer multiple of 2^base. -/
def atBase (m : Nat) (e base : Int) : Nat := m <<< (e - base).toNat

/-- a × 2^e ≤ b × 2^k. -/
def leMag (a : Nat) (e : Int) (b : Nat) (k : Int) : Bool :=
  decide (atBase a e (min e k) ≤ atBase b k (min e k))

/-- A signed number at a common base. -/
def signedAt (neg : Bool) (m : Nat) (e base : Int) : Int := (if neg then -1 else 1) * (atBase m e base : Int)

/-! ### Flags (R72) -/

/-- NV DZ OF UF NX at bits 4 to 0. -/
abbrev Flags := BitVec 5

def flagNV : Flags := 0x10
def flagDZ : Flags := 0x08
def flagOF : Flags := 0x04
def flagUF : Flags := 0x02
def flagNX : Flags := 0x01
def flagIf (b : Bool) (f : Flags) : Flags := if b then f else 0

/-- NV of the signalling NaNs among the values read (R66). -/
def sigFlags (l : List FVal) : Flags := flagIf (l.any FVal.isSig) flagNV

/-! ### Rounding (R70, R71, R73) -/

/-- What governs a floating instruction: the mode, FTZ and SATF of KFPC (R24). -/
structure FloatEnv where
  rm : RndMode := .rne
  ftz : Bool := false
  satf : Bool := false
  deriving DecidableEq, Repr

/-- A result: its code and the flags it raises. -/
structure FRes where
  code : Nat
  flags : Flags := 0
  deriving DecidableEq, Repr

/-- Whether a magnitude cut to `q` rounds up: the cut part against half a unit, and whether it is not zero. -/
def roundsUp (rm : RndMode) (neg odd : Bool) (half : Ordering) (inexact : Bool) : Bool :=
  match rm with
  | .rne => decide (half = .gt) || (decide (half = .eq) && odd)
  | .rtz => false
  | .rdn => neg && inexact
  | .rup => !neg && inexact
  | .rna => decide (half ≠ .lt)

/-- m × 2^e, and a little more when `sticky`, rounded to a multiple of 2^u: the multiple, and whether it is inexact.
A sticky magnitude has e < u. -/
def roundAt (rm : RndMode) (neg : Bool) (m : Nat) (e : Int) (sticky : Bool) (u : Int) : Nat × Bool :=
  if u ≤ e then (atBase m e u, sticky)
  else
    let k := (u - e).toNat
    let q := m >>> k
    let r := m % 2 ^ k
    let half : Ordering := if 2 * r < 2 ^ k then .lt else if 2 * r = 2 ^ k ∧ !sticky then .eq else .gt
    let inexact := decide (r ≠ 0) || sticky
    (q + (if roundsUp rm neg (decide (q % 2 = 1)) half inexact then 1 else 0), inexact)

/-- The power of two of the last place of m × 2^e, with unbounded exponent, and with the format's (R70). -/
def FloatFmt.ulpFree (f : FloatFmt) (m : Nat) (e : Int) : Int := e + m.log2 - f.fbits
def FloatFmt.ulp (f : FloatFmt) (m : Nat) (e : Int) : Int := max (f.ulpFree m e) f.emin

/-- q × 2^u lies above the largest finite magnitude; is below the smallest normal (R71, R72). -/
def FloatFmt.above (f : FloatFmt) (q : Nat) (u : Int) : Bool :=
  match f.value f.maxCode with
  | .num _ m e => !leMag q u m e
  | _ => false
def FloatFmt.tiny (f : FloatFmt) (q : Nat) (u : Int) : Bool :=
  decide (q ≠ 0) && !leMag (2 ^ f.fbits) f.emin q u

/-- The code of a magnitude q × 2^u with u the last place of the format; q may be one binade up. -/
def FloatFmt.encode (f : FloatFmt) (q : Nat) (u : Int) : Nat := (u - f.emin).toNat * 2 ^ f.fbits + q

/-- The result of an overflow (R71). -/
def FloatFmt.overflow (f : FloatFmt) (env : FloatEnv) (neg : Bool) : FRes :=
  let toMax : Bool :=
    match env.rm with
    | .rne => false
    | .rna => false
    | .rtz => true
    | .rdn => !neg
    | .rup => neg
  let code :=
    match f.top with
    | .finite => f.signed neg f.maxCode
    | .oneNan => if toMax || env.satf then f.signed neg f.maxCode else f.nanCode
    | .ieee => if toMax || (env.satf && !f.big) then f.signed neg f.maxCode else f.signed neg f.infCode
  ⟨code, flagOF ||| flagNX⟩

/-- Round of R70 to R73 for the exact result (−1)^neg × m × 2^e, and a little more in magnitude when `sticky`. -/
def FloatFmt.round (f : FloatFmt) (env : FloatEnv) (neg : Bool) (m : Nat) (e : Int) (sticky : Bool := false) : FRes :=
  if m = 0 then ⟨f.signed neg 0, 0⟩
  else
    let free := roundAt env.rm neg m e sticky (f.ulpFree m e)
    let cut := roundAt env.rm neg m e sticky (f.ulp m e)
    let tiny := f.tiny free.1 (f.ulpFree m e)
    if f.above free.1 (f.ulpFree m e) then f.overflow env neg
    else if env.ftz && f.big && tiny then ⟨f.signed neg 0, flagUF ||| flagNX⟩
    else ⟨f.signed neg (f.encode cut.1 (f.ulp m e)), flagIf cut.2 flagNX ||| flagIf (cut.2 && tiny) flagUF⟩

/-- Round of any value that is no NaN of an operand: a NaN is the default NaN (R66). -/
def FloatFmt.deliver (f : FloatFmt) (env : FloatEnv) (v : FVal) : FRes :=
  match v with
  | .nan _ => ⟨f.nanCode, 0⟩
  | .inf n => ⟨f.signed n f.infCode, 0⟩
  | .num n m e => f.round env n m e

/-- An invalid operation: the default NaN and NV (R72). -/
def FloatFmt.invalid (f : FloatFmt) : FRes := ⟨f.nanCode, flagNV⟩

/-! ### Arithmetic (R66, R67, R70, R130) -/

/-- The exact product; none for 0 × ∞. -/
def mulVal (a b : FVal) : Option FVal :=
  match a, b with
  | .nan s, _ => some (.nan s)
  | _, .nan s => some (.nan s)
  | .inf n, .inf k => some (.inf (n ^^ k))
  | .inf n, .num k m _ => if m = 0 then none else some (.inf (n ^^ k))
  | .num k m _, .inf n => if m = 0 then none else some (.inf (n ^^ k))
  | .num n m e, .num k p g => some (.num (n ^^ k) (m * p) (e + g))

/-- The exact sum; none for ∞ − ∞. An exact zero is −0 under RDN or when both addends are negative (R70). -/
def addVal (rm : RndMode) (a b : FVal) : Option FVal :=
  match a, b with
  | .nan s, _ => some (.nan s)
  | _, .nan s => some (.nan s)
  | .inf n, .inf k => if n = k then some (.inf n) else none
  | .inf n, .num _ _ _ => some (.inf n)
  | .num _ _ _, .inf n => some (.inf n)
  | .num n m e, .num k p g =>
    let base := min e g
    let t := signedAt n m e base + signedAt k p g base
    some (if t = 0 then .num ((n && k) || decide (rm = .rdn)) 0 base
          else .num (decide (t < 0)) t.natAbs base)

/-- A result with the NV of its signalling operands. -/
def FRes.with (r : FRes) (fl : Flags) : FRes := { r with flags := r.flags ||| fl }

/-- Round(a × b) (R127). -/
def FloatFmt.mul (f : FloatFmt) (env : FloatEnv) (a b : FVal) : FRes :=
  ((mulVal a b).elim f.invalid (f.deliver env)).with (sigFlags [a, b])

/-- Round(a + b) (R127). -/
def FloatFmt.add (f : FloatFmt) (env : FloatEnv) (a b : FVal) : FRes :=
  ((addVal env.rm a b).elim f.invalid (f.deliver env)).with (sigFlags [a, b])

/-- Round(a × b + c), rounded once (R130). -/
def FloatFmt.fma (f : FloatFmt) (env : FloatEnv) (a b c : FVal) : FRes :=
  (((mulVal a b).bind fun p => addVal env.rm p c).elim f.invalid (f.deliver env)).with (sigFlags [a, b, c])

/-- a is below b; −0 is below +0 when `zeros`. -/
def FVal.below (zeros : Bool) (a b : FVal) : Bool :=
  match a, b with
  | .nan _, _ => false
  | _, .nan _ => false
  | .inf n, .inf k => n && !k
  | .inf n, .num _ _ _ => n
  | .num _ _ _, .inf k => !k
  | .num n m e, .num k p g =>
    let base := min e g
    let x := signedAt n m e base
    let y := signedAt k p g base
    decide (x < y) || (zeros && decide (x = y) && n && !k)

/-- Equal values; −0 equals +0 (R67). -/
def FVal.same (a b : FVal) : Bool := !a.isNan && !b.isNan && !a.below false b && !b.below false a

/-- Minimum and maximum (R67). -/
def FloatFmt.minmax (f : FloatFmt) (env : FloatEnv) (max : Bool) (a b : FVal) : FRes :=
  let pick : FVal :=
    if a.isNan then b else if b.isNan then a
    else if (if max then a.below true b else b.below true a) then b else a
  (f.deliver env pick).with (sigFlags [a, b])

/-- The four comparisons (R67). -/
inductive FCmp where
  | eq
  | lt
  | le
  | un
  deriving DecidableEq, Repr

/-- A comparison: its truth and its flags (R67). -/
def FCmp.eval (c : FCmp) (a b : FVal) : Bool × Flags :=
  let nan := a.isNan || b.isNan
  match c with
  | .eq => (a.same b, sigFlags [a, b])
  | .lt => (a.below false b, flagIf nan flagNV)
  | .le => (!nan && !b.below false a, flagIf nan flagNV)
  | .un => (nan, sigFlags [a, b])

/-- An integral value of the same format (R127). -/
def FloatFmt.integral (f : FloatFmt) (env : FloatEnv) (a : FVal) : FRes :=
  match a with
  | .num n m e =>
    let r := roundAt env.rm n m e false 0
    if 0 ≤ e then f.round env n m e
    else ⟨(f.round env n r.1 0).code, flagIf r.2 flagNX⟩
  | v => (f.deliver env v).with (sigFlags [v])

/-- The one-hot class of a code (R129). -/
def FloatFmt.classOf (f : FloatFmt) (x : Nat) : Nat :=
  match f.value x with
  | .nan s => if s then 2 ^ 8 else 2 ^ 9
  | .inf n => if n then 2 ^ 0 else 2 ^ 7
  | .num n m _ =>
    if m = 0 then (if n then 2 ^ 3 else 2 ^ 4)
    else if m < 2 ^ f.fbits then (if n then 2 ^ 2 else 2 ^ 5)
    else (if n then 2 ^ 1 else 2 ^ 6)

/-! ### KFPC (R24) -/

/-- The mode of a code; the codes a write leaves out count as RNE. -/
def rndOf : Nat → RndMode
  | 1 => .rtz
  | 2 => .rdn
  | 3 => .rup
  | 4 => .rna
  | _ => .rne

/-- What KFPC says (R24). -/
def envOf (fpc : Word) : FloatEnv :=
  { rm := rndOf (fpc.extractLsb' 0 3).toNat, ftz := bitOf fpc 4, satf := bitOf fpc 5 }

/-- The environment an instruction of the issuing context runs in. -/
def State.env (s : State) : FloatEnv := envOf s.src.k.fpc

/-- Flags raised in a context's KFPC (R72). -/
def Context.raise (x : Context) (fl : Flags) : Context :=
  { x with k.fpc := x.k.fpc ||| (fl.setWidth 64 <<< 8) }

/-- Flags raised by an instruction of the issuing context. -/
def State.raise (s : State) (fl : Flags) : State := s.modCx fun x => x.raise fl

/-! ### Elements of a lane (R15) -/

/-- Element `i` of `w` bits of a lane. -/
def el (w i : Nat) (x : Word) : Nat := x.toNat >>> (w * i) % 2 ^ w

/-- A lane of elements of `w` bits, the lowest first; each is cut to its width. -/
def packEls (w : Nat) (l : List Nat) : Word := BitVec.ofNat 64 (go l)
where
  /-- The number the elements make. -/
  go : List Nat → Nat
    | [] => 0
    | x :: l => x % 2 ^ w + 2 ^ w * go l

/-- The four lanes of a register from a function of the lane. -/
def ofLanes (f : Nat → Word) : VReg :=
  (f 0).setWidth 256 ||| ((f 1).setWidth 256 <<< 64) ||| ((f 2).setWidth 256 <<< 128) ||| ((f 3).setWidth 256 <<< 192)

/-- A mask from a function of the lane. -/
def ofBits (f : Nat → Bool) : Mask :=
  (List.range 4).foldl (fun m l => withBit m l (f l)) 0

/-! ### Shared forms of the vector instructions (R119, R120) -/

/-- Some of the given v registers is marked in a lane of `m`. -/
def State.vMarked (s : State) (m : Mask) (vs : List (Fin 32)) : Bool :=
  vs.any fun r => decide (s.src.vBad r &&& m ≠ 0)

/-- A vector instruction: a marked governing predicate, or a marked lane of a source read for an active lane,
raises POISON and nothing is written; otherwise the effect (R120). -/
def State.vector (s : State) (pr : Fin 8) (vs : List (Fin 32)) (effect : State) : Result :=
  .next (if s.src.pBad pr || s.vMarked (s.active pr) vs then s.faultPoison else effect)

/-- vD := f, lane by lane, in the active lanes. -/
def State.lanes1 (s : State) (f : Word → Word) (d a : Fin 32) (pr : Fin 8) : Result :=
  s.vector pr [a] (s.setV d (s.active pr) (ofLanes fun l => f (lane l (s.v a))))

/-- vD := f vA vB, lane by lane, in the active lanes. -/
def State.lanes2 (s : State) (f : Word → Word → Word) (d a b : Fin 32) (pr : Fin 8) : Result :=
  s.vector pr [a, b] (s.setV d (s.active pr) (ofLanes fun l => f (lane l (s.v a)) (lane l (s.v b))))

/-- Element by element over a lane. -/
def perEl1 (w : Nat) (f : Nat → Nat) (a : Word) : Word :=
  packEls w ((List.range (64 / w)).map fun e => f (el w e a))
def perEl2 (w : Nat) (f : Nat → Nat → Nat) (a b : Word) : Word :=
  packEls w ((List.range (64 / w)).map fun e => f (el w e a) (el w e b))

/-- The union of the flags of a list of results. -/
def unionFlags (l : List FRes) : Flags := l.foldl (fun fl r => fl ||| r.flags) 0

/-- The results of the active lanes written and their flags raised once (R72, R119): `res l` are the elements of lane
l, lowest first, of width w. -/
def State.floats (s : State) (w : Nat) (d : Fin 32) (m : Mask) (res : Nat → List FRes) : State :=
  (s.setV d m (ofLanes fun l => packEls w ((res l).map FRes.code))).raise
    ((lanesOf m).foldl (fun fl l => fl ||| unionFlags (res l)) 0)

end Sys2Proof.Machine
end

