-- ==== Sys2Proof/WellFormed.lean ====
section
/-! DEFINITION. Which instructions are legal as written: the conditions on operands that the encoding
rules state beside the field formats (R44, R121, R167, R171, R198). -/

namespace Sys2Proof

/-- A 5-bit register field that starts a range of `n` registers stays within v31 (R167, R198). -/
def inRange (r : Fin 32) (n : Nat) : Bool := decide (r.val + n ≤ 32)

/-- The register number is even (R167, R171). -/
def isEven (r : Fin 32) : Bool := decide (r.val % 2 = 0)

/-- A queue access names gA only on port q1 (R167). -/
def portArg (q : Port) (a : Fin 32) : Bool := decide (q = .q1) || decide (a = 0)

/-- A type code lies in a range of R44. -/
def tyIn (y : TyCode) (lo hi : Nat) : Bool := decide (lo ≤ y.code) && decide (y.code ≤ hi)

/-- Legal operands of an instruction (R44, R121, R167, R171, R198). -/
def wellFormed : Instr → Bool
  | .cvtf _ _ y _ _ => tyIn y 8 14
  | .cvtfi _ _ y _ _ => tyIn y 0 7
  | .cvtif _ _ y _ _ => tyIn y 0 7
  | .cvtq _ _ y _ _ => tyIn y 12 14
  | .cvtsr _ _ y _ _ => tyIn y 9 14
  | .vext _ _ _ t _ => decide (t ≠ .b)
  | .vins _ _ _ t _ => decide (t ≠ .d)
  | .qpop d a q => portArg q a && (decide (q ≠ .q0) || isEven d)
  | .qpeek d a _ q => portArg q a && (decide (q ≠ .q0) || isEven d)
  | .qpopl d a _ q => portArg q a &&
      (match q with | .q0 => inRange d 8 | .q1 => inRange d 4 | .q2 => inRange d 2 | .q3 => true)
  | .qcnt _ a q => portArg q a
  | .msend _ b => isEven b
  | .rsend b => isEven b
  | .bsend b => isEven b
  | .bxt _ a b _ => inRange a 2 && inRange b 3
  | .trix _ a b _ _ => inRange a 2 && inRange b 2
  | .cdec d _ _ _ => inRange d 2
  | .cov _ _ b _ _ => inRange b 2
  | .hcmp d _ b _ => decide (d ≠ b)
  | _ => true

end Sys2Proof
end

