-- ==== Sys2Proof/Decode.lean ====
section
/-! DEFINITION. Decoding of one 32-bit word (R32, R37 to R46) and its encoder. Fields are taken from the word
as a number, so that bit 0 is the least significant bit. A word that names a reserved major, function code,
modifier, type code or mode, or holds a non-zero reserved field, or breaks an operand condition of
`wellFormed`, is no instruction (steps 3 to 5 of R46). The number `k` says which of these a decoding checks, which tells step 4
from step 5: 0 the major and the function code alone, 1 what step 4 names as well, 2 the reserved fields too. -/

namespace Sys2Proof

/-- The `n` bits of `w` from bit `lo` up. -/
def fld (w lo n : Nat) : Nat := w / 2 ^ lo % 2 ^ n

/-- A 5-bit register field. -/
def reg (w lo : Nat) : Fin 32 := Fin.ofNat 32 (fld w lo 5)

/-- A 3-bit predicate field. -/
def preg (w lo : Nat) : Fin 8 := Fin.ofNat 8 (fld w lo 3)

/-- An immediate field. -/
def imf (w lo n : Nat) : BitVec n := BitVec.ofNat n (fld w lo n)

/-- One flag bit. -/
def flag (w lo : Nat) : Bool := decide (fld w lo 1 = 1)

/-- The instruction, when it is well-formed (step 4 of R46); any, when only the function code is asked for. -/
def whenLegal (k : Nat) (i : Instr) : Option Instr := if k = 0 ∨ wellFormed i = true then some i else none

/-- The value of a code (step 4 of R46); a value that the question does not depend on, when only the function code
is asked for. -/
def lax {α : Type} (k : Nat) (o : Option α) (d : α) : Option α := if k = 0 then some (o.getD d) else o

@[simp] theorem lax_two {α : Type} (o : Option α) (d : α) : lax 2 o d = o := rfl

/-- C major 0x00 (CX). -/
def decodeC00 (k w : Nat) : Option Instr :=
  match fld w 19 5 with
  | 1 => if (k - 1) * (fld w 14 5) = 0 then some (.trap (imf w 0 14)) else none
  | 2 => if (k - 1) * fld w 4 10 + k * fld w 15 4 = 0 then some (.tret (flag w 14) (imf w 0 4)) else none
  | 3 => some (.kget (reg w 14) (imf w 0 14))
  | 4 => some (.kset (reg w 14) (imf w 0 14))
  | 5 => some (.kswp (reg w 14) (imf w 0 14))
  | 6 => if (k - 1) * (fld w 0 14) = 0 then some (.csave (reg w 14)) else none
  | 7 => if (k - 1) * (fld w 0 14) = 0 then some (.crest (reg w 14)) else none
  | 8 => if (k - 1) * (fld w 0 14) = 0 then some (.dbg (reg w 14)) else none
  | 0 => if (k - 1) * (fld w 0 19) = 0 then some .nopC else none
  | _ => none

/-- C major 0x01 (CJ). -/
def decodeC01 (_k w : Nat) : Option Instr :=
  some (.br (imf w 0 24))

/-- C major 0x02 (CJ). -/
def decodeC02 (_k w : Nat) : Option Instr :=
  some (.call (imf w 0 24))

/-- C major 0x03 (CB). -/
def decodeC03 (_k w : Nat) : Option Instr :=
  match fld w 18 3 with
  | 0 => some (.bany (preg w 21) (imf w 0 18))
  | 1 => some (.ball (preg w 21) (imf w 0 18))
  | 2 => some (.bnone (preg w 21) (imf w 0 18))
  | 3 => some (.bnall (preg w 21) (imf w 0 18))
  | _ => none

/-- C major 0x04 (CBZ). -/
def decodeC04 (_k w : Nat) : Option Instr :=
  match fld w 23 1 with
  | 0 => some (.bz (reg w 18) (imf w 0 18))
  | 1 => some (.bnz (reg w 18) (imf w 0 18))
  | _ => none

/-- C major 0x05 (CBC). -/
def decodeC05 (_k w : Nat) : Option Instr :=
  match fld w 22 2 with
  | 0 => some (.blt (reg w 17) (reg w 12) (imf w 0 12))
  | 1 => some (.bge (reg w 17) (reg w 12) (imf w 0 12))
  | 2 => some (.bltu (reg w 17) (reg w 12) (imf w 0 12))
  | 3 => some (.bgeu (reg w 17) (reg w 12) (imf w 0 12))
  | _ => none

/-- C major 0x06 (CR). -/
def decodeC06 (k w : Nat) : Option Instr :=
  match fld w 4 5 with
  | 0 => if (k - 1) * (fld w 0 4 + fld w 9 5 + fld w 19 5) = 0 then some (.callr (reg w 14)) else none
  | 1 => if (k - 1) * (fld w 0 4 + fld w 9 5 + fld w 19 5) = 0 then some (.jr (reg w 14)) else none
  | 3 => if (k - 1) * (fld w 0 4 + fld w 9 5 + fld w 19 5) = 0 then some (.jv (reg w 14)) else none
  | 2 => if (k - 1) * (fld w 0 4 + fld w 9 15) = 0 then some .ret else none
  | _ => none

/-- C major 0x07 (CR). -/
def decodeC07 (k w : Nat) : Option Instr :=
  match fld w 4 5 with
  | 0 => if (k - 1) * (fld w 3 1) = 0 then some (.ifm (imf w 9 15) (preg w 0)) else none
  | 1 => if (k - 1) * (fld w 0 4) = 0 then some (.elm (imf w 9 15)) else none
  | 3 => if (k - 1) * (fld w 0 4) = 0 then some (.lpm (imf w 9 15)) else none
  | 4 => if (k - 1) * (fld w 3 1 + fld w 9 15) = 0 then some (.brk (preg w 0)) else none
  | 5 => if (k - 1) * (fld w 3 1 + fld w 9 15) = 0 then some (.cnt (preg w 0)) else none
  | 6 => if (k - 1) * (fld w 3 1 + fld w 9 15) = 0 then some (.lpe (preg w 0)) else none
  | 2 => if (k - 1) * (fld w 0 4 + fld w 9 15) = 0 then some .fim else none
  | _ => none

/-- C major 0x08 (CR). -/
def decodeC08 (k w : Nat) : Option Instr :=
  match fld w 4 5 with
  | 0 => if (k - 1) * (fld w 0 4) = 0 then some (.cstart (reg w 19) (reg w 14) (reg w 9)) else none
  | 1 => if (k - 1) * (fld w 0 4 + fld w 9 5) = 0 then some (.cquery (reg w 19) (reg w 14)) else none
  | 2 => if (k - 1) * (fld w 0 4 + fld w 9 5 + fld w 19 5) = 0 then some (.cwait (reg w 14)) else none
  | 5 => if (k - 1) * (fld w 0 4 + fld w 9 5) = 0 then some (.wform (reg w 19) (reg w 14)) else none
  | 6 => if (k - 1) * (fld w 0 4 + fld w 9 5 + fld w 19 5) = 0 then some (.wsync (reg w 14)) else none
  | 7 => if (k - 1) * (fld w 0 4 + fld w 19 5) = 0 then some (.reord (reg w 14) (reg w 9)) else none
  | 3 => if (k - 1) * (fld w 0 4 + fld w 9 15) = 0 then some .cyield else none
  | 4 => if (k - 1) * (fld w 0 4 + fld w 9 15) = 0 then some .cexit else none
  | _ => none

/-- C major 0x09 (CM). -/
def decodeC09 (_k w : Nat) : Option Instr :=
  match fld w 11 3 with
  | 0 => some (.ld8 (reg w 19) (reg w 14) (imf w 0 11))
  | 1 => some (.ld8z (reg w 19) (reg w 14) (imf w 0 11))
  | 2 => some (.ld16 (reg w 19) (reg w 14) (imf w 0 11))
  | 3 => some (.ld16z (reg w 19) (reg w 14) (imf w 0 11))
  | 4 => some (.ld32 (reg w 19) (reg w 14) (imf w 0 11))
  | 5 => some (.ld32z (reg w 19) (reg w 14) (imf w 0 11))
  | 6 => some (.ld64 (reg w 19) (reg w 14) (imf w 0 11))
  | _ => none

/-- C major 0x0A (CM). -/
def decodeC0a (_k w : Nat) : Option Instr :=
  match fld w 11 3 with
  | 0 => some (.st8 (reg w 19) (reg w 14) (imf w 0 11))
  | 1 => some (.st16 (reg w 19) (reg w 14) (imf w 0 11))
  | 2 => some (.st32 (reg w 19) (reg w 14) (imf w 0 11))
  | 3 => some (.st64 (reg w 19) (reg w 14) (imf w 0 11))
  | _ => none

/-- C major 0x0B (CM). -/
def decodeC0b (_k w : Nat) : Option Instr :=
  match fld w 11 3 with
  | 0 => some (.vld (reg w 19) (reg w 14) (imf w 0 11))
  | 1 => some (.vst (reg w 19) (reg w 14) (imf w 0 11))
  | _ => none

/-- C major 0x0C (CR). -/
def decodeC0c (k w : Nat) : Option Instr :=
  match fld w 4 5 with
  | 0 => if (k - 1) * (fld w 0 4) = 0 then some (.vldx (reg w 19) (reg w 14) (reg w 9)) else none
  | 1 => if (k - 1) * (fld w 0 4) = 0 then some (.vstx (reg w 19) (reg w 14) (reg w 9)) else none
  | 2 => if (k - 1) * (fld w 0 4) = 0 then some (.ldw32 (reg w 19) (reg w 14) (reg w 9)) else none
  | 3 => if (k - 1) * (fld w 0 4) = 0 then some (.ldw64 (reg w 19) (reg w 14) (reg w 9)) else none
  | 4 => if (k - 1) * (fld w 0 4) = 0 then some (.stw32 (reg w 19) (reg w 14) (reg w 9)) else none
  | 5 => if (k - 1) * (fld w 0 4) = 0 then some (.stw64 (reg w 19) (reg w 14) (reg w 9)) else none
  | 6 => if (k - 1) * (fld w 0 4) = 0 then some (.vldw (reg w 19) (reg w 14) (reg w 9)) else none
  | 7 => if (k - 1) * (fld w 0 4) = 0 then some (.vstw (reg w 19) (reg w 14) (reg w 9)) else none
  | _ => none

/-- C major 0x0D (CR). -/
def decodeC0d (_k w : Nat) : Option Instr :=
  match fld w 4 4 with
  | 0 => (AWidth.ofCode (fld w 8 1)).bind fun width => (Order.ofCode (fld w 2 2)).bind fun r => (Scope.ofCode (fld w 0 2)).bind fun s => some (.aadd (reg w 19) (reg w 14) (reg w 9) width r s)
  | 1 => (AWidth.ofCode (fld w 8 1)).bind fun width => (Order.ofCode (fld w 2 2)).bind fun r => (Scope.ofCode (fld w 0 2)).bind fun s => some (.aand (reg w 19) (reg w 14) (reg w 9) width r s)
  | 2 => (AWidth.ofCode (fld w 8 1)).bind fun width => (Order.ofCode (fld w 2 2)).bind fun r => (Scope.ofCode (fld w 0 2)).bind fun s => some (.aor (reg w 19) (reg w 14) (reg w 9) width r s)
  | 3 => (AWidth.ofCode (fld w 8 1)).bind fun width => (Order.ofCode (fld w 2 2)).bind fun r => (Scope.ofCode (fld w 0 2)).bind fun s => some (.axor (reg w 19) (reg w 14) (reg w 9) width r s)
  | 4 => (AWidth.ofCode (fld w 8 1)).bind fun width => (Order.ofCode (fld w 2 2)).bind fun r => (Scope.ofCode (fld w 0 2)).bind fun s => some (.amin (reg w 19) (reg w 14) (reg w 9) width r s)
  | 5 => (AWidth.ofCode (fld w 8 1)).bind fun width => (Order.ofCode (fld w 2 2)).bind fun r => (Scope.ofCode (fld w 0 2)).bind fun s => some (.amax (reg w 19) (reg w 14) (reg w 9) width r s)
  | 6 => (AWidth.ofCode (fld w 8 1)).bind fun width => (Order.ofCode (fld w 2 2)).bind fun r => (Scope.ofCode (fld w 0 2)).bind fun s => some (.aminu (reg w 19) (reg w 14) (reg w 9) width r s)
  | 7 => (AWidth.ofCode (fld w 8 1)).bind fun width => (Order.ofCode (fld w 2 2)).bind fun r => (Scope.ofCode (fld w 0 2)).bind fun s => some (.amaxu (reg w 19) (reg w 14) (reg w 9) width r s)
  | 8 => (AWidth.ofCode (fld w 8 1)).bind fun width => (Order.ofCode (fld w 2 2)).bind fun r => (Scope.ofCode (fld w 0 2)).bind fun s => some (.aswp (reg w 19) (reg w 14) (reg w 9) width r s)
  | 9 => (AWidth.ofCode (fld w 8 1)).bind fun width => (Order.ofCode (fld w 2 2)).bind fun r => (Scope.ofCode (fld w 0 2)).bind fun s => some (.acas (reg w 19) (reg w 14) (reg w 9) width r s)
  | 10 => (AWidth.ofCode (fld w 8 1)).bind fun width => (Order.ofCode (fld w 2 2)).bind fun r => (Scope.ofCode (fld w 0 2)).bind fun s => some (.afadd (reg w 19) (reg w 14) (reg w 9) width r s)
  | 11 => (AWidth.ofCode (fld w 8 1)).bind fun width => (Order.ofCode (fld w 2 2)).bind fun r => (Scope.ofCode (fld w 0 2)).bind fun s => some (.adecz (reg w 19) (reg w 14) (reg w 9) width r s)
  | _ => none

/-- C major 0x0E (CR). -/
def decodeC0e (k w : Nat) : Option Instr :=
  match fld w 4 5 with
  | 0 => if (k - 1) * (fld w 2 2 + fld w 9 15) = 0 then (Scope.ofCode (fld w 0 2)).bind fun s => some (.fence s) else none
  | 2 => if (k - 1) * (fld w 0 4 + fld w 9 5) = 0 then some (.rprobe (reg w 19) (reg w 14)) else none
  | 3 => if (k - 1) * (fld w 3 1) = 0 then (Scope.ofCode (fld w 0 2)).bind fun s => some (.mwait (reg w 19) (reg w 14) (reg w 9) (flag w 2) s) else none
  | 1 => if (k - 1) * (fld w 0 4 + fld w 9 15) = 0 then some .ifence else none
  | _ => none

/-- C major 0x0F (CR). -/
def decodeC0f (k w : Nat) : Option Instr :=
  match fld w 4 3 with
  | 0 => some (.cpy (reg w 19) (reg w 14) (reg w 9) (flag w 8) (flag w 7) (Fin.ofNat 16 (fld w 0 4)))
  | 1 => some (.cpy2d (reg w 19) (reg w 14) (reg w 9) (flag w 8) (flag w 7) (Fin.ofNat 16 (fld w 0 4)))
  | 2 => if fld w 7 1 = 0 then (if (k - 1) * (fld w 19 5) = 0 then some (.lcp (reg w 14) (reg w 9) (flag w 8) (Fin.ofNat 16 (fld w 0 4))) else none) else (if (k - 1) * (fld w 22 2) = 0 ∧ fld w 7 1 = 1 then some (.lcpNf (preg w 19) (reg w 14) (reg w 9) (flag w 8) (Fin.ofNat 16 (fld w 0 4))) else none)
  | 3 => if (k - 1) * (fld w 19 5) + k * fld w 7 1 = 0 then some (.lcs (reg w 14) (reg w 9) (flag w 8) (Fin.ofNat 16 (fld w 0 4))) else none
  | 4 => if k * fld w 7 1 = 0 then some (.rdc (reg w 19) (reg w 14) (reg w 9) (flag w 8) (Fin.ofNat 16 (fld w 0 4))) else none
  | 5 => if (k - 1) * (fld w 9 5 + fld w 19 5) + k * fld w 7 1 = 0 then some (.ired (reg w 14) (flag w 8) (Fin.ofNat 16 (fld w 0 4))) else none
  | 6 => if (k - 1) * (fld w 9 10) + k * fld w 7 2 = 0 then some (.ctw (reg w 19) (Fin.ofNat 16 (fld w 0 4))) else none
  | 7 => if (k - 1) * (fld w 9 10) + k * fld w 7 2 = 0 then some (.ctq (reg w 19) (Fin.ofNat 16 (fld w 0 4))) else none
  | _ => none

/-- C major 0x10 (CR). -/
def decodeC10 (k w : Nat) : Option Instr :=
  match fld w 4 5 with
  | 0 => if (k - 1) * (fld w 2 2 + fld w 9 5) = 0 then (Port.ofCode (fld w 0 2)).bind fun q => whenLegal k (.qpop (reg w 19) (reg w 14) q) else none
  | 1 => if (k - 1) * (fld w 2 2 + fld w 12 2) = 0 then (Port.ofCode (fld w 0 2)).bind fun q => whenLegal k (.qpopl (reg w 19) (reg w 14) (preg w 9) q) else none
  | 2 => if (k - 1) * (fld w 2 2 + fld w 12 2) = 0 then (Port.ofCode (fld w 0 2)).bind fun q => whenLegal k (.qpeek (reg w 19) (reg w 14) (preg w 9) q) else none
  | 3 => if (k - 1) * (fld w 2 2 + fld w 9 5) = 0 then (Port.ofCode (fld w 0 2)).bind fun q => whenLegal k (.qcnt (reg w 19) (reg w 14) q) else none
  | 4 => if (k - 1) * (fld w 2 2 + fld w 9 5 + fld w 19 5) = 0 then (Port.ofCode (fld w 0 2)).bind fun q => some (.qwait (reg w 14) q) else none
  | 5 => if (k - 1) * (fld w 9 5 + fld w 19 5) + k * fld w 0 4 = 0 then some (.qpush (reg w 14)) else none
  | 6 => if (k - 1) * (fld w 19 5) + k * fld w 0 4 = 0 then whenLegal k (.msend (reg w 14) (reg w 9)) else none
  | 7 => if (k - 1) * (fld w 19 5) + k * fld w 0 4 = 0 then some (.hsend (reg w 14) (reg w 9)) else none
  | 8 => if (k - 1) * (fld w 14 10) + k * fld w 0 4 = 0 then whenLegal k (.rsend (reg w 9)) else none
  | 9 => if (k - 1) * (fld w 14 10) + k * fld w 0 4 = 0 then whenLegal k (.bsend (reg w 9)) else none
  | _ => none

/-- C major 0x11 (CR). -/
def decodeC11 (k w : Nat) : Option Instr :=
  match fld w 4 5 with
  | 0 => if (k - 1) * (fld w 19 5) = 0 then (XMode.ofCode (fld w 0 4)).bind fun xm => some (.xsend (reg w 14) (reg w 9) xm) else none
  | 1 => if (k - 1) * (fld w 19 5) + k * fld w 1 3 = 0 then some (.xred (reg w 14) (reg w 9) (flag w 0)) else none
  | 4 => if (k - 1) * (fld w 0 4 + fld w 9 5) = 0 then some (.gvote (reg w 19) (reg w 14)) else none
  | 2 => if (k - 1) * (fld w 0 4 + fld w 9 15) = 0 then some .xsync else none
  | 3 => if (k - 1) * (fld w 0 4 + fld w 9 15) = 0 then some .gbar else none
  | _ => none

/-- C major 0x12 (CR). -/
def decodeC12 (k w : Nat) : Option Instr :=
  match fld w 4 5 with
  | 0 => if fld w 0 1 = 0 then (if (k - 1) * (fld w 0 4 + fld w 9 5 + fld w 19 5) = 0 then some (.launch (reg w 14)) else none) else (if (k - 1) * (fld w 1 3 + fld w 9 5 + fld w 22 2) = 0 ∧ fld w 0 1 = 1 then some (.launchNb (preg w 19) (reg w 14)) else none)
  | 1 =>
    match fld w 0 4 with
    | 0 => if (k - 1) * (fld w 9 5 + fld w 19 5) = 0 then some (.ekickGecko (reg w 14)) else none
    | 1 => if (k - 1) * (fld w 9 5 + fld w 19 5) = 0 then some (.ekickRake (reg w 14)) else none
    | 2 => if (k - 1) * (fld w 9 5 + fld w 19 5) = 0 then some (.ekickCham (reg w 14)) else none
    | _ => none
  | _ => none

/-- C major 0x13 (CM). -/
def decodeC13 (_k w : Nat) : Option Instr :=
  match fld w 11 3 with
  | 0 => some (.ztst (reg w 19) (reg w 14) (imf w 0 11))
  | _ => none

/-- A major 0x01 (AR). -/
def decodeA01 (k w : Nat) : Option Instr :=
  match fld w 5 4 with
  | 0 => if (k - 1) * (fld w 0 5) = 0 then some (.add (reg w 19) (reg w 14) (reg w 9)) else none
  | 1 => if (k - 1) * (fld w 0 5) = 0 then some (.sub (reg w 19) (reg w 14) (reg w 9)) else none
  | 2 => if (k - 1) * (fld w 0 5) = 0 then some (.and (reg w 19) (reg w 14) (reg w 9)) else none
  | 3 => if (k - 1) * (fld w 0 5) = 0 then some (.or (reg w 19) (reg w 14) (reg w 9)) else none
  | 4 => if (k - 1) * (fld w 0 5) = 0 then some (.xor (reg w 19) (reg w 14) (reg w 9)) else none
  | 5 => if (k - 1) * (fld w 0 5) = 0 then some (.andn (reg w 19) (reg w 14) (reg w 9)) else none
  | 6 => if (k - 1) * (fld w 0 5) = 0 then some (.shl (reg w 19) (reg w 14) (reg w 9)) else none
  | 7 => if (k - 1) * (fld w 0 5) = 0 then some (.shr (reg w 19) (reg w 14) (reg w 9)) else none
  | 8 => if (k - 1) * (fld w 0 5) = 0 then some (.sar (reg w 19) (reg w 14) (reg w 9)) else none
  | 9 => if (k - 1) * (fld w 0 5) = 0 then some (.rol (reg w 19) (reg w 14) (reg w 9)) else none
  | 10 => if (k - 1) * (fld w 0 5) = 0 then some (.min (reg w 19) (reg w 14) (reg w 9)) else none
  | 11 => if (k - 1) * (fld w 0 5) = 0 then some (.max (reg w 19) (reg w 14) (reg w 9)) else none
  | 12 => if (k - 1) * (fld w 0 5) = 0 then some (.minu (reg w 19) (reg w 14) (reg w 9)) else none
  | 13 => if (k - 1) * (fld w 0 5) = 0 then some (.maxu (reg w 19) (reg w 14) (reg w 9)) else none
  | 14 => if (k - 1) * (fld w 0 5) = 0 then some (.slt (reg w 19) (reg w 14) (reg w 9)) else none
  | 15 => if (k - 1) * (fld w 0 5) = 0 then some (.sltu (reg w 19) (reg w 14) (reg w 9)) else none
  | _ => none

/-- A major 0x02 (AR). -/
def decodeA02 (k w : Nat) : Option Instr :=
  match fld w 5 4 with
  | 0 => if (k - 1) * (fld w 0 5) = 0 then some (.mul (reg w 19) (reg w 14) (reg w 9)) else none
  | 1 => if (k - 1) * (fld w 0 5) = 0 then some (.mulh (reg w 19) (reg w 14) (reg w 9)) else none
  | 2 => if (k - 1) * (fld w 0 5) = 0 then some (.mulhu (reg w 19) (reg w 14) (reg w 9)) else none
  | 3 => if (k - 1) * (fld w 0 5) = 0 then some (.div (reg w 19) (reg w 14) (reg w 9)) else none
  | 4 => if (k - 1) * (fld w 0 5) = 0 then some (.divu (reg w 19) (reg w 14) (reg w 9)) else none
  | 5 => if (k - 1) * (fld w 0 5) = 0 then some (.rem (reg w 19) (reg w 14) (reg w 9)) else none
  | 6 => if (k - 1) * (fld w 0 5) = 0 then some (.remu (reg w 19) (reg w 14) (reg w 9)) else none
  | 7 => if (k - 1) * (fld w 0 5) = 0 then some (.sel (reg w 19) (reg w 14) (reg w 9)) else none
  | 8 => if (k - 1) * (fld w 0 5 + fld w 9 5) = 0 then some (.clz (reg w 19) (reg w 14)) else none
  | 9 => if (k - 1) * (fld w 0 5 + fld w 9 5) = 0 then some (.ctz (reg w 19) (reg w 14)) else none
  | 10 => if (k - 1) * (fld w 0 5 + fld w 9 5) = 0 then some (.popc (reg w 19) (reg w 14)) else none
  | 11 => if (k - 1) * (fld w 0 5) = 0 then some (.bfx (reg w 19) (reg w 14) (reg w 9)) else none
  | 12 => if (k - 1) * (fld w 0 5) = 0 then some (.bfi (reg w 19) (reg w 14) (reg w 9)) else none
  | 13 => if (k - 1) * (fld w 0 5 + fld w 9 5) = 0 then some (.mov (reg w 19) (reg w 14)) else none
  | 14 => if (k - 1) * (fld w 0 5) = 0 then some (.lea (reg w 19) (reg w 14) (reg w 9)) else none
  | 15 => if (k - 1) * (fld w 0 5) = 0 then some (.wadr (reg w 19) (reg w 14) (reg w 9)) else none
  | _ => none

/-- A major 0x03 (AI). -/
def decodeA03 (k w : Nat) : Option Instr :=
  match fld w 11 3 with
  | 0 => some (.addi (reg w 19) (reg w 14) (imf w 0 11))
  | 1 => some (.andi (reg w 19) (reg w 14) (imf w 0 11))
  | 2 => some (.ori (reg w 19) (reg w 14) (imf w 0 11))
  | 3 => some (.xori (reg w 19) (reg w 14) (imf w 0 11))
  | 4 => if (k - 1) * (fld w 6 5) = 0 then some (.shli (reg w 19) (reg w 14) (imf w 0 6)) else none
  | 5 => if (k - 1) * (fld w 6 5) = 0 then some (.shri (reg w 19) (reg w 14) (imf w 0 6)) else none
  | 6 => if (k - 1) * (fld w 6 5) = 0 then some (.sari (reg w 19) (reg w 14) (imf w 0 6)) else none
  | 7 => if (k - 1) * (fld w 14 5) = 0 then some (.li (reg w 19) (imf w 0 11)) else none
  | _ => none

/-- A major 0x04 (AL). -/
def decodeA04 (_k w : Nat) : Option Instr :=
  some (.lui (reg w 19) (imf w 0 19))

/-- A major 0x05 (AL). -/
def decodeA05 (_k w : Nat) : Option Instr :=
  some (.lhi (reg w 19) (imf w 0 19))

/-- A major 0x08 (AR). -/
def decodeA08 (k w : Nat) : Option Instr :=
  match fld w 5 4 with
  | 0 => (View.ofCode (fld w 3 2)).bind fun t => some (.vadd (reg w 19) (reg w 14) (reg w 9) t (preg w 0))
  | 1 => (View.ofCode (fld w 3 2)).bind fun t => some (.vsub (reg w 19) (reg w 14) (reg w 9) t (preg w 0))
  | 2 => (View.ofCode (fld w 3 2)).bind fun t => some (.vmul (reg w 19) (reg w 14) (reg w 9) t (preg w 0))
  | 3 => (View.ofCode (fld w 3 2)).bind fun t => some (.vmulh (reg w 19) (reg w 14) (reg w 9) t (preg w 0))
  | 4 => (View.ofCode (fld w 3 2)).bind fun t => some (.vmin (reg w 19) (reg w 14) (reg w 9) t (preg w 0))
  | 5 => (View.ofCode (fld w 3 2)).bind fun t => some (.vmax (reg w 19) (reg w 14) (reg w 9) t (preg w 0))
  | 6 => (View.ofCode (fld w 3 2)).bind fun t => some (.vminu (reg w 19) (reg w 14) (reg w 9) t (preg w 0))
  | 7 => (View.ofCode (fld w 3 2)).bind fun t => some (.vmaxu (reg w 19) (reg w 14) (reg w 9) t (preg w 0))
  | 8 => (View.ofCode (fld w 3 2)).bind fun t => some (.vand (reg w 19) (reg w 14) (reg w 9) t (preg w 0))
  | 9 => (View.ofCode (fld w 3 2)).bind fun t => some (.vor (reg w 19) (reg w 14) (reg w 9) t (preg w 0))
  | 10 => (View.ofCode (fld w 3 2)).bind fun t => some (.vxor (reg w 19) (reg w 14) (reg w 9) t (preg w 0))
  | 11 => (View.ofCode (fld w 3 2)).bind fun t => some (.vshl (reg w 19) (reg w 14) (reg w 9) t (preg w 0))
  | 12 => (View.ofCode (fld w 3 2)).bind fun t => some (.vshr (reg w 19) (reg w 14) (reg w 9) t (preg w 0))
  | 13 => (View.ofCode (fld w 3 2)).bind fun t => some (.vsar (reg w 19) (reg w 14) (reg w 9) t (preg w 0))
  | 14 => if (k - 1) * (fld w 9 5) = 0 then (View.ofCode (fld w 3 2)).bind fun t => some (.vabs (reg w 19) (reg w 14) t (preg w 0)) else none
  | 15 => if (k - 1) * (fld w 9 5) = 0 then (View.ofCode (fld w 3 2)).bind fun t => some (.vneg (reg w 19) (reg w 14) t (preg w 0)) else none
  | _ => none

/-- A major 0x09 (AR). -/
def decodeA09 (k w : Nat) : Option Instr :=
  match fld w 5 4 with
  | 0 => (View.ofCode (fld w 3 2)).bind fun t => some (.vadds (reg w 19) (reg w 14) (reg w 9) t (preg w 0))
  | 1 => (View.ofCode (fld w 3 2)).bind fun t => some (.vsubs (reg w 19) (reg w 14) (reg w 9) t (preg w 0))
  | 2 => (View.ofCode (fld w 3 2)).bind fun t => some (.vaddsu (reg w 19) (reg w 14) (reg w 9) t (preg w 0))
  | 3 => (View.ofCode (fld w 3 2)).bind fun t => some (.vsubsu (reg w 19) (reg w 14) (reg w 9) t (preg w 0))
  | 4 => if (k - 1) * (fld w 22 2) = 0 then (View.ofCode (fld w 3 2)).bind fun t => some (.vcmpeq (preg w 19) (reg w 14) (reg w 9) t (preg w 0)) else none
  | 5 => if (k - 1) * (fld w 22 2) = 0 then (View.ofCode (fld w 3 2)).bind fun t => some (.vcmpne (preg w 19) (reg w 14) (reg w 9) t (preg w 0)) else none
  | 6 => if (k - 1) * (fld w 22 2) = 0 then (View.ofCode (fld w 3 2)).bind fun t => some (.vcmplt (preg w 19) (reg w 14) (reg w 9) t (preg w 0)) else none
  | 7 => if (k - 1) * (fld w 22 2) = 0 then (View.ofCode (fld w 3 2)).bind fun t => some (.vcmple (preg w 19) (reg w 14) (reg w 9) t (preg w 0)) else none
  | 8 => if (k - 1) * (fld w 22 2) = 0 then (View.ofCode (fld w 3 2)).bind fun t => some (.vcmpltu (preg w 19) (reg w 14) (reg w 9) t (preg w 0)) else none
  | 9 => if (k - 1) * (fld w 22 2) = 0 then (View.ofCode (fld w 3 2)).bind fun t => some (.vcmpleu (preg w 19) (reg w 14) (reg w 9) t (preg w 0)) else none
  | 10 => if k * (3 - fld w 3 2) = 0 then some (.vsel (reg w 19) (reg w 14) (reg w 9) (preg w 0)) else none
  | 11 => if k * fld w 4 1 = 0 then some (.vdot4 (reg w 19) (reg w 14) (reg w 9) (flag w 3) (preg w 0)) else none
  | 12 => if k * fld w 4 1 = 0 then some (.vdot4u (reg w 19) (reg w 14) (reg w 9) (flag w 3) (preg w 0)) else none
  | _ => none

/-- A major 0x0A (AR). -/
def decodeA0a (k w : Nat) : Option Instr :=
  match fld w 5 4 with
  | 0 => (FFmt.ofCode (fld w 3 2)).bind fun t => some (.fadd (reg w 19) (reg w 14) (reg w 9) t (preg w 0))
  | 1 => (FFmt.ofCode (fld w 3 2)).bind fun t => some (.fsub (reg w 19) (reg w 14) (reg w 9) t (preg w 0))
  | 2 => (FFmt.ofCode (fld w 3 2)).bind fun t => some (.fmul (reg w 19) (reg w 14) (reg w 9) t (preg w 0))
  | 3 => (FFmt.ofCode (fld w 3 2)).bind fun t => some (.fmin (reg w 19) (reg w 14) (reg w 9) t (preg w 0))
  | 4 => (FFmt.ofCode (fld w 3 2)).bind fun t => some (.fmax (reg w 19) (reg w 14) (reg w 9) t (preg w 0))
  | 5 => if (k - 1) * (fld w 9 5) = 0 then (FFmt.ofCode (fld w 3 2)).bind fun t => some (.fabs (reg w 19) (reg w 14) t (preg w 0)) else none
  | 6 => if (k - 1) * (fld w 9 5) = 0 then (FFmt.ofCode (fld w 3 2)).bind fun t => some (.fneg (reg w 19) (reg w 14) t (preg w 0)) else none
  | 7 => (FFmt.ofCode (fld w 3 2)).bind fun t => some (.fcpsgn (reg w 19) (reg w 14) (reg w 9) t (preg w 0))
  | 8 => if (k - 1) * (fld w 22 2) = 0 then (FFmt.ofCode (fld w 3 2)).bind fun t => some (.fcmpeq (preg w 19) (reg w 14) (reg w 9) t (preg w 0)) else none
  | 9 => if (k - 1) * (fld w 22 2) = 0 then (FFmt.ofCode (fld w 3 2)).bind fun t => some (.fcmplt (preg w 19) (reg w 14) (reg w 9) t (preg w 0)) else none
  | 10 => if (k - 1) * (fld w 22 2) = 0 then (FFmt.ofCode (fld w 3 2)).bind fun t => some (.fcmple (preg w 19) (reg w 14) (reg w 9) t (preg w 0)) else none
  | 11 => if (k - 1) * (fld w 22 2) = 0 then (FFmt.ofCode (fld w 3 2)).bind fun t => some (.fcmpun (preg w 19) (reg w 14) (reg w 9) t (preg w 0)) else none
  | 12 => if (k - 1) * (fld w 9 5) = 0 then (FFmt.ofCode (fld w 3 2)).bind fun t => some (.fclass (reg w 19) (reg w 14) t (preg w 0)) else none
  | 13 => if (k - 1) * (fld w 12 2) = 0 then (lax k (RMode.ofCode (fld w 9 3)) .rne).bind fun m => (FFmt.ofCode (fld w 3 2)).bind fun t => some (.fround (reg w 19) (reg w 14) m t (preg w 0)) else none
  | _ => none

/-- A major 0x0B (AR). -/
def decodeA0b (k w : Nat) : Option Instr :=
  match fld w 5 4 with
  | 0 => (lax k (TyCode.ofCode (fld w 9 5)) .i8).bind fun y => (FFmt.ofCode (fld w 3 2)).bind fun t => whenLegal k (.cvtf (reg w 19) (reg w 14) y t (preg w 0))
  | 1 => (lax k (TyCode.ofCode (fld w 9 5)) .i8).bind fun y => (FFmt.ofCode (fld w 3 2)).bind fun t => whenLegal k (.cvtfi (reg w 19) (reg w 14) y t (preg w 0))
  | 2 => (lax k (TyCode.ofCode (fld w 9 5)) .i8).bind fun y => (FFmt.ofCode (fld w 3 2)).bind fun t => whenLegal k (.cvtif (reg w 19) (reg w 14) y t (preg w 0))
  | 3 => (lax k (TyCode.ofCode (fld w 9 5)) .i8).bind fun y => (FFmt.ofCode (fld w 3 2)).bind fun t => whenLegal k (.cvtq (reg w 19) (reg w 14) y t (preg w 0))
  | 4 => if k * (fld w 3 2 + fld w 9 4 + (1 - fld w 13 1)) = 0 then some (.cvtdq (reg w 19) (reg w 14) (preg w 0)) else none
  | 5 => (lax k (TyCode.ofCode (fld w 9 5)) .i8).bind fun y => (FFmt.ofCode (fld w 3 2)).bind fun t => whenLegal k (.cvtsr (reg w 19) (reg w 14) y t (preg w 0))
  | _ => none

/-- A major 0x0C (AF). -/
def decodeA0c (_k w : Nat) : Option Instr :=
  (FFmt.ofCode (fld w 2 2)).bind fun t => some (.ffma (reg w 19) (reg w 14) (reg w 9) (reg w 4) t (Fin.ofNat 4 (fld w 0 2)))

/-- A major 0x0D (AF). -/
def decodeA0d (_k w : Nat) : Option Instr :=
  (FFmt.ofCode (fld w 2 2)).bind fun t => some (.ffms (reg w 19) (reg w 14) (reg w 9) (reg w 4) t (Fin.ofNat 4 (fld w 0 2)))

/-- A major 0x0E (AF). -/
def decodeA0e (_k w : Nat) : Option Instr :=
  (FFmt.ofCode (fld w 2 2)).bind fun t => some (.ffnma (reg w 19) (reg w 14) (reg w 9) (reg w 4) t (Fin.ofNat 4 (fld w 0 2)))

/-- A major 0x0F (AR). -/
def decodeA0f (k w : Nat) : Option Instr :=
  match fld w 5 4 with
  | 0 => if (k - 1) * (fld w 9 5) + k * fld w 4 1 = 0 then (SFmt.ofCode (fld w 3 1)).bind fun t => some (.frcp (reg w 19) (reg w 14) t (preg w 0)) else none
  | 1 => if (k - 1) * (fld w 9 5) + k * fld w 4 1 = 0 then (SFmt.ofCode (fld w 3 1)).bind fun t => some (.frsq (reg w 19) (reg w 14) t (preg w 0)) else none
  | 2 => if (k - 1) * (fld w 9 5) + k * fld w 4 1 = 0 then (SFmt.ofCode (fld w 3 1)).bind fun t => some (.fsqrt (reg w 19) (reg w 14) t (preg w 0)) else none
  | 3 => if (k - 1) * (fld w 9 5) + k * fld w 4 1 = 0 then (SFmt.ofCode (fld w 3 1)).bind fun t => some (.fexp2 (reg w 19) (reg w 14) t (preg w 0)) else none
  | 4 => if (k - 1) * (fld w 9 5) + k * fld w 4 1 = 0 then (SFmt.ofCode (fld w 3 1)).bind fun t => some (.flog2 (reg w 19) (reg w 14) t (preg w 0)) else none
  | 5 => if (k - 1) * (fld w 9 5) + k * fld w 4 1 = 0 then (SFmt.ofCode (fld w 3 1)).bind fun t => some (.fsin (reg w 19) (reg w 14) t (preg w 0)) else none
  | 6 => if (k - 1) * (fld w 9 5) + k * fld w 4 1 = 0 then (SFmt.ofCode (fld w 3 1)).bind fun t => some (.fcos (reg w 19) (reg w 14) t (preg w 0)) else none
  | 7 => if k * fld w 4 1 = 0 then (SFmt.ofCode (fld w 3 1)).bind fun t => some (.fdiv (reg w 19) (reg w 14) (reg w 9) t (preg w 0)) else none
  | _ => none

/-- A major 0x10 (AR). -/
def decodeA10 (k w : Nat) : Option Instr :=
  match fld w 5 4 with
  | 0 => if (k - 1) * (fld w 9 5) = 0 then (View.ofCode (fld w 3 2)).bind fun t => some (.vbcast (reg w 19) (reg w 14) t (preg w 0)) else none
  | 1 => (View.ofCode (fld w 3 2)).bind fun t => some (.vget (reg w 19) (reg w 14) (reg w 9) t (preg w 0))
  | 2 => (View.ofCode (fld w 3 2)).bind fun t => some (.vput (reg w 19) (reg w 14) (reg w 9) t (preg w 0))
  | 3 => (View.ofCode (fld w 3 2)).bind fun t => some (.vperm (reg w 19) (reg w 14) (reg w 9) t (preg w 0))
  | 4 => (View.ofCode (fld w 3 2)).bind fun t => whenLegal k (.vext (reg w 19) (reg w 14) (reg w 9) t (preg w 0))
  | 5 => (View.ofCode (fld w 3 2)).bind fun t => whenLegal k (.vins (reg w 19) (reg w 14) (reg w 9) t (preg w 0))
  | 6 => if (k - 1) * (fld w 9 5) + k * (3 - fld w 3 2) = 0 then some (.vmov (reg w 19) (reg w 14) (preg w 0)) else none
  | _ => none

/-- A major 0x11 (AI). -/
def decodeA11 (k w : Nat) : Option Instr :=
  match fld w 11 3 with
  | 0 => if (k - 1) * (fld w 14 5) = 0 then some (.vli (reg w 19) (imf w 0 11)) else none
  | 1 => some (.vaddi (reg w 19) (reg w 14) (imf w 0 11))
  | 2 => if (k - 1) * (fld w 6 5) = 0 then some (.vshli (reg w 19) (reg w 14) (imf w 0 6)) else none
  | 3 => if (k - 1) * (fld w 6 5) = 0 then some (.vshri (reg w 19) (reg w 14) (imf w 0 6)) else none
  | _ => none

/-- A major 0x12 (AR). -/
def decodeA12 (k w : Nat) : Option Instr :=
  match fld w 5 4 with
  | 0 => if (k - 1) * (fld w 17 2) + k * fld w 3 2 = 0 then some (.wballot (reg w 19) (preg w 14) (reg w 9) (preg w 0)) else none
  | 1 => if (k - 1) * (fld w 17 2 + fld w 22 2) + k * fld w 3 2 = 0 then some (.wany (preg w 19) (preg w 14) (reg w 9) (preg w 0)) else none
  | 2 => if (k - 1) * (fld w 17 2 + fld w 22 2) + k * fld w 3 2 = 0 then some (.wall (preg w 19) (preg w 14) (reg w 9) (preg w 0)) else none
  | 3 => if k * (3 - fld w 3 2) = 0 then some (.wshfl (reg w 19) (reg w 14) (reg w 9) (preg w 0)) else none
  | 4 => if k * (3 - fld w 3 2) = 0 then some (.wshup (reg w 19) (reg w 14) (reg w 9) (preg w 0)) else none
  | 5 => if k * (3 - fld w 3 2) = 0 then some (.wshdn (reg w 19) (reg w 14) (reg w 9) (preg w 0)) else none
  | 6 => if k * (3 - fld w 3 2) = 0 then some (.wbfly (reg w 19) (reg w 14) (reg w 9) (preg w 0)) else none
  | 7 => (View.ofCode (fld w 3 2)).bind fun t => some (.wsum (reg w 19) (reg w 14) (reg w 9) t (preg w 0))
  | 8 => (View.ofCode (fld w 3 2)).bind fun t => some (.wmin (reg w 19) (reg w 14) (reg w 9) t (preg w 0))
  | 9 => (View.ofCode (fld w 3 2)).bind fun t => some (.wmax (reg w 19) (reg w 14) (reg w 9) t (preg w 0))
  | 10 => (View.ofCode (fld w 3 2)).bind fun t => some (.wscan (reg w 19) (reg w 14) (reg w 9) t (preg w 0))
  | _ => none

/-- A major 0x13 (AR). -/
def decodeA13 (k w : Nat) : Option Instr :=
  match fld w 5 4 with
  | 0 => if (k - 1) * (fld w 0 5 + fld w 9 5) = 0 then some (.mshape (reg w 19) (reg w 14)) else none
  | 1 => if (k - 1) * (fld w 0 5 + fld w 9 10) = 0 then some (.mclaim (reg w 19)) else none
  | 3 => if (k - 1) * (fld w 0 5 + fld w 9 10) = 0 then some (.mzero (reg w 19)) else none
  | 4 => if (k - 1) * (fld w 0 3 + fld w 4 1) = 0 then some (.mgo (reg w 19) (reg w 14) (reg w 9) (flag w 3)) else none
  | 5 => if (k - 1) * (fld w 0 5 + fld w 9 5 + fld w 19 5) = 0 then some (.msc (reg w 14)) else none
  | 6 => if (k - 1) * (fld w 0 5 + fld w 9 5) = 0 then some (.mrd (reg w 19) (reg w 14)) else none
  | 7 => if (k - 1) * (fld w 0 5 + fld w 9 5) = 0 then some (.mwr (reg w 19) (reg w 14)) else none
  | 8 => if (k - 1) * (fld w 0 5 + fld w 23 1) = 0 then some (.rep (imf w 19 4) (imf w 14 5) (imf w 9 5)) else none
  | 2 => if (k - 1) * (fld w 0 5 + fld w 9 15) = 0 then some .mrel else none
  | 9 => if (k - 1) * (fld w 0 5 + fld w 9 15) = 0 then some .repe else none
  | _ => none

/-- A major 0x14 (AR). -/
def decodeA14 (k w : Nat) : Option Instr :=
  match fld w 5 4 with
  | 0 => if k * fld w 3 2 = 0 then whenLegal k (.bxt (reg w 19) (reg w 14) (reg w 9) (preg w 0)) else none
  | 1 => (lax k (Cull.ofCode (fld w 3 2)) .off).bind fun c => whenLegal k (.trix (reg w 19) (reg w 14) (reg w 9) c (preg w 0))
  | 2 => if k * fld w 3 2 = 0 then whenLegal k (.cdec (reg w 19) (reg w 14) (reg w 9) (preg w 0)) else none
  | 3 => if k * fld w 3 2 = 0 then some (.rbase (reg w 19) (reg w 14) (reg w 9) (preg w 0)) else none
  | 4 => (lax k (Cull.ofCode (fld w 3 2)) .off).bind fun c => whenLegal k (.cov (reg w 19) (reg w 14) (reg w 9) c (preg w 0))
  | 5 => if k * fld w 3 2 = 0 then whenLegal k (.hcmp (reg w 19) (reg w 14) (reg w 9) (preg w 0)) else none
  | _ => none

/-- A major 0x00 (AR). -/
def decodeA00 (k w : Nat) : Option Instr :=
  match fld w 5 4 with
  | 0 => if (k - 1) * (fld w 0 5 + fld w 9 15) = 0 then some .nopA else none
  | _ => none

/-- The C-class majors; the others are reserved (step 3 of R46). -/
def decodeC (k w : Nat) : Option Instr :=
  match fld w 24 6 with
  | 0 => decodeC00 k w
  | 1 => decodeC01 k w
  | 2 => decodeC02 k w
  | 3 => decodeC03 k w
  | 4 => decodeC04 k w
  | 5 => decodeC05 k w
  | 6 => decodeC06 k w
  | 7 => decodeC07 k w
  | 8 => decodeC08 k w
  | 9 => decodeC09 k w
  | 10 => decodeC0a k w
  | 11 => decodeC0b k w
  | 12 => decodeC0c k w
  | 13 => decodeC0d k w
  | 14 => decodeC0e k w
  | 15 => decodeC0f k w
  | 16 => decodeC10 k w
  | 17 => decodeC11 k w
  | 18 => decodeC12 k w
  | 19 => decodeC13 k w
  | _ => none

/-- The A-class majors; the others are reserved (step 3 of R46). -/
def decodeA (k w : Nat) : Option Instr :=
  match fld w 24 6 with
  | 1 => decodeA01 k w
  | 2 => decodeA02 k w
  | 3 => decodeA03 k w
  | 4 => decodeA04 k w
  | 5 => decodeA05 k w
  | 8 => decodeA08 k w
  | 9 => decodeA09 k w
  | 10 => decodeA0a k w
  | 11 => decodeA0b k w
  | 12 => decodeA0c k w
  | 13 => decodeA0d k w
  | 14 => decodeA0e k w
  | 15 => decodeA0f k w
  | 16 => decodeA10 k w
  | 17 => decodeA11 k w
  | 18 => decodeA12 k w
  | 19 => decodeA13 k w
  | 20 => decodeA14 k w
  | 0 => decodeA00 k w
  | _ => none

/-- The L bit (R32). -/
def isLone (w : Nat) : Bool := flag w 31

/-- The K bit: an A-class word (R32). -/
def isAClass (w : Nat) : Bool := flag w 30

/-- The instruction a word of either class stands for, whatever its L bit, under a part of the checks of R46: its
function code only (`k` = 0), its modifier values and type codes too (`k` = 1, step 4), its reserved fields too
(`k` = 2, step 5). -/
def decodeWith (k w : Nat) : Option Instr := if isAClass w then decodeA k w else decodeC k w

/-- The instruction a word of either class stands for, whatever its L bit; none where step 3, 4 or 5 of R46
refuses it. -/
def decodeNat (w : Nat) : Option Instr := decodeWith 2 w

/-- The major of a word is listed in R40 or R42 (step 3 of R46). -/
def majorKnown (w : Nat) : Bool :=
  let m := fld w 24 6
  if isAClass w then decide (m ≤ 0x14) && decide (m ≠ 0x06) && decide (m ≠ 0x07) else decide (m ≤ 0x13)

/-- The step of R46 at which a word is refused as an encoding: 3, 4 or 5; 0 where it is legal. -/
def refusedAt (w : Nat) : Nat :=
  if (decodeNat w).isSome then 0
  else if !majorKnown w then 3
  else if (decodeWith 1 w).isNone then 4
  else 5

/-- The decoder over a 32-bit word: the L bit and the instruction. -/
def decodeWord (w : BitVec 32) : Option (Bool × Instr) :=
  (decodeNat w.toNat).map fun i => (isLone w.toNat, i)

/-- The four bytes of a word in the order the hardware stores them, lowest address first (R7). -/
def wordBytes (w : Nat) : List (BitVec 8) :=
  [BitVec.ofNat 8 (fld w 0 8), BitVec.ofNat 8 (fld w 8 8), BitVec.ofNat 8 (fld w 16 8), BitVec.ofNat 8 (fld w 24 8)]

/-- The word that four bytes hold (R7). -/
def bytesWord : List (BitVec 8) → Nat
  | [] => 0
  | b :: bs => b.toNat + 256 * bytesWord bs

/-- Decoding from bytes: the first four bytes are one word; the rest of the list is handed back. -/
def decodeBytes : List (BitVec 8) → Option ((Bool × Instr) × List (BitVec 8))
  | b0 :: b1 :: b2 :: b3 :: rest =>
    (decodeWord (BitVec.ofNat 32 (bytesWord [b0, b1, b2, b3]))).map fun r => (r, rest)
  | _ => none

/-- The host's question: the instruction read from a word numbered as the opcode table numbers it. Every
instruction of this hardware is one 32-bit word. -/
def decodeTableWord (_nbits w : Nat) : Option Instr :=
  (decodeBytes (wordBytes w)).map fun r => r.1.2

/-- A flag as a number. -/
def bitNat (b : Bool) : Nat := if b then 1 else 0

/-- A word from its fixed bits and its fields, each with the number of its lowest bit. -/
def pack (fixed : Nat) : List (Nat × Nat) → Nat
  | [] => fixed
  | (x, lo) :: rest => pack fixed rest + x * 2 ^ lo

/-- The word of an instruction without its L bit; none for a device event, which has no encoding. The
lone-only instructions (R36) are encoded without L here too; `encode` sets it. -/
def encodeBody : Instr → Option Nat
  | .trap i => some (pack 0x00080000 [(i.toNat, 0)])
  | .tret d m => some (pack 0x00100000 [(bitNat d, 14), (m.toNat, 0)])
  | .kget d k => some (pack 0x00180000 [(d.val, 14), (k.toNat, 0)])
  | .kset s k => some (pack 0x00200000 [(s.val, 14), (k.toNat, 0)])
  | .kswp s k => some (pack 0x00280000 [(s.val, 14), (k.toNat, 0)])
  | .csave s => some (pack 0x00300000 [(s.val, 14)])
  | .crest s => some (pack 0x00380000 [(s.val, 14)])
  | .dbg s => some (pack 0x00400000 [(s.val, 14)])
  | .br o => some (pack 0x01000000 [(o.toNat, 0)])
  | .call o => some (pack 0x02000000 [(o.toNat, 0)])
  | .bany pr o => some (pack 0x03000000 [(pr.val, 21), (o.toNat, 0)])
  | .ball pr o => some (pack 0x03040000 [(pr.val, 21), (o.toNat, 0)])
  | .bnone pr o => some (pack 0x03080000 [(pr.val, 21), (o.toNat, 0)])
  | .bnall pr o => some (pack 0x030C0000 [(pr.val, 21), (o.toNat, 0)])
  | .bz a o => some (pack 0x04000000 [(a.val, 18), (o.toNat, 0)])
  | .bnz a o => some (pack 0x04800000 [(a.val, 18), (o.toNat, 0)])
  | .blt a b o => some (pack 0x05000000 [(a.val, 17), (b.val, 12), (o.toNat, 0)])
  | .bge a b o => some (pack 0x05400000 [(a.val, 17), (b.val, 12), (o.toNat, 0)])
  | .bltu a b o => some (pack 0x05800000 [(a.val, 17), (b.val, 12), (o.toNat, 0)])
  | .bgeu a b o => some (pack 0x05C00000 [(a.val, 17), (b.val, 12), (o.toNat, 0)])
  | .callr a => some (pack 0x06000000 [(a.val, 14)])
  | .jr a => some (pack 0x06000010 [(a.val, 14)])
  | .jv a => some (pack 0x06000030 [(a.val, 14)])
  | .ifm o pr => some (pack 0x07000000 [(o.toNat, 9), (pr.val, 0)])
  | .elm o => some (pack 0x07000010 [(o.toNat, 9)])
  | .lpm o => some (pack 0x07000030 [(o.toNat, 9)])
  | .brk pr => some (pack 0x07000040 [(pr.val, 0)])
  | .cnt pr => some (pack 0x07000050 [(pr.val, 0)])
  | .lpe pr => some (pack 0x07000060 [(pr.val, 0)])
  | .cstart d a b => some (pack 0x08000000 [(d.val, 19), (a.val, 14), (b.val, 9)])
  | .cquery d a => some (pack 0x08000010 [(d.val, 19), (a.val, 14)])
  | .cwait a => some (pack 0x08000020 [(a.val, 14)])
  | .wform d a => some (pack 0x08000050 [(d.val, 19), (a.val, 14)])
  | .wsync a => some (pack 0x08000060 [(a.val, 14)])
  | .reord a b => some (pack 0x08000070 [(a.val, 14), (b.val, 9)])
  | .ld8 d a o => some (pack 0x09000000 [(d.val, 19), (a.val, 14), (o.toNat, 0)])
  | .ld8z d a o => some (pack 0x09000800 [(d.val, 19), (a.val, 14), (o.toNat, 0)])
  | .ld16 d a o => some (pack 0x09001000 [(d.val, 19), (a.val, 14), (o.toNat, 0)])
  | .ld16z d a o => some (pack 0x09001800 [(d.val, 19), (a.val, 14), (o.toNat, 0)])
  | .ld32 d a o => some (pack 0x09002000 [(d.val, 19), (a.val, 14), (o.toNat, 0)])
  | .ld32z d a o => some (pack 0x09002800 [(d.val, 19), (a.val, 14), (o.toNat, 0)])
  | .ld64 d a o => some (pack 0x09003000 [(d.val, 19), (a.val, 14), (o.toNat, 0)])
  | .st8 s a o => some (pack 0x0A000000 [(s.val, 19), (a.val, 14), (o.toNat, 0)])
  | .st16 s a o => some (pack 0x0A000800 [(s.val, 19), (a.val, 14), (o.toNat, 0)])
  | .st32 s a o => some (pack 0x0A001000 [(s.val, 19), (a.val, 14), (o.toNat, 0)])
  | .st64 s a o => some (pack 0x0A001800 [(s.val, 19), (a.val, 14), (o.toNat, 0)])
  | .vld d a o => some (pack 0x0B000000 [(d.val, 19), (a.val, 14), (o.toNat, 0)])
  | .vst s a o => some (pack 0x0B000800 [(s.val, 19), (a.val, 14), (o.toNat, 0)])
  | .vldx d a b => some (pack 0x0C000000 [(d.val, 19), (a.val, 14), (b.val, 9)])
  | .vstx s a b => some (pack 0x0C000010 [(s.val, 19), (a.val, 14), (b.val, 9)])
  | .ldw32 d a b => some (pack 0x0C000020 [(d.val, 19), (a.val, 14), (b.val, 9)])
  | .ldw64 d a b => some (pack 0x0C000030 [(d.val, 19), (a.val, 14), (b.val, 9)])
  | .stw32 s a b => some (pack 0x0C000040 [(s.val, 19), (a.val, 14), (b.val, 9)])
  | .stw64 s a b => some (pack 0x0C000050 [(s.val, 19), (a.val, 14), (b.val, 9)])
  | .vldw d a b => some (pack 0x0C000060 [(d.val, 19), (a.val, 14), (b.val, 9)])
  | .vstw s a b => some (pack 0x0C000070 [(s.val, 19), (a.val, 14), (b.val, 9)])
  | .aadd d a b width r s => some (pack 0x0D000000 [(d.val, 19), (a.val, 14), (b.val, 9), (width.code, 8), (r.code, 2), (s.code, 0)])
  | .aand d a b width r s => some (pack 0x0D000010 [(d.val, 19), (a.val, 14), (b.val, 9), (width.code, 8), (r.code, 2), (s.code, 0)])
  | .aor d a b width r s => some (pack 0x0D000020 [(d.val, 19), (a.val, 14), (b.val, 9), (width.code, 8), (r.code, 2), (s.code, 0)])
  | .axor d a b width r s => some (pack 0x0D000030 [(d.val, 19), (a.val, 14), (b.val, 9), (width.code, 8), (r.code, 2), (s.code, 0)])
  | .amin d a b width r s => some (pack 0x0D000040 [(d.val, 19), (a.val, 14), (b.val, 9), (width.code, 8), (r.code, 2), (s.code, 0)])
  | .amax d a b width r s => some (pack 0x0D000050 [(d.val, 19), (a.val, 14), (b.val, 9), (width.code, 8), (r.code, 2), (s.code, 0)])
  | .aminu d a b width r s => some (pack 0x0D000060 [(d.val, 19), (a.val, 14), (b.val, 9), (width.code, 8), (r.code, 2), (s.code, 0)])
  | .amaxu d a b width r s => some (pack 0x0D000070 [(d.val, 19), (a.val, 14), (b.val, 9), (width.code, 8), (r.code, 2), (s.code, 0)])
  | .aswp d a b width r s => some (pack 0x0D000080 [(d.val, 19), (a.val, 14), (b.val, 9), (width.code, 8), (r.code, 2), (s.code, 0)])
  | .acas d a b width r s => some (pack 0x0D000090 [(d.val, 19), (a.val, 14), (b.val, 9), (width.code, 8), (r.code, 2), (s.code, 0)])
  | .afadd d a b width r s => some (pack 0x0D0000A0 [(d.val, 19), (a.val, 14), (b.val, 9), (width.code, 8), (r.code, 2), (s.code, 0)])
  | .adecz d a b width r s => some (pack 0x0D0000B0 [(d.val, 19), (a.val, 14), (b.val, 9), (width.code, 8), (r.code, 2), (s.code, 0)])
  | .fence s => some (pack 0x0E000000 [(s.code, 0)])
  | .rprobe d a => some (pack 0x0E000020 [(d.val, 19), (a.val, 14)])
  | .mwait d a b width s => some (pack 0x0E000030 [(d.val, 19), (a.val, 14), (b.val, 9), (bitNat width, 2), (s.code, 0)])
  | .cpy d a b m n t => some (pack 0x0F000000 [(d.val, 19), (a.val, 14), (b.val, 9), (bitNat m, 8), (bitNat n, 7), (t.val, 0)])
  | .cpy2d d a b m n t => some (pack 0x0F000010 [(d.val, 19), (a.val, 14), (b.val, 9), (bitNat m, 8), (bitNat n, 7), (t.val, 0)])
  | .lcp a b m t => some (pack 0x0F000020 [(a.val, 14), (b.val, 9), (bitNat m, 8), (t.val, 0)])
  | .lcpNf d a b m t => some (pack 0x0F0000A0 [(d.val, 19), (a.val, 14), (b.val, 9), (bitNat m, 8), (t.val, 0)])
  | .lcs a b m t => some (pack 0x0F000030 [(a.val, 14), (b.val, 9), (bitNat m, 8), (t.val, 0)])
  | .rdc d a b m t => some (pack 0x0F000040 [(d.val, 19), (a.val, 14), (b.val, 9), (bitNat m, 8), (t.val, 0)])
  | .ired a m t => some (pack 0x0F000050 [(a.val, 14), (bitNat m, 8), (t.val, 0)])
  | .ctw d t => some (pack 0x0F000060 [(d.val, 19), (t.val, 0)])
  | .ctq d t => some (pack 0x0F000070 [(d.val, 19), (t.val, 0)])
  | .qpop d a q => some (pack 0x10000000 [(d.val, 19), (a.val, 14), (q.code, 0)])
  | .qpopl d a pr q => some (pack 0x10000010 [(d.val, 19), (a.val, 14), (pr.val, 9), (q.code, 0)])
  | .qpeek d a pr q => some (pack 0x10000020 [(d.val, 19), (a.val, 14), (pr.val, 9), (q.code, 0)])
  | .qcnt d a q => some (pack 0x10000030 [(d.val, 19), (a.val, 14), (q.code, 0)])
  | .qwait a q => some (pack 0x10000040 [(a.val, 14), (q.code, 0)])
  | .qpush a => some (pack 0x10000050 [(a.val, 14)])
  | .msend a b => some (pack 0x10000060 [(a.val, 14), (b.val, 9)])
  | .hsend a b => some (pack 0x10000070 [(a.val, 14), (b.val, 9)])
  | .rsend b => some (pack 0x10000080 [(b.val, 9)])
  | .bsend b => some (pack 0x10000090 [(b.val, 9)])
  | .xsend a b xm => some (pack 0x11000000 [(a.val, 14), (b.val, 9), (xm.code, 0)])
  | .xred a b xm => some (pack 0x11000010 [(a.val, 14), (b.val, 9), (bitNat xm, 0)])
  | .gvote d a => some (pack 0x11000040 [(d.val, 19), (a.val, 14)])
  | .launch a => some (pack 0x12000000 [(a.val, 14)])
  | .launchNb d a => some (pack 0x12000001 [(d.val, 19), (a.val, 14)])
  | .ekickGecko a => some (pack 0x12000010 [(a.val, 14)])
  | .ekickRake a => some (pack 0x12000011 [(a.val, 14)])
  | .ekickCham a => some (pack 0x12000012 [(a.val, 14)])
  | .ztst s a o => some (pack 0x13000000 [(s.val, 19), (a.val, 14), (o.toNat, 0)])
  | .add d a b => some (pack 0x41000000 [(d.val, 19), (a.val, 14), (b.val, 9)])
  | .sub d a b => some (pack 0x41000020 [(d.val, 19), (a.val, 14), (b.val, 9)])
  | .and d a b => some (pack 0x41000040 [(d.val, 19), (a.val, 14), (b.val, 9)])
  | .or d a b => some (pack 0x41000060 [(d.val, 19), (a.val, 14), (b.val, 9)])
  | .xor d a b => some (pack 0x41000080 [(d.val, 19), (a.val, 14), (b.val, 9)])
  | .andn d a b => some (pack 0x410000A0 [(d.val, 19), (a.val, 14), (b.val, 9)])
  | .shl d a b => some (pack 0x410000C0 [(d.val, 19), (a.val, 14), (b.val, 9)])
  | .shr d a b => some (pack 0x410000E0 [(d.val, 19), (a.val, 14), (b.val, 9)])
  | .sar d a b => some (pack 0x41000100 [(d.val, 19), (a.val, 14), (b.val, 9)])
  | .rol d a b => some (pack 0x41000120 [(d.val, 19), (a.val, 14), (b.val, 9)])
  | .min d a b => some (pack 0x41000140 [(d.val, 19), (a.val, 14), (b.val, 9)])
  | .max d a b => some (pack 0x41000160 [(d.val, 19), (a.val, 14), (b.val, 9)])
  | .minu d a b => some (pack 0x41000180 [(d.val, 19), (a.val, 14), (b.val, 9)])
  | .maxu d a b => some (pack 0x410001A0 [(d.val, 19), (a.val, 14), (b.val, 9)])
  | .slt d a b => some (pack 0x410001C0 [(d.val, 19), (a.val, 14), (b.val, 9)])
  | .sltu d a b => some (pack 0x410001E0 [(d.val, 19), (a.val, 14), (b.val, 9)])
  | .mul d a b => some (pack 0x42000000 [(d.val, 19), (a.val, 14), (b.val, 9)])
  | .mulh d a b => some (pack 0x42000020 [(d.val, 19), (a.val, 14), (b.val, 9)])
  | .mulhu d a b => some (pack 0x42000040 [(d.val, 19), (a.val, 14), (b.val, 9)])
  | .div d a b => some (pack 0x42000060 [(d.val, 19), (a.val, 14), (b.val, 9)])
  | .divu d a b => some (pack 0x42000080 [(d.val, 19), (a.val, 14), (b.val, 9)])
  | .rem d a b => some (pack 0x420000A0 [(d.val, 19), (a.val, 14), (b.val, 9)])
  | .remu d a b => some (pack 0x420000C0 [(d.val, 19), (a.val, 14), (b.val, 9)])
  | .sel d a b => some (pack 0x420000E0 [(d.val, 19), (a.val, 14), (b.val, 9)])
  | .clz d a => some (pack 0x42000100 [(d.val, 19), (a.val, 14)])
  | .ctz d a => some (pack 0x42000120 [(d.val, 19), (a.val, 14)])
  | .popc d a => some (pack 0x42000140 [(d.val, 19), (a.val, 14)])
  | .bfx d a b => some (pack 0x42000160 [(d.val, 19), (a.val, 14), (b.val, 9)])
  | .bfi d a b => some (pack 0x42000180 [(d.val, 19), (a.val, 14), (b.val, 9)])
  | .mov d a => some (pack 0x420001A0 [(d.val, 19), (a.val, 14)])
  | .lea d a b => some (pack 0x420001C0 [(d.val, 19), (a.val, 14), (b.val, 9)])
  | .wadr d a b => some (pack 0x420001E0 [(d.val, 19), (a.val, 14), (b.val, 9)])
  | .addi d a i => some (pack 0x43000000 [(d.val, 19), (a.val, 14), (i.toNat, 0)])
  | .andi d a i => some (pack 0x43000800 [(d.val, 19), (a.val, 14), (i.toNat, 0)])
  | .ori d a i => some (pack 0x43001000 [(d.val, 19), (a.val, 14), (i.toNat, 0)])
  | .xori d a i => some (pack 0x43001800 [(d.val, 19), (a.val, 14), (i.toNat, 0)])
  | .shli d a s => some (pack 0x43002000 [(d.val, 19), (a.val, 14), (s.toNat, 0)])
  | .shri d a s => some (pack 0x43002800 [(d.val, 19), (a.val, 14), (s.toNat, 0)])
  | .sari d a s => some (pack 0x43003000 [(d.val, 19), (a.val, 14), (s.toNat, 0)])
  | .li d i => some (pack 0x43003800 [(d.val, 19), (i.toNat, 0)])
  | .lui d i => some (pack 0x44000000 [(d.val, 19), (i.toNat, 0)])
  | .lhi d i => some (pack 0x45000000 [(d.val, 19), (i.toNat, 0)])
  | .vadd d a b t pr => some (pack 0x48000000 [(d.val, 19), (a.val, 14), (b.val, 9), (t.code, 3), (pr.val, 0)])
  | .vsub d a b t pr => some (pack 0x48000020 [(d.val, 19), (a.val, 14), (b.val, 9), (t.code, 3), (pr.val, 0)])
  | .vmul d a b t pr => some (pack 0x48000040 [(d.val, 19), (a.val, 14), (b.val, 9), (t.code, 3), (pr.val, 0)])
  | .vmulh d a b t pr => some (pack 0x48000060 [(d.val, 19), (a.val, 14), (b.val, 9), (t.code, 3), (pr.val, 0)])
  | .vmin d a b t pr => some (pack 0x48000080 [(d.val, 19), (a.val, 14), (b.val, 9), (t.code, 3), (pr.val, 0)])
  | .vmax d a b t pr => some (pack 0x480000A0 [(d.val, 19), (a.val, 14), (b.val, 9), (t.code, 3), (pr.val, 0)])
  | .vminu d a b t pr => some (pack 0x480000C0 [(d.val, 19), (a.val, 14), (b.val, 9), (t.code, 3), (pr.val, 0)])
  | .vmaxu d a b t pr => some (pack 0x480000E0 [(d.val, 19), (a.val, 14), (b.val, 9), (t.code, 3), (pr.val, 0)])
  | .vand d a b t pr => some (pack 0x48000100 [(d.val, 19), (a.val, 14), (b.val, 9), (t.code, 3), (pr.val, 0)])
  | .vor d a b t pr => some (pack 0x48000120 [(d.val, 19), (a.val, 14), (b.val, 9), (t.code, 3), (pr.val, 0)])
  | .vxor d a b t pr => some (pack 0x48000140 [(d.val, 19), (a.val, 14), (b.val, 9), (t.code, 3), (pr.val, 0)])
  | .vshl d a b t pr => some (pack 0x48000160 [(d.val, 19), (a.val, 14), (b.val, 9), (t.code, 3), (pr.val, 0)])
  | .vshr d a b t pr => some (pack 0x48000180 [(d.val, 19), (a.val, 14), (b.val, 9), (t.code, 3), (pr.val, 0)])
  | .vsar d a b t pr => some (pack 0x480001A0 [(d.val, 19), (a.val, 14), (b.val, 9), (t.code, 3), (pr.val, 0)])
  | .vabs d a t pr => some (pack 0x480001C0 [(d.val, 19), (a.val, 14), (t.code, 3), (pr.val, 0)])
  | .vneg d a t pr => some (pack 0x480001E0 [(d.val, 19), (a.val, 14), (t.code, 3), (pr.val, 0)])
  | .vadds d a b t pr => some (pack 0x49000000 [(d.val, 19), (a.val, 14), (b.val, 9), (t.code, 3), (pr.val, 0)])
  | .vsubs d a b t pr => some (pack 0x49000020 [(d.val, 19), (a.val, 14), (b.val, 9), (t.code, 3), (pr.val, 0)])
  | .vaddsu d a b t pr => some (pack 0x49000040 [(d.val, 19), (a.val, 14), (b.val, 9), (t.code, 3), (pr.val, 0)])
  | .vsubsu d a b t pr => some (pack 0x49000060 [(d.val, 19), (a.val, 14), (b.val, 9), (t.code, 3), (pr.val, 0)])
  | .vcmpeq d a b t pr => some (pack 0x49000080 [(d.val, 19), (a.val, 14), (b.val, 9), (t.code, 3), (pr.val, 0)])
  | .vcmpne d a b t pr => some (pack 0x490000A0 [(d.val, 19), (a.val, 14), (b.val, 9), (t.code, 3), (pr.val, 0)])
  | .vcmplt d a b t pr => some (pack 0x490000C0 [(d.val, 19), (a.val, 14), (b.val, 9), (t.code, 3), (pr.val, 0)])
  | .vcmple d a b t pr => some (pack 0x490000E0 [(d.val, 19), (a.val, 14), (b.val, 9), (t.code, 3), (pr.val, 0)])
  | .vcmpltu d a b t pr => some (pack 0x49000100 [(d.val, 19), (a.val, 14), (b.val, 9), (t.code, 3), (pr.val, 0)])
  | .vcmpleu d a b t pr => some (pack 0x49000120 [(d.val, 19), (a.val, 14), (b.val, 9), (t.code, 3), (pr.val, 0)])
  | .vsel d a b pr => some (pack 0x49000158 [(d.val, 19), (a.val, 14), (b.val, 9), (pr.val, 0)])
  | .vdot4 d a b t pr => some (pack 0x49000160 [(d.val, 19), (a.val, 14), (b.val, 9), (bitNat t, 3), (pr.val, 0)])
  | .vdot4u d a b t pr => some (pack 0x49000180 [(d.val, 19), (a.val, 14), (b.val, 9), (bitNat t, 3), (pr.val, 0)])
  | .fadd d a b t pr => some (pack 0x4A000000 [(d.val, 19), (a.val, 14), (b.val, 9), (t.code, 3), (pr.val, 0)])
  | .fsub d a b t pr => some (pack 0x4A000020 [(d.val, 19), (a.val, 14), (b.val, 9), (t.code, 3), (pr.val, 0)])
  | .fmul d a b t pr => some (pack 0x4A000040 [(d.val, 19), (a.val, 14), (b.val, 9), (t.code, 3), (pr.val, 0)])
  | .fmin d a b t pr => some (pack 0x4A000060 [(d.val, 19), (a.val, 14), (b.val, 9), (t.code, 3), (pr.val, 0)])
  | .fmax d a b t pr => some (pack 0x4A000080 [(d.val, 19), (a.val, 14), (b.val, 9), (t.code, 3), (pr.val, 0)])
  | .fabs d a t pr => some (pack 0x4A0000A0 [(d.val, 19), (a.val, 14), (t.code, 3), (pr.val, 0)])
  | .fneg d a t pr => some (pack 0x4A0000C0 [(d.val, 19), (a.val, 14), (t.code, 3), (pr.val, 0)])
  | .fcpsgn d a b t pr => some (pack 0x4A0000E0 [(d.val, 19), (a.val, 14), (b.val, 9), (t.code, 3), (pr.val, 0)])
  | .fcmpeq d a b t pr => some (pack 0x4A000100 [(d.val, 19), (a.val, 14), (b.val, 9), (t.code, 3), (pr.val, 0)])
  | .fcmplt d a b t pr => some (pack 0x4A000120 [(d.val, 19), (a.val, 14), (b.val, 9), (t.code, 3), (pr.val, 0)])
  | .fcmple d a b t pr => some (pack 0x4A000140 [(d.val, 19), (a.val, 14), (b.val, 9), (t.code, 3), (pr.val, 0)])
  | .fcmpun d a b t pr => some (pack 0x4A000160 [(d.val, 19), (a.val, 14), (b.val, 9), (t.code, 3), (pr.val, 0)])
  | .fclass d a t pr => some (pack 0x4A000180 [(d.val, 19), (a.val, 14), (t.code, 3), (pr.val, 0)])
  | .fround d a m t pr => some (pack 0x4A0001A0 [(d.val, 19), (a.val, 14), (m.code, 9), (t.code, 3), (pr.val, 0)])
  | .cvtf d a y t pr => some (pack 0x4B000000 [(d.val, 19), (a.val, 14), (y.code, 9), (t.code, 3), (pr.val, 0)])
  | .cvtfi d a y t pr => some (pack 0x4B000020 [(d.val, 19), (a.val, 14), (y.code, 9), (t.code, 3), (pr.val, 0)])
  | .cvtif d a y t pr => some (pack 0x4B000040 [(d.val, 19), (a.val, 14), (y.code, 9), (t.code, 3), (pr.val, 0)])
  | .cvtq d a y t pr => some (pack 0x4B000060 [(d.val, 19), (a.val, 14), (y.code, 9), (t.code, 3), (pr.val, 0)])
  | .cvtdq d a pr => some (pack 0x4B002080 [(d.val, 19), (a.val, 14), (pr.val, 0)])
  | .cvtsr d a y t pr => some (pack 0x4B0000A0 [(d.val, 19), (a.val, 14), (y.code, 9), (t.code, 3), (pr.val, 0)])
  | .ffma d a b c t pr => some (pack 0x4C000000 [(d.val, 19), (a.val, 14), (b.val, 9), (c.val, 4), (t.code, 2), (pr.val, 0)])
  | .ffms d a b c t pr => some (pack 0x4D000000 [(d.val, 19), (a.val, 14), (b.val, 9), (c.val, 4), (t.code, 2), (pr.val, 0)])
  | .ffnma d a b c t pr => some (pack 0x4E000000 [(d.val, 19), (a.val, 14), (b.val, 9), (c.val, 4), (t.code, 2), (pr.val, 0)])
  | .frcp d a t pr => some (pack 0x4F000000 [(d.val, 19), (a.val, 14), (t.code, 3), (pr.val, 0)])
  | .frsq d a t pr => some (pack 0x4F000020 [(d.val, 19), (a.val, 14), (t.code, 3), (pr.val, 0)])
  | .fsqrt d a t pr => some (pack 0x4F000040 [(d.val, 19), (a.val, 14), (t.code, 3), (pr.val, 0)])
  | .fexp2 d a t pr => some (pack 0x4F000060 [(d.val, 19), (a.val, 14), (t.code, 3), (pr.val, 0)])
  | .flog2 d a t pr => some (pack 0x4F000080 [(d.val, 19), (a.val, 14), (t.code, 3), (pr.val, 0)])
  | .fsin d a t pr => some (pack 0x4F0000A0 [(d.val, 19), (a.val, 14), (t.code, 3), (pr.val, 0)])
  | .fcos d a t pr => some (pack 0x4F0000C0 [(d.val, 19), (a.val, 14), (t.code, 3), (pr.val, 0)])
  | .fdiv d a b t pr => some (pack 0x4F0000E0 [(d.val, 19), (a.val, 14), (b.val, 9), (t.code, 3), (pr.val, 0)])
  | .vbcast d a t pr => some (pack 0x50000000 [(d.val, 19), (a.val, 14), (t.code, 3), (pr.val, 0)])
  | .vget d a b t pr => some (pack 0x50000020 [(d.val, 19), (a.val, 14), (b.val, 9), (t.code, 3), (pr.val, 0)])
  | .vput d a b t pr => some (pack 0x50000040 [(d.val, 19), (a.val, 14), (b.val, 9), (t.code, 3), (pr.val, 0)])
  | .vperm d a b t pr => some (pack 0x50000060 [(d.val, 19), (a.val, 14), (b.val, 9), (t.code, 3), (pr.val, 0)])
  | .vext d a b t pr => some (pack 0x50000080 [(d.val, 19), (a.val, 14), (b.val, 9), (t.code, 3), (pr.val, 0)])
  | .vins d a b t pr => some (pack 0x500000A0 [(d.val, 19), (a.val, 14), (b.val, 9), (t.code, 3), (pr.val, 0)])
  | .vmov d a pr => some (pack 0x500000D8 [(d.val, 19), (a.val, 14), (pr.val, 0)])
  | .vli d i => some (pack 0x51000000 [(d.val, 19), (i.toNat, 0)])
  | .vaddi d a i => some (pack 0x51000800 [(d.val, 19), (a.val, 14), (i.toNat, 0)])
  | .vshli d a s => some (pack 0x51001000 [(d.val, 19), (a.val, 14), (s.toNat, 0)])
  | .vshri d a s => some (pack 0x51001800 [(d.val, 19), (a.val, 14), (s.toNat, 0)])
  | .wballot d a b pr => some (pack 0x52000000 [(d.val, 19), (a.val, 14), (b.val, 9), (pr.val, 0)])
  | .wany d a b pr => some (pack 0x52000020 [(d.val, 19), (a.val, 14), (b.val, 9), (pr.val, 0)])
  | .wall d a b pr => some (pack 0x52000040 [(d.val, 19), (a.val, 14), (b.val, 9), (pr.val, 0)])
  | .wshfl d a b pr => some (pack 0x52000078 [(d.val, 19), (a.val, 14), (b.val, 9), (pr.val, 0)])
  | .wshup d a b pr => some (pack 0x52000098 [(d.val, 19), (a.val, 14), (b.val, 9), (pr.val, 0)])
  | .wshdn d a b pr => some (pack 0x520000B8 [(d.val, 19), (a.val, 14), (b.val, 9), (pr.val, 0)])
  | .wbfly d a b pr => some (pack 0x520000D8 [(d.val, 19), (a.val, 14), (b.val, 9), (pr.val, 0)])
  | .wsum d a b t pr => some (pack 0x520000E0 [(d.val, 19), (a.val, 14), (b.val, 9), (t.code, 3), (pr.val, 0)])
  | .wmin d a b t pr => some (pack 0x52000100 [(d.val, 19), (a.val, 14), (b.val, 9), (t.code, 3), (pr.val, 0)])
  | .wmax d a b t pr => some (pack 0x52000120 [(d.val, 19), (a.val, 14), (b.val, 9), (t.code, 3), (pr.val, 0)])
  | .wscan d a b t pr => some (pack 0x52000140 [(d.val, 19), (a.val, 14), (b.val, 9), (t.code, 3), (pr.val, 0)])
  | .mshape d a => some (pack 0x53000000 [(d.val, 19), (a.val, 14)])
  | .mclaim d => some (pack 0x53000020 [(d.val, 19)])
  | .mzero n => some (pack 0x53000060 [(n.val, 19)])
  | .mgo n a b r => some (pack 0x53000080 [(n.val, 19), (a.val, 14), (b.val, 9), (bitNat r, 3)])
  | .msc a => some (pack 0x530000A0 [(a.val, 14)])
  | .mrd d n => some (pack 0x530000C0 [(d.val, 19), (n.val, 14)])
  | .mwr n a => some (pack 0x530000E0 [(n.val, 19), (a.val, 14)])
  | .rep n c s => some (pack 0x53000100 [(n.toNat, 19), (c.toNat, 14), (s.toNat, 9)])
  | .bxt d a b pr => some (pack 0x54000000 [(d.val, 19), (a.val, 14), (b.val, 9), (pr.val, 0)])
  | .trix d a b c pr => some (pack 0x54000020 [(d.val, 19), (a.val, 14), (b.val, 9), (c.code, 3), (pr.val, 0)])
  | .cdec d a b pr => some (pack 0x54000040 [(d.val, 19), (a.val, 14), (b.val, 9), (pr.val, 0)])
  | .rbase d a b pr => some (pack 0x54000060 [(d.val, 19), (a.val, 14), (b.val, 9), (pr.val, 0)])
  | .cov d a b c pr => some (pack 0x54000080 [(d.val, 19), (a.val, 14), (b.val, 9), (c.code, 3), (pr.val, 0)])
  | .hcmp d a b pr => some (pack 0x540000A0 [(d.val, 19), (a.val, 14), (b.val, 9), (pr.val, 0)])
  | .nopC => some (pack 0x00000000 [])
  | .ret => some (pack 0x06000020 [])
  | .fim => some (pack 0x07000020 [])
  | .cyield => some (pack 0x08000030 [])
  | .cexit => some (pack 0x08000040 [])
  | .ifence => some (pack 0x0E000010 [])
  | .xsync => some (pack 0x11000020 [])
  | .gbar => some (pack 0x11000030 [])
  | .nopA => some (pack 0x40000000 [])
  | .mrel => some (pack 0x53000040 [])
  | .repe => some (pack 0x53000120 [])
  | _ => none

/-- The instructions that are never one of the words of a pair (R36). -/
def loneOnly : Instr → Bool
  | .trap _ | .tret _ _ | .cexit | .reord _ _ => true
  | _ => false

/-- The 32-bit word of an instruction with the L bit given; a lone-only instruction always carries it. -/
def encode (lone : Bool) (i : Instr) : Option (BitVec 32) :=
  (encodeBody i).map fun n => BitVec.ofNat 32 (n + bitNat (lone || loneOnly i) * 2 ^ 31)

end Sys2Proof
end

