-- ==== Sys2Proof/Machine/Place.lean ====
section
/-! DEFINITION. Where a core of a launch stands, resident or saved: save slots, the core state page, and changes of a core
or a bed wherever it is (R320, R329 to R332). -/

namespace Sys2Proof.Machine

/-! ### Resident and saved cores (R320, R332) -/

/-- A core of a launch that has started and is neither saved nor freed. -/
def RunState.up : RunState → Bool
  | .running => true
  | .halting => true
  | .halted => true
  | .stopped => true
  | _ => false

/-- The key of a saved core. -/
def savedKey (l c : Nat) : Nat := l * 2 ^ 16 + c

/-- A core of a launch is resident; is saved. -/
def State.live (s : State) (l c : Nat) : Bool := decide ((s.core c).launch = l) && (s.core c).run.up
def State.isSaved (s : State) (l c : Nat) : Bool := s.saved.any fun x => decide (x.1 = savedKey l c)

/-- The core as it is now, resident or saved. -/
def State.coreOf (s : State) (l c : Nat) : Core :=
  if s.live l c then s.core c else assoc Core.reset (savedKey l c) s.saved

/-- Traffic for a core of a launch is accepted (R320). -/
def State.accepts (s : State) (l c : Nat) : Bool := s.live l c || s.isSaved l c

/-! ### Save slots (R329) -/

/-- The base of the save pool. -/
def State.poolBase (s : State) : Nat := (s.hostRegs.spbase.extractLsb' 18 34).toNat * 2 ^ 18

/-- The slot of a saved core: its group's first slot and its place among the group's cores. -/
def State.slotOf (s : State) (l c : Nat) : Option Nat :=
  if s.isSaved l c then
    let g := (s.coreOf l c).group
    match s.saves.find? fun x => decide (x.1 = g) with
    | some (_, first) => ((s.group g).cores.idxOf? c).map fun i => s.poolBase + 2 ^ 18 * (first + i)
    | none => none
  else none

/-- The key of byte 0 of the ULM of a core of a launch: its own, or its slot's (R320, R332). -/
def State.ulmBase (s : State) (l c : Nat) : Option Nat := if s.live l c then some (ulmKey c 0) else s.slotOf l c

/-- The state page of a saved core (R331). -/
def State.pageOf (s : State) (l c : Nat) : Option Nat := (s.slotOf l c).map fun a => a + 0x2B000

/-! ### Changes (R331, R332) -/

/-- What changes of a saved core is changed on its state page too: KBRINE, KERR and KLATENT, and the indexes of the rings of
q0, q2 and q3 (R331, R332). -/
def State.keepPage (s : State) (l c : Nat) : State :=
  match s.pageOf l c with
  | none => s
  | some a =>
    let k := s.coreOf l c
    let words (at_ : Nat) (s : State) (ws : List Word) : State :=
      s.storeBytes (a + at_) (ws.flatMap fun w => natBytes w.toNat 8)
    words 0x2A0 (words 0x280 (words 0x38 s [k.kbrine, k.kerr, k.klatent.setWidth 64]) [k.ovIdx[0], k.ovIdx[1]])
      [k.ovIdx[4], k.ovIdx[5], k.ovIdx[6], k.ovIdx[7]]

/-- A core of a launch changed where it is; one that is nowhere is left alone. -/
def State.modCoreOf (s : State) (l c : Nat) (f : Core → Core) : State :=
  if s.live l c then s.modCore c f
  else if s.isSaved l c then
    { s with saved := assocSet (savedKey l c) (f (s.coreOf l c)) s.saved }.keepPage l c
  else s

/-- The hit sorter of a bed for a launch, resident or saved, and a change of it; the ring indexes of a saved one stand on the
state page (R331, R332). -/
def State.bedFor (s : State) (l b : Nat) : Bed :=
  if s.live l (8 * b) then s.bed b else assoc {} (savedKey l b) s.savedBeds
def State.modBedFor (s : State) (l b : Nat) (f : Bed → Bed) : State :=
  if s.live l (8 * b) then s.modBed b f
  else
    let bed := f (s.bedFor l b)
    let s : State := { s with savedBeds := assocSet (savedKey l b) bed s.savedBeds }
    match s.pageOf l (8 * b) with
    | some a => s.storeBytes (a + 0x290) (natBytes bed.ovIdx[0].toNat 8 ++ natBytes bed.ovIdx[1].toNat 8)
    | none => s

end Sys2Proof.Machine
end

