-- ==== Sys2Proof/Machine/Brine.lean ====
section
/-! DEFINITION. Brine: recording entries, and taking recorded entries in a replay (R436 to R440). -/

namespace Sys2Proof.Machine

/-- The Brine level of a core, and whether it replays (R437). -/
def Core.brineLevel (k : Core) : Nat := (k.kbrine.extractLsb' 0 2).toNat
def Core.brineReplay (k : Core) : Bool := bitOf k.kbrine 2

/-- KBRINE.COUNT goes up by one, saturating (R437). -/
def Core.brineCount (k : Core) : Core :=
  let n := (k.kbrine.extractLsb' 32 32).toNat
  { k with kbrine := setElem 32 1 k.kbrine (BitVec.ofNat 32 (min (2 ^ 32 - 1) (n + 1))) }

/-- The serial of a launch (R438). -/
def State.launchSerial (s : State) (l : Nat) : Nat := ((s.launch? l).map Launch.serial).getD 0

/-- An entry of 32 bytes (R438). -/
def brineBytes (ty ctx core mark serial : Nat) (v1 v2 : Word) : List Byte :=
  natBytes ty 1 ++ natBytes ctx 1 ++ natBytes core 2 ++ natBytes mark 1 ++ natBytes 0 3 ++ natBytes serial 8 ++
  natBytes v1.toNat 8 ++ natBytes v2.toNat 8

/-- An entry written at BRTAIL, or lost where the ring is full (R439), of a core of a launch. -/
def State.brineWrite (s : State) (l core : Nat) (bytes : List Byte) : State :=
  let m := s.mgmt
  match ringSlot m.brbase 24 m.brtail m.brhead 32 with
  | some a => { s.storeClean a bytes with mgmt.brtail := m.brtail + 1 }
  | none =>
    let s := if core = 0xFFFF then s else s.modCoreOf l core fun k => { k with kbrine := withBit k.kbrine 3 true }
    { s with mgmt.brlost := true }.errRecord 14 0 core 0 0

/-- The ring has a slot for the next entry (R439). -/
def State.brineRoom (s : State) : Bool := (ringSlot s.mgmt.brbase 24 s.mgmt.brtail s.mgmt.brhead 32).isSome

/-- An event of a core of a launch recorded at its level, wherever the core is; COUNT counts the entries that are written
(R436, R437, R439). -/
def State.brineRecord (s : State) (level l core ctx ty : Nat) (v1 v2 : Word) : State :=
  let k := s.coreOf l core
  if k.brineLevel < level ∨ k.brineReplay then s
  else
    (if s.brineRoom then s.modCoreOf l core Core.brineCount else s).brineWrite l core
      (brineBytes ty ctx core (k.kbrine.extractLsb' 8 8).toNat (s.launchSerial l) v1 v2)

/-- The next recorded entry of a replay: type, context, core, values; none where the ring is empty (R440). -/
def State.brineHead (s : State) : Option (Nat × Nat × Nat × Word × Word) :=
  let m := s.mgmt
  let log := (m.brbase.extractLsb' 0 5).toNat
  if m.brtail = m.brhead ∨ log < 4 ∨ 24 < log then none
  else
    let a := (m.brbase.extractLsb' 12 40).toNat * 4096 + 32 * (m.brhead.toNat % 2 ^ log)
    some (s.loadNat a 1, s.loadNat (a + 1) 1, s.loadNat (a + 2) 2, BitVec.ofNat 64 (s.loadNat (a + 16) 8),
      BitVec.ofNat 64 (s.loadNat (a + 24) 8))

/-- The launch serial of the next entry (R438). -/
def State.brineSerial (s : State) : Nat :=
  let m := s.mgmt
  s.loadNat ((m.brbase.extractLsb' 12 40).toNat * 4096 + 32 * (m.brhead.toNat % 2 ^ (m.brbase.extractLsb' 0 5).toNat) + 8) 8

/-- The head entry consumed, by a core of a launch. -/
def State.brineTake (s : State) (l core : Nat) : State :=
  let s := if core = 0xFFFF then s else s.modCoreOf l core Core.brineCount
  { s with mgmt.brhead := s.mgmt.brhead + 1 }

/-- The head entry, when it is of this type, core and context. -/
def State.brineMatch (s : State) (ty core ctx : Nat) : Option (Word × Word) :=
  match s.brineHead with
  | some (t, x, c, v1, v2) => if t = ty ∧ c = core ∧ x = ctx then some (v1, v2) else none
  | none => none

/-- The head entry, when it is of this launch, type, core and context (R438, R440). -/
def State.brineNext (s : State) (l ty core ctx : Nat) : Option (Word × Word) :=
  if s.brineSerial = s.launchSerial l then s.brineMatch ty core ctx else none

/-- Who makes an event: package, core and context (R438). -/
structure Sender where
  pkg : Nat
  core : Nat
  ctx : Nat
  deriving DecidableEq, Repr

/-- The next sequence number of a source toward a destination, packed with the source as VALUE2 of an entry (R438;
the packing is the model's, log 15). -/
def State.brineSource (s : State) (dst : Nat) (w : Sender) : Word × State :=
  let key := (dst * 2 ^ 10 + w.pkg) * 2 ^ 20 + w.core * 16 + w.ctx
  let n := assoc 0 key s.seqs
  (BitVec.ofNat 64 (w.pkg * 2 ^ 48 + w.core * 2 ^ 32 + w.ctx * 2 ^ 28 + n % 2 ^ 28),
   { s with seqs := assocSet key (n + 1) s.seqs })

/-- An arrival, atomic or hit record at a core of a launch under level 2: recorded; in a replay it goes on only when it is the
next recorded event there, and is held otherwise (R436, R440). -/
def State.brineFrom (s : State) (ty l dst : Nat) (w : Sender) (what : Word) : Option State :=
  let k := s.coreOf l dst
  if k.brineLevel < 2 then some s
  else
    let (v2, s') := s.brineSource dst w
    if k.brineReplay then
      match s.brineNext l ty dst w.ctx with
      | some (_, w2) => if w2 = v2 then some (s'.brineTake l dst) else none
      | none => none
    else some (s'.brineRecord 2 l dst w.ctx ty what v2)

/-- A context of this package as the source of an event. -/
def State.sender (s : State) (core ctx : Nat) : Sender := { pkg := s.mgmt.pkgnum.toNat, core := core, ctx := ctx }

/-- Such an event whose source is of this package. -/
def State.brineOrder (s : State) (ty l dst src ctx : Nat) (what : Word) : Option State :=
  s.brineFrom ty l dst (s.sender src ctx) what

/-- A replay that does not go as it was recorded ends the launch: KADDR is the ring index (R440). -/
def State.diverge (s : State) (l : Nat) : State :=
  { s with mgmt.diverged := true }.post .launchEnd
    { launch := l, info := ⟨Cause.launchbad, 0xFFFF, 0, 0, 0, BitVec.ofNat 64 s.mgmt.brhead.toNat⟩ }

/-! ### Engines (R436, R438, R440) -/

/-- The Brine level of a launch. -/
def State.levelOf (s : State) (l : Nat) : Nat := ((s.launch? l).map Launch.brine).getD 0

/-- The next recorded entry of an engine of this type about this thing, for a launch. -/
def State.brineEngine (s : State) (l ty : Nat) (what : Word) : Option Word :=
  (s.brineNext l ty 0xFFFF 0).bind fun v => if v.1 = what then some v.2 else none

/-- An answer or a choice of an engine under level 1: recorded, or taken from the record; none while the entry has not
arrived (R436, R440). -/
def State.brineAnswer (s : State) (l ty : Nat) (what answer : Word) : Option (Word × State) :=
  if s.levelOf l < 1 then some (answer, s)
  else if s.mgmt.replay then (s.brineEngine l ty what).map fun v => (v, s.brineTake l 0xFFFF)
  else some (answer, s.brineWrite l 0xFFFF (brineBytes ty 0 0xFFFF 0 (s.launchSerial l) what answer))

/-- An `rdc` update of a sector under level 2: recorded, or held until it is the next recorded one (R436, R440). -/
def State.brineUpdate (s : State) (l sector src ctx : Nat) : Option State :=
  if s.levelOf l < 2 then some s
  else
    let (v2, s') := s.brineSource (2 ^ 40 + sector) (s.sender src ctx)
    let what : Word := BitVec.ofNat 64 (32 * sector)
    if s.mgmt.replay then
      (s.brineEngine l 11 what).bind fun w => if w = v2 then some (s'.brineTake l 0xFFFF) else none
    else some (s'.brineWrite l 0xFFFF (brineBytes 11 0 0xFFFF 0 (s.launchSerial l) what v2))

end Sys2Proof.Machine
end

