-- ==== Sys2Proof/Machine/Local.lean ====
section
/-! DEFINITION. Local accesses: the segment check, the range scoreboard and parking (R28, R147, R149, R163,
R212 to R214). -/

namespace Sys2Proof.Machine

/-- What the checks of a local access answer: it may be made, it faults with a cause and an address, or a copy
holds it. -/
inductive Check where
  | ok
  | bad (c : Cause) (addr : Word)
  | wait
  deriving DecidableEq, Repr

/-- `n` bytes at `a` overlap a range. -/
def Range.meets (r : Range) (a n : Nat) : Bool := decide (a < r.hi) && decide (r.lo < a + n)
def rangeMeets (r : Option Range) (a n : Nat) : Bool := (r.map fun r => r.meets a n).getD false

/-- The smallest range that holds both. -/
def Range.union (a b : Range) : Range := { lo := min a.lo b.lo, hi := max a.hi b.hi }
def rangeUnion (a : Option Range) (b : Option Range) : Option Range :=
  match a, b with
  | some a, some b => some (a.union b)
  | some a, none => some a
  | none, b => b

/-- The range scoreboard of a core for `n` bytes at `a` (R163): a failed range, a parked destination, an
outstanding destination, or, for a store, an outstanding source. -/
def Core.scoreboard (k : Core) (a n : Nat) (store : Bool) : Check :=
  let tags := k.tags.toList
  if tags.any fun t => t.failed.any fun r => r.meets a n then .bad Cause.pageinv (BitVec.ofNat 64 a)
  else match (tags.flatMap Tag.parked).find? fun p => p.1.meets a n with
    | some p => .bad Cause.pagewait (BitVec.ofNat 64 p.2)
    | none =>
      if tags.any fun t => rangeMeets t.dst a n || (store && rangeMeets t.src a n) then .wait else .ok

/-- Bytes a window access touches. -/
def WinOp.bytes : WinOp → Nat
  | .ld n => n
  | .st n => n
  | .vld _ => 32
  | .vst _ => 32
  | .atom _ w => if w = .w then 4 else 8
  | .mwait => 8
  | .probe => 0

/-- An earlier window access of the issuing context to these bytes of core `t` is still to be performed (R230). -/
def State.windowMeets (s : State) (t a n : Nat) : Bool :=
  s.here.win.any fun e =>
    decide (e.ctx = s.cur.ctx) && e.resp.isNone && !s.remote e.va && decide (winCore e.va = t) &&
    (Range.meets { lo := winOff e.va, hi := winOff e.va + e.op.bytes } a n)

/-- An earlier window access of the issuing context to these bytes of its own core, or an acquire of it, is still to
be performed (R230, R235). -/
def State.windowHeld (s : State) (a n : Nat) : Bool := s.acquiring || s.windowMeets s.cur.core a n

/-- A copy that a context of core `c` issued before `id` is still to land in these bytes of its own ULM, or, against a
write, to read them (R230). -/
def State.copyHeld (s : State) (c : Nat) (x : Fin 11) (id a n : Nat) (write : Bool) : Bool :=
  s.copies.any fun y => decide (y.core = c) && decide (y.ctx = x) && decide (y.id < id) &&
    (rangeMeets y.dstR a n || (write && rangeMeets y.srcR a n))

/-- A flit of the core that is still to be read holds a local store to its bytes (R246). -/
def State.flitHeld (s : State) (c a n : Nat) : Bool :=
  let g := s.group (s.core c).group
  (g.xsends.any fun x => decide (x.core = c) && (Range.meets { lo := x.soff + 32 * x.done, hi := x.soff + 32 * x.f } a n)) ||
  (g.contribs.any fun x => decide (x.core = c) && (Range.meets { lo := x.soff + 32 * x.done, hi := x.soff + 32 * x.f } a n))

/-- The port of a core is taken in this tick: a landing is written, or a sector of a gang's B is read (R49, R259, R263). -/
def State.portTaken (s : State) (c : Nat) : Bool :=
  let k := s.core c
  ((s.group k.group).uses.any fun u => decide (u.router = c) && decide (u.out = 5) && decide (u.tick + 1 = s.ticks)) ||
  decide ((k.arrival.bind Arrival.port) = some s.ticks)

/-- A copy that a context waits for is parked on a page, or lands since the page has come: the contexts that its ranges have
parked, or hold, go on once they are released (R213, R214). -/
def Core.parkedOn (k : Core) (vas : List Nat) : Bool :=
  k.tags.toList.any fun t => (t.parked ++ t.landing).any fun p => vas.contains p.2

/-- The checks of a local access of `n` bytes at `a`, in order (R149). -/
def Core.localCheck (k : Core) (super : Bool) (a n : Nat) (need : Perm) : Check :=
  match segCheck k.kseg super a n need with
  | some c => .bad c (BitVec.ofNat 64 a)
  | none => k.scoreboard a n need.w

/-- A context parks: the records of a trap are written, its mode and PC stay (R212). -/
def State.park (s : State) (t : TrapRec) (vas : List Nat) : State :=
  { s.modCx fun x => { x.record t with
      parked := true, pc := s.cur.p, waitVA := vas, block := none, reLanes := none, fbuf := [] } with cur.trapped := true }

/-- The outcome of a scalar access's checks: performed, held, parked or faulted (R149, R212, R214). -/
def State.access (s : State) (c : Check) (perform : State) : State :=
  match c with
  | .ok => perform
  | .wait => s.stall .other
  | .bad c a =>
    if c = Cause.pagewait then
      if s.src.mode then s.stall (.parkWait [a.toNat]) else s.park (s.faultRec c a) [a.toNat]
    else s.fault c a

/-- What else holds a local access that passes its checks: an earlier window access, a flit to be read, or the port, which
serves another in this tick (R49, R230, R246, R259). -/
def State.alsoHeld (s : State) (chk : Check) (a n : Nat) (write : Bool) : Check :=
  match chk with
  | .ok => if s.windowHeld a n || (write && s.flitHeld s.cur.core a n) || s.portTaken s.cur.core then .wait else .ok
  | c => c

/-- The checks of a local access of the issuing context, with what holds it (R149, R230, R246). -/
def State.localCheck (s : State) (a n : Nat) (need : Perm) : Check :=
  s.alsoHeld (s.here.localCheck s.src.mode a n need) a n need.w

/-- A scalar local access of `n` bytes at `a` by the issuing context. -/
def State.localAccess (s : State) (a n : Nat) (need : Perm) (perform : State) : State :=
  s.access (s.localCheck a n need) perform

/-- A context has accessed `size` bytes of its own ULM otherwise than by a local load: it no longer sees those from before
(R230). -/
def State.sawOwn (s : State) (n : Nat) (c : Fin 11) (a size : Nat) : State :=
  if (s.core n).past = [] then s else s.modCore n fun k => k.closePast c fun e => e.meets a size

/-- The key of a byte of the issuing core's ULM. -/
def State.hereKey (s : State) (a : Nat) : Nat := ulmKey s.cur.core a

/-- Stored bytes land in ULM of core `c`: a marked datum sets the sector's poison bit; a whole sector of unmarked
data clears it and counts in KLATENT (R149, R152, R430). -/
def State.landUlm (s : State) (c a : Nat) (bs : List Byte) (mark : Bool) : State :=
  let key := ulmKey c a
  let t := (s.storeBytes key bs).wrote key bs.length
  if mark then t.setPoison key
  else if bs.length = 32 ∧ a % 32 = 0 ∧ s.poisoned key then (t.clearPoison key).modCore c fun k => k.latent 1
  else t

/-! ### Lane-precise accesses (R150, R212, R214) -/

/-- A lane's check in order: a marked address, alignment, the segments, the scoreboard (R150). -/
def State.laneCheck (s : State) (bad : Bool) (a : Word) (n : Nat) (need : Perm) : Check :=
  if bad then .bad Cause.poison 0 else s.localCheck a.toNat n need

/-- The cause and address of a failed check. -/
def Check.fault? : Check → Option (Cause × Word)
  | .bad c a => some (c, a)
  | _ => none
def Check.passed : Check → Bool
  | .ok => true
  | _ => false
def Check.waits : Check → Bool
  | .wait => true
  | _ => false

/-- The record of lane faults: CODE and KADDR of the lowest lane with a cause other than PAGEWAIT, or else of the
lowest (R150, R212). -/
def State.laneRec (s : State) (chk : Nat → Check) (bad : List Nat) (done : Mask) : TrapRec :=
  let faults := bad.filterMap fun l => (chk l).fault?
  let first := ((faults.find? fun f => decide (f.1 ≠ Cause.pagewait)).orElse fun _ => faults.head?).getD (0, 0)
  { s.faultRec first.1 first.2 with
    lanep := true
    lflt := bad.foldl (fun m l => withBit m l true) 0
    lres := some done
    lf := some (Vector.ofFn fun i : Fin 4 => ((chk i.val).fault?.map fun f => klf f.1 f.2).getD 0 |> fun x =>
      if bad.contains i.val then x else 0) }

/-- A lane-precise instruction: every lane without a fault performs, KLRES names the lanes performed, and the faults
are taken together; a bundle whose every fault is PAGEWAIT parks (R150, R212, R214). -/
def State.lanewise (s : State) (lanes : Mask) (chk : Nat → Check) (perform : Mask → State) : State :=
  let ls := lanesOf lanes
  let bad := ls.filter fun l => (chk l).fault?.isSome
  let done : Mask := (ls.filter fun l => (chk l).passed).foldl (fun m l => withBit m l true) 0
  let onlyPark := bad.all fun l => decide ((chk l).fault?.map Prod.fst = some Cause.pagewait)
  if ls.any fun l => (chk l).waits then s.stall .other
  else
    let t := (perform done).modCx fun x => { x with k.lres := done.setWidth 64 }
    if bad = [] then t
    else
      let r := s.laneRec chk bad done
      let vas := bad.filterMap fun l => (chk l).fault?.map fun f => f.2.toNat
      if !onlyPark then t.trap r
      else if s.src.mode then s.stall (.parkWait vas)
      else t.park r vas

end Sys2Proof.Machine
end

