-- ==== Sys2Proof/Machine/KRegs.lean ====
section
/-! DEFINITION. The K-registers: which numbers there are, who may touch them, what they read and what a write
leaves (R20 to R27, R113, R432, R437). -/

namespace Sys2Proof.Machine

/-- A number of the table of R21. -/
def kAssigned (n : Nat) : Bool :=
  decide (n ≤ 0x17) || (decide (0x40 ≤ n) && decide (n ≤ 0x46)) || (decide (0x80 ≤ n) && decide (n ≤ 0x86))

/-- Readable by the supervisor alone (R21). -/
def kSuper (n : Nat) : Bool := decide (0x80 ≤ n)

/-- Per-context numbers a user may write (R21). -/
def kUserWrites (n : Nat) : Bool := [0x003, 0x00B, 0x00C, 0x00D, 0x00E].contains n

/-- The clock of a launch's pan: cycles since it started (R21, R317; log 3). -/
def State.kcycleOf (s : State) (l : Nat) : Word :=
  Config.cyclesOf s.ticks - Config.cyclesOf (((s.launch? l).bind Launch.startTick).getD 0)

/-- KCYCLE of a core: the clock of its pan (R21, R317). -/
def State.kcycle (s : State) (c : Nat) : Word := s.kcycleOf (s.core c).launch

/-- KCORE of a core (R3, R25). -/
def State.kcore (s : State) (c : Nat) : Word :=
  BitVec.ofNat 64 (s.mgmt.pkgnum.toNat * 2 ^ 32 + ((c / 256 / 64) * 2 + c % 256 / 128) * 2 ^ 16 + c)

/-- KXSLOT of a core's group (R174). -/
def State.kxslot (s : State) (c : Nat) : Nat := (s.group (s.core c).group).kxslot

/-- KMODE (R24). -/
def Context.kmode (x : Context) : Word :=
  ofBool 64 x.mode ||| (ofBool 64 x.pmode <<< 1) ||| (ofBool 64 x.sstep <<< 3)

/-- KRSD (R24). -/
def Context.krsd (x : Context) : Word := (x.f.spilled.setWidth 64 <<< 16) ||| x.f.depth.setWidth 64

/-- The value of a K-register of context `c` of core `n` (R21). -/
def State.kread (s : State) (n : Nat) (c : Fin 11) (k : Nat) : Word :=
  let x := s.ctx n c
  let e := s.core n
  match k with
  | 0x000 => x.k.cause
  | 0x001 => x.k.epc
  | 0x002 => x.k.addr
  | 0x003 => x.k.lres
  | 0x004 => x.k.lf[0]
  | 0x005 => x.k.lf[1]
  | 0x006 => x.k.lf[2]
  | 0x007 => x.k.lf[3]
  | 0x008 => x.f.kmask.setWidth 64
  | 0x009 => x.f.kmsd.setWidth 64
  | 0x00A => x.krsd
  | 0x00B => x.k.spill
  | 0x00C => x.k.utvec
  | 0x00D => x.k.fpc
  | 0x00E => x.k.seed
  | 0x00F => x.k.mshape
  | 0x010 => BitVec.ofNat 64 c.val
  | 0x011 => x.k.lane
  | 0x012 => x.k.wave
  | 0x013 => x.k.group
  | 0x014 => x.k.pan
  | 0x015 => x.k.launch
  | 0x016 => s.kcycle n
  | 0x017 => BitVec.ofNat 64 (s.kxslot n)
  | 0x040 => s.kcore n
  | 0x041 => e.kseg[0]
  | 0x042 => e.kseg[1]
  | 0x043 => e.kseg[2]
  | 0x044 => e.kseg[3]
  | 0x045 => e.kxph.setWidth 64
  | 0x046 => e.kwtmo.setWidth 64
  | 0x080 => e.kstvec
  | 0x081 => x.kmode
  | 0x082 => e.kbrine
  | 0x083 => e.kerr
  | 0x084 => x.k.sscr0
  | 0x085 => x.k.sscr1
  | 0x086 => e.klatent.setWidth 64
  | _ => 0

/-- The bits of KSEGn that hold a field (R27). -/
def ksegMask : Word := 0x00000FFFFFFDFFFF

/-- KFPC after a write: RM keeps its value for 5 to 7 (R24). -/
def kfpcWrite (old v : Word) : Word :=
  if 4 < (v.extractLsb' 0 3).toNat then (v &&& 0x1F30) ||| (old &&& 7) else v &&& 0x1F37

/-- KERR after a write: a 1 clears its bit, and any 1 in CECNT clears the count (R432). -/
def kerrWrite (old v : Word) : Word :=
  let low := old &&& ~~~(v &&& 0xFF)
  if v &&& 0x0000FFFF00000000 = 0 then low else low &&& ~~~0x0000FFFF00000000

/-- A context-scope K-register after a write (R22, R24, R84). -/
def Context.kwrite (x : Context) (k : Nat) (v : Word) : Context :=
  match k with
  | 0x000 => { x with k.cause := v &&& 0xCFFF }
  | 0x001 => { x with k.epc := v &&& 0x1FFFF }
  | 0x002 => { x with k.addr := v &&& 0x00FFFFFFFFFFFFFF }
  | 0x003 => { x with k.lres := v &&& 0xF }
  | 0x004 => { x with k.lf := x.k.lf.set 0 v }
  | 0x005 => { x with k.lf := x.k.lf.set 1 v }
  | 0x006 => { x with k.lf := x.k.lf.set 2 v }
  | 0x007 => { x with k.lf := x.k.lf.set 3 v }
  | 0x008 => if v &&& 0xF = 0 then x else { x with f.kmask := v.setWidth 4 }
  | 0x009 => { x with f.kmsd := BitVec.ofNat 6 (min 32 (v.extractLsb' 0 6).toNat) }
  | 0x00A => { x with f.spilled := v.extractLsb' 16 16, f.depth := BitVec.ofNat 4 (min 8 (v.extractLsb' 0 4).toNat) }
  | 0x00B => { x with k.spill := v &&& 0x1FFF8 }
  | 0x00C => { x with k.utvec := v &&& 0x1FFFC }
  | 0x00D => { x with k.fpc := kfpcWrite x.k.fpc v }
  | 0x00E => { x with k.seed := v }
  | 0x00F => { x with k.mshape := v &&& 0x8FFFFFFF }
  | 0x081 => { x with sstep := bitOf v 3, pmode := bitOf v 1 }
  | 0x084 => { x with k.sscr0 := v }
  | 0x085 => { x with k.sscr1 := v }
  | _ => x

/-- A core-scope K-register after a write by the supervisor (R21, R27, R432, R437). -/
def Core.kwrite (e : Core) (k : Nat) (v : Word) : Core :=
  match k with
  | 0x041 => { e with kseg := e.kseg.set 0 (v &&& ksegMask) }
  | 0x042 => { e with kseg := e.kseg.set 1 (v &&& ksegMask) }
  | 0x043 => { e with kseg := e.kseg.set 2 (v &&& ksegMask) }
  | 0x044 => { e with kseg := e.kseg.set 3 (v &&& ksegMask) }
  | 0x046 => { e with kwtmo := v.setWidth 16 }
  | 0x080 => { e with kstvec := v &&& 0xFFC }
  | 0x082 => { e with kbrine := (e.kbrine &&& ~~~0xFF00) ||| (v &&& 0xFF00) }
  | 0x083 => { e with kerr := kerrWrite e.kerr v }
  | 0x086 => { e with klatent := if v &&& 0xFFFFFFFF = 0 then e.klatent else 0 }
  | _ => e

/-- A read-only number keeps its value and its mark under a write (R9, R21). -/
def kReadOnly (k : Nat) : Bool := (decide (0x10 ≤ k) && decide (k ≤ 0x17)) || decide (k = 0x40) || decide (k = 0x45)

/-- A K-register written by the issuing context; the write clears its mark (R85, R430). -/
def State.kwrite (s : State) (k : Nat) (v : Word) : State :=
  if kReadOnly k then s
  else if kPerCore k then
    s.modHere fun e => ({ e.kwrite k v with kMark := withBit e.kMark k false }).latent (if bitOf e.kMark k then 1 else 0)
  else
    s.modHere fun e =>
      (e.modCtx s.cur.ctx fun x => { x.kwrite k v with k.mark := withBit (x.kwrite k v).k.mark k false }).latent
        (if bitOf e.ctxs[s.cur.ctx].k.mark k then 1 else 0)

/-- Flags of earlier instructions of the context are still to come: SFU results, and for the claim holder a
matrix operation (R113). -/
def State.flagsDue (s : State) : Bool :=
  (s.here.sfu.any fun i => decide (i.ctx = s.cur.ctx)) ||
  (match s.here.matOp with
   | some m => decide (m.ctx = s.cur.ctx)
   | none => false)

/-- A K-register access: ILLOP for an unassigned number, then the privilege checks, then the wait for flags
(R20, R21, R113). -/
def State.kAccess (s : State) (k : BitVec 14) (write : Bool) (body : Nat → State) : Result :=
  let n := k.toNat
  .next <|
    if !kAssigned n then s.faultOpen Cause.illop
    else if !s.src.mode && (kSuper n || (write && !kPerCore n && !kUserWrites n)) then s.faultOpen Cause.priv
    else if n = 0x00D ∧ s.flagsDue then s.stall .other
    else body n

/-- The value an access reads; a KCYCLE read under Brine level 1 is recorded, or comes from the record (R21, R436,
R440). None while the recorded entry has not arrived. -/
def State.kval (s : State) (n : Nat) : Option (Word × State) :=
  let v := s.kread s.cur.core s.cur.ctx n
  let e := s.here
  if n = 0x016 ∧ 1 ≤ e.brineLevel then
    if e.brineReplay then (s.brineNext e.launch 3 s.cur.core s.cur.ctx).map fun r => (r.1, s.brineTake e.launch s.cur.core)
    else some (v, s.brineRecord 1 e.launch s.cur.core s.cur.ctx 3 v 0)
  else some (v, s)

/-- gD := K (R113). -/
def execKget (d : Fin 32) (k : BitVec 14) (s : State) : Result :=
  s.kAccess k false fun n =>
    if s.kBad n then s.faultPoison
    else match s.kval n with
      | some (v, t) => t.setG d v
      | none => s.stall .other

/-- Bundles from `p` on that a context of core `n` may hold in its fetch buffer, at most `i`: those it holds, and those that
the segments now let it fetch (R28, R225). -/
def State.readAhead (s : State) (n : Nat) (super : Bool) (buf : List (Off × Nat × Nat)) : Nat → Off → List (Off × Nat × Nat)
  | 0, _ => []
  | i + 1, p =>
    let b : Off × Nat × Nat := (p, s.loadNat (ulmKey n p.toNat) 4, s.loadNat (ulmKey n (p + 4).toNat) 4)
    let size := if isLone b.2.1 then 4 else 8
    if buf.contains b || (segCheck (s.core n).kseg super p.toNat size { x := true }).isNone then
      b :: s.readAhead n super buf i (p + BitVec.ofNat 17 size)
    else []

/-- Before a KSEGn changes, every context of the core has read ahead as far as it has: a free number of bundles, at most four
and no fewer than it held (R29, R225; DESIGN CHOICE, log 9). They issue unchecked after the change. -/
def State.keepFetched (s : State) : State :=
  let n := s.cur.core
  ((List.range 11).map (Fin.ofNat 11)).foldl (fun s c =>
    if (s.ctx n c).live then
      let (k, s) := s.freeNat
      s.modCtx n c fun x => { x with fbuf := s.readAhead n x.mode x.fbuf (max x.fbuf.length (k % 5)) x.pc }
    else s) s

/-- A write of a K-register in the mode of the context: a user's write of a per-core number is ignored (R113). A write of
KSEGn leaves what the fetch buffers hold (R29). -/
def State.kwriteAs (s : State) (n : Nat) (v : Word) : State :=
  if !s.src.mode && kPerCore n then s
  else
    let s := if 0x41 ≤ n ∧ n ≤ 0x44 then s.keepFetched else s
    { s.kwrite n v with cur.seedSet := s.cur.seedSet || decide (n = 0x00E) }

/-- K := gS (R113). -/
def execKset (g : Fin 32) (k : BitVec 14) (s : State) : Result :=
  s.kAccess k true fun n => if s.src.gBad g then s.faultPoison else s.kwriteAs n (s.g g)

/-- gS and K exchanged as one step (R113). -/
def execKswp (g : Fin 32) (k : BitVec 14) (s : State) : Result :=
  s.kAccess k true fun n =>
    if s.src.gBad g || s.kBad n then s.faultPoison
    else match s.kval n with
      | some (v, t) => (t.kwriteAs n (s.g g)).setG g v
      | none => s.stall .other

end Sys2Proof.Machine
end

