-- ==== Sys2Proof/Machine/Image.lean ====
section
/-! DEFINITION. The context image of 4,096 bytes: building it, checking it, installing it (R31, R114, R115, R330). -/

namespace Sys2Proof.Machine

/-- A 256-bit register as bytes, and bytes as one. -/
def vBytes (x : VReg) : List Byte := natBytes x.toNat 32
def wordBytes8 (x : Word) : List Byte := natBytes x.toNat 8

/-- A value of `n` bytes at an offset of a byte list. -/
def getN (bs : List Byte) (off n : Nat) : Nat := leNat ((bs.drop off).take n)
def getWord (bs : List Byte) (off : Nat) : Word := BitVec.ofNat 64 (getN bs off 8)

def MaskKind.code : MaskKind → Nat
  | .ifKind => 0
  | .loopKind => 1
  | .repeatKind => 2
def MaskKind.ofCode : Nat → MaskKind
  | 0 => .ifKind
  | 1 => .loopKind
  | _ => .repeatKind

/-- A mask-stack entry in an image: mask [3:0], kind [5:4], resume [22:6] (R330). -/
def MaskEntry.word (e : MaskEntry) : Nat := e.mask.toNat + e.kind.code * 16 + e.resume.toNat * 64

/-- The context holds the claim, owns the repetition buffer, has an MDESYNC report pending. -/
def Core.holds (k : Core) (c : Fin 11) : Bool := decide (k.claim = some c)
def Core.ownsRep (k : Core) (c : Fin 11) : Bool := (k.rep.map fun r => decide (r.owner = c)).getD false

/-- STATE of an image (R330). -/
def Core.stateWord (k : Core) (c : Fin 11) (live : Bool) : Nat :=
  let x := k.ctxs[c]
  bitNat live + 2 * bitNat (live && x.parked) + 4 * bitNat (live && !x.reports.isEmpty) +
  8 * bitNat (live && k.holds c) + 16 * bitNat (live && k.ownsRep c) +
  32 * bitNat (live && k.holds c && k.desync.isSome) + 64 * bitNat (live && x.aword)

/-- The refusal field: the oldest undelivered report, and the count of the others (R114, R330). -/
def refusalBytes : List Report → List Byte
  | [] => natBytes 0 16
  | r :: rest => natBytes (r.va.toNat % 2 ^ 56) 8 ++ natBytes r.cause.toNat 1 ++ natBytes (min 255 rest.length) 1 ++
      natBytes 0 2 ++ natBytes r.off.toNat 4

/-- The repetition buffer of an image; while words are captured, the next word is the one captured next (R330). -/
def Rep.bytes (r : Rep) : List Byte :=
  ((r.words ++ List.replicate 16 (0 : BitVec 32)).take 16).flatMap (fun w => natBytes w.toNat 4) ++
  natBytes ((r.n - 1) % 16 + r.stride.toNat * 2 ^ 4 + (r.count - 1) % 32 * 2 ^ 9 + (if r.ended then 0 else r.iter) % 32 * 2 ^ 14 +
    (if r.capturing then r.words.length else r.next) % 16 * 2 ^ 19 + bitNat r.capturing * 2 ^ 23 + bitNat r.ended * 2 ^ 24) 8 ++
  natBytes 0 56 ++ ((r.offs ++ List.replicate 16 (0 : Off)).take 16).flatMap (fun o => natBytes o.toNat 4)

/-- The matrix part of an image (R330). -/
def Core.matBytes (k : Core) : List Byte :=
  k.acc.toList.flatMap vBytes ++ vBytes k.accMark ++
  ((k.fifo ++ List.replicate 8 (0 : VReg)).take 8).flatMap vBytes ++ natBytes (min 8 k.fifo.length) 8

/-- The image of context `c` of core `n` (R330). `live` is what STATE.LIVE says. -/
def State.image (s : State) (n : Nat) (c : Fin 11) (live : Bool) : List Byte :=
  let k := s.core n
  let x := k.ctxs[c]
  ((List.range 32).flatMap fun i => wordBytes8 (x.g (Fin.ofNat 32 i))) ++
  x.r.v.toList.flatMap vBytes ++
  ((List.range 8).flatMap fun i => natBytes (x.p (Fin.ofNat 8 i)).toNat 1) ++
  natBytes x.r.gMark.toNat 4 ++ natBytes x.r.pMark.toNat 1 ++ natBytes 0 3 ++ natBytes x.r.vMark.toNat 16 ++
  natBytes x.pc.toNat 8 ++ natBytes (k.stateWord c live) 8 ++
  refusalBytes (if live then x.reports else []) ++
  ((List.range 0x18).flatMap fun i => wordBytes8 (s.kread n c i)) ++
  wordBytes8 x.kmode ++ wordBytes8 x.k.sscr0 ++ wordBytes8 x.k.sscr1 ++ natBytes 0 8 ++
  x.f.stack.toList.flatMap (fun e => natBytes e.word 8) ++ x.f.ret.toList.flatMap (fun o => natBytes o.toNat 8) ++
  natBytes 0 160 ++
  (if live && k.holds c then k.matBytes else natBytes 0 0x528) ++
  natBytes (if live && k.holds c then (k.desync.map BitVec.toNat).getD 0 else 0) 16 ++ natBytes 0 8 ++
  (match k.rep with
   | some r => if live && decide (r.owner = c) then r.bytes else natBytes 0 0xC0
   | none => natBytes 0 0xC0) ++
  natBytes 0 512

/-- Every byte of a part of an image is zero. -/
def zeroAt (bs : List Byte) (off n : Nat) : Bool := decide (getN bs off n = 0)

/-- An image that cannot be installed: a reserved field of its layout that is not zero, or a field out of its range
(R10, R115, R330). A REFUSE = 1 with a cause byte that R5 never produces is not among them: the report is installed as it
stands (DESIGN CHOICE, log 70). -/
def imageBad (bs : List Byte) : Bool :=
  let st := getN bs 0x528 8
  !zeroAt bs 0x50D 3 || decide (2 ^ 17 ≤ getN bs 0x520 8) || decide (2 ^ 7 ≤ st) || !zeroAt bs 0x53A 2 ||
  decide (2 ^ 17 ≤ getN bs 0x53C 4) || !zeroAt bs 0x618 8 ||
  ((List.range 32).any fun i =>
    let e := getN bs (0x620 + 8 * i) 8
    decide (2 ^ 23 ≤ e) || decide (e / 16 % 4 = 3)) ||
  ((List.range 8).any fun i => decide (2 ^ 17 ≤ getN bs (0x720 + 8 * i) 8)) ||
  !zeroAt bs 0x760 160 || !zeroAt bs 0xD30 16 || !zeroAt bs 0xD88 56 || !zeroAt bs 0xE00 512 ||
  decide (2 ^ 25 ≤ getN bs 0xD80 8) || decide (16 ≤ getN bs 0xD20 8) || decide (2 ^ 17 ≤ getN bs 0xD28 8) ||
  ((List.range 8).any fun i => decide (16 ≤ getN bs (0x500 + i) 1)) ||
  ((List.range 16).any fun i => decide (2 ^ 17 ≤ getN bs (0xDC0 + 4 * i) 4)) ||
  decide (32 < getN bs (0x540 + 8 * 9) 1 % 64) || decide (8 < getN bs (0x540 + 8 * 10) 1 % 16) ||
  (decide (st % 2 = 0) && decide (st ≠ 0))

/-- The image carries matrix state. -/
def imageMat (bs : List Byte) : Bool := (getN bs 0x528 8).testBit 3

/-- The repetition buffer an image carries. A trap record in the image leaves it suspended, that of a
parking does not (log 16). -/
def imageRep (bs : List Byte) (c : Fin 11) : Rep :=
  let w := getN bs 0xD80 8
  let n := w % 16 + 1
  let m := if w.testBit 23 then w / 2 ^ 19 % 16 else n
  { owner := c, words := (List.range m).map fun i => BitVec.ofNat 32 (getN bs (0xD40 + 4 * i) 4),
    offs := (List.range m).map fun i => BitVec.ofNat 17 (getN bs (0xDC0 + 4 * i) 4),
    n := n, stride := BitVec.ofNat 5 (w / 16), count := w / 2 ^ 9 % 32 + 1, iter := w / 2 ^ 14 % 32,
    next := if w.testBit 23 then 0 else w / 2 ^ 19 % 16,
    capturing := w.testBit 23, suspended := if getN bs 0x540 1 = 0 ∨ (getN bs 0x528 8).testBit 1 then 0 else 1, ended := w.testBit 24 }

/-- The context an image holds (R115, R330). KCTX, KCYCLE and KXSLOT are not taken from it; reserved bits of K-registers stay
zero (R10; log 65). -/
def imageContext (bs : List Byte) (old : Context) : Context :=
  let st := getN bs 0x528 8
  let live := st.testBit 0
  let base : Context :=
    { r :=
        { g := Vector.ofFn fun i : Fin 32 => getWord bs (8 * i.val),
          v := Vector.ofFn fun i : Fin 32 => BitVec.ofNat 256 (getN bs (0x100 + 32 * i.val) 32),
          p := Vector.ofFn fun i : Fin 8 => BitVec.ofNat 4 (getN bs (0x500 + i.val) 1),
          gMark := BitVec.ofNat 32 (getN bs 0x508 4) &&& ~~~1, vMark := BitVec.ofNat 128 (getN bs 0x510 16),
          pMark := BitVec.ofNat 8 (getN bs 0x50C 1) &&& ~~~1 },
      f :=
        { kmask := old.f.kmask
          stack := Vector.ofFn fun i : Fin 32 =>
            let e := getN bs (0x620 + 8 * i.val) 8
            { mask := BitVec.ofNat 4 e, kind := MaskKind.ofCode (e / 16 % 4), resume := BitVec.ofNat 17 (e / 64) }
          ret := Vector.ofFn fun i : Fin 8 => BitVec.ofNat 17 (getN bs (0x720 + 8 * i.val) 8) },
      pc := BitVec.ofNat 17 (getN bs 0x520 8) &&& 0x1FFFC, mode := (getN bs 0x600 1).testBit 0,
      live := live, susp := false, parked := live && st.testBit 1, aword := live && st.testBit 6,
      hold := 0x3F,
      waitVA := if st.testBit 1 then [getN bs (0x540 + 16) 8] else [],
      reports := if live && st.testBit 2 then
          [⟨BitVec.ofNat 8 (getN bs 0x538 1), getWord bs 0x530, BitVec.ofNat 17 (getN bs 0x53C 4), .none⟩] else [] }
  let k := (List.range 0x10).foldl (fun (x : Context) i => x.kwrite i (getWord bs (0x540 + 8 * i))) base
  let k := { k with k.lane := getWord bs 0x5C8 &&& 0xFFFFFFFF, k.wave := getWord bs 0x5D0 &&& 0x8000FFFF,
                    k.group := getWord bs 0x5D8 &&& 0xFFFFFFFF, k.pan := getWord bs 0x5E0 &&& 0xFFFFFFFF,
                    k.launch := getWord bs 0x5E8 &&& 0x00FFFFFFFFFFFFFF }
  ((k.kwrite 0x081 (getWord bs 0x600)).kwrite 0x084 (getWord bs 0x608)).kwrite 0x085 (getWord bs 0x610)

/-- The image installed into context `c`, with the matrix state and the repetition buffer it carries (R115). -/
def Core.install (k : Core) (c : Fin 11) (bs : List Byte) : Core :=
  let st := getN bs 0x528 8
  let k := (k.modCtx c fun x => imageContext bs x).closePast c fun _ => true
  let k := if st.testBit 3 then
      { k with claim := some c,
               acc := Vector.ofFn fun i : Fin 32 => BitVec.ofNat 256 (getN bs (0x800 + 32 * i.val) 32),
               accMark := BitVec.ofNat 256 (getN bs 0xC00 32),
               fifo := (List.range (min 8 (getN bs 0xD20 1 % 16))).map fun i =>
                 BitVec.ofNat 256 (getN bs (0xC20 + 32 * i) 32),
               fifoBad := List.replicate (min 8 (getN bs 0xD20 1 % 16)) false, latch := none, scaleBad := false,
               desync := if st.testBit 5 then some (BitVec.ofNat 17 (getN bs 0xD28 8)) else none }
    else k
  if st.testBit 4 then { k with rep := some (imageRep bs c) } else k

/-- A bundle that a `tret`, or the end of a parking, has still to issue in some lanes has not issued: the context is back
at the `tret`, or parked (R112, R213; DESIGN CHOICE, log 13). -/
def Context.undo (x : Context) : Context :=
  match x.reLanes with
  | some r => { x with k.cause := r.cause, pc := r.pc, mode := r.mode, parked := r.parked, reLanes := none }
  | none => x

/-- The wait of the context's instruction has ended with something that is for it alone, and the instruction is to issue (R107,
R108, R176, R457). A `cwait` or `qwait` whose wait has ended is withdrawn like one that waits, and looks again after the restore
(R118; log 26). -/
def Core.midIssue (k : Core) (c : Fin 11) : Bool :=
  (k.ctxs[c].wake.elim false fun w => decide (w ≠ .released)) || (decide (c = 0) && k.barEnd.isSome)

/-- Every context stands between two instructions. -/
def Core.atBoundary (k : Core) : Bool :=
  decide (k.run = .stopped) || ((List.range 11).all fun i => !k.midIssue (Fin.ofNat 11 i))

/-- The word and bound of a `mwait.swap` that a context waits in (R158, R319). -/
def Context.offers (x : Context) : Option (Word × Word) :=
  match x.block.map Block.kind with
  | some (.mwait true va bound) => some (va, bound)
  | _ => none

/-- The other contexts stop waiting for context `c` in `cyield` (R104). -/
def Core.unyield (k : Core) (c : Fin 11) : Core :=
  { k with ctxs := k.ctxs.map fun x => { x with yieldFor := withBit x.yieldFor c.val false } }

/-- The waiting instruction of a context is withdrawn: it has not issued, and issues again after a restore (R114,
R117, R118, R139, R207). -/
def Core.withdraw (k : Core) (c : Fin 11) : Core :=
  let undone := (k.ctxs[c].reLanes.map fun r => !r.parked).getD false
  let k := k.modCtx c fun x =>
    { x.undo with waveOp := none, block := none, wake := none, yieldFor := 0, mwaitVal := none, fbuf := [], offer := x.offers }
  let k := k.unyield c
  let k := if undone then { k with rep := k.rep.map fun r => if r.owner = c then { r with suspended := r.suspended + 1 } else r }
    else k
  { k with
    arrival := if (k.arrival.map Arrival.ctx) = some c then none else k.arrival,
    barrier := if c = 0 ∧ k.barEnd.isNone then none else k.barrier }

/-- A context has nothing outstanding that a save waits for: register writes, SFU results, window accesses, and for
the claim holder the matrix operation (R114, R328). -/
def Core.settled (k : Core) (c : Fin 11) : Bool :=
  let x := k.ctxs[c]
  decide (x.gPend = 0) && decide (x.vPend = 0) && decide (x.pPend = 0) &&
  !(k.sfu.any fun i => decide (i.ctx = c)) && !(k.win.any fun e => decide (e.ctx = c)) &&
  (!k.holds c || k.matOp.isNone) && !k.midIssue c

/-- A saved context keeps one report in its image and discards the others (R114); every save invalidates the
operand latch (R189). -/
def Core.afterSave (k : Core) (c : Fin 11) : Core :=
  let k := k.modCtx c fun x => { x with reports := [] }
  if k.holds c then { k with latch := none } else k

end Sys2Proof.Machine
end

