-- ==== Sys2Proof/Machine/Link.lean ====
section
/-! DEFINITION. Sending over Lenbo: packets and their flits, credits, planes, and the table of outstanding requests
(R402 to R407). -/

namespace Sys2Proof.Machine

/-- One bit step of CRC-32 of IEEE 802.3, bit-reflected. -/
def crcBit (c : BitVec 32) : BitVec 32 := if bitOf c 0 then (c >>> 1) ^^^ 0xEDB88320 else c >>> 1

/-- One byte folded into the CRC. -/
def crcByte (c : BitVec 32) (b : Byte) : BitVec 32 :=
  (List.range 8).foldl (fun c _ => crcBit c) (c ^^^ b.setWidth 32)

/-- CRC-32 of bytes (R403). -/
def crc32 (bs : List Byte) : BitVec 32 := ~~~(bs.foldl crcByte 0xFFFFFFFF)

/-- A flit as 32 bytes, and bytes as a flit. -/
def flitBytes (f : BitVec 256) : List Byte := natBytes f.toNat 32

/-- Bytes 0 to 27 of a header flit (R403). -/
def headerBytes (p : LenboPacket) : List Byte :=
  natBytes p.kind.toNat 1 ++ natBytes p.data.length 1 ++ natBytes p.src 2 ++ natBytes p.dst 2 ++ natBytes p.epoch 2 ++
  natBytes p.seq 6 ++ natBytes p.op.toNat 2 ++ natBytes p.addr.toNat 8 ++ natBytes p.aux.toNat 4

/-- The flits of a packet: the header with its E2E, then the data (R403). -/
def packetFlits (p : LenboPacket) : List (BitVec 256) :=
  let h := headerBytes p
  let e2e := crc32 (h ++ p.data.flatMap flitBytes)
  BitVec.ofNat 256 (leNat (h ++ natBytes e2e.toNat 4)) :: p.data

/-- A packet that carries a hit record: a message whose OP is odd (DESIGN CHOICE, log 17). -/
def packetIsHit (p : LenboPacket) : Bool := decide (p.kind = 4) && decide (p.op.toNat % 2 = 1)

/-- The virtual channel of a packet: hit records on HIT (2); requests, other messages and copy requests on REQ (3); answers on
RSP (4) (R280). -/
def packetVc (p : LenboPacket) : Nat := if 6 ≤ p.kind.toNat then 4 else if packetIsHit p then 2 else 3

/-- The plane of an address under PMAP (R406). -/
def planeIndex (a : Word) : Nat :=
  let x := (List.range 12).foldl (fun (x : BitVec 4) i => x ^^^ a.extractLsb' (7 + 4 * i) 4) 0
  (x ^^^ (a.extractLsb' 55 1).setWidth 4).toNat
def planeOf (pmap : Word) (a : Word) : Nat := (pmap.extractLsb' (4 * planeIndex a) 4).toNat

/-- The plane of a line: the one PMAP names, unless an access to the line is still outstanding on another (R247, R406). -/
def State.planeFor (s : State) (dst : Nat) (a : Word) : Nat :=
  let new := planeOf s.hostRegs.pmap a
  ((s.lenbo.reqs.find? fun r => decide (r.target = dst) && decide (r.packet.addr.toNat / 128 = a.toNat / 128) && decide (r.plane ≠ new)).map
    LenboReq.plane).getD new

/-- Poison bits of data flits in OP, from the marks of their words (R428). -/
def flitPoison (marks : List Bool) : BitVec 16 :=
  (List.range 8).foldl (fun (o : BitVec 16) j => withBit o (8 + j) (((marks.drop (4 * j)).take 4).any id)) 0

/-- A port by its plane. -/
def Lenbo.port (l : Lenbo) (j : Nat) : LenboPort := l.ports[Fin.ofNat 16 j]
def Lenbo.modPort (l : Lenbo) (j : Nat) (f : LenboPort → LenboPort) : Lenbo :=
  { l with ports := l.ports.set (Fin.ofNat 16 j) (f (l.port j)) }

/-- A flit with its link CRC (R402), and the check of it. -/
def sealedFlit (f : LenboFlit) : LenboFlit := { f with crc := Config.linkCrc f.data f.side }
def flitCrcOk (f : LenboFlit) : Bool := decide (f.crc = Config.linkCrc f.data f.side)

/-- The flits of a packet put on the wire of a port: the sequence numbers go on, and the replay buffer keeps the flits
(R404). -/
def LenboPort.putFlits (q : LenboPort) (fs : List (BitVec 256)) (vc : Nat) (shared : Bool) : LenboPort :=
  let out := (List.range fs.length).zipWith (fun i d =>
    sealedFlit { data := d, seq := q.txSeq + BitVec.ofNat 12 i, shared := shared, vc := BitVec.ofNat 3 vc }) fs
  { q with txSeq := q.txSeq + BitVec.ofNat 12 fs.length, replay := q.replay ++ out, wire := q.wire ++ out }

/-- A packet sent from the shared pool, or from its channel's reserve; none when it waits for credits, or for places of
the 512 of the replay buffer (R404, R405). -/
def LenboPort.put (q : LenboPort) (p : LenboPacket) (vc : Nat) : Option LenboPort :=
  let fs := packetFlits p
  let own := q.vcCredits[Fin.ofNat 6 vc]
  if 512 < q.replay.length + fs.length then none
  else if fs.length ≤ q.pool then some ({ q with pool := q.pool - fs.length }.putFlits fs vc true)
  else if fs.length ≤ own then
    some ({ q with vcCredits := q.vcCredits.set (Fin.ofNat 6 vc) (own - fs.length) }.putFlits fs vc false)
  else none

/-- A packet is sent, or waits behind those of its channel that wait (R405). -/
def LenboPort.offer (q : LenboPort) (x : LenboPacket × Nat) : LenboPort :=
  if q.queue.any fun y => decide (y.2 = x.2) then { q with queue := q.queue ++ [x] }
  else (q.put x.1 x.2).getD { q with queue := q.queue ++ [x] }

/-- A packet handed to a plane. After a package stop nothing leaves (R405, R431). -/
def State.linkSend (s : State) (plane : Nat) (p : LenboPacket) : State :=
  if s.mgmt.fatal then s
  else { s with lenbo := { s.lenbo.modPort plane fun q => q.offer (p, packetVc p) with sent := p :: s.lenbo.sent } }

/-- The epoch of a package, as this one knows it (R407). -/
def Lenbo.epochOf (l : Lenbo) (pkg : Nat) : Nat := (assoc 0 pkg l.epochs).toNat

/-- A request toward another package: it takes the next SEQ and stays in the table until it is answered or given up;
none while 4,096 are outstanding toward the target (R407, R435). -/
def State.lenboRequest (s : State) (kind : BitVec 8) (dst : Nat) (op : BitVec 16) (addr : Word) (aux : BitVec 32)
    (data : List (BitVec 256)) (core : Nat) (win : Option Nat) (copy : Option Nat := none) : Option State :=
  if 4096 ≤ (s.lenbo.reqs.filter fun r => decide (r.target = dst)).length then none
  else
    let seq := assoc 0 dst s.lenbo.nextSeq
    let p : LenboPacket :=
      { kind := kind, src := s.mgmt.pkgnum.toNat, dst := dst, epoch := s.lenbo.epochOf dst, seq := seq, op := op,
        addr := addr, aux := aux, data := data, e2eOk := true }
    let plane := s.planeFor dst addr
    let r : LenboReq := { target := dst, seq := seq, packet := p, plane := plane, core := core, win := win, copy := copy }
    let s : State := { s with
      lenbo.nextSeq := assocSet dst ((seq + 1) % 2 ^ 48) s.lenbo.nextSeq
      lenbo.reqs := s.lenbo.reqs ++ [r] }
    some (((s.linkSend plane p).post .lenboRetransmitTimeout { id := dst, n := seq }).post .lenboRequestGiveUp
      { id := dst, n := seq })

/-- AUX of an atomic or a message: the core and the context it comes from, which Brine records at the target (R403, R438; the code
is the model's, log 17). -/
def senderAux (core ctx : Nat) : BitVec 32 := BitVec.ofNat 32 (core * 16 + ctx)

/-- A 256-bit flit of four words. -/
def flitOf (w : List Word) : BitVec 256 :=
  BitVec.ofNat 256 ((List.range 4).foldl (fun t i => t + (w[i]?.getD 0).toNat * 2 ^ (64 * i)) 0)

end Sys2Proof.Machine
end

