-- ==== Sys2Proof/Machine/Walk.lean ====
section
/-! DEFINITION. Colours, page tables and the walk as the tables stand (R334 to R338, R411). -/

namespace Sys2Proof.Machine

/-! ### Colours and physical addresses (R334, R335) -/

/-- The stack a granule is coloured to (R334). -/
def colour (va : Nat) : Nat :=
  (List.range 11).foldl (fun c i => c ^^^ (va >>> (12 + 4 * i) % 16)) 0

/-- The granule of an address. -/
def granuleOf (va : Nat) : Nat := va / 4096 * 4096

/-- Bits of an entry (R337). -/
def pteV (p : Word) : Bool := bitOf p 0
def pteRes (p : Word) : Bool := bitOf p 1
def pteR (p : Word) : Bool := bitOf p 3
def pteW (p : Word) : Bool := bitOf p 4
def pteLoc (p : Word) : Bool := bitOf p 8
def pteFrame (p : Word) : Nat := (p.extractLsb' 12 40).toNat * 4096
def pteRheat (p : Word) : Nat := (p.extractLsb' 56 2).toNat
def pteWheat (p : Word) : Nat := (p.extractLsb' 58 2).toNat

/-- The frame is device memory: PA[51] = 0 and not a host frame (R335). -/
def pteDevice (p : Word) : Bool := !pteLoc p && !bitOf p 51

/-- The physical address of `va` in a page (R335). -/
def ptePa (p : Word) (size va : Nat) : Nat :=
  let a := pteFrame p + va % size
  if pteDevice p ∧ 4096 < size then a / 2 ^ 16 * 2 ^ 16 + colour va * 4096 + a % 4096 else a

/-! ### The walk (R336 to R338, R411) -/

/-- How a walk ends: a leaf with its entry, where the entry stands, and its size; no entry; a bad one; a poisoned one. -/
inductive WalkEnd where
  | leaf (pte : Word) (at_ size : Nat)
  | unmapped
  | inv
  | poison
  deriving DecidableEq, Repr

/-- The levels: number, shift, index bits (R336). -/
def walkLevels : List (Nat × Nat × Nat) := [(4, 48, 8), (3, 39, 9), (2, 30, 9), (1, 21, 9), (0, 12, 9)]

/-- Reserved bits of every entry, and the fields that are zero in an entry that is not a leaf (R337). -/
def pteReserved : Word := 0xF0F0000000000E24
def pteLeafOnly : Word := 0x0F00000000000198

/-- The 16 entries of a 64 KiB page differ in other than heat, or one is poisoned (R338). -/
def State.cGroup (s : State) (at_ : Nat) (pte : Word) : Option WalkEnd :=
  let base := at_ / 128 * 128
  if s.poisonedRange base 128 then some .poison
  else if (List.range 16).all fun i =>
      decide ((BitVec.ofNat 64 (s.loadNat (base + 8 * i) 8) ^^^ pte) &&& ~~~(0x0F00000000000000 : Word) = 0) then none
  else some .inv

/-- A leaf of a size: its frame is checked, then V (R335, R338). -/
def leafEnd (pte : Word) (at_ size va : Nat) : WalkEnd :=
  let f := pteFrame pte
  if f % size ≠ 0 ∨ (pteDevice pte ∧ 2 ^ 40 ≤ f) ∨ (pteDevice pte ∧ size = 4096 ∧ f / 4096 % 16 ≠ colour va) then .inv
  else if pteV pte then .leaf pte at_ size else .unmapped

/-- The walk from a table (R336, R338). -/
def State.walkFrom (s : State) (va : Nat) : List (Nat × Nat × Nat) → Nat → WalkEnd
  | [], _ => .inv
  | (level, shift, bits) :: rest, table =>
    let a := table + 8 * (va >>> shift % 2 ^ bits)
    let pte := BitVec.ofNat 64 (s.loadNat a 8)
    let leaf := decide (level = 0) || (decide (level ≤ 2) && bitOf pte 6)
    if s.poisoned a then .poison
    else if pte &&& pteReserved ≠ 0 ∨ (level ≠ 0 ∧ bitOf pte 7) ∨ (3 ≤ level ∧ bitOf pte 6) ∨
        (!leaf ∧ pte &&& pteLeafOnly ≠ 0) then .inv
    else if leaf then
      if level = 0 ∧ bitOf pte 7 then (s.cGroup a pte).getD (leafEnd pte a (2 ^ 16) va)
      else leafEnd pte a (if level = 0 then 4096 else if level = 1 then 2 ^ 21 else 2 ^ 30) va
    else if 2 ^ 40 ≤ pteFrame pte then .inv
    else if !pteV pte then .unmapped
    else s.walkFrom va rest (pteFrame pte)

/-- The PASID table entry of a PASID as memory holds it: none past the table (R410, R411). -/
def State.pasidEntry (s : State) (pasid : Nat) : Option (Word × Word) :=
  let log := min 20 (s.hostRegs.ptab.extractLsb' 0 5).toNat
  let a := (s.hostRegs.ptab.extractLsb' 12 40).toNat * 4096 + 16 * pasid
  if pasid < 2 ^ log then some (BitVec.ofNat 64 (s.loadNat a 8), BitVec.ofNat 64 (s.loadNat (a + 8) 8)) else none

/-- The entry lies in a poisoned sector. -/
def State.pasidPoison (s : State) (pasid : Nat) : Bool :=
  decide (pasid < 2 ^ min 20 (s.hostRegs.ptab.extractLsb' 0 5).toNat) &&
  s.poisoned ((s.hostRegs.ptab.extractLsb' 12 40).toNat * 4096 + 16 * pasid)

/-- The walk of an address under an entry (R411). -/
def State.walkUnder (s : State) (va : Nat) (e : Option (Word × Word)) : WalkEnd :=
  match e with
  | none => .inv
  | some (a, b) =>
    if !bitOf a 0 ∨ a.extractLsb' 1 10 ≠ 0 ∨ b.extractLsb' 32 32 ≠ 0 then .inv
    else s.walkFrom va walkLevels ((a.extractLsb' 11 41).toNat * 2048)

/-- A walk as the tables stand; no address outside main memory translates (R146, R338). -/
def State.walkNow (s : State) (pasid va : Nat) : WalkEnd :=
  if 2 ^ 55 ≤ va then .inv
  else if s.pasidPoison pasid then .poison
  else s.walkUnder va (s.pasidEntry pasid)

/-- The entry serves an access. -/
def TlbEntry.allows (e : TlbEntry) (write : Bool) : Bool := if write then e.w else e.r

/-- The entry of a die's TLB, or of its ATS cache, for an address. -/
def State.tlbHit (s : State) (die pasid va : Nat) (host : Bool) : Option TlbEntry :=
  (s.tlb.find? fun x => decide (x.1 = die) && decide (x.2.pasid = pasid) && decide (x.2.host = host) &&
    decide (x.2.va ≤ va) && decide (va < x.2.va + x.2.size)).map Prod.snd

/-- Host byte `ha` under an entry of an ATS cache (R335, R344). -/
def TlbEntry.hostPa (e : TlbEntry) (ha : Nat) : Nat := 2 ^ 51 + e.pa + ha % 4096

/-- After a package stop no write leaves the package but the reports it makes itself (R431): those of a channel's writer,
whose event names its channel and nothing else. -/
def State.sealed (s : State) (write : Bool) : Bool :=
  s.mgmt.fatal && write && !decide (s.ev = { port := s.ev.port, flag := true })

/-- Where a resident leaf stands without a request, fault or heat; a host page only while an ATS cache has it. -/
def State.quietPlace (s : State) (pasid va : Nat) (write : Bool) : Option Nat :=
  match s.walkNow pasid va with
  | .leaf pte _ size =>
    let ha := pteFrame pte + va % size
    if !(pteRes pte && if write then pteW pte else pteR pte) || (pteLoc pte && s.sealed write) then none
    else if !pteLoc pte then some (ptePa pte size va)
    else ((s.tlbHit (colour va) pasid ha true).filter fun e => e.allows write).map fun e => e.hostPa ha
  | _ => none

end Sys2Proof.Machine
end

