-- ==== Sys2Proof/Machine/Control.lean ====
section
/-! DEFINITION. Branches, calls and returns, divergence (R94 to R101). -/

namespace Sys2Proof.Machine

/-! ### Branches (R38, R94) -/

/-- A branch target: the bundle's offset plus four times the signed word offset (R38). -/
def branchTarget {n : Nat} (p : Off) (o : BitVec n) : Off := p + ((o.signExtend 64) <<< 2).setWidth 17

/-- The context goes on at a word offset from the bundle. -/
def State.jump {n : Nat} (s : State) (o : BitVec n) : State := s.setPc (branchTarget s.cur.p o)

/-- A branch on g registers. -/
def State.branchG {n : Nat} (s : State) (srcs : List (Fin 32)) (c : Bool) (o : BitVec n) : Result :=
  s.scalar srcs (if c then s.jump o else s)

/-- A branch on a predicate. -/
def State.branchP (s : State) (pr : Fin 8) (c : Mask → Mask → Bool) (o : BitVec 18) : Result :=
  .next (if s.src.pBad pr then s.faultPoison else if c (s.p pr) s.src.f.kmask then s.jump o else s)

/-- Always taken (R94). -/
def execBr (o : BitVec 24) (s : State) : Result := .next (s.jump o)

/-- Taken when some active lane has the predicate (R94). -/
def execBany (pr : Fin 8) (o : BitVec 18) (s : State) : Result :=
  s.branchP pr (fun p m => decide (p &&& m ≠ 0)) o

/-- Taken when every active lane has the predicate (R94). -/
def execBall (pr : Fin 8) (o : BitVec 18) (s : State) : Result :=
  s.branchP pr (fun p m => decide (p &&& m = m)) o

/-- Taken when no active lane has the predicate (R94). -/
def execBnone (pr : Fin 8) (o : BitVec 18) (s : State) : Result :=
  s.branchP pr (fun p m => decide (p &&& m = 0)) o

/-- Taken when some active lane lacks the predicate (R94). -/
def execBnall (pr : Fin 8) (o : BitVec 18) (s : State) : Result :=
  s.branchP pr (fun p m => decide (p &&& m ≠ m)) o

/-- Taken when gA = 0 (R94). -/
def execBz (a : Fin 32) (o : BitVec 18) (s : State) : Result := s.branchG [a] (decide (s.g a = 0)) o

/-- Taken when gA ≠ 0 (R94). -/
def execBnz (a : Fin 32) (o : BitVec 18) (s : State) : Result := s.branchG [a] (decide (s.g a ≠ 0)) o

/-- Taken when gA < gB, signed (R94). -/
def execBlt (a b : Fin 32) (o : BitVec 12) (s : State) : Result := s.branchG [a, b] ((s.g a).slt (s.g b)) o

/-- Taken when gA ≥ gB, signed (R94). -/
def execBge (a b : Fin 32) (o : BitVec 12) (s : State) : Result := s.branchG [a, b] (!(s.g a).slt (s.g b)) o

/-- Taken when gA < gB, unsigned (R94). -/
def execBltu (a b : Fin 32) (o : BitVec 12) (s : State) : Result :=
  s.branchG [a, b] (decide (s.g a < s.g b)) o

/-- Taken when gA ≥ gB, unsigned (R94). -/
def execBgeu (a b : Fin 32) (o : BitVec 12) (s : State) : Result :=
  s.branchG [a, b] (decide (s.g b ≤ s.g a)) o

/-! ### Calls and returns (R17, R95) -/

/-- The spill slot of return entry `n`: KSPILL + 8 × n (R17). -/
def spillSlot (x : Context) (n : Nat) : Nat := ((x.k.spill.extractLsb' 0 17).toNat + 8 * n)

/-- A return address pushed on chip; the entries stand oldest first. -/
def Flow.pushRet (f : Flow) (a : Off) : Flow :=
  { f with ret := f.ret.setIfInBounds f.depth.toNat a, retBad := withBit f.retBad f.depth.toNat false,
           depth := f.depth + 1 }

/-- The oldest on-chip entry leaves; the others move down. -/
def Flow.dropOldest (f : Flow) : Flow :=
  { f with ret := Vector.ofFn fun i : Fin 8 => f.ret[min (i.val + 1) 7], retBad := f.retBad >>> 1,
           depth := f.depth - 1, spilled := f.spilled + 1 }

/-- A return address pushed; a full on-chip stack first spills its oldest entry (R17). An uncorrectable entry that
would be spilled raises POISON (R429), and so does a marked KSPILL (R85;
DEDUCED, log 69). -/
def State.pushReturn (s : State) (a : Off) (after : State → State) : State :=
  let f := s.cx.f
  if f.depth = 8 then
    let slot := spillSlot s.cx f.spilled.toNat
    if bitOf f.retBad 0 || s.kBad 0x00B then s.faultPoison
    else s.localAccess slot 8 { w := true }
      (after (((s.storeNat (s.hereKey slot) 8 f.ret[0].toNat).wrote (s.hereKey slot) 8).modCx fun x => { x with f := x.f.dropOldest.pushRet a }))
  else after (s.modCx fun x => { x with f := x.f.pushRet a })

/-- Call (R95): the offset of the next bundle is pushed, and the context goes on at the target. -/
def execCall (o : BitVec 24) (s : State) : Result :=
  .next (s.pushReturn s.cur.next fun t => t.jump o)

/-- An indirect target: gA[16:0], 4-aligned, or ALIGN with the register's value (R95). -/
def State.indirect (s : State) (a : Fin 32) (k : Off → State) : Result :=
  s.scalar [a] (if (s.g a).toNat % 4 ≠ 0 then s.fault Cause.align (s.g a) else k ((s.g a).setWidth 17))

/-- Indirect call (R95). -/
def execCallr (a : Fin 32) (s : State) : Result :=
  s.indirect a fun t => s.pushReturn s.cur.next fun u => u.setPc t

/-- Indirect jump (R95). -/
def execJr (a : Fin 32) (s : State) : Result := s.indirect a fun t => s.setPc t

/-- Return (R17, R95, R429). A marked KSPILL raises POISON where a spilled address is read back (R85; DEDUCED, log 69). -/
def execRet (s : State) : Result :=
  let f := s.cx.f
  .next <|
    if f.depth ≠ 0 then
      let i := f.depth.toNat - 1
      if bitOf f.retBad i then s.faultPoison
      else (s.modCx fun x => { x with f.depth := f.depth - 1 }).setPc (f.ret[i]?.getD 0)
    else if f.spilled ≠ 0 then
      let slot := spillSlot s.cx (f.spilled.toNat - 1)
      if s.kBad 0x00B then s.faultPoison else
      s.localAccess slot 8 { r := true }
        (if s.poisoned (s.hereKey slot) then s.faultPoison
         else (s.modCx fun x => { x with f.spilled := f.spilled - 1 }).setPc
           (BitVec.ofNat 17 (s.loadNat (s.hereKey slot) 8) &&& 0x1FFFC))
    else s.faultOpen Cause.rstack

/-! ### Divergence (R16, R96 to R100, R429) -/

/-- The entry at depth KMSD. -/
def Flow.top (f : Flow) : MaskEntry := f.stack[f.kmsd.toNat - 1]?.getD {}

/-- An entry pushed, the top replaced, the top popped. -/
def Flow.push (f : Flow) (e : MaskEntry) : Flow :=
  { f with stack := f.stack.setIfInBounds f.kmsd.toNat e, kmsd := f.kmsd + 1 }
def Flow.setTop (f : Flow) (e : MaskEntry) : Flow :=
  { f with stack := f.stack.setIfInBounds (f.kmsd.toNat - 1) e }
def Flow.pop (f : Flow) : Flow := { f with kmsd := f.kmsd - 1 }

/-- MSTACK, with KADDR 0 (R100). -/
def State.faultMstack (s : State) : State := s.fault Cause.mstack 0

/-- KMASK after an instruction that takes it from a popped entry: it is never 0 (R84; DEDUCED, log 58). -/
def keepMask (m old : Mask) : Mask := if m = 0 then old else m

/-- The flow state of the issuing context replaced. -/
def State.setFlow (s : State) (f : Flow) : State := s.modCx fun x => { x with f := f }

/-- Jump by per-lane targets (R96). A marked active lane comes before a misaligned one: R96 and R120 give no order
(DESIGN CHOICE, log 70). -/
def execJv (a : Fin 32) (s : State) : Result :=
  let act := s.src.f.kmask
  let ts := (lanesOf act).map fun l => (l, (lane l (s.v a)).setWidth 17)
  let f := s.cx.f
  .next <|
    if s.src.vBad a &&& act ≠ 0 then s.faultPoison
    else match ts.find? fun t => decide (t.2.toNat % 4 ≠ 0), ts with
      | some t, _ => s.fault Cause.align (t.2.setWidth 64)
      | none, [] => s
      | none, (_, t0) :: _ =>
        let same : Mask := ts.foldl (fun m t => if t.2 = t0 then withBit m t.1 true else m) 0
        if same = act then s.setPc t0
        else if 32 ≤ f.kmsd.toNat then s.faultMstack
        else (s.setFlow { f.push { mask := act &&& ~~~same, kind := .repeatKind, resume := s.cur.p } with
                          kmask := same }).setPc t0

/-- Then-part of an if, or a jump to the else-part (R98). -/
def execIfm (o : BitVec 15) (pr : Fin 8) (s : State) : Result :=
  let f := s.cx.f
  let l := branchTarget s.cur.p o
  let t := s.src.f.kmask &&& s.p pr
  .next <|
    if 32 ≤ f.kmsd.toNat then s.faultMstack
    else if s.src.pBad pr then s.faultPoison
    else
      let s := s.setFlow (f.push { mask := f.kmask, kind := .ifKind, resume := l })
      if t ≠ 0 then s.setMask t else s.setPc l

/-- Else-part (R98). -/
def execElm (o : BitVec 15) (s : State) : Result :=
  let f := s.cx.f
  .next <|
    if f.kmsd = 0 ∨ f.top.kind ≠ .ifKind then s.faultMstack
    else if f.top.bad then s.faultPoison
    else
      let e := f.top.mask &&& ~~~f.kmask
      if e ≠ 0 then s.setMask e else s.jump o

/-- End of an if, or back to the `jv` for the lanes not yet served (R98). -/
def execFim (s : State) : Result :=
  let f := s.cx.f
  .next <|
    if f.kmsd = 0 ∨ f.top.kind = .loopKind then s.faultMstack
    else if f.top.bad then s.faultPoison
    else
      let s := s.setFlow { f.pop with kmask := keepMask f.top.mask f.kmask }
      if f.top.kind = .repeatKind then s.setPc f.top.resume else s

/-- Loop entry (R99). -/
def execLpm (o : BitVec 15) (s : State) : Result :=
  let f := s.cx.f
  .next <|
    if 30 < f.kmsd.toNat then s.faultMstack
    else s.setFlow ((f.push { mask := f.kmask, kind := .ifKind, resume := branchTarget s.cur.p o }).push
      { mask := f.kmask, kind := .loopKind, resume := s.cur.next })

/-- The end of an iteration (R99): with no lane left both entries are popped and the context leaves the loop. A
second entry that is missing or uncorrectable faults, and nothing has changed (R16, R429). -/
def State.leaveLoop (s orig : State) : State :=
  let f := s.cx.f
  if f.top.mask = 0 then
    if f.kmsd.toNat < 2 then orig.faultMstack
    else if f.pop.top.bad then orig.faultPoison
    else (s.setFlow { f.pop.pop with kmask := keepMask f.pop.top.mask orig.cx.f.kmask }).setPc f.pop.top.resume
  else (s.setMask f.top.mask).setPc f.top.resume

/-- A loop instruction: MSTACK unless the top entry is a LOOP (R99, R100). -/
def State.inLoop (s : State) (pr : Fin 8) (k : State) : Result :=
  let f := s.cx.f
  .next <|
    if f.kmsd = 0 ∨ f.top.kind ≠ .loopKind then s.faultMstack
    else if s.src.pBad pr || f.top.bad then s.faultPoison
    else k

/-- Lanes leave the loop (R99). -/
def execBrk (pr : Fin 8) (s : State) : Result :=
  let f := s.cx.f
  let b := s.src.f.kmask &&& s.p pr
  s.inLoop pr <|
    let s' := s.setFlow { f.setTop { f.top with mask := f.top.mask &&& ~~~b } with kmask := f.kmask &&& ~~~b }
    if f.kmask &&& ~~~b = 0 then s'.leaveLoop s else s'

/-- Lanes wait for the next iteration (R99). -/
def execCnt (pr : Fin 8) (s : State) : Result :=
  let f := s.cx.f
  let m := f.kmask &&& ~~~s.p pr
  s.inLoop pr (if m = 0 then (s.setMask (keepMask f.top.mask f.kmask)).setPc f.top.resume else s.setMask m)

/-- End of an iteration: lanes whose predicate is clear leave (R99). -/
def execLpe (pr : Fin 8) (s : State) : Result :=
  let f := s.cx.f
  s.inLoop pr
    ((s.setFlow (f.setTop { f.top with mask := f.top.mask &&& ~~~(f.kmask &&& ~~~s.p pr) })).leaveLoop s)

end Sys2Proof.Machine
end

