-- ==== Sys2Proof/Machine/Contexts.lean ====
section
/-! DEFINITION. Starting, asking about, joining and ending contexts (R102 to R105, R208, R218, R321). -/

namespace Sys2Proof.Machine

/-- KWAVE.V of a context, and the number of its wave (R21). -/
def Context.inWave (x : Context) : Bool := bitOf x.k.wave 31
def Context.waveNo (x : Context) : Nat := (x.k.wave.extractLsb' 0 16).toNat

/-- KWAVE and KLANE as a formation gives them (R107). -/
def Context.joins (x : Context) (f : Formed) : Context :=
  match f.wave with
  | some (w, l) => { x with k.wave := w, k.lane := l }
  | none => { x with k.wave := withBit x.k.wave 31 false }

/-- A context as its bed sees it: a member of its wave from the formation on, though its `wform` is still to issue. -/
def Context.asFormed (x : Context) : Context :=
  match x.wake with
  | some (.formed f) => x.joins f
  | _ => x

/-- The lowest helper the launch permits that is neither live nor suspended (R102). -/
def Core.freeHelper (k : Core) : Option (Fin 11) :=
  ((List.range 11).map (Fin.ofNat 11)).find? fun c =>
    decide (0 < c.val) && decide (c.val ≤ k.helpers) && !(k.ctxs[c]).live && !(k.ctxs[c]).susp

/-- The entry state of a helper (R13, R102). -/
def Context.helper (a b : Word) (by_ : Context) (ctx : Fin 11) : Context :=
  let top : Word := (a.extractLsb' 32 17).setWidth 64
  { Context.reset with
    live := true, pc := a.setWidth 17
    r := { Regs.zero with g := (((Regs.zero.g.set 29 top).set 30 top).set 1 b).set 2 (BitVec.ofNat 64 ctx.val) }
    k := { group := by_.k.group, pan := by_.k.pan, launch := by_.k.launch } }

/-- The window accesses of the issuing context that are still to be performed. -/
def State.accessesDue (s : State) : List Nat :=
  (s.here.win.filter fun e => decide (e.ctx = s.cur.ctx) && e.resp.isNone).map WinEntry.id

/-- Start a helper; it never stalls. What the issuer has still to perform comes before the helper's first access: the helper
is held until then (R102, R238). -/
def execCstart (d a b : Fin 32) (s : State) : Result :=
  let ga := s.g a
  s.scalar [a, b] <|
    if ga.toNat % 4 ≠ 0 ∨ (ga.extractLsb' 32 5) ≠ 0 then s.fault Cause.align ga
    else match s.here.freeHelper with
      | none => s.setG d 0
      | some c =>
        (s.modHere fun k => (k.modCtx c fun _ =>
          { Context.helper ga (s.g b) s.cx s.cur.ctx with after := s.accessesDue }).closePast c fun _ => true).setG d
          (BitVec.ofNat 64 c.val)

/-- A wait that has ended is taken; otherwise the instruction looks (R209, R216). -/
def State.unlessReleased (s : State) (look : State) : State :=
  if s.cx.wake = some .released then s.modCx fun x => { x with wake := none } else look

/-- Wait until a context is not live (R104). -/
def execCwait (a : Fin 32) (s : State) : Result :=
  let n := ((s.g a).extractLsb' 0 4).toNat
  s.scalar [a] <| s.unlessReleased <|
    if h : n < 11 then
      if n ≠ s.cur.ctx.val ∧ (s.here.ctxs[(⟨n, h⟩ : Fin 11)]).live then s.stall (.cwait ⟨n, h⟩) else s
    else s

/-- A context leaves its wave: KWAVE.V is 0, and every byte of KLANE 0xFF, as R21 has it outside a wave. R107 names KWAVE.V
alone for a context that a formation leaves out, whose KLANE is that already since its `wform` (R105, R106, R218; DEDUCED,
log 31). The instances and barriers of the wave are looked at again. -/
def State.leaveWave (s : State) (n : Nat) (c : Fin 11) : State :=
  let x := s.ctx n c
  if x.inWave then
    let arg : EvArg := { core := n, id := x.waveNo, group := bedOf n }
    (((s.modCtx n c fun x => { x with k.wave := withBit x.k.wave 31 false, k.lane := 0xFFFFFFFF, waveFaults := [] }).post .waveInstancePerform arg).post
      .wsyncComplete arg)
  else s

/-- The end of a context (R105): stacks, buffer and claim go, and with the claim what it holds in the scale FIFO and the
operand latch (R182); c0 enters ENDING, a helper is no longer live. -/
def State.endContext (s : State) : State :=
  let n := s.cur.core
  let c := s.cur.ctx
  let s := s.leaveWave n c
  let s := s.modCore n fun k => { k with
    claim := if k.holds c then none else k.claim, fifo := if k.holds c then [] else k.fifo,
    fifoBad := if k.holds c then [] else k.fifoBad, latch := if k.holds c then none else k.latch, rep := if k.ownsRep c then none else k.rep,
    desync := if k.holds c then none else k.desync, scaleBad := if k.holds c then false else k.scaleBad }
  let s := s.modCtx n c fun x => { x with
    f.kmsd := 0, f.depth := 0, f.spilled := 0, hold := 0, block := none, req := none, wake := none,
    live := decide (c = 0), ending := decide (c = 0) }
  let s := s.post .c0CompletionReport { core := n }
  { s with cur.trapped := true }

/-- What an ending context waits for first (R105): register writes, SFU results and window accesses. -/
def State.drained (s : State) : Bool :=
  let x := s.cx
  decide (x.gPend = 0) && decide (x.vPend = 0) && decide (x.pPend = 0) &&
  !(s.here.sfu.any fun i => decide (i.ctx = s.cur.ctx)) && !(s.here.win.any fun e => decide (e.ctx = s.cur.ctx))

/-- A pending MDESYNC report of the claim holder is taken (R192); it is a POISON with KADDR 0 where the operation met an
uncorrectable scale entry after its `mgo` had issued (R429; DESIGN CHOICE, log 70). -/
def State.desyncFirst (s : State) (k : State) : State :=
  match s.here.desync with
  | some o =>
    if s.here.holds s.cur.ctx then
      let t := s.modHere fun k => { k with desync := none, scaleBad := false }
      if s.here.scaleBad then t.faultPoison else t.fault Cause.mdesync (o.setWidth 64)
    else k
  | none => k

/-- Undelivered reports are taken first (R153). -/
def State.reportsFirst (s : State) (k : State) : State :=
  match s.cx.reports with
  | r :: _ => s.deliver r
  | [] => k

/-- End of the context (R105). -/
def execCexit (s : State) : Result :=
  .next (s.desyncFirst (if !s.drained then s.stall .other else s.reportsFirst s.endContext))

/-- c0 of a core in ENDING with every helper exited and every tag drained reports to its group (R105, R321). -/
def execC0CompletionReport (s : State) : Result :=
  let n := s.ev.core
  let k := s.core n
  .next <|
    if (k.ctxs[(0 : Fin 11)]).ending &&
       ((List.range 10).all fun i => !(k.ctxs[Fin.ofNat 11 (i + 1)]).live && !(k.ctxs[Fin.ofNat 11 (i + 1)]).susp) &&
       (k.tags.toList.all fun t => decide (t.count = 0)) then
      s.post .groupRetirement { group := k.group, launch := k.launch }
    else s

end Sys2Proof.Machine
end

