-- ==== Sys2Proof/Machine/Operands.lean ====
section
/-! DEFINITION. Which registers an instruction reads and writes (R34, R48, R54, R86 to R98, R121, R148 to R178,
R183, R198), and the fields of the instructions that a replay advances (R195). -/

namespace Sys2Proof.Machine

/-- A set of registers: one bit for each g, v and p register. -/
structure RegSet where
  g : BitVec 32 := 0
  v : BitVec 32 := 0
  p : BitVec 8 := 0
  deriving DecidableEq, Repr

/-- One g register; g0 never counts. -/
def RegSet.g1 (r : Fin 32) : RegSet := { g := if r = 0 then 0 else 1#32 <<< r.val }
/-- One v register. -/
def RegSet.v1 (r : Fin 32) : RegSet := { v := 1#32 <<< r.val }
/-- `n` v registers from `r` up. -/
def RegSet.vn (r : Fin 32) (n : Nat) : RegSet := { v := (BitVec.ofNat 32 (2 ^ n - 1)) <<< r.val }
/-- One predicate; p0 never counts. -/
def RegSet.p1 (r : Fin 8) : RegSet := { p := if r = 0 then 0 else 1#8 <<< r.val }
/-- Union. -/
def RegSet.or (a b : RegSet) : RegSet := { g := a.g ||| b.g, v := a.v ||| b.v, p := a.p ||| b.p }
/-- Two sets share a register. -/
def RegSet.meets (a b : RegSet) : Bool :=
  decide (a.g &&& b.g ≠ 0) || decide (a.v &&& b.v ≠ 0) || decide (a.p &&& b.p ≠ 0)
/-- Union of a list. -/
def RegSet.all : List RegSet → RegSet
  | [] => {}
  | a :: l => a.or (RegSet.all l)

/-- A predicate named by pr2 (R43). -/
def wide (p : Fin 4) : Fin 8 := ⟨p.val, by omega⟩

/-- The destination of a pop or a peek (R167). -/
def popDest (q : Port) (d : Fin 32) : RegSet :=
  match q with
  | .q0 => .vn d 2
  | .q3 => .g1 d
  | _ => .v1 d

/-- The destinations of a lane pop (R167). -/
def popLanes (q : Port) : Nat :=
  match q with
  | .q0 => 8
  | .q1 => 4
  | .q2 => 2
  | .q3 => 1

/-- gA counts only for q1 (R167). -/
def popArg (q : Port) (a : Fin 32) : RegSet := if q = .q1 then .g1 a else {}

/-- The registers an instruction reads; `rows` is the M of KMSHAPE, for the A operand of `mgo` (R187). -/
def reads (rows : Nat) : Instr → RegSet
  | .kset s _ => .g1 s
  | .kswp s _ => .g1 s
  | .csave s => .g1 s
  | .crest s => .g1 s
  | .dbg s => .g1 s
  | .bany pr _ => .p1 pr
  | .ball pr _ => .p1 pr
  | .bnone pr _ => .p1 pr
  | .bnall pr _ => .p1 pr
  | .bz a _ => .g1 a
  | .bnz a _ => .g1 a
  | .blt a b _ => .all [.g1 a, .g1 b]
  | .bge a b _ => .all [.g1 a, .g1 b]
  | .bltu a b _ => .all [.g1 a, .g1 b]
  | .bgeu a b _ => .all [.g1 a, .g1 b]
  | .callr a => .g1 a
  | .jr a => .g1 a
  | .jv a => .v1 a
  | .ifm _ pr => .p1 pr
  | .brk pr => .p1 pr
  | .cnt pr => .p1 pr
  | .lpe pr => .p1 pr
  | .cstart _ a b => .all [.g1 a, .g1 b]
  | .cquery _ a => .g1 a
  | .cwait a => .g1 a
  | .wform _ a => .g1 a
  | .wsync a => .g1 a
  | .reord a b => .all [.g1 a, .g1 b, .vn 0 8]
  | .ld8 _ a _ => .g1 a
  | .ld8z _ a _ => .g1 a
  | .ld16 _ a _ => .g1 a
  | .ld16z _ a _ => .g1 a
  | .ld32 _ a _ => .g1 a
  | .ld32z _ a _ => .g1 a
  | .ld64 _ a _ => .g1 a
  | .st8 s a _ => .all [.g1 s, .g1 a]
  | .st16 s a _ => .all [.g1 s, .g1 a]
  | .st32 s a _ => .all [.g1 s, .g1 a]
  | .st64 s a _ => .all [.g1 s, .g1 a]
  | .vld _ a _ => .g1 a
  | .vst s a _ => .all [.v1 s, .g1 a]
  | .vldx _ a b => .all [.v1 a, .g1 b]
  | .vstx s a b => .all [.v1 s, .v1 a, .g1 b]
  | .ldw32 _ a b => .all [.g1 a, .g1 b]
  | .ldw64 _ a b => .all [.g1 a, .g1 b]
  | .stw32 s a b => .all [.g1 s, .g1 a, .g1 b]
  | .stw64 s a b => .all [.g1 s, .g1 a, .g1 b]
  | .vldw _ a b => .all [.g1 a, .g1 b]
  | .vstw s a b => .all [.v1 s, .g1 a, .g1 b]
  | .aadd _ a b _ _ _ => .all [.g1 a, .g1 b]
  | .aand _ a b _ _ _ => .all [.g1 a, .g1 b]
  | .aor _ a b _ _ _ => .all [.g1 a, .g1 b]
  | .axor _ a b _ _ _ => .all [.g1 a, .g1 b]
  | .amin _ a b _ _ _ => .all [.g1 a, .g1 b]
  | .amax _ a b _ _ _ => .all [.g1 a, .g1 b]
  | .aminu _ a b _ _ _ => .all [.g1 a, .g1 b]
  | .amaxu _ a b _ _ _ => .all [.g1 a, .g1 b]
  | .aswp _ a b _ _ _ => .all [.g1 a, .g1 b]
  | .acas d a b _ _ _ => .all [.g1 a, .g1 b, .g1 d]
  | .afadd _ a b _ _ _ => .all [.g1 a, .g1 b]
  | .adecz _ a b _ _ _ => .all [.g1 a, .g1 b]
  | .rprobe _ a => .g1 a
  | .mwait _ a b _ _ => .all [.g1 a, .g1 b]
  | .cpy d a b _ _ _ => .all [.g1 d, .g1 a, .g1 b]
  | .cpy2d d a b _ _ _ => .all [.g1 d, .g1 a, .g1 b]
  | .lcp a b _ _ => .all [.v1 a, .g1 b]
  | .lcpNf _ a b _ _ => .all [.v1 a, .g1 b]
  | .lcs a b _ _ => .all [.v1 a, .g1 b]
  | .rdc d a b _ _ => .all [.g1 d, .g1 a, .g1 b]
  | .ired a _ _ => .g1 a
  | .qpop _ a q => popArg q a
  | .qpopl _ a _ q => popArg q a
  | .qpeek _ a _ q => popArg q a
  | .qcnt _ a q => popArg q a
  | .qwait a _ => .g1 a
  | .qpush a => .g1 a
  | .msend a b => .all [.g1 a, .vn b 2]
  | .hsend a b => .all [.g1 a, .v1 b]
  | .rsend b => .vn b 2
  | .bsend b => .vn b 2
  | .xsend a b _ => .all [.g1 a, .g1 b]
  | .xred a b _ => .all [.g1 a, .g1 b]
  | .gvote _ a => .g1 a
  | .launch a => .g1 a
  | .launchNb _ a => .g1 a
  | .ekickGecko a => .g1 a
  | .ekickRake a => .g1 a
  | .ekickCham a => .g1 a
  | .ztst s a _ => .all [.v1 s, .g1 a]
  | .add _ a b => .all [.g1 a, .g1 b]
  | .sub _ a b => .all [.g1 a, .g1 b]
  | .and _ a b => .all [.g1 a, .g1 b]
  | .or _ a b => .all [.g1 a, .g1 b]
  | .xor _ a b => .all [.g1 a, .g1 b]
  | .andn _ a b => .all [.g1 a, .g1 b]
  | .shl _ a b => .all [.g1 a, .g1 b]
  | .shr _ a b => .all [.g1 a, .g1 b]
  | .sar _ a b => .all [.g1 a, .g1 b]
  | .rol _ a b => .all [.g1 a, .g1 b]
  | .min _ a b => .all [.g1 a, .g1 b]
  | .max _ a b => .all [.g1 a, .g1 b]
  | .minu _ a b => .all [.g1 a, .g1 b]
  | .maxu _ a b => .all [.g1 a, .g1 b]
  | .slt _ a b => .all [.g1 a, .g1 b]
  | .sltu _ a b => .all [.g1 a, .g1 b]
  | .mul _ a b => .all [.g1 a, .g1 b]
  | .mulh _ a b => .all [.g1 a, .g1 b]
  | .mulhu _ a b => .all [.g1 a, .g1 b]
  | .div _ a b => .all [.g1 a, .g1 b]
  | .divu _ a b => .all [.g1 a, .g1 b]
  | .rem _ a b => .all [.g1 a, .g1 b]
  | .remu _ a b => .all [.g1 a, .g1 b]
  | .sel d a b => .all [.g1 a, .g1 b, .g1 d]
  | .clz _ a => .g1 a
  | .ctz _ a => .g1 a
  | .popc _ a => .g1 a
  | .bfx _ a b => .all [.g1 a, .g1 b]
  | .bfi d a b => .all [.g1 a, .g1 b, .g1 d]
  | .mov _ a => .g1 a
  | .lea _ a b => .all [.g1 a, .g1 b]
  | .wadr _ a b => .all [.g1 a, .g1 b]
  | .addi _ a _ => .g1 a
  | .andi _ a _ => .g1 a
  | .ori _ a _ => .g1 a
  | .xori _ a _ => .g1 a
  | .shli _ a _ => .g1 a
  | .shri _ a _ => .g1 a
  | .sari _ a _ => .g1 a
  | .lhi d _ => .g1 d
  | .vadd _ a b _ pr => .all [.v1 a, .v1 b, .p1 pr]
  | .vsub _ a b _ pr => .all [.v1 a, .v1 b, .p1 pr]
  | .vmul _ a b _ pr => .all [.v1 a, .v1 b, .p1 pr]
  | .vmulh _ a b _ pr => .all [.v1 a, .v1 b, .p1 pr]
  | .vmin _ a b _ pr => .all [.v1 a, .v1 b, .p1 pr]
  | .vmax _ a b _ pr => .all [.v1 a, .v1 b, .p1 pr]
  | .vminu _ a b _ pr => .all [.v1 a, .v1 b, .p1 pr]
  | .vmaxu _ a b _ pr => .all [.v1 a, .v1 b, .p1 pr]
  | .vand _ a b _ pr => .all [.v1 a, .v1 b, .p1 pr]
  | .vor _ a b _ pr => .all [.v1 a, .v1 b, .p1 pr]
  | .vxor _ a b _ pr => .all [.v1 a, .v1 b, .p1 pr]
  | .vshl _ a b _ pr => .all [.v1 a, .v1 b, .p1 pr]
  | .vshr _ a b _ pr => .all [.v1 a, .v1 b, .p1 pr]
  | .vsar _ a b _ pr => .all [.v1 a, .v1 b, .p1 pr]
  | .vabs _ a _ pr => .all [.v1 a, .p1 pr]
  | .vneg _ a _ pr => .all [.v1 a, .p1 pr]
  | .vadds _ a b _ pr => .all [.v1 a, .v1 b, .p1 pr]
  | .vsubs _ a b _ pr => .all [.v1 a, .v1 b, .p1 pr]
  | .vaddsu _ a b _ pr => .all [.v1 a, .v1 b, .p1 pr]
  | .vsubsu _ a b _ pr => .all [.v1 a, .v1 b, .p1 pr]
  | .vcmpeq _ a b _ pr => .all [.v1 a, .v1 b, .p1 pr]
  | .vcmpne _ a b _ pr => .all [.v1 a, .v1 b, .p1 pr]
  | .vcmplt _ a b _ pr => .all [.v1 a, .v1 b, .p1 pr]
  | .vcmple _ a b _ pr => .all [.v1 a, .v1 b, .p1 pr]
  | .vcmpltu _ a b _ pr => .all [.v1 a, .v1 b, .p1 pr]
  | .vcmpleu _ a b _ pr => .all [.v1 a, .v1 b, .p1 pr]
  | .vsel _ a b pr => .all [.v1 a, .v1 b, .p1 pr]
  | .vdot4 d a b _ pr => .all [.v1 a, .v1 b, .p1 pr, .v1 d]
  | .vdot4u d a b _ pr => .all [.v1 a, .v1 b, .p1 pr, .v1 d]
  | .fadd _ a b _ pr => .all [.v1 a, .v1 b, .p1 pr]
  | .fsub _ a b _ pr => .all [.v1 a, .v1 b, .p1 pr]
  | .fmul _ a b _ pr => .all [.v1 a, .v1 b, .p1 pr]
  | .fmin _ a b _ pr => .all [.v1 a, .v1 b, .p1 pr]
  | .fmax _ a b _ pr => .all [.v1 a, .v1 b, .p1 pr]
  | .fabs _ a _ pr => .all [.v1 a, .p1 pr]
  | .fneg _ a _ pr => .all [.v1 a, .p1 pr]
  | .fcpsgn _ a b _ pr => .all [.v1 a, .v1 b, .p1 pr]
  | .fcmpeq _ a b _ pr => .all [.v1 a, .v1 b, .p1 pr]
  | .fcmplt _ a b _ pr => .all [.v1 a, .v1 b, .p1 pr]
  | .fcmple _ a b _ pr => .all [.v1 a, .v1 b, .p1 pr]
  | .fcmpun _ a b _ pr => .all [.v1 a, .v1 b, .p1 pr]
  | .fclass _ a _ pr => .all [.v1 a, .p1 pr]
  | .fround _ a _ _ pr => .all [.v1 a, .p1 pr]
  | .cvtf _ a _ _ pr => .all [.v1 a, .p1 pr]
  | .cvtfi _ a _ _ pr => .all [.v1 a, .p1 pr]
  | .cvtif _ a _ _ pr => .all [.v1 a, .p1 pr]
  | .cvtq _ a _ _ pr => .all [.v1 a, .p1 pr]
  | .cvtdq _ a pr => .all [.v1 a, .p1 pr]
  | .cvtsr _ a _ _ pr => .all [.v1 a, .p1 pr]
  | .ffma _ a b c _ pr => .all [.v1 a, .v1 b, .v1 c, .p1 (wide pr)]
  | .ffms _ a b c _ pr => .all [.v1 a, .v1 b, .v1 c, .p1 (wide pr)]
  | .ffnma _ a b c _ pr => .all [.v1 a, .v1 b, .v1 c, .p1 (wide pr)]
  | .frcp _ a _ pr => .all [.v1 a, .p1 pr]
  | .frsq _ a _ pr => .all [.v1 a, .p1 pr]
  | .fsqrt _ a _ pr => .all [.v1 a, .p1 pr]
  | .fexp2 _ a _ pr => .all [.v1 a, .p1 pr]
  | .flog2 _ a _ pr => .all [.v1 a, .p1 pr]
  | .fsin _ a _ pr => .all [.v1 a, .p1 pr]
  | .fcos _ a _ pr => .all [.v1 a, .p1 pr]
  | .fdiv _ a b _ pr => .all [.v1 a, .v1 b, .p1 pr]
  | .vbcast _ a _ pr => .all [.g1 a, .p1 pr]
  | .vget _ a b _ pr => .all [.v1 a, .g1 b, .p1 pr]
  | .vput d a b _ pr => .all [.g1 a, .g1 b, .p1 pr, .v1 d]
  | .vperm _ a b _ pr => .all [.v1 a, .v1 b, .p1 pr]
  | .vext _ a b _ pr => .all [.v1 a, .g1 b, .p1 pr]
  | .vins d a b _ pr => .all [.v1 a, .g1 b, .p1 pr, .v1 d]
  | .vmov _ a pr => .all [.v1 a, .p1 pr]
  | .vaddi _ a _ => .v1 a
  | .vshli _ a _ => .v1 a
  | .vshri _ a _ => .v1 a
  | .wballot _ a b pr => .all [.p1 a, .g1 b, .p1 pr]
  | .wany _ a b pr => .all [.p1 a, .g1 b, .p1 pr]
  | .wall _ a b pr => .all [.p1 a, .g1 b, .p1 pr]
  | .wshfl d a b pr => .all [.v1 a, .g1 b, .p1 pr, .v1 d]
  | .wshup _ a b pr => .all [.v1 a, .g1 b, .p1 pr]
  | .wshdn _ a b pr => .all [.v1 a, .g1 b, .p1 pr]
  | .wbfly _ a b pr => .all [.v1 a, .g1 b, .p1 pr]
  | .wsum _ a b _ pr => .all [.v1 a, .g1 b, .p1 pr]
  | .wmin _ a b _ pr => .all [.v1 a, .g1 b, .p1 pr]
  | .wmax _ a b _ pr => .all [.v1 a, .g1 b, .p1 pr]
  | .wscan _ a b _ pr => .all [.v1 a, .g1 b, .p1 pr]
  | .mshape _ a => .g1 a
  | .mgo _ a b _ => .all [.vn a rows, .g1 b]
  | .msc a => .v1 a
  | .mwr _ a => .v1 a
  | .bxt _ a b pr => .all [.vn a 2, .vn b 3, .p1 pr]
  | .trix _ a b _ pr => .all [.vn a 2, .vn b 2, .p1 pr]
  | .cdec _ a b pr => .all [.v1 a, .g1 b, .p1 pr]
  | .rbase _ a b pr => .all [.v1 a, .v1 b, .p1 pr]
  | .cov _ a b _ pr => .all [.v1 a, .vn b 2, .p1 pr]
  | .hcmp d a b pr => .all [.v1 a, .v1 b, .p1 pr, .v1 d]
  | _ => {}

/-- The registers an instruction writes. -/
def writes : Instr → RegSet
  | .kget d _ => .g1 d
  | .kswp s _ => .g1 s
  | .cstart d _ _ => .g1 d
  | .cquery d _ => .g1 d
  | .wform d _ => .g1 d
  | .ld8 d _ _ => .g1 d
  | .ld8z d _ _ => .g1 d
  | .ld16 d _ _ => .g1 d
  | .ld16z d _ _ => .g1 d
  | .ld32 d _ _ => .g1 d
  | .ld32z d _ _ => .g1 d
  | .ld64 d _ _ => .g1 d
  | .vld d _ _ => .v1 d
  | .vldx d _ _ => .v1 d
  | .ldw32 d _ _ => .g1 d
  | .ldw64 d _ _ => .g1 d
  | .vldw d _ _ => .v1 d
  | .aadd d _ _ _ _ _ => .g1 d
  | .aand d _ _ _ _ _ => .g1 d
  | .aor d _ _ _ _ _ => .g1 d
  | .axor d _ _ _ _ _ => .g1 d
  | .amin d _ _ _ _ _ => .g1 d
  | .amax d _ _ _ _ _ => .g1 d
  | .aminu d _ _ _ _ _ => .g1 d
  | .amaxu d _ _ _ _ _ => .g1 d
  | .aswp d _ _ _ _ _ => .g1 d
  | .acas d _ _ _ _ _ => .g1 d
  | .afadd d _ _ _ _ _ => .g1 d
  | .adecz d _ _ _ _ _ => .g1 d
  | .rprobe d _ => .g1 d
  | .mwait d _ _ _ _ => .g1 d
  | .cpy _ _ _ _ _ _ => {}
  | .cpy2d _ _ _ _ _ _ => {}
  | .lcpNf d _ _ _ _ => .p1 d
  | .rdc _ _ _ _ _ => {}
  | .ctw d _ => .g1 d
  | .ctq d _ => .g1 d
  | .qpop d _ q => popDest q d
  | .qpopl d _ pr q => .all [.p1 pr, .vn d (popLanes q)]
  | .qpeek d _ pr q => .all [.p1 pr, popDest q d]
  | .qcnt d _ _ => .g1 d
  | .gvote d _ => .g1 d
  | .launchNb d _ => .p1 d
  | .ztst s _ _ => .v1 s
  | .add d _ _ => .g1 d
  | .sub d _ _ => .g1 d
  | .and d _ _ => .g1 d
  | .or d _ _ => .g1 d
  | .xor d _ _ => .g1 d
  | .andn d _ _ => .g1 d
  | .shl d _ _ => .g1 d
  | .shr d _ _ => .g1 d
  | .sar d _ _ => .g1 d
  | .rol d _ _ => .g1 d
  | .min d _ _ => .g1 d
  | .max d _ _ => .g1 d
  | .minu d _ _ => .g1 d
  | .maxu d _ _ => .g1 d
  | .slt d _ _ => .g1 d
  | .sltu d _ _ => .g1 d
  | .mul d _ _ => .g1 d
  | .mulh d _ _ => .g1 d
  | .mulhu d _ _ => .g1 d
  | .div d _ _ => .g1 d
  | .divu d _ _ => .g1 d
  | .rem d _ _ => .g1 d
  | .remu d _ _ => .g1 d
  | .sel d _ _ => .g1 d
  | .clz d _ => .g1 d
  | .ctz d _ => .g1 d
  | .popc d _ => .g1 d
  | .bfx d _ _ => .g1 d
  | .bfi d _ _ => .g1 d
  | .mov d _ => .g1 d
  | .lea d _ _ => .g1 d
  | .wadr d _ _ => .g1 d
  | .addi d _ _ => .g1 d
  | .andi d _ _ => .g1 d
  | .ori d _ _ => .g1 d
  | .xori d _ _ => .g1 d
  | .shli d _ _ => .g1 d
  | .shri d _ _ => .g1 d
  | .sari d _ _ => .g1 d
  | .li d _ => .g1 d
  | .lui d _ => .g1 d
  | .lhi d _ => .g1 d
  | .vadd d _ _ _ _ => .v1 d
  | .vsub d _ _ _ _ => .v1 d
  | .vmul d _ _ _ _ => .v1 d
  | .vmulh d _ _ _ _ => .v1 d
  | .vmin d _ _ _ _ => .v1 d
  | .vmax d _ _ _ _ => .v1 d
  | .vminu d _ _ _ _ => .v1 d
  | .vmaxu d _ _ _ _ => .v1 d
  | .vand d _ _ _ _ => .v1 d
  | .vor d _ _ _ _ => .v1 d
  | .vxor d _ _ _ _ => .v1 d
  | .vshl d _ _ _ _ => .v1 d
  | .vshr d _ _ _ _ => .v1 d
  | .vsar d _ _ _ _ => .v1 d
  | .vabs d _ _ _ => .v1 d
  | .vneg d _ _ _ => .v1 d
  | .vadds d _ _ _ _ => .v1 d
  | .vsubs d _ _ _ _ => .v1 d
  | .vaddsu d _ _ _ _ => .v1 d
  | .vsubsu d _ _ _ _ => .v1 d
  | .vcmpeq d _ _ _ _ => .p1 d
  | .vcmpne d _ _ _ _ => .p1 d
  | .vcmplt d _ _ _ _ => .p1 d
  | .vcmple d _ _ _ _ => .p1 d
  | .vcmpltu d _ _ _ _ => .p1 d
  | .vcmpleu d _ _ _ _ => .p1 d
  | .vsel d _ _ _ => .v1 d
  | .vdot4 d _ _ _ _ => .v1 d
  | .vdot4u d _ _ _ _ => .v1 d
  | .fadd d _ _ _ _ => .v1 d
  | .fsub d _ _ _ _ => .v1 d
  | .fmul d _ _ _ _ => .v1 d
  | .fmin d _ _ _ _ => .v1 d
  | .fmax d _ _ _ _ => .v1 d
  | .fabs d _ _ _ => .v1 d
  | .fneg d _ _ _ => .v1 d
  | .fcpsgn d _ _ _ _ => .v1 d
  | .fcmpeq d _ _ _ _ => .p1 d
  | .fcmplt d _ _ _ _ => .p1 d
  | .fcmple d _ _ _ _ => .p1 d
  | .fcmpun d _ _ _ _ => .p1 d
  | .fclass d _ _ _ => .v1 d
  | .fround d _ _ _ _ => .v1 d
  | .cvtf d _ _ _ _ => .v1 d
  | .cvtfi d _ _ _ _ => .v1 d
  | .cvtif d _ _ _ _ => .v1 d
  | .cvtq d _ _ _ _ => .v1 d
  | .cvtdq d _ _ => .v1 d
  | .cvtsr d _ _ _ _ => .v1 d
  | .ffma d _ _ _ _ _ => .v1 d
  | .ffms d _ _ _ _ _ => .v1 d
  | .ffnma d _ _ _ _ _ => .v1 d
  | .frcp d _ _ _ => .v1 d
  | .frsq d _ _ _ => .v1 d
  | .fsqrt d _ _ _ => .v1 d
  | .fexp2 d _ _ _ => .v1 d
  | .flog2 d _ _ _ => .v1 d
  | .fsin d _ _ _ => .v1 d
  | .fcos d _ _ _ => .v1 d
  | .fdiv d _ _ _ _ => .v1 d
  | .vbcast d _ _ _ => .v1 d
  | .vget d _ _ _ _ => .g1 d
  | .vput d _ _ _ _ => .v1 d
  | .vperm d _ _ _ _ => .v1 d
  | .vext d _ _ _ _ => .v1 d
  | .vins d _ _ _ _ => .v1 d
  | .vmov d _ _ => .v1 d
  | .vli d _ => .v1 d
  | .vaddi d _ _ => .v1 d
  | .vshli d _ _ => .v1 d
  | .vshri d _ _ => .v1 d
  | .wballot d _ _ _ => .g1 d
  | .wany d _ _ _ => .p1 d
  | .wall d _ _ _ => .p1 d
  | .wshfl d _ _ _ => .v1 d
  | .wshup d _ _ _ => .v1 d
  | .wshdn d _ _ _ => .v1 d
  | .wbfly d _ _ _ => .v1 d
  | .wsum d _ _ _ _ => .v1 d
  | .wmin d _ _ _ _ => .v1 d
  | .wmax d _ _ _ _ => .v1 d
  | .wscan d _ _ _ _ => .v1 d
  | .mshape d _ => .g1 d
  | .mclaim d => .g1 d
  | .mrd d _ => .v1 d
  | .bxt d _ _ _ => .v1 d
  | .trix d _ _ _ _ => .v1 d
  | .cdec d _ _ _ => .vn d 2
  | .rbase d _ _ _ => .v1 d
  | .cov d _ _ _ _ => .v1 d
  | .hcmp d _ b _ => .all [.v1 d, .v1 b]
  | _ => {}

/-- A register number advanced by a replay, modulo 32 (R195). -/
def adv (k : Nat) (r : Fin 32) : Fin 32 := Fin.ofNat 32 (r.val + k)

/-- An A-word with every field that names a v register or an accumulator row advanced by `k` (R195). -/
def advanced (k : Nat) : Instr → Instr
  | .vadd d a b t pr => .vadd (adv k d) (adv k a) (adv k b) t pr
  | .vsub d a b t pr => .vsub (adv k d) (adv k a) (adv k b) t pr
  | .vmul d a b t pr => .vmul (adv k d) (adv k a) (adv k b) t pr
  | .vmulh d a b t pr => .vmulh (adv k d) (adv k a) (adv k b) t pr
  | .vmin d a b t pr => .vmin (adv k d) (adv k a) (adv k b) t pr
  | .vmax d a b t pr => .vmax (adv k d) (adv k a) (adv k b) t pr
  | .vminu d a b t pr => .vminu (adv k d) (adv k a) (adv k b) t pr
  | .vmaxu d a b t pr => .vmaxu (adv k d) (adv k a) (adv k b) t pr
  | .vand d a b t pr => .vand (adv k d) (adv k a) (adv k b) t pr
  | .vor d a b t pr => .vor (adv k d) (adv k a) (adv k b) t pr
  | .vxor d a b t pr => .vxor (adv k d) (adv k a) (adv k b) t pr
  | .vshl d a b t pr => .vshl (adv k d) (adv k a) (adv k b) t pr
  | .vshr d a b t pr => .vshr (adv k d) (adv k a) (adv k b) t pr
  | .vsar d a b t pr => .vsar (adv k d) (adv k a) (adv k b) t pr
  | .vabs d a t pr => .vabs (adv k d) (adv k a) t pr
  | .vneg d a t pr => .vneg (adv k d) (adv k a) t pr
  | .vadds d a b t pr => .vadds (adv k d) (adv k a) (adv k b) t pr
  | .vsubs d a b t pr => .vsubs (adv k d) (adv k a) (adv k b) t pr
  | .vaddsu d a b t pr => .vaddsu (adv k d) (adv k a) (adv k b) t pr
  | .vsubsu d a b t pr => .vsubsu (adv k d) (adv k a) (adv k b) t pr
  | .vcmpeq d a b t pr => .vcmpeq d (adv k a) (adv k b) t pr
  | .vcmpne d a b t pr => .vcmpne d (adv k a) (adv k b) t pr
  | .vcmplt d a b t pr => .vcmplt d (adv k a) (adv k b) t pr
  | .vcmple d a b t pr => .vcmple d (adv k a) (adv k b) t pr
  | .vcmpltu d a b t pr => .vcmpltu d (adv k a) (adv k b) t pr
  | .vcmpleu d a b t pr => .vcmpleu d (adv k a) (adv k b) t pr
  | .vsel d a b pr => .vsel (adv k d) (adv k a) (adv k b) pr
  | .vdot4 d a b t pr => .vdot4 (adv k d) (adv k a) (adv k b) t pr
  | .vdot4u d a b t pr => .vdot4u (adv k d) (adv k a) (adv k b) t pr
  | .fadd d a b t pr => .fadd (adv k d) (adv k a) (adv k b) t pr
  | .fsub d a b t pr => .fsub (adv k d) (adv k a) (adv k b) t pr
  | .fmul d a b t pr => .fmul (adv k d) (adv k a) (adv k b) t pr
  | .fmin d a b t pr => .fmin (adv k d) (adv k a) (adv k b) t pr
  | .fmax d a b t pr => .fmax (adv k d) (adv k a) (adv k b) t pr
  | .fabs d a t pr => .fabs (adv k d) (adv k a) t pr
  | .fneg d a t pr => .fneg (adv k d) (adv k a) t pr
  | .fcpsgn d a b t pr => .fcpsgn (adv k d) (adv k a) (adv k b) t pr
  | .fcmpeq d a b t pr => .fcmpeq d (adv k a) (adv k b) t pr
  | .fcmplt d a b t pr => .fcmplt d (adv k a) (adv k b) t pr
  | .fcmple d a b t pr => .fcmple d (adv k a) (adv k b) t pr
  | .fcmpun d a b t pr => .fcmpun d (adv k a) (adv k b) t pr
  | .fclass d a t pr => .fclass (adv k d) (adv k a) t pr
  | .fround d a m t pr => .fround (adv k d) (adv k a) m t pr
  | .cvtf d a y t pr => .cvtf (adv k d) (adv k a) y t pr
  | .cvtfi d a y t pr => .cvtfi (adv k d) (adv k a) y t pr
  | .cvtif d a y t pr => .cvtif (adv k d) (adv k a) y t pr
  | .cvtq d a y t pr => .cvtq (adv k d) (adv k a) y t pr
  | .cvtdq d a pr => .cvtdq (adv k d) (adv k a) pr
  | .cvtsr d a y t pr => .cvtsr (adv k d) (adv k a) y t pr
  | .ffma d a b c t pr => .ffma (adv k d) (adv k a) (adv k b) (adv k c) t pr
  | .ffms d a b c t pr => .ffms (adv k d) (adv k a) (adv k b) (adv k c) t pr
  | .ffnma d a b c t pr => .ffnma (adv k d) (adv k a) (adv k b) (adv k c) t pr
  | .frcp d a t pr => .frcp (adv k d) (adv k a) t pr
  | .frsq d a t pr => .frsq (adv k d) (adv k a) t pr
  | .fsqrt d a t pr => .fsqrt (adv k d) (adv k a) t pr
  | .fexp2 d a t pr => .fexp2 (adv k d) (adv k a) t pr
  | .flog2 d a t pr => .flog2 (adv k d) (adv k a) t pr
  | .fsin d a t pr => .fsin (adv k d) (adv k a) t pr
  | .fcos d a t pr => .fcos (adv k d) (adv k a) t pr
  | .fdiv d a b t pr => .fdiv (adv k d) (adv k a) (adv k b) t pr
  | .vbcast d a t pr => .vbcast (adv k d) a t pr
  | .vget d a b t pr => .vget d (adv k a) b t pr
  | .vput d a b t pr => .vput (adv k d) a b t pr
  | .vperm d a b t pr => .vperm (adv k d) (adv k a) (adv k b) t pr
  | .vext d a b t pr => .vext (adv k d) (adv k a) b t pr
  | .vins d a b t pr => .vins (adv k d) (adv k a) b t pr
  | .vmov d a pr => .vmov (adv k d) (adv k a) pr
  | .vli d i => .vli (adv k d) i
  | .vaddi d a i => .vaddi (adv k d) (adv k a) i
  | .vshli d a s => .vshli (adv k d) (adv k a) s
  | .vshri d a s => .vshri (adv k d) (adv k a) s
  | .wshfl d a b pr => .wshfl (adv k d) (adv k a) b pr
  | .wshup d a b pr => .wshup (adv k d) (adv k a) b pr
  | .wshdn d a b pr => .wshdn (adv k d) (adv k a) b pr
  | .wbfly d a b pr => .wbfly (adv k d) (adv k a) b pr
  | .wsum d a b t pr => .wsum (adv k d) (adv k a) b t pr
  | .wmin d a b t pr => .wmin (adv k d) (adv k a) b t pr
  | .wmax d a b t pr => .wmax (adv k d) (adv k a) b t pr
  | .wscan d a b t pr => .wscan (adv k d) (adv k a) b t pr
  | .mzero n => .mzero (adv k n)
  | .mgo n a b r => .mgo (adv k n) (adv k a) b r
  | .msc a => .msc (adv k a)
  | .mrd d n => .mrd (adv k d) (adv k n)
  | .mwr n a => .mwr (adv k n) (adv k a)
  | .bxt d a b pr => .bxt (adv k d) (adv k a) (adv k b) pr
  | .trix d a b c pr => .trix (adv k d) (adv k a) (adv k b) c pr
  | .cdec d a b pr => .cdec (adv k d) (adv k a) b pr
  | .rbase d a b pr => .rbase (adv k d) (adv k a) (adv k b) pr
  | .cov d a b c pr => .cov (adv k d) (adv k a) (adv k b) c pr
  | .hcmp d a b pr => .hcmp (adv k d) (adv k a) (adv k b) pr
  | i => i

end Sys2Proof.Machine
end

