-- ==== Sys2Proof/Machine/Fetch.lean ====
section
/-! DEFINITION. Fetching and decoding a bundle, in the order of checks the manual gives, and whether a bundle may
issue (R28, R32 to R36, R46 to R48, R429). -/

namespace Sys2Proof.Machine

/-- A bundle: a lone word, or a C-word and an A-word. -/
inductive Bundle where
  | lone (i : Instr) (isA : Bool)
  | pair (c a : Instr)
  deriving DecidableEq, Repr

/-- A decode fault: the cause, the offset of the word at fault, whether it is the A-word, and KADDR; none where
the manual names no address. -/
structure BadBundle where
  cause : Cause
  epc : Off
  isA : Bool
  addr : Option Word
  deriving DecidableEq, Repr

/-- The 32-bit word at a ULM offset. -/
def State.codeWord (s : State) (n : Nat) (a : Off) : Nat := s.loadNat (ulmKey n a.toNat) 4

/-- Instructions that only the supervisor runs (R47). -/
def superOnly : Instr → Bool
  | .csave _ => true
  | .crest _ => true
  | .dbg _ => true
  | _ => false

/-- The first poisoned word of a bundle (R429). -/
def State.poisonedWord (s : State) (n : Nat) (p : Off) (size : Nat) : Option Word :=
  if s.poisoned (ulmKey n p.toNat) then some (p.setWidth 64)
  else if size = 8 ∧ s.poisoned (ulmKey n (p + 4).toNat) then some ((p + 4).setWidth 64)
  else none

/-- Steps 2 to 6 of R46 for a lone word at `p`. -/
def checkLone (super : Bool) (p : Off) (w : Nat) : Except BadBundle Bundle :=
  match decodeNat w with
  | none => .error ⟨Cause.illop, p, false, none⟩
  | some i => if superOnly i && !super then .error ⟨Cause.priv, p, false, none⟩ else .ok (.lone i (isAClass w))

/-- Both words of a pair write one register, whatever their modifiers and reserved fields hold (R34, step 2 of R46);
a word whose function code is reserved writes none. -/
def sameDestination (w w2 : Nat) : Bool :=
  match decodeWith 0 w, decodeWith 0 w2 with
  | some c, some a => (writes c).meets (writes a)
  | _, _ => false

/-- Steps 2 to 6 of R46 for a pair at `p`. -/
def checkPair (super : Bool) (p : Off) (w w2 : Nat) : Except BadBundle Bundle :=
  let framing : BadBundle := ⟨Cause.badpair, p, false, some (p.setWidth 64)⟩
  let first (st : Nat) : Option BadBundle :=
    if refusedAt w = st then some ⟨Cause.illop, p, false, none⟩
    else if refusedAt w2 = st then some ⟨Cause.illop, p + 4, true, none⟩
    else none
  if isAClass w || isLone w2 || !isAClass w2 then .error framing
  else if ((decodeWith 0 w).map loneOnly).getD false || sameDestination w w2 then .error framing
  else
    match decodeNat w, decodeNat w2 with
    | some c, some a =>
      if superOnly c && !super then .error ⟨Cause.priv, p, false, none⟩
      else .ok (.pair c a)
    | _, _ => .error (((first 3).orElse fun _ => (first 4).orElse fun _ => first 5).getD framing)

/-- The bundle at `p` is in the fetch buffer, and what it was read from has not changed since (R149, R225). -/
def State.buffered (s : State) (n : Nat) (buf : List (Off × Nat × Nat)) (p : Off) : Bool :=
  buf.contains (p, s.codeWord n p, s.codeWord n (p + 4))

/-- The fetch check of a bundle (R28, R33): the C-word, then the A-word of a pair; the word that fails is the one the
fault names (R46). -/
def State.fetchCheck (s : State) (n : Nat) (super : Bool) (p : Off) (size : Nat) : Option BadBundle :=
  let at_ : Off := if size = 8 then p + 4 else p
  (segCheck (s.core n).kseg super p.toNat size { x := true }).map fun c => ⟨c, at_, decide (size = 8), some (at_.setWidth 64)⟩

/-- The bundle at `p`, fetched in the mode of the context (R33, R46). A bundle in the fetch buffer is not checked again
(R29, R225). -/
def State.fetch (s : State) (n : Nat) (super : Bool) (p : Off) (buf : List (Off × Nat × Nat) := []) : Except BadBundle Bundle :=
  let check (size : Nat) : Option BadBundle := if s.buffered n buf p then none else s.fetchCheck n super p size
  match check 4 with
  | some b => .error b
  | none =>
    let w := s.codeWord n p
    if isLone w then
      match s.poisonedWord n p 4 with
      | some a => .error ⟨Cause.poison, p, false, some a⟩
      | none => checkLone super p w
    else if p.toNat % 8 = 4 then .error ⟨Cause.badpair, p, false, some (p.setWidth 64)⟩
    else
      match check 8 with
      | some b => .error b
      | none =>
        match s.poisonedWord n p 8 with
        | some a => .error ⟨Cause.poison, p, false, some a⟩
        | none => checkPair super p w (s.codeWord n (p + 4))

/-- The A-word at `p`, executed as a lone word whatever its L bit (R112, R457). The rules speak of an A-word alone: a word that
a write has put there is executed whatever its class, in the mode it needs (R47; DESIGN CHOICE, log 70). -/
def State.fetchAWord (s : State) (n : Nat) (super : Bool) (p : Off) : Except BadBundle Bundle :=
  match segCheck (s.core n).kseg super p.toNat 4 { x := true } with
  | some c => .error ⟨c, p, true, some (p.setWidth 64)⟩
  | none =>
    match s.poisonedWord n p 4 with
    | some a => .error ⟨Cause.poison, p, true, some a⟩
    | none =>
      match decodeNat (s.codeWord n p) with
      | none => .error ⟨Cause.illop, p, true, none⟩
      | some i => if superOnly i && !super then .error ⟨Cause.priv, p, true, none⟩ else .ok (.lone i true)

/-- Instructions a deferring c0 does not begin (R326). -/
def heldByDeferral : Instr → Bool
  | .csave _ => true
  | .crest _ => true
  | .rep _ _ _ => true
  | .mgo _ _ _ _ => true
  | _ => false

def Bundle.deferHeld : Bundle → Bool
  | .lone i _ => heldByDeferral i
  | .pair c a => heldByDeferral c || heldByDeferral a

/-- The rows of A that an `mgo` of a context reads: the M of KMSHAPE, and none of an `mgo` that the operand latch serves
(R187, R189). -/
def Core.rowsRead (k : Core) (x : Context) (i : Instr) : Nat :=
  match i with
  | .mgo _ a _ true => if (k.latch.map Latch.a5) = some a.val then 0 else (x.k.mshape.extractLsb' 0 8).toNat % 9
  | _ => (x.k.mshape.extractLsb' 0 8).toNat % 9

/-- What a bundle reads and writes; `m` gives the rows that an `mgo` reads. -/
def Bundle.uses (m : Instr → Nat) : Bundle → RegSet
  | .lone i _ => (reads (m i) i).or (writes i)
  | .pair c a => (RegSet.all [reads (m c) c, writes c, reads (m a) a, writes a])
def Bundle.readSet (m : Instr → Nat) : Bundle → RegSet
  | .lone i _ => reads (m i) i
  | .pair c a => (reads (m c) c).or (reads (m a) a)

/-- The registers of a context with a write pending. -/
def Context.pending (x : Context) : RegSet := { g := x.gPend, v := x.vPend, p := x.pPend }

/-- A destination as a register set. -/
def Dest.set : Dest → RegSet
  | .none => {}
  | .g r => .g1 r
  | .v r _ => .v1 r
  | .p r => .p1 r

/-- The registers a formation writes beside gD: the payload, and every register of a reorder wave's member (R107). -/
def Formed.dests (f : Formed) : RegSet :=
  if f.resume.isSome then { g := BitVec.allOnes 32, v := BitVec.allOnes 32, p := BitVec.allOnes 8 }
  else { v := BitVec.ofNat 32 (2 ^ f.regs - 1) }

/-- Some register of the bundle has a write pending, among them those that the formation of its `wform` writes (R48). -/
def Context.held (x : Context) (m : Instr → Nat) (b : Bundle) : Bool :=
  (b.uses m).meets x.pending ||
  match x.wake with
  | some (.formed f) => f.dests.meets x.pending
  | _ => false

/-- The bundle reads the destination of a refused load (R153). -/
def Context.readsRefused (x : Context) (m : Instr → Nat) (b : Bundle) : Bool :=
  x.reports.any fun r => (b.readSet m).meets r.dst.set

end Sys2Proof.Machine
end

