-- ==== Sys2Proof/Machine/Waves.lean ====
section
/-! DEFINITION. Forming waves, the barrier of a wave, and sending lanes back to the hit sorter (R106 to R109, R218,
R220, R283, R284). -/

namespace Sys2Proof.Machine

/-! ### The hit sorter -/

/-- Places an entry takes (R220). -/
def HitEntry.places (e : HitEntry) : Nat := if e.resume.isSome then 2 else 1
def sorterPlaces (l : List HitEntry) : Nat := (l.map HitEntry.places).sum

/-- The cores of a bed. -/
def bedCores (b : Nat) : List Nat := (List.range 8).map fun i => 8 * b + i

/-- Contexts of a bed with a property, with their place in age: time of the stall, core, context. -/
def State.bedWaiters (s : State) (cores : List Nat) (f : Context → Bool) : List (Nat × Nat × Fin 11) :=
  cores.flatMap fun n => ((List.range 11).map (Fin.ofNat 11)).filterMap fun c =>
    let k := s.core n
    let x := k.ctxs[c]
    if decide (k.run = .running) && x.live && !x.susp && f x then
      x.block.map fun b => (b.since, n, c)
    else none

/-- The oldest of some waiters, ties to the lower core and context. -/
def oldest : List (Nat × Nat × Fin 11) → Option (Nat × Nat × Fin 11)
  | [] => none
  | a :: l =>
    match oldest l with
    | none => some a
    | some b => if b.1 < a.1 then some b else some a

/-- A context waits in `wform`, not yet formed. -/
def Context.forming (x : Context) : Bool :=
  decide (x.block.map Block.kind = some .wform) && x.req.isSome && x.wake.isNone

/-- An entry has its number in the order of arrivals (R215). -/
def State.numbered (s : State) (e : HitEntry) : HitEntry × State :=
  let (n, s) := s.newId
  ({ e with num := n }, s)

/-! ### What a formation gives (R107) -/

/-- Payload of the entries written into v registers, lane by lane; a lane without an entry gets 0 (R107). -/
def Core.deal (k : Core) (x : Fin 11) (c regs : Nat) (es : List HitEntry) : Core :=
  (List.range regs).foldl (fun k j =>
    let vals : VReg := (List.range 4).foldl (fun v l => setLane l v (((es[4 * c + l]?).bind fun e => e.words[j]?).getD 0)) 0
    let marks : Mask := (List.range 4).foldl (fun m l =>
      withBit m l (((es[4 * c + l]?).bind fun e => e.marks[j]?).getD false)) 0
    k.writeV x (Fin.ofNat 32 j) 0xF vals marks) k

/-- The other state of a reorder wave's member (R107, R220). -/
def Core.reordered (k : Core) (x : Fin 11) : Core :=
  let k := (List.range 32).foldl (fun k i =>
    let r := Fin.ofNat 32 i
    if r = 29 ∨ r = 30 then k else k.writeG x r 0) k
  let k := (List.range 8).foldl (fun k i => k.writeP x (Fin.ofNat 8 i) 0xF 0) k
  let k := (List.range 24).foldl (fun k i => k.writeV x (Fin.ofNat 32 (8 + i)) 0xF 0) k
  k.modCtx x fun y => { y with f.depth := 0, f.spilled := 0 }

/-- What a formation gives a member: payload, KWAVE, KLANE and mask (R107). -/
def Core.form (k : Core) (x : Fin 11) (c : Nat) (f : Formed) : Core :=
  let k := k.deal x c f.regs f.entries
  let k := if f.resume.isSome then k.reordered x else k
  k.modCtx x fun y => { y.joins f with f.kmask := f.own.getD y.f.kmask }

/-! ### Asking for a wave (R106) -/

/-- Join the formation of a wave (R106, R107): the result comes with the formation. A member that goes on at the resume offset
of reorder entries has gD cleared with the other g registers (R107, R302; DEDUCED, log 31). -/
def execWform (d a : Fin 32) (s : State) : Result :=
  s.scalar [a] <|
    match s.cx.wake with
    | some (.formed f) =>
      let s := ((s.modCx fun x => { x with wake := none, req := none }).setG d f.gd).modHere fun k =>
        k.form s.cur.ctx (s.cur.core % 8) f
      match f.resume with
      | some r => s.setPc r
      | none => s
    | some (.fault c) => (s.modCx fun x => { x with wake := none, req := none }).faultOpen c
    | _ =>
      if s.cx.f.kmsd ≠ 0 then s.faultMstack
      else
        let s := s.leaveWave s.cur.core s.cur.ctx
        let arg : EvArg := { group := bedOf s.cur.core, core := s.cur.core }
        ((s.modCx fun x => { x with req := some (s.g a) }).post .waveFormation arg).stall .wform

/-- A bin by its key, in arrival order. -/
def Bed.bin (b : Bed) (key : Byte) : List HitEntry := b.sorter.filter fun e => decide (e.key = key)

/-- A bin qualifies (R284). -/
def binQualifies (full : Bool) (now tmo : Nat) (bin : List HitEntry) : Bool :=
  match bin with
  | [] => false
  | e :: _ => decide (32 ≤ bin.length) || (decide (tmo ≠ 0) && decide (tmo ≤ now - e.stamp.toNat)) || full

/-- The smallest non-zero KWTMO of the participants; 0 when every one is 0 (R106). -/
def minTimeout : List Nat → Nat
  | [] => 0
  | t :: l => let m := minTimeout l; if t = 0 then m else if m = 0 then t else min t m

/-- The bin a formation uses: the key given, or the fullest qualifying bin, ties to the lowest key (R106). -/
def Bed.choose (b : Bed) (req : Word) (now tmo : Nat) : Option Byte :=
  let full := decide (256 ≤ sorterPlaces b.sorter)
  if bitOf req 8 then
    ((List.range 256).map (BitVec.ofNat 8)).foldl (fun (best : Option Byte) k =>
      if binQualifies full now tmo (b.bin k) then
        match best with
        | none => some k
        | some j => if (b.bin j).length < (b.bin k).length then some k else best
      else best) none
  else
    let k : Byte := req.setWidth 8
    if binQualifies full now tmo (b.bin k) then some k else none

/-- The entries a wave takes: those of the oldest entry's kind and resume offset, up to 32 (R107). -/
def takeEntries (bin : List HitEntry) : List HitEntry :=
  match bin with
  | [] => []
  | e :: _ => (bin.filter fun x => decide (x.resume = e.resume)).take 32

/-- The sorter without the entries a wave takes: of the key, kind and resume offset, the first 32 (R107). -/
def dropEntries (key : Byte) (es : List HitEntry) (l : List HitEntry) : List HitEntry :=
  let same (e : HitEntry) : Bool := decide (e.key = key) && decide (es.head?.map HitEntry.resume = some e.resume)
  (l.foldl (fun (r : Nat × List HitEntry) e => if same e && decide (r.1 < es.length) then (r.1 + 1, r.2) else (r.1, e :: r.2))
    (0, [])).2.reverse

/-- The lanes of core place `c` that have an entry, of `n` dealt (R107). -/
def ownLanes (c n : Nat) : Mask :=
  (List.range 4).foldl (fun m l => withBit m l (decide (4 * c + l < n))) 0

/-- KLANE of a member: byte L is 4c + L for an own lane and 0xFF otherwise (R107). -/
def klaneOf (c : Nat) (own : Mask) : Word :=
  (List.range 4).foldl (fun w l => setElem 8 l w (if bitOf own l then BitVec.ofNat 8 (4 * c + l) else 0xFF)) 0

/-- One participant of a formation: what its `wform` takes when it issues (R107). -/
def State.join (s : State) (n : Nat) (x : Fin 11) (plain : Bool) (num : Nat) (es : List HitEntry) (members : BitVec 32)
    (key : Byte) : State :=
  let c := n % 8
  let resume := (es.head?).bind HitEntry.resume
  let own : Mask := if plain then (s.ctx n x).f.kmask else ownLanes c es.length
  let gd : Word := members.setWidth 64 ||| (if plain then (0 : Word) else (key.setWidth 64 : Word) <<< 32) |||
    (ofBool 64 resume.isSome <<< 40)
  let f : Formed :=
    if own = 0 then { gd := gd }
    else
      { gd := gd, wave := some (BitVec.ofNat 64 (2 ^ 31 + num), klaneOf c own), own := if plain then none else some own,
        regs := if plain then 0 else if resume.isSome then 8 else 4, entries := es, resume := resume }
  s.modCtx n x fun y => { y with wake := some (.formed f) }

/-- VALUE1 of a FORM entry of a plain wave, which has no bin: gA with PLAIN alone (R436, R438; DESIGN CHOICE, log 71). -/
def plainBin : Word := 0x200

/-- The bed's formations are made as a record gives them (R440). -/
def State.formsReplay (s : State) (b : Nat) : Bool :=
  decide (2 ≤ (s.core (8 * b)).brineLevel) && (s.core (8 * b)).brineReplay

/-- The next recorded event, where it is a formation of the bed: its bin and how many entries it took (R436, R440). -/
def State.brineForm (s : State) (b : Nat) : Option (Byte × Nat) :=
  ((s.brineNext (s.core (8 * b)).launch 9 (8 * b) 0).filter fun v => decide (v.1.toNat < 256)).map fun v =>
    (v.1.setWidth 8, (List.range 32).countP fun i => bitOf v.2 i)

/-- A plain formation is the next recorded event (R436, R440). -/
def State.brinePlain (s : State) (b : Nat) (members : BitVec 32) : Bool :=
  decide (s.brineNext (s.core (8 * b)).launch 9 (8 * b) 0 = some (plainBin, members.setWidth 64))

/-- A formation of a bed, when its eight requests stand and agree and a bin qualifies (R106, R107, R436); in a replay, as the next
recorded entry gives it (R440). -/
def execWaveFormation (s : State) : Result :=
  let b := s.ev.group
  let reqs := (bedCores b).filterMap fun n => oldest (s.bedWaiters [n] Context.forming)
  let reqOf (w : Nat × Nat × Fin 11) : Word := ((s.ctx w.2.1 w.2.2).req.getD 0) &&& 0x3FF
  .next <|
    if reqs.length < 8 then s
    else match reqs with
      | [] => s
      | w :: _ =>
        if reqs.any fun v => decide (reqOf v ≠ reqOf w) then
          reqs.foldl (fun s v => s.modCtx v.2.1 v.2.2 fun x => { x with wake := some (.fault Cause.wmask) }) s
        else
          let num := (s.bed b).forms.toNat
          let l := (s.core (8 * b)).launch
          let count (s : State) : State := s.modBed b fun x => { x with forms := x.forms + 1 }
          if bitOf (reqOf w) 9 then
            let members : BitVec 32 := reqs.foldl (fun m v =>
              setElem 4 (v.2.1 % 8) m (s.ctx v.2.1 v.2.2).f.kmask) 0
            let form (s : State) : State := count (reqs.foldl (fun s v => s.join v.2.1 v.2.2 true num [] members 0) s)
            if s.formsReplay b then
              if s.brinePlain b members then form (s.brineTake l (8 * b)) else s.post .waveFormation s.ev
            else form (s.brineRecord 2 l (8 * b) 0 9 plainBin (members.setWidth 64))
          else
            let tmo := minTimeout ((bedCores b).map fun n => (s.core n).kwtmo.toNat)
            let es (key : Byte) : List HitEntry := takeEntries ((s.bed b).bin key)
            let form (s : State) (key : Byte) (es : List HitEntry) : State :=
              let members : BitVec 32 := BitVec.ofNat 32 (2 ^ es.length - 1)
              let s := s.modBed b fun x => { x with sorter := dropEntries key es x.sorter }
              let s := reqs.foldl (fun s v => s.join v.2.1 v.2.2 false num es members key) s
              let s := s.brineRecord 2 l (8 * b) 0 9 (key.setWidth 64) (members.setWidth 64)
              (count s).post .overflowReturn { core := 8 * b, qport := .q1 }
            if s.formsReplay b then
              match s.brineForm b with
              | some (key, n) =>
                if n ≤ (es key).length then form (s.brineTake l (8 * b)) key ((es key).take n)
                else s.post .waveFormation s.ev
              | none => s.post .waveFormation s.ev
            else match (s.bed b).choose (reqOf w) (s.kcycle (8 * b)).toNat tmo with
              | none => s
              | some key => form s key (es key)

/-- Time passes for the oldest entry of a bin (R106, R284): the formation is looked at again. -/
def execPartialWaveTimeout (s : State) : Result :=
  .next (s.post .waveFormation { group := s.ev.group })

/-! ### The barrier of a wave (R108) -/

/-- The wave lanes of a context's lanes, by KLANE (R21, R107). -/
def Context.waveLanes (x : Context) (m : Mask) : BitVec 32 :=
  (lanesOf m).foldl (fun w l =>
    let i := (elem 8 l x.k.lane).toNat
    if i < 32 then withBit w i true else w) 0

/-- A barrier among the members of the wave (R108). -/
def execWsync (a : Fin 32) (s : State) : Result :=
  s.scalar [a] <|
    match s.cx.wake with
    | some .synced => s.modCx fun x => { x with wake := none, req := none }
    | some (.fault c) => (s.modCx fun x => { x with wake := none, req := none }).faultOpen c
    | _ =>
      let x := s.cx
      let named : BitVec 32 := (s.g a).setWidth 32
      let lanes := x.waveLanes s.src.f.kmask
      if !x.inWave || decide (lanes &&& ~~~named ≠ 0) then s.faultOpen Cause.wmask
      else if !s.released then s.stall .other
      else
        ((s.modCx fun x => { x with req := some (s.g a) }).post .wsyncComplete
          { group := bedOf s.cur.core, id := x.waveNo }).stall .wsync

/-- A live member of a wave of a bed. -/
def State.members (s : State) (b num : Nat) : List (Nat × Fin 11) :=
  (bedCores b).flatMap fun n => ((List.range 11).map (Fin.ofNat 11)).filterMap fun c =>
    let x := (s.ctx n c).asFormed
    if x.live && x.inWave && decide (x.waveNo = num) then some (n, c) else none

/-- The oldest pending `wsync` of a wave completes, or its masks differ (R108). -/
def execWsyncComplete (s : State) : Result :=
  let b := s.ev.group
  let num := s.ev.id
  let waits (x : Context) : Bool :=
    decide (x.block.map Block.kind = some .wsync) && x.req.isSome && x.wake.isNone && x.inWave && decide (x.waveNo = num)
  .next <|
    match oldest (s.bedWaiters (bedCores b) waits) with
    | none => s
    | some w =>
      let mask (n : Nat) (c : Fin 11) : BitVec 32 := ((s.ctx n c).req.getD 0).setWidth 32
      let named := mask w.2.1 w.2.2
      let parts := (s.members b num).filter fun p => decide ((s.ctx p.1 p.2).asFormed.waveLanes 0xF &&& named ≠ 0)
      if parts.all fun p => waits (s.ctx p.1 p.2) && !(s.ctx p.1 p.2).susp then
        let wake : Wake := if parts.all fun p => decide (mask p.1 p.2 = named) then .synced else .fault Cause.wmask
        (parts.foldl (fun s p => s.modCtx p.1 p.2 fun x => { x with wake := some wake }) s).post .wsyncComplete
          { group := b, id := num }
      else s

/-! ### Back to the sorter (R109) -/

/-- The reorder entry of a lane: v0 to v7 with their marks (R109). -/
def State.reorderEntry (s : State) (key : Byte) (resume : Off) (l : Nat) : HitEntry :=
  { key := key, resume := some resume,
    words := (List.range 8).map fun j => lane l (s.v (Fin.ofNat 32 j)),
    marks := (List.range 8).map fun j => bitOf (s.src.vBad (Fin.ofNat 32 j)) l,
    stamp := s.kcycle s.cur.core }

/-- Entries enter the sorter of a bed in order, numbered as they arrive, each an event of Brine; none while a replay has to hold
one (R109, R215, R436, R440). -/
def State.sorterTakes (s : State) (l b : Nat) (w : Sender) : List HitEntry → Option State
  | [] => some s
  | e :: rest =>
    (s.brineFrom 8 l (8 * b) w (e.key.setWidth 64)).bind fun t =>
      let (e, t) := t.numbered e
      (t.modBed b fun x => { x with sorter := x.sorter ++ [e] }).sorterTakes l b w rest

/-- Every active lane goes back to the hit sorter, and the context ends (R109). KADDR of its ALIGN is gB, which the rule does
not say (DESIGN CHOICE, log 70). -/
def execReord (a b : Fin 32) (s : State) : Result :=
  let bed := bedOf s.cur.core
  let es := (lanesOf s.src.f.kmask).map (s.reorderEntry ((s.g a).setWidth 8) ((s.g b).setWidth 17))
  .next <|
    if s.cx.f.kmsd ≠ 0 then s.faultMstack
    else if s.cur.ctx = 0 then s.faultOpen Cause.illop
    else if [a, b].any s.src.gBad then s.faultPoison
    else if (s.g b).toNat % 4 ≠ 0 then s.fault Cause.align (s.g b)
    else if !s.drained then s.stall .other
    else s.desyncFirst <| s.reportsFirst <|
      if 256 < sorterPlaces (s.bed bed).sorter + sorterPlaces es then s.stall .reord
      else
        match s.sorterTakes s.here.launch bed (s.sender s.cur.core s.cur.ctx) es with
        | none => s.stall .reord
        | some t =>
          (((t.post .waveFormation { group := bed }).post .partialWaveTimeout { group := bed }).post .overflowReturn
            { core := 8 * bed, qport := .q1 }).endContext

end Sys2Proof.Machine
end

