-- ==== Sys2Proof/Machine/Queues.lean ====
section
/-! DEFINITION. The queues of a core and the hit sorter of a bed, their overflow areas, sends, and the arrivals
(R167 to R172, R215, R216, R282, R283, R320, R332). -/

namespace Sys2Proof.Machine

/-! ### Pans (R310) -/

/-- Width and height of a launch's pan (R310). -/
def Launch.width (l : Launch) : Nat := l.r.panw + 1
def Launch.height (l : Launch) : Nat := l.r.panh + 1

/-- Pan-relative position of a core. -/
def Launch.relX (l : Launch) (c : Nat) : Nat := c % 256 - l.corner % 256
def Launch.relY (l : Launch) (c : Nat) : Nat := c / 256 - l.corner / 256

/-- A core lies in the launch's pan. -/
def Launch.holds (l : Launch) (c : Nat) : Bool :=
  decide (l.corner % 256 ≤ c % 256) && decide (l.relX c < l.width) &&
  decide (l.corner / 256 ≤ c / 256) && decide (l.relY c < l.height)

/-! ### Overflow areas (R172, R282) -/

/-- log2 S of a launch, its area for a core, and the ring of a port in it: base and entries (R282). -/
def Launch.ovfLog (l : Launch) : Nat := min 26 (max 16 (l.r.ovfl % 32))
def Launch.ovfArea (l : Launch) (c : Nat) : Nat :=
  l.r.ovfl % 2 ^ 56 / 4096 * 4096 + 2 ^ l.ovfLog * (l.relY c * l.width + l.relX c)
def Launch.ring (l : Launch) (c : Nat) (p : Port) : Nat × Nat :=
  let e := 2 ^ l.ovfLog / 8
  match p with
  | .q0 => (l.ovfArea c, 4 * e / 64)
  | .q1 => (l.ovfArea c + 4 * e, 2 * e / 32)
  | .q2 => (l.ovfArea c + 6 * e, e / 16)
  | .q3 => (l.ovfArea c + 7 * e, e / 8)

/-- A ring that fills ends the launch (R282). -/
def State.ringFull (s : State) (l c : Nat) (p : Port) : State :=
  let a := ((s.launch? l).map fun x => (x.ring c p).1).getD 0
  s.post .launchEnd { launch := l, info := ⟨Cause.launchbad, c, 0, 0, 0, BitVec.ofNat 64 a⟩ }

/-- Entries a ring holds. -/
def State.ringRoom (s : State) (l c : Nat) (p : Port) : Nat :=
  ((s.launch? l).map fun x => (x.ring c p).2).getD 0

/-! ### The queues of a core -/

/-- A queue, its overflow ring, and its capacity (R6, R170). -/
def Core.queue (k : Core) : Port → List QEntry
  | .q0 => k.q0
  | .q1 => []
  | .q2 => k.q2
  | .q3 => k.q3
def Core.over (k : Core) : Port → List QEntry
  | .q0 => k.ov0
  | .q1 => []
  | .q2 => k.ov2
  | .q3 => k.ov3
def portCap : Port → Nat
  | .q0 => 32
  | .q1 => 256
  | .q2 => 32
  | .q3 => 64
/-- Bytes of an entry of a ring (R282). -/
def portBytes : Port → Nat
  | .q0 => 64
  | .q1 => 32
  | .q2 => 16
  | .q3 => 8

def Core.setQueue (k : Core) (p : Port) (l : List QEntry) : Core :=
  match p with
  | .q0 => { k with q0 := l }
  | .q1 => k
  | .q2 => { k with q2 := l }
  | .q3 => { k with q3 := l }
def Core.setOver (k : Core) (p : Port) (l : List QEntry) : Core :=
  match p with
  | .q0 => { k with ov0 := l }
  | .q1 => k
  | .q2 => { k with ov2 := l }
  | .q3 => { k with ov3 := l }

/-- The read index (0) or write index (1) of a ring goes on (R331). -/
def Core.ringStep (k : Core) (p : Port) (w : Nat) : Core :=
  let i : Fin 8 := Fin.ofNat 8 (2 * p.code + w)
  { k with ovIdx := k.ovIdx.set i (k.ovIdx[i] + 1) }

/-- Where slot `i` of a ring stands in main memory; none while its page is not there (R282; DESIGN CHOICE, log 11). -/
def State.ringPlace (s : State) (l c : Nat) (p : Port) (i : Nat) (write : Bool) : Option Nat :=
  (s.launch? l).bind fun x =>
    let r := x.ring c p
    s.quietPlace x.pasid (r.1 + portBytes p * (i % r.2)) write

/-- Words written to a slot of a ring, with the sectors of marked words poisoned (R282, R428); the state and whether the
slot is there. -/
def State.putRing (s : State) (l c : Nat) (p : Port) (i : Nat) (words : List Word) (marks : List Bool) : State × Bool :=
  match s.ringPlace l c p i true with
  | none => (s, false)
  | some pa =>
    ((List.range words.length).foldl (fun (t : State) j => if marks[j]?.getD false then t.setPoison (pa + 8 * j) else t)
      (s.storeClean pa (words.flatMap fun w => natBytes w.toNat 8)), true)

/-- The words of a slot of a ring with their marks; as they were written, where the slot is not there. -/
def State.getRing (s : State) (l c : Nat) (p : Port) (i : Nat) (words : List Word) (marks : List Bool) :
    List Word × List Bool :=
  match s.ringPlace l c p i false with
  | none => (words, marks)
  | some pa =>
    ((List.range words.length).map fun j => BitVec.ofNat 64 (s.loadNat (pa + 8 * j) 8),
     (List.range words.length).map fun j => marks[j]?.getD false || s.poisoned (pa + 8 * j))

/-- An entry as it comes back from its ring (R172). -/
def State.backFromRing (s : State) (l c : Nat) (p : Port) (i : Nat) (e : QEntry) : QEntry :=
  if e.ring then
    let r := s.getRing l c p i e.words e.marks
    { words := r.1, marks := r.2 }
  else e

/-- An entry put behind those that wait in a ring (R172, R282). -/
def State.pushRing (s : State) (l c : Nat) (p : Port) (e : QEntry) : State :=
  let r := s.putRing l c p ((s.coreOf l c).ovIdx[Fin.ofNat 8 (2 * p.code + 1)]).toNat e.words e.marks
  r.1.modCoreOf l c fun k => (k.setOver p (k.over p ++ [{ e with ring := r.2 }])).ringStep p 1

/-- An entry arrives at a queue of a core of a launch: into the queue, or into its ring while the queue is full, entries
wait there, or the core is saved; a ring without room ends the launch (R172, R282, R332). -/
def State.pushPort (s : State) (l c : Nat) (p : Port) (e : QEntry) : State :=
  let k := s.coreOf l c
  let inRing := !(s.live l c) || !(k.over p).isEmpty || decide (portCap p ≤ (k.queue p).length)
  if inRing then if s.ringRoom l c p ≤ (k.over p).length then s.ringFull l c p else s.pushRing l c p e
  else s.modCoreOf l c fun k => k.setQueue p (k.queue p ++ [e])

/-- Entries of the ring of a port of a core return, in order, while the queue has room; at most `n` (R172). -/
def State.refillPort (s : State) (c : Nat) (p : Port) : Nat → State
  | 0 => s
  | n + 1 =>
    let k := s.core c
    match k.over p with
    | [] => s
    | e :: rest =>
      if portCap p ≤ (k.queue p).length then s
      else
        let e := s.backFromRing k.launch c p (k.ovIdx[Fin.ofNat 8 (2 * p.code)]).toNat e
        (s.modCore c fun k => ((k.setQueue p (k.queue p ++ [e])).setOver p rest).ringStep p 0).refillPort c p n

/-- The entries of a queue are written to the front of its ring: its read index goes back (R332). -/
def State.flushPort (s : State) (c : Nat) (p : Port) : State :=
  let k := s.core c
  let i : Fin 8 := Fin.ofNat 8 (2 * p.code)
  let front := k.ovIdx[i] - BitVec.ofNat 64 (k.queue p).length
  let r := (k.queue p).zipIdx.foldl (fun (r : State × List QEntry) e =>
    let u := r.1.putRing k.launch c p (front + BitVec.ofNat 64 e.2).toNat e.1.words e.1.marks
    (u.1, r.2 ++ [{ e.1 with ring := u.2 }])) (s, [])
  r.1.modCore c fun k => { (k.setOver p (r.2 ++ k.over p)).setQueue p [] with ovIdx := k.ovIdx.set i front }

/-! ### The hit sorter (R172, R283) -/

/-- Whether an entry of the sorter came before another (R215, R283). -/
def HitEntry.before (a b : HitEntry) : Bool := decide (a.num ≤ b.num)

/-- An entry of a ring takes its place in the order of arrival (R172, R215, R283). -/
def insertHit (e : HitEntry) : List HitEntry → List HitEntry
  | [] => [e]
  | x :: l => if x.before e then x :: insertHit e l else e :: x :: l

/-- The slots of 32 bytes an entry of the sorter takes in the ring: their words and marks, four at a time (R220, R282). -/
def HitEntry.parts (e : HitEntry) : List (List Word × List Bool) :=
  (List.range e.places).map fun i => ((e.words.drop (4 * i)).take 4, (e.marks.drop (4 * i)).take 4)

/-- An entry of the sorter written to the ring of its bed from slot `i` on (R282). -/
def State.putHit (s : State) (l b i : Nat) (e : HitEntry) : State × HitEntry :=
  let r := e.parts.zipIdx.foldl (fun (r : State × Bool) x =>
    let u := r.1.putRing l (8 * b) .q1 (i + x.2) x.1.1 x.1.2
    (u.1, r.2 && u.2)) (s, true)
  (r.1, { e with ring := r.2 })

/-- An entry of the sorter as it comes back from its ring: key, kind and stamp stay with it (R172, R283; log 11). -/
def State.getHit (s : State) (l b i : Nat) (e : HitEntry) : HitEntry :=
  if e.ring then
    let r := e.parts.zipIdx.map fun x => s.getRing l (8 * b) .q1 (i + x.2) x.1.1 x.1.2
    { e with words := r.flatMap Prod.fst, marks := r.flatMap Prod.snd, ring := false }
  else e

/-- Some context of a bed waits in `reord` (R220). -/
def State.reordWaits (s : State) (b : Nat) : Bool :=
  (bedCores b).any fun n => (s.core n).ctxs.toList.any fun x =>
    x.live && !x.susp && decide (x.block.map Block.kind = some .reord)

/-- A hit record arrives at a bed of a launch: into the sorter, or into the ring while entries wait there, the sorter
is full, a `reord` waits for room, or the bed is saved (R172, R220, R283). -/
def State.pushHit (s : State) (l b : Nat) (e : HitEntry) : State :=
  let (e, s) := s.numbered e
  let bed := s.bedFor l b
  let inRing := !(s.live l (8 * b)) || !bed.spill.isEmpty || decide (256 ≤ sorterPlaces bed.sorter) || s.reordWaits b
  if inRing then
    if s.ringRoom l (8 * b) .q1 < sorterPlaces bed.spill + e.places then s.ringFull l (8 * b) .q1
    else
      let r := s.putHit l b bed.ovIdx[1].toNat e
      r.1.modBedFor l b fun x =>
        { x with spill := x.spill ++ [r.2], ovIdx := x.ovIdx.set 1 (x.ovIdx[1] + BitVec.ofNat 64 e.places) }
  else ((s.modBed b fun x => { x with sorter := x.sorter ++ [e] }).post .waveFormation { group := b }).post
    .partialWaveTimeout { group := b }

/-- Entries of the ring of a bed return to the sorter, in order, while it has room; at most `n` (R172, R283). -/
def State.refillBed (s : State) (b : Nat) : Nat → State
  | 0 => s
  | n + 1 =>
    let bed := s.bed b
    match bed.spill with
    | [] => s
    | e :: rest =>
      if 256 < sorterPlaces bed.sorter + e.places then s
      else
        let e := s.getHit (s.core (8 * b)).launch b bed.ovIdx[0].toNat e
        (s.modBed b fun x => { x with
          sorter := insertHit e x.sorter, spill := rest,
          ovIdx := x.ovIdx.set 0 (x.ovIdx[0] + BitVec.ofNat 64 e.places) }).refillBed b n

/-- The entries of a sorter are written to the front of its ring (R332). -/
def State.flushBed (s : State) (b : Nat) : State :=
  let bed := s.bed b
  let front := bed.ovIdx[0] - BitVec.ofNat 64 (sorterPlaces bed.sorter)
  let r := bed.sorter.foldl (fun (r : State × List HitEntry × Nat) e =>
    let u := r.1.putHit (s.core (8 * b)).launch b (front + BitVec.ofNat 64 r.2.2).toNat e
    (u.1, r.2.1 ++ [u.2], r.2.2 + e.places)) (s, [], 0)
  r.1.modBed b fun x => { x with sorter := [], spill := r.2.1 ++ x.spill, ovIdx := x.ovIdx.set 0 front }

/-- An entry that an atomic pushes onto a ready ring: an arrival of its own, which a replay may hold in the overflow area until it
is the next recorded one (R154, R436, R440). -/
def State.readyPush (s : State) (l c : Nat) (w : Sender) (b : Word) : State :=
  match s.brineFrom 7 l c w 3 with
  | some t => t.pushPort l c .q3 { words := [b], marks := [false] }
  | none => s.post .overflowReturn
      { core := c, launch := l, qport := .q3, flag := true, value := b, id := w.core, ctx := w.ctx, n := w.pkg }

/-- Entries return from an overflow ring as room frees, or when a replay holds them no more (R172, R220, R284, R440). -/
def execOverflowReturn (s : State) : Result :=
  let c := s.ev.core
  .next <|
    if s.ev.flag then s.readyPush s.ev.launch c { pkg := s.ev.n, core := s.ev.id, ctx := s.ev.ctx } s.ev.value
    else match s.ev.qport with
    | .q1 =>
      let b := bedOf c
      if !(s.core c).run.up || s.reordWaits b || (s.bed b).spill.isEmpty then s
      else ((s.refillBed b 256).post .waveFormation { group := b }).post .partialWaveTimeout { group := b }
    | p => if (s.core c).run.up then s.refillPort c p (portCap p) else s

/-! ### Taking entries (R168, R169, R216) -/

/-- A hit record as a queue entry. -/
def HitEntry.entry (e : HitEntry) : QEntry := { words := e.words, marks := e.marks }

/-- The oldest hit record a selector names, and the rest: gA[8] any bin, else bin gA[7:0] (R168). -/
def takeHit (sel : BitVec 9) : List HitEntry → Option (HitEntry × List HitEntry)
  | [] => none
  | e :: l =>
    if e.resume.isNone && (bitOf sel 8 || decide (e.key = sel.setWidth 8)) then some (e, l)
    else (takeHit sel l).map fun r => (r.1, e :: r.2)

/-- The selectors of the contexts of the issuing core that began to wait in `qpop` on a port before the issuing one,
ties to the lower number (R216). -/
def State.waitersBefore (s : State) (p : Port) : List (BitVec 9) :=
  let mine : Nat :=
    match s.cx.block with
    | some b => match b.kind with
      | .qpop q _ => if q = p then b.since else s.ticks + 1
      | _ => s.ticks + 1
    | none => s.ticks + 1
  ((List.range 11).map (Fin.ofNat 11)).filterMap fun c =>
    let x := s.here.ctxs[c]
    match x.block with
    | some b => match b.kind with
      | .qpop q sel =>
        if q = p ∧ c ≠ s.cur.ctx ∧ x.live ∧ !x.susp ∧ (b.since < mine ∨ (b.since = mine ∧ c < s.cur.ctx)) then some sel
        else none
      | _ => none
    | none => none

/-- What remains of the sorter for the issuing context once the earlier waiters have their records. -/
def State.hitsLeft (s : State) : List HitEntry :=
  (s.waitersBefore .q1).foldl (fun l sel => ((takeHit sel l).map Prod.snd).getD l) (s.bed (bedOf s.cur.core)).sorter

/-- The entry the issuing context may take from a port, and the state without it. -/
def State.takeEntry (s : State) (p : Port) (sel : BitVec 9) : Option (QEntry × State) :=
  match p with
  | .q1 =>
    let b := bedOf s.cur.core
    (takeHit sel s.hitsLeft).map fun r =>
      (r.1.entry, (s.modBed b fun x => { x with sorter := x.sorter.erase r.1 }).post .overflowReturn
        { core := 8 * b, qport := .q1 })
  | p =>
    let i := (s.waitersBefore p).length
    (s.here.queue p)[i]?.map fun e =>
      let t := s.modHere fun k => k.setQueue p ((k.queue p).eraseIdx i)
      (e, if (s.here.over p).isEmpty then t else t.post .overflowReturn { core := s.cur.core, qport := p })

/-- Word and mark of an entry. -/
def QEntry.word (e : QEntry) (j : Nat) : Word := e.words[j]?.getD 0
def QEntry.bad (e : QEntry) (j : Nat) : Bool := e.marks[j]?.getD false

/-- The registers an entry fills in `qpop` and `qpeek` (R167). -/
def State.putEntry (s : State) (p : Port) (d : Fin 32) (e : QEntry) : State :=
  let reg (s : State) (r : Fin 32) (base : Nat) : State :=
    s.setV r 0xF (ofLanes fun l => e.word (base + l)) (ofBits fun l => e.bad (base + l))
  match p with
  | .q0 => reg (reg s d 0) (d + 1) 4
  | .q3 => s.setG d (e.word 0) (e.bad 0)
  | _ => reg s d 0

/-- The selector of q1 (R168). -/
def State.selOf (s : State) (a : Fin 32) (p : Port) : BitVec 9 := if p = .q1 then (s.g a).setWidth 9 else 0

/-- TREELET and kind of an inbox entry (R171, R268). -/
def QEntry.treelet (e : QEntry) : Nat := (e.word 6).toNat % 2 ^ 32
def QEntry.kind (e : QEntry) : Nat := (e.word 7).toNat / 2 ^ 62

/-- A ray entry returned to a context holds the RESIDENT slot of its treelet (R370). -/
def State.holdFor (s : State) (p : Port) (e : QEntry) : State :=
  if p = .q0 ∧ e.kind = 1 then
    match (s.here.slots.toList.zipIdx).find? fun x => decide (x.1.state = .resident) && decide (x.1.id = e.treelet) with
    | some (_, i) => s.modCx fun x => { x with hold := withBit x.hold i true }
    | none => s
  else s

/-- A pop of q0 clears the hold mask first (R370). -/
def State.unhold (s : State) (p : Port) : State := if p = .q0 then s.modCx fun x => { x with hold := 0 } else s

/-- A pop waits while there is no entry (R168). -/
def execQpop (d a : Fin 32) (q : Port) (s : State) : Result :=
  let srcs := if q = .q1 then [a] else []
  let sel := s.selOf a q
  s.scalar srcs <|
    match s.takeEntry q sel with
    | some (e, t) => ((t.unhold q).putEntry q d e).holdFor q e
    | none => s.stall (.qpop q sel)

/-- One lane of `qpopl`: an entry into lane l of the destinations, or zeros (R169). -/
def State.popLane (s : State) (q : Port) (sel : BitVec 9) (d : Fin 32) (b : Fin 8) (l : Nat) : State :=
  let m : Mask := withBit 0 l true
  let fill (s : State) (w : Nat → Word) (bad : Nat → Bool) : State :=
    let n : Nat := match q with
      | .q0 => 8
      | .q1 => 4
      | .q2 => 2
      | .q3 => 1
    (List.range n).foldl (fun s j => s.setV (d + Fin.ofNat 32 j) m (ofLanes fun _ => w j) (if bad j then m else 0)) s
  match s.takeEntry q sel with
  | some (e, t) => ((fill t e.word e.bad).setP b m 0xF).holdFor q e
  | none => (fill s (fun _ => 0) (fun _ => false)).setP b m 0

/-- One entry for each lane of KMASK, without waiting; a pB whose four bits are written loses its mark (R169, R430). -/
def execQpopl (d a : Fin 32) (pr : Fin 8) (q : Port) (s : State) : Result :=
  let srcs := if q = .q1 then [a] else []
  let sel := s.selOf a q
  let t := (lanesOf s.kmask).foldl (fun s l => s.popLane q sel d pr l) (s.unhold q)
  s.scalar srcs (t.setP pr s.kmask (t.cx.p pr))

/-- The oldest entry without popping it (R169). -/
def execQpeek (d a : Fin 32) (pr : Fin 8) (q : Port) (s : State) : Result :=
  let srcs := if q = .q1 then [a] else []
  s.scalar srcs <|
    match s.takeEntry q (s.selOf a q) with
    | some (e, _) => (s.putEntry q d e).setP pr 0xF 0xF
    | none => (s.putEntry q d { words := [], marks := [] }).setP pr 0xF 0

/-- The hit records of a bed, those in the ring included (R170). -/
def Bed.hits (b : Bed) (sel : BitVec 9) : Nat :=
  ((b.sorter ++ b.spill).filter fun e =>
    e.resume.isNone && (bitOf sel 8 || decide (e.key = sel.setWidth 8))).length

/-- Entries a port of core `n` holds, those in its ring included (R170). -/
def State.portCount (s : State) (n : Nat) (p : Port) (sel : BitVec 9) : Nat :=
  match p with
  | .q1 => (s.bed (bedOf n)).hits sel
  | p => ((s.core n).queue p).length + ((s.core n).over p).length

/-- Count of a port (R170). -/
def execQcnt (d a : Fin 32) (q : Port) (s : State) : Result :=
  let srcs := if q = .q1 then [a] else []
  s.scalar srcs (s.setG d (BitVec.ofNat 64 (s.portCount s.cur.core q (s.selOf a q))))

/-- Wait for a count; a count that was met once ends the wait, whatever other contexts have taken since (R170, R216). -/
def execQwait (a : Fin 32) (q : Port) (s : State) : Result :=
  let n := ((s.g a).extractLsb' 0 9).toNat
  s.scalar [a] <| s.unlessReleased <|
    if portCap q < n then s.faultOpen Cause.illop
    else if s.portCount s.cur.core q 0x100 < max 1 n then s.stall (.qwait q (max 1 n))
    else s

/-- An entry pushed by a core on its own ready ring (R170). -/
def execQpush (a : Fin 32) (s : State) : Result :=
  let n := s.cur.core
  s.scalar [a] <| s.afterRelease <|
    match s.brineOrder 7 s.here.launch n n s.cur.ctx 3 with
    | none => s.stall .other
    | some t => t.pushPort s.here.launch n .q3 { words := [s.g a], marks := [false] }

/-! ### Sends (R171) -/

/-- The lane of the agenda that keeps one context's messages to one core in order (R171, R215, R363). -/
def sendLane (core ctx target : Nat) (kind : Nat) : Nat := ((core * 16 + ctx) * 2 ^ 16 + target) * 8 + kind + 1

/-- The lane of a message. -/
def Msg.lane (m : Msg) : Nat :=
  sendLane m.sender m.ctx m.target (match m.kind with
    | .hsend => 1
    | .bsend => 2
    | _ => 0)

/-- The words of vB, or of vB and vB+1, with byte 63 bits [7:6] set to a kind (R171). -/
def State.sendWords (s : State) (b : Fin 32) (two : Bool) (kind : Nat) : List Word :=
  let lo := (List.range 4).map fun l => lane l (s.v b)
  if two then
    let hi := (List.range 4).map fun l => lane l (s.v (b + 1))
    lo ++ hi.take 3 ++ [(hi[3]?.getD 0 &&& 0x3FFFFFFFFFFFFFFF) ||| (BitVec.ofNat 64 kind <<< 62)]
  else lo

/-- A message goes into the send buffer; with 8 in it the context waits (R171). -/
def State.sendMsg (s : State) (kind : SendKind) (va : Word) (target : Nat) (key : Byte) (words : List Word)
    (after : State → Msg → State) : State :=
  if s.acquiring ∨ 8 ≤ s.here.sends.length then s.stall .other
  else s.afterRelease <|
    let (id, t) := s.newId
    let m : Msg :=
      { id := id, kind := kind, sender := s.cur.core, ctx := s.cur.ctx, launch := s.here.launch, target := target,
        key := key, off := s.cur.p, va := va, words := words, marks := words.map fun _ => false }
    after ({ t with msgs := t.msgs ++ [m] }.modHere fun k => { k with sends := k.sends ++ [id] }) m

/-- A 64-byte message to the inbox of a core (R171). -/
def execMsend (a b : Fin 32) (s : State) : Result :=
  let va := s.g a
  .next <|
    if s.src.gBad a || s.vMarked 0xF [b, b + 1] then s.faultPoison
    else if !winForm va then s.fault Cause.ulmbound va
    else s.sendMsg .msend va (winCore va) 0 (s.sendWords b true 0) fun t m =>
      t.post .inboxArrival { id := m.id } (sendLane m.sender m.ctx m.target 0)

/-- A 32-byte hit record to the sorter of a core's bed (R171). -/
def execHsend (a b : Fin 32) (s : State) : Result :=
  let va := s.g a
  .next <|
    if s.src.gBad a || s.vMarked 0xF [b] then s.faultPoison
    else if !winForm va then s.fault Cause.ulmbound va
    else s.sendMsg .hsend va (winCore va) (va.setWidth 8) (s.sendWords b false 0) fun t m =>
      t.post .hitSorterArrival { id := m.id } (sendLane m.sender m.ctx m.target 1)

/-- The message leaves the send buffer. -/
def State.unbuffer (s : State) (m : Msg) : State :=
  s.modCore m.sender fun k => { k with sends := k.sends.filter fun i => decide (i ≠ m.id) }

/-- The message leaves the send buffer and the network. -/
def State.dropMsg (s : State) (m : Msg) : State :=
  { s with msgs := s.msgs.filter fun x => decide (x.id ≠ m.id) }.unbuffer m

/-- A refused send is reported to its sender, where that is still the launch's (R153, R171). -/
def State.refuseMsg (s : State) (m : Msg) : State :=
  let s := s.dropMsg m
  if s.live m.launch m.sender then
    s.report m.sender m.ctx { cause := Cause.window, va := m.va, off := m.off, dst := .none }
  else s

def State.msg? (s : State) (id : Nat) : Option Msg := s.msgs.find? fun m => decide (m.id = id)

/-- A message reaches the inbox of its core, or is refused; one for another package goes on over Lenbo
(R171, R172, R320, R403, R440). -/
def execInboxArrival (s : State) : Result :=
  .next <|
    match s.msg? s.ev.id with
    | none => s
    | some m =>
      if decide (m.kind = .msend) && s.remote m.va then
        match s.lenboRequest 4 (winTarget s.mgmt.pkgnum.toNat m.va) (flitPoison m.marks) m.va
            (senderAux m.sender m.ctx) [flitOf (m.words.take 4), flitOf (m.words.drop 4)] m.sender none (some m.id) with
        | none => s.repost .inboxArrival s.ev m.lane
        | some t => t.unbuffer m
      else if !s.accepts m.launch m.target then s.refuseMsg m
      else
        match s.brineOrder 7 m.launch m.target m.sender m.ctx 0 with
        | none => s.repost .inboxArrival s.ev m.lane
        | some t => (t.dropMsg m).pushPort m.launch m.target .q0 { words := m.words, marks := m.marks }

/-- A hit record reaches the sorter of its bed, or is refused (R171, R283, R320, R440). -/
def execHitSorterArrival (s : State) : Result :=
  .next <|
    match s.msg? s.ev.id with
    | none => s
    | some m =>
      if s.remote m.va then
        match s.lenboRequest 4 (winTarget s.mgmt.pkgnum.toNat m.va) (1 ||| flitPoison m.marks) m.va
            (senderAux m.sender m.ctx) [flitOf m.words] m.sender none (some m.id) with
        | none => s.repost .hitSorterArrival s.ev m.lane
        | some t => t.unbuffer m
      else if !s.accepts m.launch m.target then s.refuseMsg m
      else
        match s.brineOrder 8 m.launch (8 * bedOf m.target) m.sender m.ctx (m.key.setWidth 64) with
        | none => s.repost .hitSorterArrival s.ev m.lane
        | some t =>
          (t.dropMsg m).pushHit m.launch (bedOf m.target)
            { key := m.key, resume := none, words := m.words, marks := m.marks, stamp := t.kcycleOf m.launch }

/-! ### Completions (R165) -/

/-- A completion message of 16 bytes (R165). -/
def completion (kind : Nat) (status : Cause) (tag ctx poisoned zeroed : Nat) (addr : Word) : List Byte :=
  natBytes kind 1 ++ natBytes status.toNat 1 ++ natBytes tag 1 ++ natBytes ctx 1 ++ natBytes (min 0xFFFF poisoned) 2 ++
  natBytes (min 0xFFFF zeroed) 2 ++ natBytes (addr.toNat % 2 ^ 56) 8

/-- A completion posted to q2 of a core of a launch, in the order of posting (R215). -/
def State.complete (s : State) (l c : Nat) (bytes : List Byte) : State :=
  s.post .mailboxArrival { launch := l, core := c, bytes := bytes } (2 ^ 48 + c + 1)

/-- A completion reaches the mailbox; at a core that is gone it is refused (R165, R172, R320, R440). -/
def execMailboxArrival (s : State) : Result :=
  let l := s.ev.launch
  let c := s.ev.core
  .next <|
    if !s.accepts l c then s
    else
      match s.brineOrder 7 l c 0xFFFF 0 2 with
      | none => s.repost .mailboxArrival s.ev (2 ^ 48 + c + 1)
      | some t => t.pushPort l c .q2
          { words := [BitVec.ofNat 64 (leNat (s.ev.bytes.take 8)), BitVec.ofNat 64 (leNat (s.ev.bytes.drop 8))],
            marks := [false, false] }

end Sys2Proof.Machine
end

