-- ==== Sys2Proof/Machine/Saved.lean ====
section
/-! DEFINITION. Tags and their rows of the core state page, the ranking of conditions, and engine accesses to ULM of a core
of a launch, resident or saved (R161, R163, R165, R166, R320, R331, R332). -/

namespace Sys2Proof.Machine

/-! ### Tags (R163, R166, R331) -/

/-- The status word of a tag (R166). -/
def Tag.word (t : Tag) : Word :=
  BitVec.ofNat 64 (min 0xFFFF t.count * 2 ^ 48 + t.poisoned.toNat * 2 ^ 16 + t.status.toNat)

/-- A range of the state page: base and limit. -/
def rangeWord (r : Option Range) : Nat := (r.map fun r => r.lo + r.hi * 2 ^ 32).getD 0

/-- The bounding range of the failed ranges. -/
def Tag.failedRange (t : Tag) : Option Range := t.failed.foldl (fun b r => rangeUnion b (some r)) none

/-- A tag's row of the state page (R331). -/
def Tag.row (t : Tag) : List Byte :=
  natBytes t.word.toNat 8 ++ natBytes (rangeWord t.dst) 8 ++ natBytes (rangeWord t.src) 8 ++
  natBytes (rangeWord t.failedRange) 8

/-- A range read from the state page; none for an empty one. -/
def rangeOf (w : Nat) : Option Range :=
  let lo := w % 2 ^ 17
  let hi := w / 2 ^ 32 % 2 ^ 18
  if hi ≤ lo then none else some { lo := lo, hi := hi }

/-- A tag changed where the core is; a saved core's change is made on its state page too (R332). -/
def State.modTag (s : State) (l c : Nat) (t : Fin 16) (f : Tag → Tag) : State :=
  let s := s.modCoreOf l c fun k => { k with tags := k.tags.set t (f k.tags[t]) }
  match s.pageOf l c with
  | some a => s.storeClean (a + 0x80 + 32 * t.val) (s.coreOf l c).tags[t].row
  | none => s

/-! ### Ranking of conditions (R165) -/

/-- The place of a cause in the order of R165; 0 stands for no condition and ranks last. -/
def causeRank (c : Cause) : Nat :=
  if c = 0 then 1000
  else if c = Cause.fabric then 0
  else if c = Cause.pageinv then 1
  else if c = Cause.window then 2
  else if c = Cause.illop then 3
  else if c = Cause.ulmbound then 4
  else if c = Cause.align then 5
  else if c = Cause.launchbad then 6
  else if c = Cause.poison then 7
  else if c = Cause.pagewait then 8
  else 9 + c.toNat

/-- The higher-ranked of two conditions. -/
def topCause (a b : Cause) : Cause := if causeRank b < causeRank a then b else a

/-! ### Engine accesses to ULM (R161, R320, R332) -/

/-- The check of another core's access at a port (R28): RRD for a read, RWR for a write. -/
def State.portPermits (s : State) (l c a n : Nat) (write : Bool) : Bool :=
  (segCheck (s.coreOf l c).kseg false a n (if write then { rwr := true } else { rrd := true })).isNone

/-- The port of a resident core serves a landing or a sector of B in this tick: an incoming access waits (R49, R263, R267). -/
def State.portBusy (s : State) (l c : Nat) : Bool := s.live l c && s.portTaken c

/-- Bytes landed at a key in one step: whole sectors of unpoisoned data clear the bit and count in KLATENT, poisoned
data sets it (R161, R430). -/
def State.landKey (s : State) (l c key : Nat) (bs : List Byte) (bad : Bool) : State :=
  let t := (s.storeBytes key bs).wrote key bs.length
  if bad then t.setPoison key
  else if bs.length = 32 ∧ key % 32 = 0 ∧ s.poisoned key then (t.clearPoison key).modCoreOf l c fun k => k.latent 1
  else t

end Sys2Proof.Machine
end

