-- ==== Sys2Proof/Machine/Translate.lean ====
section
/-! DEFINITION. Translation at the base dies: TLBs and heat, missing pages and page requests, invalidation, and the
translation of host memory (R157, R338 to R344, R410 to R412). -/

namespace Sys2Proof.Machine

/-! ### Walks (R338, R410) -/

/-- A walk: until the PASID is invalidated as a whole it may use an entry that walks have used before (R410; a free
choice, log 10). An entry read from a poisoned sector is not kept (R338). -/
def State.walk (s : State) (pasid va : Nat) : WalkEnd × State :=
  match s.pasidSeen.find? fun e => decide (e.1 = pasid) with
  | some (_, a, b) =>
    let (n, t) := s.freeNat
    if n % 2 = 1 ∧ va < 2 ^ 55 then (t.walkUnder va (some (a, b)), t) else (t.walkNow pasid va, t)
  | none =>
    (s.walkNow pasid va,
     match s.pasidEntry pasid with
     | some (a, b) => if s.pasidPoison pasid then s else { s with pasidSeen := (pasid, a, b) :: s.pasidSeen }
     | none => s)

/-! ### TLBs and heat (R338, R339) -/

/-- How a translation ends. -/
inductive Walked where
  | at_ (pa : Nat)
  | missing
  | inv
  | poison
  /-- the host's translation of a page is asked for (R412) -/
  | asked
  deriving DecidableEq, Repr

/-- A raise asked for. -/
def State.askRaise (s : State) (die : Nat) (e : TlbEntry) (write : Bool) : State :=
  s.post .heatRaise { die := die, pasid := e.pasid, addr := e.pteAddr, value := e.pte, flag := write }

/-- The access counted; after every 1,024 the heat is raised again (R339). -/
def State.tlbServe (s : State) (die : Nat) (e : TlbEntry) (write : Bool) : State :=
  let e' : TlbEntry := if write then { e with writes := e.writes + 1 } else { e with reads := e.reads + 1 }
  let n := if write then e'.writes else e'.reads
  let s := { s with tlb := s.tlb.map fun x => if x.1 = die ∧ x.2 = e then (x.1, e') else x }
  if n % 1024 = 0 then s.askRaise die e' write else s

/-- A host page under a PASID through the ATS cache, or a request for its translation (R344, R412). A write that may not
leave the package waits (R431). -/
def State.hostPage (s : State) (die pasid ha : Nat) (write : Bool) : Walked × State :=
  let page := granuleOf ha
  if s.sealed write then (.asked, s)
  else match s.tlbHit die pasid ha true with
  | some e => if e.allows write then (.at_ (e.hostPa ha), s)
    else (.missing, { s with tlb := s.tlb.filter fun x => !(decide (x.1 = die) && decide (x.2 = e)) })
  | none =>
    match s.atsDenied.find? fun d => decide (d.1 = die) && decide (d.2.1 = pasid) && decide (d.2.2.1 = page) with
    | some d => (if d.2.2.2 then .inv else .missing, { s with atsDenied := s.atsDenied.erase d })
    | none =>
      let key := (die, pasid, page)
      (.asked, if s.atsAsked.contains key then s else { s with atsAsked := key :: s.atsAsked })

/-- The place of a write that is dropped where its page is not resident or does not translate: no page is requested, and
nothing counts as heat (R378). -/
def State.quietWrite (s : State) (pasid va : Nat) : Walked × State :=
  match s.walkNow pasid va with
  | .leaf pte _ size =>
    if !pteRes pte || !pteW pte then (.missing, s)
    else if pteLoc pte then s.hostPage (colour va) pasid (pteFrame pte + va % size) true
    else (.at_ (ptePa pte size va), s)
  | .unmapped => (.missing, s)
  | .inv => (.inv, s)
  | .poison => (.poison, s)

/-- The TLB entry of a leaf (R338). -/
def tlbOf (pasid va : Nat) (pte : Word) (at_ size : Nat) : TlbEntry :=
  { pasid := pasid, va := va / size * size, size := size, pa := pteFrame pte, r := pteR pte, w := pteW pte, host := false,
    pteAddr := at_, pte := pte, reads := 0, writes := 0 }

/-- A leaf found by a walk, for an access: missing, or translated with the TLB filled (R338, R339). -/
def State.fill (s : State) (die pasid va : Nat) (write : Bool) (pte : Word) (at_ size : Nat) : Walked × State :=
  if !pteRes pte || !(if write then pteW pte else pteR pte) then (.missing, s)
  else
    let e := tlbOf pasid va pte at_ size
    let s := ({ s with tlb := (die, e) :: s.tlb.filter fun x => !(decide (x.1 = die) && decide (x.2.pteAddr = at_) &&
      decide (x.2.pasid = pasid)) }).askRaise die e write
    if pteLoc pte then s.hostPage die pasid (pteFrame pte + va % size) write else (.at_ (ptePa pte size va), s)

/-- The translation of an access at the die of its colour. Whether the TLB still holds an entry is not fixed (R338;
log 10). -/
def State.translate (s : State) (pasid va : Nat) (write : Bool) : Walked × State :=
  let die := colour va
  let slow (s : State) : Walked × State :=
    match s.walk pasid va with
    | (.leaf pte at_ size, s) => s.fill die pasid va write pte at_ size
    | (.unmapped, s) => (.missing, s)
    | (.inv, s) => (.inv, s)
    | (.poison, s) => (.poison, s)
  match s.tlbHit die pasid va false with
  | none => slow s
  | some e =>
    let (n, t) := s.freeNat
    if n % 2 = 1 ∧ e.allows write then
      let t := t.tlbServe die e write
      if pteLoc e.pte then t.hostPage die pasid (e.pa + va % e.size) write else (.at_ (ptePa e.pte e.size va), t)
    else slow t

/-- A PTE with one heat field raised, saturating at 3 (R339). -/
def heatUp (pte : Word) (write : Bool) : Word :=
  if write then if pteWheat pte = 3 then pte else pte + (1 <<< 58)
  else if pteRheat pte = 3 then pte else pte + (1 <<< 56)

/-- The entry of the die that a raise is for. -/
def State.raised (s : State) (x : Nat × TlbEntry) : Bool :=
  decide (x.1 = s.ev.die) && decide (x.2.pteAddr = s.ev.addr) && !x.2.host && decide (x.2.pasid = s.ev.pasid)

/-- A TLB entry filled again from the table as it stands, with the raise of a fill; one whose page no longer serves the access
is dropped (R339). -/
def State.refill (s : State) (x : Nat × TlbEntry) (write : Bool) : State :=
  let s : State := { s with tlb := s.tlb.filter fun y => decide (y ≠ x) }
  match s.walkNow x.2.pasid x.2.va with
  | .leaf pte at_ size =>
    let e := tlbOf x.2.pasid x.2.va pte at_ size
    if pteRes pte && e.allows write then { s with tlb := (x.1, e) :: s.tlb }.askRaise x.1 e write else s
  | _ => s

/-- A heat raise: a compare-and-swap against the value the walker read; a changed entry drops it, and the TLB entry is
refilled, which raises the heat again: of two raises from one value both are performed (R339, R345). -/
def execHeatRaise (s : State) : Result :=
  let a := s.ev.addr
  let now := BitVec.ofNat 64 (s.loadNat a 8)
  .next <|
    if now = s.ev.value then
      let new := heatUp now s.ev.flag
      { s.storeNat a 8 new.toNat with tlb := s.tlb.map fun x => if s.raised x then (x.1, { x.2 with pte := new }) else x }
    else (s.tlb.filter s.raised).foldl (fun t x => t.refill x s.ev.flag) s

/-- A heat field halved (R339). -/
def halve (h : Nat) : Nat := h / 2
def heatDown (pte : Word) : Word :=
  (pte &&& ~~~(0x0F00000000000000 : Word)) ||| (BitVec.ofNat 64 (halve (pteRheat pte)) <<< 56) |||
  (BitVec.ofNat 64 (halve (pteWheat pte)) <<< 58)

/-- The leaf entries under a table, by address (R336). -/
def State.leavesUnder (s : State) : List (Nat × Nat × Nat) → Nat → List Nat
  | [], _ => []
  | (level, _, bits) :: rest, table =>
    (List.range (2 ^ bits)).flatMap fun i =>
      let a := table + 8 * i
      let pte := BitVec.ofNat 64 (s.loadNat a 8)
      if !pteV pte then []
      else if level = 0 ∨ (level ≤ 2 ∧ bitOf pte 6) then [a]
      else if 2 ^ 40 ≤ pteFrame pte then []
      else s.leavesUnder rest (pteFrame pte)

/-- The stack that holds a device address (R335). -/
def stackOf (pa : Nat) : Nat := pa / 4096 % 16

/-- The sweeper of a die halves the heat of every leaf its stack holds for one PASID that is swept (R339, R411). It
comes again, for a PASID in turn that is not fixed. -/
def execSweeperHalving (s : State) : Result :=
  let log := min 20 (s.hostRegs.ptab.extractLsb' 0 5).toNat
  let t :=
    match s.pasidEntry s.ev.pasid with
    | some (a, b) =>
      if bitOf a 0 ∧ b.setWidth 32 ≠ (0 : BitVec 32) then
        ((s.leavesUnder walkLevels ((a.extractLsb' 11 41).toNat * 2048)).filter fun p =>
          decide (stackOf p = s.ev.die)).foldl (fun (t : State) p =>
            t.storeNat p 8 (heatDown (BitVec.ofNat 64 (t.loadNat p 8))).toNat) s
      else s
    | none => s
  let (n, t) := t.freeNat
  .next (t.post .sweeperHalving { die := s.ev.die, pasid := n % 2 ^ log })

/-! ### Missing pages (R340 to R342) -/

/-- What a request gets for an address: where it is, the end of the request, or a wait. -/
inductive Need where
  | at_ (pa : Nat)
  | fail (c : Cause)
  | parked
  /-- a host translation is asked for; the request is tried again -/
  | later
  deriving DecidableEq, Repr

/-- A granule that a page request group already asks for. -/
def State.requested (s : State) (pasid g : Nat) : Bool :=
  s.pageGroups.any fun x => decide (x.pasid = pasid) && x.pages.any fun p => decide (p.1 = g)

/-- Groups answered for a request and a granule without the granule translated. -/
def State.answeredFor (s : State) (req g : Nat) : Nat :=
  ((s.answered.find? fun a => decide (a.1 = req) && decide (a.2.1 = g)).map fun a => a.2.2).getD 0

/-- The granule is missing for the request, as the tables stand. -/
def State.missingNow (s : State) (pasid g : Nat) (write : Bool) : Bool :=
  match s.walkNow pasid g with
  | .leaf pte _ _ => !pteRes pte || !(if write then pteW pte else pteR pte)
  | .unmapped => true
  | _ => false

/-- The lowest PRG index free for a PASID (R341). -/
def State.freePrg (s : State) (pasid : Nat) : Nat :=
  let used := (s.pageGroups.filter fun x => decide (x.pasid = pasid)).map PageGroup.prg
  ((List.range (used.length + 1)).find? fun n => !used.contains n).getD 0

/-- The first of the granules with the same number. -/
def oncePer (l : List (Nat × Bool)) : List (Nat × Bool) :=
  l.foldl (fun r x => if r.any fun y => decide (y.1 = x.1) then r else r ++ [x]) []

/-- A new group: the missing granule and up to 15 more of the request that a look-ahead finds, each with the access it lacks;
how many is not fixed (R341). -/
def State.newGroup (s : State) (pasid g : Nat) (write : Bool) (ahead : List (Nat × Bool)) : State :=
  let (id, s) := s.newId
  let (k, s) := s.freeNat
  let more := oncePer (ahead.filter fun a => decide (a.1 ≠ g) && !s.requested pasid a.1 && s.missingNow pasid a.1 a.2)
  let gr : PageGroup :=
    { id := id, pasid := pasid, prg := s.freePrg pasid, pages := (g, write) :: more.take (k % 16), sent := false }
  { s with pageGroups := s.pageGroups ++ [gr] }.post .pageRequestGroup { die := colour g }

/-- An address a request needs: `task` happens again when the request may go on; a refusal of the host for it comes before a
new walk (R338, R340 to R342). -/
def State.need (s : State) (req : Nat) (task : Task) (l pasid va : Nat) (write : Bool) (ahead : List (Nat × Bool) := []) :
    Need × State :=
  let g := granuleOf va
  if s.denied.contains (req, g) then (.fail Cause.pageinv, { s with denied := s.denied.erase (req, g) })
  else match s.translate pasid va write with
  | (.at_ pa, s) => (.at_ pa, { s with answered := s.answered.filter fun a => !(decide (a.1 = req) && decide (a.2.1 = g)) })
  | (.inv, s) => (.fail Cause.pageinv, s)
  | (.poison, s) => (.fail Cause.poison, s)
  | (.asked, s) => (.later, { s with agenda := s.agenda ++ [task] })
  | (.missing, s) =>
    if s.hostRegs.priStopped ∨ 4 ≤ s.answeredFor req g then (.fail Cause.pageinv, s)
    else
      let s := if s.requested pasid g then s else s.newGroup pasid g write ahead
      let w : PageWait := { req := req, task := task, launch := l, pasid := pasid, granule := g, write := write }
      (.parked, { s with pageWaits := s.pageWaits ++ [w] })

/-- The first group of a die that has not been sent goes to the host when it fits the allocation (R341). -/
def execPageRequestGroup (s : State) : Result :=
  let out := ((s.pageGroups.filter PageGroup.sent).map fun x => x.pages.length).sum
  .next <|
    match s.pageGroups.find? fun x => !x.sent && decide ((x.pages.head?.map fun p => colour p.1) = some s.ev.die) with
    | none => s
    | some g =>
      if s.hostRegs.priStopped ∨ min 2048 s.hostRegs.alloc < out + g.pages.length then s
      else ({ s with pageGroups := s.pageGroups.map fun (x : PageGroup) =>
          if x.id = g.id then { x with sent := true } else x } : State).post .pageRequestGroup s.ev

/-- The groups that wait are looked at again. -/
def State.retryGroups (s : State) : State :=
  (List.range 16).foldl (fun s d => s.post .pageRequestGroup { die := d }) s

/-- One more group answered for a request and a granule. -/
def countAnswer (l : List (Nat × Nat × Nat)) (req g : Nat) : List (Nat × Nat × Nat) :=
  let n := ((l.find? fun a => decide (a.1 = req) && decide (a.2.1 = g)).map fun a => a.2.2).getD 0
  (req, g, n + 1) :: l.filter fun a => !(decide (a.1 = req) && decide (a.2.1 = g))

/-- Parked requests released: each happens again, as answered or as refused. A request that waits more than once for a granule
counts the group once (R342). -/
def State.release (s : State) (ws : List PageWait) (deny : Bool) : State :=
  let t := ws.foldl (fun s w =>
    let s : State := { s with
      pageWaits := s.pageWaits.erase w
      agenda := s.agenda ++ [w.task] }
    if deny then { s with denied := (w.req, w.granule) :: s.denied } else s) s
  if deny then t
  else { t with answered := ((ws.map fun w => (w.req, w.granule)).dedup).foldl (fun l x => countAnswer l x.1 x.2) t.answered }

/-- The host's answer to a page request group: 0 success, 1 invalid request, any other code a response failure
(R342). -/
def execPageRequestResponse (s : State) : Result :=
  .next <|
    match s.pageGroups.find? fun x => x.sent && decide (x.pasid = s.ev.pasid) && decide (x.prg = s.ev.id) with
    | none => s
    | some g =>
      let t : State := { s with pageGroups := s.pageGroups.filter fun x => decide (x.id ≠ g.id) }
      let mine := t.pageWaits.filter fun w => decide (w.pasid = g.pasid) && g.pages.any fun p => decide (p.1 = w.granule)
      if s.ev.n = 0 then (t.release mine false).retryGroups
      else if s.ev.n = 1 then (t.release mine true).retryGroups
      else { (t.release t.pageWaits true) with pageGroups := [], hostRegs.priStopped := true }

/-! ### Probing a translation (R157) -/

/-- SIZE of R157. -/
def sizeCode (size : Nat) : Nat :=
  if size = 4096 then 0 else if size = 2 ^ 16 then 1 else if size = 2 ^ 21 then 2 else 3

/-- What `rprobe` answers (R157). -/
def State.probeWord (s : State) (pasid va : Nat) : Word :=
  let stack := colour va * 16
  match s.walkNow pasid va with
  | .leaf pte _ size =>
    BitVec.ofNat 64 (pteWheat pte * 2 ^ 12 + pteRheat pte * 2 ^ 10 + stack + sizeCode size * 4 + 2 +
      (if pteRes pte then 1 else 0))
  | _ => BitVec.ofNat 64 stack

/-- The translation of a main-memory address, without fault, request or heat (R157). -/
def execRprobe (d a : Fin 32) (s : State) : Result :=
  let va := s.g a
  s.scalar [a] <|
    s.setG d (if va >>> 55 ≠ 0 then 0 else s.probeWord (s.pasidOf s.cur.core) va.toNat)

/-! ### Invalidation (R343, R410) -/

/-- The invalidation ring: base and entries; none while it is disabled (R410). -/
def State.iqRing (s : State) : Option (Nat × Nat) :=
  let log := (s.hostRegs.iqbase.extractLsb' 0 5).toNat
  if 4 ≤ log ∧ log ≤ 12 then some ((s.hostRegs.iqbase.extractLsb' 12 40).toNat * 4096, 2 ^ log) else none

/-- A descriptor read (R343). -/
def State.invalAt (s : State) (a id : Nat) : Inval :=
  let va := s.loadNat a 8
  let p := s.loadNat (a + 8) 4
  let log := s.loadNat (a + 12) 1
  { id := id, pasid := p % 2 ^ 20, va := va, log := log, word := s.loadNat (a + 16) 8,
    value := BitVec.ofNat 64 (s.loadNat (a + 24) 8),
    bad := decide (va % 4096 ≠ 0) || decide (2 ^ 56 ≤ va) || decide (2 ^ 20 ≤ p) || decide (log < 12) || decide (56 < log) ||
      decide (s.loadNat (a + 13) 3 ≠ 0) }

/-- A TLB entry that a descriptor drops (R343). -/
def Inval.drops (i : Inval) (e : TlbEntry) : Bool :=
  !i.bad && !e.host && decide (e.pasid = i.pasid) &&
  (decide (i.log = 56) || (decide (e.va < i.va + 2 ^ i.log) && decide (i.va < e.va + e.size)))

/-- The next descriptor of the ring: the 16 walkers drop what it covers. No access stands between its translation and
its performing, so none is waited for (R343). -/
def execInvalidationStart (s : State) : Result :=
  .next <|
    match s.iqRing with
    | none => s
    | some (base, n) =>
      if s.invals ≠ [] ∨ s.hostRegs.iqhead = s.hostRegs.iqtail then s
      else
        let (id, s) := s.newId
        let i := s.invalAt (base + 32 * (s.hostRegs.iqhead.toNat % n)) id
        let s : State := { s with
          tlb := s.tlb.filter fun x => !i.drops x.2
          invals := [i]
          pasidSeen := if !i.bad ∧ i.log = 56 then s.pasidSeen.filter fun e => decide (e.1 ≠ i.pasid) else s.pasidSeen }
        s.post .invalidationComplete {}

/-- Every walker has finished: the completion word is written, and HEAD goes on (R343, R410). -/
def execInvalidationComplete (s : State) : Result :=
  .next <|
    match s.invals with
    | [] => s
    | i :: _ =>
      let next (s : State) : State :=
        { s with invals := [], hostRegs.iqhead := s.hostRegs.iqhead + 1 }.post .invalidationStart {}
      match s.need i.id { op := .invalidationComplete, arg := {}, lane := 0 } 0 i.pasid (i.word / 8 * 8) true with
      | (.at_ pa, s) => next (s.storeNat pa 8 (if i.bad then i.value ^^^ 1 else i.value).toNat)
      | (.fail _, s) => next s
      | (_, s) => s

/-- The host invalidates translations of host memory: `n` bytes from `addr` under a PASID, with a tag (R344). -/
def execAtsInvalidateRequest (s : State) : Result :=
  let e := s.ev
  .next <| { s with tlb := s.tlb.filter fun x => !(x.2.host && decide (x.2.pasid = e.pasid) &&
    decide (x.2.va < e.addr + e.n) && decide (e.addr < x.2.va + x.2.size)) }.post .atsInvalidateCompletion { id := e.id }

/-- The Invalidate Completion goes to the host (R344). -/
def execAtsInvalidateCompletion (s : State) : Result := .next (s.sendMsix (256 + s.ev.id))

/-- The host answers a translation request (R412). -/
def execAtsTranslationResponse (s : State) : Result :=
  let e := s.ev
  let page := granuleOf e.addr
  let key := (e.die, e.pasid, page)
  .next <|
    if !s.atsAsked.contains key then s
    else
      let s : State := { s with atsAsked := s.atsAsked.erase key }
      match e.answer with
      | .granted hpa w =>
        { s with tlb := (e.die, { pasid := e.pasid, va := page, size := 4096, pa := granuleOf hpa % 2 ^ 51, r := true, w := w,
                                  host := true, pteAddr := 0, pte := 0, reads := 0, writes := 0 }) :: s.tlb }
      | .noAccess => { s with atsDenied := (e.die, e.pasid, page, false) :: s.atsDenied }
      | .abort => { s with atsDenied := (e.die, e.pasid, page, true) :: s.atsDenied }

end Sys2Proof.Machine
end

