-- ==== Sys2Proof/Machine/Copies.lean ====
section
/-! DEFINITION. Copies, near-memory reductions and copy tags: major 0x0F and what the engines do (R83, R159 to R166,
R240 to R245, R332, R340, R388 to R390). -/

namespace Sys2Proof.Machine

/-! ### The shape of a copy (R159, R161) -/

/-- A window address of a core of this package. -/
def winOf (core off : Nat) : Word := BitVec.ofNat 64 (2 ^ 55 + 0x3FF * 2 ^ 45 + core * 2 ^ 29 + off)

/-- Source bytes of 8 elements, by source type (R388). -/
def redBytes (ty : Nat) : Nat := if ty = 0 then 32 else 16

/-- Fields of the shape of `cpy2d`: destination and source row strides in bytes, rows, row length (R159). -/
def shDst (g : Word) : Nat := 32 * (g.extractLsb' 48 16).toNat
def shSrc (g : Word) : Nat := 32 * (g.extractLsb' 32 16).toNat
def shRows (g : Word) : Nat := (g.extractLsb' 20 12).toNat + 1
def shLen (g : Word) : Nat := (g.extractLsb' 0 20).toNat

/-- A row of a copy: destination, source, bytes, and the lane it serves. -/
structure Row where
  dst : Word
  src : Word
  n : Nat
  lane : Option Nat
  deriving DecidableEq, Repr

/-- The rows of a copy, and one of them (R159). -/
def Copy.rows (c : Copy) : Nat :=
  match c.kind with
  | .cpy2d => shRows c.shape
  | .lcp => c.lanes.length
  | .lcs => c.lanes.length
  | _ => 1
def Copy.row (c : Copy) (r : Nat) : Row :=
  match c.kind with
  | .cpy2d =>
    { dst := c.dst + BitVec.ofNat 64 (r * shDst c.shape), src := c.src + BitVec.ofNat 64 (r * shSrc c.shape),
      n := shLen c.shape, lane := none }
  | .lcp =>
    let x := (c.lanes[r]?).getD (0, 0)
    { dst := c.dst + BitVec.ofNat 64 (16 * x.1), src := x.2, n := 16, lane := some x.1 }
  | .lcs =>
    let x := (c.lanes[r]?).getD (0, 0)
    { dst := x.2, src := c.src + BitVec.ofNat 64 (16 * x.1), n := 16, lane := some x.1 }
  | _ => { dst := c.dst, src := c.src, n := (c.shape.extractLsb' 0 24).toNat, lane := none }

/-- The source ranges of a copy (R159, R388). -/
def Copy.sources (c : Copy) : List (Nat × Nat) :=
  match c.kind with
  | .rdc => [(c.src.toNat, (c.shape.extractLsb' 0 24).toNat / 32 * redBytes (c.shape.extractLsb' 24 2).toNat)]
  | _ => (List.range c.rows).map fun r => ((c.row r).src.toNat, (c.row r).n)

/-- What a copy needs of a source sector: the smallest range that holds it, as first address and bytes (R241). -/
def Copy.needs (c : Copy) (sector : Nat) : Nat × Nat :=
  let parts := c.sources.filterMap fun x =>
    let lo := max x.1 (32 * sector)
    let hi := min (x.1 + x.2) (32 * sector + 32)
    if lo < hi then some (lo, hi) else none
  let lo := parts.foldl (fun m x => min m x.1) (32 * sector + 32)
  (lo, parts.foldl (fun m x => max m x.2) lo - lo)

/-- Bytes of one sector that the copy has read. -/
def Copy.cached (c : Copy) (a n : Nat) : Option (List Byte × Bool × Bool) :=
  (c.read.find? fun x => decide (x.1 ≤ a) && decide (a + n ≤ x.1 + x.2.1.length)).map fun x =>
    ((x.2.1.drop (a - x.1)).take n, x.2.2)

/-- Pieces of a row: one for each destination sector it touches. -/
def Row.pieces (r : Row) : Nat := if r.n = 0 then 0 else (r.dst.toNat % 32 + r.n + 31) / 32
def Row.piece (r : Row) (j : Nat) : Row :=
  let a := r.dst.toNat % 32
  let off := if j = 0 then 0 else 32 * j - a
  { r with dst := r.dst + BitVec.ofNat 64 off, src := r.src + BitVec.ofNat 64 off,
           n := min (r.n - off) (if j = 0 then 32 - a else 32) }

/-- Piece `k` of a copy in copy order; none past the last (R161). -/
def Copy.piece (c : Copy) (k : Nat) : Option Row :=
  let per := (c.row 0).pieces
  if per = 0 ∨ per * c.rows ≤ k then none else some ((c.row (k / per)).piece (k % per))

/-- The pieces of a copy from one on, at most `i` more, that end to end lie in one destination sector: they are written in one
step (R161, R228). -/
def Copy.run (c : Copy) : Nat → Nat → Row → List Row
  | 0, _, p => [p]
  | i + 1, k, p =>
    p :: match c.piece (k + 1) with
      | some q => if q.dst = p.dst + BitVec.ofNat 64 p.n ∧ q.dst.toNat / 32 = p.dst.toNat / 32 then c.run i (k + 1) q else []
      | none => []

/-- An address is the issuing core's own ULM (R159). -/
def State.ownEnd (s : State) (core : Nat) (va : Word) : Bool := bitOf va 55 && !s.remote va && decide (winCore va = core)

/-- Own-ULM bytes of a row from an address on. -/
def State.ownRange (s : State) (core : Nat) (va : Word) (n : Nat) : Option Range :=
  if s.ownEnd core va ∧ 0 < n then some { lo := winOff va, hi := winOff va + n } else none

/-- The own-ULM destination that piece `k` and the later ones have not delivered (R161, R340). -/
def State.undelivered (s : State) (c : Copy) (k : Nat) : List Range :=
  let per := max 1 (c.row 0).pieces
  (List.range c.rows).filterMap fun r =>
    if r < k / per then none
    else
      let row := c.row r
      if r = k / per then
        let p := row.piece (k % per)
        s.ownRange c.core p.dst (row.n - (p.dst - row.dst).toNat)
      else s.ownRange c.core row.dst row.n

/-- KIND of a completion (R165). -/
def CopyKind.code : CopyKind → Nat
  | .cpy => 1
  | .cpy2d => 2
  | .lcp => 3
  | .lcs => 4
  | .rdc => 5
  | .ired => 6
  | .chunk => 10

/-! ### Issue (R160) -/

/-- The core and the tag have room for one more copy (R160). -/
def State.copySlot (s : State) (t : Fin 16) (body : State) : State :=
  let ts := s.here.tags.toList.map Tag.count
  if 64 ≤ ts.sum ∨ 64 ≤ (s.here.tags[t]).count then s.stall .other else s.afterRelease body

/-- The smallest range that holds a list of them. -/
def boundOf (l : List (Option Range)) : Option Range := l.foldl rangeUnion none

/-- A copy with nothing done yet. -/
def State.newCopy (s : State) (id : Nat) (kind : CopyKind) (t : Fin 16) (nf mb : Bool) : Copy :=
  { id := id, kind := kind, core := s.cur.core, ctx := s.cur.ctx, tag := t, launch := s.here.launch,
    pasid := s.pasidOf s.cur.core, dst := 0, src := 0, shape := 0, lanes := [], nf := nf, mb := mb, pd := none, pdBits := 0,
    dstR := none, srcR := none, next := 0, started := false, status := 0, poisoned := 0, zeroed := 0, addr := none,
    park := [], parts := [], idx := [], marked := [], got := none, out := false, refused := none }

/-- A request sent: the tag counts it and covers its ranges (R161, R163). -/
def State.sendCopy (s : State) (c : Copy) : State :=
  ({ s with copies := s.copies ++ [c] }.modTag c.launch c.core c.tag fun t =>
    { t with count := t.count + 1, dst := rangeUnion t.dst c.dstR, src := rangeUnion t.src c.srcR }).post
      .copyRequestReceipt { id := c.id }

/-- The first of several values that is not aligned (R160). -/
def misaligned (l : List (Word × Nat)) : Option Word := (l.find? fun x => decide (x.1.toNat % x.2 ≠ 0)).map Prod.fst

/-- An end whose base is not in window form, or whose base names the own ULM and whose `n` bytes at `va` pass its end
(R160). -/
def State.badRow (s : State) (base va : Word) (n : Nat) : Bool :=
  bitOf base 55 && (!winForm base ||
    (s.ownEnd s.cur.core base && decide (0x20000 < winOff base + (va - base).toNat + n)))

/-- A contiguous end of `n` bytes that fails the form or the bound (R160). -/
def State.badEnd (s : State) (va : Word) (n : Nat) : Bool := s.badRow va va n

/-- The check of an own-ULM end under R28 (R160). -/
def State.ownCheck (s : State) (va : Word) (n : Nat) (need : Perm) : Option (Cause × Word) :=
  if s.ownEnd s.cur.core va ∧ 0 < n then
    (segCheck s.here.kseg s.src.mode (winOff va) n need).map fun c => (c, BitVec.ofNat 64 (winOff va))
  else none

/-- Steps 4 and 5 of R160 for the rows of a copy from `src` to `dst`. -/
def State.rowFault (s : State) (dst src : Word) (rows : List Row) : Option (Cause × Word) :=
  match rows.find? fun r => s.badRow dst r.dst r.n || s.badRow src r.src r.n with
  | some r => some (Cause.ulmbound, if s.badRow dst r.dst r.n then r.dst else r.src)
  | none => (rows.filterMap fun r => (s.ownCheck r.dst r.n { w := true }).orElse fun _ => s.ownCheck r.src r.n { r := true }).head?

/-- A copy whose rows pass steps 4 and 5 is sent with its ranges. -/
def State.sendRows (s : State) (c : Copy) : State :=
  let rows := (List.range c.rows).map c.row
  match s.rowFault c.dst c.src rows with
  | some (cause, a) => s.fault cause a
  | none => s.sendCopy { c with
      dstR := boundOf (rows.map fun r => s.ownRange c.core r.dst r.n)
      srcR := boundOf (rows.map fun r => s.ownRange c.core r.src r.n) }

/-- Copy of a range (R159). -/
def execCpy (d a b : Fin 32) (m n : Bool) (t : Fin 16) (s : State) : Result :=
  let len := s.g b
  s.scalar [d, a, b] <| s.copySlot t <|
    if len >>> 24 ≠ 0 then s.faultOpen Cause.illop
    else match misaligned [(len, 8), (s.g d, 8), (s.g a, 8)] with
      | some x => s.fault Cause.align x
      | none =>
        if len = 0 then
          match s.rowFault (s.g d) (s.g a) [{ dst := s.g d, src := s.g a, n := 0, lane := none }] with
          | some (cause, x) => s.fault cause x
          | none => if m then s.complete s.here.launch s.cur.core (completion 1 0 t.val s.cur.ctx.val 0 0 0) else s
        else
          let (id, s) := s.newId
          s.sendRows { s.newCopy id .cpy t n m with dst := s.g d, src := s.g a, shape := len }

/-- Copy of rows (R159). -/
def execCpy2d (d a b : Fin 32) (m n : Bool) (t : Fin 16) (s : State) : Result :=
  let g := s.g b
  s.scalar [d, a, b] <| s.copySlot t <|
    if shLen g = 0 then s.faultOpen Cause.illop
    else match misaligned [(BitVec.ofNat 64 (shLen g), 8), (s.g d, 8), (s.g a, 8)] with
      | some x => s.fault Cause.align x
      | none =>
        let (id, s) := s.newId
        s.sendRows { s.newCopy id .cpy2d t n m with dst := s.g d, src := s.g a, shape := g }

/-- Copies lane by lane between own ULM and addresses: steps 3 to 5 are taken lane by lane, and the lanes that pass are
sent as one copy (R150, R159, R160). DEDUCED: log 29. -/
def State.laneCopy (s : State) (kind : CopyKind) (a b : Fin 32) (nf mb : Bool) (pd : Option (Fin 8)) (t : Fin 16) : Result :=
  let off := s.g b
  let addr (l : Nat) : Word := lane l (s.v a)
  let own (l : Nat) : Word := off + BitVec.ofNat 64 (16 * l)
  let toUlm := decide (kind = .lcp)
  .next <|
    if s.src.gBad b || s.vMarked s.kmask [a] then s.faultPoison
    else s.copySlot t <|
      let chk (l : Nat) : Check :=
        match misaligned [(addr l, 16), (own l, 16)] with
        | some x => .bad Cause.align x
        | none =>
          if s.badEnd (addr l) 16 then .bad Cause.ulmbound (addr l)
          else if 0x20000 < (own l).toNat + 16 then .bad Cause.ulmbound (own l)
          else
            let mine := segCheck s.here.kseg s.src.mode (own l).toNat 16 (if toUlm then { w := true } else { r := true })
            let far := s.ownCheck (addr l) 16 (if toUlm then { r := true } else { w := true })
            match (if toUlm then mine.map (fun c => (c, own l)) |>.orElse (fun _ => far)
                   else far.orElse fun _ => mine.map fun c => (c, own l)) with
            | some (c, x) => .bad c x
            | none => .ok
      s.lanewise s.kmask chk fun m =>
        if m = 0 then s
        else
          let (id, s) := s.newId
          let base := winOf s.cur.core 0 + off
          let lanes := (lanesOf m).map fun l => (l, addr l)
          let c : Copy := { s.newCopy id kind t nf mb with
            dst := if toUlm then base else 0, src := if toUlm then 0 else base, lanes := lanes, pd := pd }
          let rows := (List.range c.rows).map c.row
          let s := s.sendCopy { c with
            dstR := boundOf (rows.map fun r => s.ownRange c.core r.dst r.n)
            srcR := boundOf (rows.map fun r => s.ownRange c.core r.src r.n) }
          match pd with
          | some p => s.modCx fun x => x.pend (.p p) true
          | none => s

/-- Gather of 16 bytes for each lane (R159). -/
def execLcp (a b : Fin 32) (m : Bool) (t : Fin 16) (s : State) : Result := s.laneCopy .lcp a b false m none t

/-- Gather that does not wait for missing pages (R159, R162). -/
def execLcpNf (d : Fin 8) (a b : Fin 32) (m : Bool) (t : Fin 16) (s : State) : Result := s.laneCopy .lcp a b true m (some d) t

/-- Scatter of 16 bytes for each lane (R159). -/
def execLcs (a b : Fin 32) (m : Bool) (t : Fin 16) (s : State) : Result := s.laneCopy .lcs a b false m none t

/-- Near-memory sum into main memory (R159, R388). -/
def execRdc (d a b : Fin 32) (m : Bool) (t : Fin 16) (s : State) : Result :=
  let g := s.g b
  let ty := (g.extractLsb' 24 2).toNat
  let len := (g.extractLsb' 0 24).toNat
  s.scalar [d, a, b] <| s.copySlot t <|
    if g >>> 26 ≠ 0 ∨ ty = 3 then s.faultOpen Cause.illop
    else match misaligned [(BitVec.ofNat 64 len, 32), (s.g d, 32), (s.g a, 8)] with
      | some x => s.fault Cause.align x
      | none =>
        let n := len / 32 * redBytes ty
        if bitOf (s.g d) 55 then s.fault Cause.ulmbound (s.g d)
        else if s.badEnd (s.g a) n then s.fault Cause.ulmbound (s.g a)
        else match s.ownCheck (s.g a) n { r := true } with
          | some (c, x) => s.fault c x
          | none =>
            let (id, s) := s.newId
            s.sendCopy { s.newCopy id .rdc t false m with
              dst := s.g d, src := s.g a, shape := g, srcR := s.ownRange s.cur.core (s.g a) n }

/-! ### The command of `ired` (R389) -/

/-- The command block. -/
structure IredCmd where
  table : Word
  stride : Nat
  idxOff : Nat
  nidx : Nat
  dOff : Nat
  rowLen : Nat
  ty : Nat
  deriving DecidableEq, Repr

def iredOf (bs : List Byte) : IredCmd :=
  { table := getWord bs 0, stride := getN bs 8 4, idxOff := getN bs 12 4, nidx := getN bs 16 4, dOff := getN bs 20 4,
    rowLen := getN bs 24 2, ty := getN bs 26 1 }

/-- The row size in bytes, and the destination's (R389). -/
def IredCmd.rowBytes (c : IredCmd) : Nat := if c.ty = 0 then 4 * c.rowLen else 2 * c.rowLen
def IredCmd.destBytes (c : IredCmd) : Nat := 4 * c.rowLen

/-- A field out of range, or a destination that meets the index list; an empty list meets nothing (R389). -/
def IredCmd.illegal (c : IredCmd) (bs : List Byte) : Bool :=
  decide (2 < c.ty) || decide (2 ^ 17 ≤ c.idxOff) || decide (2 ^ 17 ≤ c.dOff) || !zeroAt bs 27 37 || decide (16384 < c.nidx) ||
  !([32, 64, 128, 256, 512, 1024, 2048, 4096].contains c.rowBytes) ||
  (decide (c.nidx ≠ 0) && decide (c.dOff < c.idxOff + 4 * c.nidx) && decide (c.idxOff < c.dOff + c.destBytes))

/-- Gather and reduce rows of a table (R389). The command block is read at issue, as a local load reads it. -/
def execIred (a : Fin 32) (m : Bool) (t : Fin 16) (s : State) : Result :=
  let off := (s.g a).toNat
  let bs := memBytes s.mem (s.hereKey off) 64
  let c := iredOf bs
  let inUlm := decide (off + 64 ≤ 0x20000)
  let seg (lo n : Nat) (p : Perm) : Option (Cause × Word) :=
    if n = 0 then none else (segCheck s.here.kseg s.src.mode lo n p).map fun c => (c, BitVec.ofNat 64 lo)
  s.scalar [a] <| s.copySlot t <|
    s.access (if inUlm then s.alsoHeld (s.here.scoreboard off 64 false) off 64 false else .ok) <|
      if inUlm && s.poisonedRange (s.hereKey off) 64 then s.faultPoison
      else if inUlm && c.illegal bs then s.faultOpen Cause.illop
      else
        match misaligned [(s.g a, 64), (c.table, max 1 c.rowBytes), (BitVec.ofNat 64 c.stride, max 1 c.rowBytes),
            (BitVec.ofNat 64 c.idxOff, 4), (BitVec.ofNat 64 c.dOff, 32)] with
        | some x => s.fault Cause.align x
        | none =>
          if !inUlm then s.fault Cause.ulmbound (s.g a)
          else if 0x20000 < c.idxOff + 4 * c.nidx then s.fault Cause.ulmbound (BitVec.ofNat 64 c.idxOff)
          else if 0x20000 < c.dOff + c.destBytes then s.fault Cause.ulmbound (BitVec.ofNat 64 c.dOff)
          else
            match ((seg off 64 { r := true }).orElse fun _ => seg c.idxOff (4 * c.nidx) { r := true }).orElse
                fun _ => seg c.dOff c.destBytes { w := true } with
            | some (cause, x) => s.fault cause x
            | none =>
              let (id, s) := s.newId
              s.sendCopy { s.newCopy id .ired t false m with
                dst := winOf s.cur.core c.dOff, src := c.table, lanes := [(c.idxOff, BitVec.ofNat 64 c.nidx)],
                shape := BitVec.ofNat 64 (c.stride + c.rowLen * 2 ^ 32 + c.ty * 2 ^ 48),
                dstR := some { lo := c.dOff, hi := c.dOff + c.destBytes },
                srcR := if c.nidx = 0 then none else some { lo := c.idxOff, hi := c.idxOff + 4 * c.nidx } }

/-! ### Tags (R166) -/

/-- POISONED, STATUS and the failed ranges of a tag cleared. -/
def Tag.clear (t : Tag) : Tag := { t with poisoned := 0, status := 0, failed := [] }

/-- Wait for a tag (R166). -/
def execCtw (d : Fin 32) (t : Fin 16) (s : State) : Result :=
  let x := s.here.tags[t]
  .next <|
    if x.count ≠ 0 then s.stall (.ctw t)
    else (s.setG d x.word).modHere fun k => { k with tags := k.tags.set t k.tags[t].clear }

/-- Ask about a tag (R166). -/
def execCtq (d : Fin 32) (t : Fin 16) (s : State) : Result :=
  let x := s.here.tags[t]
  .next <|
    let s := s.setG d x.word
    if x.count ≠ 0 then s else s.modHere fun k => { k with tags := k.tags.set t k.tags[t].clear }

/-! ### The engines (R161, R162, R332, R340) -/

def State.copy? (s : State) (id : Nat) : Option Copy := s.copies.find? fun c => decide (c.id = id)
def State.modCopy (s : State) (id : Nat) (f : Copy → Copy) : State :=
  { s with copies := s.copies.map fun c => if c.id = id then f c else c }

/-- Parked contexts of a core look at their ranges again (R213). -/
def State.recheckParked (s : State) (c : Nat) : State :=
  (List.range 11).foldl (fun s x =>
    if ((s.core c).ctxs[Fin.ofNat 11 x]).parked then s.post .parkedResume { core := c, ctx := x } else s) s

/-- A condition met at the destination address that stands at place `k` of the copy order (R165). -/
def Copy.met (c : Copy) (cause : Cause) (k : Nat) (a : Word) : Copy :=
  let here : Option (Nat × Word) := some (k, a &&& 0x00FFFFFFFFFFFFFF)
  { c with
    status := topCause c.status cause
    addr := match c.addr with
      | some x => if k < x.1 then here else some x
      | none => here }

/-- The marks of some granules, one by one, and marks without them. -/
def marksOf (ps : List (Nat × List Range)) : List (Range × Nat) := ps.flatMap fun p => p.2.map fun r => (r, p.1)
def lessMarks (l : List (Range × Nat)) (ps : List (Nat × List Range)) : List (Range × Nat) :=
  (marksOf ps).foldl (fun l m => l.erase m) l

/-- The marks a copy has on some granules taken back: the ranges are released, once what was missing has landed (R213,
R340). -/
def State.unpark (s : State) (c : Copy) (at_ : Nat → Bool) : State :=
  let ps := c.park.filter fun p => at_ p.1
  let ls := c.landing.filter fun p => at_ p.1
  if ps = [] ∧ ls = [] then s
  else
    ((s.modTag c.launch c.core c.tag fun t =>
      { t with parked := lessMarks t.parked ps, landing := lessMarks t.landing ls }).modCopy c.id fun c =>
        { c with park := c.park.filter fun p => !at_ p.1, landing := c.landing.filter fun p => !at_ p.1 }).recheckParked c.core

/-- What a copy was parked on has come and it goes on: its ranges are parked no more, and are released once the copy has landed
(R163, R213). -/
def State.pageCame (s : State) (c : Copy) (at_ : Nat → Bool) : State :=
  let ps := c.park.filter fun p => at_ p.1
  if ps = [] then s
  else
    (s.modTag c.launch c.core c.tag fun t =>
      { t with parked := lessMarks t.parked ps, landing := t.landing ++ marksOf ps }).modCopy c.id fun c =>
        { c with park := c.park.filter fun p => !at_ p.1, landing := c.landing ++ ps }

/-- A launch is being ended, or has gone (R322). -/
def State.hasEnded (s : State) (l : Nat) : Bool :=
  ((s.launch? l).map fun x => decide (x.st = .ending) || decide (x.st = .retired)).getD false

/-- A copy ends: its undelivered part, if it failed, becomes a failed range; the tag counts it off; the message goes to
q2 (R161, R165, R166). Of an `lcp.nf` a lane is 0 in pD only where zeros landed: a lane whose source was refused, or whose
copy ended before it, reads 1 (R162 names neither; DESIGN CHOICE, log 70). The completion of an ended launch is discarded
(R322, R391). -/
def State.endCopy (s : State) (c : Copy) (failed : List Range) : State :=
  if c.kind = .chunk then
    { s with copies := s.copies.filter fun x => decide (x.id ≠ c.id) }.post .chameleonWindowAck
      { id := (c.idx[0]?).getD 0, n := (c.idx[1]?).getD 0, cause := c.status, flag := true }
  else
  let s := s.unpark c fun _ => true
  let s := s.modTag c.launch c.core c.tag fun t =>
    let n := t.count - 1
    { t with
      count := n
      status := topCause t.status c.status
      poisoned := BitVec.ofNat 32 (min (2 ^ 32 - 1) (t.poisoned.toNat + c.poisoned))
      dst := if n = 0 then none else t.dst
      src := if n = 0 then none else t.src
      failed := t.failed ++ failed }
  let s := match c.pd with
    | some p =>
      let sent : Mask := c.lanes.foldl (fun m (x : Nat × Word) => withBit m x.1 true) 0
      s.modCoreOf c.launch c.core fun k => (k.writeP c.ctx p sent (~~~c.pdBits)).modCtx c.ctx fun x => x.pend (.p p) false
    | none => s
  let s : State := { s with copies := s.copies.filter fun x => decide (x.id ≠ c.id) }
  let s := if c.mb && !s.hasEnded c.launch then
      s.complete c.launch c.core (completion c.kind.code c.status c.tag.val c.ctx.val c.poisoned c.zeroed ((c.addr.map Prod.snd).getD 0))
    else s
  (s.recheckParked c.core).post .c0CompletionReport { core := c.core }

/-- A copy parks on a granule: the core marks the undelivered part of its own destination, in place of what it marked for
the same granule, or, for a copy that goes on in copy order, for another (R340). A chunk of a Chameleon command whose launch has
ended is over, for the response would be discarded (R342, R401). -/
def State.parkCopy (s : State) (c : Copy) (va : Nat) (rs : List Range) : State :=
  let g := granuleOf va
  let rs := if c.kind = .chunk then [] else rs
  if c.kind = .chunk ∧ ((s.launch? c.launch).isNone ∨ s.hasEnded c.launch) then
    { s with pageWaits := s.pageWaits.filter fun w => decide (w.req ≠ c.id) }.endCopy (c.met Cause.pageinv c.next c.dst) []
  else (((s.unpark c fun x => decide (c.kind ≠ .ired) || decide (x = g)).modTag c.launch c.core c.tag fun t => { t with parked := t.parked ++ rs.map fun r => (r, g) }).modCopy c.id fun c =>
    { c with park := (g, rs) :: c.park })

/-- What reading the source of a piece gives. -/
inductive Got where
  | data (bs : List Byte) (bad zero : Bool)
  | fail (c : Cause)
  | parked (va : Nat)
  | later
  deriving DecidableEq, Repr

/-- Main-memory bytes inside one granule, for a copy: missing pages of a .nf source read as zeros (R161, R162). -/
def State.readPart (s : State) (c : Copy) (task : Task) (va n : Nat) (ahead : List (Nat × Bool)) : Got × State :=
  let found (pa : Nat) (s : State) : Got × State := (.data (memBytes s.mem pa n) (s.poisonedRange pa n) false, s)
  if c.nf then
    match s.translate c.pasid va false with
    | (.at_ pa, s) => found pa s
    | (.missing, s) => (.data (List.replicate n 0) false true, s)
    | (.inv, s) => (.fail Cause.pageinv, s)
    | (.poison, s) => (.fail Cause.poison, s)
    | (.asked, s) => (.later, { s with agenda := s.agenda ++ [task] })
  else
    match s.need c.id task c.launch c.pasid va false ahead with
    | (.at_ pa, s) => found pa s
    | (.fail x, s) => (.fail x, s)
    | (.parked, s) => (.parked va, s)
    | (.later, s) => (.later, s)

/-- A piece at core `t` is no part of an own-ULM end, which was checked at issue: the port checks it (R160, R161). -/
def Copy.strays (c : Copy) (base : Word) (t : Nat) : Bool :=
  decide (c.kind = .chunk) || decide (t ≠ c.core) || (decide (c.kind = .cpy ∨ c.kind = .cpy2d) && decide (winCore base ≠ c.core))

/-- Bytes read at the port of a core of the launch; an address that a long end carries out of window form lies in no
segment (R146, R161, R320, R388). -/
def State.readPort (s : State) (c : Copy) (va : Word) (n : Nat) : Got :=
  let t := winCore va
  match s.ulmBase c.launch t with
  | some base =>
    if !winForm va || (c.strays c.src t && !s.portPermits c.launch t (winOff va) n false) then .fail Cause.window
    else .data (memBytes s.mem (base + winOff va) n) (s.poisonedRange (base + winOff va) n) false
  | none => .fail Cause.window

/-- The other package that owns an end of a copy; none when it is this one. -/
def State.elsewhere (s : State) (c : Copy) (dst : Bool) (va : Word) : Option Nat :=
  let own := s.mgmt.pkgnum.toNat
  let p := if bitOf va 55 then winTarget own va
    else if c.kind = .chunk then ((c.idx[if dst then 3 else 2]?).map fun p => if p = 1024 then own else p).getD own else own
  if p = own then none else some p

/-- A request of a copy toward another package: TYPE 5 asks for bytes, TYPE 2 writes them; data of a poisoned sector
has the poison bit of its flit set. AUX holds the length and the PASID (R403, R428; log 17). -/
def State.copyRemote (s : State) (c : Copy) (pkg : Nat) (va : Word) (n : Nat) (data : Option (List Byte × Bool)) :
    Option State :=
  let fl := match data with
    | some d => [BitVec.ofNat 256 (leNat d.1)]
    | none => []
  let op : BitVec 16 := if (data.map Prod.snd).getD false then 0x100 else 0
  (s.lenboRequest (if data.isSome then 2 else 5) pkg op va (BitVec.ofNat 32 (n + 4096 * c.pasid)) fl c.core none (some c.id)).map fun s =>
    s.modCopy c.id fun c => { c with out := true, got := none }

/-- The source of a piece: an address of another package answers later (R161). -/
def State.readSource (s : State) (c : Copy) (task : Task) (va : Word) (n : Nat) (ahead : List (Nat × Bool)) : Got × State :=
  match s.elsewhere c false va with
  | some pkg =>
    match c.got with
    | some (bs, bad) => (.data bs bad false, s)
    | none =>
      match s.copyRemote c pkg va n none with
      | some t => (.later, t)
      | none => (.later, { s with agenda := s.agenda ++ [task] })
  | none =>
    if bitOf va 55 then
      if s.portBusy c.launch (winCore va) then (.later, s.postStart (s.ticks + 1) task.op task.arg) else (s.readPort c va n, s)
    else s.readPart c task va.toNat n ahead

/-- The further source and destination granules of a copy, each with its access, for the look-ahead (R341). -/
def Copy.ahead (c : Copy) (k : Nat) : List (Nat × Bool) :=
  (((List.range 15).filterMap fun i => c.piece (k + 128 * (i + 1))).flatMap fun p =>
    [(granuleOf p.src.toNat, false), (granuleOf p.dst.toNat, true)]).dedup

/-- `n` source bytes at `a`, gathered sector by sector: a sector that the copy has not read yet is read whole, as far as the
copy needs it, in one step (R161, R241). At most `i` sectors are looked at. -/
def State.gather (s : State) (id : Nat) (task : Task) (ahead : List (Nat × Bool)) : Nat → Nat → Nat → Got × State
  | 0, _, _ => (.data [] false false, s)
  | i + 1, a, n =>
    match s.copy? id with
    | none => (.later, s)
    | some c =>
      if n = 0 then (.data [] false false, s)
      else
        let m := min n (32 - a % 32)
        match c.cached a m with
        | some r =>
          match s.gather id task ahead i (a + m) (n - m) with
          | (.data bs bad zero, s) => (.data (r.1 ++ bs) (r.2.1 || bad) (r.2.2 || zero), s)
          | r => r
        | none =>
          match c.refused with
          | some x => (.fail x, s)
          | none =>
            let w := c.needs (a / 32)
            match s.readSource c task (BitVec.ofNat 64 w.1) w.2 ahead with
            | (.data bs bad zero, s) =>
              (s.modCopy id fun c => { c with read := (w.1, bs, bad, zero) :: c.read, got := none }).gather id task ahead i a n
            | r => r

/-- The data of some pieces, with their poison and zeros; the first that has none, and why. -/
def State.gatherRun (s : State) (c : Copy) (task : Task) :
    List Row → List (Row × List Byte × Bool × Bool) × Option (Row × Got) × State
  | [] => ([], none, s)
  | p :: ps =>
    match s.gather c.id task (c.ahead c.next) 4 p.src.toNat p.n with
    | (.data bs bad zero, s) =>
      let r := s.gatherRun c task ps
      ((p, bs, bad, zero) :: r.1, r.2)
    | (g, s) => ([], some (p, g), s)

/-- Pieces are over, `k` of them: the conditions they met, and the next piece. -/
def State.piecesDone (s : State) (c : Copy) (k : Nat) (f : Copy → Copy) : State :=
  ((s.pageCame c fun _ => true).modCopy c.id fun c =>
    { f c with next := c.next + k, got := none, out := false, refused := none, marked := [] }).post .copySectorWrite { id := c.id }

/-- A condition that ends a copy: a failed translation or a poisoned table entry (R161, R338). -/
def endsCopy (c : Cause) : Bool := decide (c = Cause.pageinv) || decide (c = Cause.poison)

/-- A sector written at `a`: poisoned, or with zeros in place of a missing page, those of some lanes (R162, R165). -/
def Copy.wrote (c : Copy) (a : Word) (poisoned zero : Bool) (lanes : List Nat) : Copy :=
  let c1 := if poisoned then { c.met Cause.poison c.next a with poisoned := c.poisoned + 1 } else c
  if zero then
    { c1.met Cause.pagewait c.next a with
      zeroed := c1.zeroed + 1
      pdBits := lanes.foldl (fun m l => withBit m l true) c1.pdBits }
  else c1

/-- Bytes written to the destination of a copy in one step, as those of `k` pieces: the sector lands, poisoned where the data
or what stays of it is; or it is refused (R161). An address of another package has it written there. -/
def State.writeSector (s : State) (c : Copy) (task : Task) (a : Word) (k : Nat) (bs : List Byte) (bad zero : Bool) (lanes : List Nat) :
    State :=
  let done (s : State) (poisoned : Bool) : State := s.piecesDone c k fun c => c.wrote a poisoned zero lanes
  match s.elsewhere c true a with
  | some pkg =>
    match s.copyRemote c pkg a bs.length (some (bs, bad)) with
    | some t => t.modCopy c.id fun c => { c with marked := [bitNat bad, bitNat zero, k] }
    | none => { s with agenda := s.agenda ++ [task] }
  | none =>
    if bitOf a 55 then
      let t := winCore a
      match s.ulmBase c.launch t with
      | some base =>
        if !winForm a || (c.strays c.dst t && !s.portPermits c.launch t (winOff a) bs.length true) then
          s.piecesDone c k fun c => c.met Cause.window c.next a
        else if s.portBusy c.launch t then s.postStart (s.ticks + 1) task.op task.arg
        else
          let key := base + winOff a
          let s := s.landKey c.launch t key bs bad
          done s (s.poisoned key)
      | none => s.piecesDone c k fun c => c.met Cause.window c.next a
    else
      match s.need c.id task c.launch c.pasid a.toNat true (c.ahead c.next) with
      | (.at_ pa, s) =>
        let s := s.landKey c.launch c.core pa bs bad
        done s (s.poisoned pa)
      | (.fail x, s) => s.endCopy (c.met x c.next a) (s.undelivered c c.next)
      | (.parked, s) => s.parkCopy c a.toNat (s.undelivered c c.next)
      | (.later, s) => s

/-- The next destination sector of a copy: its source sectors are read, and it is written in one step; a refused sector is not
written (R161, R162, R228, R241, R340). -/
def execCopySectorWrite (s : State) : Result :=
  let task : Task := { op := .copySectorWrite, arg := s.ev, lane := 0 }
  .next <|
    match s.copy? s.ev.id with
    | none => s
    | some c =>
      match c.piece c.next with
      | none => s.post .copyComplete { id := c.id }
      | some p =>
        if c.out then s
        else if c.marked ≠ [] ∧ c.refused.isSome then
          s.piecesDone c ((c.marked[2]?).getD 1) fun c => c.met (c.refused.getD 0) c.next p.dst
        else if c.marked ≠ [] ∧ c.got = some ([], false) then
          s.piecesDone c ((c.marked[2]?).getD 1) fun c => c.wrote p.dst (c.marked.head? = some 1) (c.marked[1]? = some 1) []
        else
          let r := s.gatherRun c task (c.run 3 c.next p)
          let s := r.2.2
          let write : State :=
            s.writeSector c task p.dst r.1.length (r.1.flatMap fun x => x.2.1) (r.1.any fun x => x.2.2.1) (r.1.any fun x => x.2.2.2)
              ((r.1.filter fun x => x.2.2.2).filterMap fun x => x.1.lane)
          match r.2.1 with
          | none => write
          | some (_, .later) => s
          | some (_, .data _ _ _) => s
          | some (q, .parked _) => s.parkCopy c q.src.toNat (s.undelivered c c.next)
          | some (_, .fail x) =>
            if r.1 ≠ [] then write
            else if endsCopy x then s.endCopy (c.met x c.next p.dst) (s.undelivered c c.next)
            else s.piecesDone c 1 fun c => c.met x c.next p.dst

/-- Every sector of a copy has been written or given up (R161, R165). -/
def execCopyComplete (s : State) : Result :=
  .next <|
    match s.copy? s.ev.id with
    | some c => s.endCopy c []
    | none => s

/-! ### Near-memory sums (R83, R388) -/

/-- Elements of a source type read exactly as f32 codes; a NaN is the default NaN (R66, R71, R83, R388). -/
def toF32 (ty : Nat) (x : Nat) : Nat :=
  let f := if ty = 0 then fmtF32 else if ty = 1 then fmtBf16 else fmtF16
  (fmtF32.deliver {} (f.value x)).code
def redElems (ty : Nat) (bs : List Byte) : List Nat :=
  let w := if ty = 0 then 4 else 2
  (List.range (bs.length / w)).map fun i => toF32 ty (getN bs (w * i) w)

/-- One f32 addition of an adder (R83). -/
def redAdd (x y : Nat) : Nat := (fmtF32.add {} (fmtF32.value x) (fmtF32.value y)).code

/-- f32 codes as bytes. -/
def f32Bytes (l : List Nat) : List Byte := l.flatMap fun x => natBytes x 4

/-- Destination sectors of an `rdc`. -/
def Copy.sectors (c : Copy) : Nat := (c.shape.extractLsb' 0 24).toNat / 32

/-- A sector of an `rdc` is over; the last one completes it. -/
def State.rdcNext (s : State) (c : Copy) (c' : Copy) : State :=
  let s := s.modCopy c.id fun now => { c' with next := c.next + 1, got := none, out := false, refused := none, read := now.read }
  if c.next + 1 = c.sectors then s.post .copyComplete { id := c.id } else s

/-- An `rdc` adds into one destination sector, as one step (R83, R388). -/
def execRdcSectorUpdate (s : State) : Result :=
  let k := s.ev.n
  let task : Task := { op := .rdcSectorUpdate, arg := s.ev, lane := 0 }
  .next <|
    match s.copy? s.ev.id with
    | none => s
    | some c =>
      let ty := (c.shape.extractLsb' 24 2).toNat
      let n := redBytes ty
      let dst := c.dst + BitVec.ofNat 64 (32 * k)
      let src := c.src + BitVec.ofNat 64 (n * k)
      if bitOf src 55 ∧ s.remote src ∧ (c.out ∨ k ≠ c.next) then { s with agenda := s.agenda ++ [task] }
      else match s.gather c.id task [] 4 src.toNat n with
      | (.parked _, s) => s
      | (.later, s) => s
      | (.fail x, s) => if endsCopy x then s.endCopy (c.met x k dst) [] else s.rdcNext c (c.met x k dst)
      | (.data bs bad _, s) =>
        match s.need c.id task c.launch c.pasid dst.toNat true with
        | (.parked, s) => s
        | (.later, s) => s
        | (.fail x, s) => s.endCopy (c.met x k dst) []
        | (.at_ pa, s) =>
          match s.brineUpdate c.launch (pa / 32) c.core c.ctx.val with
          | none => { s with agenda := s.agenda ++ [task] }
          | some s =>
            if bad || s.poisoned pa then
              let (free, s) := s.freeBytes 32
              ((s.storeBytes pa free).setPoison pa).rdcNext c { c.met Cause.poison k dst with poisoned := c.poisoned + 1 }
            else
              let old := redElems 0 (memBytes s.mem pa 32)
              (s.storeBytes pa (f32Bytes (old.zipWith redAdd (redElems ty bs)))).rdcNext c c

/-! ### Gathered sums (R83, R389, R390) -/

/-- The command of an outstanding `ired`. -/
def Copy.ired (c : Copy) : IredCmd :=
  let x := (c.lanes.head?).getD (0, 0)
  { table := c.src, stride := (c.shape.extractLsb' 0 32).toNat, idxOff := x.1, nidx := x.2.toNat, dOff := winOff c.dst,
    rowLen := (c.shape.extractLsb' 32 16).toNat, ty := (c.shape.extractLsb' 48 8).toNat }

/-- The address of a row (R390). -/
def IredCmd.rowAt (c : IredCmd) (x : Nat) : Nat := (c.table.toNat + x * c.stride) % 2 ^ 64

/-- The dies that have an index to fold or a partial to combine, ascending. -/
def Copy.dies (c : Copy) : List Nat :=
  (List.range 16).filter fun j =>
    (c.idx.any fun x => decide (colour (c.ired.rowAt x) = j)) || c.parts.any fun p => decide (p.1 = j)

/-- Receipt of a request: a copy begins; an `rdc` goes to its sectors; an `ired` reads its index list at the
requester's port and sends the indices out (R161, R388, R390). -/
def execCopyRequestReceipt (s : State) : Result :=
  .next <|
    match s.copy? s.ev.id with
    | none => s
    | some c =>
      let s := s.modCopy c.id fun c => { c with started := true }
      match c.kind with
      | .rdc =>
        if c.sectors = 0 then s.post .copyComplete { id := c.id }
        else (List.range c.sectors).foldl (fun s k => s.post .rdcSectorUpdate { id := c.id, n := k }) s
      | .ired =>
        let q := c.ired
        match s.ulmBase c.launch c.core with
        | none => s.post .copyComplete { id := c.id }
        | some base =>
          if s.portBusy c.launch c.core then s.postStart (s.ticks + 1) .copyRequestReceipt s.ev
          else if q.nidx = 0 then
            let zeroed : State := (List.range (q.destBytes / 32)).foldl (fun s i =>
              s.landKey c.launch c.core (base + q.dOff + 32 * i) (List.replicate 32 0) false) s
            zeroed.post .copyComplete { id := c.id }
          else if s.poisonedRange (base + q.idxOff) (4 * q.nidx) then
            (s.modCopy c.id fun c => c.met Cause.poison 0 c.dst).post .copyComplete { id := c.id }
          else
            let idx := (List.range q.nidx).map fun i => s.loadNat (base + q.idxOff + 4 * i) 4
            let s := s.modCopy c.id fun c => { c with idx := idx }
            ({ c with idx := idx }).dies.foldl (fun s j => s.post .iredFold { id := c.id, die := j }) s
      | _ => s.post .copySectorWrite { id := c.id }

/-- An `ired` ended by a failed translation: the whole destination becomes a failed range (R390). -/
def State.failIred (s : State) (c : Copy) (cause : Cause) : State :=
  let q := c.ired
  let n := c.marked.length
  s.endCopy { c.met cause 0 (BitVec.ofNat 64 q.dOff + winOf c.core 0) with poisoned := n } [{ lo := q.dOff, hi := q.dOff + q.destBytes }]

/-- A partial sum with one more row: values and marks (R83, R390). -/
def foldRow (old : Option (List (BitVec 32) × List Bool)) (row : List Nat) (bad : List Bool) : List (BitVec 32) × List Bool :=
  match old with
  | none => (row.map (BitVec.ofNat 32), bad)
  | some (p, m) => (p.zipWith (fun x y => BitVec.ofNat 32 (redAdd x.toNat y)) row, m.zipWith (fun a b => a || b) bad)

/-- A die folds its next row (R390). -/
def execIredFold (s : State) : Result :=
  let j := s.ev.die
  let task : Task := { op := .iredFold, arg := s.ev, lane := 0 }
  .next <|
    match s.copy? s.ev.id with
    | none => s
    | some c =>
      let q := c.ired
      match c.idx.find? fun x => decide (colour (q.rowAt x) = j) with
      | none => s.post .iredCombine { id := c.id }
      | some x0 =>
        match s.need c.id task c.launch c.pasid (q.rowAt x0) false with
        | (.fail e, s) => s.failIred c e
        | (.parked, s) => s.parkCopy c (q.rowAt x0) [{ lo := q.dOff, hi := q.dOff + q.destBytes }]
        | (.later, s) => s
        | (.at_ pa, s) =>
          let n := q.rowBytes
          let row := redElems q.ty (memBytes s.mem pa n)
          let w := if q.ty = 0 then 4 else 2
          let bad := (List.range q.rowLen).map fun i => s.poisoned (pa + w * i)
          let s := s.pageCame c fun x => decide (x = granuleOf (q.rowAt x0))
          let part := foldRow ((c.parts.find? fun p => decide (p.1 = j)).map Prod.snd) row bad
          (s.modCopy c.id fun c => { c with
            idx := c.idx.erase x0, parts := (j, part.1, part.2) :: c.parts.filter fun p => decide (p.1 ≠ j) }).post .iredFold s.ev

/-- A sector's eight elements of a partial, and whether one is marked. -/
def partSector (p : List (BitVec 32) × List Bool) (i : Nat) : List Nat × Bool :=
  (((p.1.drop (8 * i)).take 8).map BitVec.toNat, ((p.2.drop (8 * i)).take 8).any id)

/-- The requester's port combines the next die's partial, one destination sector at a time, in increasing die order
(R83, R390). -/
def execIredCombine (s : State) : Result :=
  .next <|
    match s.copy? s.ev.id with
    | none => s
    | some c =>
      match c.dies with
      | [] => (s.modCopy c.id fun c => { c with poisoned := c.marked.length }).post .copyComplete { id := c.id }
      | j :: _ =>
        let q := c.ired
        match c.parts.find? fun p => decide (p.1 = j), s.ulmBase c.launch c.core with
        | some p, some base =>
          if c.idx.any fun x => decide (colour (q.rowAt x) = j) then s
          else if s.portBusy c.launch c.core then s.postStart (s.ticks + 1) .iredCombine s.ev
          else
            let i := c.next
            let key := base + q.dOff + 32 * i
            let first := !c.out
            let sec := partSector p.2 i
            let old := redElems 0 (memBytes s.mem key 32)
            let bad := sec.2 || (c.out && s.poisoned key)
            let s := s.landKey c.launch c.core key (f32Bytes (if first then sec.1 else old.zipWith redAdd sec.1)) bad
            let s := s.modCopy c.id fun c =>
              if bad && !c.marked.contains i then { c.met Cause.poison i (c.dst + BitVec.ofNat 64 (32 * i)) with marked := i :: c.marked }
              else c
            let last := decide (32 * (i + 1) = q.destBytes)
            (s.modCopy c.id fun c =>
              if last then { c with next := 0, out := true, parts := c.parts.filter fun p => decide (p.1 ≠ j) }
              else { c with next := i + 1 }).post .iredCombine { id := c.id }
        | _, none => s.post .copyComplete { id := c.id }
        | none, _ => s

end Sys2Proof.Machine
end

