-- ==== Sys2Proof/Machine/Exchange.lean ====
section
/-! DEFINITION. Phased exchange: sends and reductions in slots, the paths of their flits, meetings, landings, and the
barriers of a group (R82, R173 to R176, R246, R253 to R262, R458). -/

namespace Sys2Proof.Machine

/-! ### Paths (R3, R255 to R258) -/

/-- The die of a core (R3). -/
def dieOf (c : Nat) : Nat := c / 256 / 64 * 2 + c % 256 / 128

/-- Ticks from an output at one router to the output at the next: one, or three across a die edge (R255). -/
def hopTicks (a b : Nat) : Nat := if dieOf a = dieOf b then 1 else 3

/-- Outputs of a router: 0 inject, 1 north, 2 east, 3 south, 4 west, 5 eject. -/
structure Hop where
  tick : Nat
  router : Nat
  out : Nat
  deriving DecidableEq, Repr

/-- The next router of a path along the row and then the column, with the output that leads there (R256). -/
def nextHop (c d : Nat) : Option (Nat × Nat) :=
  if c % 256 < d % 256 then some (2, c + 1)
  else if d % 256 < c % 256 then some (4, c - 1)
  else if c < d then some (3, c + 256)
  else if d < c then some (1, c - 256)
  else none

/-- The path from a router to another, and the tick in which the flit stands there: outputs used on the way (R256). -/
def pathTo (d : Nat) : Nat → Nat → Nat → List Hop × Nat
  | 0, _, t => ([], t)
  | n + 1, c, t =>
    match nextHop c d with
    | none => ([], t)
    | some (out, c') =>
      let r := pathTo d n c' (t + hopTicks c c')
      ({ tick := t, router := c, out := out } :: r.1, r.2)

/-- A path that ends at the target's eject output: the outputs, and the slot of the ejection as a tick (R256). -/
def pathEject (c d t : Nat) : List Hop × Nat :=
  let r := pathTo d 128 c t
  (r.1 ++ [{ tick := r.2, router := d, out := 5 }], r.2)

/-- A multicast along a line from the issuer's router to one side: `at_ p` is the router of position p (R257). -/
def lineSide (at_ : Nat → Nat) (up : Bool) (out a b : Nat) : Nat → Nat → Nat → List Hop
  | 0, _, _ => []
  | n + 1, p, t =>
    let more := if up then decide (p < b) else decide (a < p)
    if more then
      let p' := if up then p + 1 else p - 1
      let t' := t + hopTicks (at_ p) (at_ p')
      { tick := t, router := at_ p, out := out } ::
        ((if a ≤ p' ∧ p' ≤ b then [{ tick := t', router := at_ p', out := 5 }] else []) ++ lineSide at_ up out a b n p' t')
    else []

/-- A multicast from position p to the positions a to b (R257). -/
def lineCast (at_ : Nat → Nat) (row : Bool) (a b p t : Nat) : List Hop :=
  (if a ≤ p ∧ p ≤ b then [{ tick := t, router := at_ p, out := 5 }] else []) ++
  lineSide at_ true (if row then 2 else 3) a b 64 p t ++ lineSide at_ false (if row then 4 else 1) a b 64 p t

/-- The path of a reduction's flit through the later contributors to its destination: each adds and goes on one slot
after the partial arrives (R258). -/
def chainPath (d : Nat) : List Nat → Nat → Nat → List Hop × Nat
  | [], c, t => pathEject c d t
  | c' :: rest, c, t =>
    let r := pathTo c' 128 c t
    let q := chainPath d rest c' (r.2 + 1)
    (r.1 ++ q.1, q.2)

/-! ### Flits of a group (R175, R255, R259, R260) -/

/-- The slot of a tick of the phase, from the present tick on (R253). -/
def Group.slotOf (g : Group) (now t : Nat) : Nat := g.kxslot + (t - now)

/-- The slot of the tick before this one: after an end by XLONG, the last slot of the phase that has ended (R174, R458). -/
def Group.lastSlot (g : Group) : Nat := if g.kxslot = 0 then 999 else g.kxslot - 1

/-- Two flits meet: the condition is recorded, and both flits' data are undefined from then on (R175, R260). -/
def Group.meet (g : Group) (now : Nat) (h : Hop) (a b : Nat) : Group :=
  { g with
    xcolls := (g.slotOf now h.tick, h.router) :: g.xcolls
    flits := g.flits.map fun f => if (f.id = a ∨ f.id = b) ∧ h.tick < f.tick then { f with met := true } else f }

/-- A flit uses an output: it meets every other flit that uses it in that slot (R255, R260). -/
def Group.use (g : Group) (now id : Nat) (h : Hop) : Group :=
  let hits := g.uses.filter fun u =>
    decide (u.tick = h.tick) && decide (u.router = h.router) && decide (u.out = h.out) && decide (u.flit ≠ id)
  let g := hits.foldl (fun g u => g.meet now h u.flit id) g
  { g with uses := { tick := h.tick, router := h.router, out := h.out, flit := id } :: g.uses }

/-- A flit enters the network: its landings, and the outputs it uses. A flit lands in the tick after it is ejected, before
any local access of that tick (R255, R259); `segs` are the segments its instruction found at its targets (R29). -/
def State.launchFlit (s : State) (g : Nat) (id doff : Nat) (data : VReg) (mark : Bool) (hops : List Hop)
    (segs : List (Nat × Vector Word 4)) : State :=
  let lands := hops.filter fun h => decide (h.out = 5)
  let s := s.modGroup g fun x =>
    let x := { x with flits := x.flits ++ lands.map fun h =>
      { id := id, target := h.router, doff := doff, tick := h.tick + 1, data := data, mark := mark, met := false,
        segs := assoc (Vector.replicate 4 0) h.router segs } }
    hops.foldl (fun x h => x.use s.ticks id h) x
  lands.foldl (fun s h => s.postStart (h.tick + 1) .flitLanding { group := g, id := id, core := h.router }) s

/-- The 32 bytes of a flit at a core's offset, and the poison of their sector. -/
def State.flitAt (s : State) (c off : Nat) : VReg × Bool :=
  (BitVec.ofNat 256 (s.loadNat (ulmKey c off) 32), s.poisoned (ulmKey c off))

/-! ### Issue (R173, R175) -/

/-- An instruction that only c0 may issue (R173). -/
def State.onlyC0 (s : State) (body : State) : Result :=
  .next (if s.cur.ctx ≠ 0 then s.faultOpen Cause.illop else body)

/-- Fields of gA and gB (R175). -/
def xDoff (g : Word) : Nat := (g.extractLsb' 32 17).toNat
def xSoff (g : Word) : Nat := (g.extractLsb' 0 17).toNat
def xSlot (g : Word) : Nat := (g.extractLsb' 32 16).toNat
def xFlits (g : Word) : Nat := (g.extractLsb' 16 16).toNat
def xTgt (g : Word) : Nat := (g.extractLsb' 0 16).toNat

/-- The group of the issuing core, and the core's position in it. -/
def State.myGroup (s : State) : Group := s.group s.here.group
def Group.relX (g : Group) (c : Nat) : Nat := c % 256 - g.corner % 256
def Group.relY (g : Group) (c : Nat) : Nat := c / 256 - g.corner / 256

/-- The target lies outside the group (R175). -/
def Group.outside (g : Group) (m : XMode) (tgt : Nat) : Bool :=
  let lo := tgt % 256
  let hi := tgt / 256
  match m with
  | .uc => decide (g.w ≤ lo) || decide (g.h ≤ hi)
  | .row => decide (hi < lo) || decide (g.w ≤ hi)
  | .col => decide (hi < lo) || decide (g.h ≤ hi)

/-- The cores a send of core `c` names, inside the group (R175). -/
def Group.targets (g : Group) (m : XMode) (c tgt : Nat) : List Nat :=
  let lo := tgt % 256
  let hi := tgt / 256
  match m with
  | .uc => [g.corner + 256 * hi + lo]
  | .row => (List.range (hi + 1 - lo)).map fun i => c / 256 * 256 + g.corner % 256 + lo + i
  | .col => (List.range (hi + 1 - lo)).map fun i => (g.corner / 256 + lo + i) * 256 + c % 256

/-- The destination of a reduction along the row or the column of core `c` (R175). -/
def Group.chainDest (g : Group) (row : Bool) (c tgt : Nat) : Nat :=
  let to_ := tgt % 256
  if row then c / 256 * 256 + g.corner % 256 + to_ else (g.corner / 256 + to_) * 256 + c % 256

/-- The segments of some cores as they are: an access already issued keeps them (R29). -/
def State.segsNow (s : State) (cs : List Nat) : List (Nat × Vector Word 4) := cs.map fun c => (c, (s.core c).kseg)

/-- The first flit whose source bytes the issuing context may not read, with the cause (R28, R246). The manual gives the
read no time for a fault: it is checked at issue, after the checks of R175 (DESIGN CHOICE, log 44). -/
def State.sourceCheck (s : State) (soff f : Nat) : Option (Cause × Nat) :=
  (List.range f).findSome? fun j =>
    (segCheck s.here.kseg s.src.mode (soff + 32 * j) 32 { r := true }).map fun c => (c, soff + 32 * j)

/-- An earlier access of the issuing context holds the reads of a source range: an acquire, or a window access or a copy to
these bytes (R230, R235, R246). -/
def State.sourceHeld (s : State) (a n : Nat) : Bool :=
  s.windowHeld a n || s.copyHeld s.cur.core s.cur.ctx s.nextId a n false

/-- The checks of R175, then the wait for slot S, and for what holds the source reads; a send of no flit ends after the
checks. -/
def State.xIssue (s : State) (a b : Fin 32) (out : Bool) (send : State → State) : Result :=
  let ga := s.g a
  let gb := s.g b
  let now := s.myGroup.kxslot
  s.onlyC0 <|
    if s.src.gBad a || s.src.gBad b then s.faultPoison
    else if xDoff ga % 32 ≠ 0 then s.fault Cause.align (BitVec.ofNat 64 (xDoff ga))
    else if xSoff ga % 32 ≠ 0 then s.fault Cause.align (BitVec.ofNat 64 (xSoff ga))
    else if 1000 < xSlot gb + xFlits gb then s.faultOpen Cause.xlong
    else if xSlot gb < now ∨ out then s.fault Cause.xcoll (gb &&& 0x00FFFFFFFFFFFFFF)
    else if xFlits gb = 0 then s
    else match s.sourceCheck (xSoff ga) (xFlits gb) with
    | some (c, a) => s.fault c (BitVec.ofNat 64 a)
    | none =>
      let s := s.modGroup s.here.group fun g => { g with exch := true }
      if now < xSlot gb || s.sourceHeld (xSoff ga) (32 * xFlits gb) then s.stall .other else send s

/-- Send of flits in slots (R175). -/
def execXsend (a b : Fin 32) (xm : XMode) (s : State) : Result :=
  let ga := s.g a
  let gb := s.g b
  s.xIssue a b (s.myGroup.outside xm (xTgt gb)) fun s =>
    let (id, s) := s.newId
    let gid := s.here.group
    let x : Xsend :=
      { id := id, core := s.cur.core, mode := xm, s := xSlot gb, f := xFlits gb, tgt := xTgt gb, doff := xDoff ga,
        soff := xSoff ga, base := s.ticks, done := 0,
        segs := s.segsNow (s.myGroup.targets xm s.cur.core (xTgt gb)) }
    let s := s.modGroup gid fun g => { g with exch := true, xsends := g.xsends ++ [x] }
    (List.range x.f).foldl (fun s j => s.postAt (s.ticks + j) .flitInject { group := gid, id := id, n := j }) s

/-- Contribution to a reduction (R175, R258). -/
def execXred (a b : Fin 32) (xm : Bool) (s : State) : Result :=
  let ga := s.g a
  let gb := s.g b
  let g := s.myGroup
  s.xIssue a b (if xm then decide (g.w ≤ xTgt gb % 256) else decide (g.h ≤ xTgt gb % 256)) fun s =>
    let gid := s.here.group
    let x : Contrib :=
      { core := s.cur.core, row := xm, s := xSlot gb, f := xFlits gb, tgt := xTgt gb, doff := xDoff ga,
        soff := xSoff ga, base := s.ticks, done := 0,
        segs := s.segsNow [g.chainDest xm s.cur.core (xTgt gb)] }
    let s := s.modGroup gid fun g => { g with exch := true, contribs := g.contribs ++ [x] }
    (List.range x.f).foldl (fun s j => s.postAt (s.ticks + j) .xredChainAdd { group := gid, core := x.core, m := x.s, flag := xm, n := j }) s

/-! ### Barriers (R176, R458) -/

/-- The group is ready for its barrier: every c0 has issued one and every flit has landed. -/
def State.barrierReady (s : State) (g : Group) : Bool :=
  g.cores.all (fun c => (s.core c).barrier.isSome && (s.core c).barEnd.isNone) && g.flits.isEmpty && g.xsends.isEmpty &&
  g.contribs.isEmpty

/-- The barrier is bound to complete 6 ticks from now, when nothing is missing any more (R176, R261). -/
def State.lookBarrier (s : State) (g : Nat) : State :=
  if s.barrierReady (s.group g) then
    (s.modGroup g fun x => { x with ready := some (s.ticks + 6) }).postStart (s.ticks + 6) .xsyncComplete
      { group := g, n := s.ticks + 6 }
  else s

/-- An XLONG has ended the barrier that this instruction is (R458). -/
def State.owes (s : State) (kind : BarKind) : Bool :=
  match s.here.owed with
  | any :: _ => any || decide (kind ≠ .gbar)
  | [] => false

/-- A barrier instruction: one that an XLONG has already ended completes at once; one that has completed goes on or
traps; otherwise c0 waits in it (R176, R458). -/
def State.barrierIssue (s : State) (kind : BarKind) (put : Word → State → State) : Result :=
  s.onlyC0 <|
    match s.here.barEnd with
    | some e =>
      let s := s.modHere fun k => { k with barrier := none, barEnd := none }
      match e with
      | .done v => put v s
      | .trap c a v => ((v.map fun v => put v s).getD s).fault c a
    | none =>
      if s.owes kind then put 0 (s.modHere fun k => { k with owed := k.owed.drop 1 })
      else if !s.released then s.stall .other
      else ((s.modHere fun k => { k with barrier := some kind }).lookBarrier s.here.group).stall .other

/-- Barrier that ends a phase (R176). -/
def execXsync (s : State) : Result := s.barrierIssue .xsync fun _ s => s

/-- Barrier without phase effects (R176). -/
def execGbar (s : State) : Result := s.barrierIssue .gbar fun _ s => s

/-- Barrier with a vote (R176). -/
def execGvote (d a : Fin 32) (s : State) : Result :=
  if s.src.gBad a && decide (s.cur.ctx = 0) && s.here.barEnd.isNone then .next s.faultPoison
  else s.barrierIssue (.gvote (bitOf (s.g a) 0) d) fun v s => s.setG d v

/-- The vote of a core. -/
def BarKind.vote : BarKind → Bool
  | .gvote v _ => v
  | _ => false

/-- What `gvote` delivers (R176). -/
def voteWord (votes : List Bool) : Word :=
  let n := (votes.filter id).length
  BitVec.ofNat 64 (n * 2 ^ 32 + (if 0 < n then 2 else 0) + (if n = votes.length then 1 else 0))

/-- The condition reported: the lowest slot, and among those the lowest core (R260). -/
def firstColl : List (Nat × Nat) → Option (Nat × Nat)
  | [] => none
  | x :: l => match firstColl l with
    | none => some x
    | some y => if y.1 < x.1 ∨ (y.1 = x.1 ∧ y.2 < x.2) then some y else some x

/-- The end of a barrier given to every core of a group. -/
def State.endBarrier (s : State) (g : Group) (e : BarEnd) : State :=
  g.cores.foldl (fun s c => s.modCore c fun k => { k with barEnd := some e }) s

/-- A new phase begins in tick `now`: a compute phase, at slot 0 (R253). What flits already under way are still to meet in
it is a condition of it (R458). -/
def Group.newPhase (g : Group) (now : Nat) : Group :=
  { g with
    exch := false, kxslot := 0, ready := none, xsends := [], contribs := [],
    xcolls := (g.xcolls.filter fun x => decide (g.kxslot ≤ x.1)).map fun x => (x.1 - g.kxslot, x.2)
    uses := g.uses.filter fun u => decide (now ≤ u.tick + 1) }

/-- A core of a deferring group halts when its phase ends: c0 only takes the end of its barrier before that (R326). -/
def Core.haltAfter (k : Core) : Core := if k.run = .halting then { k with run := .halted } else k

/-- The end of an exchange phase ends the deferral of its group's halt (R326, R458). -/
def State.endDeferral (s : State) (gid : Nat) : State :=
  let g := s.group gid
  if g.deferred then (g.cores.foldl (fun s c => s.modCore c Core.haltAfter) s).post .deferredHalt { group := gid } else s

/-- The barrier completes on every core of the group, in the tick that the last arrival or landing has bound it to; a match
that mixes kinds raises XCOLL at each (R174, R176, R261). A deferred halt follows the end of an exchange phase (R326). -/
def execXsyncComplete (s : State) : Result :=
  let gid := s.ev.group
  let g := s.group gid
  let kinds := g.cores.filterMap fun c => (s.core c).barrier
  .next <|
    if !s.barrierReady g || kinds.isEmpty || decide (g.ready ≠ some s.ev.n) then s
    else if kinds.all fun k => decide (k = .gbar) then s.endBarrier g (.done 0)
    else if g.exch && decide (1000 ≤ g.kxslot) then s
    else if kinds.any fun k => decide (k = .gbar) then
      { s with fresh := s.fresh + 1 }.endBarrier g (.trap Cause.xcoll (Config.freeAddr s.fresh) none)
    else
      let v := voteWord (kinds.map BarKind.vote)
      let e : BarEnd := match firstColl g.xcolls with
        | some (slot, core) => .trap Cause.xcoll (BitVec.ofNat 64 (core * 2 ^ 16 + slot)) (some v)
        | none => .done v
      let s := (s.endBarrier g e).modGroup gid fun g => g.newPhase s.ticks
      (g.cores.foldl (fun s c => s.modCore c fun k => { k with kxph := k.kxph + 1 }) s).endDeferral gid

/-- The barrier a core waits in, where it has not completed. -/
def Core.waitsIn (k : Core) : Option BarKind := if k.barEnd.isNone then k.barrier else none

/-- What the end of a phase by XLONG leaves at a core. The barrier that would have closed the phase is the one some core
already waits in with `xsync` or `gvote` (`closing`), or a later one: a core that waits in it traps there; any other traps
at its next bundle, and owes the barrier (R174, R458). -/
def State.xlongAt (s : State) (closing : Bool) (c : Nat) : State :=
  if closing ∧ (s.core c).waitsIn.isSome then
    { s.modCore c fun k => { k with barEnd := some (.trap Cause.xlong (Config.freeAddr s.fresh) none) } with
      fresh := s.fresh + 1 }
  else s.modCore c fun k => { k with xlongDue := true, owed := k.owed ++ [closing] }

/-- KXSLOT reaches 1,000 in an exchange phase: it ends, and XLONG is raised on every core (R174, R458). -/
def execXlongPhaseEnd (s : State) : Result :=
  let gid := s.ev.group
  let g := s.group gid
  .next <|
    if !g.exch ∨ g.st ≠ .resident ∨ g.kxslot < 1000 then s
    else
      let closing := g.cores.any fun c => ((s.core c).waitsIn.map fun b => decide (b ≠ .gbar)).getD false
      let t := g.cores.foldl (fun t c => t.xlongAt closing c) s
      (t.modGroup gid fun g => g.newPhase s.ticks).endDeferral gid

/-! ### Injection, chains and landings (R82, R246, R255 to R260) -/

/-- A flit of an `xsend` is read and enters the network in its slot (R246, R255 to R257). -/
def execFlitInject (s : State) : Result :=
  let gid := s.ev.group
  let g := s.group gid
  .next <|
    match g.xsends.find? fun x => decide (x.id = s.ev.id) with
    | none => s
    | some x =>
      if x.done ≠ s.ev.n then s
      else
        let c := x.core
        let t := s.ticks
        let src := s.flitAt c (x.soff + 32 * x.done)
        let lo := x.tgt % 256
        let hi := x.tgt / 256
        let rowAt (p : Nat) : Nat := c / 256 * 256 + g.corner % 256 + p
        let colAt (p : Nat) : Nat := (g.corner / 256 + p) * 256 + c % 256
        let hops := match x.mode with
          | .uc => (pathEject c (g.corner + 256 * hi + lo) t).1
          | .row => lineCast rowAt true lo hi (g.relX c) t
          | .col => lineCast colAt false lo hi (g.relY c) t
        let (id, s) := (s.sawOwn c 0 (x.soff + 32 * x.done) 32).newId
        let s := s.launchFlit gid id (x.doff + 32 * x.done) src.1 src.2 ({ tick := t, router := c, out := 0 } :: hops) x.segs
        let s := s.modGroup gid fun g => { g with
          xsends := (g.xsends.map fun y => if y.id = x.id then { y with done := y.done + 1 } else y).filter fun y =>
            decide (y.done < y.f) }
        s.lookBarrier gid

/-- A NaN is the default NaN (R82). -/
def plainNan (x : Nat) : Nat := if (fmtF32.value x).isNan then fmtF32.nanCode else x

/-- The ordered sum of the contributions, element by element (R82). -/
def routerSum : List VReg → VReg
  | [] => 0
  | x :: rest =>
    let els (v : VReg) : List Nat := (List.range 8).map fun i => (elem 32 i v).toNat
    let add (a b : List Nat) : List Nat := a.zipWith (fun p q => (fmtF32.add {} (fmtF32.value p) (fmtF32.value q)).code) b
    let sum := rest.foldl (fun t v => add t (els v)) ((els x).map plainNan)
    BitVec.ofNat 256 (leNat (sum.flatMap fun e => natBytes e 4))

/-- The contributors of one reduction, in increasing core number (R175, R258). -/
def Group.chain (g : Group) (c : Nat) (row : Bool) (slot : Nat) : List Contrib :=
  let line (d : Nat) : Nat := if row then d / 256 else d % 256
  (g.contribs.filter fun x => decide (x.row = row) && decide (x.s = slot) && decide (line x.core = line c)).mergeSort
    fun a b => decide (a.core ≤ b.core)

/-- The contributors differ (R175). -/
def chainMixed : List Contrib → Bool
  | [] => false
  | x :: l => l.any fun y => decide (y.f ≠ x.f) || decide (y.tgt ≠ x.tgt) || decide (y.doff ≠ x.doff)

/-- A contributor reads its flit in its slot; at the first contributor the chain's flit sets out with the sum that the
others add on its way. Every contributor's read uses its injection point for the flit of the chain. Where the contributors
differ nothing of the reduction lands; its flits then use the injection points and no link output, which the rules do not say
(R82, R175, R246, R255, R258; DESIGN CHOICE, log 70). -/
def execXredChainAdd (s : State) : Result :=
  let gid := s.ev.group
  let g := s.group gid
  let c := s.ev.core
  let row := s.ev.flag
  let ch := g.chain c row s.ev.m
  .next <|
    match ch.find? fun x => decide (x.core = c) with
    | none => s
    | some x =>
      let j := s.ev.n
      let t := s.ticks
      let mixed := chainMixed ch
      let (id, s) := (s.sawOwn c 0 (x.soff + 32 * j) 32).newId
      let first := decide ((ch.head?.map Contrib.core) = some c)
      let dest := g.chainDest row c x.tgt
      let flits := ch.map fun y => s.flitAt y.core (y.soff + 32 * j)
      let inject (d : Nat) : Hop := { tick := t, router := d, out := 0 }
      let s :=
        if mixed then
          s.modGroup gid fun g =>
            let g := if first && decide (j = 0) then { g with xcolls := (g.kxslot, c) :: g.xcolls } else g
            g.use t id (inject c)
        else if first then
          s.launchFlit gid id (x.doff + 32 * j) (routerSum (flits.map Prod.fst)) (flits.any Prod.snd)
            (ch.map (fun y => inject y.core) ++ (chainPath dest ((ch.map Contrib.core).drop 1) c t).1) x.segs
        else s
      let s := s.modGroup gid fun g => { g with
        contribs := g.contribs.map fun y => if y = x then { y with done := y.done + 1 } else y }
      let s := s.modGroup gid fun g =>
        let all := g.chain c row x.s
        if all.all fun y => decide (y.f ≤ y.done) then { g with contribs := g.contribs.filter fun y => !all.contains y } else g
      s.lookBarrier gid

/-- A flit is written at its target, or refused there by the segments its instruction found when it issued (R29, R175, R259). -/
def execFlitLanding (s : State) : Result :=
  let gid := s.ev.group
  let g := s.group gid
  .next <|
    match g.flits.find? fun f => decide (f.id = s.ev.id) && decide (f.target = s.ev.core) with
    | none => s
    | some f =>
      let s := s.modGroup gid fun g => { g with flits := g.flits.erase f }
      let ok := s.live g.launch f.target && (segCheck f.segs false f.doff 32 { rwr := true }).isNone
      let s :=
        if !ok then s.modGroup gid fun g => { g with xcolls := (g.lastSlot, f.target) :: g.xcolls }
        else if f.met then
          let (bs, s) := s.freeBytes 32
          s.landUlm f.target f.doff bs false
        else s.landUlm f.target f.doff (natBytes f.data.toNat 32) f.mark
      s.lookBarrier gid

end Sys2Proof.Machine
end

