-- ==== Sys2Proof/Machine/Status.lean ====
section
/-! DEFINITION. What state a context is in: `cquery`, `cyield`, and the contexts that are blocked (R103, R104, R158,
R208, R209). -/

namespace Sys2Proof.Machine

/-- The stall of a context, of the blocking instructions of R208, goes on: what it waits for has not come (R209). -/
def State.waits (s : State) (n : Nat) (c : Fin 11) : Bool :=
  let u : State := { s with cur := { core := n, ctx := c } }
  let k := s.core n
  let x := k.ctxs[c]
  x.waveOp.isSome ||
  match x.block.map Block.kind with
  | some (.cwait d) => x.wake.isNone && (k.ctxs[d]).live
  | some .wform => x.wake.isNone
  | some .wsync => x.wake.isNone
  | some (.qwait q m) => x.wake.isNone && decide (s.portCount n q 0x100 < m)
  | some (.qpop q sel) => (u.takeEntry q sel).isNone
  | some (.mwait _ _ _) => x.mwaitVal.isNone
  | some (.ctw t) => decide (k.tags[t].count ≠ 0)
  | some .launch => decide (4 ≤ (s.group k.group).pending.length)
  | _ => false

/-- PARK of a context: parked, or a supervisor access held by a parked copy, until its range is released (R103, R214). -/
def Core.parkBit (k : Core) (c : Fin 11) : Bool :=
  let x := k.ctxs[c]
  x.parked || match x.block.map Block.kind with
    | some (.parkWait vas) => k.parkedOn vas
    | _ => false

/-- The status word of `cquery` for a context that is blocked or not (R103). -/
def Core.statusOf (k : Core) (c : Fin 11) (blocked : Bool) : Word :=
  let x := k.ctxs[c]
  let b (i : Nat) (v : Bool) : Word := ofBool 64 v <<< i
  if !x.live && !x.susp then 0
  else if x.susp then b 0 x.live ||| b 1 true ||| b 4 x.inWave ||| b 5 (k.holds c) ||| b 6 x.mode
  else
    b 0 true ||| b 2 (k.parkBit c) ||| b 3 blocked ||| b 4 x.asFormed.inWave ||| b 5 (k.holds c) |||
    b 6 x.mode

/-- Status of a context (R103). -/
def execCquery (d a : Fin 32) (s : State) : Result :=
  let n := ((s.g a).extractLsb' 0 4).toNat
  s.scalar [a] <|
    if h : n < 11 then s.setG d (s.here.statusOf ⟨n, h⟩ (s.waits s.cur.core ⟨n, h⟩)) else s.setG d 0

/-- A context is ready: live, in none of the other states of R208, and its next bundle waits for no register (R48). -/
def State.ready (s : State) (n : Nat) (c : Fin 11) : Bool :=
  let k := s.core n
  let x := k.ctxs[c]
  x.live && !x.susp && !x.parked && !x.ending && decide (x.yieldFor = 0) && !s.waits n c &&
  decide ((k.arrival.map Arrival.ctx) ≠ some c) && (decide (c ≠ 0) || k.barrier.isNone || k.barEnd.isSome) &&
  (match (if x.aword then s.fetchAWord n x.mode x.pc else s.fetch n x.mode x.pc x.fbuf) with
   | .ok b => !x.held (k.rowsRead x) b
   | .error _ => true)

/-- The other contexts that are ready (R104, R208). -/
def State.readyOthers (s : State) (n : Nat) (c : Fin 11) : BitVec 11 :=
  ((List.range 11).map (Fin.ofNat 11)).foldl (fun m d => withBit m d.val (decide (d ≠ c) && s.ready n d)) 0

/-- Let the other ready contexts issue first (R104). -/
def execCyield (s : State) : Result :=
  .next (s.modCx fun x => { x with yieldFor := s.readyOthers s.cur.core s.cur.ctx })

end Sys2Proof.Machine
end

