-- ==== Sys2Proof/Machine/Launches.lean ====
section
/-! DEFINITION. Launch channels, records, the choice of a launch, placing and starting a pan, device launches and
retirement (R177, R308 to R318, R320 to R323, R440). -/

namespace Sys2Proof.Machine

/-- A task put on the agenda unless it waits there already. -/
def State.postOnce (s : State) (op : Instr) (arg : EvArg) : State :=
  if s.agenda.contains { op := op, arg := arg, lane := 0 } then s else s.post op arg

/-! ### Records (R310 to R312) -/

/-- The fields of a record (R310). -/
def recOf (bs : List Byte) : Rec :=
  { image := getN bs 0 8, imglen := getN bs 8 4, entry := getN bs 12 4, panw := getN bs 16 1, panh := getN bs 17 1,
    grpw := getN bs 18 1, grph := getN bs 19 1, helpers := getN bs 20 1, treelets := getN bs 21 1,
    flags := BitVec.ofNat 8 (getN bs 22 1), prio := getN bs 23 1, param := getN bs 24 8,
    kseg := Vector.ofFn fun i : Fin 4 =>
      let w := getWord bs (32 + 8 * i.val)
      if i = 0 ∧ w = 0 then 0x0000038040000000 else w
    ovfl := getN bs 64 8, compl := getN bs 72 8,
    waitva := (List.range 4).map fun n => getN bs (80 + 8 * n) 8, waittg := (List.range 4).map fun n => getN bs (112 + 4 * n) 4 }

/-- Flags of a record (R311). -/
def Rec.gang (r : Rec) : Bool := bitOf r.flags 0
def Rec.notify (r : Rec) : Bool := bitOf r.flags 1
def Rec.brine (r : Rec) : Nat := (r.flags.extractLsb' 2 2).toNat
def Rec.pin (r : Rec) : Bool := bitOf r.flags 4

/-- A VA that is not a main-memory address, or not aligned (R310). -/
def vaBad (align va : Nat) : Bool := decide (2 ^ 55 ≤ va) || decide (va % align ≠ 0)

/-- A segment of a record that R312 rejects. -/
def recSegBad (k : Word) : Bool :=
  decide (0x20000 < segLimit k) ||
  (decide (segBase k < 0x1000) && decide (segBase k < segLimit k) && decide (k &&& 0x00000C7000000000 ≠ 0))

/-- The first five rows of the table of R312, every one LAUNCHBAD. -/
def Rec.bad (r : Rec) : Bool :=
  let pw := r.panw + 1
  let ph := r.panh + 1
  let gw := r.grpw + 1
  let gh := r.grph + 1
  let log := r.ovfl % 32
  decide (2 ^ 17 ≤ r.imglen) || decide (2 ^ 17 ≤ r.entry) || decide (r.flags.toNat / 32 ≠ 0) || decide (8 ≤ r.prio) ||
  decide (r.ovfl / 32 % 128 ≠ 0) || (r.kseg.toList.any fun k => decide (k &&& ~~~ksegMask ≠ 0)) ||
  vaBad 4096 r.image || vaBad 256 r.param || vaBad 8 r.compl || decide (2 ^ 55 ≤ r.ovfl) || r.waitva.any (vaBad 8) ||
  decide (pw % 8 ≠ 0) || decide (gw % 8 ≠ 0) || decide (64 < gw) || decide (16 < gh) || decide (pw % gw ≠ 0) ||
  decide (ph % gh ≠ 0) ||
  decide (10 < r.helpers) || decide (6 < r.treelets) || decide (r.brine = 3) || decide (log < 16) || decide (26 < log) ||
  decide (r.imglen % 8 ≠ 0) || decide (0x20000 - 0x4000 * r.treelets < 0x1100 + r.imglen) || decide (r.entry % 4 ≠ 0) ||
  decide (r.entry < 0x1100) || decide (0x1100 + r.imglen ≤ r.entry) ||
  r.kseg.toList.any recSegBad || decide (segBase r.kseg[0] ≠ 0) || decide (segLimit r.kseg[0] < 0x1000) ||
  decide (r.kseg[0] &&& 0x0000038000000000 ≠ 0x0000038000000000)

/-- The catalogue descriptor of a parameter block: address, count, threshold (R366). -/
def catOf (bs : List Byte) : Nat × Nat × Nat := (getN bs 240 8, getN bs 248 4, getN bs 252 2)
def catBad (bs : List Byte) : Bool :=
  let c := catOf bs
  vaBad 32 c.1 || decide (c.2.1 = 0) || decide (2 ^ 24 < c.2.1) || !zeroAt bs 254 2

/-! ### Reports (R309) -/

def State.channel (s : State) (ch : Nat) : Channel := s.channels[Fin.ofNat 64 ch]
def State.modChannel (s : State) (ch : Nat) (f : Channel → Channel) : State :=
  { s with channels := s.channels.set (Fin.ofNat 64 ch) (f (s.channel ch)) }

/-- EN, RALL, PRIO and PASID of a channel (R308). -/
def Channel.en (c : Channel) : Bool := bitOf c.cfg 24
def Channel.rall (c : Channel) : Bool := bitOf c.cfg 25
def Channel.prio (c : Channel) : Nat := (c.cfg.extractLsb' 20 3).toNat
def Channel.pasid (c : Channel) : Nat := (c.cfg.extractLsb' 0 20).toNat

/-- A report entry (R309). -/
def reportBytes (i : EndInfo) (va : Nat) : List Byte :=
  natBytes i.status.toNat 1 ++ natBytes (i.ctx % 16) 1 ++ natBytes i.core 2 ++ natBytes (i.kepc.toNat % 2 ^ 17) 4 ++
  natBytes i.kcause.toNat 8 ++ natBytes (i.kaddr.toNat % 2 ^ 56) 8 ++ natBytes va 8

/-- The channel's writer goes on: an LPORT event of its own (log 18). -/
def writerArg (ch : Nat) : EvArg := { port := ch, flag := true }

/-- A report waits behind the others of its channel (R309). -/
def State.addReport (s : State) (ch : Nat) (i : EndInfo) (va : Nat) : State :=
  let t := s.modChannel ch fun c => { c with waiting := c.waiting ++ [reportBytes i va] }
  if (s.channel ch).waiting = [] then t.post .lport (writerArg ch) else t

/-- The first report that waits is done with; the next one follows. -/
def State.nextReport (s : State) (ch : Nat) : State :=
  let t := s.modChannel ch fun c => { c with waiting := c.waiting.drop 1 }
  if (t.channel ch).waiting = [] then t else t.post .lport (writerArg ch)

/-- RLOST counts a report that is dropped. -/
def Channel.lose (c : Channel) : Channel := { c with rlost := if c.rlost = BitVec.allOnes 16 then c.rlost else c.rlost + 1 }

/-- The first report that waits is written at the ring's tail (R309, R408). A report for a disabled ring is dropped and counted in
RLOST as at a full one, which R309 does not say (DESIGN CHOICE, log 70). -/
def State.writeReport (s : State) (ch : Nat) : State :=
  let c := s.channel ch
  match c.waiting with
  | [] => s
  | bytes :: _ =>
    match ringSlot c.rrbase 16 c.rrtail c.rrhead 32 with
    | none => (s.modChannel ch Channel.lose).nextReport ch
    | some va =>
      match s.need (2 ^ 60 + ch) { op := .lport, arg := writerArg ch, lane := 0 } 0 c.pasid va true with
      | (.at_ pa, s) =>
        if s.poisonedRange pa 32 then (s.modChannel ch Channel.lose).nextReport ch
        else (((s.storeBytes pa bytes).modChannel ch fun c => { c with rrtail := c.rrtail + 1 }).sendMsix ch).nextReport ch
      | (.fail _, s) => (s.modChannel ch Channel.lose).nextReport ch
      | (_, s) => s

/-- A write of a record VA to a Launch Port (R308, R323), or the channel's report writer. -/
def execLport (s : State) : Result :=
  let ch := s.ev.port
  let va := s.ev.value
  .next <|
    if s.power ≠ .service then s
    else if s.ev.flag then s.writeReport ch
    else if va &&& 0xFF0000000000007F ≠ 0 then
      s.addReport ch ⟨Cause.launchbad, 0xFFFF, 0, 0, 0, 0⟩ va.toNat
    else if 256 ≤ (s.channel ch).fifo.length then s.modChannel ch fun c => { c with ovf := true }
    else (s.modChannel ch fun c => { c with fifo := c.fifo ++ [va.toNat] }).postOnce .launchValidate { source := .channel ch }

/-! ### Retirement (R321, R322) -/

/-- Sources look at their wait words again, and the distributor at its choice (R313, R319). -/
def State.lookAgain (s : State) : State :=
  let t := (s.launches.filter fun l => decide (l.st = .head) && l.validated).foldl
    (fun (s : State) l => s.postOnce .waitWordCheck { launch := l.id }) s
  let t := (s.groups.filter fun g => decide (g.2.st = .swapped) || decide (g.2.st = .preempted)).foldl
    (fun (s : State) g => s.postNext .groupRestore { launch := g.2.launch }) t
  t.postOnce .launchSelection {}

/-- The launch is forgotten. -/
def State.forget (s : State) (id : Nat) : State :=
  { s with launches := s.launches.filter fun l => decide (l.id ≠ id) }.lookAgain

/-- The end information of a normal retirement. -/
def endNormal : EndInfo := ⟨0, 0xFFFF, 0, 0, 0, 0⟩

/-- A launch retires: its report waits for the channel's writer, its home entries and the rays that wait at an agent go
(R309, R318, R321, R371). What follows the report comes with LAUNCH_END. -/
def State.retireLaunch (s : State) (l : Launch) (rejected : Bool) : State :=
  let info := l.first.getD endNormal
  let s : State := { s with
    homes := s.homes.filter fun h => decide (h.2.launch ≠ l.id)
    rays := s.rays.filter fun r => decide (r.2.launch ≠ l.id)
    pageIns := s.pageIns.filter fun p => decide (p.launch ≠ l.id) }
  let s := if info.status ≠ 0 ∨ (s.channel l.root).rall then s.addReport l.root info l.va else s
  let notice := l.parent.bind fun p =>
    if rejected ∨ l.r.notify then
      some (completion 12 (if rejected then Cause.launchbad else info.status) 0 p.2.1 0 0 info.kaddr)
    else none
  (s.modLaunch l.id fun x => { x with st := .retired, first := some info, notice := notice }).post .launchEnd { launch := l.id }

/-- The completion counter of a retired launch goes up by one; a counter that cannot be reached makes a further
report (R321). -/
def State.countCompletion (s : State) (l : Launch) : State :=
  let lost (s : State) (c : Cause) : State :=
    (s.addReport l.root ⟨c, 0xFFFF, 0, 0, 0, BitVec.ofNat 64 l.r.compl⟩ l.va).forget l.id
  match s.need l.id { op := .launchEnd, arg := { launch := l.id }, lane := 0 } l.id l.pasid l.r.compl true with
  | (.at_ pa, s) =>
    if s.poisonedRange pa 8 then lost s Cause.poison
    else (s.storeNat pa 8 (s.loadNat pa 8 + 1)).forget l.id
  | (.fail c, s) => lost s c
  | (_, s) => s

/-- A task of a kind stands on the agenda. -/
def State.pendingTask (s : State) (f : Instr → EvArg → Bool) : Bool :=
  s.agenda.any fun t => f t.op t.arg

/-- What the retirement of a launch has still to do, in order: its report is written and its counts of RAYS are made; then
the NOTIFY completion is posted; when it has arrived, the completion counter goes up, and the launch is forgotten
(R318, R321, R378). -/
def State.retireOn (s : State) (l : Launch) : State :=
  let again (s : State) : State := s.post .launchEnd { launch := l.id }
  let info := l.first.getD endNormal
  if (s.channel l.root).waiting.contains (reportBytes info l.va) then again s
  else if s.pendingTask fun op a => decide (op = .heatPeriodEnd) && decide (a.launch = l.id) && a.flag then again s
  else
    match l.notice, l.parent with
    | some bytes, some (core, _, g) =>
      again (((s.modLaunch l.id fun x => { x with notice := none, told := some bytes })).complete (s.group g).launch core bytes)
    | _, _ =>
      if (l.told.map fun bytes => s.pendingTask fun op a => decide (op = .mailboxArrival) && decide (a.bytes = bytes)).getD false
      then again s
      else if l.r.compl = 0 then s.forget l.id
      else s.countCompletion l

/-- The head leaves its source (R316, R318). -/
def State.unhead (s : State) (l : Launch) : State :=
  match l.src with
  | .channel ch =>
    (s.modChannel ch fun c => { c with fifo := c.fifo.drop 1, head := none }).postOnce .launchValidate { source := l.src }
  | .group g =>
    ((s.modGroup g fun x => { x with pending := x.pending.drop 1, head := none }).postOnce .launchValidate
      { source := l.src }).postOnce .groupRetirement { group := g, launch := (s.group g).launch }

/-- A record is rejected: it is retired at once with the status (R312, R313, R318, R322). -/
def State.reject (s : State) (l : Launch) (c : Cause) : State :=
  let info : EndInfo := ⟨c, 0xFFFF, 0, 0, 0, 0⟩
  let s := (s.unhead l).modLaunch l.id fun x => { x with first := some info, st := .retired }
  let s : State := if s.selected = some l.id then { s with selected := none } else s
  s.retireLaunch { l with first := some info } true

/-! ### Taking and checking records (R312, R313) -/

/-- A launch read from a record's bytes. -/
def Launch.setBytes (l : Launch) (bs : List Byte) (bad : Bool) : Launch := { l with r := recOf bs, bad := bad, stage := 1 }

/-- The window address of a record in its issuing core (R309). -/
def State.recordVa (s : State) (core off : Nat) : Nat := 2 ^ 55 + s.mgmt.pkgnum.toNat * 2 ^ 45 + core * 2 ^ 29 + off

/-- The next record of a source becomes its head (R308, R313, R318). -/
def State.takeHead (s : State) (src : Source) : Option (Launch × State) :=
  match src with
  | .channel ch =>
    let c := s.channel ch
    match c.fifo with
    | [] => none
    | va :: _ =>
      if !c.en ∨ c.head.isSome then none
      else
        let (id, s) := s.newId
        let l : Launch := { id := id, va := va, src := src, pasid := c.pasid, root := ch, st := .head }
        some (l, { s.modChannel ch fun c => { c with head := some id } with launches := s.launches ++ [l] })
  | .group g =>
    let x := s.group g
    match x.pending, s.launch? x.launch with
    | p :: _, some par =>
      if x.head.isSome then none
      else
        let (id, s) := s.newId
        let l : Launch := Launch.setBytes { id := id, va := s.recordVa p.core p.va, src := src, pasid := par.pasid,
                                            root := par.root, parent := some (p.core, p.ctx.val, g), st := .head } p.bytes false
        some (l, { s.modGroup g fun x => { x with head := some id } with launches := s.launches ++ [l] })
    | _, _ => none

/-- The head of a source. -/
def State.headOf (s : State) (src : Source) : Option Launch :=
  (match src with
   | .channel ch => (s.channel ch).head
   | .group g => (s.group g).head).bind s.launch?

/-- One stage of the check of a record (R312): what is changed in the launch, its rejection, or a wait. -/
inductive Checked where
  | go (l : Launch)
  | reject (c : Cause)
  | wait
  deriving DecidableEq, Repr

def State.checkStage (s : State) (l : Launch) : Checked × State :=
  let task : Task := { op := .launchValidate, arg := { source := l.src }, lane := 0 }
  let page (va n : Nat) (f : State → Nat → Checked) : Checked × State :=
    match s.need l.id task 0 l.pasid va false with
    | (.at_ pa, s) => (f s pa, s)
    | (.fail c, s) => (.reject c, s)
    | (_, s) => (.wait, s)
  if l.stage = 0 then
    if 2 ^ 55 ≤ l.va then (.reject Cause.launchbad, s)
    else page l.va 128 fun s pa => .go (l.setBytes (memBytes s.mem pa 128) (s.poisonedRange pa 128))
  else if l.stage = 1 then
    let finish (bs : List Byte) (bad : Bool) : Checked :=
      if l.r.pin ∧ catBad bs then .reject Cause.launchbad
      else .go { l with pblock := bs, bad := l.bad || bad, stage := 2, cat := if l.r.pin then some (catOf bs) else none }
    if l.r.bad then (.reject Cause.launchbad, s)
    else if l.r.param = 0 then (finish (List.replicate 256 0) false, s)
    else page l.r.param 256 fun s pa => finish (memBytes s.mem pa 256) (s.poisonedRange pa 256)
  else
    let done := 4096 * (l.stage - 2)
    if l.r.imglen ≤ done then
      (if l.bad then .reject Cause.poison else .go { l with validated := true }, s)
    else page (l.r.image + done) 4096 fun s pa =>
      .go { l with bad := l.bad || s.poisonedRange pa (min 4096 (l.r.imglen - done)), stage := l.stage + 1 }

/-- A record is checked, a stage at a time, when it reaches the head of its source (R312, R313). -/
def execLaunchValidate (s : State) : Result :=
  let src := s.ev.source
  let go (s : State) (l : Launch) : State :=
    match s.checkStage l with
    | (.reject c, s) => s.reject l c
    | (.wait, s) => s
    | (.go l', s) =>
      let s := s.modLaunch l.id fun _ => l'
      if l'.validated then s.postOnce .waitWordCheck { launch := l.id } else s.postOnce .launchValidate { source := src }
  .next <|
    match s.headOf src with
    | some l => if l.validated ∨ l.st ≠ .head then s else go s l
    | none =>
      match s.takeHead src with
      | some (l, s) => go s l
      | none => s

/-- What the wait words of a record say (R313). -/
inductive Waited where
  | ready
  | no
  | wait
  | reject (c : Cause)
  deriving DecidableEq, Repr

/-- A word before these is below its target, or its page is missing: a rejection stands, and a wait. -/
def Waited.butNot : Waited → Waited
  | .ready => .no
  | w => w
def Waited.butWait : Waited → Waited
  | .reject c => .reject c
  | _ => .wait

/-- Every used wait word in order: each one a read under the launch's PASID (R313). -/
def State.waitWords (s : State) (l : Launch) : List (Nat × Nat) → Waited × State
  | [] => (.ready, s)
  | (va, tg) :: rest =>
    if va = 0 then s.waitWords l rest
    else
      match s.need l.id { op := .waitWordCheck, arg := { launch := l.id }, lane := 0 } 0 l.pasid va false with
      | (.at_ pa, s) =>
        if s.poisonedRange pa 8 then (.reject Cause.poison, s)
        else
          let r := s.waitWords l rest
          (if s.loadNat pa 8 < tg then r.1.butNot else r.1, r.2)
      | (.fail c, s) => (.reject c, s)
      | (_, s) =>
        let r := s.waitWords l rest
        (r.1.butWait, r.2)

/-- The wait words of a head are looked at; they are looked at again at a time that is not fixed (R313). -/
def execWaitWordCheck (s : State) : Result :=
  .next <|
    match s.launch? s.ev.launch with
    | none => s
    | some l =>
      if l.st ≠ .head ∨ !l.validated ∨ l.eligible then s
      else
        match s.waitWords l (l.r.waitva.zip l.r.waittg) with
        | (.ready, s) => (s.modLaunch l.id fun l => { l with eligible := true }).postOnce .launchSelection {}
        | (.no, s) => s.postOnce .waitWordCheck { launch := l.id }
        | (.wait, s) => s
        | (.reject c, s) => s.reject l c

/-! ### Choosing (R313, R314, R316) -/

/-- The priority of a head; that of a launch stays as it was when it was selected (R313, R323). -/
def State.effOf (s : State) (l : Launch) : Nat :=
  if l.st ≠ .head then l.prio
  else match l.src with
  | .channel ch => min l.r.prio (s.channel ch).prio
  | .group g => min l.r.prio (((s.launch? (s.group g).launch).map Launch.prio).getD 0)

/-- The place of a source in the round (R314). -/
def State.srcKey (s : State) (l : Launch) : Nat :=
  match l.src with
  | .channel ch => ch
  | .group g => 64 + (s.group g).corner

/-- The better of two heads: the higher priority, then the next in the round from `last` on (R314). -/
def State.better (s : State) (a b : Launch) : Bool :=
  let ka := s.srcKey a
  let kb := s.srcKey b
  decide (s.effOf b < s.effOf a) ||
  (decide (s.effOf a = s.effOf b) &&
   ((decide (s.lastSrc ≤ ka) && (decide (ka < kb) || decide (kb < s.lastSrc))) ||
    (decide (ka < s.lastSrc) && decide (kb < s.lastSrc) && decide (ka < kb))))

/-- The best of the heads. -/
def State.bestOf (s : State) : List Launch → Option Launch
  | [] => none
  | a :: l =>
    match s.bestOf l with
    | none => some a
    | some b => if s.better b a then some b else some a

/-- Cores that are not free (R315). -/
def State.busyCores (s : State) : List Nat := (s.cores.filter fun c => decide (c.2.run ≠ .free)).map Prod.fst

/-- The candidate corner is free for a rectangle (R315). -/
def cornerFits (busy : List Nat) (w h corner : Nat) : Bool :=
  let x := corner % 256
  let y := corner / 256
  decide (x + w ≤ 256) && decide (y + h ≤ 256) &&
  !(busy.any fun c => decide (x ≤ c % 256) && decide (c % 256 < x + w) && decide (y ≤ c / 256) && decide (c / 256 < y + h))

/-- The first fitting candidate: corners with x a multiple of 8, in increasing core number (R315). -/
def State.fitFor (s : State) (l : Launch) : Option Nat :=
  let busy := s.busyCores
  ((List.range 8192).map fun i => 8 * i).find? fun c => cornerFits busy l.width l.height c

/-! ### Swappable groups, due groups, slots (R158, R319, R329) -/

/-- A core on which c0 waits in `mwait.swap` and every other live context is blocked, parked or suspended (R158). -/
def State.coreSwappable (s : State) (n : Nat) : Bool :=
  let k := s.core n
  let c0 := k.ctxs[(0 : Fin 11)]
  decide (k.run = .running) && c0.live && c0.offers.isSome && s.waits n 0 &&
  (List.range 10).all fun i =>
    let c := Fin.ofNat 11 (i + 1)
    let x := k.ctxs[c]
    !x.live || x.susp || x.parked || s.waits n c || decide ((k.arrival.map Arrival.ctx) = some c)

def State.swappable (s : State) (g : Group) : Bool :=
  decide (g.st = .resident) && g.cores.all s.coreSwappable

/-- The groups of a launch, and those that are not retired, in increasing number. -/
def State.groupsOf (s : State) (l : Launch) : List (Nat × Group) := l.groups.map fun g => (g, s.group g)
def State.liveGroups (s : State) (l : Launch) : List (Nat × Group) :=
  (s.groupsOf l).filter fun g => decide (g.2.st ≠ .retired)

/-- The groups of a launch that may be swapped out now (R319): all of a GANG launch or none, else the resident group of
the highest number. -/
def State.swapVictims (s : State) (l : Launch) : List (Nat × Group) :=
  let gs := s.liveGroups l
  if l.r.gang then
    if gs.all fun g => s.swappable g.2 then gs else []
  else
    match (gs.filter fun g => decide (g.2.st ≠ .swapped) && decide (g.2.st ≠ .preempted)).getLast? with
    | some g => if s.swappable g.2 then [g] else []
    | none => []

/-- Consecutive slots of the save pool for `n` cores: the first index free (R329). -/
def State.freeSlots (s : State) (n : Nat) : Option Nat :=
  let used := s.saves.map fun x => (x.2, x.2 + (s.group x.1).cores.length)
  let fits (a : Nat) : Bool :=
    decide (a + n ≤ s.hostRegs.spcnt.toNat) && used.all fun u => decide (a + n ≤ u.1) || decide (u.2 ≤ a)
  (0 :: used.map Prod.snd).find? fits

/-- Slots reserved for groups, in order; none when the pool cannot hold them. -/
def State.reserve (s : State) : List (Nat × Group) → Option State
  | [] => some s
  | (id, g) :: rest =>
    match s.freeSlots g.cores.length with
    | some a => ({ s with saves := s.saves ++ [(id, a)] } : State).reserve rest
    | none => none

/-- The cores of a group are all saved. -/
def State.groupSaved (s : State) (g : Group) : Bool := g.cores.all fun c => s.isSaved g.launch c

/-- The condition of the `mwait.swap` of a saved core's c0 holds; a word that can give no value makes it hold (R319). -/
def State.dueCore (s : State) (l c : Nat) : Bool :=
  let k := s.coreOf l c
  match (k.ctxs[(0 : Fin 11)]).offer with
  | some (va, bound) =>
    let t := if bitOf va 55 then winCore va else c
    if bitOf va 55 ∧ s.remote va then true
    else match s.ulmBase l t with
      | none => true
      | some base =>
        let a := base + winOff va
        s.poisoned a || decide (bound.toNat ≤ s.loadNat a 8)
  | none => true

/-- A saved group is due: a swapped one when the conditions of its c0s hold, a pre-empted one at once (R319; DESIGN CHOICE, log 19). -/
def State.dueGroup (s : State) (g : Group) : Bool :=
  s.groupSaved g && (decide (g.st = .preempted) || g.cores.all fun c => s.dueCore g.launch c)

/-- The groups of a launch that may be restored next: all of a GANG launch, else the saved group of the lowest number, once no
group of lower number is on its way out (R319, R320). -/
def State.restoreNext (s : State) (l : Launch) : List (Nat × Group) :=
  let gs := (s.liveGroups l).filter fun g => decide (g.2.st = .swapped) || decide (g.2.st = .preempted)
  if s.mgmt.hold then []
  else if l.r.gang then
    if gs.length = (s.liveGroups l).length ∧ (gs.all fun g => s.dueGroup g.2) then gs else []
  else match gs with
    | g :: _ =>
      if s.dueGroup g.2 ∧ ((s.liveGroups l).all fun h => decide (g.2.num ≤ h.2.num) || !h.2.deferred) then [g] else []
    | [] => []

/-! ### Selection (R314, R440) -/

/-- A launch that replays: level 1 or higher while BRCTL.REPLAY = 1 (R440). -/
def State.replays (s : State) (l : Launch) : Bool := s.mgmt.replay && decide (1 ≤ max l.brine l.r.brine)

/-- The effective Brine level of a head (R313). -/
def State.brineFor (s : State) (l : Launch) : Nat :=
  match l.parent with
  | some (_, _, g) => max l.r.brine (((s.launch? (s.group g).launch).map Launch.brine).getD 0)
  | none => l.r.brine

/-- The launch that the next entry of a replay halts (R440). -/
def State.haltNamed (s : State) : Option Launch :=
  if s.mgmt.replay then
    match s.brineMatch 2 0xFFFF 0 with
    | some (va, _) => s.launches.find? fun l => decide (l.st = .started) && decide (l.va = va.toNat) && decide (l.serial = s.brineSerial)
    | none => none
  else none

/-- A launch may be pre-empted: its start is complete and it has a resident group that does not halt yet (R314, R324). -/
def State.preemptible (s : State) (l : Launch) : Bool :=
  decide (l.st = .started) && !(s.replays l) && (s.liveGroups l).any fun g => decide (g.2.st = .resident) && !g.2.deferred

/-- The save pool has slots for the resident groups of a launch (R329). -/
def State.poolHolds (s : State) (l : Launch) : Bool :=
  (s.reserve ((s.liveGroups l).filter fun g => decide (g.2.st = .resident))).isSome

/-- The next launch to pre-empt for a priority: the lowest, then the most recently granted (R314). -/
def State.victim (s : State) (eff : Nat) : Option Launch :=
  (s.launches.filter fun l => s.preemptible l && decide (l.prio < eff)).foldl (fun b l =>
    match b with
    | none => some l
    | some b =>
      if l.prio < b.prio ∨ (l.prio = b.prio ∧ b.grantOrder < l.grantOrder) then some l else some b) none

/-- Some group is on its way out. -/
def State.halting (s : State) : Bool :=
  s.groups.any fun g => g.2.deferred ||
    ((decide (g.2.st = .swapped) || decide (g.2.st = .preempted)) && !s.groupSaved g.2)

/-- Room is made for the selected launch. Where the pool cannot hold the launch that is to be pre-empted, nothing is
(R314, R329, R345). -/
def State.makeRoom (s : State) (eff : Nat) : State :=
  if s.halting then s
  else
    let outs := s.launches.filter fun l => decide (l.st = .started) && decide (l.prio ≤ eff) && !(s.replays l) &&
      decide (s.swapVictims l ≠ []) && (s.reserve (s.swapVictims l)).isSome
    if outs ≠ [] then outs.foldl (fun (s : State) l => s.postOnce .swapOut { launch := l.id }) s
    else match s.victim eff with
      | some l => if s.poolHolds l then s.postOnce .preemptDelivery { launch := l.id } else s
      | none => s

/-- Cores of the pans of other launches whose start is not complete: their further groups are to start there (R316). -/
def State.grantedCores (s : State) (l : Launch) : List Nat :=
  (s.launches.filter fun x => decide (x.st = .granted) && decide (x.id ≠ l.id)).flatMap fun x => rectCores x.corner x.width x.height

/-- A launch has groups that may run. -/
def Launch.runs (l : Launch) : Bool := decide (l.st = .started) || decide (l.st = .granted)

/-- The groups of a launch that are due, and whose cores are free again (R316, R319). -/
def State.restorable (s : State) (l : Launch) : List (Nat × Group) :=
  let gs := s.restoreNext l
  if l.runs ∧ (gs.all fun g => cornerFits (s.busyCores ++ s.grantedCores l) g.2.w g.2.h g.2.corner) then gs else []

/-- The highest priority of a launch with groups that come back before any launch of no higher priority (R319, R416). -/
def State.dueFloor (s : State) : Option Nat :=
  ((s.launches.filter fun l => decide (s.restorable l ≠ [])).map Launch.prio).max?

/-- No due group comes back before a launch of this priority. -/
def State.aboveDue (s : State) (eff : Nat) : Bool := (s.dueFloor.map fun p => decide (p < eff)).getD true

/-- A launch that replays is granted only as the next GRANT entry names it (R440). -/
def State.grantNamed (s : State) (l : Launch) : Bool :=
  !s.mgmt.replay || decide (s.brineFor l = 0) || decide ((s.brineMatch 1 0xFFFF 0).map (fun v => v.1.toNat) = some l.va)

/-- The heads that may be selected now (R313, R319, R440). -/
def State.candidates (s : State) : List Launch :=
  s.launches.filter fun l => decide (l.st = .head) && l.eligible && s.aboveDue (s.effOf l) && s.grantNamed l

/-- The distributor selects the eligible head of highest priority, and makes room while it cannot be placed (R314, R316,
R319, R454). -/
def execLaunchSelection (s : State) : Result :=
  let s := match s.haltNamed with
    | some l =>
      if s.halting then s
      else if s.swapVictims l ≠ [] then s.postOnce .swapOut { launch := l.id } else s.postOnce .preemptDelivery { launch := l.id }
    | none => s
  .next <|
    if s.mgmt.noGrant ∨ s.mgmt.hold ∨ (s.launches.any fun l => decide (l.st = .granted)) then s
    else
      let now := (s.selected.bind s.launch?).filter s.grantNamed
      let best := match s.bestOf s.candidates, now with
        | some b, some n => if s.effOf n < s.effOf b then some b else some n
        | some b, none => some b
        | none, n => n
      match best with
      | none => s
      | some l =>
        let eff := s.effOf l
        let s : State := { s with selected := some l.id, launches := s.launches.map fun x =>
          if x.id = l.id then { x with st := .selected, prio := eff }
          else if x.st = .selected then { x with st := .head } else x }
        if (s.fitFor l).isSome then (s.postOnce .panGrant { launch := l.id }).postOnce .launchSelection {}
        else (s.makeRoom eff).postOnce .launchSelection {}

/-! ### Granting and starting (R315 to R317) -/

/-- Groups in a row of the pan, the number of groups, and the corner of group `k` (R315). -/
def Launch.rowGroups (l : Launch) : Nat := l.width / (l.r.grpw + 1)
def Launch.groupCount (l : Launch) : Nat := l.rowGroups * (l.height / (l.r.grph + 1))
def Launch.groupCorner (l : Launch) (k : Nat) : Nat :=
  l.corner + 256 * (k / l.rowGroups * (l.r.grph + 1)) + k % l.rowGroups * (l.r.grpw + 1)

/-- The placement values of a core of a group (R21). -/
def Launch.kpan (l : Launch) : Word := BitVec.ofNat 64 (l.r.panh * 2 ^ 24 + l.r.panw * 2 ^ 16 + l.corner)
def Launch.kgroup (l : Launch) (k c : Nat) : Word :=
  let g := l.groupCorner k
  BitVec.ofNat 64 ((c / 256 - g / 256) * 2 ^ 24 + (c % 256 - g % 256) * 2 ^ 16 + k)

/-- The ULM of a core as set-up leaves it: the core supervisor, the parameter block, zeros (R317). -/
def State.setupUlm (s : State) (c : Nat) (params : List Byte) : State :=
  ((s.wipe (ulmKey c 0) 0x20000).storeBytes (ulmKey c 0) ((List.range 0x1000).map (Config.supervisorByte s.flash.image.code))).storeBytes
    (ulmKey c 0x1000) params

/-- A core as set-up leaves it (R13, R14, R317, R437). -/
def Core.setup (l : Launch) (g : Nat) (replay : Bool) : Core :=
  { Core.reset with
    run := .setup, launch := l.id, group := g, helpers := l.r.helpers, kseg := l.r.kseg, sup := true
    kbrine := BitVec.ofNat 64 (l.brine + if replay then 4 else 0) }

/-- Group `k` of a launch is reserved, and its cores are set up (R315, R317). -/
def State.placeGroup (s : State) (l : Launch) (k : Nat) : State :=
  let (id, s) := s.newId
  let g : Group := { launch := l.id, num := k, corner := l.groupCorner k, w := l.r.grpw + 1, h := l.r.grph + 1, st := .setup }
  let s : State := { s with groups := assocSet id g s.groups }.modLaunch l.id fun x => { x with groups := x.groups ++ [id] }
  g.cores.foldl (fun (s : State) c =>
    let s := (s.setupUlm c l.pblock).setCore c (Core.setup l id (s.mgmt.replay && decide (1 ≤ l.brine)))
    if c % 8 = 0 then s.modBed (bedOf c) fun _ => {} else s) s

/-- Cycles as Brine entries count them. -/
def State.cycle48 (s : State) : Nat := (Config.cyclesOf s.ticks).toNat % 2 ^ 48

/-- The next recorded entry is this one of the distributor about a launch (R438, R440). -/
def State.brineNames (s : State) (l : Launch) (ty : Nat) : Bool :=
  ((s.brineMatch ty 0xFFFF 0).map fun v => decide (v.1.toNat = l.va) && decide (s.brineSerial = l.serial)).getD false

/-- A GRANT or HALT entry; in a replay one that is not the next recorded entry ends the launch (R436, R438, R440). -/
def State.brineLaunch (s : State) (l : Launch) (ty : Nat) : State :=
  if l.brine < 1 then s
  else if s.replays l then if s.brineNames l ty then s.brineTake l.id 0xFFFF else s.diverge l.id
  else s.brineWrite l.id 0xFFFF (brineBytes ty 0 0xFFFF 0 l.serial (BitVec.ofNat 64 l.va)
    (BitVec.ofNat 64 (s.cycle48 * 2 ^ 16 + l.corner)))

/-- Where the launch is placed: the first fitting candidate, or in a replay the recorded corner, once the next GRANT entry
names the launch (R315, R440). -/
def State.cornerFor (s : State) (l : Launch) : Option Nat :=
  if s.mgmt.replay ∧ 1 ≤ s.brineFor l then
    match s.brineMatch 1 0xFFFF 0 with
    | some (va, v) =>
      let c := v.toNat % 2 ^ 16
      if va.toNat = l.va ∧ cornerFits s.busyCores l.width l.height c then some c else none
    | none => none
  else s.fitFor l

/-- The serial of a launch to be granted: the count of grants, or in a replay the recorded one (R438, R440). -/
def State.serialFor (s : State) (l : Launch) : Nat :=
  if s.mgmt.replay ∧ 1 ≤ s.brineFor l then s.brineSerial else s.serials

/-- The grant of the selected launch, or of the next group of a launch whose groups are granted one by one (R315, R316,
R318). An eligible head of higher priority takes the place of the selected launch, and a due group whose cores are free
comes before a launch of no higher priority (R316, R319). A package that is too warm grants no further group either (R454). -/
def execPanGrant (s : State) : Result :=
  let start (s : State) (l : Launch) : State := s.postNext .c0Start { launch := l.id }
  .next <|
    match s.launch? s.ev.launch with
    | none => s
    | some l =>
      if l.st = .selected ∧ s.selected = some l.id ∧ !s.mgmt.noGrant ∧ !s.mgmt.hold then
        if !s.aboveDue l.prio ∨ (s.candidates.any fun h => decide (l.prio < s.effOf h)) then s.lookAgain
        else match s.cornerFor l with
        | none => s
        | some corner =>
          let l' : Launch := { l with
            st := .granted, corner := corner, brine := s.brineFor l, grantOrder := s.grants + 1,
            serial := s.serialFor l }
          let t : State := { (s.unhead l).modLaunch l.id fun _ => l' with
            selected := none, lastSrc := s.srcKey l + 1, grants := s.grants + 1, serials := s.serials + 1 }
          let t := t.brineLaunch l' 1
          start ((List.range (if l'.r.gang then l'.groupCount else 1)).foldl (fun (t : State) k => t.placeGroup l' k) t) l'
      else if l.st = .granted ∧ l.groups.length < l.groupCount ∧
          ((s.groupsOf l).all fun g => decide (g.2.st ≠ .setup)) then
        let k := l.groups.length
        if s.mgmt.noGrant ∨ s.mgmt.hold ∨ ((s.groupsOf l).any fun g => decide (g.2.st = .swapped) || decide (g.2.st = .preempted)) then
          s.postNext .panGrant { launch := l.id }
        else if cornerFits s.busyCores (l.r.grpw + 1) (l.r.grph + 1) (l.groupCorner k) then start (s.placeGroup l k) l
        else s.postOnce .panGrant { launch := l.id }
      else s

/-- c0 of a core starts (R13, R317). -/
def Core.start (k : Core) (l : Launch) (num c : Nat) : Core :=
  { k.modCtx 0 fun _ =>
      { Context.reset with
        live := true, mode := true, k.group := l.kgroup num c, k.pan := l.kpan, k.launch := BitVec.ofNat 64 l.va } with
    run := .running }

/-- c0 starts on every core of the groups whose set-up is complete; the pan clock starts with the first group (R253,
R317, R368). -/
def execC0Start (s : State) : Result :=
  .next <|
    match s.launch? s.ev.launch with
    | none => s
    | some l =>
      if l.st ≠ .granted then s
      else
        let first := l.startTick.isNone
        let s := ((s.groupsOf l).filter fun g => decide (g.2.st = .setup)).foldl (fun (s : State) g =>
          (g.2.cores.foldl (fun (s : State) c => s.modCore c fun k => k.start l g.2.num c) s).modGroup g.1 fun x =>
            { x with st := .resident, kxslot := 0 }) s
        let done := decide (l.groups.length = l.groupCount)
        let s := s.modLaunch l.id fun x => { x with
          startTick := some (x.startTick.getD s.ticks), st := if done then .started else .granted,
          pinsLeft := if first ∧ x.cat.isSome then 1 else x.pinsLeft }
        let s := if first ∧ l.cat.isSome then s.post .initialPin { launch := l.id } else s
        let s := if first ∧ 0 < l.r.treelets then s.post .heatPeriodEnd { launch := l.id } else s
        let s := if first ∧ s.replays l then s.post .brineDivergence { launch := l.id, n := s.mgmt.brhead.toNat } else s
        (if done then s else s.post .panGrant { launch := l.id }).lookAgain

/-! ### Device launches (R177, R318) -/

/-- The record of a `launch` enters the pending-launch queue of the group (R177, R318). -/
def State.queueLaunch (s : State) (off : Nat) : State :=
  let g := s.here.group
  let p : PendRec := { va := off, bytes := memBytes s.mem (s.hereKey off) 128, core := s.cur.core, ctx := s.cur.ctx }
  (s.modGroup g fun x => { x with pending := x.pending ++ [p] }).postOnce .launchValidate { source := .group g }

/-- The checks of a launch record, or of a command record, in own ULM (R177, R178). -/
def State.recordRead (s : State) (a : Fin 32) (body : Nat → State) : Result :=
  let off := ((s.g a).extractLsb' 0 17).toNat
  s.scalar [a] <|
    if off % 128 ≠ 0 then s.fault Cause.align (BitVec.ofNat 64 off)
    else s.localAccess off 128 { r := true } <|
      if s.poisonedRange (s.hereKey off) 128 then s.faultPoison else body off

/-- A launch of a child, which waits for a place in the queue (R177). -/
def execLaunch (a : Fin 32) (s : State) : Result :=
  s.recordRead a fun off =>
    if 4 ≤ (s.group s.here.group).pending.length then s.stall .launch
    else s.afterRelease (s.queueLaunch off)

/-- A launch of a child that answers whether there was a place (R177). -/
def execLaunchNb (d : Fin 8) (a : Fin 32) (s : State) : Result :=
  s.recordRead a fun off =>
    if 4 ≤ (s.group s.here.group).pending.length then s.setP d 0xF 0
    else s.afterRelease ((s.queueLaunch off).setP d 0xF 0xF)

end Sys2Proof.Machine
end

