-- ==== Sys2Proof/Machine/Engines.lean ====
section
/-! DEFINITION. What the engines share: reading and writing main memory with missing pages, over any number of
granules, and writing ULM of a launch (R161, R178, R320, R332, R340). -/

namespace Sys2Proof.Machine

/-- What an engine's read gives. -/
inductive Eng where
  | data (bs : List Byte) (bad : Bool)
  | fail (c : Cause) (va : Nat)
  | wait
  deriving DecidableEq, Repr

/-- The request an engine makes: its identifier, what happens again when a page arrives, launch and PASID. -/
structure Asker where
  req : Nat
  task : Task
  launch : Nat
  pasid : Nat
  deriving DecidableEq, Repr

/-- The parts of `n` bytes at `va` that lie in one granule each. -/
def granuleParts (va n : Nat) : List (Nat × Nat) :=
  (List.range ((va % 4096 + n + 4095) / 4096)).map fun i =>
    let lo := max va (va / 4096 * 4096 + 4096 * i)
    let hi := min (va + n) (va / 4096 * 4096 + 4096 * (i + 1))
    (lo, hi - lo)

/-- The physical places of the parts of a range, all of them present (R340). -/
inductive Places where
  | at_ (l : List (Nat × Nat))
  | fail (c : Cause) (va : Nat)
  | wait
  deriving DecidableEq, Repr

/-- Every part is translated; the first that cannot be ends it. -/
def State.placesOf (s : State) (a : Asker) (write : Bool) : List (Nat × Nat) → Places × State
  | [] => (.at_ [], s)
  | (va, n) :: rest =>
    match s.need a.req a.task a.launch a.pasid va write with
    | (.at_ pa, s) =>
      match s.placesOf a write rest with
      | (.at_ l, s) => (.at_ ((pa, n) :: l), s)
      | r => r
    | (.fail c, s) => (.fail c va, s)
    | (_, s) => (.wait, s)

/-- `n` bytes of main memory read. -/
def State.engineRead (s : State) (a : Asker) (va n : Nat) : Eng × State :=
  match s.placesOf a false (granuleParts va n) with
  | (.at_ l, s) => (.data (l.flatMap fun p => memBytes s.mem p.1 p.2) (l.any fun p => s.poisonedRange p.1 p.2), s)
  | (.fail c v, s) => (.fail c v, s)
  | (.wait, s) => (.wait, s)

/-- Bytes stored at a list of places, in order. -/
def State.putPlaces (s : State) : List (Nat × Nat) → List Byte → State
  | [], _ => s
  | (pa, n) :: rest, bs => (s.storeClean pa (bs.take n)).putPlaces rest (bs.drop n)

/-- How an engine's write ends. -/
inductive Put where
  | done
  | fail (c : Cause) (va : Nat)
  | wait
  deriving DecidableEq, Repr

/-- Bytes written to main memory. -/
def State.engineWrite (s : State) (a : Asker) (va : Nat) (bs : List Byte) : Put × State :=
  match s.placesOf a true (granuleParts va bs.length) with
  | (.at_ l, s) => (.done, s.putPlaces l bs)
  | (.fail c v, s) => (.fail c v, s)
  | (.wait, s) => (.wait, s)

/-- Bytes landed sector by sector at ULM of a core of a launch; false when the core is nowhere (R320, R332). -/
def State.landAt (s : State) (l c off : Nat) (bs : List Byte) (marks : Nat → Bool) : Option State :=
  (s.ulmBase l c).map fun base =>
    (List.range ((bs.length + 31) / 32)).foldl (fun (s : State) i =>
      s.landKey l c (base + off + 32 * i) ((bs.drop (32 * i)).take 32) (marks i)) s

/-- A cause that an engine command ends its launch with (R322). -/
def State.endLaunchWith (s : State) (l : Nat) (c : Cause) (kaddr : Word) : State :=
  s.post .launchEnd { launch := l, info := ⟨c, 0xFFFF, 0, 0, 0, kaddr⟩ }

end Sys2Proof.Machine
end

