-- ==== Sys2Proof/Machine/Memory.lean ====
section
/-! DEFINITION. Local and window loads and stores, atomics, fences, waits: majors 0x09 to 0x0E (R147 to R158). -/

namespace Sys2Proof.Machine

/-! ### Local accesses (R147 to R150) -/

/-- The effective address of a local access (R147). -/
def State.ea (s : State) (a : Fin 32) (o : BitVec 11) (size : Nat) : Word :=
  s.g a + o.signExtend 64 * BitVec.ofNat 64 size

/-- `n` loaded bytes, zero- or sign-extended (R148). -/
def extended (signed : Bool) (n x : Nat) : Word :=
  if signed then (BitVec.ofNat (8 * n) x).signExtend 64 else BitVec.ofNat 64 x

/-- The newest store that meets a read, when it wrote every byte of it and no rule keeps the read after it: the context has
seen nothing that follows it, and the base register held its value before it (R228, R230, R232). -/
def Core.pastFor (k : Core) (c : Fin 11) (base a n : Nat) : Option Overwritten :=
  (k.past.find? fun e => e.meets a n).filter fun e => e.holds a n && bitOf e.open_ c && decide (base < e.at_)

/-- `n` bytes at `a` as they were before a store that wrote them all, in one step (R228). -/
def Overwritten.load (e : Overwritten) (a n : Nat) : Nat := leNat ((e.old.drop (a - e.off)).take n)

/-- The issuing context has read the present bytes: it no longer sees those before any store to them (R230, R232). -/
def State.readNow (s : State) (a n : Nat) : State :=
  s.modHere fun k => k.closePast s.cur.ctx fun e => e.meets a n

/-- A scalar local read by the issuing context, with the poison of its sector: what the bytes hold; or, as R232 allows, what
they held before a window store of another core that nothing keeps before the read, a free choice (R306; DESIGN CHOICE,
log 30). -/
def State.loadHere (s : State) (base a n : Nat) : Nat × Bool × State :=
  let now (t : State) : Nat × Bool × State := (s.loadNat (s.hereKey a) n, s.poisoned (s.hereKey a), t)
  if s.here.past = [] then now s
  else
    match s.here.pastFor s.cur.ctx base a n with
    | none => now (s.readNow a n)
    | some e =>
      let (i, t) := s.freeNat
      if i % 2 = 1 then (e.load a n, e.bad, t) else now (t.readNow a n)

/-- A scalar local load (R149). -/
def State.load (s : State) (signed : Bool) (n : Nat) (d a : Fin 32) (o : BitVec 11) : Result :=
  let ea := (s.ea a o n).toNat
  s.scalar [a] <| s.localAccess ea n { r := true } <|
    let r := s.loadHere s.src.r.gAt[a] ea n
    r.2.2.setG d (extended signed n r.1) r.2.1

/-- A scalar local store (R149). -/
def State.store (s : State) (n : Nat) (g a : Fin 32) (o : BitVec 11) : Result :=
  let ea := (s.ea a o n).toNat
  s.scalar [a, g] <| s.localAccess ea n { w := true } <| s.landUlm s.cur.core ea (natBytes (s.g g).toNat n) false

/-- Signed byte loaded (R148). -/
def execLd8 (d a : Fin 32) (o : BitVec 11) (s : State) : Result := s.load true 1 d a o

/-- Byte loaded (R148). -/
def execLd8z (d a : Fin 32) (o : BitVec 11) (s : State) : Result := s.load false 1 d a o

/-- Signed 16 bits loaded (R148). -/
def execLd16 (d a : Fin 32) (o : BitVec 11) (s : State) : Result := s.load true 2 d a o

/-- 16 bits loaded (R148). -/
def execLd16z (d a : Fin 32) (o : BitVec 11) (s : State) : Result := s.load false 2 d a o

/-- Signed 32 bits loaded (R148). -/
def execLd32 (d a : Fin 32) (o : BitVec 11) (s : State) : Result := s.load true 4 d a o

/-- 32 bits loaded (R148). -/
def execLd32z (d a : Fin 32) (o : BitVec 11) (s : State) : Result := s.load false 4 d a o

/-- 64 bits loaded (R148). -/
def execLd64 (d a : Fin 32) (o : BitVec 11) (s : State) : Result := s.load false 8 d a o

/-- 8 bits stored (R148). -/
def execSt8 (g a : Fin 32) (o : BitVec 11) (s : State) : Result := s.store 1 g a o

/-- 16 bits stored (R148). -/
def execSt16 (g a : Fin 32) (o : BitVec 11) (s : State) : Result := s.store 2 g a o

/-- 32 bits stored (R148). -/
def execSt32 (g a : Fin 32) (o : BitVec 11) (s : State) : Result := s.store 4 g a o

/-- 64 bits stored (R148). -/
def execSt64 (g a : Fin 32) (o : BitVec 11) (s : State) : Result := s.store 8 g a o

/-- Lanes loaded (R150). -/
def State.loadLanes (s : State) (lanes : Mask) (d : Fin 32) (chk : Nat → Check) (addr : Nat → Word) : State :=
  s.lanewise lanes chk fun m =>
    s.setV d m (ofLanes fun l => BitVec.ofNat 64 (s.loadNat (s.hereKey (addr l).toNat) 8))
      (ofBits fun l => s.poisoned (s.hereKey (addr l).toNat))

/-- Lanes stored in ascending order; a marked lane poisons its sector. A whole sector of unmarked data clears it
(R149, R150). -/
def State.storeLanes (s : State) (lanes : Mask) (v : Fin 32) (chk : Nat → Check) (addr : Nat → Word) (row : Bool) : State :=
  s.lanewise lanes chk fun m =>
    if row ∧ m = 0xF ∧ (addr 0).toNat % 32 = 0 then
      s.landUlm s.cur.core (addr 0).toNat (natBytes (s.v v).toNat 32) (decide (s.src.vBad v ≠ 0))
    else (lanesOf m).foldl (fun s' l =>
      s'.landUlm s.cur.core (addr l).toNat (natBytes (lane l (s.v v)).toNat 8) (bitOf (s.src.vBad v) l)) s

/-- Vector load of consecutive lanes (R150). -/
def execVld (d a : Fin 32) (o : BitVec 11) (s : State) : Result :=
  let addr (l : Nat) : Word := s.ea a o 32 + BitVec.ofNat 64 (8 * l)
  s.scalar [a] <| s.loadLanes s.kmask d (fun l => s.laneCheck false (addr l) 8 { r := true }) addr

/-- Vector store of consecutive lanes (R150). -/
def execVst (v a : Fin 32) (o : BitVec 11) (s : State) : Result :=
  let addr (l : Nat) : Word := s.ea a o 32 + BitVec.ofNat 64 (8 * l)
  s.scalar [a] <| s.storeLanes s.kmask v (fun l => s.laneCheck false (addr l) 8 { w := true }) addr true

/-- Vector load of indexed lanes (R150). -/
def execVldx (d a b : Fin 32) (s : State) : Result :=
  let addr (l : Nat) : Word := s.g b + lane l (s.v a)
  s.scalar [b] <| s.loadLanes s.kmask d (fun l => s.laneCheck (bitOf (s.src.vBad a) l) (addr l) 8 { r := true }) addr

/-- Vector store of indexed lanes (R150). -/
def execVstx (v a b : Fin 32) (s : State) : Result :=
  let addr (l : Nat) : Word := s.g b + lane l (s.v a)
  s.scalar [b] <|
    s.storeLanes s.kmask v (fun l => s.laneCheck (bitOf (s.src.vBad a) l) (addr l) 8 { w := true }) addr false

/-! ### Window accesses (R151 to R153) -/

/-- The segments of the core a window address names, where it is a core of the issuer's launch (R29). -/
def State.segsAt (s : State) (va : Word) : Option (Vector Word 4) :=
  if !s.remote va && s.live s.here.launch (winCore va) then some (s.core (winCore va)).kseg else none

/-- A window access takes an entry, with the segments it is checked against (R29), and travels; its destination is pending (R151, R152). A release waits for the
earlier accesses, and everything waits for an acquire (R235). -/
def State.windowIssue (s : State) (op : WinOp) (va : Word) (data : VReg) (cmp : Word) (dst : Dest) (rel acq : Bool) :
    State :=
  if 48 ≤ s.here.win.length ∨ s.acquiring then s.stall .other
  else if rel && !s.released then s.stall .other
  else
    let (id, t) := s.newId
    let e : WinEntry :=
      { id := id, ctx := s.cur.ctx, off := s.cur.p, op := op, va := va, data := data, cmp := cmp, dst := dst, acq := acq,
        resp := none, remote := none, segs := s.segsAt va }
    ((t.modHere fun k => { k with win := k.win ++ [e] }).modCx fun x => x.pend dst true).post .windowRequest
      { core := s.cur.core, id := id }

/-- The checks of a window access after its poison check: form, then alignment (R146, R151). -/
def State.windowChecked (s : State) (va : Word) (n : Nat) (body : State) : State :=
  if !winForm va then s.fault Cause.ulmbound va
  else if va.toNat % n ≠ 0 then s.fault Cause.align va
  else body

/-- A scalar window load (R151). -/
def State.windowLoad (s : State) (n : Nat) (d a b : Fin 32) : Result :=
  let va := s.g a + s.g b
  s.scalar [a, b] <| s.windowChecked va n <| s.windowIssue (.ld n) va 0 0 (.g d) false false

/-- A scalar window store (R151). -/
def State.windowStore (s : State) (n : Nat) (g a b : Fin 32) : Result :=
  let va := s.g a + s.g b
  s.scalar [a, b, g] <| s.windowChecked va n <| s.windowIssue (.st n) va ((s.g g).setWidth 256) 0 .none false false

/-- 32 bits loaded through the window (R151). -/
def execLdw32 (d a b : Fin 32) (s : State) : Result := s.windowLoad 4 d a b

/-- 64 bits loaded through the window (R151). -/
def execLdw64 (d a b : Fin 32) (s : State) : Result := s.windowLoad 8 d a b

/-- 32 bits stored through the window (R151). -/
def execStw32 (g a b : Fin 32) (s : State) : Result := s.windowStore 4 g a b

/-- 64 bits stored through the window (R151). -/
def execStw64 (g a b : Fin 32) (s : State) : Result := s.windowStore 8 g a b

/-- The lanes of KMASK loaded through the window (R151). -/
def execVldw (d a b : Fin 32) (s : State) : Result :=
  let va := s.g a + s.g b
  s.scalar [a, b] <| s.windowChecked va 32 <| s.windowIssue (.vld s.kmask) va 0 0 (.v d s.kmask) false false

/-- The lanes of KMASK stored through the window (R151). -/
def execVstw (v a b : Fin 32) (s : State) : Result :=
  let va := s.g a + s.g b
  s.scalar [a, b] <|
    if s.vMarked s.kmask [v] then s.faultPoison
    else s.windowChecked va 32 <| s.windowIssue (.vst s.kmask) va (s.v v) 0 .none false false

/-! ### Atomics (R154) -/

/-- Bytes of an atomic. -/
def awBytes (w : AWidth) : Nat := if w = .w then 4 else 8

/-- The new value of an atomic, none for no write, and whether `adecz` pushes; operands are w bits (R154). -/
def atomStep (fn : AtomFn) (w old b cmp : Nat) : Option Nat × Bool :=
  let f : FloatFmt := if w = 64 then fmtF64 else fmtF32
  match fn with
  | .add => (some ((old + b) % 2 ^ w), false)
  | .and => (some (old &&& b), false)
  | .or => (some (old ||| b), false)
  | .xor => (some (old ^^^ b), false)
  | .min => (some (if atomSigned w b < atomSigned w old then b else old), false)
  | .max => (some (if atomSigned w old < atomSigned w b then b else old), false)
  | .minu => (some (min old b), false)
  | .maxu => (some (max old b), false)
  | .swp => (some b, false)
  | .cas => (if old = cmp then some b else none, false)
  | .fadd => (some (f.add {} (f.value old) (f.value b)).code, false)
  | .decz => (if old = 0 then none else some (old - 1), decide (old = 1))
where
  /-- A number of w bits read as signed. -/
  atomSigned (w x : Nat) : Int := if x < 2 ^ (w - 1) then x else (x : Int) - 2 ^ w

/-- An atomic performed at the port of core `c` of launch `l`, at offset `a`: the old value, its mark, and the state.
A poisoned sector is not written and pushes nothing (R154). -/
def State.atomAt (s : State) (l c a : Nat) (fn : AtomFn) (w : AWidth) (b cmp : Word) (who : Sender) : Word × Bool × State :=
  let n := awBytes w
  let key := ulmKey c a
  let old := s.loadNat key n
  let r := atomStep fn (8 * n) old (b.toNat % 2 ^ (8 * n)) (cmp.toNat % 2 ^ (8 * n))
  if s.poisoned key then (BitVec.ofNat 64 old, true, s)
  else
    let t := match r.1 with
      | some x => (s.storeNat key n x).wrote key n
      | none => s
    (BitVec.ofNat 64 old, false, if r.2 then t.readyPush l c who b else t)

/-- Whether an order releases, and acquires (R235). -/
def ordRel (r : Order) : Bool := decide (r = .rel) || decide (r = .ar)
def ordAcq (r : Order) : Bool := decide (r = .acq) || decide (r = .ar)

/-- A local atomic (R154). -/
def State.atomLocal (s : State) (fn : AtomFn) (d : Fin 32) (va b cmp : Word) (w : AWidth) (r : Order) : State :=
  let c := s.cur.core
  s.localAccess va.toNat (awBytes w) { r := true, w := true } <|
    if ordRel r && !s.released then s.stall .other
    else
      match s.brineOrder 10 s.here.launch c c s.cur.ctx va with
      | none => s.stall .other
      | some t =>
        let p := t.atomAt s.here.launch c va.toNat fn w b cmp (s.sender c s.cur.ctx)
        p.2.2.setG d p.1 p.2.1

/-- An atomic: local, or through the window when bit 55 of the address is one (R154). -/
def State.atomic (s : State) (fn : AtomFn) (d a b : Fin 32) (w : AWidth) (r : Order) : Result :=
  let va := s.g a
  let srcs := if fn = .cas then [a, b, d] else [a, b]
  s.scalar srcs <|
    if bitOf va 55 then
      s.windowChecked va (awBytes w) <|
        s.windowIssue (.atom fn w) va ((s.g b).setWidth 256) (s.g d) (.g d) (ordRel r) (ordAcq r)
    else s.atomLocal fn d va (s.g b) (s.g d) w r

/-- Sum, atomic (R154). -/
def execAadd (d a b : Fin 32) (width : AWidth) (r : Order) (_s : Scope) (s : State) : Result := s.atomic .add d a b width r

/-- And, atomic (R154). -/
def execAand (d a b : Fin 32) (width : AWidth) (r : Order) (_s : Scope) (s : State) : Result := s.atomic .and d a b width r

/-- Or, atomic (R154). -/
def execAor (d a b : Fin 32) (width : AWidth) (r : Order) (_s : Scope) (s : State) : Result := s.atomic .or d a b width r

/-- Exclusive or, atomic (R154). -/
def execAxor (d a b : Fin 32) (width : AWidth) (r : Order) (_s : Scope) (s : State) : Result := s.atomic .xor d a b width r

/-- Signed minimum, atomic (R154). -/
def execAmin (d a b : Fin 32) (width : AWidth) (r : Order) (_s : Scope) (s : State) : Result := s.atomic .min d a b width r

/-- Signed maximum, atomic (R154). -/
def execAmax (d a b : Fin 32) (width : AWidth) (r : Order) (_s : Scope) (s : State) : Result := s.atomic .max d a b width r

/-- Unsigned minimum, atomic (R154). -/
def execAminu (d a b : Fin 32) (width : AWidth) (r : Order) (_s : Scope) (s : State) : Result := s.atomic .minu d a b width r

/-- Unsigned maximum, atomic (R154). -/
def execAmaxu (d a b : Fin 32) (width : AWidth) (r : Order) (_s : Scope) (s : State) : Result := s.atomic .maxu d a b width r

/-- Exchange, atomic (R154). -/
def execAswp (d a b : Fin 32) (width : AWidth) (r : Order) (_s : Scope) (s : State) : Result := s.atomic .swp d a b width r

/-- Compare and exchange; gD is read first, atomic (R154). -/
def execAcas (d a b : Fin 32) (width : AWidth) (r : Order) (_s : Scope) (s : State) : Result := s.atomic .cas d a b width r

/-- Floating sum, atomic (R154). -/
def execAfadd (d a b : Fin 32) (width : AWidth) (r : Order) (_s : Scope) (s : State) : Result := s.atomic .fadd d a b width r

/-- Decrement to zero, pushing onto q3, atomic (R154). -/
def execAdecz (d a b : Fin 32) (width : AWidth) (r : Order) (_s : Scope) (s : State) : Result := s.atomic .decz d a b width r

/-! ### The receiving port (R152, R153, R320) -/

/-- The check of a request at the receiver's segments (R28, R152). -/
def winPermitted (segs : Vector Word 4) (op : WinOp) (off : Nat) : Bool :=
  let rd : Perm := { rrd := true }
  let wr : Perm := { rwr := true }
  let ok (a n : Nat) (p : Perm) : Bool := (segCheck segs false a n p).isNone
  match op with
  | .ld n => ok off n rd
  | .st n => ok off n wr
  | .vld m => (lanesOf m).all fun l => ok (off + 8 * l) 8 rd
  | .vst m => (lanesOf m).all fun l => ok (off + 8 * l) 8 wr
  | .atom _ w => ok off (awBytes w) wr
  | .mwait => ok off 8 rd
  | .probe => false

/-- A request performed in one step at core `c`: the answer and the state (R152, R154). `bad` marks the words of its
data: a marked word poisons the sector it lands in (R425, R428); an atomic with a marked operand is not performed, and
its result is marked (log 64). -/
def State.winPerform (s : State) (l c off : Nat) (op : WinOp) (data : VReg) (cmp : Word) (bad : Mask) (who : Sender) :
    WinResp × State :=
  let key := ulmKey c off
  let done (s : State) : WinResp × State := ({ cause := 0, data := 0, mark := 0 }, s)
  match op with
  | .ld n => ({ cause := 0, data := BitVec.ofNat 256 (s.loadNat key n), mark := if s.poisoned key then 0xF else 0 }, s)
  | .st n => done (s.landUlm c off (natBytes data.toNat n) (decide (bad ≠ 0)))
  | .vld m =>
    ({ cause := 0, data := ofLanes fun l => if bitOf m l then BitVec.ofNat 64 (s.loadNat (key + 8 * l) 8) else 0,
       mark := if s.poisoned key then m else 0 }, s)
  | .vst m =>
    done (if m = 0xF then s.landUlm c off (natBytes data.toNat 32) (decide (bad ≠ 0))
      else (lanesOf m).foldl (fun s l => s.landUlm c (off + 8 * l) (natBytes (lane l data).toNat 8) (bitOf bad l)) s)
  | .atom fn w =>
    let p := s.atomAt l c off fn w (lane 0 data) cmp who
    if bad ≠ 0 then ({ cause := 0, data := BitVec.ofNat 256 (s.loadNat key (awBytes w)), mark := 0xF }, s)
    else ({ cause := 0, data := p.1.setWidth 256, mark := if p.2.1 then 0xF else 0 }, p.2.2)
  | .mwait => ({ cause := 0, data := BitVec.ofNat 256 (s.loadNat key 8), mark := if s.poisoned key then 0xF else 0 }, s)
  | .probe => done s

/-- The entry of a core's window table. -/
def Core.entry? (k : Core) (id : Nat) : Option WinEntry := k.win.find? fun e => decide (e.id = id)
def Core.modEntry (k : Core) (id : Nat) (f : WinEntry → WinEntry) : Core :=
  { k with win := k.win.map fun e => if e.id = id then f e else e }

/-- What follows an access in the order of memory sees none of the bytes from before it: what the context of an acquire reads
later (R235), and what a helper reads that its starter's access comes before (R102, R238). -/
def Core.performed (k : Core) (id : Nat) : Core :=
  let acquired (c : Fin 11) : Bool := k.win.any fun e => decide (e.id = id) && decide (e.ctx = c) && e.acq
  if k.past.isEmpty then k
  else ((List.range 11).map (Fin.ofNat 11)).foldl (fun k c =>
    if acquired c || k.ctxs[c].after.contains id then k.closePast c fun _ => true else k) k

/-- An answer reaches the issuing core's entry: the access has been performed. -/
def State.winAnswer (s : State) (c id : Nat) (r : WinResp) : State :=
  (s.modCore c fun k => (k.performed id).modEntry id fun e => { e with resp := some r }).post .windowResponse { core := c, id := id }

/-- A refused request (R153). -/
def State.winRefuse (s : State) (c id : Nat) (cause : Cause) : State :=
  s.winAnswer c id { cause := cause, data := 0, mark := 0 }

/-- OP of a request to another package; the codes are the model's (log 17). -/
def winCode : WinOp → Nat
  | .ld n => n / 8
  | .st n => n / 8
  | .vld m => 2 + 16 * m.toNat
  | .vst m => 2 + 16 * m.toNat
  | .atom fn w => atomCode fn + 16 * w.code
  | .mwait => 3
  | .probe => 4
where
  /-- The code of an atomic (R40). -/
  atomCode : AtomFn → Nat
    | .add => 0
    | .and => 1
    | .or => 2
    | .xor => 3
    | .min => 4
    | .max => 5
    | .minu => 6
    | .maxu => 7
    | .swp => 8
    | .cas => 9
    | .fadd => 10
    | .decz => 11

/-- TYPE of a request (R403), and its data flits: the data, then what `acas` compares. -/
def winKind : WinOp → BitVec 8
  | .st _ => 2
  | .vst _ => 2
  | .atom _ _ => 3
  | _ => 1
def winFlits (e : WinEntry) : List (BitVec 256) :=
  match e.op with
  | .st _ => [e.data]
  | .vst _ => [e.data]
  | .atom _ _ => [flitOf [lane 0 e.data, e.cmp]]
  | .mwait => [flitOf [e.cmp]]
  | _ => []

/-- An earlier access of the same context to the same bytes is still to be performed; package 0x3FF names the own package
too (R146, R230). -/
def Core.winBefore (k : Core) (own : Nat) (e : WinEntry) : Bool :=
  k.win.any fun f => decide (f.id < e.id) && decide (f.ctx = e.ctx) && f.resp.isNone &&
    decide (winTarget own f.va = winTarget own e.va) && decide (winCore f.va = winCore e.va) && (Range.meets { lo := winOff f.va, hi := winOff f.va + f.op.bytes }
      (winOff e.va) e.op.bytes)

/-- Whether an operation is an atomic, whose order Brine records (R436). -/
def WinOp.isAtom : WinOp → Bool
  | .atom _ _ => true
  | _ => false

/-- A store or an atomic. -/
def WinOp.writes : WinOp → Bool
  | .st _ => true
  | .vst _ => true
  | .atom _ _ => true
  | _ => false

/-- Stores, by lane too. -/
def WinOp.isStore : WinOp → Bool
  | .st _ => true
  | .vst _ => true
  | _ => false

/-- A window store of another core has overwritten `n` bytes: what they held in `old` is kept, of the last 8 stores (R232;
log 30). -/
def State.notePast (s old : State) (t off n : Nat) : State :=
  s.modCore t fun k => { k with
    epoch := k.epoch + 1
    past := ({ off := off, old := memBytes old.mem (ulmKey t off) n, bad := old.poisoned (ulmKey t off), at_ := k.epoch + 1,
               open_ := BitVec.allOnes 11 } :: k.past).take 8 }

/-- A window request reaches its port, is checked there and is performed as one step, or refused; while the port serves a
landing or a sector of B it waits for the next tick (R49, R267). One for another package travels over Lenbo (R152, R153,
R230, R320, R407, R440). -/
def execWindowRequest (s : State) : Result :=
  let c := s.ev.core
  let k := s.core c
  .next <|
    match k.entry? s.ev.id with
    | none => s
    | some e =>
      let t := winCore e.va
      if e.resp.isSome || e.remote.isSome then s
      else if k.winBefore s.mgmt.pkgnum.toNat e then s.post .windowRequest s.ev
      else if s.remote e.va then
        let pkg := winTarget s.mgmt.pkgnum.toNat e.va
        let seq := assoc 0 pkg s.lenbo.nextSeq
        let op := BitVec.ofNat 16 (winCode e.op) ||| (if e.mark = 0 then 0 else 0x100)
        match s.lenboRequest (winKind e.op) pkg op e.va (if e.op.isAtom then senderAux c e.ctx else 0) (winFlits e) c (some e.id) with
        | none => s.post .windowRequest s.ev
        | some u => u.modCore c fun k => k.modEntry e.id fun e => { e with remote := some seq }
      else if t = c ∧ s.copyHeld c e.ctx e.id (winOff e.va) e.op.bytes e.op.writes then s.post .windowRequest s.ev
      else if !s.live k.launch t || !winPermitted (e.segs.getD (s.core t).kseg) e.op (winOff e.va) then
        s.winRefuse c e.id Cause.window
      else if s.portTaken t then s.postStart (s.ticks + 1) .windowRequest s.ev
      else
        match (if e.op.isAtom then s.brineOrder 10 k.launch t c e.ctx (BitVec.ofNat 64 (winOff e.va)) else some s) with
        | none => s.post .windowRequest s.ev
        | some u =>
          let p := u.winPerform k.launch t (winOff e.va) e.op e.data e.cmp e.mark (s.sender c e.ctx)
          let v := if t = c then p.2.sawOwn c e.ctx (winOff e.va) e.op.bytes
            else if e.op.isStore then p.2.notePast u t (winOff e.va) e.op.bytes else p.2
          v.winAnswer c e.id p.1

/-- An answer retires into its context: the destination is written, or the refusal becomes a report; the entry is free
(R152, R153). -/
def execWindowResponse (s : State) : Result :=
  let c := s.ev.core
  let k := s.core c
  .next <|
    match (k.entry? s.ev.id).bind fun e => e.resp.map fun r => (e, r) with
    | none => s
    | some (e, r) =>
      let s := s.modCore c fun k => { k with win := k.win.filter fun f => decide (f.id ≠ e.id) }
      if r.cause ≠ 0 then s.report c e.ctx { cause := r.cause, va := e.va, off := e.off, dst := e.dst }
      else if e.op = .mwait then
        s.modCtx c e.ctx fun x => { x with mwaitVal := some (lane 0 r.data, decide (r.mark ≠ 0)) }
      else
        let s := match e.dst with
          | .g d => s.modCore c fun k => k.writeG e.ctx d (lane 0 r.data) (decide (r.mark ≠ 0))
          | .v d m => s.modCore c fun k => k.writeV e.ctx d m r.data r.mark
          | _ => s
        s.modCtx c e.ctx fun x => x.pend e.dst false

/-! ### Fences and waits (R155, R156, R158) -/

/-- Earlier accesses are performed and their reports delivered (R155, R192). -/
def execFence (_sc : Scope) (s : State) : Result :=
  .next <| s.desyncFirst <|
    if s.here.win.any fun e => decide (e.ctx = s.cur.ctx) then s.stall .other else s.reportsFirst s

/-- Earlier stores and atomics are performed; the next bundle is fetched afresh (R156). -/
def execIfence (s : State) : Result :=
  .next <|
    if s.here.win.any fun e => decide (e.ctx = s.cur.ctx) && e.resp.isNone && decide (e.op.writes = true) then
      s.stall .other
    else s.modCx fun x => { x with fbuf := [] }

/-- The value read by a `mwait` ends the wait, or the context waits (R158). -/
def State.mwaitRead (s : State) (d : Fin 32) (swap : Bool) (va bound v : Word) (mark : Bool) : State :=
  let s := s.modCx fun x => { x with mwaitVal := none }
  if mark || decide (bound ≤ v) then s.setG d v mark else s.stall (.mwait swap va bound)

/-- A `mwait` on a word of another package asks for it and waits for the answer (R158). -/
def State.mwaitRemote (s : State) (swap : Bool) (va bound : Word) : State :=
  if s.here.win.any fun e => decide (e.ctx = s.cur.ctx) && decide (e.op = .mwait) then s.stall (.mwait swap va bound)
  else
    let t := s.windowIssue .mwait va 0 bound .none false false
    if t.cur.stalled then t else t.stall (.mwait swap va bound)

/-- Where the word of a `mwait` of a context of core `n` stands in this package; none where it is not there (R158). -/
def State.mwaitKey (s : State) (n : Nat) (va : Word) : Option Nat :=
  if !bitOf va 55 then some (ulmKey n va.toNat)
  else if !s.remote va && s.live (s.core n).launch (winCore va) then some (ulmKey (winCore va) (winOff va))
  else none

/-- The wait of a context ends: in `mwait`, when its word reaches the bound, or lies in a poisoned sector: the owning port
looks after every write (R158), and does not check the segments again, which R29 leaves open for a wait (DESIGN CHOICE,
log 70); in `cwait`, when the other context is not live; in `qwait`, when the count is met. A wait that has ended stays so
(R209, R216). -/
def State.watchCtx (s : State) (n : Nat) (x : Context) : Context :=
  match x.block.map Block.kind with
  | some (.cwait d) => if x.wake.isNone && !(s.ctx n d).live then { x with wake := some .released } else x
  | some (.qwait q m) =>
    if x.wake.isNone && decide (m ≤ s.portCount n q 0x100) then { x with wake := some .released } else x
  | some (.mwait _ va bound) =>
    if x.mwaitVal.isSome || x.susp then x
    else match s.mwaitKey n va with
      | some key =>
        let v := BitVec.ofNat 64 (s.loadNat key 8)
        if s.poisoned key || decide (bound ≤ v) then { x with mwaitVal := some (v, s.poisoned key) } else x
      | none => x
  | _ => x
def State.watch (s : State) : State :=
  { s with cores := s.cores.map fun p => (p.1, { p.2 with ctxs := p.2.ctxs.map (s.watchCtx p.1) }) }

/-- Wait until a word is at least a bound (R153, R158); a value that ended the wait is taken. A `mwait` takes a pending
report before its own faults, which R153 does not order (DESIGN CHOICE, log 70), and none of its accesses passes an earlier
one to its word (R230). -/
def execMwait (d a b : Fin 32) (width : Bool) (_sc : Scope) (s : State) : Result :=
  let va := s.g a
  let bound := s.g b
  let t := winCore va
  s.scalar [a, b] <| s.reportsFirst <|
    match s.cx.mwaitVal with
    | some (v, mark) => s.mwaitRead d width va bound v mark
    | none =>
      if bitOf va 55 then
        s.windowChecked va 8 <|
          if s.remote va then s.mwaitRemote width va bound
          else if s.acquiring || s.windowMeets t (winOff va) 8 ||
              (decide (t = s.cur.core) && s.copyHeld t s.cur.ctx s.nextId (winOff va) 8 false) then s.stall .other
          else if !s.live s.here.launch t || !winPermitted (s.core t).kseg .mwait (winOff va) then
            s.deliver { cause := Cause.window, va := va, off := s.cur.p, dst := .none }
          else s.mwaitRead d width va bound (BitVec.ofNat 64 (s.loadNat (ulmKey t (winOff va)) 8))
            (s.poisoned (ulmKey t (winOff va)))
      else
        s.localAccess va.toNat 8 { r := true } <|
          s.mwaitRead d width va bound (BitVec.ofNat 64 (s.loadNat (s.hereKey va.toNat) 8))
            (s.poisoned (s.hereKey va.toNat))

/-! ### Resuming a parked context (R213) -/

/-- A released range lets a parked context go on: as `tret m` with m = KCAUSE.LFLT, the mode unchanged; a scalar
instruction is issued again in full (R213). A range that another copy still parks keeps it parked, and so does its own
suspension, or the halt of its core: it is looked at again after its restore (R226, R325). -/
def execParkedResume (s : State) : Result :=
  let n := s.ev.core
  let c : Fin 11 := Fin.ofNat 11 s.ev.ctx
  let x := s.ctx n c
  let k := s.core n
  let stopped := x.susp || (decide (k.run ≠ .running) && !(decide (k.run = .halting) && decide (c = 0)))
  .next <|
    if !x.parked || k.parkedOn x.waitVA || stopped then s
    else
      let cause := x.k.cause
      let m : Mask := if bitOf cause 14 then cause.extractLsb' 8 4 else 0xF
      let back : Redo := { lanes := m, cause := cause, pc := x.pc, mode := x.mode, parked := true }
      (s.modCtx n c fun x => { x with parked := false, waitVA := [], k.cause := 0 }).resumeAt n c back m

end Sys2Proof.Machine
end

