-- ==== Sys2Proof/Machine/Gecko.lean ====
section
/-! DEFINITION. The Gecko: kicks, rule programs, walks and their results (R178, R380 to R387, R391). -/

namespace Sys2Proof.Machine

/-! ### The command record (R380) -/

/-- A command record, field by field (R380). -/
structure GeckoCmd where
  rule : Nat
  len : Nat
  limit : Nat
  policy : Nat
  mb : Bool
  tag : Fin 16
  start : Word
  param : Word
  key : List Word
  dest : Word
  bad : Bool
  deriving DecidableEq, Repr

def geckoOf (bs : List Byte) : GeckoCmd :=
  let fl := getN bs 12 1
  let rule := getN bs 0 8
  { rule := rule, len := getN bs 8 2, limit := getN bs 10 2, policy := fl % 4, mb := fl.testBit 2,
    tag := Fin.ofNat 16 (getN bs 13 1), start := getWord bs 16, param := getWord bs 24,
    key := (List.range 4).map fun j => getWord bs (32 + 8 * j), dest := getWord bs 64
    bad := !zeroAt bs 14 2 || !zeroAt bs 72 56 || decide (8 ≤ fl) || decide (fl % 4 = 3) || decide (16 ≤ getN bs 13 1) ||
      decide (getN bs 8 2 = 0) || decide (256 < getN bs 8 2) || decide (getN bs 10 2 = 0) || decide (4096 < getN bs 10 2) ||
      decide (2 ^ 55 ≤ rule) || decide (rule % 4 ≠ 0) || (!fl.testBit 2 && decide (getN bs 64 8 = 0)) }

def Walk.fields (w : Walk) : GeckoCmd := geckoOf w.cmd

def State.walk? (s : State) (id : Nat) : Option Walk := s.walks.find? fun w => decide (w.id = id)
def State.modWalk (s : State) (id : Nat) (f : Walk → Walk) : State :=
  { s with walks := s.walks.map fun w => if w.id = id then f w else w }

/-! ### The kick (R178, R381) -/

/-- Kicks that wait at a die. -/
def State.kicksAt (s : State) (die : Nat) : Nat :=
  (s.walks.filter fun w => decide (w.die = die) && !w.running && !w.migrated && w.ended.isNone).length

/-- A kick: DEST is checked, the tag counts it, and the walk goes to the die of START (R178, R380, R381). -/
def execEkickGecko (a : Fin 32) (s : State) : Result :=
  s.recordRead a fun off =>
    let bs := memBytes s.mem (s.hereKey off) 128
    let c := geckoOf bs
    let die := colour c.start.toNat
    let send (s : State) : State :=
      if 64 ≤ s.kicksAt die then s.stall .other
      else s.afterRelease <|
        let (id, s) := s.newId
        let own := s.ownRange s.cur.core c.dest 64
        let s := if c.dest = 0 then s else s.modTag s.here.launch s.cur.core c.tag fun t =>
          { t with count := t.count + 1, dst := rangeUnion t.dst own }
        let w : Walk :=
          { id := id, core := s.cur.core, ctx := s.cur.ctx, launch := s.here.launch, pasid := s.pasidOf s.cur.core, die := die,
            cmd := bs, counted := decide (c.dest ≠ 0), running := false, migrated := false, words := [],
            g := Vector.replicate 32 0, pc := 0, steps := 0, n := 0, migr := 0 }
        { s with walks := s.walks ++ [w] }.post .geckoWalkStart { id := id }
    if c.dest = 0 then send s
    else if c.dest.toNat % 64 ≠ 0 then s.fault Cause.align c.dest
    else if s.badEnd c.dest 64 then s.fault Cause.ulmbound c.dest
    else match s.ownCheck c.dest 64 { w := true } with
      | some (x, va) => s.fault x va
      | none => s.copySlot c.tag (send s)

/-! ### Running (R382 to R385) -/

/-- The walk has ended; its result follows (R386). -/
def State.endWalk (s : State) (id : Nat) (o : Nat) (c : Cause) (a : Word) : State :=
  (s.modWalk id fun w => { w with ended := some (o, c, a), running := false }).post .geckoWalkEnd { id := id }

/-- The branch offset of a branch of the profile, its condition on the registers; none for any other word (R383). -/
def walkBranch (g : Fin 32 → Word) : Instr → Option (Int × Bool)
  | .br o => some (o.toInt, true)
  | .bz a o => some (o.toInt, decide (g a = 0))
  | .bnz a o => some (o.toInt, decide (g a ≠ 0))
  | .blt a b o => some (o.toInt, (g a).slt (g b))
  | .bge a b o => some (o.toInt, !(g a).slt (g b))
  | .bltu a b o => some (o.toInt, decide (g a < g b))
  | .bgeu a b o => some (o.toInt, !decide (g a < g b))
  | _ => none

/-- A load of the profile: destination, base, offset, bytes, signed (R148, R383). -/
def walkLoad : Instr → Option (Fin 32 × Fin 32 × BitVec 11 × Nat × Bool)
  | .ld8 d a o => some (d, a, o, 1, true)
  | .ld8z d a o => some (d, a, o, 1, false)
  | .ld16 d a o => some (d, a, o, 2, true)
  | .ld16z d a o => some (d, a, o, 2, false)
  | .ld32 d a o => some (d, a, o, 4, true)
  | .ld32z d a o => some (d, a, o, 4, false)
  | .ld64 d a o => some (d, a, o, 8, false)
  | _ => none

/-- The state after a scalar word on a state that holds only registers (R86 to R93). -/
def walkScalar (i : Instr) (s : State) : Option Result :=
  match i with
  | .add d a b => some (execAdd d a b s)
  | .sub d a b => some (execSub d a b s)
  | .and d a b => some (execAnd d a b s)
  | .or d a b => some (execOr d a b s)
  | .xor d a b => some (execXor d a b s)
  | .andn d a b => some (execAndn d a b s)
  | .shl d a b => some (execShl d a b s)
  | .shr d a b => some (execShr d a b s)
  | .sar d a b => some (execSar d a b s)
  | .rol d a b => some (execRol d a b s)
  | .min d a b => some (execMin d a b s)
  | .max d a b => some (execMax d a b s)
  | .minu d a b => some (execMinu d a b s)
  | .maxu d a b => some (execMaxu d a b s)
  | .slt d a b => some (execSlt d a b s)
  | .sltu d a b => some (execSltu d a b s)
  | .mul d a b => some (execMul d a b s)
  | .mulh d a b => some (execMulh d a b s)
  | .mulhu d a b => some (execMulhu d a b s)
  | .div d a b => some (execDiv d a b s)
  | .divu d a b => some (execDivu d a b s)
  | .rem d a b => some (execRem d a b s)
  | .remu d a b => some (execRemu d a b s)
  | .sel d a b => some (execSel d a b s)
  | .clz d a => some (execClz d a s)
  | .ctz d a => some (execCtz d a s)
  | .popc d a => some (execPopc d a s)
  | .bfx d a b => some (execBfx d a b s)
  | .bfi d a b => some (execBfi d a b s)
  | .mov d a => some (execMov d a s)
  | .lea d a b => some (execLea d a b s)
  | .wadr d a b => some (execWadr d a b s)
  | .addi d a i => some (execAddi d a i s)
  | .andi d a i => some (execAndi d a i s)
  | .ori d a i => some (execOri d a i s)
  | .xori d a i => some (execXori d a i s)
  | .shli d a i => some (execShli d a i s)
  | .shri d a i => some (execShri d a i s)
  | .sari d a i => some (execSari d a i s)
  | .li d i => some (execLi d i s)
  | .lui d i => some (execLui d i s)
  | .lhi d i => some (execLhi d i s)
  | .nopC => some (execNopC s)
  | .nopA => some (execNopA s)
  | _ => none

/-- A state that holds a walk's registers and their marks in context 0 of core 0, and the registers it holds. -/
def walkState (g : Vector Word 32) (marks : BitVec 32) : State :=
  ({} : State).setCore 0 (Core.reset.modCtx 0 fun x => { x with r.g := g, r.gMark := marks })
def walkRegs (s : State) : Vector Word 32 := (s.ctx 0 0).r.g
def walkMarks (s : State) : BitVec 32 := (s.ctx 0 0).r.gMark

/-- The registers a branch or a load of the profile reads, and what the end of a walk reads: g1, and g1 to g6 for its block
(R383, R386). -/
def walkReads (block : Bool) : Instr → List (Fin 32)
  | .bz a _ => [a]
  | .bnz a _ => [a]
  | .blt a b _ => [a, b]
  | .bge a b _ => [a, b]
  | .bltu a b _ => [a, b]
  | .bgeu a b _ => [a, b]
  | .trap _ => if block then [1, 2, 3, 4, 5, 6] else [1]
  | i => match walkLoad i with
    | some (_, a, _) => [a]
    | none => []

/-- A word of a rule program as its instruction; none outside the profile, or for a branch that leaves the program
(R382, R383). -/
def walkWord (len pc w : Nat) : Option Instr :=
  if !isLone w then none
  else match decodeNat w with
    | none => none
    | some i =>
      match walkBranch (fun _ => 0) i with
      | some (o, _) => if 0 ≤ (pc : Int) + o ∧ (pc : Int) + o < len then some i else none
      | none =>
        match i with
        | .trap k => if k.toNat < 2 then some i else none
        | i => if (walkLoad i).isSome || (walkScalar i {}).isSome then some i else none

/-- A walk's register; g0 reads 0. A write clears its mark. -/
def Walk.reg (w : Walk) (r : Fin 32) : Word := if r = 0 then 0 else w.g[r]
def Walk.setReg (w : Walk) (r : Fin 32) (x : Word) : Walk :=
  if r = 0 then w else { w with g := w.g.set r x, gMark := withBit w.gMark r.val false }

/-- What a load of a walk gives under its policy (R385). -/
inductive WalkLoaded where
  | value (pa : Nat)
  | fin (o : Nat) (c : Cause)
  | wait
  deriving DecidableEq, Repr

def State.walkFetch (s : State) (w : Walk) (ea : Nat) : WalkLoaded × State :=
  let task : Task := { op := .geckoWalkStart, arg := { id := w.id }, lane := 0 }
  let fails (c : Cause) : WalkLoaded := if c = Cause.poison then .fin 4 c else .fin 3 c
  if w.fields.policy = 2 then
    match s.need w.id task w.launch w.pasid ea false with
    | (.at_ pa, s) => (.value pa, s)
    | (.fail c, s) => (fails c, s)
    | (_, s) => (.wait, s)
  else
    match s.translate w.pasid ea false with
    | (.at_ pa, s) => (.value pa, s)
    | (.inv, s) => (fails Cause.pageinv, s)
    | (.poison, s) => (fails Cause.poison, s)
    | (.asked, s) => (.wait, { s with agenda := s.agenda ++ [task] })
    | (.missing, s) =>
      if w.fields.policy = 0 then (.fin 3 Cause.pagewait, s)
      else if s.hostRegs.priStopped then (.fin 3 Cause.pageinv, s)
      else
        let g := granuleOf ea
        (.fin 3 Cause.pagewait, if s.requested w.pasid g then s else s.newGroup w.pasid g false [])

/-- A load of a running walk (R384, R385, R391). -/
def State.walkStepLoad (s : State) (w : Walk) (d a : Fin 32) (o : BitVec 11) (n : Nat) (signed : Bool) : State :=
  let ea : Word := w.reg a + BitVec.ofNat 64 n * o.signExtend 64
  if 2 ^ 55 ≤ ea.toNat then s.endWalk w.id 3 Cause.ulmbound ea
  else if ea.toNat % n ≠ 0 then s.endWalk w.id 3 Cause.align ea
  else if w.steps = w.fields.limit then s.post .geckoStepLimit { id := w.id, value := ea }
  else if colour ea.toNat ≠ w.die then
    (s.modWalk w.id fun w => { w with running := false, migrated := true }).post .geckoMigration
      { id := w.id, die := colour ea.toNat }
  else if !(s.launch? w.launch).any fun l => decide (l.st ≠ .ending) && decide (l.st ≠ .retired) then
    { s with walks := s.walks.filter fun x => decide (x.id ≠ w.id) }
  else
    match s.walkFetch w ea.toNat with
    | (.value pa, s) =>
      if s.poisoned pa then s.endWalk w.id 4 Cause.poison ea
      else
        (s.modWalk w.id fun w =>
          { w.setReg d (extended signed n (s.loadNat pa n)) with steps := w.steps + 1, pc := w.pc + 1 }).post .geckoWalkStart
            { id := w.id }
    | (.fin o c, s) => s.endWalk w.id o c ea
    | (.wait, s) => s.modWalk w.id fun x => { x with n := x.n - 1 }

/-- A register of the walk is marked (R425). -/
def Walk.marked (w : Walk) (r : Fin 32) : Bool := decide (r ≠ 0) && bitOf w.gMark r.val

/-- One word of a running walk (R384). A mark it reads ends the walk with POISON (R429). -/
def State.walkStep (s : State) (w : Walk) : State :=
  if w.pc = w.fields.len then s.endWalk w.id 3 Cause.illop 0
  else if 16 * w.fields.limit + 64 < w.n + 1 then s.post .geckoStepLimit { id := w.id, value := 0 }
  else
    let s := s.modWalk w.id fun w => { w with n := w.n + 1 }
    let w := { w with n := w.n + 1 }
    let go (s : State) (f : Walk → Walk) : State := (s.modWalk w.id f).post .geckoWalkStart { id := w.id }
    match (w.words[w.pc]?).bind fun x => walkWord w.fields.len w.pc x.toNat with
    | none => s.endWalk w.id 5 Cause.illop 0
    | some i =>
      if (walkReads (decide (w.fields.dest ≠ 0)) i).any w.marked then s.endWalk w.id 4 Cause.poison 0
      else match walkLoad i, walkBranch w.reg i, i with
      | some (d, a, o, n, signed), _, _ => s.walkStepLoad w d a o n signed
      | none, some (o, taken), _ => go s fun w => { w with pc := if taken then (w.pc + o).toNat else w.pc + 1 }
      | none, none, .trap k => s.endWalk w.id k.toNat 0 0
      | none, none, i =>
        match walkScalar i (walkState w.g w.gMark) with
        | some (.next t) =>
          if t.cur.trapped then s.endWalk w.id 4 Cause.poison 0
          else go s fun w => { w with g := walkRegs t, gMark := walkMarks t, pc := w.pc + 1 }
        | _ => s.endWalk w.id 5 Cause.illop 0

/-- The first of some kicks or migrated walks that a hart of a die may take: migrated walks first, then kicks, in order of
arrival (R381). -/
def State.nextWalk (s : State) (die : Nat) : Option Nat :=
  let here := s.walks.filter fun w => decide (w.die = die)
  if 16 ≤ (here.filter Walk.running).length then none
  else match here.find? fun w => w.migrated && !w.running && w.ended.isNone with
    | some w => some w.id
    | none => (here.find? fun w => !w.running && !w.migrated && w.ended.isNone).map Walk.id

/-- The rule program read and checked as it stands when the walk starts (R382). -/
def State.walkBegin (s : State) (w : Walk) : State :=
  let c := w.fields
  let a : Asker := { req := w.id, task := { op := .geckoWalkStart, arg := { id := w.id }, lane := 0 }, launch := w.launch,
                     pasid := w.pasid }
  if c.bad then s.endWalk w.id 5 Cause.illop 0
  else
    match s.placesOf a false (granuleParts c.rule (4 * c.len)) with
    | (.fail x va, s) => s.endWalk w.id (if x = Cause.poison then 4 else 3) x (BitVec.ofNat 64 va)
    | (.wait, s) => s
    | (.at_ ps, s) =>
      let pas := ps.flatMap fun p => (List.range (p.2 / 4)).map fun i => p.1 + 4 * i
      match pas.findIdx? fun pa => s.poisoned pa with
      | some i => s.endWalk w.id 4 Cause.poison (BitVec.ofNat 64 (c.rule + 4 * i))
      | none =>
        let ws := pas.map fun pa => BitVec.ofNat 32 (s.loadNat pa 4)
        if (ws.zipIdx.all fun x => (walkWord c.len x.2 x.1.toNat).isSome) then
          let regs (w : Walk) : Walk :=
            (w.fields.key.zipIdx).foldl (fun (w : Walk) k => w.setReg (Fin.ofNat 32 (8 + k.2)) k.1)
              ((w.setReg 1 c.start).setReg 2 c.param)
          (s.modWalk w.id fun w => { regs w with words := ws }).post .geckoWalkStart { id := w.id }
        else s.endWalk w.id 5 Cause.illop 0

/-- A hart takes a kick, and then runs it a word at a time (R381 to R384). -/
def execGeckoWalkStart (s : State) : Result :=
  .next <|
    match s.walk? s.ev.id with
    | none => s
    | some w =>
      if w.ended.isSome then s
      else if w.running then if w.words = [] then s.walkBegin w else s.walkStep w
      else if w.migrated then s
      else if s.nextWalk w.die = some w.id then
        let t := s.modWalk w.id fun w => { w with running := true }
        t.walkBegin { w with running := true }
      else s.post .geckoWalkStart s.ev

/-- A walk reaches the die of its next load, and goes on when a hart takes it (R381, R384). -/
def execGeckoMigration (s : State) : Result :=
  .next <|
    match s.walk? s.ev.id with
    | none => s
    | some w =>
      if !w.migrated ∨ w.running then s
      else if w.die ≠ s.ev.die then
        let s : State := { s with walks := (s.walks.filter fun x => decide (x.id ≠ w.id)) ++
          [{ w with die := s.ev.die, migr := w.migr + 1 }] }
        s.post .geckoMigration s.ev
      else if s.nextWalk w.die = some w.id then
        -- the load that asked for the migration is looked at again: the word counts once
        (s.modWalk w.id fun w => { w with running := true, migrated := false, n := w.n - 1 }).post .geckoWalkStart { id := w.id }
      else s.post .geckoMigration s.ev

/-- A walk ends at its step limit, or at the limit on its words (R384). -/
def execGeckoStepLimit (s : State) : Result :=
  .next <|
    match s.walk? s.ev.id with
    | some w => if w.ended.isSome then s else s.endWalk w.id 2 0 s.ev.value
    | none => s

/-! ### Results (R386, R387) -/

/-- A tag counts a request off with its status (R166, R387). -/
def State.closeTag (s : State) (l c : Nat) (t : Fin 16) (st : Cause) : State :=
  (s.modTag l c t fun t =>
    let n := t.count - 1
    { t with count := n, status := topCause t.status st, dst := if n = 0 then none else t.dst,
             src := if n = 0 then none else t.src }).post .c0CompletionReport { core := c }

/-- The completion of a walk (R386). -/
def Walk.completion (w : Walk) (o : Nat) (st : Cause) (a : Word) : List Byte :=
  let v : Word := if o = 5 then 0 else if 2 ≤ o then a else w.reg 1
  natBytes 8 1 ++ natBytes st.toNat 1 ++ natBytes 0 1 ++ natBytes w.ctx.val 1 ++ natBytes o 1 ++ natBytes (min 255 w.migr) 1 ++
  natBytes w.steps 2 ++ natBytes v.toNat 8

/-- The result block of a walk (R386). -/
def Walk.block (w : Walk) (o : Nat) (st : Cause) (a : Word) : List Byte :=
  (if o = 4 ∨ o = 5 ∨ (o = 3 ∧ w.fields.policy = 0) then List.replicate 48 0
   else (List.range 6).flatMap fun i => natBytes (w.reg (Fin.ofNat 32 (i + 1))).toNat 8) ++ w.completion o st a

/-- The walk is over: the tag, then the completion (R382, R386, R387). -/
def State.finishWalk (s : State) (w : Walk) (o : Nat) (st : Cause) (a : Word) : State :=
  let s : State := { s with walks := s.walks.filter fun x => decide (x.id ≠ w.id) }
  let s := if w.counted then s.closeTag w.launch w.core w.fields.tag st else s
  if w.fields.mb ∨ o = 5 then s.complete w.launch w.core (w.completion o st a) else s

/-- The result block lands, once the port it goes to is free, and the completion is posted; a rejected walk writes no block (R49,
R382, R386, R391). -/
def execGeckoWalkEnd (s : State) : Result :=
  .next <|
    match s.walk? s.ev.id with
    | none => s
    | some w =>
      match w.ended with
      | none => s
      | some (o, st, a) =>
        let dest := w.fields.dest
        let block := w.block o st a
        if !(s.launch? w.launch).any fun l => decide (l.st ≠ .ending) && decide (l.st ≠ .retired) then
          { s with walks := s.walks.filter fun x => decide (x.id ≠ w.id) }
        else if dest = 0 ∨ o = 5 then s.finishWalk w o st a
        else if bitOf dest 55 then
          if s.remote dest then
            match w.ack with
            | some c => s.finishWalk w o (topCause st c) a
            | none =>
              if w.sent then s
              else
                match s.lenboRequest 2 (winTarget s.mgmt.pkgnum.toNat dest) 0 dest (BitVec.ofNat 32 (64 + 4096 * w.pasid))
                    [BitVec.ofNat 256 (leNat (block.take 32)), BitVec.ofNat 256 (leNat (block.drop 32))] w.core none (some w.id) with
                | some s => s.modWalk w.id fun w => { w with sent := true }
                | none => s.post .geckoWalkEnd s.ev
          else
            let t := winCore dest
            if t ≠ w.core ∧ !s.portPermits w.launch t (winOff dest) 64 true then s.finishWalk w o (topCause st Cause.window) a
            else if s.portBusy w.launch t then s.postStart (s.ticks + 1) .geckoWalkEnd s.ev
            else match s.landAt w.launch t (winOff dest) block fun _ => false with
              | some s => s.finishWalk w o st a
              | none => s.finishWalk w o (topCause st Cause.window) a
        else
          match s.need w.id { op := .geckoWalkEnd, arg := s.ev, lane := 0 } w.launch w.pasid dest.toNat true with
          | (.at_ pa, s) =>
            ((s.landKey w.launch w.core pa (block.take 32) false).landKey w.launch w.core (pa + 32) (block.drop 32) false).finishWalk
              w o st a
          | (.fail c, s) => s.finishWalk w o (topCause st c) a
          | (_, s) => s

end Sys2Proof.Machine
end

