-- ==== Sys2Proof/Machine/Geometry.lean ====
section
/-! DEFINITION. Ray tests and raster: boxes, triangles, the decoding of codes, the rebasing of origins, the choice of
a hit, coverage and the depth test (R69, R77, R198 to R206). Values are exact until the one rounding. -/

namespace Sys2Proof.Machine

/-! ### Shared forms -/

/-- A context instruction: it runs once when Active(P) is not empty, and reads its sources whole (R198). -/
def State.onceActive (s : State) (pr : Fin 8) (vs : List (Fin 32)) (effect : State) : Result :=
  .next <|
    if s.src.pBad pr then s.faultPoison
    else if s.active pr = 0 then s
    else if s.vMarked 0xF vs then s.faultPoison
    else effect

/-- The f32 value of an element of a lane. -/
def State.f32 (s : State) (r : Fin 32) (l e : Nat) : FVal := fmtF32.value (el 32 e (lane l (s.v r)))

/-- A value as a multiple of 2^−149; infinities and NaNs count as 0 and are excluded beforehand. -/
def FVal.units (v : FVal) : Int :=
  match v with
  | .num n m e => signedAt n m e (-149)
  | _ => 0

/-- A value that is neither an infinity nor a NaN. -/
def FVal.finite (v : FVal) : Bool := !v.isNan && !v.isInf

/-- Two f32 elements as a lane. -/
def pairLane (x y : Nat) : Word := BitVec.ofNat 64 (x % 2 ^ 32 + 2 ^ 32 * (y % 2 ^ 32))

/-- The f32 of a quotient of integers (R201, R205). -/
def ratio (rm : RndMode) (n d : Int) : Nat :=
  if n = 0 ∨ d = 0 then 0
  else
    let k := 26 + d.natAbs.log2 - min (26 + d.natAbs.log2) n.natAbs.log2
    let p := n.natAbs <<< k
    (fmtF32.round { rm := rm } (decide (n < 0) ^^ decide (d < 0)) (p / d.natAbs) (-(k : Int))
      (decide (p % d.natAbs ≠ 0))).code

/-- +∞ as an f32 code. -/
def posInf : Nat := 0x7F800000

/-! ### Boxes (R200) -/

/-- a − b and a × b; none for a NaN. -/
def exactSub (a b : FVal) : Option FVal := (addVal .rne a b.flip).filter fun v => !v.isNan
def exactMul (a b : FVal) : Option FVal := (mulVal a b).filter fun v => !v.isNan

/-- The larger and the smaller of two values. -/
def FVal.maxOf (a b : FVal) : FVal := if a.below false b then b else a
def FVal.minOf (a b : FVal) : FVal := if b.below false a then b else a

/-- The slab of an axis: near and far; none for a miss (R200). -/
def slab (lo hi o i eps : FVal) : Option (FVal × FVal) :=
  match exactSub lo eps, addVal .rne hi eps with
  | some a, some b =>
    if b.isNan then none
    else if i.isInf then if o.below false a || b.below false o then none else some (.inf true, .inf false)
    else
      match (exactSub a o).bind fun x => exactMul x i, (exactSub b o).bind fun x => exactMul x i with
      | some t1, some t2 => some (t1.minOf t2, t1.maxOf t2)
      | _, _ => none
  | _, _ => none

/-- The local ray of R199: origin, ε, direction, tmin, reciprocal direction, tmax. -/
structure Ray where
  o : List FVal
  eps : FVal
  d : List FVal
  tmin : FVal
  i : List FVal
  tmax : FVal
  deriving DecidableEq, Repr

def State.ray (s : State) (a : Fin 32) : Ray :=
  { o := [s.f32 a 0 0, s.f32 a 0 1, s.f32 a 1 0], eps := s.f32 a 1 1, d := [s.f32 a 2 0, s.f32 a 2 1, s.f32 a 3 0],
    tmin := s.f32 a 3 1, i := [s.f32 (a + 1) 0 0, s.f32 (a + 1) 0 1, s.f32 (a + 1) 1 0], tmax := s.f32 (a + 1) 1 1 }

/-- The near end of a lane's box along the ray, rounded down; none for a miss (R200). -/
def Ray.box (r : Ray) (lo hi : List FVal) : Option Nat :=
  let axes := (List.range 3).map fun c =>
    (lo[c]?.getD (.nan false), hi[c]?.getD (.nan false), r.o[c]?.getD (.nan false), r.i[c]?.getD (.nan false))
  if (r.eps :: r.tmin :: r.tmax :: (r.o ++ r.i ++ lo ++ hi)).any FVal.isNan then none
  else if axes.any fun x => x.2.1.below false x.1 then none
  else
    let slabs := axes.map fun x => slab x.1 x.2.1 x.2.2.1 x.2.2.2 r.eps
    if slabs.any Option.isNone then none
    else
      let ends := slabs.filterMap id
      let near := ends.foldl (fun n e => n.maxOf e.1) r.tmin
      let far := ends.foldl (fun n e => n.minOf e.2) r.tmax
      if far.below false near then none
      else some (if near.isZero then 0 else (fmtF32.deliver { rm := .rdn } near).code)

/-- Rank of a lane among the hitting lanes: those nearer, and among equals the lower ones, stand before it (R200). -/
def rankOf (hits : List (Nat × Nat)) (l code : Nat) : Nat :=
  (hits.filter fun h =>
    (fmtF32.value h.2).below false (fmtF32.value code) ||
    ((fmtF32.value h.2).same (fmtF32.value code) && decide (h.1 < l))).length

/-- Ray against boxes, lane by lane (R200). -/
def execBxt (d a b : Fin 32) (pr : Fin 8) (s : State) : Result :=
  let m := s.active pr
  let boxes := [b, b + 1, b + 2]
  let hits := (lanesOf m).filterMap fun l =>
    ((s.ray a).box (boxes.map fun r => s.f32 r l 0) (boxes.map fun r => s.f32 r l 1)).map fun n => (l, n)
  .next <|
    if s.src.pBad pr || (decide (m ≠ 0) && (s.vMarked 0xB [a] || s.vMarked 0x3 [a + 1])) || s.vMarked m boxes then
      s.faultPoison
    else
      s.setV d m (ofLanes fun l =>
        match hits.find? fun h => decide (h.1 = l) with
        | some h => pairLane h.2 (rankOf hits l h.2)
        | none => pairLane posInf 0xFFFFFFFF)

/-! ### Triangles (R201) -/

/-- Differences, cross and dot products of integer vectors. -/
def vsub (p q : List Int) : List Int := p.zipWith (fun x y => x - y) q
def vcross (p q : List Int) : List Int :=
  match p, q with
  | [a, b, c], [x, y, z] => [b * z - c * y, c * x - a * z, a * y - b * x]
  | _, _ => []
def vdotI (p q : List Int) : Int := (p.zipWith (fun x y => x * y) q).sum

/-- What a triangle test delivers: t, u and v with BACK; none for a miss (R201). All quantities are integer multiples
of powers of 2^−149. -/
def Ray.triangle (r : Ray) (vs : List (List FVal)) (cull : Cull) : Option (Nat × Nat × Nat × Bool) :=
  if !((r.eps :: r.tmin :: r.tmax :: (r.o ++ r.d ++ vs.flatten)).all FVal.finite) then none
  else
    let v (i : Nat) : List Int := ((vs[i % 3]?).getD []).map FVal.units
    let o := r.o.map FVal.units
    let d := r.d.map FVal.units
    let eps := r.eps.units
    let e (i : Nat) : Int := vdotI (vcross (vsub (v (i + 1)) o) (vsub (v (i + 2)) o)) d
    let bnd (i : Nat) : Int := ((vcross (vsub (v (i + 1)) (v (i + 2))) d).map fun (x : Int) => (x.natAbs : Int)).sum
    let sum := e 0 + e 1 + e 2
    let is := [0, 1, 2]
    let inside := decide (sum ≠ 0) &&
      ((is.all fun i => decide (-(eps * bnd i) ≤ e i)) || (is.all fun i => decide (e i ≤ eps * bnd i)))
    let culled := match cull with
      | .off => false
      | .back => decide (0 < sum)
      | .front => decide (sum < 0)
    if !inside || culled then none
    else
      let n := vcross (vsub (v 1) (v 0)) (vsub (v 2) (v 0))
      let t := ratio .rne (vdotI (vsub (v 0) o) n) sum
      let tv := fmtF32.value t
      if tv.below false r.tmin || r.tmax.below false tv then none
      else some (t, ratio .rne (e 1) sum, ratio .rne (e 2) sum, decide (0 < sum))

/-- The vertices of R199: x and y in vB, z in element 0 of vB+1. -/
def State.vertices (s : State) (b : Fin 32) : List (List FVal) :=
  (List.range 3).map fun j => [s.f32 b j 0, s.f32 b j 1, s.f32 (b + 1) j 0]

/-- Ray against one triangle (R201). -/
def execTrix (d a b : Fin 32) (c : Cull) (pr : Fin 8) (s : State) : Result :=
  s.onceActive pr [a, a + 1, b, b + 1] <|
    s.setV d 0x3 <|
      match (s.ray a).triangle (s.vertices b) c with
      | some (t, u, v, back) =>
        ofLanes fun l => if l = 0 then pairLane t u else pairLane v (if back then 3 else 1)
      | none => ofLanes fun l => if l = 0 then pairLane posInf 0 else 0

/-! ### Codes and origins (R69, R77, R202, R203) -/

/-- q × 2^s as an f32; exact (R202). -/
def q16Value (q : Nat) (s : Int) : Nat :=
  let n : Int := (BitVec.ofNat 16 q).toInt
  (fmtF32.round {} (decide (n < 0)) n.natAbs s).code

/-- q16 codes decoded (R202). -/
def execCdec (d a b : Fin 32) (pr : Fin 8) (s : State) : Result :=
  let m := s.active pr
  let sc : Int := ((s.g b).setWidth 8).toInt
  .next <|
    if s.src.pBad pr then s.faultPoison
    else if m = 0 then s
    else if s.src.gBad b || s.vMarked m [a] then s.faultPoison
    else if 100 < sc.natAbs then s.faultOpen Cause.illop
    else
      let q (l e : Nat) : Nat := q16Value (el 16 e (lane l (s.v a))) sc
      (s.setV d m (ofLanes fun l => pairLane (q l 0) (q l 1))).setV (d + 1) m (ofLanes fun l => pairLane (q l 2) 0)

/-- A component of a local origin: its f32 and flags, and the rounding error, none for a NaN (R77). -/
def rebase (x y : Nat) : FRes × Option FVal :=
  let a := fmtF64.value x
  let b := fmtF64.value y
  let r := fmtF32.add {} a b.flip
  let got := fmtF32.value r.code
  match addVal .rne a b.flip with
  | some (.num n m e) =>
    (r, if got.isInf then some (.inf false)
        else match addVal .rne (.num n m e) got.flip with
          | some (.num _ m e) => some (.num false m e)
          | v => v)
  | some (.inf _) => (r, some (.num false 0 0))
  | _ => (r, none)

/-- ε: the largest of the errors, rounded up, with the flags of that rounding (R72, R77). -/
def rebaseBound (errs : List (Option FVal)) : FRes :=
  if errs.any Option.isNone then ⟨fmtF32.nanCode, 0⟩
  else fmtF32.deliver { rm := .rup } ((errs.filterMap id).foldl FVal.maxOf (.num false 0 0))

/-- The local origin and its bound (R77, R203). -/
def execRbase (d a b : Fin 32) (pr : Fin 8) (s : State) : Result :=
  let cs := (List.range 3).map fun i => rebase (lane i (s.v a)).toNat (lane i (s.v b)).toNat
  let c (i : Nat) : Nat := ((cs[i]?).map fun x => x.1.code).getD 0
  let eps := rebaseBound (cs.map Prod.snd)
  s.onceActive pr [a, b] <|
    (s.setV d 0x3 (ofLanes fun l =>
      if l = 0 then pairLane (c 0) (c 1) else pairLane (c 2) eps.code)).raise
        (unionFlags (eps :: cs.map Prod.fst))

/-! ### The better hit (R204) -/

/-- The candidate wins (R204). -/
def hitWins (cand best : VReg) : Bool :=
  let t (x : VReg) : FVal := fmtF32.value (el 32 0 (lane 0 x))
  let hit (x : VReg) : Bool := bitOf (lane 1 x) 32
  hit cand && !(t cand).isNan &&
  (!hit best || (t cand).below false (t best) || ((t cand).same (t best) && decide (lane 2 cand < lane 2 best)))

/-- Compare a candidate with the best hit (R204). vB is read whole: a mark in any lane of it raises POISON even where the candidate
loses, which R204 does not say (DESIGN CHOICE, log 70). -/
def execHcmp (d a b : Fin 32) (pr : Fin 8) (s : State) : Result :=
  s.onceActive pr [a, d, b] <|
    if hitWins (s.v a) (s.v d) then
      (s.setV d 0xF (s.v a)).setV b 0x2 (ofLanes fun l =>
        if l = 1 then pairLane (el 32 0 (lane 1 (s.v b))) (el 32 0 (lane 0 (s.v a))) else 0)
    else s

/-! ### Raster (R205, R206) -/

/-- A signed 32-bit element. -/
def State.i32 (s : State) (r : Fin 32) (l e : Nat) : Int := (BitVec.ofNat 32 (el 32 e (lane l (s.v r)))).toInt

/-- An edge function, and whether an edge owns its zero points (R205). -/
def edgeFn (a b p : Int × Int) : Int := (b.1 - a.1) * (p.2 - a.2) - (b.2 - a.2) * (p.1 - a.1)
def edgeOwns (u w : Int × Int) : Bool := decide (w.2 < u.2) || (decide (u.2 = w.2) && decide (w.1 < u.1))

/-- The lane of a sample: depth and 1 where it is covered (R205). -/
def sample (p : Int × Int) (v : Nat → Int × Int) (z : Nat → FVal) (cull : Cull) : Word :=
  let e (j : Nat) : Int := edgeFn (v ((j + 1) % 3)) (v ((j + 2) % 3)) p
  let area := e 0 + e 1 + e 2
  let neg := decide (area < 0)
  let js := [0, 1, 2]
  let inside := js.all fun j =>
    let x := if neg then -(e j) else e j
    let own := if neg then edgeOwns (v ((j + 2) % 3)) (v ((j + 1) % 3)) else edgeOwns (v ((j + 1) % 3)) (v ((j + 2) % 3))
    decide (0 < x) || (decide (x = 0) && own)
  let culled := match cull with
    | .off => false
    | .back => decide (area < 0)
    | .front => decide (0 < area)
  if area = 0 ∨ culled = true ∨ inside = false then pairLane posInf 0
  else if !(js.all fun j => (z j).finite) then pairLane fmtF32.nanCode 1
  else pairLane (ratio .rne ((js.map fun j => e j * (z j).units).sum) (area * 2 ^ 149)) 1

/-- Coverage of the sample points of the active lanes (R205). -/
def execCov (d a b : Fin 32) (c : Cull) (pr : Fin 8) (s : State) : Result :=
  let m := s.active pr
  let v (j : Nat) : Int × Int := (s.i32 b j 0, s.i32 b j 1)
  .next <|
    if s.src.pBad pr || s.vMarked m [a] || (decide (m ≠ 0) && s.vMarked 0x7 [b, b + 1]) then s.faultPoison
    else s.setV d m (ofLanes fun l => sample (s.i32 a l 0, s.i32 a l 1) v (fun j => s.f32 (b + 1) j 0) c)

/-- One lane of the depth test, as one step at the port (R206). -/
def State.depthTest (s t : State) (r : Fin 32) (l : Nat) (a : Nat) : State :=
  let m : Mask := withBit 0 l true
  let x := lane l (s.v r)
  let put (t : State) (pass mark : Bool) : State :=
    t.setV r m (ofLanes fun _ => pairLane (el 32 0 x) (if pass then 1 else 0)) (if mark then m else 0)
  if t.poisoned (t.hereKey a) then put t false true
  else
    let pass := bitOf x 32 && (fmtF32.value (el 32 0 x)).below false (fmtF32.value (t.loadNat (t.hereKey a) 4))
    put (if pass then (t.storeNat (t.hereKey a) 4 (el 32 0 x)).wrote (t.hereKey a) 4 else t) pass false

/-- Depth test of the lanes of KMASK (R206). -/
def execZtst (v a : Fin 32) (o : BitVec 11) (s : State) : Result :=
  let addr (l : Nat) : Word := s.ea a o 4 + BitVec.ofNat 64 (4 * l)
  s.scalar [a] <|
    s.lanewise s.kmask (fun l => s.laneCheck (bitOf (s.src.vBad v) l) (addr l) 4 { r := true, w := true }) fun m =>
      (lanesOf m).foldl (fun t l => s.depthTest t v l (addr l).toNat) s

end Sys2Proof.Machine
end

