-- ==== Sys2Proof/Machine/Vector.lean ====
section
/-! DEFINITION. Packed integers, lane moves and vector immediates: majors 0x08, 0x09, 0x10 and 0x11 (R122 to R126,
R136, R137). -/

namespace Sys2Proof.Machine

/-- An element of w bits read as a signed number. -/
def toSigned (w x : Nat) : Int := if x < 2 ^ (w - 1) then x else (x : Int) - 2 ^ w

/-- A number as an element of w bits, modulo 2^w. -/
def ofSigned (w : Nat) (x : Int) : Nat := (x % 2 ^ w).toNat

/-- A number clamped to a range. -/
def clampInt (lo hi x : Int) : Int := max lo (min hi x)

/-- A number clamped to the signed, and to the unsigned, range of w bits, as an element (R122, R137). -/
def satS (w : Nat) (x : Int) : Nat := ofSigned w (clampInt (-2 ^ (w - 1)) (2 ^ (w - 1) - 1) x)
def satU (w : Nat) (x : Int) : Nat := (clampInt 0 (2 ^ w - 1) x).toNat

/-- One element of w bits from two (R122). -/
def State.vInt (s : State) (f : Nat → Nat → Nat → Nat) (d a b : Fin 32) (t : View) (pr : Fin 8) : Result :=
  s.lanes2 (perEl2 t.bits (f t.bits)) d a b pr

/-- A relation of every element of a lane, into the bits of a predicate (R123). -/
def State.vCmp (s : State) (f : Nat → Nat → Nat → Bool) (d : Fin 8) (a b : Fin 32) (t : View) (pr : Fin 8) : Result :=
  s.vector pr [a, b] <| s.setP d (s.active pr) <| ofBits fun l =>
    (List.range (64 / t.bits)).all fun e => f t.bits (el t.bits e (lane l (s.v a))) (el t.bits e (lane l (s.v b)))

/-- Sum, element by element (R122). -/
def execVadd (d a b : Fin 32) (t : View) (pr : Fin 8) (s : State) : Result :=
  s.vInt (fun _ x y => x + y) d a b t pr

/-- Difference, element by element (R122). -/
def execVsub (d a b : Fin 32) (t : View) (pr : Fin 8) (s : State) : Result :=
  s.vInt (fun w x y => x + 2 ^ w - y) d a b t pr

/-- Low half of the product, element by element (R122). -/
def execVmul (d a b : Fin 32) (t : View) (pr : Fin 8) (s : State) : Result :=
  s.vInt (fun _ x y => x * y) d a b t pr

/-- High half of the signed product, element by element (R122). -/
def execVmulh (d a b : Fin 32) (t : View) (pr : Fin 8) (s : State) : Result :=
  s.vInt (fun w x y => ofSigned w (toSigned w x * toSigned w y / 2 ^ w)) d a b t pr

/-- Signed minimum, element by element (R122). -/
def execVmin (d a b : Fin 32) (t : View) (pr : Fin 8) (s : State) : Result :=
  s.vInt (fun w x y => if toSigned w y < toSigned w x then y else x) d a b t pr

/-- Signed maximum, element by element (R122). -/
def execVmax (d a b : Fin 32) (t : View) (pr : Fin 8) (s : State) : Result :=
  s.vInt (fun w x y => if toSigned w x < toSigned w y then y else x) d a b t pr

/-- Unsigned minimum, element by element (R122). -/
def execVminu (d a b : Fin 32) (t : View) (pr : Fin 8) (s : State) : Result :=
  s.vInt (fun _ x y => min x y) d a b t pr

/-- Unsigned maximum, element by element (R122). -/
def execVmaxu (d a b : Fin 32) (t : View) (pr : Fin 8) (s : State) : Result :=
  s.vInt (fun _ x y => max x y) d a b t pr

/-- And, element by element (R122). -/
def execVand (d a b : Fin 32) (t : View) (pr : Fin 8) (s : State) : Result :=
  s.vInt (fun _ x y => x &&& y) d a b t pr

/-- Or, element by element (R122). -/
def execVor (d a b : Fin 32) (t : View) (pr : Fin 8) (s : State) : Result :=
  s.vInt (fun _ x y => x ||| y) d a b t pr

/-- Exclusive or, element by element (R122). -/
def execVxor (d a b : Fin 32) (t : View) (pr : Fin 8) (s : State) : Result :=
  s.vInt (fun _ x y => x ^^^ y) d a b t pr

/-- Shift left, element by element (R122). -/
def execVshl (d a b : Fin 32) (t : View) (pr : Fin 8) (s : State) : Result :=
  s.vInt (fun w x y => x <<< (y % w)) d a b t pr

/-- Shift right, zero fill, element by element (R122). -/
def execVshr (d a b : Fin 32) (t : View) (pr : Fin 8) (s : State) : Result :=
  s.vInt (fun w x y => x >>> (y % w)) d a b t pr

/-- Shift right, sign fill, element by element (R122). -/
def execVsar (d a b : Fin 32) (t : View) (pr : Fin 8) (s : State) : Result :=
  s.vInt (fun w x y => ofSigned w (toSigned w x / 2 ^ (y % w))) d a b t pr

/-- Sum clamped signed, element by element (R122). -/
def execVadds (d a b : Fin 32) (t : View) (pr : Fin 8) (s : State) : Result :=
  s.vInt (fun w x y => satS w (toSigned w x + toSigned w y)) d a b t pr

/-- Difference clamped signed, element by element (R122). -/
def execVsubs (d a b : Fin 32) (t : View) (pr : Fin 8) (s : State) : Result :=
  s.vInt (fun w x y => satS w (toSigned w x - toSigned w y)) d a b t pr

/-- Sum clamped unsigned, element by element (R122). -/
def execVaddsu (d a b : Fin 32) (t : View) (pr : Fin 8) (s : State) : Result :=
  s.vInt (fun w x y => satU w ((x : Int) + y)) d a b t pr

/-- Difference clamped unsigned, element by element (R122). -/
def execVsubsu (d a b : Fin 32) (t : View) (pr : Fin 8) (s : State) : Result :=
  s.vInt (fun w x y => satU w ((x : Int) - y)) d a b t pr

/-- Absolute value; the most negative value gives itself (R122). -/
def execVabs (d a : Fin 32) (t : View) (pr : Fin 8) (s : State) : Result :=
  s.lanes1 (perEl1 t.bits fun x => (toSigned t.bits x).natAbs) d a pr

/-- 0 − a (R122). -/
def execVneg (d a : Fin 32) (t : View) (pr : Fin 8) (s : State) : Result :=
  s.lanes1 (perEl1 t.bits fun x => 2 ^ t.bits - x) d a pr

/-- Every element equal (R123). -/
def execVcmpeq (d : Fin 8) (a b : Fin 32) (t : View) (pr : Fin 8) (s : State) : Result :=
  s.vCmp (fun _ x y => decide (x = y)) d a b t pr

/-- Every element different (R123). -/
def execVcmpne (d : Fin 8) (a b : Fin 32) (t : View) (pr : Fin 8) (s : State) : Result :=
  s.vCmp (fun _ x y => decide (x ≠ y)) d a b t pr

/-- Every element below, signed (R123). -/
def execVcmplt (d : Fin 8) (a b : Fin 32) (t : View) (pr : Fin 8) (s : State) : Result :=
  s.vCmp (fun w x y => decide (toSigned w x < toSigned w y)) d a b t pr

/-- Every element at most, signed (R123). -/
def execVcmple (d : Fin 8) (a b : Fin 32) (t : View) (pr : Fin 8) (s : State) : Result :=
  s.vCmp (fun w x y => decide (toSigned w x ≤ toSigned w y)) d a b t pr

/-- Every element below, unsigned (R123). -/
def execVcmpltu (d : Fin 8) (a b : Fin 32) (t : View) (pr : Fin 8) (s : State) : Result :=
  s.vCmp (fun _ x y => decide (x < y)) d a b t pr

/-- Every element at most, unsigned (R123). -/
def execVcmpleu (d : Fin 8) (a b : Fin 32) (t : View) (pr : Fin 8) (s : State) : Result :=
  s.vCmp (fun _ x y => decide (x ≤ y)) d a b t pr

/-- Lanes selected by a predicate; only the selected lane is read (R124). -/
def execVsel (d a b : Fin 32) (pr : Fin 8) (s : State) : Result :=
  let k := s.kmask
  let p := s.p pr
  .next <|
    if s.src.pBad pr || s.vMarked (k &&& p) [a] || s.vMarked (k &&& ~~~p) [b] then s.faultPoison
    else s.setV d k (ofLanes fun l => if bitOf p l then lane l (s.v a) else lane l (s.v b))

/-- Four products added to each wide element of a lane; the operands are elements of w bits (R125). -/
def dot4 (signed : Bool) (w : Nat) (acc a b : Word) : Word :=
  let num (x : Nat) : Int := if signed then toSigned w x else x
  packEls (4 * w) <| (List.range (64 / (4 * w))).map fun e =>
    ofSigned (4 * w) <| (List.range 4).foldl (fun (t : Int) j => t + num (el w (4 * e + j) a) * num (el w (4 * e + j) b))
      (el (4 * w) e acc : Int)

/-- The dot products; vD is read (R125). -/
def State.vDot (s : State) (signed : Bool) (d a b : Fin 32) (h : Bool) (pr : Fin 8) : Result :=
  s.vector pr [d, a, b] <| s.setV d (s.active pr) <| ofLanes fun l =>
    dot4 signed (if h then 16 else 8) (lane l (s.v d)) (lane l (s.v a)) (lane l (s.v b))

/-- Signed dot products (R125). -/
def execVdot4 (d a b : Fin 32) (t : Bool) (pr : Fin 8) (s : State) : Result := s.vDot true d a b t pr

/-- Unsigned dot products (R125). -/
def execVdot4u (d a b : Fin 32) (t : Bool) (pr : Fin 8) (s : State) : Result := s.vDot false d a b t pr

/-! ### Immediates (R126) -/

/-- A .d element of every lane in KMASK from the old lane of vA (R126). -/
def State.vImm (s : State) (f : Word → Word) (d a : Fin 32) : Result :=
  .next <|
    if s.vMarked s.kmask [a] then s.faultPoison
    else s.setV d s.kmask (ofLanes fun l => f (lane l (s.v a)))

/-- vD := sext(imm11) (R126). -/
def execVli (d : Fin 32) (i : BitVec 11) (s : State) : Result :=
  .next (s.setV d s.kmask (ofLanes fun _ => i.signExtend 64))

/-- vD := vA + sext(imm11) (R126). -/
def execVaddi (d a : Fin 32) (i : BitVec 11) (s : State) : Result := s.vImm (fun x => x + i.signExtend 64) d a

/-- vD := vA << s (R126). -/
def execVshli (d a : Fin 32) (i : BitVec 6) (s : State) : Result := s.vImm (fun x => x <<< i.toNat) d a

/-- vD := vA >> s, zero fill (R126). -/
def execVshri (d a : Fin 32) (i : BitVec 6) (s : State) : Result := s.vImm (fun x => x >>> i.toNat) d a

/-! ### Lane moves (R136, R137) -/

/-- Every element of the active lanes := gA (R136). -/
def execVbcast (d a : Fin 32) (t : View) (pr : Fin 8) (s : State) : Result :=
  .next <|
    if s.src.pBad pr || (decide (s.active pr ≠ 0) && s.src.gBad a) then s.faultPoison
    else s.setV d (s.active pr) (ofLanes fun _ => packEls t.bits (List.replicate (64 / t.bits) (s.g a).toNat))

/-- The element index of `vget`, `vput` and `vperm`: the lane and the element in it (R136). -/
def elemIndex (w j : Nat) : Nat × Nat := (j % (256 / w) / (64 / w), j % (256 / w) % (64 / w))

/-- The mask of one lane. -/
def laneMask (l : Nat) : Mask := withBit 0 l true

/-- gD := an element of vA, when its lane is active (R136). -/
def execVget (d a b : Fin 32) (t : View) (pr : Fin 8) (s : State) : Result :=
  let j := elemIndex t.bits (s.g b).toNat
  let m := laneMask j.1 &&& s.active pr
  .next <|
    if s.src.pBad pr || s.src.gBad b || s.vMarked m [a] then s.faultPoison
    else if m = 0 then s
    else s.setG d (BitVec.ofNat 64 (el t.bits j.2 (lane j.1 (s.v a))))

/-- An element of vD := gA, when its lane is active; a partial lane reads the old one (R120, R136). -/
def execVput (d a b : Fin 32) (t : View) (pr : Fin 8) (s : State) : Result :=
  let w := t.bits
  let j := elemIndex w (s.g b).toNat
  let m := laneMask j.1 &&& s.active pr
  let old := lane j.1 (s.v d)
  .next <|
    if s.src.pBad pr || s.src.gBad b || (decide (m ≠ 0) && s.src.gBad a) || (decide (w ≠ 64) && s.vMarked m [d]) then
      s.faultPoison
    else s.setV d m (ofLanes fun _ =>
      packEls w ((List.range (64 / w)).map fun e => if e = j.2 then (s.g a).toNat else el w e old))

/-- Each element of vD from any element of vA, as vB says; only the selected elements are read (R136). -/
def execVperm (d a b : Fin 32) (t : View) (pr : Fin 8) (s : State) : Result :=
  let w := t.bits
  let act := s.active pr
  let from_ (l e : Nat) : Nat × Nat := elemIndex w (el w e (lane l (s.v b)))
  let used : Mask := (lanesOf act).foldl (fun m l =>
    (List.range (64 / w)).foldl (fun m e => m ||| laneMask (from_ l e).1) m) 0
  .next <|
    if s.src.pBad pr || s.vMarked act [b] || s.vMarked used [a] then s.faultPoison
    else s.setV d act (ofLanes fun l => packEls w ((List.range (64 / w)).map fun e =>
      el w (from_ l e).2 (lane (from_ l e).1 (s.v a))))

/-- vD := vA in the active lanes (R136). -/
def execVmov (d a : Fin 32) (pr : Fin 8) (s : State) : Result := s.lanes1 (fun x => x) d a pr

/-- One half of each lane widened to elements of w bits (R137). -/
def extLane (w : Nat) (g : Word) (x : Word) : Word :=
  let n := 64 / w
  packEls w <| (List.range n).map fun e =>
    let v := el (w / 2) (e + if bitOf g 0 then n else 0) x
    if bitOf g 1 then ofSigned w (toSigned (w / 2) v) else v

/-- Widening (R137). -/
def execVext (d a b : Fin 32) (t : View) (pr : Fin 8) (s : State) : Result :=
  if s.src.gBad b && decide (s.active pr ≠ 0) then .next s.faultPoison
  else s.lanes1 (extLane t.bits (s.g b)) d a pr

/-- An element of 2w bits narrowed to w bits as gB[2:1] says (R137). -/
def narrowed (w : Nat) (how : Nat) (x : Nat) : Nat :=
  match how with
  | 0 => x
  | 1 => satS w (toSigned (2 * w) x)
  | 2 => satU w x
  | _ => satU w (toSigned (2 * w) x)

/-- The elements of a lane narrowed into one half of the old lane (R137). -/
def insLane (w : Nat) (g : Word) (old x : Word) : Word :=
  let n := 64 / (2 * w)
  let base := if bitOf g 0 then n else 0
  packEls w <| (List.range (64 / w)).map fun e =>
    if base ≤ e ∧ e < base + n then narrowed w (g.extractLsb' 1 2).toNat (el (2 * w) (e - base) x) else el w e old

/-- Narrowing into one half of the lanes; vD is read (R137). -/
def execVins (d a b : Fin 32) (t : View) (pr : Fin 8) (s : State) : Result :=
  if s.src.gBad b && decide (s.active pr ≠ 0) then .next s.faultPoison
  else s.vector pr [d, a] <| s.setV d (s.active pr) <| ofLanes fun l =>
    insLane t.bits (s.g b) (lane l (s.v d)) (lane l (s.v a))

end Sys2Proof.Machine
end

