-- ==== Sys2Proof/Machine/Float.lean ====
section
/-! DEFINITION. Floating arithmetic, comparisons and fused forms: majors 0x0A and 0x0C to 0x0E (R127 to R130). -/

namespace Sys2Proof.Machine

/-- The values of element e of a lane, flushed as KFPC says (R73). -/
def State.fval (s : State) (f : FloatFmt) (r : Fin 32) (l e : Nat) : FVal :=
  f.read s.env.ftz (el f.width e (lane l (s.v r)))

/-- A floating instruction over elements of one format: `res` gives the result of element e of lane l. -/
def State.floatOp (s : State) (f : FloatFmt) (d : Fin 32) (vs : List (Fin 32)) (pr : Fin 8) (res : Nat → Nat → FRes) :
    Result :=
  s.vector pr vs (s.floats f.width d (s.active pr) fun l => (List.range (64 / f.width)).map (res l))

/-- A comparison into a predicate (R128). -/
def State.floatCmp (s : State) (c : FCmp) (d : Fin 8) (a b : Fin 32) (t : FFmt) (pr : Fin 8) : Result :=
  let f := t.fmt
  let res (l : Nat) : List (Bool × Flags) :=
    (List.range (64 / f.width)).map fun e => c.eval (s.fval f a l e) (s.fval f b l e)
  s.vector pr [a, b] <|
    (s.setP d (s.active pr) (ofBits fun l => (res l).all Prod.fst)).raise
      ((lanesOf (s.active pr)).foldl (fun fl l => (res l).foldl (fun fl r => fl ||| r.2) fl) 0)

/-- An operation on the sign bits alone (R66). -/
def signLane (w : Nat) (f : Bool → Bool → Bool) (a b : Word) : Word :=
  perEl2 w (fun x y => x % 2 ^ (w - 1) + if f (x.testBit (w - 1)) (y.testBit (w - 1)) then 2 ^ (w - 1) else 0) a b

/-- Sum (R127). -/
def execFadd (d a b : Fin 32) (t : FFmt) (pr : Fin 8) (s : State) : Result :=
  let f := t.fmt
  s.floatOp f d [a, b] pr fun l e => f.add s.env (s.fval f a l e) (s.fval f b l e)

/-- Difference (R127). -/
def execFsub (d a b : Fin 32) (t : FFmt) (pr : Fin 8) (s : State) : Result :=
  let f := t.fmt
  s.floatOp f d [a, b] pr fun l e => f.add s.env (s.fval f a l e) (s.fval f b l e).flip

/-- Product (R127). -/
def execFmul (d a b : Fin 32) (t : FFmt) (pr : Fin 8) (s : State) : Result :=
  let f := t.fmt
  s.floatOp f d [a, b] pr fun l e => f.mul s.env (s.fval f a l e) (s.fval f b l e)

/-- Minimum (R127). -/
def execFmin (d a b : Fin 32) (t : FFmt) (pr : Fin 8) (s : State) : Result :=
  let f := t.fmt
  s.floatOp f d [a, b] pr fun l e => f.minmax s.env false (s.fval f a l e) (s.fval f b l e)

/-- Maximum (R127). -/
def execFmax (d a b : Fin 32) (t : FFmt) (pr : Fin 8) (s : State) : Result :=
  let f := t.fmt
  s.floatOp f d [a, b] pr fun l e => f.minmax s.env true (s.fval f a l e) (s.fval f b l e)

/-- Sign cleared (R66, R127). -/
def execFabs (d a : Fin 32) (t : FFmt) (pr : Fin 8) (s : State) : Result :=
  s.lanes1 (fun x => signLane t.fmt.width (fun _ _ => false) x x) d a pr

/-- Sign inverted (R66, R127). -/
def execFneg (d a : Fin 32) (t : FFmt) (pr : Fin 8) (s : State) : Result :=
  s.lanes1 (fun x => signLane t.fmt.width (fun p _ => !p) x x) d a pr

/-- a with the sign of b (R66, R127). -/
def execFcpsgn (d a b : Fin 32) (t : FFmt) (pr : Fin 8) (s : State) : Result :=
  s.lanes2 (signLane t.fmt.width fun _ q => q) d a b pr

/-- Equal (R67, R128). -/
def execFcmpeq (d : Fin 8) (a b : Fin 32) (t : FFmt) (pr : Fin 8) (s : State) : Result := s.floatCmp .eq d a b t pr

/-- Below (R67, R128). -/
def execFcmplt (d : Fin 8) (a b : Fin 32) (t : FFmt) (pr : Fin 8) (s : State) : Result := s.floatCmp .lt d a b t pr

/-- At most (R67, R128). -/
def execFcmple (d : Fin 8) (a b : Fin 32) (t : FFmt) (pr : Fin 8) (s : State) : Result := s.floatCmp .le d a b t pr

/-- Unordered (R67, R128). -/
def execFcmpun (d : Fin 8) (a b : Fin 32) (t : FFmt) (pr : Fin 8) (s : State) : Result := s.floatCmp .un d a b t pr

/-- Class of each element, as stored (R129). -/
def execFclass (d a : Fin 32) (t : FFmt) (pr : Fin 8) (s : State) : Result :=
  s.lanes1 (perEl1 t.fmt.width t.fmt.classOf) d a pr

/-- An integral value (R127). -/
def execFround (d a : Fin 32) (m : RMode) (t : FFmt) (pr : Fin 8) (s : State) : Result :=
  let f := t.fmt
  s.floatOp f d [a] pr fun l e => f.integral { s.env with rm := m.mode s.env.rm } (s.fval f a l e)

/-- A fused form: the product, or its negation, plus the addend, or its negation (R130). -/
def State.fused (s : State) (negP negC : Bool) (d a b c : Fin 32) (t : FFmt) (pr : Fin 4) : Result :=
  let f := t.fmt
  let sign (n : Bool) (v : FVal) : FVal := if n then v.flip else v
  s.floatOp f d [a, b, c] (wide pr) fun l e =>
    f.fma s.env (sign negP (s.fval f a l e)) (s.fval f b l e) (sign negC (s.fval f c l e))
where
  /-- A predicate of pr2. -/
  wide (p : Fin 4) : Fin 8 := ⟨p.val, by omega⟩

/-- a × b + c (R130). -/
def execFfma (d a b c : Fin 32) (t : FFmt) (pr : Fin 4) (s : State) : Result := s.fused false false d a b c t pr

/-- a × b − c (R130). -/
def execFfms (d a b c : Fin 32) (t : FFmt) (pr : Fin 4) (s : State) : Result := s.fused false true d a b c t pr

/-- −(a × b) + c (R130). -/
def execFfnma (d a b c : Fin 32) (t : FFmt) (pr : Fin 4) (s : State) : Result := s.fused true false d a b c t pr

end Sys2Proof.Machine
end

