-- ==== Sys2Proof/Machine/Sfu.lean ====
section
/-! DEFINITION. Special functions: major 0x0F, and the retiring of their results (R133 to R135). The exact results are
bracketed with fixed-point arithmetic; which of the values the bounds admit is delivered is a free value (log 6). -/

namespace Sys2Proof.Machine

/-- The largest r below 2^bits with r² ≤ n. -/
def isqrt (n : Nat) : Nat → Nat → Nat
  | 0, r => r
  | k + 1, r => isqrt n k (if (r + 2 ^ k) * (r + 2 ^ k) ≤ n then r + 2 ^ k else r)

/-- a / b as a magnitude with 120 more bits: the quotient, and whether it is cut. -/
def quot (a b : Nat) : Nat × Bool := (a * 2 ^ 120 / b, decide (a * 2 ^ 120 % b ≠ 0))

/-- √(m × 2^e): root, power of two, whether it is cut. -/
def rootOf (m : Nat) (e : Int) : Nat × Int × Bool :=
  let odd := e % 2 = 1
  let n := (if odd then 2 * m else m) * 2 ^ 128
  let r := isqrt n 96 0
  (r, (if odd then e - 1 else e) / 2 - 64, decide (r * r ≠ n))

/-- 1 / √(m × 2^e). -/
def invRootOf (m : Nat) (e : Int) : Nat × Int × Bool :=
  let odd := e % 2 = 1
  let d := if odd then 2 * m else m
  let r := isqrt (2 ^ 256 / d) 130 0
  (r, -((if odd then e - 1 else e) / 2) - 128, decide (r * r * d ≠ 2 ^ 256))

/-- One of the two neighbours of an exact result (R133): toward zero, or away from it. -/
def FloatFmt.faithful (f : FloatFmt) (ftz : Bool) (fn : Nat) (x : Word) (neg : Bool) (m : Nat) (e : Int)
    (sticky : Bool) : FRes :=
  let away : RndMode := if neg then .rdn else .rup
  f.round { rm := if Config.sfuUp fn x then away else .rtz, ftz := ftz } neg m e sticky

/-- The number of a function and a format in the free values. -/
def sfuKey (fn : Nat) (f : FloatFmt) : Nat := 2 * fn + if f.fbits = 52 then 1 else 0

/-- A NaN operand (R134). -/
def FloatFmt.sfuNan (f : FloatFmt) (sg : Bool) : FRes := ⟨f.nanCode, flagIf sg flagNV⟩

/-- 1 / a (R133, R134). -/
def FloatFmt.rcp (f : FloatFmt) (env : FloatEnv) (x : Nat) : FRes :=
  match f.read env.ftz x with
  | .nan sg => f.sfuNan sg
  | .inf n => ⟨f.signed n 0, 0⟩
  | .num n m e =>
    if m = 0 then ⟨f.signed n f.infCode, flagDZ⟩
    else
      let q := quot 1 m
      f.faithful env.ftz (sfuKey 0 f) (BitVec.ofNat 64 x) n q.1 (-e - 120) q.2

/-- 1 / √a (R133, R134). -/
def FloatFmt.rsq (f : FloatFmt) (env : FloatEnv) (x : Nat) : FRes :=
  match f.read env.ftz x with
  | .nan sg => f.sfuNan sg
  | .inf n => if n then f.invalid else ⟨0, 0⟩
  | .num n m e =>
    if m = 0 then ⟨f.signed n f.infCode, flagDZ⟩
    else if n then f.invalid
    else
      let r := invRootOf m e
      f.faithful env.ftz (sfuKey 1 f) (BitVec.ofNat 64 x) false r.1 r.2.1 r.2.2

/-- √a, correctly rounded (R133, R134). -/
def FloatFmt.sqrt (f : FloatFmt) (env : FloatEnv) (x : Nat) : FRes :=
  match f.read env.ftz x with
  | .nan sg => f.sfuNan sg
  | .inf n => if n then f.invalid else ⟨f.infCode, 0⟩
  | .num n m e =>
    if m = 0 then ⟨f.signed n 0, 0⟩
    else if n then f.invalid
    else
      let r := rootOf m e
      f.round env false r.1 r.2.1 r.2.2

/-- a / b, correctly rounded (R133, R134). -/
def FloatFmt.div (f : FloatFmt) (env : FloatEnv) (x y : Nat) : FRes :=
  let a := f.read env.ftz x
  let b := f.read env.ftz y
  let neg := a.neg ^^ b.neg
  match a, b with
  | .nan _, _ => ⟨f.nanCode, sigFlags [a, b]⟩
  | _, .nan _ => ⟨f.nanCode, sigFlags [a, b]⟩
  | .inf _, .inf _ => f.invalid
  | .inf _, _ => ⟨f.signed neg f.infCode, 0⟩
  | _, .inf _ => ⟨f.signed neg 0, 0⟩
  | .num _ m e, .num _ p g =>
    if p = 0 then (if m = 0 then f.invalid else ⟨f.signed neg f.infCode, flagDZ⟩)
    else if m = 0 then ⟨f.signed neg 0, 0⟩
    else
      let q := quot m p
      f.round env neg q.1 (e - g - 120) q.2

/-! ### Functions within 2 ulp -/

/-- |r − x| ≤ tol for r = ±p × 2^g, x = ±m × 2^e and tol = 2^t. -/
def within (r : FVal) (neg : Bool) (m : Nat) (e t : Int) : Bool :=
  match r with
  | .num n p g =>
    let base := min (min e g) t
    decide ((signedAt n p g base - signedAt neg m e base).natAbs ≤ atBase 1 t base)
  | _ => false

/-- A delivered code that is no exact result: NX, UF when it is tiny, and flushed under FTZ (R72, R73). A zero delivered for
an exact result that is `small`, below the smallest normal, is a tiny result. -/
def FloatFmt.inexact (f : FloatFmt) (ftz small : Bool) (code : Nat) : FRes :=
  match f.value code with
  | .num n m e =>
    if f.tiny m e || (small && decide (m = 0)) then (if ftz then ⟨f.signed n 0, flagUF ||| flagNX⟩ else ⟨code, flagUF ||| flagNX⟩)
    else ⟨code, flagNX⟩
  | _ => ⟨code, flagOF ||| flagNX⟩

/-- A result near an exact value that is not representable, ±m × 2^e and a little more: the free code when it lies
within 2 ulp, or within 2^abs where the manual bounds the absolute error; else the neighbour toward zero
(R133). Out of range, the largest finite value or infinity (R71). -/
def FloatFmt.near (f : FloatFmt) (ftz : Bool) (key : Nat) (x : Word) (neg : Bool) (m : Nat) (e : Int)
    (abs : Option Int) : FRes :=
  let cut := f.round { rm := .rtz } neg m e true
  if bitOf cut.flags 2 then
    ⟨if Config.sfuUp key x then f.signed neg f.infCode else cut.code, flagOF ||| flagNX⟩
  else
    let t := (abs.elim id max) (f.ulp m e + 1)
    let free := (Config.sfuNear key x).toNat % 2 ^ f.width
    let small := bitOf cut.flags 1
    if within (f.value free) neg m e t then f.inexact ftz small free
    else if free = f.signed neg f.infCode ∧ !leMag (atBase 1 t (min e t) + atBase m e (min e t)) (min e t) (2 ^ (f.fbits + 1)) (f.emin + (f.emax - 2)) then
      f.inexact ftz small free
    else f.inexact ftz small cut.code

/-- 2^256 × 2^x for x = fx / 2^256, by the series of the exponential. -/
def exp2Frac (fx : Nat) : Nat :=
  let t := fx * 80260960185991308862233904206310070533990667611589946606122867505419956976171 / 2 ^ 256
  ((List.range 70).foldl (fun (p : Nat × Nat) i => (p.1 + p.2, p.2 * t / 2 ^ 256 / (i + 1))) (0, 2 ^ 256)).1

/-- A number below 2^k over 2^k, to 256 bits. -/
def fix256 (r k : Nat) : Nat := if k ≤ 256 then r * 2 ^ (256 - k) else r / 2 ^ (k - 256)

/-- 2^a (R133, R134). -/
def FloatFmt.exp2 (f : FloatFmt) (env : FloatEnv) (x : Nat) : FRes :=
  let key := sfuKey 2 f
  let bits := BitVec.ofNat 64 x
  match f.read env.ftz x with
  | .nan sg => f.sfuNan sg
  | .inf n => ⟨if n then 0 else f.infCode, 0⟩
  | .num n m e =>
    let k := (-e).toNat
    let num : Int := if n then -(m <<< e.toNat : Nat) else (m <<< e.toNat : Nat)
    let i : Int := max (-5000) (min 5000 (num / 2 ^ k))
    let r := (num % 2 ^ k).toNat
    if r = 0 then f.faithful env.ftz key bits false 1 i false
    else f.near env.ftz key bits false (exp2Frac (fix256 r k)) (i - 256) none

/-- Binary digits of the logarithm of y / 2^400 in [1, 2), by squaring. -/
def log2Digits : Nat → Nat → Nat → Nat
  | 0, _, acc => acc
  | k + 1, y, acc =>
    let z := y * y / 2 ^ 400
    if 2 ^ 401 ≤ z then log2Digits k (z / 2) (2 * acc + 1) else log2Digits k z (2 * acc)

/-- log2 a (R133, R134). -/
def FloatFmt.log2 (f : FloatFmt) (env : FloatEnv) (x : Nat) : FRes :=
  match f.read env.ftz x with
  | .nan sg => f.sfuNan sg
  | .inf n => if n then f.invalid else ⟨f.infCode, 0⟩
  | .num n m e =>
    if m = 0 then ⟨f.signed true f.infCode, flagDZ⟩
    else if n then f.invalid
    else
      let i : Int := e + m.log2
      if m = 2 ^ m.log2 then f.round {} (decide (i < 0)) i.natAbs 0
      else
        let frac := log2Digits 180 (m * 2 ^ 400 / 2 ^ m.log2) 0
        let v : Int := i * 2 ^ 180 + frac
        let abs : Option Int := if i = 0 ∨ i = -1 then some (if f.fbits = 52 then -50 else -22) else none
        f.near env.ftz (sfuKey 3 f) (BitVec.ofNat 64 x) (decide (v < 0)) v.natAbs (-180) abs

/-- sin and cos of 2π × fx / 2^256 for fx below 2^254, times 2^256, by their series. -/
def sinCos (fx : Nat) : Nat × Nat :=
  let t := fx * 727543153783532648560469885555459725306786754656784859917544302235877788932370 / 2 ^ 256
  let r := (List.range 80).foldl (fun (p : Int × Int × Nat) i =>
    let term : Int := p.2.2
    let p' : Int × Int :=
      match i % 4 with
      | 0 => (p.1, p.2.1 + term)
      | 1 => (p.1 + term, p.2.1)
      | 2 => (p.1, p.2.1 - term)
      | _ => (p.1 - term, p.2.1)
    (p'.1, p'.2, p.2.2 * t / 2 ^ 256 / (i + 1))) (0, 0, 2 ^ 256)
  (r.1.toNat, r.2.1.toNat)

/-- sin 2πa for `quarter` 0 and cos 2πa = sin 2π(a + 1/4) for `quarter` 1 (R133, R134). "Near the zeros" is not measured out in
R133: the larger of the two bounds holds for every operand (DESIGN CHOICE, log 6). -/
def FloatFmt.sine (f : FloatFmt) (env : FloatEnv) (quarter : Nat) (x : Nat) : FRes :=
  let one := f.encode (2 ^ f.fbits) (-f.fbits)
  match f.read env.ftz x with
  | .nan sg => f.sfuNan sg
  | .inf _ => f.invalid
  | .num n m e =>
    let k := (-e).toNat
    let r := (m <<< e.toNat) % 2 ^ k
    let q := (4 * r / 2 ^ k + quarter) % 4
    let flip := n && decide (quarter = 0)
    let rest := 4 * r % 2 ^ k
    if rest = 0 then
      if m = 0 ∧ quarter = 0 then ⟨f.signed n 0, 0⟩
      else match q with
        | 1 => ⟨f.signed flip one, 0⟩
        | 3 => ⟨f.signed (!flip) one, 0⟩
        | _ => ⟨0, 0⟩
    else
      let key := sfuKey (4 + quarter) f
      let abs : Option Int := some (if f.fbits = 52 then -52 else -24)
      let neg := flip ^^ decide (2 ≤ q)
      let sc := sinCos (fix256 rest (k + 2))
      if q % 2 = 1 then f.near env.ftz key (BitVec.ofNat 64 x) neg sc.2 (-256) abs
      else if fix256 rest (k + 2) < 2 ^ 160 then
        f.near env.ftz key (BitVec.ofNat 64 x) neg
          (rest * 727543153783532648560469885555459725306786754656784859917544302235877788932370) (-258 - k) abs
      else f.near env.ftz key (BitVec.ofNat 64 x) neg sc.1 (-256) abs

/-! ### Issue and retirement (R135) -/

/-- An SFU instruction: its results wait in the core's queue, its destination is pending (R135). -/
def State.sfuIssue (s : State) (f : FloatFmt) (d : Fin 32) (vs : List (Fin 32)) (pr : Fin 8) (res : Nat → Nat → FRes) :
    Result :=
  let m := s.active pr
  let all (l : Nat) : List FRes := (List.range (64 / f.width)).map (res l)
  let item : SfuItem :=
    { ctx := s.cur.ctx, dst := d, lanes := m, value := ofLanes fun l => packEls f.width ((all l).map FRes.code),
      flags := (lanesOf m).foldl (fun fl l => fl ||| unionFlags (all l)) 0 }
  s.vector pr vs <|
    ((s.modHere fun k => { k with sfu := k.sfu ++ [item] }).modCx fun x => x.pend (.v d m) true).post
      .sfuResultRetire { core := s.cur.core }

/-- A function of one operand. -/
def State.sfu1 (s : State) (fn : FloatFmt → FloatEnv → Nat → FRes) (d a : Fin 32) (t : SFmt) (pr : Fin 8) : Result :=
  s.sfuIssue t.fmt d [a] pr fun l e => fn t.fmt s.env (el t.fmt.width e (lane l (s.v a)))

/-- 1 / a (R133). -/
def execFrcp (d a : Fin 32) (t : SFmt) (pr : Fin 8) (s : State) : Result := s.sfu1 FloatFmt.rcp d a t pr

/-- 1 / √a (R133). -/
def execFrsq (d a : Fin 32) (t : SFmt) (pr : Fin 8) (s : State) : Result := s.sfu1 FloatFmt.rsq d a t pr

/-- √a (R133). -/
def execFsqrt (d a : Fin 32) (t : SFmt) (pr : Fin 8) (s : State) : Result := s.sfu1 FloatFmt.sqrt d a t pr

/-- 2^a (R133). -/
def execFexp2 (d a : Fin 32) (t : SFmt) (pr : Fin 8) (s : State) : Result := s.sfu1 FloatFmt.exp2 d a t pr

/-- log2 a (R133). -/
def execFlog2 (d a : Fin 32) (t : SFmt) (pr : Fin 8) (s : State) : Result := s.sfu1 FloatFmt.log2 d a t pr

/-- sin 2πa (R133). -/
def execFsin (d a : Fin 32) (t : SFmt) (pr : Fin 8) (s : State) : Result := s.sfu1 (fun f env => f.sine env 0) d a t pr

/-- cos 2πa (R133). -/
def execFcos (d a : Fin 32) (t : SFmt) (pr : Fin 8) (s : State) : Result := s.sfu1 (fun f env => f.sine env 1) d a t pr

/-- a / b (R133). -/
def execFdiv (d a b : Fin 32) (t : SFmt) (pr : Fin 8) (s : State) : Result :=
  let f := t.fmt
  s.sfuIssue f d [a, b] pr fun l e => f.div s.env (el f.width e (lane l (s.v a))) (el f.width e (lane l (s.v b)))

/-- The oldest result of a core's SFU retires into its context: registers written, flags raised, the destination
released (R135). -/
def execSfuResultRetire (s : State) : Result :=
  let n := s.ev.core
  .next <|
    match (s.core n).sfu with
    | [] => s
    | i :: rest =>
      s.modCore n fun k =>
        ({ k.writeV i.ctx i.dst i.lanes i.value with sfu := rest }).modCtx i.ctx fun x =>
          (x.pend (.v i.dst i.lanes) false).raise i.flags

end Sys2Proof.Machine
end

