-- ==== Sys2Proof/Machine/Rake.lean ====
section
/-! DEFINITION. The Rake: commands, the DAG and group tables, projected and effective errors, the cut and its outputs
(R178, R346 to R360). -/

namespace Sys2Proof.Machine

/-! ### The command record (R352, R353) -/

/-- A command record, field by field (R352). -/
structure RakeRec where
  cbase : Nat
  dag : Nat
  gbase : Nat
  ncl : Nat
  ngrp : Nat
  eye : List Nat
  kfact : Nat
  tau : Nat
  dnear : Nat
  pagein : Bool
  list : Nat
  listCap : Nat
  missCap : Nat
  bitmap : Nat
  miss : Nat
  scratch : Nat
  done : Nat
  bad : Bool
  deriving DecidableEq, Repr

/-- A finite f32 code above +0, or at least +0. -/
def f32Above (x : Nat) : Bool := decide (0 < x) && decide (x < posInf)
def f32AtLeast (x : Nat) : Bool := decide (x < posInf)

def rakeOf (bs : List Byte) : RakeRec :=
  let w (o : Nat) : Nat := getN bs o 8
  let fl := getN bs 68 1
  { cbase := w 0, dag := w 8, gbase := w 16, ncl := getN bs 24 4, ngrp := getN bs 28 4, eye := [w 32, w 40, w 48],
    kfact := getN bs 56 4, tau := getN bs 60 4, dnear := getN bs 64 4, pagein := decide (fl % 2 = 1), list := w 72,
    listCap := getN bs 80 4, missCap := getN bs 84 4, bitmap := w 88, miss := w 96, scratch := w 104, done := w 112,
    bad := decide (2 ≤ fl) || !zeroAt bs 69 3 || !zeroAt bs 120 8 ||
      decide (getN bs 24 4 = 0) || decide (2 ^ 25 < getN bs 24 4) || decide (getN bs 28 4 = 0) || decide (2 ^ 25 ≤ getN bs 28 4) ||
      !f32Above (getN bs 56 4) || !f32AtLeast (getN bs 60 4) || !f32Above (getN bs 64 4) ||
      ([(0, 4096), (8, 8), (16, 32), (72, 4), (88, 64), (96, 4), (104, 8), (112, 8)].any fun (x : Nat × Nat) =>
        decide (w x.1 % x.2 ≠ 0) || decide (2 ^ 55 ≤ w x.1)) }

/-! ### The tables (R349 to R351) -/

/-- An entry of the DAG table: SRC and PGROUP, none for "none" (R349). -/
structure DagEntry where
  src : Option Nat
  grp : Option Nat
  deriving DecidableEq, Repr

def groupNum (x : Nat) : Option Nat := if x = 0x1FFFFFF then none else some x
def dagEntry (w : Nat) : DagEntry := { src := groupNum (w % 2 ^ 25), grp := groupNum (w / 2 ^ 32 % 2 ^ 25) }

/-- PGROUP with "none" above every group; SRC below PGROUP with "none" below every group (R349). -/
def DagEntry.order (e : DagEntry) : Nat := e.grp.getD (2 ^ 25)
def DagEntry.rises (e : DagEntry) : Bool := (e.src.map fun x => decide (x < e.order)).getD true
def DagEntry.inRange (n : Nat) (e : DagEntry) : Bool :=
  (e.src.map fun x => decide (x < n)).getD true && (e.grp.map fun x => decide (x < n)).getD true

/-- The first failing check of the table: DETAIL and the offending cluster (R353). -/
def dagFault (ngrp : Nat) (ws : List Nat) : Option (Nat × Nat) :=
  let es := ws.map dagEntry
  let first (d : Nat) (i : Option Nat) : Option (Nat × Nat) := i.map fun i => (d, i)
  ((first 1 (ws.findIdx? fun w => decide (w / 2 ^ 25 % 2 ^ 7 ≠ 0) || decide (2 ^ 57 ≤ w))).orElse fun _ =>
    first 2 (((es.zip (es.drop 1)).findIdx? fun p => decide (p.2.order < p.1.order)).map (· + 1))).orElse fun _ =>
      (first 3 (es.findIdx? fun e => !e.rises)).orElse fun _ => first 4 (es.findIdx? fun e => !e.inRange ngrp)

/-- f64 operations of the Rake (R351). -/
def dAdd (a b : Nat) : Nat := (fmtF64.add {} (fmtF64.value a) (fmtF64.value b)).code
def dSub (a b : Nat) : Nat := (fmtF64.add {} (fmtF64.value a) (fmtF64.value b).flip).code
def dMul (a b : Nat) : Nat := (fmtF64.mul {} (fmtF64.value a) (fmtF64.value b)).code
/-- An f32 code as the f64 code of its value. -/
def toD (x : Nat) : Nat := (fmtF64.deliver {} (fmtF32.value x)).code

/-- A value that is negative and not zero. -/
def FVal.below0 (v : FVal) : Bool := v.neg && !v.isZero

/-- num / den rounded once to f32; none where it is no number. -/
def quotF32 (num den : FVal) : Option Nat :=
  match num, den with
  | .nan _, _ => none
  | _, .nan _ => none
  | .inf _, .inf _ => none
  | .inf _, .num _ _ _ => some posInf
  | .num _ _ _, .inf _ => some 0
  | .num n m e, .num _ p f =>
    if p = 0 then none
    else
      let q := quot m p
      some (fmtF32.round {} n q.1 (e - f - 120) q.2).code

/-- A value that makes a projected error +∞: NaN, or negative and not zero (R351). -/
def FVal.unfit (v : FVal) : Bool := v.isNan || v.below0

/-- The projected error of a group record, and whether it counts as a violation on its own (R350, R351). Each `Round` is an
intermediate result, a difference of coordinates too (DEDUCED, log 50). -/
def projected (r : RakeRec) (g : List Byte) : Nat × Bool :=
  let d := (List.range 3).map fun i => dSub (getN g (8 * i) 8) (r.eye[i]?.getD 0)
  let sq (i : Nat) : Nat := let x := d[i]?.getD 0; dMul x x
  let dist := (fmtF64.sqrt {} (dAdd (dAdd (sq 0) (sq 1)) (sq 2))).code
  let radius := getN g 24 4
  let err := fmtF32.value (getN g 28 4)
  let near := dSub dist (toD radius)
  let m := if (fmtF64.value near).below false (fmtF32.value r.dnear) then fmtF32.value r.dnear else fmtF64.value near
  if err.unfit || (fmtF32.value radius).unfit || (near :: d).any (fun x => (fmtF64.value x).unfit) then (posInf, true)
  else
    match (mulVal err (fmtF32.value r.kfact)).bind fun p => quotF32 p m with
    | some x => (x, false)
    | none => (posInf, true)

/-! ### Errors and the cut (R354 to R356) -/

/-- f32 codes that are not negative, by value; −0 counts as +0. -/
def f32Key (x : Nat) : Nat := if x = 0x80000000 then 0 else x
def f32Max (a b : Nat) : Nat := if f32Key a < f32Key b then b else if f32Key a = 0 then f32Key b else a
def f32Min (a b : Nat) : Nat := if f32Key b < f32Key a then b else a

/-- E of every group, from P of every group (R354). -/
def errorsE (es : List DagEntry) (p : List Nat) : List Nat :=
  es.foldl (fun (t : List Nat) c =>
    match c.grp with
    | none => t
    | some g => t.set g (f32Max (t[g]?.getD 0) ((c.src.map fun x => t[x]?.getD 0).getD 0))) p

/-- Violations: groups with E ≠ P, and groups whose error is no number (R351, R354). -/
def violations (p : List (Nat × Bool)) (e : List Nat) : Nat :=
  ((p.zip e).filter fun x => x.1.2 || decide (f32Key x.1.1 ≠ f32Key x.2)).length

/-- F at a cluster's PGROUP, and at its SRC (R355). -/
def fAbove (f : List Nat) (c : DagEntry) : Nat := (c.grp.map fun g => f[g]?.getD 0).getD posInf
def fBelow (f : List Nat) (c : DagEntry) : Nat := (c.src.map fun g => f[g]?.getD 0).getD 0

/-- F of every group with the groups of `c` collapsed (R355). -/
def errorsF (es : List DagEntry) (e : List Nat) (c : List Nat) : List Nat :=
  es.reverse.foldl (fun (t : List Nat) p =>
    match p.src with
    | none => t
    | some s => t.set s (f32Min (t[s]?.getD 0) (fAbove t p))) (e.zipIdx.map fun x => if c.contains x.2 then 0 else x.1)

/-- The clusters in the cut (R355). -/
def cutOf (es : List DagEntry) (f : List Nat) (tau : Nat) : List Nat :=
  (es.zipIdx.filter fun c => decide (f32Key (fBelow f c.1) ≤ tau) && decide (tau < f32Key (fAbove f c.1))).map Prod.snd

/-- Whether a cluster's page is resident, without fault, request or heat (R157, R356). -/
def State.clusterHere (s : State) (pasid va : Nat) : Bool :=
  match s.walkNow pasid va with
  | .leaf pte _ _ => pteRes pte && pteR pte
  | _ => false

/-- The clusters of a list probed for the first time; none while a replay waits for a recorded answer (R356, R359). -/
def State.probeAll (s : State) (c : RakeCmd) : List Nat → List (Nat × Bool) → Option (List (Nat × Bool)) × List (Nat × Bool) × State
  | [], known => (some known, known, s)
  | k :: rest, known =>
    if known.any fun p => decide (p.1 = k) then s.probeAll c rest known
    else
      let va := (rakeOf c.cmd).cbase + 2048 * k
      match s.brineAnswer c.launch 4 (BitVec.ofNat 64 va) (if s.clusterHere c.pasid va then 1 else 0) with
      | some (a, s) => s.probeAll c rest (known ++ [(k, decide (a ≠ 0))])
      | none => (none, known, s)

/-- A cluster found non-resident. -/
def absent (known : List (Nat × Bool)) (k : Nat) : Bool := known.contains (k, false)

/-- The collapse (R356): the probes, the collapsed groups, F and the cut; none while a replay waits. -/
def State.collapse (s : State) (c : RakeCmd) (es : List DagEntry) (e : List Nat) :
    Nat → List Nat → List (Nat × Bool) → Option (List Nat × List Nat × List Nat) × List (Nat × Bool) × State
  | 0, _, known => (none, known, s)
  | n + 1, coll, known =>
    let f := errorsF es e coll
    let cut := cutOf es f (rakeOf c.cmd).tau
    match s.probeAll c cut known with
    | (none, known, s) => (none, known, s)
    | (some known, _, s) =>
      let more := (cut.filterMap fun k => if absent known k then (es[k]?).bind DagEntry.grp else none).filter fun g =>
        !coll.contains g
      if more = [] then (some (coll, f, cut), known, s) else s.collapse c es e n (coll ++ more.dedup) known

/-! ### Kick, command, completion -/

/-- Commands a Rake holds, in order (R352). -/
def State.rakeQueue (s : State) (die : Nat) : List RakeCmd := (s.rakes.filter fun r => decide (r.1 = die)).map Prod.snd
def State.modRake (s : State) (id : Nat) (f : RakeCmd → RakeCmd) : State :=
  { s with rakes := s.rakes.map fun r => if r.2.id = id then (r.1, f r.2) else r }
def State.rake? (s : State) (id : Nat) : Option (Nat × RakeCmd) := s.rakes.find? fun r => decide (r.2.id = id)

/-- A kick of the die's Rake (R178, R352). -/
def execEkickRake (a : Fin 32) (s : State) : Result :=
  s.recordRead a fun off =>
    let die := dieOf s.cur.core
    if 4 ≤ (s.rakeQueue die).length then s.stall .other
    else s.afterRelease <|
      let (id, s) := s.newId
      let r : RakeCmd :=
        { id := id, core := s.cur.core, ctx := s.cur.ctx, launch := s.here.launch, pasid := s.pasidOf s.cur.core,
          cmd := memBytes s.mem (s.hereKey off) 128 }
      { s with rakes := s.rakes ++ [(die, r)] }.post .rakeCommand { id := id }

/-- A completion of KIND 9 (R165, R358). -/
def RakeCmd.completion (c : RakeCmd) (status : Cause) (cut nmiss mono flags detail : Nat) : List Byte :=
  natBytes 9 1 ++ natBytes status.toNat 1 ++ natBytes 0 1 ++ natBytes c.ctx.val 1 ++ natBytes cut 4 ++ natBytes nmiss 4 ++
  natBytes (min 0xFFFF mono) 2 ++ natBytes flags 1 ++ natBytes detail 1
def RakeCmd.failure (c : RakeCmd) (status : Cause) (cluster : Option Nat) (detail : Nat) : List Byte :=
  c.completion status (cluster.getD 0xFFFFFFFF) 0 0 0 detail

/-- The bytes of the outputs of R357, by address, without DONE. -/
def rakeOutputs (r : RakeRec) (e f cut : List Nat) (known : List (Nat × Bool)) : List (Nat × List Byte) :=
  let here := cut.filter fun k => !absent known k
  let missed := ((known.filter fun p => !p.2).map Prod.fst).mergeSort (· ≤ ·)
  let bits (b : Nat) : Nat := ((List.range 8).filter fun i => here.contains (8 * b + i)).foldl (fun t i => t + 2 ^ i) 0
  [(r.list, (cut.take r.listCap).flatMap fun k => natBytes (k + if absent known k then 2 ^ 31 else 0) 4),
   (r.bitmap, (List.range (64 * ((r.ncl + 511) / 512))).map fun b => BitVec.ofNat 8 (bits b)),
   (r.miss, (missed.take r.missCap).flatMap fun k => natBytes k 4),
   (r.scratch, (f.zip e).flatMap fun x => natBytes x.1 4 ++ natBytes x.2 4)]

/-- The command has come to its result: what will be written, and the completion (R357, R358). -/
def State.rakeResult (s : State) (c : RakeCmd) (outs : List (Nat × List Byte)) (bytes : List Byte) : State :=
  (s.modRake c.id fun c => { c with result := some (outs, bytes) }).post .rakeCompletion { id := c.id }

/-- Granules of missing clusters requested without anything parking (R356). -/
def State.askPages (s : State) (pasid : Nat) (vas : List Nat) : State :=
  vas.foldl (fun (s : State) va =>
    let g := granuleOf va
    if s.hostRegs.priStopped ∨ s.requested pasid g then s else s.newGroup pasid g false []) s

/-- The passes over tables that have been read (R354 to R357). -/
def State.rakePasses (s : State) (c : RakeCmd) (es : List DagEntry) (groups : List (List Byte)) : State :=
  let r := rakeOf c.cmd
  let p := groups.map (projected r)
  let e := errorsE es (p.map Prod.fst)
  match s.collapse c es e (r.ngrp + 1) [] c.probes with
  | (none, known, s) => (s.modRake c.id fun c => { c with probes := known }).post .rakeCommand { id := c.id }
  | (some (coll, f, cut), known, s) =>
    let missed := (known.filter fun x => !x.2).map Prod.fst
    let s := s.modRake c.id fun c => { c with probes := known }
    let s := if r.pagein then s.askPages c.pasid (missed.map fun k => r.cbase + 2048 * k) else s
    let hole := cut.any (absent known)
    let trunc := decide (r.listCap < cut.length) || decide (r.missCap < missed.length)
    s.rakeResult c (rakeOutputs r e f cut known)
      (c.completion 0 cut.length missed.length (violations p e)
        ((if coll = [] then 0 else 1) + (if hole then 2 else 0) + if trunc then 4 else 0) 0)

/-- The places of every output. -/
def State.outPlaces (s : State) (a : Asker) : List (Nat × List Byte) → Places × State
  | [] => (.at_ [], s)
  | (va, bs) :: rest =>
    match s.placesOf a true (if bs = [] then [] else granuleParts va bs.length) with
    | (.at_ l, s) =>
      match s.outPlaces a rest with
      | (.at_ m, s) => (.at_ (l ++ m), s)
      | x => x
    | x => x

/-- The first failing check of a DAG table of which some sectors are poisoned: the entries of the others are checked
(R353; DEDUCED, log 50). -/
def dagFaultClean (ngrp : Nat) (ws : List Nat) (bad : Nat → Bool) : Option (Nat × Nat) :=
  let clean := (List.range ws.length).filter fun i => !bad i
  (dagFault ngrp (clean.map fun i => (ws[i]?).getD 0)).map fun f => (f.1, (clean[f.2]?).getD 0)

/-- The outputs whose size the record alone gives: BITMAP, SCRATCH and DONE (R357). -/
def RakeRec.fixedOuts (r : RakeRec) : List (Nat × List Byte) :=
  [(r.bitmap, List.replicate (64 * ((r.ncl + 511) / 512)) 0), (r.scratch, List.replicate (8 * r.ngrp) 0),
   (r.done, if r.done = 0 then [] else List.replicate 8 0)]

/-- A table has a poisoned sector: the pages of the outputs come before it in the order of the checks (R353; DEDUCED, log 50). -/
def State.rakePoisoned (s : State) (a : Asker) (c : RakeCmd) : State :=
  match s.outPlaces a (rakeOf c.cmd).fixedOuts with
  | (.wait, s) => s
  | (.fail x _, s) => s.rakeResult c [] (c.failure x none 0)
  | (.at_ _, s) => s.rakeResult c [] (c.failure Cause.poison none 0)

/-- The Rake takes its oldest command, checks it and runs the passes (R353 to R356). -/
def execRakeCommand (s : State) : Result :=
  .next <|
    match s.rake? s.ev.id with
    | none => s
    | some (die, c) =>
      if c.result.isSome then s
      else if ((s.rakeQueue die).head?.map RakeCmd.id) ≠ some c.id then s.post .rakeCommand s.ev
      else
        let r := rakeOf c.cmd
        let a : Asker := { req := c.id, task := { op := .rakeCommand, arg := s.ev, lane := 0 }, launch := 0, pasid := c.pasid }
        let fails (s : State) (x : Cause) : State := s.rakeResult c [] (c.failure x none 0)
        if r.bad then s.rakeResult c [] (c.failure Cause.illop none 1)
        else
          match s.engineRead a r.dag (8 * r.ncl) with
          | (.wait, s) => s
          | (.fail x _, s) => fails s x
          | (.data bs bad, s) =>
            let ws := (List.range r.ncl).map fun i => getN bs (8 * i) 8
            let found := if bad then dagFaultClean r.ngrp ws fun i =>
                match (s.placesOf a false (granuleParts (r.dag + 8 * i) 8)).1 with
                | .at_ l => l.any fun p => s.poisoned p.1
                | _ => false
              else dagFault r.ngrp ws
            match found with
            | some (d, k) => s.rakeResult c [] (c.failure Cause.illop (some k) d)
            | none =>
              match s.engineRead a r.gbase (32 * r.ngrp) with
              | (.wait, s) => s
              | (.fail x _, s) => fails s x
              | (.data gs gbad, s) =>
                  if bad || gbad then s.rakePoisoned a c
                  else s.rakePasses c (ws.map dagEntry) ((List.range r.ngrp).map fun g => (gs.drop (32 * g)).take 32)

/-- The Rake is free for its next command. -/
def State.rakeNext (s : State) (c : RakeCmd) (bytes : List Byte) : State :=
  { s with rakes := s.rakes.filter fun r => decide (r.2.id ≠ c.id) }.complete c.launch c.core bytes

/-- The outputs are written once every page of them is there, DONE goes up by one, and the completion is posted (R357,
R358). A command that failed writes nothing. -/
def execRakeCompletion (s : State) : Result :=
  .next <|
    match s.rake? s.ev.id with
    | none => s
    | some (_, c) =>
      match c.result with
      | none => s
      | some (outs, bytes) =>
        let r := rakeOf c.cmd
        let a : Asker :=
          { req := c.id, task := { op := .rakeCompletion, arg := s.ev, lane := 0 }, launch := 0, pasid := c.pasid }
        if outs = [] then s.rakeNext c bytes
        else
          match s.outPlaces a outs with
          | (.wait, s) => s
          | (.fail x _, s) => s.rakeNext c (c.failure x none 0)
          | (.at_ l, s) =>
            let data := outs.flatMap Prod.snd
            if r.done = 0 then (s.putPlaces l data).rakeNext c bytes
            else
              match s.need c.id a.task 0 c.pasid r.done true with
              | (.at_ pa, s) =>
                let s := s.putPlaces l data
                (s.storeNat pa 8 (s.loadNat pa 8 + 1)).rakeNext c bytes
              | (.fail x, s) => s.rakeNext c (c.failure x none 0)
              | (_, s) => s

end Sys2Proof.Machine
end

