-- ==== Sys2Proof/Machine/Chameleon.lean ====
section
/-! DEFINITION. The Chameleon: layouts, the plan of chunks, windows, the cursor, and how a command ends (R392 to
R401). -/

namespace Sys2Proof.Machine

/-! ### Layouts (R394, R395) -/

/-- Bytes of an element of a type code; none for a rejected code (R44, R394). -/
def typeBytes (ty : Nat) : Option Nat := ([1, 2, 4, 8, 1, 2, 4, 8, 8, 4, 2, 2, 1, 1, 0, 1, 2][ty]?).filter fun n => decide (n ≠ 0)

/-- A dimension of a record: what it says, and whether it is well formed. -/
def dimAt (bs : List Byte) (d : Nat) : Dim × Bool :=
  let o := 16 + 16 * d
  let map := getN bs (o + 6) 1
  let blk := getN bs (o + 8) 4
  let e := getN bs o 4
  let g := getN bs (o + 4) 2
  ({ extent := e, grid := g, cyclic := if map = 1 then some blk else none },
   decide (e ≠ 0) && decide (g ≠ 0) && decide (map ≤ 1) && decide (map = 1 ↔ blk ≠ 0) && zeroAt bs (o + 7) 1 &&
     zeroAt bs (o + 12) 4)

/-- A record: NDIM, TYPE and the dimensions, and whether it is well formed (R394). -/
def layoutOf (bs : List Byte) : Layout × Bool :=
  let n := getN bs 0 1
  let ds := (List.range (min n 6)).map (dimAt bs)
  ({ ty := getN bs 1 1, dims := ds.map Prod.fst },
   decide (1 ≤ n) && decide (n ≤ 6) && (typeBytes (getN bs 1 1)).isSome && zeroAt bs 2 6 && ds.all Prod.snd &&
     ((List.range 6).all fun d => decide (d < n) || zeroAt bs (16 + 16 * d) 16) && zeroAt bs 112 16 &&
     decide (getN bs 8 8 % 16 = 0) && decide (getN bs 8 8 < 2 ^ 55) &&
     decide (((ds.map Prod.fst).map Dim.grid).prod ≤ 65536))

/-- Local extent of a dimension (R395). -/
def Dim.block (d : Dim) : Nat := (d.extent + d.grid - 1) / d.grid
def Dim.local_ (d : Dim) : Nat :=
  match d.cyclic with
  | none => d.block
  | some b => (d.extent + b * d.grid - 1) / (b * d.grid) * b

/-- Grid coordinate and local index of an element index (R395). -/
def Dim.place (d : Dim) (i : Nat) : Nat × Nat :=
  match d.cyclic with
  | none => (i / d.block, i % d.block)
  | some b => (i / b % d.grid, i / (b * d.grid) * b + i % b)

/-- The element index at a grid coordinate and local index; none for padding (R395). -/
def Dim.index (d : Dim) (g l : Nat) : Option Nat :=
  let i := match d.cyclic with
    | none => g * d.block + l
    | some b => (l / b * d.grid + g) * b + l % b
  if i < d.extent then some i else none

def Layout.bytes (y : Layout) : Nat := (typeBytes y.ty).getD 1
def Layout.devices (y : Layout) : Nat := (y.dims.map Dim.grid).prod
/-- Elements of a shard, padding among them. -/
def Layout.shardSize (y : Layout) : Nat := (y.dims.map Dim.local_).prod

/-- Row-major index of coordinates, the last fastest; and coordinates of an index. -/
def rank : List (Nat × Nat) → Nat
  | [] => 0
  | (x, _) :: rest => x * (rest.map Prod.snd).prod + rank rest
def unrank : List Nat → Nat → List Nat
  | [], _ => []
  | _ :: rest, k => k / rest.prod :: unrank rest (k % rest.prod)

/-- Device and local offset of an element (R395). -/
def Layout.place (y : Layout) (i : List Nat) : Nat × Nat :=
  let ps := y.dims.zipWith Dim.place i
  (rank (ps.zipWith (fun p (d : Dim) => (p.1, d.grid)) y.dims), rank (ps.zipWith (fun p (d : Dim) => (p.2, d.local_)) y.dims))

/-- The element at a local offset of a device; none for padding (R395). -/
def Layout.element (y : Layout) (dev off : Nat) : Option (List Nat) :=
  let g := unrank (y.dims.map Dim.grid) dev
  let l := unrank (y.dims.map Dim.local_) off
  ((y.dims.zip (g.zip l)).mapM fun x => x.1.index x.2.1 x.2.2)

def Layout.base (y : Layout) (dev : Nat) : Word × Option Nat := (y.shards[dev]?).getD (0, none)

/-! ### The plan (R397) -/

/-- A chunk: where it goes, where it comes from, in elements of a shard. -/
structure Chunk where
  dshard : Nat
  doff : Nat
  sshard : Nat
  soff : Nat
  n : Nat
  deriving DecidableEq, Repr

/-- Address of a local offset of a shard. -/
def Layout.addr (y : Layout) (dev off : Nat) : Word := (y.base dev).1 + BitVec.ofNat 64 (y.bytes * off)

/-- An element joins the chunk before it: consecutive at both ends, and in the 4 KiB blocks of its first element. -/
def Chunk.takes (src dst : Layout) (c : Chunk) (e : Chunk) : Bool :=
  decide (c.dshard = e.dshard) && decide (c.sshard = e.sshard) && decide (e.doff = c.doff + c.n) && decide (e.soff = c.soff + c.n) &&
  decide ((dst.addr c.dshard c.doff) >>> 12 = (dst.addr e.dshard e.doff) >>> 12) &&
  decide ((src.addr c.sshard c.soff) >>> 12 = (src.addr e.sshard e.soff) >>> 12)

/-- The elements of a destination shard in local order, each as a chunk of its own. -/
def elementsOf (src dst : Layout) (dev : Nat) : List Chunk :=
  (List.range dst.shardSize).filterMap fun o => (dst.element dev o).map fun i =>
    let p := src.place i
    { dshard := dev, doff := o, sshard := p.1, soff := p.2, n := 1 }

/-- Elements joined to chunks: the chunk being made, and the elements still to come. -/
def joinChunks (src dst : Layout) (c : Chunk) : List Chunk → List Chunk
  | [] => [c]
  | e :: rest => if c.takes src dst e then joinChunks src dst { c with n := c.n + 1 } rest else c :: joinChunks src dst e rest

/-- The chunks in canonical order (R397). -/
def planOf (src dst : Layout) : List Chunk :=
  (List.range dst.devices).flatMap fun dev =>
    match elementsOf src dst dev with
    | [] => []
    | e :: rest => joinChunks src dst e rest

/-! ### The queue and the kick (R178, R392) -/

/-- Commands a Chameleon holds, in order; 0 is the west one (R392). -/
def State.chamQueue (s : State) (side : Nat) : List ChamCmd := (s.chams.filter fun c => decide (c.1 = side)).map Prod.snd
def State.cham? (s : State) (id : Nat) : Option (Nat × ChamCmd) := s.chams.find? fun c => decide (c.2.id = id)
def State.modCham (s : State) (id : Nat) (f : ChamCmd → ChamCmd) : State :=
  { s with chams := s.chams.map fun c => if c.2.id = id then (c.1, f c.2) else c }

/-- A kick of the Chameleon on the issuer's side (R178, R392). -/
def execEkickCham (a : Fin 32) (s : State) : Result :=
  s.recordRead a fun off =>
    let side := s.cur.core % 256 / 128
    if 8 ≤ (s.chamQueue side).length then s.stall .other
    else s.afterRelease <|
      let (id, s) := s.newId
      let c : ChamCmd :=
        { id := id, core := s.cur.core, ctx := s.cur.ctx, launch := s.here.launch, pasid := s.pasidOf s.cur.core,
          cmd := memBytes s.mem (s.hereKey off) 128 }
      { s with chams := s.chams ++ [(side, c)] }.post .chameleonCommand { id := id }

/-! ### The command record and the checks (R393, R396) -/

def ChamCmd.at_ (c : ChamCmd) (o : Nat) : Nat := getN c.cmd o 8
def ChamCmd.resume (c : ChamCmd) : Bool := decide (getN c.cmd 32 1 % 2 = 1)
def ChamCmd.bad (c : ChamCmd) : Bool :=
  decide (2 ≤ getN c.cmd 32 1) || !zeroAt c.cmd 33 95 ||
  ([(0, 128), (8, 128), (16, 32), (24, 8)].any fun (x : Nat × Nat) => decide (c.at_ x.1 % x.2 ≠ 0) || decide (2 ^ 55 ≤ c.at_ x.1))

/-- An entry of a shard table: base, owning package, whether it is well formed (R394). -/
def shardOf (bs : List Byte) : (Word × Option Nat) × Bool :=
  let pkg := getN bs 8 2
  ((getWord bs 0, if pkg = 0x3FF then none else some (pkg % 1024)),
   decide (pkg < 2048) && zeroAt bs 10 6 && (!bitOf (getWord bs 0) 55 || winForm (getWord bs 0)))

/-- The shard size in bytes is out of range; a window shard passes the end of ULM, or its entry names a package (R396). -/
def Layout.shardBytes (y : Layout) : Nat := y.bytes * y.shardSize
def Layout.windowBad (y : Layout) : Bool :=
  y.shards.any fun x => bitOf x.1 55 && (x.2.isSome || decide (0x20000 < winOff x.1 + y.shardBytes))

/-- What reading a layout gave: the record, where its bytes came; with its shards, where the table came too (`full`); a
malformed one; an end by PAGEINV; an end by poison, or a poisoned sector. -/
structure LayoutRead where
  y : Option Layout := none
  full : Bool := false
  ill : Bool := false
  inv : Bool := false
  bad : Bool := false
  deriving DecidableEq, Repr

/-- A read that failed by a cause. -/
def LayoutRead.failed (r : LayoutRead) (c : Cause) : LayoutRead :=
  if c = Cause.pageinv then { r with inv := true } else { r with bad := true }

/-- A layout record and its shard table read; none while a page is waited for (R394, R396). -/
def State.readLayout (s : State) (a : Asker) (va : Nat) : Option LayoutRead × State :=
  match s.engineRead a va 128 with
  | (.wait, s) => (none, s)
  | (.fail c _, s) => (some (LayoutRead.failed {} c), s)
  | (.data bs bad, s) =>
    let (y, ok) := layoutOf bs
    let r : LayoutRead := { y := some y, bad := bad }
    if !ok ∨ 2 ^ 48 ≤ y.shardBytes then (some { r with ill := true }, s)
    else
      match s.engineRead a (getN bs 8 8) (16 * y.devices) with
      | (.wait, s) => (none, s)
      | (.fail c _, s) => (some (r.failed c), s)
      | (.data ts tbad, s) =>
        let es := (List.range y.devices).map fun i => shardOf ((ts.drop (16 * i)).take 16)
        (some { r with y := some { y with shards := es.map Prod.fst }, full := true, ill := !es.all Prod.snd, bad := bad || tbad }, s)

/-! ### The cursor (R399) -/

def cursorBytes (dshard state off chunks : Nat) : List Byte :=
  natBytes dshard 4 ++ natBytes state 1 ++ natBytes 0 3 ++ natBytes off 8 ++ natBytes chunks 8 ++ natBytes 0 8

/-- The cursor that covers `k` chunks (R398, R399). -/
def ChamCmd.cursorAt (c : ChamCmd) (state k : Nat) : List Byte :=
  match (planOf c.src c.dst)[k]? with
  | some x => cursorBytes x.dshard state (c.dst.bytes * x.doff) k
  | none => cursorBytes c.dst.devices state 0 (planOf c.src c.dst).length

/-- The chunk that a cursor names; none for one that names none (R396). -/
def ChamCmd.cursorChunk (c : ChamCmd) (bs : List Byte) : Option Nat :=
  let p := planOf c.src c.dst
  if !zeroAt bs 5 3 || !zeroAt bs 24 8 || decide (3 < getN bs 4 1) then none
  else if getN bs 0 4 = c.dst.devices ∧ getN bs 8 8 = 0 then some p.length
  else p.findIdx? fun x => decide (x.dshard = getN bs 0 4) && decide (c.dst.bytes * x.doff = getN bs 8 8)

/-- What a cursor alone shows to be wrong, and what it shows against the destination's record (R396). -/
def cursorIll (bs : List Byte) (dst : Option Layout) : Bool :=
  !zeroAt bs 5 3 || !zeroAt bs 24 8 || decide (3 < getN bs 4 1) || (dst.map fun y => decide (y.devices < getN bs 0 4)).getD false

/-- The first check of R396 that fails, with its DETAIL: over what was read of both layouts and of the cursor of a RESUME. -/
def ChamCmd.firstFail (c : ChamCmd) (src dst cur : LayoutRead) (bs : List Byte) : Option (Cause × Nat) :=
  let whole := src.full && dst.full
  let differ := match src.y, dst.y with
    | some x, some y => decide (x.ty ≠ y.ty) || decide (x.dims.map Dim.extent ≠ y.dims.map Dim.extent)
    | _, _ => false
  let window (r : LayoutRead) : Bool := r.full && (r.y.map Layout.windowBad).getD false
  let named := { c with src := src.y.getD {}, dst := dst.y.getD {} }.cursorChunk bs
  if c.bad || src.ill || dst.ill then some (Cause.illop, 1)
  else if differ then some (Cause.illop, 2)
  else if window src || window dst then some (Cause.illop, 3)
  else if c.resume && cur.full && (cursorIll bs dst.y || (whole && named.isNone)) then some (Cause.illop, 4)
  else if src.inv || dst.inv || cur.inv then some (Cause.pageinv, 0)
  else if src.bad || dst.bad || cur.bad then some (Cause.poison, 0)
  else none

/-- The cursor of a RESUME as read; without RESUME nothing is read, but its place is translated, for the cursor is written there
(R396, R398). -/
def State.readCursor (s : State) (a : Asker) (c : ChamCmd) : Option (LayoutRead × List Byte) × State :=
  if c.resume then
    match s.engineRead a (c.at_ 16) 32 with
    | (.wait, s) => (none, s)
    | (.fail x _, s) => (some (LayoutRead.failed {} x, []), s)
    | (.data bs bad, s) => (some ({ full := true, bad := bad }, bs), s)
  else
    match s.placesOf a true (granuleParts (c.at_ 16) 32) with
    | (.wait, s) => (none, s)
    | (.fail x _, s) => (some (LayoutRead.failed {} x, []), s)
    | (.at_ _, s) => (some ({}, []), s)

/-- A completion of KIND 10 (R165, R400). -/
def ChamCmd.completion (c : ChamCmd) : List Byte :=
  natBytes 10 1 ++ natBytes c.status.toNat 1 ++ natBytes 0 1 ++ natBytes c.ctx.val 1 ++ natBytes (getN c.cursor 0 4) 4 ++
  natBytes (getN c.cursor 8 6) 6 ++ natBytes (getN c.cursor 4 1) 1 ++ natBytes c.detail 1

/-- The command is over, and the next one of its Chameleon follows; of an ended launch it posts nothing (R400, R401). -/
def State.chamDone (s : State) (c : ChamCmd) : State :=
  let s : State := { s with chams := s.chams.filter fun x => decide (x.2.id ≠ c.id) }
  if c.stop then s else s.complete c.launch c.core c.completion

/-! ### Running (R396, R398, R401) -/

/-- The issuing group is not saved: it is resident, or its launch is over (R401). -/
def State.chamHome (s : State) (c : ChamCmd) : Bool :=
  !(s.groups.any fun g => decide (g.2.launch = c.launch) && (decide (g.2.st = .swapped) || decide (g.2.st = .preempted)) &&
    g.2.cores.contains c.core)

/-- A chunk as a copy by the engine that owns its source: it is of no core, whose number lies past the last one's (R398). -/
def ChamCmd.copyOf (c : ChamCmd) (id k : Nat) (x : Chunk) : Copy :=
  { id := id, kind := .chunk, core := 2 ^ 16, ctx := 0, tag := 0, launch := c.launch, pasid := c.pasid,
    dst := c.dst.addr x.dshard x.doff, src := c.src.addr x.sshard x.soff, shape := BitVec.ofNat 64 (c.dst.bytes * x.n),
    lanes := [], nf := false, mb := false, pd := none, pdBits := 0, dstR := none, srcR := none, next := 0, started := false,
    status := 0, poisoned := 0, zeroed := 0, addr := none, park := [], parts := [],
    idx := [c.id, k, ((c.src.base x.sshard).2).getD 1024, ((c.dst.base x.dshard).2).getD 1024], marked := [], got := none,
    out := false, refused := none }

/-- The next window of 64 chunks is issued (R398). -/
def State.issueWindow (s : State) (c : ChamCmd) : State :=
  let w := ((planOf c.src c.dst).drop c.issued).take 64
  let s := w.zipIdx.foldl (fun (s : State) x =>
    let (id, s) := s.newId
    { s with copies := s.copies ++ [c.copyOf id (c.issued + x.2) x.1] }.post .copyRequestReceipt { id := id }) s
  (s.modCham c.id fun y => { y with
    issued := c.issued + w.length, open_ := c.open_ ++ (List.range w.length).map fun i => c.issued + i }).post
      .chameleonCommand { id := c.id }

/-- What is to be done next: a window, a wait for acknowledgements, or the end. -/
def State.chamStep (s : State) (c : ChamCmd) : State :=
  if c.failed ≠ [] ∨ c.stop then if c.open_ = [] then s.post .chameleonEnd { id := c.id } else s
  else if c.issued = (planOf c.src c.dst).length then
    if c.acked = c.issued then s.post .chameleonEnd { id := c.id } else s
  else if c.due.isSome ∨ 256 ≤ c.issued - c.acked then s
  else if s.chamHome c then s.issueWindow c
  else s.post .chameleonCommand { id := c.id }

/-- A command that starts at a chunk (R398). -/
def State.chamStart (s : State) (c : ChamCmd) (k : Nat) (cursor : List Byte) : State :=
  (s.modCham c.id fun _ => { c with started := true, issued := k, acked := k, cursor := cursor }).post .chameleonCommand
    { id := c.id }

/-- The Chameleon takes its oldest command, checks it, and issues its plan window by window (R392 to R398). -/
def execChameleonCommand (s : State) : Result :=
  .next <|
    match s.cham? s.ev.id with
    | none => s
    | some (side, c) =>
      let a : Asker :=
        { req := c.id, task := { op := .chameleonCommand, arg := s.ev, lane := 0 }, launch := 0, pasid := c.pasid }
      let fails (s : State) (x : Cause) (d : Nat) : State := s.chamDone { c with status := x, detail := d, cursor := [] }
      if c.ending then s
      else if c.started then s.chamStep c
      else if ((s.chamQueue side).head?.map ChamCmd.id) ≠ some c.id then s.post .chameleonCommand s.ev
      else if c.bad then fails s Cause.illop 1
      else
        match s.readLayout a (c.at_ 0) with
        | (none, s) => s
        | (some src, s) =>
          match s.readLayout a (c.at_ 8) with
          | (none, s) => s
          | (some dst, s) =>
            match s.readCursor a c with
            | (none, s) => s
            | (some (cur, bs), s) =>
              match c.firstFail src dst cur bs with
              | some (x, d) => fails s x d
              | none =>
                let c := { c with src := src.y.getD {}, dst := dst.y.getD {} }
                if c.resume then
                  if getN bs 4 1 = 2 ∧ !c.stop then
                    (s.modCham c.id fun _ => { c with started := true, ending := true, cursor := bs }).post .chameleonEnd
                      { id := c.id }
                  else s.chamStart c ((c.cursorChunk bs).getD 0) bs
                else
                  let first := cursorBytes 0 1 0 0
                  match s.engineWrite a (c.at_ 16) first with
                  | (.wait, s) => s
                  | (.fail x _, s) => fails s x 0
                  | (.done, s) => s.chamStart c 0 first

/-! ### Acknowledgements (R398, R400) -/

/-- The oldest window is acknowledged: every chunk of it is over, and none failed. -/
def ChamCmd.windowDone (c : ChamCmd) : Bool :=
  let hi := min c.issued (c.acked + 64)
  decide (c.acked < hi) && (c.open_ ++ c.failed).all fun k => decide (k < c.acked) || decide (hi ≤ k)

/-- The windows that are acknowledged with every earlier one, covered; at most four are open (R398, R400). -/
def ChamCmd.covered : Nat → ChamCmd → ChamCmd
  | 0, c => c
  | n + 1, c => if c.windowDone then ChamCmd.covered n { c with acked := min c.issued (c.acked + 64) } else c

/-- The cursor in need of a write is written (R398, R401). -/
def State.chamCursor (s : State) (c : ChamCmd) (bs : List Byte) : State :=
  let a : Asker :=
    { req := c.id, task := { op := .chameleonWindowAck, arg := { id := c.id }, lane := 0 }, launch := 0, pasid := c.pasid }
  match s.engineWrite a (c.at_ 16) bs with
  | (.wait, s) => s
  | (.fail x _, s) =>
    (s.modCham c.id fun c => { c with due := none, failed := c.acked :: c.failed, status := topCause c.status x }).post
      .chameleonCommand { id := c.id }
  | (.done, s) => (s.modCham c.id fun c => { c with due := none, cursor := bs }).post .chameleonWindowAck { id := c.id }

/-- A chunk is over, and the cursor is written for each window that is acknowledged with every earlier one; the last
window is left to the end of the command (R398, R400). -/
def execChameleonWindowAck (s : State) : Result :=
  .next <|
    match s.cham? s.ev.id with
    | none => s
    | some (_, c) =>
      let bad := decide (s.ev.cause = Cause.fabric) || decide (s.ev.cause = Cause.pageinv)
      let c : ChamCmd := if s.ev.flag then
          { c with open_ := c.open_.erase s.ev.n, status := topCause c.status s.ev.cause
                   failed := if bad then s.ev.n :: c.failed else c.failed }
        else c
      let s := s.modCham c.id fun _ => c
      if c.ending then s
      else
        match c.due with
        | some bs => if s.ev.flag then s else s.chamCursor c bs
        | none =>
          if c.windowDone then
            let k := min c.issued (c.acked + 64)
            if k = (planOf c.src c.dst).length then (s.modCham c.id fun c => { c with acked := k }).post .chameleonCommand { id := c.id }
            else
              let bs := c.cursorAt 1 k
              let c := { c with acked := k, due := some bs }
              (s.modCham c.id fun _ => c).chamCursor c bs
          else s.post .chameleonCommand { id := c.id }

/-- The end of a command, when no window is open: the cursor with STATE 2 or 3, DONE, and the completion (R400,
R401). -/
def execChameleonEnd (s : State) : Result :=
  let task : Task := { op := .chameleonEnd, arg := s.ev, lane := 0 }
  .next <|
    match s.cham? s.ev.id with
    | none => s
    | some (_, c) =>
      if !c.started then s
      else if c.ending then
        if getN c.cursor 4 1 ≠ 2 ∨ c.at_ 24 = 0 then s.chamDone c
        else
          match s.need c.id task 0 c.pasid (c.at_ 24) true with
          | (.at_ pa, s) => (s.storeNat pa 8 (s.loadNat pa 8 + 1)).chamDone c
          | (.fail x, s) => s.chamDone { c with status := topCause c.status x }
          | (_, s) => s
      else if c.open_ ≠ [] then s
      else if !(c.stop || decide (c.failed ≠ []) || decide (c.acked = (planOf c.src c.dst).length)) then s
      else
        let state := if c.stop ∨ c.failed ≠ [] then 3 else 2
        let bs := c.cursorAt state (c.covered 4).acked
        match s.engineWrite { req := c.id, task := task, launch := 0, pasid := c.pasid } (c.at_ 16) bs with
        | (.wait, s) => s
        | (.fail x _, s) => s.chamDone { c with status := topCause c.status x }
        | (.done, s) => (s.modCham c.id fun c => { c with ending := true, cursor := bs }).post .chameleonEnd { id := c.id }

end Sys2Proof.Machine
end

