-- ==== Sys2Proof/Machine/Convert.lean ====
section
/-! DEFINITION. Conversions between formats: major 0x0B (R44, R69, R71, R74 to R76, R131, R132). -/

namespace Sys2Proof

open Sys2Proof.Machine

/-- The floating format of a type code (R44). -/
def TyCode.float? : TyCode → Option FloatFmt
  | .f64 => some fmtF64
  | .f32 => some fmtF32
  | .f16 => some fmtF16
  | .bf16 => some fmtBf16
  | .e4m3 => some fmtE4m3
  | .e5m2 => some fmtE5m2
  | .e2m1 => some fmtE2m1
  | _ => none

/-- The integer format of a type code: whether it is signed, and its bits (R44, R64). -/
def TyCode.int? : TyCode → Option (Bool × Nat)
  | .i8 => some (true, 8)
  | .i16 => some (true, 16)
  | .i32 => some (true, 32)
  | .i64 => some (true, 64)
  | .n8 => some (false, 8)
  | .n16 => some (false, 16)
  | .n32 => some (false, 32)
  | .n64 => some (false, 64)
  | _ => none

end Sys2Proof

namespace Sys2Proof.Machine

/-- A conversion: the n = 64 / max(ws, wd) low elements of each active lane, packed low in the destination lane, the
rest zero (R131). -/
def State.convert (s : State) (ws wd : Nat) (d a : Fin 32) (pr : Fin 8) (f : Nat → Nat → Nat → FRes) : Result :=
  s.vector pr [a] (s.floats wd d (s.active pr) fun l =>
    (List.range (64 / max ws wd)).map fun e => f l e (el ws e (lane l (s.v a))))

/-- A value converted to a floating format, special inputs included (R71). -/
def FloatFmt.convert (f : FloatFmt) (env : FloatEnv) (v : FVal) : FRes :=
  match v, f.top with
  | .nan sg, .finite => ⟨0, flagNV ||| flagIf sg flagNV⟩
  | .nan sg, _ => ⟨f.nanCode, flagIf sg flagNV⟩
  | .inf n, .finite => ⟨f.signed n f.maxCode, flagNV⟩
  | .inf n, .oneNan => ⟨if env.satf then f.signed n f.maxCode else f.nanCode, flagNV⟩
  | .inf n, .ieee =>
    if env.satf && !f.big then ⟨f.signed n f.maxCode, flagNV⟩ else ⟨f.signed n f.infCode, 0⟩
  | .num n m e, _ => f.round env n m e

/-- A value converted to an integer format (R74). -/
def toInteger (rm : RndMode) (signed : Bool) (w : Nat) (v : FVal) : FRes :=
  let lo : Int := if signed then -2 ^ (w - 1) else 0
  let hi : Int := if signed then 2 ^ (w - 1) - 1 else 2 ^ w - 1
  match v with
  | .nan _ => ⟨0, flagNV⟩
  | .inf n => ⟨ofSigned w (if n then lo else hi), flagNV⟩
  | .num n m e =>
    let r := roundAt rm n m e false 0
    let x : Int := (if n then -1 else 1) * (r.1 : Int)
    if x < lo then ⟨ofSigned w lo, flagNV⟩
    else if hi < x then ⟨ofSigned w hi, flagNV⟩
    else ⟨ofSigned w x, flagIf r.2 flagNX⟩

/-- An integer as an exact value. -/
def ofInteger (signed : Bool) (w x : Nat) : FVal :=
  let v : Int := if signed then toSigned w x else x
  .num (decide (v < 0)) v.natAbs 0

/-- A type code that the mnemonic does not take (R44). -/
def State.badType (s : State) : Result := .next (s.faultOpen Cause.illop)

/-- Float to float (R131). -/
def execCvtf (d a : Fin 32) (y : TyCode) (t : FFmt) (pr : Fin 8) (s : State) : Result :=
  match y.float? with
  | none => s.badType
  | some g => s.convert t.fmt.width g.width d a pr fun _ _ x => g.convert s.env (t.fmt.read s.env.ftz x)

/-- Float to integer (R74, R131). -/
def execCvtfi (d a : Fin 32) (y : TyCode) (t : FFmt) (pr : Fin 8) (s : State) : Result :=
  match y.int? with
  | none => s.badType
  | some (sg, w) => s.convert t.fmt.width w d a pr fun _ _ x => toInteger s.env.rm sg w (t.fmt.read s.env.ftz x)

/-- Integer to float (R74, R131). -/
def execCvtif (d a : Fin 32) (y : TyCode) (t : FFmt) (pr : Fin 8) (s : State) : Result :=
  match y.int? with
  | none => s.badType
  | some (sg, w) => s.convert w t.fmt.width d a pr fun _ _ x => t.fmt.deliver s.env (ofInteger sg w x)

/-- x × 2^(E − 127); a NaN element or scale gives NaN (R68, R132). -/
def scaled (v : FVal) (scale : Nat) : FVal :=
  if scale = 0xFF then .nan false
  else match v with
    | .num n m e => .num n m (e + (scale - 127))
    | v => v

/-- A scaled element to float; the lane's top byte is the scale (R132). -/
def execCvtq (d a : Fin 32) (y : TyCode) (t : FFmt) (pr : Fin 8) (s : State) : Result :=
  match y.float? with
  | none => s.badType
  | some g => s.convert g.width t.fmt.width d a pr fun l _ x =>
      t.fmt.deliver s.env (scaled (g.value x) (el 8 7 (lane l (s.v a))))

/-- f64 to q16 (R69, R131). -/
def execCvtdq (d a : Fin 32) (pr : Fin 8) (s : State) : Result :=
  s.convert 64 16 d a pr fun _ _ x => toInteger s.env.rm true 16 (fmtF64.read s.env.ftz x)

/-- The threshold of an element: bits [63:32] of the hash of KSEED and 16 × L + e (R75). -/
def srThreshold (seed : Word) (l e : Nat) : Nat :=
  let h := seed + BitVec.ofNat 64 (16 * l + e + 1) * 0x9E3779B97F4A7C15
  let h := (h ^^^ (h >>> 30)) * 0xBF58476D1CE4E5B9
  let h := (h ^^^ (h >>> 27)) * 0x94D049BB133111EB
  let h := h ^^^ (h >>> 31)
  (h >>> 32).toNat

/-- Stochastic rounding of one element with threshold r (R75). KFPC.SATF has no effect. -/
def FloatFmt.stochastic (f : FloatFmt) (ftz : Bool) (r : Nat) (v : FVal) : FRes :=
  match v with
  | .num n m e =>
    if m = 0 then f.convert {} v
    else
      let u := f.ulp m e
      let t := (roundAt .rtz n m e false u).1
      let frac := if u ≤ e then 0 else (m % 2 ^ (u - e).toNat) * 2 ^ 32 / 2 ^ (u - e).toNat
      let q := if 2 ^ 32 ≤ frac + r then t + 1 else t
      if f.above q u then ⟨f.signed n f.maxCode, flagOF ||| flagNX⟩
      else
        let inexact := !(leMag q u m e && leMag m e q u)
        let tiny := f.tiny q u
        if ftz && f.big && tiny then ⟨f.signed n 0, flagUF ||| flagNX⟩
        else ⟨f.signed n (f.encode q u), flagIf inexact flagNX ||| flagIf (inexact && tiny) flagUF⟩
  | v => f.convert {} v

/-- Float to float with stochastic rounding; KSEED moves on unless the pair's C-word wrote it (R75, R76, R145). -/
def execCvtsr (d a : Fin 32) (y : TyCode) (t : FFmt) (pr : Fin 8) (s : State) : Result :=
  match y.float? with
  | none => s.badType
  | some g =>
    let next : State := if s.cur.seedSet then s else s.modCx fun x => { x with k.seed := x.k.seed + 1 }
    s.vector pr [a] <| next.floats g.width d (s.active pr) fun l =>
      (List.range (64 / max t.fmt.width g.width)).map fun e =>
        g.stochastic s.env.ftz (srThreshold s.src.k.seed l e)
          (t.fmt.read s.env.ftz (el t.fmt.width e (lane l (s.v a))))

end Sys2Proof.Machine
end

