-- ==== Sys2Proof/Machine/Fabric.lean ====
section
/-! DEFINITION. Receiving over Lenbo: flits and packets, the duplicate filter and epochs, answers, retransmission, lost
lanes, links and credits (R402 to R407, R434, R435). -/

namespace Sys2Proof.Machine

/-! ### Flits (R402 to R404) -/

/-- A packet from its flits: a header and the data flits; E2E and the reserved bits are checked (R403). -/
def packetOf (h : BitVec 256) (data : List (BitVec 256)) : LenboPacket :=
  let b := flitBytes h
  { kind := BitVec.ofNat 8 (getN b 0 1), src := getN b 2 2, dst := getN b 4 2, epoch := getN b 6 2, seq := getN b 8 6,
    op := BitVec.ofNat 16 (getN b 14 2), addr := getWord b 16, aux := BitVec.ofNat 32 (getN b 24 4), data := data,
    e2eOk := decide ((crc32 (b.take 28 ++ data.flatMap flitBytes)).toNat = getN b 28 4) && decide (getN b 1 1 = data.length) &&
      decide (data.length ≤ 8) && decide (getN b 2 2 < 1024) && decide (getN b 4 2 < 1024) }

/-- Data flits a header announces. -/
def flitsOf (h : BitVec 256) : Nat := (flitBytes h)[1]?.elim 0 fun b => b.toNat % 16

/-- A flit joins the packet of its virtual channel; the packet, when it is complete (R403). -/
def LenboPort.take (q : LenboPort) (f : LenboFlit) : LenboPort × Option LenboPacket :=
  let vc := f.vc.toNat
  let fs := assoc [] vc q.rx ++ [f.data]
  match fs with
  | [] => (q, none)
  | h :: data =>
    if flitsOf h ≤ data.length then ({ q with rx := q.rx.filter fun x => decide (x.1 ≠ vc) }, some (packetOf h data))
    else ({ q with rx := assocSet vc fs q.rx }, none)

/-- A flit takes a place of the receiver's buffers: of the shared pool or of its channel's reserve (R405). -/
def LenboPort.hold (q : LenboPort) (f : LenboFlit) : LenboPort :=
  let vc : Fin 6 := Fin.ofNat 6 f.vc.toNat
  if f.shared then { q with heldPool := q.heldPool + 1 } else { q with held := q.held.set vc (q.held[vc] + 1) }

/-- The flits of a packet leave the receiver's buffers, and their credits are returned to that pool (R405). -/
def LenboPort.release (q : LenboPort) (shared : Bool) (vc n : Nat) : LenboPort :=
  let v : Fin 6 := Fin.ofNat 6 vc
  let q := { q with returned := q.returned ++ [(shared, vc, n)] }
  if shared then { q with heldPool := q.heldPool - n } else { q with held := q.held.set v (q.held[v] - n) }

/-- What is received is discarded from here on, and a NAK carries the expected number (R404). -/
def LenboPort.refuse (q : LenboPort) : LenboPort := { q with discarding := true, nak := some q.expect }

/-- A flit reaches a port: accepted with its CRC right and in sequence, or discarded with every later one until the
NAK is answered; one on EXCH is an error (R402, R404). -/
def execLenboFlitReceive (s : State) : Result :=
  let j := s.ev.port
  let q := s.lenbo.port j
  let f := s.ev.flit
  let put (s : State) (q : LenboPort) : State := { s with lenbo := s.lenbo.modPort j fun _ => q }
  .next <|
    if !q.up then s
    else if !flitCrcOk f ∨ f.seq ≠ q.expect then
      put s { q.refuse with errors := if q.discarding then q.errors else q.errors + 1 }
    else
      let q : LenboPort := { q with expect := q.expect + 1, discarding := false, nak := none }
      if f.vc = 0 then put s { q with errors := q.errors + 1 }
      else
        let r := (q.hold f).take f
        match r.2 with
        | some p => (put s r.1).post .lenboPacketReceive { port := j, packet := p, flag := true, m := f.vc.toNat, n := bitNat f.shared }
            (2 ^ 52 + 8 * j + f.vc.toNat + 1)
        | none => put s r.1

/-- A NAK with the expected number: the flits before it have arrived, and the rest of the replay buffer goes on the wire
again (R404). After a package stop nothing is sent again (R431). -/
def execLenboNak (s : State) : Result :=
  let n : BitVec 12 := BitVec.ofNat 12 s.ev.n
  let again (q : LenboPort) : LenboPort :=
    let left := if q.replay.any (fun f => decide (f.seq = n)) then q.replay.dropWhile fun f => decide (f.seq ≠ n) else q.replay
    { q with replay := left, wire := q.wire ++ left.dropWhile fun f => decide (f.seq ≠ n) }
  .next (if s.mgmt.fatal then s else { s with lenbo := s.lenbo.modPort s.ev.port again })

/-! ### Lanes, links and credits (R404, R405, R434) -/

/-- A link is down: class 9 and vector 64 (R434). What was cut is asked for again, should the link come back. -/
def State.linkDown (s : State) (j : Nat) : State :=
  ({ s with lenbo := s.lenbo.modPort j fun q => { q.refuse with up := false, width := 0 } }.errRecord 9 2 j 0 0).sendMsix 64

/-- A lane loss retrains the link to the widest working set; with none it goes down. The flits received stay, and the
rest of the packet that was cut is asked for again (R404, R434). -/
def execLenboLaneLoss (s : State) : Result :=
  let j := s.ev.port
  .next <|
    if [1, 2, 4, 8].contains s.ev.n then
      { s with lenbo := s.lenbo.modPort j fun q => { q.refuse with
          up := true, width := s.ev.n
          retrain := if q.retrain = BitVec.allOnes 16 then q.retrain else q.retrain + 1 } }.errRecord 8 2 j 0
        (BitVec.ofNat 64 s.ev.n)
    else s.linkDown j

/-- A link that does not train at one lane (R404, R434). -/
def execLenboLinkDown (s : State) : Result := .next (s.linkDown s.ev.port)

/-- A width change asked for is taken at the next packet boundary (R404, R434). -/
def execWidthreq (s : State) : Result :=
  let j := s.ev.port
  let n := s.ev.n % 16
  let q := s.lenbo.port j
  .next <|
    let s : State := { s with lenbo := s.lenbo.modPort j fun q => { q with req := n } }
    if !q.up ∨ n ∉ [1, 2, 4, 8] then s
    else if q.rx ≠ [] then s.post .widthreq s.ev
    else { s with lenbo := s.lenbo.modPort j fun q => { q with width := n } }

/-- Flits that a receiver has let go leave the replay buffer: the oldest ones of their pool and channel (DESIGN CHOICE, log 17). -/
def dropAcked (shared : Bool) (vc : Nat) : Nat → List LenboFlit → List LenboFlit
  | _, [] => []
  | 0, l => l
  | n + 1, f :: l =>
    if f.shared = shared ∧ f.vc.toNat = vc then dropAcked shared vc n l else f :: dropAcked shared vc (n + 1) l

/-- Packets that waited are offered again in order (R405). -/
def LenboPort.drain (q : LenboPort) : LenboPort := q.queue.foldl LenboPort.offer { q with queue := [] }

/-- Credits come back to the shared pool or to a channel's reserve; after a package stop the packets that waited for them stay
(R405, R431). -/
def execLenboCreditReturn (s : State) : Result :=
  let vc : Fin 6 := Fin.ofNat 6 s.ev.m
  let more (q : LenboPort) : LenboPort :=
    let q := { q with replay := dropAcked s.ev.flag s.ev.m s.ev.n q.replay }
    if s.ev.flag then { q with pool := min 1024 (q.pool + s.ev.n) }
    else { q with vcCredits := q.vcCredits.set vc (min 9 (q.vcCredits[vc] + s.ev.n)) }
  .next { s with lenbo := s.lenbo.modPort s.ev.port fun q => if s.mgmt.fatal then more q else (more q).drain }

/-! ### Serving requests (R407; the codes of OP and AUX are the model's, log 17) -/

/-- The operation a window request's OP names. -/
def winOpOf (kind op : Nat) : Option WinOp :=
  let code := op % 16
  let fns : List AtomFn := [.add, .and, .or, .xor, .min, .max, .minu, .maxu, .swp, .cas, .fadd, .decz]
  match kind with
  | 1 =>
    if code = 0 then some (.ld 4) else if code = 1 then some (.ld 8) else if code = 2 then some (.vld (BitVec.ofNat 4 (op / 16)))
    else if code = 3 then some .mwait else none
  | 2 => if code = 0 then some (.st 4) else if code = 1 then some (.st 8) else if code = 2 then some (.vst (BitVec.ofNat 4 (op / 16))) else none
  | 3 => (fns[code]?).bind fun f => (AWidth.ofCode (op / 16 % 2)).map fun x => .atom f x
  | _ => none

/-- How a request ends: an answer with a cause, data and its poison, or a wait. -/
inductive Served where
  | done (c : Cause) (data : Option (BitVec 256)) (bad : Bool)
  | wait
  deriving DecidableEq, Repr

/-- Four words of a flit. -/
def flitWords (f : BitVec 256) : List Word := (List.range 4).map fun l => lane l f

/-- Data flit `i` of a packet is poisoned (R428). -/
def flitBad (p : LenboPacket) (i : Nat) : Bool := bitOf p.op (8 + i)

/-- The source of an atomic or a message of another package (R438; log 17). -/
def packetSender (p : LenboPacket) : Sender :=
  { pkg := p.src, core := p.aux.toNat / 16 % 2 ^ 16, ctx := p.aux.toNat % 16 }

/-- A window access or message at a core of this package; while the port serves a landing or a sector of B it waits (R49, R152 to
R154, R171, R172). -/
def State.serveCore (s : State) (p : LenboPacket) : Served × State :=
  let t := winCore p.addr
  let l := (s.core t).launch
  let d := p.data.head?.getD 0
  let words := p.data.flatMap flitWords
  let marks := (List.range words.length).map fun i => flitBad p (i / 4)
  let who := packetSender p
  if !winForm p.addr ∨ !s.live l t then (.done Cause.window none false, s)
  else if p.kind = 4 then
    if p.op.toNat % 2 = 0 then
      match s.brineFrom 7 l t who 0 with
      | none => (.wait, s)
      | some s => (.done 0 none false, s.pushPort l t .q0 { words := words, marks := marks })
    else
      match s.brineFrom 8 l (8 * bedOf t) who ((p.addr.setWidth 8 : Byte).setWidth 64) with
      | none => (.wait, s)
      | some s =>
        (.done 0 none false, s.pushHit l (bedOf t)
          { key := p.addr.setWidth 8, resume := none, words := words, marks := marks, stamp := s.kcycleOf l })
  else
    match winOpOf p.kind.toNat (p.op.toNat % 256) with
    | none => (.done Cause.window none false, s)
    | some op =>
      if !winPermitted (s.core t).kseg op (winOff p.addr) then (.done Cause.window none false, s)
      else if s.portTaken t then (.wait, s)
      else
        match (if op.isAtom then s.brineFrom 10 l t who (BitVec.ofNat 64 (winOff p.addr)) else some s) with
        | none => (.wait, s)
        | some s =>
          let r := s.winPerform l t (winOff p.addr) op d (lane 1 d) (if flitBad p 0 then 0xF else 0) who
          (.done r.1.cause (if p.kind = 2 then none else some r.1.data) (decide (r.1.mark ≠ 0)), r.2)

/-- Where byte `k` of some parts, end to end, stands. -/
def placeAt : List (Nat × Nat) → Nat → Option Nat
  | [], _ => none
  | (a, n) :: rest, k => if k < n then some (a + k) else placeAt rest (k - n)

/-- Of `n` bytes written at some places, the sectors that a poisoned data flit of the packet brings are poisoned (R428). -/
def State.poisonFlits (s : State) (p : LenboPacket) (l : List (Nat × Nat)) (n : Nat) : State :=
  (List.range ((n + 31) / 32)).foldl (fun (s : State) i =>
    if flitBad p i then
      [32 * i, min (32 * i + 31) (n - 1)].foldl (fun (s : State) k => ((placeAt l k).map s.setPoison).getD s) s
    else s) s

/-- A read or a write of bytes for a copy of another package (R161, R394). -/
def State.serveBytes (s : State) (p : LenboPacket) (task : Task) : Served × State :=
  let n := min 256 (p.aux.toNat % 4096)
  let a : Asker := { req := 2 ^ 61 + p.src * 2 ^ 48 + p.seq, task := task, launch := 0, pasid := p.aux.toNat / 4096 }
  let bs := (p.data.flatMap flitBytes).take n
  if bitOf p.addr 55 then
    let t := winCore p.addr
    let l := (s.core t).launch
    let write := decide (p.kind = 2)
    if !winForm p.addr ∨ !s.live l t ∨ !s.portPermits l t (winOff p.addr) n write then (.done Cause.window none false, s)
    else if s.portTaken t then (.wait, s.postStart (s.ticks + 1) task.op task.arg)
    else if write then
      match s.landAt l t (winOff p.addr) bs fun i => flitBad p i with
      | some s => (.done 0 none false, s)
      | none => (.done Cause.window none false, s)
    else
      let key := ulmKey t (winOff p.addr)
      (.done 0 (some (BitVec.ofNat 256 (s.loadNat key n))) (s.poisonedRange key n), s)
  else if p.kind = 2 then
    match s.placesOf a true (granuleParts p.addr.toNat n) with
    | (.at_ l, s) =>
      let s := s.putPlaces l bs
      (.done 0 none false, s.poisonFlits p l n)
    | (.fail c _, s) => (.done c none false, s)
    | (.wait, s) => (.wait, s)
  else
    match s.engineRead a p.addr.toNat n with
    | (.data bs bad, s) => (.done 0 (some (BitVec.ofNat 256 (leNat bs))) bad, s)
    | (.fail c _, s) => (.done c none false, s)
    | (.wait, s) => (.wait, s)

/-- An answer to a request: TYPE 6 with data, TYPE 7 without (R403). -/
def State.answerTo (s : State) (p : LenboPacket) (kind : BitVec 8) (c : Cause) (data : Option (BitVec 256)) (bad : Bool) : LenboPacket :=
  { kind := kind, src := s.mgmt.pkgnum.toNat, dst := p.src, epoch := if kind = 8 then s.lenbo.epoch.toNat else s.lenbo.epochOf p.src,
    seq := p.seq, op := if bad then 0x100 else 0, addr := p.addr, aux := c.setWidth 32, data := data.toList, e2eOk := true }

/-- The answer goes back on the plane of the request's line. -/
def State.answer (s : State) (p : LenboPacket) : State := s.linkSend (planeOf s.hostRegs.pmap p.addr) p

/-- How far a sequence number lies behind another. -/
def seqBehind (newest seq : Nat) : Nat := (newest + 2 ^ 48 - seq) % 2 ^ 48

/-- The newest of some sequence numbers. -/
def newestSeq (seq : Nat) (l : List Nat) : Nat := l.foldl (fun n x => if seqBehind x n < 2 ^ 47 then x else n) seq

/-- The filter covers the last 4,096 sequence numbers of a package, counted from the newest (R407). -/
def Lenbo.remember (l : Lenbo) (src seq : Nat) (a : LenboPacket) : Lenbo :=
  let all : List LenboDone := { src := src, seq := seq, answer := some a } :: l.done
  let newest := newestSeq seq ((l.done.filter fun d => decide (d.src = src)).map LenboDone.seq)
  { l with done := all.filter fun d => decide (d.src ≠ src) || decide (seqBehind newest d.seq < 4096) }

/-- A request served once: a duplicate gets the stored answer (R407). -/
def State.serve (s : State) (p : LenboPacket) : State :=
  match s.lenbo.done.find? fun d => decide (d.src = p.src) && decide (d.seq = p.seq) with
  | some d => (d.answer.map s.answer).getD s
  | none =>
    let task : Task := { op := .lenboPacketReceive, arg := { s.ev with flag := false }, lane := 0 }
    let bytes := decide (p.kind = 5) || (decide (p.kind = 2) && decide (p.aux ≠ 0))
    match (if bytes then s.serveBytes p task else s.serveCore p) with
    | (.wait, t) => if bytes then t else { t with agenda := t.agenda ++ [task] }
    | (.done c data bad, t) =>
      let a := t.answerTo p (if data.isSome then 6 else 7) c data bad
      { t with lenbo := t.lenbo.remember p.src p.seq a }.answer a

/-! ### Answers (R153, R165, R407) -/

/-- A request is over: its window entry, copy, walk or message learns how it ended. -/
def State.concluded (s : State) (r : LenboReq) (c : Cause) (data : Option (BitVec 256)) (bad : Bool) : State :=
  let s : State := { s with lenbo.reqs := s.lenbo.reqs.filter fun x => !(decide (x.target = r.target) && decide (x.seq = r.seq)) }
  let s := match r.win with
    | some id => s.winAnswer r.core id { cause := c, data := data.getD 0, mark := if bad then 0xF else 0 }
    | none => s
  match r.copy with
  | none => s
  | some id =>
    match s.copy? id with
    | some x =>
      let s := s.modCopy id fun y => { y with
        out := false
        refused := if c = 0 then none else some c
        got := if c ≠ 0 then none
          else some (data.elim ([], false) fun d => ((flitBytes d).take (r.packet.aux.toNat % 4096), bad)) }
      if x.kind = .rdc then s.post .rdcSectorUpdate { id := id, n := x.next } else s.post .copySectorWrite { id := id }
    | none =>
      match s.walk? id with
      | some _ => (s.modWalk id fun w => { w with ack := some c }).post .geckoWalkEnd { id := id }
      | none =>
        match s.msg? id with
        | some m =>
          let s := s.dropMsg m
          if c ≠ 0 ∧ s.live m.launch m.sender then
            s.report m.sender m.ctx { cause := c, va := m.va, off := m.off, dst := .none }
          else s
        | none => s

/-- An outstanding request toward a package. -/
def State.reqTo (s : State) (pkg seq : Nat) : Option LenboReq :=
  s.lenbo.reqs.find? fun r => decide (r.target = pkg) && decide (r.seq = seq)

/-- A packet reaches this package: its flits leave the port's buffers, its E2E code and epoch are checked, a request is served
once, an answer goes to whoever waits (R403, R405, R407). -/
def execLenboPacketReceive (s : State) : Result :=
  let p := s.ev.packet
  let s : State := if s.ev.flag then
      { s with lenbo := s.lenbo.modPort s.ev.port fun q => q.release (decide (s.ev.n = 1)) s.ev.m (p.data.length + 1) }
    else s
  .next <|
    if s.mgmt.fatal ∨ !p.e2eOk ∨ p.dst ≠ s.mgmt.pkgnum.toNat then s
    else if 1 ≤ p.kind.toNat ∧ p.kind.toNat ≤ 5 then
      if p.epoch ≠ s.lenbo.epoch.toNat then s.answer (s.answerTo p 8 0 none false) else s.serve p
    else if p.kind = 6 ∨ p.kind = 7 then
      match s.reqTo p.src p.seq with
      | some r => s.concluded r (p.aux.setWidth 8) (if p.kind = 6 then some (p.data.head?.getD 0) else none) (flitBad p 0)
      | none => s
    else if p.kind = 8 then s.post .epochRefusal s.ev
    else s

/-- An epoch refusal: the new epoch is known from then on, and the request ends as FABRIC (R153, R407). -/
def execEpochRefusal (s : State) : Result :=
  let p := s.ev.packet
  .next <|
    let s : State := { s with lenbo.epochs := assocSet p.src (BitVec.ofNat 16 p.epoch) s.lenbo.epochs }
    match s.reqTo p.src p.seq with
    | some r => s.concluded r Cause.fabric none false
    | none => s

/-- A request without an answer is sent again with its SEQ, on the plane its line now maps to (R407, R435). -/
def execLenboRetransmitTimeout (s : State) : Result :=
  .next <|
    match s.reqTo s.ev.id s.ev.n with
    | none => s
    | some r =>
      let plane := planeOf s.hostRegs.pmap r.packet.addr
      let s : State := { s with lenbo.reqs := s.lenbo.reqs.map fun x =>
        if x.target = r.target ∧ x.seq = r.seq then { x with plane := plane } else x }
      (s.linkSend plane r.packet).post .lenboRetransmitTimeout s.ev

/-- A request without an answer for 2 s is given up (R435). -/
def execLenboRequestGiveUp (s : State) : Result :=
  .next <|
    match s.reqTo s.ev.id s.ev.n with
    | some r => s.concluded r Cause.fabric none false
    | none => s

/-- PMAP written: lines move as their outstanding accesses settle (R247, R406). -/
def execPmap (s : State) : Result :=
  .next (if s.power = .service then { s with hostRegs.pmap := s.ev.value } else s)

end Sys2Proof.Machine
end

