-- ==== Sys2Proof/Machine/Preempt.lean ====
section
/-! DEFINITION. Pre-emption, saving and restoring a group, swapping, the retirement of a group and the end of a launch
(R319 to R333, R371). -/

namespace Sys2Proof.Machine

/-! ### Halting (R325, R326, R328) -/

/-- c0 stands before the first bundle of its handler, which it enters after the restore (R326). -/
def Context.atHandler (x : Context) (stvec : Word) : Bool := x.mode && decide (x.pc = trapEntry stvec)

/-- XLONG that waits for c0's next bundle is taken before the halt; at the first bundle of a handler it goes on waiting (R174,
R326). -/
def State.takeXlong (s : State) (c : Nat) : State :=
  let k := s.core c
  let x := k.ctxs[(0 : Fin 11)]
  if k.xlongDue ∧ x.live ∧ !x.atHandler k.kstvec then
    { s.modCore c fun k => { k with xlongDue := false } with fresh := s.fresh + 1 }.trapOf c 0
      (if x.aword then x.pc - 4 else x.pc) { code := Cause.xlong, epc := x.pc, addr := Config.freeAddr s.fresh, pair := x.aword }
  else s

/-- The waiting instructions of the contexts with a property are withdrawn (R114, R118, R139, R207). -/
def Core.withdrawAll (k : Core) (f : Fin 11 → Bool) : Core :=
  ((List.range 11).map (Fin.ofNat 11)).foldl (fun k c => if f c then k.withdraw c else k) k

/-- Every context of some groups stands between two instructions, where a halt takes it (R325). -/
def State.groupsAtBoundary (s : State) (gs : List (Nat × Group)) : Bool :=
  gs.all fun g => g.2.cores.all fun c => (s.core c).atBoundary

/-- A core halts: no context issues any more, and its save follows when its outstanding work has ended (R325, R328). -/
def State.haltCore (s : State) (c : Nat) : State :=
  ((s.takeXlong c).modCore c fun k =>
    if k.run = .stopped then k else { k.withdrawAll fun _ => true with run := .halted }).post .coreSave { core := c }

/-- A group halts, to be saved (R319, R325). -/
def State.haltGroup (s : State) (id : Nat) (st : GroupState) : State :=
  ((s.group id).cores.foldl State.haltCore s).modGroup id fun g => { g with st := st, deferred := false }

/-- A group in an exchange phase defers: its helpers halt, and c0 goes on (R326). -/
def State.deferGroup (s : State) (id : Nat) : State :=
  ((s.group id).cores.foldl (fun (s : State) c => s.modCore c fun k =>
    if k.run = .stopped then k else { k.withdrawAll fun c => decide (c ≠ 0) with run := .halting }) s).modGroup id fun g =>
      { g with deferred := true }

/-- The pre-emption of a launch reaches its cores, once its start is complete (R324 to R326, R329). A trip holds the launches: one
whose groups are granted one by one then gets no further group, and those it has are pre-empted (R454; DESIGN CHOICE, log 53). -/
def execPreemptDelivery (s : State) : Result :=
  .next <|
    match s.launch? s.ev.launch with
    | none => s
    | some l =>
      let gs := (s.liveGroups l).filter fun g => decide (g.2.st = .resident) && !g.2.deferred
      let starting := decide (l.st = .granted) && (!s.mgmt.hold || (s.groupsOf l).any fun g => decide (g.2.st = .setup))
      if starting || !s.groupsAtBoundary gs then s.post .preemptDelivery s.ev
      else if !l.runs ∨ gs = [] then s
      else
        match s.reserve gs with
        | none => s
        | some s =>
          gs.foldl (fun (s : State) g => if g.2.exch then s.deferGroup g.1 else s.haltGroup g.1 .preempted) (s.brineLaunch l 2)

/-- The exchange phase of a deferring group has ended: c0 halts on every core (R326). -/
def execDeferredHalt (s : State) : Result :=
  let g := s.group s.ev.group
  .next <|
    if !g.deferred then s
    else if s.groupsAtBoundary [(s.ev.group, g)] then s.haltGroup s.ev.group .preempted
    else s.post .deferredHalt s.ev

/-- The groups of a launch that may be swapped out are, while the selected launch cannot be placed (R319, R440). -/
def execSwapOut (s : State) : Result :=
  .next <|
    match s.launch? s.ev.launch with
    | none => s
    | some l =>
      let gs := s.swapVictims l
      let wanted : Bool :=
        if s.replays l then decide ((s.haltNamed.map Launch.id) = some l.id)
        else match s.selected.bind s.launch? with
          | some n => decide (l.prio ≤ s.effOf n) && (s.fitFor n).isNone
          | none => false
      if l.st ≠ .started ∨ !wanted ∨ gs = [] then s
      else if !s.groupsAtBoundary gs then s.post .swapOut s.ev
      else
        match s.reserve gs with
        | none => s
        | some s => gs.foldl (fun (s : State) g => s.haltGroup g.1 .swapped) (s.brineLaunch l 2)

/-! ### Saving (R328 to R332) -/

/-- A row of the slot table (R331, R369). -/
def SlotState.code : SlotState → Nat
  | .free => 0
  | .filling => 1
  | .resident => 2
  | .evicting => 3
def SlotState.ofCode : Nat → SlotState
  | 1 => .filling
  | 2 => .resident
  | 3 => .evicting
  | _ => .free
def Slot.row (x : Slot) : List Byte :=
  natBytes x.id 4 ++ natBytes x.state.code 4 ++ natBytes x.count 2 ++ natBytes x.last 2 ++ natBytes 0 4

/-- The core state page (R331). -/
def State.pageBytes (s : State) (c : Nat) : List Byte :=
  let k := s.core c
  let g := s.group k.group
  let b := s.bed (bedOf c)
  k.kseg.toList.flatMap wordBytes8 ++
  natBytes k.kxph.toNat 8 ++ natBytes k.kwtmo.toNat 8 ++ wordBytes8 k.kstvec ++ wordBytes8 k.kbrine ++ wordBytes8 k.kerr ++
  natBytes k.klatent.toNat 8 ++ natBytes (g.kxslot + bitNat g.exch * 2 ^ 16) 8 ++
  natBytes ((k.claim.map fun x => x.val + 16).getD 0 + (k.rep.map fun r => (r.owner.val + 16) * 2 ^ 8).getD 0) 8 ++
  natBytes (if c % 8 = 0 then b.forms.toNat else 0) 8 ++ natBytes 0 24 ++ k.tags.toList.flatMap Tag.row ++
  k.ovIdx.toList.flatMap wordBytes8 ++ k.slots.toList.flatMap Slot.row ++
  ((List.range 8).flatMap fun i => match k.fptrs[i]? with
    | some p => natBytes p.1 4 ++ natBytes p.2 2 ++ natBytes 0 2
    | none => natBytes 0xFFFFFFFF 4 ++ natBytes 0 4) ++
  natBytes 0 3232

/-- The entries of the queues of a core are written to the front of their rings, and those of its bed (R332). -/
def State.flushCore (s : State) (c : Nat) : State :=
  let s := ((s.flushPort c .q0).flushPort c .q2).flushPort c .q3
  if c % 8 = 0 then s.flushBed (bedOf c) else s

/-- A ring that has no room for the entries a save writes to it (R282, R332). -/
def State.flushFull (s : State) (c : Nat) : Option Port :=
  let k := s.core c
  let b := s.bed (bedOf c)
  [Port.q0, .q1, .q2, .q3].find? fun p => decide (s.ringRoom k.launch c p <
    match p with
    | .q1 => if c % 8 = 0 then sorterPlaces b.sorter + sorterPlaces b.spill else 0
    | p => (k.queue p).length + (k.over p).length)

/-- The ring indexes of q1 stand with the core whose x mod 8 is 0 (R331). -/
def State.withBedIdx (s : State) (c : Nat) (k : Core) : Core :=
  if c % 8 = 0 then
    let b := s.bed (bedOf c)
    { k with ovIdx := (k.ovIdx.set 2 b.ovIdx[0]).set 3 b.ovIdx[1] }
  else k

/-- What a context of a core that has left its launch still holds: its registers (R321, R419). -/
def Context.remains (x : Context) : Context :=
  { Context.reset with r := x.r, k := x.k, f := x.f, pc := x.pc, mode := x.mode, pmode := x.pmode }

/-- A core leaves its launch: it is free, its registers and tags stay as they are until the next set-up, and a debugger's
halt ends (R317, R321, R419, R452). -/
def State.freeCore (s : State) (c : Nat) : State :=
  let s : State := if (s.core c).dbgHalt then { s with mgmt.dbghalted := false } else s
  let s := s.modCore c fun k =>
    { Core.reset with
      ctxs := k.ctxs.map Context.remains, tags := k.tags, kseg := k.kseg, kxph := k.kxph, acc := k.acc, accMark := k.accMark }
  if c % 8 = 0 then s.modBed (bedOf c) fun _ => {} else s

/-- The ULM, the images and the state page of a core written to a slot (R329 to R331, R430). -/
def State.writeSlot (s : State) (c a : Nat) : State :=
  let s := s.copyBytes (ulmKey c 0) a 0x20000
  let s := (List.range 11).foldl (fun (s : State) i =>
    let x := Fin.ofNat 11 i
    s.storeClean (a + 0x20000 + 0x1000 * i) (s.image c x (s.ctx c x).live)) s
  s.storeClean (a + 0x2B000) ((s.modCore c fun k => s.withBedIdx c k).pageBytes c)

/-- A halted core whose outstanding work has ended, the landings of its group among it, is written to its slot, and is free (R325,
R328 to R332). -/
def execCoreSave (s : State) : Result :=
  let c := s.ev.core
  let k := s.core c
  let l := k.launch
  let g := s.group k.group
  .next <|
    match s.saves.find? fun x => decide (x.1 = k.group) with
    | none => s
    | some (_, first) =>
      if k.run ≠ .halted ∨ (g.st ≠ .swapped ∧ g.st ≠ .preempted) then s
      else if !((List.range 11).all fun i => k.settled (Fin.ofNat 11 i)) || k.matOp.isSome || !g.flits.isEmpty then
        s.post .coreSave s.ev
      else match s.flushFull c with
      | some p => s.ringFull l c p
      | none =>
        let a := s.poolBase + 2 ^ 18 * (first + (g.cores.idxOf? c).getD 0)
        let s := s.flushCore c
        let s := s.modCore c fun k => s.withBedIdx c k
        let s := s.writeSlot c a
        let k := (List.range 11).foldl (fun (k : Core) i => k.afterSave (Fin.ofNat 11 i)) (s.core c)
        let s : State := { s with
          saved := assocSet (savedKey l c) k s.saved
          savedBeds := if c % 8 = 0 then assocSet (savedKey l (bedOf c)) (s.bed (bedOf c)) s.savedBeds else s.savedBeds }
        (s.freeCore c).lookAgain

/-! ### Restoring (R319, R320, R333) -/

/-- A slot row, a tag and a forwarding pointer read back from a state page (R331). -/
def slotOfBytes (bs : List Byte) (old : Slot) (i : Nat) : Slot :=
  let o := 0x2C0 + 16 * i
  { old with id := getN bs o 4, state := SlotState.ofCode (getN bs (o + 4) 1), count := getN bs (o + 8) 2,
             last := getN bs (o + 10) 2 }
def tagOfBytes (bs : List Byte) (old : Tag) (i : Nat) : Tag :=
  let o := 0x80 + 32 * i
  let w := getN bs o 8
  { old with
    count := if old.count % 2 ^ 16 = w / 2 ^ 48 then old.count else w / 2 ^ 48
    poisoned := BitVec.ofNat 32 (w / 2 ^ 16), status := BitVec.ofNat 8 w
    dst := rangeOf (getN bs (o + 8) 8), src := rangeOf (getN bs (o + 16) 8), failed := (rangeOf (getN bs (o + 24) 8)).toList }
def fptrsOfBytes (bs : List Byte) : List (Nat × Nat) :=
  (List.range 8).filterMap fun i =>
    let id := getN bs (0x320 + 8 * i) 4
    if id = 0xFFFFFFFF then none else some (id, getN bs (0x324 + 8 * i) 2)

/-- A core with what a state page holds; reserved bits of its K-registers stay zero (R10, R331). -/
def Core.loaded (k : Core) (page : List Byte) (old : Core) : Core :=
  { k with
    kseg := Vector.ofFn fun i : Fin 4 => getWord page (8 * i.val) &&& ksegMask
    kxph := BitVec.ofNat 32 (getN page 0x20 8), kwtmo := BitVec.ofNat 16 (getN page 0x28 8), kstvec := getWord page 0x30 &&& 0xFFC,
    kbrine := getWord page 0x38 &&& 0xFFFFFFFF0000FF0F, kerr := getWord page 0x40 &&& 0x0000FFFF000000FF, klatent := BitVec.ofNat 32 (getN page 0x48 8)
    tags := Vector.ofFn fun i : Fin 16 => tagOfBytes page old.tags[i] i.val
    ovIdx := Vector.ofFn fun i : Fin 8 => getWord page (0x280 + 8 * i.val)
    slots := Vector.ofFn fun i : Fin 6 => slotOfBytes page old.slots[i] i.val
    fptrs := fptrsOfBytes page }

/-- A core as a restore leaves it before its images are installed: reset, with what the state page holds, and with what
the manual gives no place in a save (R331, R333; log 20). -/
def State.reloaded (s : State) (old : Core) (page : List Byte) : Core :=
  Core.loaded { Core.reset with
    launch := old.launch, group := old.group, helpers := old.helpers, sup := old.sup, boot := old.boot, brkHeld := old.brkHeld,
    kMark := old.kMark, ov0 := old.ov0, ov2 := old.ov2, ov3 := old.ov3, sends := old.sends.filter fun i => (s.msg? i).isSome,
    owed := old.owed, xlongDue := old.xlongDue, barrier := old.barrier, barEnd := old.barEnd } page old

/-- The context of an image with what a save keeps beside it: suspension, ENDING, the marks for which an image has no
place, the wave operations that count as arrived, every address a parked context waits for; every hold bit is set for
a live context (R114, R330, R333, R370). -/
def restoredCtx (x old : Context) : Context :=
  { x with
    susp := old.susp, ending := old.ending, hold := if x.live then 0x3F else 0, yieldFor := 0, waveFaults := old.waveFaults
    k.mark := old.k.mark, f.retBad := old.f.retBad
    f.stack := x.f.stack.zipWith (fun e o => { e with bad := o.bad }) old.f.stack
    waitVA := if x.parked && old.parked then old.waitVA else x.waitVA }

/-- The marks of the scale FIFO and of the repetition buffer that a save keeps beside the image of their owner, and how many traps
its replay waits for (R197, R333). -/
def Core.keepMarks (k old : Core) (c : Fin 11) : Core :=
  { k with
    fifoBad := if k.holds c ∧ old.fifoBad.length = k.fifo.length then old.fifoBad else k.fifoBad
    scaleBad := if k.holds c then old.scaleBad && k.desync.isSome else k.scaleBad
    rep := if k.ownsRep c then k.rep.map fun r =>
        { r with
          bad := (old.rep.map Rep.bad).getD 0
          suspended := ((old.rep.filter fun o => decide (o.owner = c)).map Rep.suspended).getD r.suspended }
      else k.rep }

/-- The images of a core installed in context order; one that `crest` would reject ends the launch (R115, R333). -/
def installImages (img : Nat → List Byte) (old : Core) : List Nat → Core → Except (Cause × Nat) Core
  | [], k => .ok k
  | i :: rest, k =>
    let c : Fin 11 := Fin.ofNat 11 i
    let bs := img i
    if imageMat bs ∧ k.claim.isSome then .error (Cause.claim, i)
    else if imageBad bs then .error (Cause.illop, i)
    else installImages img old rest (((k.install c bs).modCtx c fun x => restoredCtx x old.ctxs[c]).keepMarks old c)

/-- What a state page holds beside the core itself is installed: the bed's formation count and ring indexes, and the phase of the
group (R331, R333). -/
def State.pageInstalled (s : State) (c : Nat) (page : List Byte) : State :=
  let s := if c % 8 = 0 then
      s.modBed (bedOf c) fun b =>
        { b with forms := BitVec.ofNat 16 (getN page 0x60 8), ovIdx := ⟨#[getWord page 0x290, getWord page 0x298], rfl⟩ }
    else s
  s.modGroup (s.core c).group fun g => { g with kxslot := getN page 0x50 2, exch := (getN page 0x52 1).testBit 0 }

/-- A saved core restored from its slot: its state, or the cause and the context of a bad image (R333). -/
def State.restoreCore (s : State) (l c : Nat) : State × Option EndInfo :=
  match s.slotOf l c with
  | none => (s, none)
  | some a =>
    let old := s.coreOf l c
    let page := memBytes s.mem (a + 0x2B000) 0x1000
    let img (i : Nat) : List Byte := memBytes s.mem (a + 0x20000 + 0x1000 * i) 0x1000
    match installImages img old (List.range 11) (s.reloaded old page) with
    | .error (cause, i) => (s, some ⟨cause, c, i, 0, 0, 0⟩)
    | .ok k =>
      let s := (s.copyBytes a (ulmKey c 0) 0x20000).setCore c { k with run := .running, rr := 0, tried := 0 }
      let s := if c % 8 = 0 then s.modBed (bedOf c) fun _ => assoc {} (savedKey l (bedOf c)) s.savedBeds else s
      (s.pageInstalled c page, none)

/-- What a restored core is looked at for: its parked contexts, its rings, its bed, its c0 in ENDING (R172, R213, R321). -/
def State.wakeCore (s : State) (c : Nat) : State :=
  let s := [Port.q0, .q1, .q2, .q3].foldl (fun (s : State) p => s.post .overflowReturn { core := c, qport := p }) (s.recheckParked c)
  (s.post .waveFormation { group := bedOf c, core := c }).post .c0CompletionReport { core := c }

/-- The groups of a launch that are due are restored to the cores they left, once these are free and no launch of
higher priority is selected (R319, R320, R333; DESIGN CHOICE, log 19). -/
def execGroupRestore (s : State) : Result :=
  .next <|
    match s.launch? s.ev.launch with
    | none => s
    | some l =>
      let gs := s.restorable l
      let held := match s.selected.bind s.launch? with
        | some n => decide (l.prio < s.effOf n)
        | none => false
      let left := (s.liveGroups l).any fun g => decide (g.2.st = .swapped) || decide (g.2.st = .preempted)
      if !l.runs then s
      else if decide (gs = []) || held then if left then s.postNext .groupRestore s.ev else s
      else
        let cores := gs.flatMap fun g => g.2.cores
        let r := cores.foldl (fun (r : State × Option EndInfo) c =>
          let t := r.1.restoreCore l.id c
          (t.1, r.2.orElse fun _ => t.2)) (s, none)
        match r.2 with
        | some info => s.post .launchEnd { launch := l.id, info := info }
        | none =>
          let s : State := { r.1 with
            saves := r.1.saves.filter fun x => !(gs.any fun g => decide (g.1 = x.1))
            saved := r.1.saved.filter fun x => !(cores.any fun c => decide (x.1 = savedKey l.id c))
            savedBeds := r.1.savedBeds.filter fun x => !(cores.any fun c => decide (x.1 = savedKey l.id (bedOf c))) }
          let s := gs.foldl (fun (s : State) g => s.modGroup g.1 fun x => { x with st := .resident }) s
          (cores.foldl State.wakeCore s).lookAgain

/-! ### The retirement of a group and the end of a launch (R321, R322) -/

/-- Every c0 of a group has ended, with its helpers and its tags. -/
def Core.ended (k : Core) : Bool :=
  k.run.up && (k.ctxs[(0 : Fin 11)]).ending &&
  ((List.range 10).all fun i => !(k.ctxs[Fin.ofNat 11 (i + 1)]).live && !(k.ctxs[Fin.ofNat 11 (i + 1)]).susp) &&
  k.tags.toList.all fun t => decide (t.count = 0)

/-- A group whose every c0 is ENDING and whose queue is empty retires; the last one retires the launch (R318, R321). -/
def execGroupRetirement (s : State) : Result :=
  let id := s.ev.group
  let g := s.group id
  .next <|
    match s.launch? g.launch with
    | none => s
    | some l =>
      if g.st ≠ .resident ∨ g.deferred ∨ g.pending ≠ [] ∨ !(g.cores.all fun c => (s.core c).ended) ∨ l.st = .ending then s
      else
        let s := (g.cores.foldl State.freeCore s).modGroup id fun g => { g with st := .retired }
        if l.groups.length = l.groupCount ∧ (s.liveGroups l) = [] then s.retireLaunch l false else s.lookAgain

/-- A parked part of an `rdc` or an `ired` is given up: the sector counts as done, the die's indices are gone. The other parts
run to their end (R391). A parked chunk of a Chameleon command is over as one whose page never comes (R342, R401). -/
def State.dropPart (s : State) (w : PageWait) : State :=
  match s.copy? w.req with
  | some c =>
    match c.kind with
    | .rdc => s.rdcNext c c
    | .ired =>
      (s.modCopy c.id fun c => { c with
        idx := c.idx.filter fun x => decide (colour (c.ired.rowAt x) ≠ w.task.arg.die)
        parts := c.parts.filter fun p => decide (p.1 ≠ w.task.arg.die) }).post .iredCombine { id := c.id }
    | .chunk => s.endCopy (c.met Cause.pageinv c.next c.dst) []
    | _ => s
  | none => s

/-- Requests of a launch that are parked at the memory side are dropped with it, and the copies that go on in copy order and
the engine commands they belong to; of an `rdc` or an `ired` the parked parts alone, and the chunks of a Chameleon command
(R322, R342, R391, R401). -/
def State.dropParked (s : State) (l : Nat) : State :=
  let kindIn (ks : List CopyKind) (id : Nat) : Bool := s.copies.any fun c => decide (c.id = id) && ks.contains c.kind
  let partial_ := kindIn [.rdc, .ired, .chunk]
  let ws := s.pageWaits.filter fun w => decide (w.launch = l)
  let ids := (ws.filter fun w => !partial_ w.req).map PageWait.req
  (ws.filter fun w => partial_ w.req).foldl State.dropPart { s with
    pageWaits := s.pageWaits.filter fun w => decide (w.launch ≠ l)
    copies := s.copies.filter fun c => !(decide (c.launch = l) && ids.contains c.id)
    walks := s.walks.filter fun w => !(decide (w.launch = l) && ids.contains w.id)
    pageIns := s.pageIns.filter fun p => !(decide (p.launch = l)) }

/-- A core of an ended launch has nothing outstanding (R322). -/
def State.quiet (s : State) (l c : Nat) : Bool :=
  let k := s.core c
  k.win.isEmpty && k.matOp.isNone && !(s.copies.any fun x => decide (x.launch = l) && decide (x.core = c))

/-- The pending launches of a group are rejected (R318, R322). -/
def State.rejectPending (s : State) (g : Nat) : State :=
  (s.group g).pending.foldl (fun (s : State) _ =>
    match s.headOf (.group g) with
    | some l => s.reject l Cause.launchbad
    | none => match s.takeHead (.group g) with
      | some (l, s) => s.reject l Cause.launchbad
      | none => s) s

/-- An ended launch begins to end: its cores stop, its saved groups are discarded, its pending launches rejected, its
Chameleon commands stopped (R322, R401). -/
def State.beginEnd (s : State) (l : Launch) (info : EndInfo) : State :=
  let gs := s.liveGroups l
  let s := s.modLaunch l.id fun x => { x with st := .ending, first := some info }
  let s := gs.foldl (fun (s : State) g => s.rejectPending g.1) s
  let s := gs.foldl (fun (s : State) g =>
    let s := g.2.cores.foldl (fun (s : State) c =>
      if (s.core c).launch = l.id ∧ (s.core c).run ≠ .free then s.modCore c fun k =>
        let k := k.withdrawAll fun _ => true
        { k with run := .halted }
      else s) s
    s.modGroup g.1 fun x => { x with
      st := if x.st = .swapped ∨ x.st = .preempted then .retired else x.st, deferred := false, exch := false }) s
  let s : State := { s with
    saves := s.saves.filter fun x => !(gs.any fun g => decide (g.1 = x.1))
    saved := s.saved.filter fun x => decide (x.1 / 2 ^ 16 ≠ l.id)
    savedBeds := s.savedBeds.filter fun x => decide (x.1 / 2 ^ 16 ≠ l.id)
    chams := s.chams.map fun c => if c.2.launch = l.id then (c.1, { c.2 with stop := true }) else c }
  let s := (s.chams.filter fun c => decide (c.2.launch = l.id)).foldl (fun (s : State) c =>
    s.post .chameleonEnd { id := c.2.id }) s
  s.post .launchEnd { launch := l.id }

/-- The end of a launch, in its stages: it begins with the first fault; when its outstanding work has ended the cores are
free and it retires; and the completion counter of a retired launch is brought up to date (R321, R322). -/
def execLaunchEnd (s : State) : Result :=
  .next <|
    match s.launch? s.ev.launch with
    | none => s
    | some l =>
      if l.st = .retired then s.retireOn l
      else if l.st = .ending then
        let s := s.dropParked l.id
        let cores := (s.cores.filter fun k => decide (k.2.launch = l.id) && decide (k.2.run ≠ .free)).map Prod.fst
        if cores.all fun c => s.quiet l.id c then
          let s := cores.foldl State.freeCore s
          let s := (s.liveGroups l).foldl (fun (s : State) g => s.modGroup g.1 fun x => { x with st := .retired }) s
          s.retireLaunch l false
        else s.post .launchEnd { launch := l.id }
      else if l.st = .head ∨ l.st = .selected then s.reject l s.ev.info.status
      else s.beginEnd l s.ev.info

end Sys2Proof.Machine
end

