-- ==== Sys2Proof/Machine/Rays.lean ====
section
/-! DEFINITION. Rays and sluice triangles: sending, the saltern and its caches, arrivals at treelet slots, paging,
eviction, replication and heat (R171, R268 to R281, R361 to R363, R366 to R379). -/

namespace Sys2Proof.Machine

/-! ### Messages (R171, R268, R269, R362) -/

/-- Fields of a ray (R268, R269). -/
def Msg.treelet (m : Msg) : Nat := ((m.words[6]?).getD 0).toNat % 2 ^ 32
def Msg.rayId (m : Msg) : Nat := ((m.words[5]?).getD 0).toNat / 2 ^ 32
def Msg.flag0 (m : Msg) : Bool := bitOf ((m.words[7]?).getD 0) 56
def Msg.setFlag0 (m : Msg) (b : Bool) : Msg :=
  { m with words := (List.range 8).map fun i => let w := (m.words[i]?).getD 0; if i = 7 then withBit w 56 b else w }

/-- A message under way changed. -/
def State.modMsg (s : State) (id : Nat) (f : Msg → Msg) : State :=
  { s with msgs := s.msgs.map fun m => if m.id = id then f m else m }

/-- The message has left the send buffer of its core. -/
def State.leaveBuffer (s : State) (m : Msg) : State :=
  s.modCoreOf m.launch m.sender fun k => { k with sends := k.sends.filter fun i => decide (i ≠ m.id) }

/-! ### The saltern (R276, R277, R371 to R373) -/

/-- The hash of a treelet under a pan key, and its home die (R371). -/
def salternHash (id pan : Nat) : Nat := (id ^^^ pan) * 0x9E3779B1 % 2 ^ 32
def homeDie (id pan : Nat) : Nat := salternHash id pan / 2 ^ 28

/-- The replica a ray takes of `n` (R277). -/
def replicaOf (rayId n : Nat) : Nat := rayId * 0x9E3779B1 % 2 ^ 32 * n / 2 ^ 32

/-- The home entry of a treelet for a launch, and a change of it. -/
def State.home? (s : State) (l id : Nat) : Option Home :=
  (s.homes.find? fun h => decide (h.2.launch = l) && decide (h.2.id = id)).map Prod.snd
def State.modHome (s : State) (l id : Nat) (f : Home → Home) : State :=
  { s with homes := s.homes.map fun h => if h.2.launch = l ∧ h.2.id = id then (h.1, f h.2) else h }

/-- A cache with an entry put in front of its set of four; an entry of the same identifier goes (R373). -/
def cacheFill (l : List Home) (h : Home) : List Home :=
  let rest := l.filter fun x => decide (x.id ≠ h.id)
  let inSet (x : Home) : Bool := decide (homeDie x.id x.pan = homeDie h.id h.pan)
  let mine := rest.filter inSet
  h :: if 4 ≤ mine.length then
    match mine.getLast? with
    | some y => rest.filter fun x => decide (x.id ≠ y.id)
    | none => rest
  else rest

/-- A lookup makes the entry the most recently used (R373). -/
def Core.cacheGet (k : Core) (id : Nat) : Option (Home × Core) :=
  (k.scache.find? fun h => decide (h.id = id)).map fun h =>
    (h, { k with scache := h :: k.scache.filter fun x => decide (x.id ≠ id) })

/-- The core of the replica an entry gives a ray (R277). -/
def Home.pick (h : Home) (rayId : Nat) : Nat × Nat := (h.reps[replicaOf rayId h.reps.length]?).getD (0, 0)

/-- A cache fill reaches a core (R276, R373). -/
def execSalternCacheFill (s : State) : Result :=
  .next <|
    match s.ev.home with
    | some h =>
      if s.live s.ev.launch s.ev.core then s.modCore s.ev.core fun k => { k with scache := cacheFill k.scache h } else s
    | none => s

/-! ### Sending (R171, R269, R276, R363) -/

/-- A ray sent to the treelet it names (R269, R276). -/
def execRsend (b : Fin 32) (s : State) : Result :=
  let words := s.sendWords b true 1
  let id := ((words[6]?).getD 0).toNat % 2 ^ 32
  let ray := ((words[5]?).getD 0).toNat / 2 ^ 32
  .next <|
    if s.vMarked 0xF [b, b + 1] then s.faultPoison
    else if bitOf ((words[7]?).getD 0) 56 ∨ id = 0xFFFFFFFF then s.faultOpen Cause.illop
    else
      let va := Config.freeAddr s.fresh
      match s.here.cacheGet id with
      | some (h, k) =>
        s.sendMsg .rsend va (h.pick ray).1 0 words fun t m =>
          ({ t with fresh := t.fresh + 1 }.modHere fun k' => { k' with scache := k.scache }).post .rayArrival { id := m.id }
      | none => s.sendMsg .rsend va s.cur.core 0 words fun t m => { t with fresh := t.fresh + 1 }.post .rayAtHome { id := m.id }

/-- BOX of a sluice triangle: x0, y0, x1, y1 (R362). -/
def boxOf (w : Word) : Nat × Nat × Nat × Nat :=
  ((w.extractLsb' 0 16).toNat, (w.extractLsb' 16 16).toNat, (w.extractLsb' 32 16).toNat, (w.extractLsb' 48 16).toNat)

/-- The cores of a pan whose tile meets a BOX, in core order (R361, R363). -/
def Launch.tiles (l : Launch) (box : Nat × Nat × Nat × Nat) : List Nat :=
  let (x0, y0, x1, y1) := box
  if x1 < x0 ∨ y1 < y0 then []
  else (rectCores l.corner l.width l.height).filter fun c =>
    let x := 16 * l.relX c
    let y := 16 * l.relY c
    decide (x0 ≤ x + 15) && decide (x ≤ x1) && decide (y0 ≤ y + 15) && decide (y ≤ y1)

/-- A sluice triangle's last word: KIND 2, and the bits below it cleared (R362, R363). -/
def sluiceWords (ws : List Word) : List Word :=
  (List.range 8).map fun i => let w := (ws[i]?).getD 0; if i = 7 then w &&& 0xC0FFFFFFFFFFFFFF else w

/-- One copy of a sluice triangle for each core whose tile meets BOX; the message leaves the send buffer as they do
(R171, R362, R363). -/
def execBsend (b : Fin 32) (s : State) : Result :=
  let words := sluiceWords (s.sendWords b true 2)
  .next <|
    if s.vMarked 0xF [b, b + 1] then s.faultPoison
    else
      s.sendMsg .bsend (Config.freeAddr s.fresh) s.cur.core 0 words fun t m =>
        let t := { t with fresh := t.fresh + 1 }
        match s.panOf s.cur.core with
        | none => t.dropMsg m
        | some l =>
          (l.tiles (boxOf ((words[3]?).getD 0))).foldl (fun (t : State) c =>
            let (id, t) := t.newId
            { t with msgs := t.msgs ++ [{ m with id := id, target := c }] }.post .inboxArrival { id := id }
              (sendLane m.sender m.ctx c 2)) (t.dropMsg m)

/-! ### Slots (R369, R370, R378) -/

/-- A row of a slot table changed where the core is; a saved core's change is made on its state page too (R332). -/
def State.modSlot (s : State) (l c i : Nat) (f : Slot → Slot) : State :=
  let j : Fin 6 := Fin.ofNat 6 i
  let s := s.modCoreOf l c fun k => { k with slots := k.slots.set j (f k.slots[j]) }
  match s.pageOf l c with
  | some a =>
    let x := (s.coreOf l c).slots[j]
    s.storeBytes (a + 0x2C0 + 16 * j.val)
      (natBytes x.id 4 ++ natBytes (match x.state with | .free => 0 | .filling => 1 | .resident => 2 | .evicting => 3) 4 ++
       natBytes x.count 2 ++ natBytes x.last 2 ++ natBytes 0 4)
  | none => s

def Core.slot (k : Core) (i : Nat) : Slot := k.slots[Fin.ofNat 6 i]

/-- The RESIDENT slot of a treelet (R369, R278). -/
def Core.slotOf (k : Core) (t id : Nat) : Option Nat :=
  (List.range t).find? fun i => decide ((k.slot i).state = .resident) && decide ((k.slot i).id = id)

/-- A slot is idle: RESIDENT, held by no context, and no ray for it waits (R370). -/
def Core.idle (k : Core) (i : Nat) : Bool :=
  let x := k.slot i
  decide (x.state = .resident) && (k.ctxs.toList.all fun c => !bitOf c.hold i) &&
  !((k.q0 ++ k.ov0).any fun e => decide (e.kind = 1) && decide (e.treelet = x.id))

/-- The treelet slots of a launch. -/
def State.slotsOf (s : State) (l : Nat) : Nat := ((s.launch? l).map fun x => x.r.treelets).getD 0

/-- Offset of a slot in ULM (R26). -/
def slotOffset (i : Nat) : Nat := 0x1C000 - 0x4000 * i

/-! ### A ray at a core (R278, R376) -/

/-- The issuing core's cache entry for an identifier goes (R278). -/
def State.uncache (s : State) (m : Msg) : State :=
  if s.live m.launch m.sender then
    s.modCore m.sender fun k => { k with scache := k.scache.filter fun h => decide (h.id ≠ m.treelet) }
  else s

/-- A ray reaches a core: its slot, a forwarding pointer, or the home (R278, R320, R332, R376, R378). -/
def execRayArrival (s : State) : Result :=
  .next <|
    match s.msg? s.ev.id with
    | none => s
    | some m =>
      if !s.accepts m.launch m.target then s.refuseMsg m
      else
        let k := s.coreOf m.launch m.target
        match k.slotOf (s.slotsOf m.launch) m.treelet with
        | some i =>
          match s.brineOrder 7 m.launch m.target m.sender m.ctx 0 with
          | none => s.post .rayArrival s.ev
          | some t =>
            ((t.dropMsg m).modSlot m.launch m.target i fun x => { x with count := min 0xFFFF (x.count + 1) }).pushPort
              m.launch m.target .q0 { words := (m.setFlag0 false).words, marks := m.marks }
        | none =>
          let s := (s.leaveBuffer m).uncache m
          match k.fptrs.find? fun p => decide (p.1 = m.treelet) && !m.flag0 with
          | some p => (s.modMsg m.id fun m => { m.setFlag0 true with target := p.2 }).post .rayArrival { id := m.id }
          | none => (s.modMsg m.id fun m => m.setFlag0 false).post .rayAtHome { id := m.id }

/-! ### A ray at its home (R276, R366, R371, R374) -/

/-- A ray waits: held at the home, or at the agent of the die. -/
def State.holdRay (s : State) (die : Nat) (m : Msg) : State :=
  { s.dropMsg m with rays := s.rays ++ [(die, m)] }

/-- A held ray waits at the agent of its die: its treelet has no home entry (R374). One with an entry is held by the home
for a replica that leaves. -/
def State.atAgent (s : State) (r : Nat × Msg) : Bool := (s.home? r.2.launch r.2.treelet).isNone

/-- Places for waiting rays of a die: 256, and its sixteenth of the paging agent area (R374, R410). -/
def State.agentRoom (s : State) : Nat :=
  let log := (s.hostRegs.pagbase.extractLsb' 0 5).toNat
  256 + if 20 ≤ log ∧ log ≤ 36 then 2 ^ log / 16 / 64 else 0
def State.areaBase (s : State) : Nat := (s.hostRegs.pagbase.extractLsb' 20 32).toNat * 2 ^ 20

/-- The page-in under way for a treelet of a launch. -/
def State.pageIn? (s : State) (l id : Nat) : Option PageIn :=
  s.pageIns.find? fun p => decide (p.launch = l) && decide (p.treelet = id)
def State.modPageIn (s : State) (id : Nat) (f : PageIn → PageIn) : State :=
  { s with pageIns := s.pageIns.map fun p => if p.id = id then f p else p }
def State.startPageIn (s : State) (p : PageIn) : State :=
  { s with pageIns := s.pageIns ++ [p] }.post .pageIn { id := p.id }

/-- A ray reaches the saltern home of its treelet (R276, R366, R374, R379). -/
def execRayAtHome (s : State) : Result :=
  .next <|
    match s.msg? s.ev.id with
    | none => s
    | some m =>
      match s.launch? m.launch with
      | none => s.dropMsg m
      | some l =>
        let id := m.treelet
        let die := homeDie id l.corner
        let s := s.leaveBuffer m
        match s.home? l.id id with
        | some h =>
          if h.leaving.contains (h.pick m.rayId) then s.holdRay die m
          else
            ((s.modMsg m.id fun x => { x with target := (h.pick m.rayId).1 }).post .rayArrival { id := m.id }).post
              .salternCacheFill { launch := l.id, core := m.sender, home := some { h with leaving := [], sum := 0, lastSum := 0 } }
        | none =>
          match l.cat with
          | none => (s.dropMsg m).endLaunchWith l.id Cause.launchbad (BitVec.ofNat 64 id)
          | some (_, count, _) =>
            if count ≤ id then (s.dropMsg m).endLaunchWith l.id Cause.launchbad (BitVec.ofNat 64 id)
            else if s.agentRoom ≤ (s.rays.filter fun r => decide (r.1 = die) && s.atAgent r).length then
              (s.dropMsg m).endLaunchWith l.id Cause.launchbad (BitVec.ofNat 64 s.areaBase)
            else
              let s := s.holdRay die m
              if (s.pageIn? l.id id).isSome then s
              else
                let (n, s) := s.newId
                s.startPageIn { id := n, launch := l.id, treelet := id, replica := false, initial := false }

/-- The rays that wait for a treelet go on, in arrival order (R374). -/
def State.releaseRays (s : State) (l id : Nat) : State :=
  let mine := s.rays.filter fun r => decide (r.2.launch = l) && decide (r.2.treelet = id)
  mine.foldl (fun (s : State) r =>
      { s with msgs := s.msgs ++ [r.2] }.post .rayAtHome { id := r.2.id } (2 ^ 50 + r.1 + 1))
    { s with rays := s.rays.filter fun r => !(decide (r.2.launch = l) && decide (r.2.treelet = id)) }

/-! ### Paging (R367, R374, R375) -/

/-- A catalogue entry (R367). -/
structure CatEntry where
  image : Nat
  xr : Nat
  yr : Nat
  place : Nat
  maxrep : Nat
  cut : Nat
  bad : Bool
  deriving DecidableEq, Repr

def catEntry (bs : List Byte) (t : Nat) : CatEntry :=
  let place := getN bs 10 1
  { image := getN bs 0 8, xr := getN bs 8 1, yr := getN bs 9 1, place := place, maxrep := getN bs 11 1, cut := getN bs 24 8,
    bad := decide (getN bs 0 8 % 4096 ≠ 0) || decide (16 ≤ place) || !zeroAt bs 12 4 ||
      decide (getN bs 11 1 = 0) || decide (4 < getN bs 11 1) || decide (t ≤ place % 8) }
def CatEntry.init (e : CatEntry) : Bool := e.place.testBit 3

/-- The address of a treelet's catalogue entry (R366). -/
def Launch.catVa (l : Launch) (id : Nat) : Nat := ((l.cat.map fun c => c.1).getD 0) + 32 * id

/-- The catalogue entry of a page-in read and checked (R367). -/
inductive CatGot where
  | entry (e : CatEntry)
  | bad (c : Cause) (kaddr : Nat)
  | wait
  deriving DecidableEq, Repr

/-- The entry is read and checked; that its IMAGE is 0 counts first (R366, R367; DEDUCED, log 24). -/
def State.readCat (s : State) (a : Asker) (l : Launch) (id noImage : Nat) (init : Bool) : CatGot × State :=
  let va := l.catVa id
  match s.engineRead a va 32 with
  | (.data bs true, s) => let _ := bs; (.bad Cause.poison va, s)
  | (.data bs false, s) =>
    let e := catEntry bs l.r.treelets
    if init ∧ !e.init then (.entry e, s)
    else if e.image = 0 then (.bad Cause.launchbad noImage, s)
    else if l.r.treelets = 0 ∨ e.bad then (.bad Cause.launchbad va, s)
    else (.entry e, s)
  | (.fail c _, s) => (.bad c va, s)
  | (.wait, s) => (.wait, s)

/-- The asker of a page-in. -/
def PageIn.asker (p : PageIn) (l : Launch) : Asker :=
  { req := p.id, task := { op := .pageIn, arg := { id := p.id }, lane := 0 }, launch := l.id, pasid := l.pasid }

/-- The cores an agent examines, in scan order (R375). -/
def Launch.scan (l : Launch) (id reps : Nat) (replica : Bool) : List Nat :=
  let n := l.width * l.height
  let start := (salternHash id l.corner + if replica then 8 * reps else 0) % n
  (List.range (min 64 n)).map fun i =>
    let q := (start + i) % n
    l.corner + 256 * (q / l.width) + q % l.width

/-- The count of R375: a slot filled less than one full heat period ago counts as 0xFFFF. -/
def State.slotHeat (s : State) (c : Nat) (x : Slot) : Nat :=
  if (s.kcycle c - x.stamp).toNat < 65536 then 0xFFFF else x.last

/-- The slot an agent takes: the first FREE one in scan order, else the idle one of the least count (R375). -/
def State.chooseSlot (s : State) (l : Launch) (p : PageIn) : Option (Nat × Nat) :=
  let reps := ((s.home? l.id p.treelet).map fun h => h.reps).getD []
  let cores := (l.scan p.treelet reps.length p.replica).filter fun c =>
    s.live l.id c && !(p.replica && reps.any fun r => decide (r.1 = c))
  let all := cores.flatMap fun c => (List.range l.r.treelets).map fun i => (c, i)
  match all.find? fun x => decide (((s.core x.1).slot x.2).state = .free) with
  | some x => some x
  | none =>
    (all.filter fun x => (s.core x.1).idle x.2 && !p.skip.contains x).foldl (fun b x =>
      match b with
      | none => some x
      | some b => if s.slotHeat x.1 ((s.core x.1).slot x.2) < s.slotHeat b.1 ((s.core b.1).slot b.2) then some x else some b) none

/-- A replica is marked leaving at its home, and its core is asked (R374). -/
def State.beginEviction (s : State) (l : Nat) (c i : Nat) (page : Nat) : State :=
  let id := ((s.core c).slot i).id
  let s := s.modHome l id fun h => { h with leaving := (c, i) :: h.leaving }
  s.post .evictionIdleCheck { launch := l, core := c, n := i, m := id, id := page }

/-- The home entries of a die. -/
def State.dieHomes (s : State) (die : Nat) : List Home := (s.homes.filter fun h => decide (h.1 = die)).map Prod.snd

/-- The entry with the lowest last-period sum (R371). -/
def coldest : List Home → Option Home
  | [] => none
  | h :: l =>
    match coldest l with
    | none => some h
    | some g => if g.lastSum < h.lastSum then some g else some h

/-- Every replica of the coldest entry of a full table is to leave (R371). -/
def State.evictColdest (s : State) (table : List Home) : State :=
  match coldest table with
  | some h => if h.leaving = [] then h.reps.foldl (fun (s : State) r => s.beginEviction h.launch r.1 r.2 0) s else s
  | none => s

/-- A choice or an answer of a paging agent under Brine (R378, R436). -/
def placeWord (x : Option (Nat × Nat)) : Word :=
  match x with
  | some (c, i) => BitVec.ofNat 64 (c * 8 + i)
  | none => BitVec.allOnes 64
def placeOf (w : Word) : Option (Nat × Nat) :=
  if w = BitVec.allOnes 64 then none else some (w.toNat / 8 % 2 ^ 16, w.toNat % 8)

/-- A page-in gives up: its launch ends. -/
def State.failPageIn (s : State) (p : PageIn) (c : Cause) (kaddr : Nat) : State :=
  { s with pageIns := s.pageIns.filter fun x => decide (x.id ≠ p.id) }.endLaunchWith p.launch c (BitVec.ofNat 64 kaddr)

/-- A page-in without a slot chooses one (R371, R374, R375). -/
def State.pagePlace (s : State) (l : Launch) (p : PageIn) : State :=
  let again (s : State) : State := s.post .pageIn { id := p.id }
  if l.r.treelets = 0 then s.failPageIn p Cause.launchbad p.treelet
  else if p.evicting then s
  else
    match s.readCat (p.asker l) l p.treelet p.treelet false with
    | (.bad c a, s) => s.failPageIn p c a
    | (.wait, s) => s
    | (.entry e, s) =>
      let reps := ((s.home? l.id p.treelet).map fun h => h.reps.length).getD 0
      let die := homeDie p.treelet l.corner
      let table := s.dieHomes die
      if p.replica ∧ e.maxrep ≤ reps then { s with pageIns := s.pageIns.filter fun x => decide (x.id ≠ p.id) }
      else if reps = 0 ∧ 65536 ≤ table.length then
        again (s.evictColdest table)
      else
        match s.brineAnswer l.id 5 (BitVec.ofNat 64 p.treelet) (placeWord (s.chooseSlot l p)) with
        | none => again s
        | some (w, s) =>
          match placeOf w with
          | none => s
          | some (c, i) =>
            if ((s.core c).slot i).state = .free then
              again ((s.modCore c fun k =>
                { k with slots := k.slots.set (Fin.ofNat 6 i) { id := p.treelet, state := .filling } }).modPageIn p.id fun p =>
                  { p with place := some (c, i) })
            else (s.modPageIn p.id fun p => { p with evicting := true }).beginEviction l.id c i p.id

/-- A header that a fill rejects (R271, R367). Byte 40 is not among what R367 checks, and a header with another value there is
accepted: DESIGN CHOICE, log 70. -/
def headerBad (bs : List Byte) (id : Nat) : Bool :=
  decide (getN bs 0 4 ≠ id) || !zeroAt bs 41 23 || decide (2 < getN bs 8 1) || decide (getN bs 9 1 = 0) ||
  decide (127 < getN bs 9 1)

/-- Bytes from main memory landed in a slot, with the poison of their sectors, once its port is free (R49). -/
def State.fillPart (s : State) (l : Launch) (p : PageIn) (c i va n off : Nat) (check : List Byte → Bool) : State :=
  match s.placesOf (p.asker l) false (granuleParts va n) with
  | (.at_ ps, s) =>
    let bs := ps.flatMap fun q => memBytes s.mem q.1 q.2
    let sectorBad (j : Nat) : Bool :=
      (((ps.flatMap fun q => (List.range q.2).map fun d => q.1 + d).drop (32 * j)).take 32).any fun a => s.poisoned a
    if check bs then s.failPageIn p Cause.launchbad va
    else if s.portBusy l.id c then s.postStart (s.ticks + 1) .pageIn { id := p.id }
    else
      match s.landAt l.id c (slotOffset i + off) bs sectorBad with
      | some s => (s.modPageIn p.id fun p => { p with next := p.next + 1 }).post .pageIn { id := p.id }
      | none => s.post .pageIn { id := p.id }
  | (.fail c _, s) => s.failPageIn p c va
  | (.wait, s) => s

/-- A saturating count of a catalogue entry goes up; an update that cannot be made is dropped (R367, R378). False while
the translation of a host page is asked for: the update is to be tried again. -/
def State.countCat (s : State) (l : Launch) (id off n : Nat) : Bool × State :=
  if n = 0 ∨ l.cat.isNone then (true, s)
  else
    match s.quietWrite l.pasid (l.catVa id + off) with
    | (.at_ pa, s) => (true, if s.poisoned pa then s else s.storeNat pa 4 (min (2 ^ 32 - 1) (s.loadNat pa 4 + n)))
    | (.asked, s) => (false, s)
    | (_, s) => (true, s)

/-- RAYS of a treelet goes up, at once or as soon as its page is translated (R378). -/
def State.countRays (s : State) (l : Launch) (id n : Nat) : State :=
  match s.countCat l id 16 n with
  | (true, s) => s
  | (false, s) => s.post .heatPeriodEnd { launch := l.id, flag := true, m := id, n := n }

/-- A page-in that has its slot: four pages of the image, then the CUT bytes, then PAGES (R374). -/
def State.pageFill (s : State) (l : Launch) (p : PageIn) (c i : Nat) : State :=
  match s.readCat (p.asker l) l p.treelet (if p.initial then l.catVa p.treelet else p.treelet) false with
  | (.bad x a, s) => s.failPageIn p x a
  | (.wait, s) => s
  | (.entry e, s) =>
    if p.next < 4 then
      s.fillPart l p c i (e.image + 4096 * p.next) 4096 (4096 * p.next) fun bs => decide (p.next = 0) && headerBad bs p.treelet
    else if p.next = 4 ∧ e.cut ≠ 0 then s.fillPart l p c i e.cut 64 64 fun _ => false
    else
      match if p.initial then (true, s) else s.countCat l p.treelet 20 1 with
      | (true, s) => (s.modPageIn p.id fun p => { p with counted := true }).post .treeletFillComplete { id := p.id }
      | (false, s) => s.post .pageIn { id := p.id }

/-- A page-in goes on (R340, R368, R374). An initial one waits for its core to be set up. -/
def execPageIn (s : State) : Result :=
  .next <|
    match s.pageIns.find? fun p => decide (p.id = s.ev.id) with
    | none => s
    | some p =>
      match s.launch? p.launch with
      | none => s
      | some l =>
        if p.counted then s
        else match p.place with
        | none => s.pagePlace l p
        | some (c, i) =>
          if !s.accepts l.id c then
            if p.initial then s.post .pageIn s.ev
            else (s.modPageIn p.id fun p => { p with place := none, next := 0 }).post .pageIn s.ev
          else
            let s := if p.initial ∧ p.next = 0 then
                s.modSlot l.id c i fun x => { x with id := p.treelet, state := .filling }
              else s
            s.pageFill l p c i

/-- A page-in whose eviction has ended goes on. -/
def State.pageGoesOn (s : State) (page : Nat) (f : PageIn → PageIn) : State :=
  match s.pageIns.find? fun p => decide (p.id = page) with
  | some p => (s.modPageIn p.id fun p => { f p with evicting := false }).post .pageIn { id := p.id }
  | none => s

/-- One mark of a leaving replica goes. -/
def State.unmarkLeaving (s : State) (l id : Nat) (at_ : Nat × Nat) : State :=
  s.modHome l id fun h => { h with leaving := h.leaving.erase at_ }

/-- The home removes a replica, or the entry with its last one, and lets the held rays go; the slot is for the page-in
that asked, or FREE (R371, R374). -/
def State.removeReplica (s : State) (l id : Nat) (at_ : Nat × Nat) (page : Nat) : State :=
  let others := (((s.home? l id).map fun h => h.reps).getD []).filter fun r => decide (r ≠ at_)
  let s : State := if others = [] then
      { s with homes := s.homes.filter fun h => !(decide (h.2.launch = l) && decide (h.2.id = id)) }
    else (s.unmarkLeaving l id at_).modHome l id fun h => { h with reps := others }
  let s := s.modSlot l at_.1 at_.2 fun _ =>
    match s.pageIns.find? fun p => decide (p.id = page) with
    | some p => { id := p.treelet, state := .filling }
    | none => {}
  (s.pageGoesOn page fun p => { p with place := some at_ }).releaseRays l id

/-- The core of a replica that leaves answers whether its slot is idle. If it is, the slot is EVICTING and a pointer leads
to another replica; the home then takes the replica away (the event comes again with its flag). If not, the home
keeps it and lets the held rays go (R374, R376, R436). -/
def execEvictionIdleCheck (s : State) : Result :=
  let l := s.ev.launch
  let c := s.ev.core
  let i := s.ev.n
  let id := s.ev.m
  let loc : Word := placeWord (some (c, i))
  let idle := s.live l c && (s.core c).idle i && decide (((s.core c).slot i).id = id)
  .next <|
    if s.ev.flag then s.removeReplica l id (c, i) s.ev.id
    else match s.brineAnswer l 6 loc (ofBool 64 idle) with
    | none => s.post .evictionIdleCheck s.ev
    | some (w, s) =>
      if w = 1 then
        let others := (((s.home? l id).map fun h => h.reps).getD []).filter fun r => decide (r ≠ (c, i))
        let s := match others with
          | r :: _ => s.modCore c fun k => { k with fptrs := (k.fptrs ++ [(id, r.1)]).drop (k.fptrs.length + 1 - 8) }
          | [] => s
        (s.modSlot l c i fun x => { x with state := .evicting }).post .evictionIdleCheck { s.ev with flag := true }
      else
        ((s.unmarkLeaving l id (c, i)).pageGoesOn s.ev.id fun p => { p with skip := (c, i) :: p.skip }).releaseRays l id

/-- A fill is complete: the slot is RESIDENT, the home has the entry, and the waiting rays go on (R369, R372, R374, R377). -/
def execTreeletFillComplete (s : State) : Result :=
  .next <|
    match s.pageIns.find? fun p => decide (p.id = s.ev.id) with
    | none => s
    | some p =>
      match s.launch? p.launch, p.place with
      | some l, some (c, i) =>
        let table := s.dieHomes (homeDie p.treelet l.corner)
        if (s.home? l.id p.treelet).isNone ∧ 65536 ≤ table.length then
          s.evictColdest table |>.post .treeletFillComplete s.ev
        else
        let stamp := s.kcycle l.corner
        let s := s.modSlot l.id c i fun _ => { id := p.treelet, state := .resident, stamp := stamp }
        let die := homeDie p.treelet l.corner
        let s : State := match s.home? l.id p.treelet with
          | some _ => s.modHome l.id p.treelet fun h => { h with reps := h.reps ++ [(c, i)] }
          | none => { s with homes := s.homes ++
              [(die, { id := p.treelet, pan := l.corner, launch := l.id, reps := [(c, i)], sum := 0, lastSum := 0 })] }
        let s : State := { s with pageIns := s.pageIns.filter fun x => decide (x.id ≠ p.id) }
        let s := if p.initial then s.modLaunch l.id fun x => { x with pinsLeft := x.pinsLeft - 1 } else s
        s.releaseRays l.id p.treelet
      | _, _ => s

/-! ### Initial pinning (R368) -/

/-- One catalogue entry after the other: an INIT entry starts its fill (R367, R368). -/
def execInitialPin (s : State) : Result :=
  .next <|
    match s.launch? s.ev.launch with
    | none => s
    | some l =>
      match l.cat with
      | none => s
      | some (_, count, _) =>
        let id := s.ev.n
        if count ≤ id then s.modLaunch l.id fun x => { x with pinsLeft := x.pinsLeft - 1 }
        else
          let a : Asker := { req := l.id, task := { op := .initialPin, arg := s.ev, lane := 0 }, launch := l.id, pasid := l.pasid }
          let next (s : State) : State := s.post .initialPin { launch := l.id, n := id + 1 }
          match s.readCat a l id (l.catVa id) true with
          | (.wait, s) => s
          | (.bad c a, s) => s.endLaunchWith l.id c (BitVec.ofNat 64 a)
          | (.entry e, s) =>
            let c := l.corner + 256 * e.yr + e.xr
            let taken := (s.homes.any fun h => decide (h.2.launch = l.id) && h.2.reps.contains (c, e.place % 8)) ||
              s.pageIns.any fun p => decide (p.launch = l.id) && decide (p.place = some (c, e.place % 8))
            if !e.init then next s
            else if l.width ≤ e.xr ∨ l.height ≤ e.yr ∨ taken then
              { s with fresh := s.fresh + 1 }.endLaunchWith l.id Cause.launchbad (Config.freeAddr s.fresh)
            else
              let (n, s) := s.newId
              let s := s.startPageIn { id := n, launch := l.id, treelet := id, replica := false, initial := true,
                                       place := some (c, e.place % 8) }
              next (s.modLaunch l.id fun x => { x with pinsLeft := x.pinsLeft + 1 })

/-! ### Heat (R377, R378) -/

/-- The heat period of a launch ends: counts roll over, the homes add them up, replicas are asked for, and page-ins
without a slot choose again (R375, R377, R378). With the flag it is one count of RAYS that waited for its page. -/
def execHeatPeriodEnd (s : State) : Result :=
  .next <|
    match s.launch? s.ev.launch with
    | none => s
    | some l =>
      if s.ev.flag then s.countRays l s.ev.m s.ev.n
      else
      let rows := (rectCores l.corner l.width l.height).flatMap fun c =>
        if s.accepts l.id c then (List.range l.r.treelets).map fun i => (c, i) else []
      let s := rows.foldl (fun (s : State) x => s.modSlot l.id x.1 x.2 fun y => { y with last := y.count, count := 0 }) s
      let mine := (s.homes.filter fun h => decide (h.2.launch = l.id)).map Prod.snd
      let s := mine.foldl (fun (s : State) h =>
        let n := (h.reps.map fun r => ((s.coreOf l.id r.1).slot r.2).last).sum
        let s := s.modHome l.id h.id fun h => { h with sum := h.sum + n, lastSum := n }
        let s := s.countRays l h.id n
        let thr := (l.cat.map fun c => c.2.2).getD 0
        if thr ≠ 0 ∧ 64 * thr ≤ n ∧ h.reps.length < 4 ∧ (s.pageIn? l.id h.id).isNone then
          let (id, s) := s.newId
          s.startPageIn { id := id, launch := l.id, treelet := h.id, replica := true, initial := false }
        else s) s
      let s := (s.pageIns.filter fun p => decide (p.launch = l.id) && p.place.isNone && !p.evicting).foldl
        (fun (s : State) p => (s.modPageIn p.id fun p => { p with skip := [] }).postOnce .pageIn { id := p.id }) s
      s.post .heatPeriodEnd { launch := l.id }

end Sys2Proof.Machine
end

