-- ==== Sys2Proof/Machine/HostSide.lean ====
section
/-! DEFINITION. The host: register writes in BAR0 and in management, BAR2, the invalidation tail and the PRI reset (R9,
R308, R408 to R412, R451). -/

namespace Sys2Proof.Machine

/-! ### Registers (R9, R308, R410, R451) -/

/-- Bits hi to lo of a value, in place. -/
def bitsAt (hi lo : Nat) (v : Word) : Word := (v.extractLsb' lo (hi + 1 - lo)).setWidth 64 <<< lo

/-- A base with a log below it, as a register holds them. -/
def baseLog (hi lo : Nat) (v : Word) : Word := bitsAt hi lo v ||| bitsAt 4 0 v

/-- The device is in service: BAR0 decodes (R445, R449). -/
def State.serving (s : State) : Bool := decide (s.power = .service)

/-- A launch holds cores. -/
def Launch.resident (l : Launch) : Bool :=
  decide (l.st = .granted) || decide (l.st = .started) || decide (l.st = .ending)

/-- The sweepers begin with the PASID table (R339). -/
def State.wakeSweepers (s : State) : State :=
  (List.range 16).foldl (fun (s : State) j => s.postOnce .sweeperHalving { die := j }) s

/-- A write of a channel register other than LPORT (R308). -/
def State.writeChannel (s : State) (ch o : Nat) (v : Word) : State :=
  match o with
  | 0x08 =>
    let s := s.modChannel ch fun c => { c with cfg := v &&& 0x037FFFFF }
    if (s.channel ch).en then s.postOnce .launchValidate { source := .channel ch } else s
  | 0x10 => s.modChannel ch fun c => { c with
      rlost := if v.extractLsb' 32 16 = 0 then c.rlost else 0
      ovf := c.ovf && !bitOf v 16 }
  | 0x18 => s.modChannel ch fun c => { c with rrbase := baseLog 55 12 v }
  | 0x28 => s.modChannel ch fun c => { c with rrhead := v.setWidth 32 }
  | _ => s

/-- A write in BAR0 (R308, R409, R410). -/
def State.writeBar0 (s : State) (a : Nat) (v : Word) : State :=
  if 0x100000 ≤ a ∧ a < 0x140000 then s.writeChannel ((a - 0x100000) / 4096) (a % 4096) v
  else match a with
    | 0x1000 =>
      { s with hostRegs.ptab := bitsAt 51 12 v ||| BitVec.ofNat 64 (min 20 (v.extractLsb' 0 5).toNat) }.wakeSweepers
    | 0x1008 => if s.saves = [] then { s with hostRegs.spbase := bitsAt 51 18 v } else s
    | 0x1010 => if s.saves = [] then { s with hostRegs.spcnt := v.setWidth 32 } else s
    | 0x1018 => { s with hostRegs.iqbase := baseLog 51 12 v }.postOnce .invalidationStart {}
    | 0x1030 => if !(s.rays.any s.atAgent) then { s with hostRegs.pagbase := baseLog 51 20 v } else s
    | _ => s

/-- A write of BRCTL (R438, R440, R451). -/
def State.writeBrctl (s : State) (v : Word) : State :=
  let held := s.launches.any fun l => l.resident && decide (1 ≤ l.brine)
  { s with
    serials := 0
    mgmt.diverged := s.mgmt.diverged && !bitOf v 2
    mgmt.brlost := s.mgmt.brlost && !bitOf v 1
    mgmt.replay := if held then s.mgmt.replay else bitOf v 0 }

/-- A write of DBGCTL: the index, and the events its bits ask for (R451, R452). -/
def State.writeDbgctl (s : State) (v : Word) : State :=
  let ask (b : Nat) (i : Instr) (s : State) : State := if bitOf v b then s.post i {} else s
  ask 0 .dbgctlResume (ask 1 .dbgctlDump (ask 2 .dbgctlLoad (ask 4 .dbgctlStop { s with mgmt.dbgslot := v.extractLsb' 16 32 })))

/-- A write of a management register (R451). -/
def State.writeMgmt (s : State) (a : Nat) (v : Word) : State :=
  match a with
  | 0x008 => if s.launches.any Launch.resident then s else { s with mgmt.pkgnum := v.setWidth 10 }
  | 0x010 => { s with mgmt.errbase := baseLog 51 12 v }
  | 0x018 => { s with mgmt.lost := s.mgmt.lost &&& ~~~(v.extractLsb' 48 16) }
  | 0x020 => { s with mgmt.errhead := v.setWidth 32 }
  | 0x028 => { s with mgmt.brbase := baseLog 51 12 v }
  | 0x030 => s.writeBrctl v
  | 0x038 => if s.mgmt.replay then { s with mgmt.brtail := v.setWidth 32 }.lookAgain else s
  | 0x040 => if s.mgmt.replay then s else { s with mgmt.brhead := v.setWidth 32 }
  | 0x048 => { s with mgmt.attach := bitOf v 16, mgmt.dbgcore := v.setWidth 16 }
  | 0x050 => s.writeDbgctl v
  | 0x060 => { s with mgmt.ttrip := v.extractLsb' 16 8, mgmt.twarn := v.extractLsb' 8 8 }
  | _ => s

/-- A write of a register that has no row of its own: LPORT, IQTAIL, PMAP and WIDTHREQ are written by theirs (R9, R409,
R449, R451); and an update of board flash, written through management, which the next power-up reads (R446). -/
def execRegisterWrite (s : State) : Result :=
  let a := s.ev.addr
  let v := s.ev.value
  .next <|
    match s.ev.space with
    | .bar0 => if s.serving then s.writeBar0 a v else s
    | .management => if s.power = .off then s else s.writeMgmt a v
    | .flash => if s.power = .off then s else { s with flashNext := some s.ev.flash }

/-- What a host read of a channel register returns; LPORT is write-only (R9, R308). -/
def Channel.read (c : Channel) (o : Nat) : Word :=
  match o with
  | 0x08 => c.cfg
  | 0x10 => (c.rlost.setWidth 64 <<< 32) ||| (ofBool 64 c.ovf <<< 16) ||| BitVec.ofNat 64 (min 256 c.fifo.length)
  | 0x18 => c.rrbase
  | 0x20 => c.rrtail.setWidth 64
  | 0x28 => c.rrhead.setWidth 64
  | _ => 0

/-- What a host read in BAR0 returns: 0 for an offset that is not listed, and everywhere out of service (R9, R409, R410,
R449). A read changes nothing. -/
def State.readBar0 (s : State) (a : Nat) : Word :=
  if !s.serving then 0
  else if 0x100000 ≤ a ∧ a < 0x140000 then (s.channel ((a - 0x100000) / 4096)).read (a % 4096)
  else match a with
    | 0x1000 => s.hostRegs.ptab
    | 0x1008 => s.hostRegs.spbase
    | 0x1010 => s.hostRegs.spcnt.setWidth 64
    | 0x1018 => s.hostRegs.iqbase
    | 0x1020 => s.hostRegs.iqtail.setWidth 64
    | 0x1028 => s.hostRegs.iqhead.setWidth 64
    | 0x1030 => s.hostRegs.pagbase
    | 0x1038 => s.hostRegs.pmap
    | _ => 0

/-- LNKj of a port (R434, R451). -/
def LenboPort.lnk (q : LenboPort) : Word :=
  (q.retrain.setWidth 64 <<< 16) ||| (ofBool 64 q.up <<< 8) ||| BitVec.ofNat 64 (q.req % 16 * 16 + q.width % 16)

/-- REPAIRd of a die (R443, R451). -/
def Mgmt.repair (m : Mgmt) (d : Nat) : Word :=
  (ofBool 64 (bitOf m.repairOk d) <<< 16) ||| (m.unused[Fin.ofNat 8 d]).setWidth 64

/-- What a read of a management register returns: write-only bits read 0, offsets that are not listed read 0 (R9, R451). -/
def State.readMgmt (s : State) (a : Nat) : Word :=
  let m := s.mgmt
  if 0x080 ≤ a ∧ a < 0x0C0 ∧ a % 8 = 0 then m.repair ((a - 0x080) / 8)
  else if 0x100 ≤ a ∧ a < 0x180 ∧ a % 8 = 0 then (s.lenbo.port ((a - 0x100) / 8)).lnk
  else match a with
    | 0x000 => (ofBool 64 m.fatal <<< 20) ||| (m.therm.setWidth 64 <<< 16) ||| (ofBool 64 m.repairFail <<< 8) |||
        (m.stage.setWidth 64 <<< 4) ||| (ofBool 64 m.bootFail <<< 1) ||| ofBool 64 m.ready
    | 0x008 => m.pkgnum.setWidth 64
    | 0x010 => m.errbase
    | 0x018 => (m.lost.setWidth 64 <<< 48) ||| m.errtail.setWidth 64
    | 0x020 => m.errhead.setWidth 64
    | 0x028 => m.brbase
    | 0x030 => (ofBool 64 m.diverged <<< 2) ||| (ofBool 64 m.brlost <<< 1) ||| ofBool 64 m.replay
    | 0x038 => m.brtail.setWidth 64
    | 0x040 => m.brhead.setWidth 64
    | 0x048 => (ofBool 64 m.attach <<< 16) ||| m.dbgcore.setWidth 64
    | 0x050 => (m.dbgslot.setWidth 64 <<< 16) ||| (ofBool 64 m.dbghalted <<< 3)
    | 0x058 => m.dbgword
    | 0x060 => (m.ttrip.setWidth 64 <<< 16) ||| (m.twarn.setWidth 64 <<< 8) ||| m.tmax.setWidth 64
    | _ => 0

/-! ### The other accesses of the host -/

/-- A write of IQTAIL: taken unless the ring would hold more than its entries (R410). -/
def execIqtail (s : State) : Result :=
  let t : BitVec 32 := s.ev.value.setWidth 32
  let log := (s.hostRegs.iqbase.extractLsb' 0 5).toNat
  .next <|
    if !s.serving ∨ 2 ^ log < (t - s.hostRegs.iqhead).toNat then s
    else { s with hostRegs.iqtail := t }.postOnce .invalidationStart {}

/-- A host access through BAR2 to device memory; a read changes nothing, a write stores its bytes, and one whose data
arrive poisoned marks their sectors (R408, R428). -/
def execHostBar2Access (s : State) : Result :=
  let a := s.ev.addr
  let bs := s.ev.bytes
  .next <|
    if !s.serving ∨ !s.ev.flag ∨ 2 ^ 40 < a + bs.length then s
    else if s.ev.m = 1 then
      (List.range ((a % 32 + bs.length + 31) / 32)).foldl (fun (s : State) i => s.setPoison (a / 32 * 32 + 32 * i)) (s.storeBytes a bs)
    else s.storeClean a bs

/-- The host sets Reset and then Enable of the PRI capability, with an allocation: page requests start again; a request
before the package is ready gets the retry status and is not taken (R341, R342, R412, R445). -/
def execPriReset (s : State) : Result :=
  .next <|
    if s.power = .booting then s.retry
    else ({ s with hostRegs.priStopped := false, hostRegs.alloc := s.ev.n }).retryGroups

end Sys2Proof.Machine
end

