-- ==== Sys2Proof/Machine/Integrity.lean ====
section
/-! DEFINITION. Checks of stored data: corrected and uncorrectable errors, marks and poison, repeated corrections, the
package stop, and a replay that diverges (R425 to R432, R440). -/

namespace Sys2Proof.Machine

/-! ### Where a place is (R425, R433) -/

/-- The core that owns a structure; none for a stack, and for a structure with parity alone. -/
def coreOfPlace : Place → Option Nat
  | .g c _ _ => some c
  | .v c _ _ _ => some c
  | .p c _ _ => some c
  | .k c _ _ => some c
  | .acc c _ _ => some c
  | .maskEntry c _ _ => some c
  | .retEntry c _ _ => some c
  | .fifo c _ => some c
  | .rep c _ => some c
  | .queue c _ _ => some c
  | .send c _ _ => some c
  | .window c _ _ => some c
  | .fetch _ _ => none
  | .salternCache _ _ => none
  | .forward _ _ => none
  | .tlb _ => none
  | .ulm c _ => some c
  | .router c => some c
  | .residue c _ _ => some c
  | .llc _ => none
  | .hbm _ => none
  | .hart _ _ => none
  | .coreControl c => some c
  | .control _ => none
  | .distributor _ => none

/-- SOURCE, INDEX and ADDR of a record about a place (R433). -/
def recordOf : Place → Nat × Nat × Word
  | .llc pa => (1, stackOf pa, BitVec.ofNat 64 pa)
  | .hbm pa => (1, stackOf pa, BitVec.ofNat 64 pa)
  | .control w => (4, 0, BitVec.ofNat 64 w)
  | .distributor w => (4, 0, BitVec.ofNat 64 w)
  | .ulm c o => (0, c, BitVec.ofNat 64 o)
  | p => (0, (coreOfPlace p).getD 0, 0)

/-! ### Corrected errors (R427) -/

/-- Corrections of a place counted, and a count set. -/
def State.corrected (s : State) (p : Place) : Nat := ((s.mgmt.corrections.find? fun x => decide (x.1 = p)).map Prod.snd).getD 0
def State.setCorrected (s : State) (p : Place) (n : Nat) : State :=
  { s with mgmt.corrections := (if n = 0 then [] else [(p, n)]) ++ s.mgmt.corrections.filter fun x => decide (x.1 ≠ p) }

/-- CECNT goes up by one, saturating (R432). -/
def Core.countCorrected (k : Core) : Core :=
  let n := k.kerr.extractLsb' 32 16
  { k with kerr := setElem 16 2 k.kerr (if n = BitVec.allOnes 16 then n else n + 1) }

/-- A corrected error: KERR.CE and CECNT of the owning core; the sixteenth at one place is an event of its own (R427). -/
def State.correct (s : State) (p : Place) : State :=
  let s := match coreOfPlace p with
    | some c => (s.setKerr c 0 0 0 0).modCore c Core.countCorrected
    | none => s
  let n := s.corrected p + 1
  let s := s.setCorrected p n
  if n = 16 then s.post .repeatedCorrection { place := p } else s

/-! ### Uncorrectable errors (R425, R428) -/

/-- The marks of an entry of a queue set. -/
def badEntry (n : Nat) (l : List QEntry) : List QEntry :=
  l.zipIdx.map fun x => if x.2 = n then { x.1 with marks := x.1.words.map fun _ => true } else x.1
def badHit (n : Nat) (l : List HitEntry) : List HitEntry :=
  l.zipIdx.map fun x => if x.2 = n then { x.1 with marks := x.1.words.map fun _ => true } else x.1

/-- A landing at core `d` lies behind an output of a router: behind the inject output all of them do. -/
def behind (router out d : Nat) : Bool :=
  match out with
  | 1 => decide (d / 256 < router / 256)
  | 2 => decide (router % 256 < d % 256)
  | 3 => decide (router / 256 < d / 256)
  | 4 => decide (d % 256 < router % 256)
  | 5 => decide (d = router)
  | _ => true

/-- The flit that stands in a router in this tick is marked, for its landings that are still to come from there; of a flit with one
landing that is this one (R255, R425). -/
def Group.badFlit (g : Group) (now router : Nat) : Group :=
  match g.uses.find? fun u => decide (u.router = router) && decide (u.tick = now) with
  | none => g
  | some u =>
    let alone := decide ((g.flits.countP fun f => decide (f.id = u.flit)) = 1)
    { g with flits := g.flits.map fun f =>
        if f.id = u.flit ∧ now < f.tick ∧ (alone ∨ behind router u.out f.target) then { f with mark := true } else f }

/-- A word of a window entry marked: of its answer, or of the data it takes to the receiver. -/
def WinEntry.marked (e : WinEntry) (w : Fin 4) : WinEntry :=
  match e.resp with
  | some r => { e with resp := some { r with mark := withBit r.mark w.val true } }
  | none => { e with mark := withBit e.mark w.val true }

/-- The datum marked or poisoned; an entry with parity alone is dropped and fetched again (R19, R85, R120, R149, R194, R425). -/
def State.markPlace (s : State) : Place → State
  | .g c x r => if r = 0 then s else s.modCtx c x fun y => { y with r.gMark := withBit y.r.gMark r.val true }
  | .v c x r l => s.modCtx c x fun y => { y with r.vMark := withBit y.r.vMark (4 * r.val + l.val) true }
  | .p c x r => if r = 0 then s else s.modCtx c x fun y => { y with r.pMark := withBit y.r.pMark r.val true }
  | .k c x n =>
    if !kAssigned n.val then s
    else if kPerCore n.val then s.modCore c fun k => { k with kMark := withBit k.kMark n.val true }
    else s.modCtx c x fun y => { y with k.mark := withBit y.k.mark n.val true }
  | .acc c r e => s.modCore c fun k => { k with accMark := withBit k.accMark (8 * r.val + e.val) true }
  | .maskEntry c x n => s.modCtx c x fun y => { y with f.stack := y.f.stack.set n { y.f.stack[n] with bad := true } }
  | .retEntry c x n => s.modCtx c x fun y => { y with f.retBad := withBit y.f.retBad n.val true }
  | .fifo c n => s.modCore c fun k =>
      { k with fifoBad := (k.fifoBad ++ List.replicate (k.fifo.length - k.fifoBad.length) false).set n true }
  | .rep c n => s.modCore c fun k => { k with rep := k.rep.map fun r =>
      if n < r.words.length then { r with bad := withBit r.bad n true } else r }
  | .queue c q n =>
    match q with
    | .q0 => s.modCore c fun k => { k with q0 := badEntry n k.q0 }
    | .q1 => s.modBed (bedOf c) fun b => { b with sorter := badHit n b.sorter }
    | .q2 => s.modCore c fun k => { k with q2 := badEntry n k.q2 }
    | .q3 => s.modCore c fun k => { k with q3 := badEntry n k.q3 }
  | .send c n w => match (s.core c).sends[n]? with
    | some id => { s with msgs := s.msgs.map fun m => if m.id = id then { m with marks := m.marks.set w true } else m }
    | none => s
  | .window c n w => s.modCore c fun k => { k with win := k.win.modify n (fun e => e.marked w) }
  | .fetch c x => s.modCtx c x fun y => { y with fbuf := [] }
  | .salternCache c n => s.modCore c fun k => { k with scache := k.scache.eraseIdx n }
  | .forward c n => s.modCore c fun k => { k with fptrs := k.fptrs.eraseIdx n }
  | .tlb n => { s with tlb := s.tlb.eraseIdx n }
  | .ulm c o => if o < 0x20000 then s.setPoison (ulmKey c o) else s
  | .llc pa => s.setPoison pa
  | .hbm pa => s.setPoison pa
  | .router c => s.modGroup (s.core c).group fun g => g.badFlit s.ticks c
  | .residue c x d =>
    match d with
    | .g r => if r = 0 then s else s.modCtx c x fun y => { y with r.gMark := withBit y.r.gMark r.val true }
    | .v r m => s.modCtx c x fun y => { y with r.vMark := setElem 4 r.val y.r.vMark (y.vBad r ||| m) }
    | .p r => if r = 0 then s else s.modCtx c x fun y => { y with r.pMark := withBit y.r.pMark r.val true }
    | .acc => s.modCore c fun k => { k with matOp := k.matOp.map fun m => { m with residue := true } }
  | .hart w r => s.modWalk w fun w => { w with gMark := if r = 0 then w.gMark else withBit w.gMark r.val true }
  | .coreControl _ => s
  | .control _ => s
  | .distributor _ => s

/-- Bit of KERR and class of an uncorrectable error (R432, R433). -/
def kerrOf : Place → Nat × Nat
  | .ulm _ _ => (1, 1)
  | .queue _ _ _ => (3, 3)
  | .send _ _ _ => (3, 3)
  | .window _ _ _ => (3, 3)
  | .residue _ _ _ => (4, 4)
  | .router _ => (5, 3)
  | .maskEntry _ _ _ => (6, 2)
  | .retEntry _ _ _ => (6, 2)
  | .fifo _ _ => (6, 2)
  | .rep _ _ => (6, 2)
  | _ => (2, 2)

/-- The package stops: no core issues; every resident launch ends as FABRIC, where the distributor's own state is intact;
MSTAT.FATAL, class 13, vector 64 (R431). From then on nothing leaves the package but these reports (`State.linkSend`,
`State.sealed`). -/
def State.packageStop (s : State) (intact : Bool) (where_ : Nat) : State :=
  let s : State := { s with
    cores := s.cores.map fun k => (k.1, { k.2 with run := if k.2.run = .free then .free else .stopped })
    mgmt.fatal := true, mgmt.noGrant := true, mgmt.hold := true }
  let s := (s.launches.filter fun l => intact && l.resident).foldl (fun (s : State) l =>
    s.endLaunchWith l.id Cause.fabric (BitVec.ofNat 64 where_)) s
  (s.errRecord 13 4 0 (BitVec.ofNat 64 where_) 0).sendMsix 64

/-- An uncorrectable error at a place: the mark, and KERR or a record of the stack (R425, R428, R432, R433). -/
def State.uncorrectable (s : State) (p : Place) : State :=
  match p with
  | .coreControl c => s.packageStop true c
  | .control w => s.packageStop true w
  | .distributor w => s.packageStop false w
  | .llc pa => (s.markPlace p).errRecord 5 1 (stackOf pa) (BitVec.ofNat 64 pa) 0
  | .hbm pa => (s.markPlace p).errRecord 6 1 (stackOf pa) (BitVec.ofNat 64 pa) 0
  | _ =>
    match coreOfPlace p with
    | some c => (s.markPlace p).setKerr c (kerrOf p).1 (kerrOf p).2 (recordOf p).2.2 0
    | none => s.markPlace p

/-- A new scrub period of a place begins: its corrections count from 0, once a sixteenth has been reported (R427). -/
def State.newPeriod (s : State) (p : Place) : State :=
  if s.pendingTask fun op a => decide (op = .repeatedCorrection) && decide (a.place = p) then s else s.setCorrected p 0

/-- A scrubber, or any access, checks a stored datum and rewrites it: clean, corrected or uncorrectable. A pass of the scrubber,
which `flag` tells from another access where it corrects, begins a new period for the place; a correction that it makes counts in
the new one (R426 to R428, R431; DESIGN CHOICE, log 72). -/
def execScrub (s : State) : Result :=
  .next <|
    match s.ev.outcome with
    | .clean => s.newPeriod s.ev.place
    | .corrected => (if s.ev.flag then s.newPeriod s.ev.place else s).correct s.ev.place
    | .uncorrectable => s.uncorrectable s.ev.place

/-- The sixteenth correction of one place in a period: a record of class 7 (R427). -/
def execRepeatedCorrection (s : State) : Result :=
  let p := s.ev.place
  let r := recordOf p
  .next (if s.corrected p < 16 then s else (s.setCorrected p 0).errRecord 7 r.1 r.2.1 r.2.2 0)

/-! ### Divergence (R440) -/

/-- A watch over a launch that replays: when no recorded entry was consumed since the watch was set, 10 ms have passed
without the next recorded event, and the launch ends; otherwise the watch is set again (R440). -/
def execBrineDivergence (s : State) : Result :=
  .next <|
    match s.launch? s.ev.launch with
    | none => s
    | some l =>
      if !s.mgmt.replay ∨ l.brine = 0 ∨ !l.runs then s
      else if s.ev.n ≠ s.mgmt.brhead.toNat then s.post .brineDivergence { launch := l.id, n := s.mgmt.brhead.toNat }
      else s.diverge l.id

end Sys2Proof.Machine
end

