-- ==== Sys2Proof/Machine/Debug.lean ====
section
/-! DEFINITION. The debugger: stopping a core, dumping and loading its slot, going on (R116, R222, R451, R452). -/

namespace Sys2Proof.Machine

/-- The core under debug. -/
def State.dbgCore (s : State) : Nat := s.mgmt.dbgcore.toNat

/-- The debugged core is halted for the debugger (R452). -/
def State.dbgStopped (s : State) : Bool := s.mgmt.attach && (s.core s.dbgCore).dbgHalt

/-- Where the debug slot stands (R452). -/
def State.dbgSlot (s : State) : Nat := s.poolBase + 2 ^ 18 * (s.hostRegs.spcnt.toNat + s.mgmt.dbgslot.toNat)

/-- STOP: the core halts at the instruction boundary where this step stands (R452). -/
def execDbgctlStop (s : State) : Result :=
  .next <|
    if s.mgmt.attach && (s.core s.dbgCore).run.up then
      if !(s.core s.dbgCore).atBoundary then s.post .dbgctlStop s.ev else
      { s.modCore s.dbgCore fun k => { k with dbgHalt := true } with mgmt.dbghalted := true }
    else s

/-- DUMP: the slot of the halted core is written (R329, R452). -/
def execDbgctlDump (s : State) : Result :=
  .next (if s.dbgStopped then s.writeSlot s.dbgCore s.dbgSlot else s)

/-- LOAD: the slot is installed in the halted core without reset; an image that `crest` would reject ends the launch
(R333, R452). -/
def execDbgctlLoad (s : State) : Result :=
  let c := s.dbgCore
  let old := s.core c
  let a := s.dbgSlot
  let page := memBytes s.mem (a + 0x2B000) 0x1000
  let img (i : Nat) : List Byte := memBytes s.mem (a + 0x20000 + 0x1000 * i) 0x1000
  let same := decide (memBytes s.mem a 0x1000 = memBytes s.mem (ulmKey c 0) 0x1000)
  .next <|
    if !s.dbgStopped then s
    else
      match installImages img old (List.range 11) { old.loaded page old with claim := none, rep := none, sup := old.sup && same } with
      | .error (cause, i) => s.post .launchEnd { launch := old.launch, info := ⟨cause, c, i, 0, 0, 0⟩ }
      | .ok k => (((s.copyBytes a (ulmKey c 0) 0x20000).setCore c k).pageInstalled c page).recheckParked c

/-- RESUME: the core issues again (R452). -/
def execDbgctlResume (s : State) : Result :=
  .next <|
    if s.dbgStopped then { s.modCore s.dbgCore fun k => { k with dbgHalt := false } with mgmt.dbghalted := false } else s

end Sys2Proof.Machine
end

