-- ==== Sys2Proof/Machine/Power.lean ====
section
/-! DEFINITION. Temperature, power-up with self-test and repair, resets, and the loss of power (R442 to R450, R454). -/

namespace Sys2Proof.Machine

/-! ### Temperature (R454) -/

/-- The hottest junction. -/
def State.heated (s : State) (t : Nat) : State := { s with mgmt.tmax := BitVec.ofNat 8 (min 255 t) }

/-- TMAX has reached TWARN: class 11, vector 64, and no more grants (R454). -/
def execThermalWarning (s : State) : Result :=
  let t := s.heated s.ev.n
  .next <|
    if t.mgmt.tmax < t.mgmt.twarn ∨ bitOf t.mgmt.therm 0 then t
    else ({ t with mgmt.noGrant := true, mgmt.therm := t.mgmt.therm ||| 1 }.errRecord 11 5 s.ev.die 0 0).sendMsix 64

/-- TMAX has reached TTRIP: class 12, and every launch is pre-empted and held (R454). -/
def execThermalTrip (s : State) : Result :=
  let t := s.heated s.ev.n
  .next <|
    if t.mgmt.tmax < t.mgmt.ttrip ∨ bitOf t.mgmt.therm 1 then t
    else
      let t := { t with mgmt.hold := true, mgmt.therm := t.mgmt.therm ||| 2 }.errRecord 12 5 s.ev.die 0 0
      (t.launches.filter Launch.resident).foldl (fun (t : State) l => t.post .preemptDelivery { launch := l.id }) t

/-- TMAX is below TWARN − 5: grants go on, and held launches are restored (R454). -/
def execThermalRecover (s : State) : Result :=
  let t := s.heated s.ev.n
  .next <|
    if t.mgmt.tmax.toNat + 5 < t.mgmt.twarn.toNat then
      { t with mgmt.noGrant := t.mgmt.fatal, mgmt.hold := t.mgmt.fatal, mgmt.therm := 0 }.lookAgain
    else t

/-! ### Power (R445, R449, R450) -/

/-- A byte or a sector of host memory, which the package does not hold (R335). -/
def hostKey (a : Nat) : Bool := decide (2 ^ 51 ≤ a) && decide (a < 2 ^ 52)

/-- A package without power: nothing of it is kept, the keys neither; host memory is the host's, board flash and what the
host and the management controller have been told stand on the board; what remains besides is the model's own, the count of
ticks, of free values and of identifiers (R446, R447, R450; log 1). -/
def State.dark (s : State) : State :=
  { ticks := s.ticks, fresh := s.fresh, nextId := s.nextId, power := .off, deviceKey := none, attestKey := none
    flash := s.flash, flashNext := s.flashNext, retries := s.retries, alerts := s.alerts
    mgmt := { stage := 0, ready := false, repairOk := 0, unused := Vector.replicate 8 0 }
    mem := s.mem.filter fun c => hostKey c.1
    poison := s.poison.filter fun k => hostKey (32 * k) }

/-- The package removes its power at TTRIP + 10, or when a trip's saves are not complete in time; the management controller
is alerted over I3C (R454). -/
def execThermalPowerOff (s : State) : Result :=
  let t := s.heated s.ev.n
  let late := bitOf t.mgmt.therm 1 && t.groups.any fun g => decide (g.2.st = .resident) || decide (g.2.st = .setup) ||
    ((decide (g.2.st = .preempted) || decide (g.2.st = .swapped)) && g.2.cores.any fun c => (t.core c).run.up &&
      decide ((t.core c).launch = g.2.launch))
  .next (if t.mgmt.ttrip.toNat + 10 ≤ t.mgmt.tmax.toNat ∨ late then { t.dark with alerts := t.alerts + 1 } else t)

/-- The external supply is removed (R450). -/
def execPowerOff (s : State) : Result := .next s.dark

/-- The failing columns of a die in one self-test, ascending (R443). -/
def failingColumns (boot die : Nat) : List Nat := (List.range 130).filter fun col => Config.failing boot die col

/-- The two unused columns of a die: the failing ones, and the highest working ones in the places that remain; none where
three or more fail (R443). -/
def unusedColumns (boot die : Nat) : Option (BitVec 16) :=
  let bad := failingColumns boot die
  let spare := ((List.range 130).reverse.filter fun col => !bad.contains col).take (2 - bad.length)
  let two := (bad ++ spare).mergeSort (fun a b => decide (b ≤ a))
  if 2 < bad.length then none else some (BitVec.ofNat 16 ((two[1]?.getD 0) * 256 + two[0]?.getD 0))

/-- The repair maps: REPAIRFAIL, and OK with both columns of each die (R443, R449). -/
def repaired (boot : Nat) (m : Mgmt) : Mgmt :=
  let ok (d : Nat) : Bool := (unusedColumns boot d).isSome
  { m with
    repairFail := !(List.range 8).all ok
    repairOk := (List.range 8).foldl (fun (x : BitVec 8) d => withBit x d (ok d)) 0
    unused := Vector.ofFn fun d : Fin 8 => (unusedColumns boot d.val).getD 0 }

/-- Power-up begins: the first step of R445, with nothing kept; an update of flash has taken effect (R442, R445, R446,
R450). -/
def State.boot (s : State) (epoch : BitVec 16) : State :=
  { s.dark with
    power := .booting, mgmt.stage := 1, lenbo := { epoch := epoch }, poweredAt := s.ticks
    flash := s.flashNext.getD s.flash, flashNext := none }.post .powerUp {}

/-- Bytes with their number before them, so that a body is read one way only (the model's own form, log 7). -/
def framed (bs : List Byte) : List Byte := natBytes bs.length 8 ++ bs

/-- The signed bytes of the firmware image and of the configuration record (R444, R446; log 7). -/
def imageBody (f : Config.Firmware) : List Byte := natBytes f.version 8 ++ f.code
def recordBody (r : Config.BoardRecord) : List Byte :=
  natBytes r.sku 8 ++ natBytes r.serial 8 ++ natBytes r.minVersion 8 ++ framed r.cert ++ framed r.wrapped ++ framed r.helper

/-- The key at the end of a chain, each key signed by the one before it (R446). -/
def chainKey : List Byte → List (List Byte × List Byte) → Option (List Byte)
  | key, [] => some key
  | key, (k, sig) :: rest => if Config.rsaPss key k sig then chainKey k rest else none

/-- A signature verifies: the root key has the digest ROM holds, the chain runs to the signing key, and that key signed the
body (R446). -/
def signedBy (c : Config.Signed) (body : List Byte) : Bool :=
  decide (Config.sha256 c.root = Config.rootDigest) && (chainKey c.root c.keys).any fun key => Config.rsaPss key body c.sig

/-- Image and record verify, and the image's version is not below the record's minimum (R446). -/
def flashVerifies (f : Config.BoardFlash) : Bool :=
  signedBy f.image.signed (imageBody f.image) && signedBy f.record.signed (recordBody f.record) &&
    decide (f.record.minVersion ≤ f.image.version)

/-- The device key of a power-up: the SHA-256 of the SRAM's pattern, corrected with the record's helper data (R447). -/
def deviceKeyOf (n : Nat) (f : Config.BoardFlash) : BitVec 256 :=
  Config.sha256 (Config.corrected (Config.sramPattern n) f.record.helper)

/-- The next step of power-up, when the present one is over: the device key is derived; images and key are verified; columns
are tested and repaired; firmware is loaded; the package is ready. A step that fails leaves the package out of service
(R442 to R449). -/
def State.bootNext (s : State) : State :=
  let n := s.fresh
  let go (s : State) : State := { s with mgmt.stage := s.mgmt.stage + 1 }.post .powerUp {}
  match s.mgmt.stage.toNat with
  | 1 => go s
  | 2 => go { s with fresh := n + 1, deviceKey := some (deviceKeyOf n s.flash) }
  | 3 =>
    match if flashVerifies s.flash then s.deviceKey.bind fun k => Config.unwrap k s.flash.record.wrapped else none with
    | some key => go { s with attestKey := some key }
    | none => { s with power := .unserviceable, mgmt.bootFail := true }
  | 4 =>
    let s : State := { s with fresh := n + 1, mgmt := repaired n s.mgmt }
    if s.mgmt.repairFail then { s with power := .unserviceable } else go s
  | _ => { s with power := .service, mgmt.stage := 6, mgmt.ready := true }

/-- The supply comes on, or a step of power-up is over (R445). -/
def execPowerUp (s : State) : Result :=
  .next (if s.power = .off then s.boot 0 else if s.power = .booting then s.bootNext else s)

/-- A fundamental reset runs power-up again and increments the epoch (R450). -/
def execFundamentalReset (s : State) : Result :=
  .next (if s.power = .off then s else s.boot (s.lenbo.epoch + 1))

/-- A Function Level Reset runs power-up again and increments the epoch; as a configuration request it gets the retry status
until the package is ready (R445, R450). -/
def execFunctionLevelReset (s : State) : Result :=
  .next (if s.power = .off then s else if s.power = .booting then s.retry else s.boot (s.lenbo.epoch + 1))

end Sys2Proof.Machine
end

