-- ==== Sys2Proof/Machine/Identity.lean ====
section
/-! DEFINITION. The SPDM responder (R446 to R448). Answers stand in a condensed form of the model's own: the version
and the response code, then what the manual says the answer carries (log 7). -/

namespace Sys2Proof.Machine

/-- A response: version 1.2, the response code, and its contents. -/
def spdmAnswer (code : Nat) (payload : List Byte) : List Byte := [0x12, BitVec.ofNat 8 code] ++ payload

/-- The bytes of a digest. -/
def digestBytes (d : BitVec 256) : List Byte := natBytes d.toNat 32

/-- A request answered where the exchange has come far enough; otherwise the error response. Without power nothing
answers (R448, R449). -/
def State.respond (s : State) (ready : Bool) (answer : List Byte) (next : Spdm → Spdm) : Result :=
  .next <|
    if s.power = .off then s
    else if ready then { s with spdm := { next s.spdm with answer := answer } }
    else { s with spdm.answer := spdmAnswer 0x7F [] }

/-- The digest of a measured thing: 0 the certificate chain, 1 the ROM, 2 the firmware image, 3 the configuration record;
4 the repair maps of all dies (R444, R446, R448). -/
def State.measure (s : State) (block : Nat) : BitVec 256 :=
  match block with
  | 0 => Config.sha256 s.flash.record.cert
  | 1 => Config.romDigest
  | 2 => Config.sha256 (imageBody s.flash.image)
  | 3 => Config.sha256 (recordBody s.flash.record)
  | _ => Config.sha256 ((List.range 8).flatMap fun d => natBytes (s.mgmt.repair d).toNat 8)

/-- GET_VERSION: version 1.2; an exchange begins anew (R448). -/
def execGetVersion (s : State) : Result :=
  s.respond true (spdmAnswer 0x04 [0x00, 0x12]) fun _ => { version := true }

/-- GET_CAPABILITIES: certificates, challenge, and measurements with signature; no sessions, key exchange, mutual
authentication or certificate setting (R448). -/
def execGetCapabilities (s : State) : Result :=
  s.respond s.spdm.version (spdmAnswer 0x61 (natBytes 0x16 4)) fun p => { p with caps := true }

/-- NEGOTIATE_ALGORITHMS: TPM_ALG_RSASSA_3072 and TPM_ALG_SHA_256, for both hashes (R448). -/
def execNegotiateAlgorithms (s : State) : Result :=
  s.respond s.spdm.caps (spdmAnswer 0x63 (natBytes 4 4 ++ natBytes 1 4 ++ natBytes 2 4)) fun p => { p with algs := true }

/-- GET_DIGESTS: the digest of the certificate chain (R448). -/
def execGetDigests (s : State) : Result :=
  s.respond s.spdm.algs (spdmAnswer 0x01 (digestBytes (s.measure 0))) id

/-- GET_CERTIFICATE: bytes of the record's certificate from an offset (R444, R448). -/
def execGetCertificate (s : State) : Result :=
  s.respond s.spdm.algs (spdmAnswer 0x02 ((s.flash.record.cert.drop s.ev.addr).take s.ev.n)) id

/-- CHALLENGE: the digest of the chain, and a signature with the attestation key over it and the nonce; without that key
nothing is signed (R447, R448). -/
def execChallenge (s : State) : Result :=
  s.respond (s.spdm.algs && s.attestKey.isSome)
    (spdmAnswer 0x03 (digestBytes (s.measure 0) ++ Config.sign (s.attestKey.getD []) (s.measure 0) s.ev.value.toNat)) id

/-- GET_MEASUREMENTS: the four blocks (R448). -/
def execGetMeasurements (s : State) : Result :=
  s.respond s.spdm.algs
    (spdmAnswer 0x60 ((List.range 4).flatMap fun i => natBytes (i + 1) 1 ++ digestBytes (s.measure (i + 1)))) id

end Sys2Proof.Machine
end

