-- ==== Sys2Proof/Machine/Matrix.lean ====
section
/-! DEFINITION. The matrix unit: the claim, shapes, the gang barrier, operations and their scales, the accumulator
moves, and the repetition buffer's own instructions (R18, R78, R79, R182 to R195). -/

namespace Sys2Proof.Machine

/-! ### Shapes (R185, R186) -/

/-- M, N, K and TY of a request or of KMSHAPE (R24, R186). -/
def shM (g : Word) : Nat := (g.extractLsb' 0 8).toNat
def shN (g : Word) : Nat := (g.extractLsb' 8 8).toNat
def shK (g : Word) : Nat := (g.extractLsb' 16 8).toNat
def shTy (g : Word) : Nat := (g.extractLsb' 24 4).toNat

/-- The K values of a type code (R185). -/
def kValues : Nat → List Nat
  | 0 => [1, 2]
  | 1 => [1, 2, 4, 8]
  | 2 => [8, 16]
  | 3 => [8, 16]
  | 4 => [8, 16, 32]
  | 5 => [8, 16, 32]
  | 6 => [8, 16, 32, 64]
  | 7 => [8, 16, 32]
  | 8 => [8, 16, 32]
  | 9 => [32]
  | 10 => [32]
  | 11 => [32, 64]
  | _ => []

/-- The element width of a type code, and twice its cycles for each k (R185). -/
def tyWidth : Nat → Nat
  | 0 => 64
  | 1 => 32
  | 2 => 16
  | 3 => 16
  | 6 => 4
  | 11 => 4
  | _ => 8
def tyHalfCycles : Nat → Nat
  | 0 => 64
  | 1 => 16
  | 2 => 4
  | 3 => 4
  | 6 => 1
  | 11 => 1
  | _ => 2

/-- Scales come from the FIFO (R185). -/
def tyScaled (ty : Nat) : Bool := decide (9 ≤ ty) && decide (ty ≤ 11)

/-- The largest value of a list not above a bound. -/
def largestUpTo (b : Nat) (l : List Nat) : Option Nat := (l.filter fun x => decide (x ≤ b)).max?

/-- The grant of a request (R186). -/
def shapeGrant (g : Word) : Word :=
  match largestUpTo (shM g) [1, 2, 4, 8], largestUpTo (shK g) (kValues (shTy g)) with
  | some m, some k =>
    if 8 ≤ shN g then BitVec.ofNat 64 (2 ^ 31 + shTy g * 2 ^ 24 + k * 2 ^ 16 + 8 * 2 ^ 8 + m) else 0
  | _, _ => 0

/-- KMSHAPE holds a shape that `mshape` could have granted (R188). -/
def shapeOk (g : Word) : Bool :=
  bitOf g 31 && (kValues (shTy g)).contains (shK g) && [1, 2, 4, 8].contains (shM g) && decide (shN g = 8)

/-- T of a shape, in cycles (R190). -/
def shapeTime (g : Word) : Nat := shK g * tyHalfCycles (shTy g) / 2

/-! ### Claims and captured words (R182, R184, R195) -/

/-- The word is being captured by the repetition buffer (R195). -/
def State.captured (s : State) : Bool :=
  match s.here.rep with
  | some r => decide (r.owner = s.cur.ctx) && r.capturing && decide (r.suspended = 0)
  | none => false

/-- A word that a capture refuses (R195). -/
def State.notCaptured (s : State) (body : State) : Result :=
  .next (if s.captured then s.faultOpen Cause.illop else body)

/-- The issuer holds the claim. -/
def State.claimed (s : State) : Bool := s.here.holds s.cur.ctx

/-- A claimed instruction takes a pending MDESYNC report, then checks the claim (R182, R192). -/
def State.claimedBody (s : State) (body : State) : Result :=
  .next (s.desyncFirst (if s.claimed then body else s.faultOpen Cause.claim))

/-- Ask for a shape (R186). -/
def execMshape (d a : Fin 32) (s : State) : Result :=
  s.notCaptured <|
    if s.src.gBad a then s.faultPoison
    else
      let g := shapeGrant (s.g a)
      (s.modCx fun x => { x with k.mshape := g }).setG d g

/-- Take the claim when it is free (R184). -/
def execMclaim (d : Fin 32) (s : State) : Result :=
  s.notCaptured <|
    match s.here.claim with
    | none => (s.modHere fun k => { k with claim := some s.cur.ctx }).setG d 1
    | some c => s.setG d (if c = s.cur.ctx then 1 else 0)

/-- Release the claim (R184). The owner of the repetition buffer, and a captured `mrel` or `repe`, take ILLOP before a pending
MDESYNC report, which R192 does not order; a `rep` takes the report first (DESIGN CHOICE, log 70). -/
def execMrel (s : State) : Result :=
  s.notCaptured <|
    if s.here.ownsRep s.cur.ctx then s.faultOpen Cause.illop
    else if !s.claimed then s
    else if s.here.matOp.isSome then s.stall .gang
    else s.desyncFirst <| s.modHere fun k =>
      { k with fifo := [], fifoBad := [], latch := none, claim := none }

/-! ### Accumulators (R193, R430) -/

/-- The accumulators an operation writes: that of d5, and for TY 0 its pair (R185). -/
def matAccs (d5 : Nat) (shape : Word) : List Nat := if shTy shape = 0 then [d5 / 8, d5 / 8 + 1] else [d5 / 8]

/-- An accumulator has an operation pending (R190). -/
def Core.accBusy (k : Core) (n : Nat) : Bool :=
  match k.matOp with
  | some m => (matAccs m.d5 m.shape).contains n
  | none => false

/-- The marks of the 8 elements of a row, and those marks replaced. -/
def Core.rowMarks (k : Core) (row : Fin 32) : BitVec 8 := elem 8 row.val k.accMark
def Core.setRow (k : Core) (row : Fin 32) (x : VReg) (marks : BitVec 8) : Core :=
  { k with acc := k.acc.set row x, accMark := setElem 8 row.val k.accMark marks }

/-- Bits set in a byte. -/
def marksIn (m : BitVec 8) : Nat := ((List.range 8).filter fun i => bitOf m i).length

/-- A row written whole: marks it clears count in KLATENT (R430). -/
def Core.writeRow (k : Core) (row : Fin 32) (x : VReg) (marks : BitVec 8) : Core :=
  (k.setRow row x marks).latent (marksIn (k.rowMarks row &&& ~~~marks))

/-- Each lane's mark on its two elements, and the other way (R193). -/
def lanesToElements (m : Mask) : BitVec 8 := (List.range 8).foldl (fun b i => withBit b i (bitOf m (i / 2))) 0
def elementsToLanes (b : BitVec 8) : Mask := (List.range 4).foldl (fun m l => withBit m l (bitOf b (2 * l) || bitOf b (2 * l + 1))) 0

/-- An accumulator cleared (R193). -/
def execMzero (n : Fin 32) (s : State) : Result :=
  s.claimedBody <|
    if n.val % 8 ≠ 0 then s.faultOpen Cause.illop
    else if s.here.accBusy (n.val / 8) then s.stall .other
    else s.modHere fun k => (List.range 8).foldl (fun k i => k.writeRow (n + Fin.ofNat 32 i) 0 0) k

/-- A row read (R193). -/
def execMrd (d n : Fin 32) (s : State) : Result :=
  s.claimedBody <|
    if s.here.accBusy (n.val / 8) then s.stall .other
    else s.setV d 0xF s.here.acc[n] (elementsToLanes (s.here.rowMarks n))

/-- A row written (R193). -/
def execMwr (n a : Fin 32) (s : State) : Result :=
  s.claimedBody <|
    if s.here.accBusy (n.val / 8) then s.stall .other
    else s.modHere fun k => k.writeRow n (s.v a) (lanesToElements (s.src.vBad a))

/-! ### Scales (R191) -/

/-- A scaled operation of the core has arrived or runs (R191). -/
def Core.scaledOp (k : Core) : Bool :=
  (k.arrival.map fun a => tyScaled (shTy a.shape)).getD false || (k.matOp.map fun m => tyScaled (shTy m.shape)).getD false

/-- A scale entry pushed (R191). -/
def execMsc (a : Fin 32) (s : State) : Result :=
  let shape := s.src.k.mshape
  s.claimedBody <|
    if !shapeOk shape || !tyScaled (shTy shape) then s.faultOpen Cause.mshape
    else if s.vMarked 0xF [a] then s.faultPoison
    else if 8 ≤ s.here.fifo.length then
      if s.here.scaledOp then s.stall .gang else s.fault Cause.mdesync 0
    else s.modHere fun k => { k with fifo := k.fifo ++ [s.v a], fifoBad := k.fifoBad ++ [false] }

/-! ### Gang issue (R187, R188) -/

/-- The source position and the offset of B in gB (R187). -/
def mgoPos (g : Word) : Nat := (g.extractLsb' 32 4).toNat
def mgoOff (g : Word) : Nat := (g.extractLsb' 0 17).toNat

/-- The cores of a gang that belong to a launch's pan, ascending (R187). -/
def State.gang (s : State) (l g : Nat) : List Nat :=
  ((List.range 16).map fun i => 16 * g + i).filter fun c => ((s.launch? l).map fun x => x.holds c).getD (s.live l c)

/-- A scale entry the operation would consume is uncorrectable (R429). -/
def Core.badScale (k : Core) (shape : Word) : Bool :=
  tyScaled (shTy shape) && ((k.fifoBad.take (shK shape / 32)).any id)

/-- Arrival at the gang barrier (R188). -/
def execMgo (n a b : Fin 32) (r : Bool) (s : State) : Result :=
  let shape := s.src.k.mshape
  s.claimedBody <|
    if !shapeOk shape ∨ 31 < a.val + shM shape - 1 ∨ (shTy shape = 0 ∧ n.val / 8 % 2 = 1) then s.faultOpen Cause.mshape
    else if n.val % 8 ≠ 0 then s.faultOpen Cause.illop
    else if s.src.gBad b || s.here.badScale shape then s.faultPoison
    else if mgoOff (s.g b) % 32 ≠ 0 then s.fault Cause.align (BitVec.ofNat 64 (mgoOff (s.g b)))
    else
      let arrival : Arrival :=
        { ctx := s.cur.ctx, off := s.cur.at_, next := s.cx.pc, d5 := n.val, a5 := a.val, gB := s.g b, keep := r,
          shape := shape, super := s.src.mode, replayed := s.cur.replay.isSome, read := none }
      ((s.modHere fun k => { k with arrival := some arrival }).joinUp).postStart (s.ticks + 1) .gangBarrierComplete
        { core := s.cur.core, group := gangOf s.cur.core, launch := s.here.launch }

/-- B of an operation: K × 8 elements (R187). -/
def bBytes (shape : Word) : Nat := shK shape * tyWidth (shTy shape)

/-- The arrivals agree (R188). -/
def Arrival.agrees (a b : Arrival) : Bool :=
  decide (shTy a.shape = shTy b.shape) && decide (shK a.shape = shK b.shape) && decide (mgoPos a.gB = mgoPos b.gB) &&
  decide (mgoOff a.gB = mgoOff b.gB)

/-- The check of the B read at the source core, in the mode of its claim holder (R163, R188, R230). -/
def State.bCheck (s : State) (src : Nat) (a : Arrival) : Check :=
  match (s.core src).localCheck a.super (mgoOff a.gB) (bBytes a.shape) { r := true } with
  | .ok =>
    if { s with cur.core := src, cur.ctx := a.ctx }.windowHeld (mgoOff a.gB) (bBytes a.shape) then .wait else .ok
  | .bad c x => if c = Cause.pagewait then .wait else .bad c x
  | .wait => .wait

/-- The participants that have arrived, where all have. -/
def State.arrivedAll (s : State) (l g : Nat) : Option (List Arrival) :=
  let cores := s.gang l g
  let arrivals := cores.filterMap fun c => if s.live l c then (s.core c).arrival else none
  if arrivals = [] ∨ arrivals.length ≠ cores.length then none else some arrivals

/-- The participants still stand at the barrier `id`: none has withdrawn (R207). -/
def State.atBarrier (s : State) (l g id : Nat) : Bool :=
  (s.gang l g).all fun c => s.live l c && decide (((s.core c).arrival.bind Arrival.read) = some id)

/-- The barrier `id` has completed with these participants. -/
def State.markBarrier (s : State) (l g id : Nat) : State :=
  (s.gang l g).foldl (fun s c => s.modCore c fun k =>
    { k with arrival := k.arrival.map fun a => { a with read := some id } }) s

/-- What starts the operation is known in this tick: the start is bound to the next tick, or to the tick in which the gang's
previous operation ends (R188, R264). `bad` is a mismatch or a failed read. -/
def State.bindStart (s : State) (bad : Bool) : State :=
  let free := ((s.gang s.ev.launch s.ev.group).map fun c => (((s.core c).matOp.map MatOp.endTick).getD 0)).foldl max 0
  s.postStart (max free (s.ticks + 1)) .matrixOpStart { s.ev with flag := bad }

/-- A sector of B is read at the source core's port, unless a landing has the port in this tick; the last one binds the start
(R263). The event holds what was read so far: `n` sectors of `m`. -/
def State.readSector (s : State) (src : Nat) (a : Arrival) : State :=
  if s.portTaken src then s.postStart (s.ticks + 1) .gangBarrierComplete s.ev
  else
    let key := ulmKey src (mgoOff a.gB + 32 * s.ev.n)
    let ev : EvArg := { s.ev with
      bytes := s.ev.bytes ++ memBytes s.mem key (min 32 (bBytes a.shape - 32 * s.ev.n)),
      value := withBit s.ev.value s.ev.n (s.poisoned key), n := s.ev.n + 1 }
    let s := ({ s with ev := ev } : State).modCore src fun k =>
      { k with arrival := k.arrival.map fun x => { x with port := some s.ticks } }
    if ev.n < ev.m then s.postStart (s.ticks + 1) .gangBarrierComplete ev else s.bindStart false

/-- The cycle after the last arrival: the barrier checks that the participants agree, and B is read, one sector in a tick. A
read that a copy holds waits; one that fails, or a mismatch, is MDESYNC (R188, R263). -/
def execGangBarrierComplete (s : State) : Result :=
  .next <|
    match s.arrivedAll s.ev.launch s.ev.group with
    | some (a :: rest) =>
      let src := 16 * s.ev.group + mgoPos a.gB
      if 0 < s.ev.n then
        match (s.core src).arrival with
        | some b => if s.atBarrier s.ev.launch s.ev.group s.ev.id then s.readSector src b else s
        | none => s
      else if (a :: rest).all fun x => x.read.isSome then s
      else
        let (id, s) := s.newId
        let begun (m : Nat) : State :=
          ({ s with ev := { s.ev with id := id, m := m } } : State).markBarrier s.ev.launch s.ev.group id
        match (s.core src).arrival with
        | some b =>
          if !(rest.all fun x => x.agrees a) || !(s.gang s.ev.launch s.ev.group).contains src then (begun 0).bindStart true
          else
            match s.bCheck src b with
            | .wait => s.postStart (s.ticks + 1) .gangBarrierComplete s.ev
            | .bad _ _ => (begun 0).bindStart true
            | .ok =>
              if s.portTaken src then s.postStart (s.ticks + 1) .gangBarrierComplete s.ev
              else (begun ((bBytes b.shape + 31) / 32)).readSector src b
        | none => (begun 0).bindStart true
    | _ => s

/-! ### Operations (R189 to R194) -/

/-- What the A side of an operation reads: the latch, or the registers; and the latch it leaves (R189). -/
def Core.aRows (k : Core) (a : Arrival) : List VReg × List Mask × Option Latch :=
  let x := k.ctxs[a.ctx]
  let fresh : List VReg × List Mask :=
    ((List.range (shM a.shape)).map fun i => x.v (Fin.ofNat 32 (a.a5 + i)),
     (List.range (shM a.shape)).map fun i => x.vBad (Fin.ofNat 32 (a.a5 + i)))
  let rows := match k.latch with
    | some l => if a.keep ∧ l.a5 = a.a5 then (l.rows, l.marks) else fresh
    | none => fresh
  (rows.1, rows.2, if a.keep then some { a5 := a.a5, rows := rows.1, marks := rows.2 } else none)

/-- The operation starts on a participant; its `mgo` has issued (R188, R189). -/
def State.startOn (s : State) (c : Nat) : State :=
  match (s.core c).arrival with
  | none => s
  | some a =>
    let r := (s.core c).aRows a
    let t := shapeTime a.shape
    let op : MatOp :=
      { id := s.ev.id, ctx := a.ctx, off := a.off, d5 := a.d5, shape := a.shape, rows := r.1, marks := r.2.1,
        b := s.ev.bytes, bMark := (List.range 16).map fun i => bitOf s.ev.value i, scales := [], blocks := 0,
        endTick := s.ticks + t, desync := s.ev.flag }
    let s := s.modCore c fun k => { k with matOp := some op, latch := r.2.2, arrival := some { a with started := true } }
    let s := s.joinDone c a.ctx a.next a.replayed
    let blocks := if tyScaled (shTy a.shape) then shK a.shape / 32 else 0
    let s := (List.range blocks).foldl (fun s i =>
      s.postStart (s.ticks + 16 * i * tyHalfCycles (shTy a.shape)) .scaleFifoConsume { core := c, id := op.id, n := i }) s
    s.postStart (s.ticks + t) .matrixOpEnd { core := c, id := op.id, launch := s.ev.launch, group := s.ev.group }

/-- The `mgo` has issued in this tick: its context may issue again from the next one (R188, R190). -/
def Core.mgoOver (k : Core) : Core :=
  { k with arrival := k.arrival.bind fun a => if a.started then none else some a }

/-- The operation starts on every participant in one tick, before anything else issues in it (R189, R263); at the end of the
tick the contexts go on. One whose participant has withdrawn does not start (R207). -/
def execMatrixOpStart (s : State) : Result :=
  let cores := s.gang s.ev.launch s.ev.group
  .next <|
    if s.ev.addr = 1 then cores.foldl (fun s c => s.modCore c Core.mgoOver) s
    else if !s.atBarrier s.ev.launch s.ev.group s.ev.id then s
    else if cores.any fun c => (s.core c).matOp.isSome then s.postStart (s.ticks + 1) .matrixOpStart s.ev
    else (cores.foldl State.startOn s).postAt s.ticks .matrixOpStart { s.ev with addr := 1 }

/-- The cores that run an operation. -/
def State.opCores (s : State) (id : Nat) : List Nat :=
  (s.cores.filter fun x => decide ((x.2.matOp.map MatOp.id) = some id)).map Prod.fst

/-- The operation of every participant is out of step (R192). -/
def State.desyncAll (s : State) (id : Nat) : State :=
  (s.opCores id).foldl (fun s d => s.modCore d fun k => { k with matOp := k.matOp.map fun o => { o with desync := true } }) s

/-- A block's scale entry is consumed; an empty FIFO makes the operation of every participant MDESYNC (R191, R192). An
uncorrectable entry, met when the `mgo` has issued already, stays in place; its core's claim holder takes POISON where it would
take the MDESYNC report (R429; DESIGN CHOICE, log 70). -/
def execScaleFifoConsume (s : State) : Result :=
  let c := s.ev.core
  .next <|
    match (s.core c).matOp with
    | none => s
    | some m =>
      if m.id ≠ s.ev.id then s
      else match (s.core c).fifo with
        | e :: rest =>
          if (s.core c).fifoBad.headD false then
            (s.modCore c fun k => { k with matOp := some { m with scaleBad := true } }).desyncAll m.id
          else s.modCore c fun k =>
            { k with fifo := rest, fifoBad := k.fifoBad.drop 1,
                     matOp := some { m with scales := m.scales ++ [e], blocks := m.blocks + 1 } }
        | [] => s.desyncAll m.id

/-- The floating format of the elements of a type code (R185). -/
def tyFmt : Nat → FloatFmt
  | 0 => fmtF64
  | 1 => fmtF32
  | 2 => fmtF16
  | 3 => fmtBf16
  | 5 => fmtE5m2
  | 10 => fmtE5m2
  | 6 => fmtE2m1
  | 11 => fmtE2m1
  | _ => fmtE4m3

/-- The code of element (r, k) of A and of element (k, c) of B (R187). The rows that a latch filled by fewer rows does not hold
read as 0, which R189 does not say (DESIGN CHOICE, log 70). -/
def MatOp.aCode (m : MatOp) (r k : Nat) : Nat :=
  let w := tyWidth (shTy m.shape)
  ((m.rows[r]?).getD 0).toNat >>> (w * k) % 2 ^ w
def MatOp.bCode (m : MatOp) (b k c : Nat) : Nat :=
  let w := tyWidth (shTy m.shape)
  b >>> (w * (8 * k + c)) % 2 ^ w

/-- The exponent of the scale of a row or a column in block k div 32; none is a NaN (R68, R189). -/
def MatOp.scale (m : MatOp) (i k : Nat) : Option Int :=
  if tyScaled (shTy m.shape) then
    let e := ((m.scales[k / 32]?).getD 0).toNat >>> (8 * i) % 256
    if e = 255 then none else some (e - 127)
  else some 0

/-- One product of R78 with its scales. 0 × ∞ raises NV whatever the scales are, 0xFF too: R68 and R78 do not say which of
the two comes first (DESIGN CHOICE, log 70). -/
def scaledProduct (a b : FVal) (sa sb : Option Int) : Option FVal :=
  (mulVal a b).map fun p =>
    match p, sa, sb with
    | .num n m e, some x, some y => .num n m (e + x + y)
    | .inf n, some _, some _ => .inf n
    | _, _, _ => .nan false

/-- The sum of a group, formed exactly and rounded once to f32 (R78). -/
def groupSum (ps : List (Option FVal)) : FRes :=
  let vs := ps.filterMap id
  let meet := (vs.any fun v => decide (v = .inf true)) && (vs.any fun v => decide (v = .inf false))
  if ps.any Option.isNone || meet then fmtF32.invalid
  else if vs.any FVal.isNan then ⟨fmtF32.nanCode, 0⟩
  else
    match vs.find? FVal.isInf with
    | some v => fmtF32.deliver {} v
    | none =>
      let base := vs.foldl (fun (b : Int) v => match v with
        | .num _ _ e => min b e
        | _ => b) 0
      let t : Int := vs.foldl (fun t v => match v with
        | .num n m e => t + signedAt n m e base
        | _ => t) 0
      let minus := vs.all fun v => v.isZero && v.neg
      fmtF32.round {} (if t = 0 then minus else decide (t < 0)) t.natAbs base

/-- One element after groups of eight (R78): its code, and the flags so far. -/
def MatOp.sumGroups (m : MatOp) (b r c : Nat) (acc : FRes) : FRes :=
  let f := tyFmt (shTy m.shape)
  (List.range (shK m.shape / 8)).foldl (fun (x : FRes) g =>
    let ks := (List.range 8).map fun i => 8 * g + i
    let ops := ks.map fun k => (f.value (m.aCode r k), f.value (m.bCode b k c))
    let ps := ks.zipWith (fun k o => scaledProduct o.1 o.2 (m.scale r k) (m.scale (8 + c) k)) ops
    let sum := groupSum ps
    let y := fmtF32.add {} (fmtF32.value x.code) (fmtF32.value sum.code)
    ⟨y.code, x.flags ||| sum.flags ||| y.flags ||| sigFlags (ops.flatMap fun o => [o.1, o.2])⟩) acc

/-- One element of an f32 or f64 operation: a fused multiply-add for each k (R79). -/
def MatOp.sumFused (m : MatOp) (f : FloatFmt) (b r c : Nat) (acc : FRes) : FRes :=
  (List.range (shK m.shape)).foldl (fun (x : FRes) k =>
    let y := f.fma {} (f.value (m.aCode r k)) (f.value (m.bCode b k c)) (f.value x.code)
    ⟨y.code, x.flags ||| y.flags⟩) acc

/-- One element of an i8 or n8 operation, modulo 2^32 (R79). -/
def MatOp.sumInt (m : MatOp) (signed : Bool) (b r c : Nat) (acc : Nat) : Nat :=
  let v (x : Nat) : Int := if signed ∧ 128 ≤ x then (x : Int) - 256 else x
  let t : Int := (List.range (shK m.shape)).foldl (fun t k => t + v (m.aCode r k) * v (m.bCode b k c)) acc
  (t % 2 ^ 32).toNat

/-- One element of the result (R78, R79). -/
def MatOp.element (m : MatOp) (b r c acc : Nat) : FRes :=
  match shTy m.shape with
  | 0 => m.sumFused fmtF64 b r c ⟨acc, 0⟩
  | 1 => m.sumFused fmtF32 b r c ⟨acc, 0⟩
  | 7 => ⟨m.sumInt true b r c acc, 0⟩
  | 8 => ⟨m.sumInt false b r c acc, 0⟩
  | _ => m.sumGroups b r c ⟨acc, 0⟩

/-- Element (r, c) is written marked: a marked lane of A or a poisoned sector of B enters its sum, or a residue was wrong (R194,
R428). -/
def MatOp.tainted (m : MatOp) (r c : Nat) : Bool :=
  let w := tyWidth (shTy m.shape)
  m.residue || (List.range (shK m.shape)).any fun k =>
    bitOf ((m.marks[r]?).getD 0) (w * k / 64) || ((m.bMark[w * (8 * k + c) / 256]?).getD false)

/-- One row of the result in a register of an accumulator: the columns from `c0`, `n` of them, each of `w` bits, and
the flags. -/
def MatOp.row (m : MatOp) (b r c0 n w : Nat) (old : VReg) : VReg × Flags :=
  (List.range n).foldl (fun (x : VReg × Flags) i =>
    let e := m.element b r (c0 + i) ((elem w i old).toNat)
    (setElem w i x.1 (BitVec.ofNat w e.code), x.2 ||| e.flags)) (old, 0)

/-- The marks of a row: an element of 64 bits has two places (R194). -/
def MatOp.rowMarks (m : MatOp) (r c0 n : Nat) (old : BitVec 8) : BitVec 8 :=
  (List.range 8).foldl (fun x i => if m.tainted r (c0 + i * n / 8) then withBit x i true else x) old

/-- The result of an operation in the accumulators, with the flags (R189). -/
def Core.matResult (k : Core) (m : MatOp) : Core × Flags :=
  let b := leNat m.b
  let one (x : Core × Flags) (row c0 n w : Nat) (r : Nat) : Core × Flags :=
    let i : Fin 32 := Fin.ofNat 32 row
    let v := m.row b r c0 n w x.1.acc[i]
    (x.1.setRow i v.1 (m.rowMarks r c0 n (x.1.rowMarks i)), x.2 ||| v.2)
  (List.range (shM m.shape)).foldl (fun x r =>
    if shTy m.shape = 0 then one (one x (m.d5 + r) 0 4 64 r) (m.d5 + 8 + r) 4 4 64 r
    else one x (m.d5 + r) 0 8 32 r) (k, 0)

/-- The end of an operation: the accumulator and the flags, or a pending MDESYNC report (R189, R192). A report that is pending
already gives way to the new one, so that KADDR names the later `mgo`; and an operation whose claim holder has left by `cexit`
still writes its accumulators, while its report has nobody left to take it. R192 says neither (DESIGN CHOICE, log 70). -/
def execMatrixOpEnd (s : State) : Result :=
  let c := s.ev.core
  .next <|
    match (s.core c).matOp with
    | none => s
    | some m =>
      if m.id ≠ s.ev.id then s
      else
        let s := s.modCore c fun k => { k with matOp := none }
        if m.desync then s.modCore c fun k => if k.holds m.ctx then { k with desync := some m.off, scaleBad := m.scaleBad } else k
        else
          let r := (s.core c).matResult m
          (s.setCore c r.1).modCtx c m.ctx fun x => x.raise r.2

/-! ### The repetition buffer (R195) -/

/-- Capture and replay begin (R18, R195). A pending MDESYNC report comes before the ILLOP of an owner (R192; DESIGN CHOICE,
log 70). -/
def execRep (n : BitVec 4) (c : BitVec 5) (w : BitVec 5) (s : State) : Result :=
  .next <|
    match s.here.rep with
    | some r => if r.owner = s.cur.ctx then s.desyncFirst (s.faultOpen Cause.illop) else s.stall .gang
    | none => s.desyncFirst <|
      if !s.claimed then s.faultOpen Cause.claim
      else
        let r : Rep :=
          { owner := s.cur.ctx, words := [], offs := [], n := n.toNat + 1, stride := w, count := c.toNat + 1, iter := 0,
            next := 0, capturing := true, suspended := 0, ended := false }
        s.modHere fun k => { k with rep := some r }

/-- The buffer released once the replay has ended (R192, R195). -/
def execRepe (s : State) : Result :=
  s.notCaptured <| s.desyncFirst <|
    match s.here.rep with
    | some r =>
      if r.owner ≠ s.cur.ctx then s
      else if r.capturing || !r.ended then s.stall .gang
      else s.modHere fun k => { k with rep := none }
    | none => s

end Sys2Proof.Machine
end

