-- ==== Sys2Proof/Machine/WaveOps.lean ====
section
/-! DEFINITION. Wave operations: major 0x12 and the performing of a wave instance (R80, R81, R138 to R144). -/

namespace Sys2Proof.Machine

/-! ### Issue (R139, R140, R144) -/

/-- A reduction or a scan. -/
def WaveFn.reduces : WaveFn → Bool
  | .sum => true
  | .min => true
  | .max => true
  | .scan => true
  | _ => false

/-- KIND and SOP of gB (R138). -/
def waveKind (g : Word) : Nat := (g.extractLsb' 40 3).toNat
def waveSop (g : Word) : Nat := (g.extractLsb' 44 2).toNat

/-- A reserved KIND or SOP for a function and a view (R138). -/
def waveIllegal (fn : WaveFn) (t : View) (g : Word) : Bool :=
  fn.reduces &&
  (decide (3 < waveKind g) || (decide (waveKind g = 2) && decide (t = .b)) ||
   (decide (waveKind g = 3) && decide (t ≠ .h)) || (decide (fn = .scan) && decide (waveSop g = 3)))

/-- The operation names a lane of the context (R140). -/
def Context.names (x : Context) (w : WaveOp) : Bool := decide (x.waveLanes 0xF &&& w.members ≠ 0)

/-- The failed operations of a context that still count when it comes to its next wave operation: one whose mask named no
lane of its own is nobody's participant, and counts only until then (R140; log 56). -/
def Context.faultsKept (x : Context) : List WaveOp := x.waveFaults.filter x.names

/-- A failed local check: the trap, and an arrival without part (R140). -/
def State.waveFail (s : State) (w : WaveOp) (cause : Cause) : State :=
  let w := if cause = Cause.poison then w else { w with bad := 0, pred := 0 }
  let s := (s.modCx fun x => { x with waveFaults := x.faultsKept ++ [w] }).post .waveInstancePerform
    { core := s.cur.core, id := s.src.waveNo, group := bedOf s.cur.core }
  if cause = Cause.poison then s.faultPoison else s.faultOpen cause

/-- A wave operation at issue: the local checks in order, then the context becomes pending (R139). A context whose member mask
is poisoned counts as arrived wherever a lane of it is named (R140, R144). -/
def State.waveIssue (s : State) (w : WaveOp) (b : Fin 32) (pr : Fin 8) : Result :=
  let x := s.src
  let act := x.waveLanes w.active
  .next <|
    if !x.inWave then s.faultOpen Cause.wmask
    else if s.src.pBad pr || s.src.gBad b then
      s.waveFail { w with members := if s.src.gBad b then x.waveLanes 0xF else w.members, bad := 0, pred := 0 } Cause.poison
    else if act &&& ~~~w.members ≠ 0 then s.waveFail w Cause.wmask
    else if x.waveLanes 0xF &&& w.members = 0 then if w.active = 0 then s else s.waveFail w Cause.wmask
    else if waveIllegal w.fn w.view w.arg then s.waveFail w Cause.illop
    else if w.bad ≠ 0 then s.waveFail w Cause.poison
    else
      ((s.modCx fun x => { x with waveOp := some w, waveFaults := x.faultsKept }).joinUp).post .waveInstancePerform
        { core := s.cur.core, id := x.waveNo, group := bedOf s.cur.core }

/-- The operation of an instruction with source register vA, or predicate pA (R121). -/
def State.waveOf (s : State) (fn : WaveFn) (t : View) (d : Fin 32) (b : Fin 32) (pr : Fin 8) : WaveOp :=
  { fn := fn, view := t, dst := d, src := 0, old := 0, pred := 0, bad := 0, members := (s.g b).setWidth 32, arg := s.g b,
    active := s.active pr, since := s.ticks, next := s.cx.pc, replayed := s.cur.replay.isSome }

/-- A function of a predicate (R141). -/
def State.waveP (s : State) (fn : WaveFn) (d : Fin 32) (a : Fin 8) (b : Fin 32) (pr : Fin 8) : Result :=
  s.waveIssue { s.waveOf fn .b d b pr with pred := s.p a, bad := if s.src.pBad a then s.active pr else 0 } b pr

/-- A function of a v register; `wshfl` reads vD (R142, R143). -/
def State.waveV (s : State) (fn : WaveFn) (t : View) (d a b : Fin 32) (pr : Fin 8) : Result :=
  let act := s.active pr
  let bad := (s.src.vBad a ||| if fn = .shfl then s.src.vBad d else 0) &&& act
  s.waveIssue { s.waveOf fn t d b pr with src := s.v a, old := s.v d, bad := bad, pred := s.src.vBad a &&& act } b pr

/-- A predicate as a destination number. -/
def pNum (p : Fin 8) : Fin 32 := ⟨p.val, by omega⟩

/-- Ballot (R141). -/
def execWballot (d : Fin 32) (a : Fin 8) (b : Fin 32) (pr : Fin 8) (s : State) : Result := s.waveP .ballot d a b pr

/-- Some lane (R141). -/
def execWany (d a : Fin 8) (b : Fin 32) (pr : Fin 8) (s : State) : Result := s.waveP .any (pNum d) a b pr

/-- Every lane (R141). -/
def execWall (d a : Fin 8) (b : Fin 32) (pr : Fin 8) (s : State) : Result := s.waveP .all (pNum d) a b pr

/-- From the lane vD names (R142). -/
def execWshfl (d a b : Fin 32) (pr : Fin 8) (s : State) : Result := s.waveV .shfl .d d a b pr

/-- From the lane DELTA below (R142). -/
def execWshup (d a b : Fin 32) (pr : Fin 8) (s : State) : Result := s.waveV .shup .d d a b pr

/-- From the lane DELTA above (R142). -/
def execWshdn (d a b : Fin 32) (pr : Fin 8) (s : State) : Result := s.waveV .shdn .d d a b pr

/-- From the lane at i XOR DELTA (R142). -/
def execWbfly (d a b : Fin 32) (pr : Fin 8) (s : State) : Result := s.waveV .bfly .d d a b pr

/-- Sum (R143). -/
def execWsum (d a b : Fin 32) (t : View) (pr : Fin 8) (s : State) : Result := s.waveV .sum t d a b pr

/-- Minimum (R143). -/
def execWmin (d a b : Fin 32) (t : View) (pr : Fin 8) (s : State) : Result := s.waveV .min t d a b pr

/-- Maximum (R143). -/
def execWmax (d a b : Fin 32) (t : View) (pr : Fin 8) (s : State) : Result := s.waveV .max t d a b pr

/-- Inclusive scan (R143). -/
def execWscan (d a b : Fin 32) (t : View) (pr : Fin 8) (s : State) : Result := s.waveV .scan t d a b pr

/-! ### Values of an instance (R80, R81, R141 to R143) -/

/-- A member of an instance: core, context, the operation, and whether it is pending; one that is not has failed a
local check. -/
structure Part where
  core : Nat
  ctx : Fin 11
  op : WaveOp
  pending : Bool
  deriving DecidableEq, Repr

/-- What wave lane i brings: the operation and the lane of its register, when it takes part (R139). -/
def laneOf (s : State) (ps : List Part) (i : Nat) : Option (WaveOp × Nat) :=
  (ps.filter Part.pending).findSome? fun p =>
    let x := s.ctx p.core p.ctx
    ((lanesOf p.op.active).find? fun l =>
      decide ((elem 8 l x.k.lane).toNat = i) && bitOf p.op.members i).map fun l => (p.op, l)

/-- Wave lane i belongs to a participant that failed on poison in that lane: its vA or pA (R144). -/
def laneBad (s : State) (ps : List Part) (i : Nat) : Bool :=
  ps.any fun p => !p.pending &&
    let bad := if p.op.fn = .ballot ∨ p.op.fn = .any ∨ p.op.fn = .all then p.op.bad else p.op.pred
    ((lanesOf bad).any fun l => decide ((elem 8 l (s.ctx p.core p.ctx).k.lane).toNat = i))

/-- The balanced tree of R80 over 2^k values from `lo`. -/
def treeFold {α : Type} (op : α → α → α) (x : Nat → α) : Nat → Nat → α
  | 0, lo => x lo
  | k + 1, lo => op (treeFold op x k lo) (treeFold op x k (lo + 2 ^ k))

/-- A stage of the scan of R81. -/
def scanStage {α : Type} (op : α → α → α) (k : Nat) (y : List α) : List α :=
  (List.range y.length).zipWith (fun i a => if i < 2 ^ k then a else (y[i - 2 ^ k]?).elim a fun b => op b a) y

/-- The format of a floating KIND in a view (R138). -/
def kindFmt (kind : Nat) (t : View) : Option FloatFmt :=
  match kind, t with
  | 2, .h => some fmtF16
  | 2, .w => some fmtF32
  | 2, .d => some fmtF64
  | 3, _ => some fmtBf16
  | _, _ => none

/-- The operation a reduction or scan uses: 0 sum, 1 minimum, 2 maximum. -/
def WaveFn.redOp (fn : WaveFn) (g : Word) : Nat :=
  match fn with
  | .min => 1
  | .max => 2
  | .scan => waveSop g
  | _ => 0

/-- The identity of a reduction (R80). -/
def redIdentity (op kind : Nat) (t : View) : Nat :=
  let w := t.bits
  match kindFmt kind t with
  | some f => match op with
    | 0 => f.signed true 0
    | 1 => f.infCode
    | _ => f.signed true f.infCode
  | none =>
    match op with
    | 0 => 0
    | 1 => if kind = 0 then 2 ^ (w - 1) - 1 else 2 ^ w - 1
    | _ => if kind = 0 then 2 ^ (w - 1) else 0

/-- One combination of a reduction, the left operand first (R67, R80). -/
def redStep (op kind : Nat) (t : View) (a b : FRes) : FRes :=
  let w := t.bits
  let r : FRes :=
    match kindFmt kind t with
    | some f => match op with
      | 0 => f.add {} (f.value a.code) (f.value b.code)
      | 1 => f.minmax {} false (f.value a.code) (f.value b.code)
      | _ => f.minmax {} true (f.value a.code) (f.value b.code)
    | none =>
      let less : Bool := if kind = 0 then decide (toSigned w a.code < toSigned w b.code) else decide (a.code < b.code)
      match op with
      | 0 => ⟨(a.code + b.code) % 2 ^ w, 0⟩
      | 1 => ⟨if less then a.code else b.code, 0⟩
      | _ => ⟨if less then b.code else a.code, 0⟩
  r.with (a.flags ||| b.flags)

/-- An operand delivered without a combination: a NaN of a floating format is the default NaN, and a signaling one raises NV
(R66, R78). -/
def FRes.plain (r : FRes) (kind : Nat) (t : View) : FRes :=
  match kindFmt kind t with
  | some f => if (f.value r.code).isNan then ⟨f.nanCode, r.flags ||| sigFlags [f.value r.code]⟩ else r
  | none => r

/-- The results of element e: one for each wave lane, with the flags of the tree or the scan (R80, R81). -/
def redElem (s : State) (ps : List Part) (w : WaveOp) (e : Nat) : List FRes :=
  let op := w.fn.redOp w.arg
  let kind := waveKind w.arg
  let x (i : Nat) : FRes :=
    match laneOf s ps i with
    | some (o, l) => ⟨el w.view.bits e (lane l o.src), 0⟩
    | none => ⟨redIdentity op kind w.view, 0⟩
  let step := redStep op kind w.view
  if w.fn = .scan then
    (List.range 5).foldl (fun y k => scanStage step k y) ((List.range 32).map fun i => (x i).plain kind w.view)
  else List.replicate 32 (treeFold step x 5 0)

/-- The source lane of a shuffle for wave lane i, whose old vD lane is `old`; none means its own (R142). -/
def shuffleFrom (w : WaveOp) (i : Nat) (old : Word) : Option Nat :=
  let delta := (w.arg.extractLsb' 32 5).toNat
  match w.fn with
  | .shfl => some (old.extractLsb' 0 5).toNat
  | .shup => if i < delta then none else some (i - delta)
  | .shdn => if 31 < i + delta then none else some (i + delta)
  | _ => some (i ^^^ delta)

/-- The value and the mark a shuffle delivers to wave lane i (R142, R144). -/
def shuffled (s : State) (ps : List Part) (w : WaveOp) (l i : Nat) : Word × Bool :=
  match shuffleFrom w i (lane l w.old) with
  | none => (lane l w.src, false)
  | some j =>
    match laneOf s ps j with
    | some (o, m) => (lane m o.src, false)
    | none => (0, laneBad s ps j)

/-- The 32 bits of a ballot, and the lanes that take part (R141). -/
def ballotOf (s : State) (ps : List Part) : BitVec 32 × BitVec 32 :=
  (List.range 32).foldl (fun (r : BitVec 32 × BitVec 32) i =>
    match laneOf s ps i with
    | some (o, l) => (withBit r.1 i (bitOf o.pred l), withBit r.2 i true)
    | none => r) (0, 0)

/-- Results and flags of a reduction for every element of the view: by element, by wave lane. -/
def redAll (s : State) (ps : List Part) (w : WaveOp) : List (List FRes) :=
  (List.range (64 / w.view.bits)).map (redElem s ps w)

/-- What a pending participant receives (R141 to R144). -/
def State.waveDeliver (s t : State) (ps : List Part) (p : Part) : State :=
  let w := p.op
  let x := s.ctx p.core p.ctx
  let pos (l : Nat) : Nat := (elem 8 l x.k.lane).toNat
  let part : Mask := ofBits fun l => bitOf w.active l && decide (pos l < 32) && bitOf w.members (pos l)
  let anyBad := (List.range 32).any (laneBad s ps)
  let toP (v : Bool) : State := t.modCore p.core fun k =>
    let r : Fin 8 := Fin.ofNat 8 w.dst.val
    let k := k.writeP p.ctx r w.active (if v then 0xF else 0)
    if anyBad && decide (r ≠ 0) then k.modCtx p.ctx fun x => { x with r.pMark := withBit x.r.pMark r true } else k
  match w.fn with
  | .ballot => t.modCore p.core fun k => k.writeG p.ctx w.dst ((ballotOf s ps).1.setWidth 64) anyBad
  | .any => toP (decide ((ballotOf s ps).1 ≠ 0))
  | .all => toP (decide ((ballotOf s ps).1 = (ballotOf s ps).2))
  | .shfl | .shup | .shdn | .bfly =>
    t.modCore p.core fun k => k.writeV p.ctx w.dst part (ofLanes fun l => (shuffled s ps w l (pos l)).1)
      (ofBits fun l => (shuffled s ps w l (pos l)).2)
  | .sum | .min | .max | .scan =>
    let all := redAll s ps w
    let mark (l : Nat) : Bool :=
      (List.range 32).any fun i => (decide (w.fn ≠ .scan) || decide (i ≤ pos l)) && laneBad s ps i
    t.modCore p.core fun k => (k.writeV p.ctx w.dst part
      (ofLanes fun l => packEls w.view.bits (all.map fun y => ((y[pos l]?).map FRes.code).getD 0))
      (ofBits mark)).modCtx p.ctx fun x => x.raise (all.foldl (fun fl y => fl ||| unionFlags y) 0)

/-! ### The instance (R139, R140) -/

/-- The first wave operation of a live member that an instance can take: a failed one stands before a pending one. -/
def State.waveHead (s : State) (m : Nat × Fin 11) : Option Part :=
  let x := s.ctx m.1 m.2
  match x.waveFaults with
  | w :: _ => some { core := m.1, ctx := m.2, op := w, pending := false }
  | [] => x.waveOp.map fun w => { core := m.1, ctx := m.2, op := w, pending := true }

/-- The older of two operations: earlier issue, then the lower core (R139). -/
def Part.older (a b : Part) : Bool := decide (a.op.since < b.op.since) || (decide (a.op.since = b.op.since) && decide (a.core < b.core))
def oldestPart : List Part → Option Part
  | [] => none
  | p :: l => match oldestPart l with
    | none => some p
    | some q => if q.older p then some q else some p

/-- The operation a participant brought is taken from it. -/
def State.waveConsume (s : State) (p : Part) : State :=
  s.modCtx p.core p.ctx fun x =>
    if p.pending then { x with waveOp := none } else { x with waveFaults := x.waveFaults.drop 1 }

/-- The same function, view, mask and upper half of gB (R139). -/
def WaveOp.agrees (a b : WaveOp) : Bool :=
  decide (a.fn = b.fn) && decide (a.view = b.view) && decide (a.members = b.members) &&
  decide ((a.arg.extractLsb' 32 16) = (b.arg.extractLsb' 32 16))

/-- A performed instance: the results, then every pending participant goes on; operations that differ raise WMASK in
each (R139). -/
def State.wavePerform (s : State) (ps : List Part) : State :=
  let t := ps.foldl State.waveConsume s
  match ps.filter Part.pending with
  | [] => t
  | q :: rest =>
    if rest.all fun p => p.op.agrees q.op then
      (q :: rest).foldl (fun t p => (State.waveDeliver s t ps p).joinDone p.core p.ctx p.op.next p.op.replayed) t
    else
      let t := { t with fresh := t.fresh + 1 }
      (q :: rest).foldl (fun t p => t.joinFault p.core p.ctx Cause.wmask (Config.freeAddr s.fresh) p.op.replayed) t

/-- The oldest operation of a wave, when every participant has arrived, is performed (R139, R140). A context that failed with
a mask that names no lane of its own holds nobody back and takes no part. -/
def execWaveInstancePerform (s : State) : Result :=
  let b := s.ev.group
  let ms := s.members b s.ev.id
  let heads := ms.filterMap s.waveHead
  let pend := heads.filter Part.pending
  .next <|
    match oldestPart (if pend.isEmpty then heads.filter fun p => (s.ctx p.core p.ctx).names p.op else pend) with
    | none => s
    | some w =>
      let named := ms.filter fun m => decide ((s.ctx m.1 m.2).asFormed.waveLanes 0xF &&& w.op.members ≠ 0)
      let ps := named.filterMap s.waveHead
      if ps.length = named.length ∧ !named.isEmpty then (s.wavePerform ps).post .waveInstancePerform s.ev else s

end Sys2Proof.Machine
end

