-- ==== Sys2Proof/Machine/Replay.lean ====
section
/-! DEFINITION. The replay of captured A-words (R195 to R197). -/

namespace Sys2Proof.Machine

/-- A captured word performed: the meaning of each A-class instruction; any other word is no captured word. -/
def runAWord (i : Instr) (s : State) : Result :=
  match i with
  | .nopA => execNopA s
  | .add d a b => execAdd d a b s
  | .sub d a b => execSub d a b s
  | .and d a b => execAnd d a b s
  | .or d a b => execOr d a b s
  | .xor d a b => execXor d a b s
  | .andn d a b => execAndn d a b s
  | .shl d a b => execShl d a b s
  | .shr d a b => execShr d a b s
  | .sar d a b => execSar d a b s
  | .rol d a b => execRol d a b s
  | .min d a b => execMin d a b s
  | .max d a b => execMax d a b s
  | .minu d a b => execMinu d a b s
  | .maxu d a b => execMaxu d a b s
  | .slt d a b => execSlt d a b s
  | .sltu d a b => execSltu d a b s
  | .mul d a b => execMul d a b s
  | .mulh d a b => execMulh d a b s
  | .mulhu d a b => execMulhu d a b s
  | .div d a b => execDiv d a b s
  | .divu d a b => execDivu d a b s
  | .rem d a b => execRem d a b s
  | .remu d a b => execRemu d a b s
  | .sel d a b => execSel d a b s
  | .clz d a => execClz d a s
  | .ctz d a => execCtz d a s
  | .popc d a => execPopc d a s
  | .bfx d a b => execBfx d a b s
  | .bfi d a b => execBfi d a b s
  | .mov d a => execMov d a s
  | .lea d a b => execLea d a b s
  | .wadr d a b => execWadr d a b s
  | .addi d a i => execAddi d a i s
  | .andi d a i => execAndi d a i s
  | .ori d a i => execOri d a i s
  | .xori d a i => execXori d a i s
  | .shli d a sc => execShli d a sc s
  | .shri d a sc => execShri d a sc s
  | .sari d a sc => execSari d a sc s
  | .li d i => execLi d i s
  | .lui d i => execLui d i s
  | .lhi d i => execLhi d i s
  | .vadd d a b t pr => execVadd d a b t pr s
  | .vsub d a b t pr => execVsub d a b t pr s
  | .vmul d a b t pr => execVmul d a b t pr s
  | .vmulh d a b t pr => execVmulh d a b t pr s
  | .vmin d a b t pr => execVmin d a b t pr s
  | .vmax d a b t pr => execVmax d a b t pr s
  | .vminu d a b t pr => execVminu d a b t pr s
  | .vmaxu d a b t pr => execVmaxu d a b t pr s
  | .vand d a b t pr => execVand d a b t pr s
  | .vor d a b t pr => execVor d a b t pr s
  | .vxor d a b t pr => execVxor d a b t pr s
  | .vshl d a b t pr => execVshl d a b t pr s
  | .vshr d a b t pr => execVshr d a b t pr s
  | .vsar d a b t pr => execVsar d a b t pr s
  | .vabs d a t pr => execVabs d a t pr s
  | .vneg d a t pr => execVneg d a t pr s
  | .vadds d a b t pr => execVadds d a b t pr s
  | .vsubs d a b t pr => execVsubs d a b t pr s
  | .vaddsu d a b t pr => execVaddsu d a b t pr s
  | .vsubsu d a b t pr => execVsubsu d a b t pr s
  | .vcmpeq d a b t pr => execVcmpeq d a b t pr s
  | .vcmpne d a b t pr => execVcmpne d a b t pr s
  | .vcmplt d a b t pr => execVcmplt d a b t pr s
  | .vcmple d a b t pr => execVcmple d a b t pr s
  | .vcmpltu d a b t pr => execVcmpltu d a b t pr s
  | .vcmpleu d a b t pr => execVcmpleu d a b t pr s
  | .vsel d a b pr => execVsel d a b pr s
  | .vdot4 d a b t pr => execVdot4 d a b t pr s
  | .vdot4u d a b t pr => execVdot4u d a b t pr s
  | .fadd d a b t pr => execFadd d a b t pr s
  | .fsub d a b t pr => execFsub d a b t pr s
  | .fmul d a b t pr => execFmul d a b t pr s
  | .fmin d a b t pr => execFmin d a b t pr s
  | .fmax d a b t pr => execFmax d a b t pr s
  | .fabs d a t pr => execFabs d a t pr s
  | .fneg d a t pr => execFneg d a t pr s
  | .fcpsgn d a b t pr => execFcpsgn d a b t pr s
  | .fcmpeq d a b t pr => execFcmpeq d a b t pr s
  | .fcmplt d a b t pr => execFcmplt d a b t pr s
  | .fcmple d a b t pr => execFcmple d a b t pr s
  | .fcmpun d a b t pr => execFcmpun d a b t pr s
  | .fclass d a t pr => execFclass d a t pr s
  | .fround d a m t pr => execFround d a m t pr s
  | .cvtf d a y t pr => execCvtf d a y t pr s
  | .cvtfi d a y t pr => execCvtfi d a y t pr s
  | .cvtif d a y t pr => execCvtif d a y t pr s
  | .cvtq d a y t pr => execCvtq d a y t pr s
  | .cvtdq d a pr => execCvtdq d a pr s
  | .cvtsr d a y t pr => execCvtsr d a y t pr s
  | .ffma d a b c t pr => execFfma d a b c t pr s
  | .ffms d a b c t pr => execFfms d a b c t pr s
  | .ffnma d a b c t pr => execFfnma d a b c t pr s
  | .frcp d a t pr => execFrcp d a t pr s
  | .frsq d a t pr => execFrsq d a t pr s
  | .fsqrt d a t pr => execFsqrt d a t pr s
  | .fexp2 d a t pr => execFexp2 d a t pr s
  | .flog2 d a t pr => execFlog2 d a t pr s
  | .fsin d a t pr => execFsin d a t pr s
  | .fcos d a t pr => execFcos d a t pr s
  | .fdiv d a b t pr => execFdiv d a b t pr s
  | .vbcast d a t pr => execVbcast d a t pr s
  | .vget d a b t pr => execVget d a b t pr s
  | .vput d a b t pr => execVput d a b t pr s
  | .vperm d a b t pr => execVperm d a b t pr s
  | .vext d a b t pr => execVext d a b t pr s
  | .vins d a b t pr => execVins d a b t pr s
  | .vmov d a pr => execVmov d a pr s
  | .vli d i => execVli d i s
  | .vaddi d a i => execVaddi d a i s
  | .vshli d a sc => execVshli d a sc s
  | .vshri d a sc => execVshri d a sc s
  | .wballot d a b pr => execWballot d a b pr s
  | .wany d a b pr => execWany d a b pr s
  | .wall d a b pr => execWall d a b pr s
  | .wshfl d a b pr => execWshfl d a b pr s
  | .wshup d a b pr => execWshup d a b pr s
  | .wshdn d a b pr => execWshdn d a b pr s
  | .wbfly d a b pr => execWbfly d a b pr s
  | .wsum d a b t pr => execWsum d a b t pr s
  | .wmin d a b t pr => execWmin d a b t pr s
  | .wmax d a b t pr => execWmax d a b t pr s
  | .wscan d a b t pr => execWscan d a b t pr s
  | .mzero n => execMzero n s
  | .mgo n a b r => execMgo n a b r s
  | .msc a => execMsc a s
  | .mrd d n => execMrd d n s
  | .mwr n a => execMwr n a s
  | .bxt d a b pr => execBxt d a b pr s
  | .trix d a b c pr => execTrix d a b c pr s
  | .cdec d a b pr => execCdec d a b pr s
  | .rbase d a b pr => execRbase d a b pr s
  | .cov d a b c pr => execCov d a b c pr s
  | .hcmp d a b pr => execHcmp d a b pr s
  | _ => .next (s.faultOpen Cause.illop)

/-- A replayed word issues: the buffer's word with its fields advanced, checked as if it were fetched afresh, under
the whole of KMASK and the predicates as they stand, once its registers are free; the report of a refused load whose
destination it reads comes first, and a deferring c0 begins no `mgo` (R153, R195, R196, R326). A fault in it ends the replay (R197); an uncorrectable entry
raises POISON (R429). -/
def execReplayIssue (s : State) : Result :=
  match s.here.rep with
  | none => .next s
  | some r =>
    match r.words[r.next]? with
    | none => .next s
    | some w =>
      let s := { s with
        cur.at_ := (r.offs[r.next]?).getD 0, cur.isA := true, cur.pair := false, cur.lanes := 0xF,
        cur.replay := some (r.iter, r.next) }
      if bitOf r.bad r.next then .next s.faultPoison
      else
        match (decodeNat w.toNat).map (advanced (r.iter * r.stride.toNat)) with
        | none => .next (s.faultOpen Cause.illop)
        | some i =>
          if !wellFormed i then .next (s.faultOpen Cause.illop)
          else if s.src.readsRefused (s.here.rowsRead s.src) (.lone i true) then .next (s.reportsFirst s)
          else if s.src.held (s.here.rowsRead s.src) (.lone i true) then .next (s.stall .other)
          else if s.here.run = .halting ∧ heldByDeferral i then .next (s.stall .other)
          else
            match runAWord i s with
            | .next t =>
              if t.cur.stalled || t.cur.trapped || t.cur.joined then .next t
              else .next (t.modHere fun k => { k with rep := k.rep.map Rep.advance })
            | e => e

end Sys2Proof.Machine
end

