-- ==== Sys2Proof/Machine/System.lean ====
section
/-! DEFINITION. Traps, returns from traps, saving and restoring a context, the debug word, and decode faults
(R46, R110 to R116). -/

namespace Sys2Proof.Machine

/-- A trap by software: SWTRAP with the code in KADDR and KEPC at the next word (R111). -/
def execTrap (i : BitVec 14) (s : State) : Result :=
  .next (s.trap { code := Cause.swtrap, epc := s.cur.p + 4, addr := i.setWidth 64 })

/-- Return from a trap, or delivery to the user handler (R112). A marked KUTVEC, KCAUSE or KEPC that it reads raises
POISON (R85; DEDUCED, log 69). -/
def execTret (d : Bool) (m : BitVec 4) (s : State) : Result :=
  let x := s.cx
  .next <|
    if !x.mode && (d || x.pmode) then s.faultOpen Cause.priv
    else if d then
      if x.pmode then s.faultOpen Cause.priv
      else if s.kBad 0x00C then s.faultPoison
      else s.modCx fun x => { x with mode := false, pc := (x.k.utvec &&& 0x1FFFC).setWidth 17, fbuf := [] }
    else if s.kBad 0x000 || s.kBad 0x001 then s.faultPoison
    else if !x.mode && decide ((x.k.cause.setWidth 8 : Cause) = 0) then s.faultOpen Cause.priv
    else s.trapReturn m

/-- A decode fault of the bundle: the cause, the word at fault and the address stand in the latch (R35, R46, R429). -/
def execIllegalBundle (s : State) : Result :=
  .next (s.trap { code := s.ev.cause, epc := BitVec.ofNat 17 s.ev.addr, addr := s.ev.value, pair := s.ev.flag })

/-- The offset and context number of `csave` and `crest` (R114). -/
def imageOff (g : Word) : Nat := (g.extractLsb' 0 17).toNat
def imageCtx (g : Word) : Nat := (g.extractLsb' 32 4).toNat

/-- The first of the 512 doublewords of an image that a segment check refuses, with the cause (R114, R115). R28 names images
among the accesses of more than 8 bytes and R114 calls their accesses ordinary stores and loads: the model checks 512 accesses
of 8 bytes (DESIGN CHOICE, log 70). -/
def State.imageRefused (s : State) (off : Nat) (need : Perm) : Option (Nat × Cause) :=
  ((List.range 512).filterMap fun i =>
    (segCheck s.here.kseg s.src.mode (off + 8 * i) 8 need).map fun c => (off + 8 * i, c)).head?

/-- What holds the reads or writes of an image, ordinary local accesses of the issuing context (R114, R115, R230, R246). -/
def State.imageCheck (s : State) (off : Nat) (write : Bool) : Check :=
  s.alsoHeld (s.here.scoreboard off 4096 write) off 4096 write

/-- The saved state of another context written to own ULM (R114). KADDR of its ALIGN is the offset, which the rule does not
say (DESIGN CHOICE, log 70). -/
def execCsave (g : Fin 32) (s : State) : Result :=
  let w := s.g g
  let off := imageOff w
  .next <|
    if s.src.gBad g then s.faultPoison
    else if h : imageCtx w < 11 then
      let c : Fin 11 := ⟨imageCtx w, h⟩
      if c = s.cur.ctx then s.faultOpen Cause.illop
      else if off % 64 ≠ 0 then s.fault Cause.align (BitVec.ofNat 64 off)
      else
        let live := (s.here.ctxs[c]).live
        if s.here.midIssue c then s.stall .save
        else
        let s := if live then s.modHere fun k => (k.withdraw c).modCtx c fun x => { x with susp := true } else s
        if !s.here.settled c then s.stall .save
        else
          match s.imageRefused off { w := true }, s.imageCheck off true with
          | some (a, cause), _ =>
            let (bs, s) := s.freeBytes (a - off)
            ((s.storeBytes (s.hereKey off) bs).wrote (s.hereKey off) (a - off)).fault cause (BitVec.ofNat 64 a)
          | none, .ok =>
            ((s.storeBytes (s.hereKey off) (s.image s.cur.core c live)).wrote (s.hereKey off) 4096).modHere fun k => k.afterSave c
          | none, .wait => s.stall .save
          | none, .bad cause a => if cause = Cause.pagewait then s.stall (.parkWait [a.toNat]) else s.fault cause a
    else s.faultOpen Cause.illop

/-- An image in own ULM restored into another context (R115); one that is parked is looked at for its range (R213, R226).
CLAIM comes before the ILLOP of an image that cannot be installed, and KADDR of its ALIGN is the offset: the rule gives neither
(DESIGN CHOICE, log 70). -/
def execCrest (g : Fin 32) (s : State) : Result :=
  let w := s.g g
  let off := imageOff w
  .next <|
    if s.src.gBad g then s.faultPoison
    else if h : imageCtx w < 11 then
      let c : Fin 11 := ⟨imageCtx w, h⟩
      let x := s.here.ctxs[c]
      if c = s.cur.ctx ∨ (x.live && !x.susp) then s.faultOpen Cause.illop
      else if off % 64 ≠ 0 then s.fault Cause.align (BitVec.ofNat 64 off)
      else
        match s.imageRefused off { r := true }, s.imageCheck off false with
        | some (a, cause), _ => s.fault cause (BitVec.ofNat 64 a)
        | none, .wait => s.stall .save
        | none, .bad cause a => if cause = Cause.pagewait then s.stall (.parkWait [a.toNat]) else s.fault cause a
        | none, .ok =>
          let bs := memBytes s.mem (s.hereKey off) 4096
          if s.poisonedRange (s.hereKey off) 4096 then s.faultPoison
          else if imageMat bs ∧ s.here.claim.isSome ∧ s.here.claim ≠ some c then s.faultOpen Cause.claim
          else if imageBad bs then s.faultOpen Cause.illop
          else (s.modHere fun k => k.install c bs).post .parkedResume { core := s.cur.core, ctx := c.val }
    else s.faultOpen Cause.illop

/-- The debug word written; with a debugger attached to the core, issue halts (R116, R451, R452). -/
def execDbg (g : Fin 32) (s : State) : Result :=
  s.scalar [g] <|
    let s := { s.modHere fun k => { k with dbgWord := s.g g } with mgmt.dbgword := s.g g }
    if s.mgmt.attach ∧ s.mgmt.dbgcore.toNat = s.cur.core then
      { s.modHere fun k => { k with dbgHalt := true } with mgmt.dbghalted := true }
    else s

end Sys2Proof.Machine
end

