-- ==== Sys2Proof/Machine/Dispatch.lean ====
section
/-! DEFINITION. One arm for each constructor of Instr: a call of its meaning. -/

namespace Sys2Proof.Machine

def exec (i : Instr) (s : State) : Host.Outcome State Fault Refusal :=
  match i with
  | .trap imm => Sys2Proof.Machine.execTrap imm s
  | .tret d m => Sys2Proof.Machine.execTret d m s
  | .kget d k => Sys2Proof.Machine.execKget d k s
  | .kset sc k => Sys2Proof.Machine.execKset sc k s
  | .kswp sc k => Sys2Proof.Machine.execKswp sc k s
  | .csave sc => Sys2Proof.Machine.execCsave sc s
  | .crest sc => Sys2Proof.Machine.execCrest sc s
  | .dbg sc => Sys2Proof.Machine.execDbg sc s
  | .br o => Sys2Proof.Machine.execBr o s
  | .call o => Sys2Proof.Machine.execCall o s
  | .bany pr o => Sys2Proof.Machine.execBany pr o s
  | .ball pr o => Sys2Proof.Machine.execBall pr o s
  | .bnone pr o => Sys2Proof.Machine.execBnone pr o s
  | .bnall pr o => Sys2Proof.Machine.execBnall pr o s
  | .bz a o => Sys2Proof.Machine.execBz a o s
  | .bnz a o => Sys2Proof.Machine.execBnz a o s
  | .blt a b o => Sys2Proof.Machine.execBlt a b o s
  | .bge a b o => Sys2Proof.Machine.execBge a b o s
  | .bltu a b o => Sys2Proof.Machine.execBltu a b o s
  | .bgeu a b o => Sys2Proof.Machine.execBgeu a b o s
  | .callr a => Sys2Proof.Machine.execCallr a s
  | .jr a => Sys2Proof.Machine.execJr a s
  | .jv a => Sys2Proof.Machine.execJv a s
  | .ifm o pr => Sys2Proof.Machine.execIfm o pr s
  | .elm o => Sys2Proof.Machine.execElm o s
  | .lpm o => Sys2Proof.Machine.execLpm o s
  | .brk pr => Sys2Proof.Machine.execBrk pr s
  | .cnt pr => Sys2Proof.Machine.execCnt pr s
  | .lpe pr => Sys2Proof.Machine.execLpe pr s
  | .cstart d a b => Sys2Proof.Machine.execCstart d a b s
  | .cquery d a => Sys2Proof.Machine.execCquery d a s
  | .cwait a => Sys2Proof.Machine.execCwait a s
  | .wform d a => Sys2Proof.Machine.execWform d a s
  | .wsync a => Sys2Proof.Machine.execWsync a s
  | .reord a b => Sys2Proof.Machine.execReord a b s
  | .ld8 d a o => Sys2Proof.Machine.execLd8 d a o s
  | .ld8z d a o => Sys2Proof.Machine.execLd8z d a o s
  | .ld16 d a o => Sys2Proof.Machine.execLd16 d a o s
  | .ld16z d a o => Sys2Proof.Machine.execLd16z d a o s
  | .ld32 d a o => Sys2Proof.Machine.execLd32 d a o s
  | .ld32z d a o => Sys2Proof.Machine.execLd32z d a o s
  | .ld64 d a o => Sys2Proof.Machine.execLd64 d a o s
  | .st8 sc a o => Sys2Proof.Machine.execSt8 sc a o s
  | .st16 sc a o => Sys2Proof.Machine.execSt16 sc a o s
  | .st32 sc a o => Sys2Proof.Machine.execSt32 sc a o s
  | .st64 sc a o => Sys2Proof.Machine.execSt64 sc a o s
  | .vld d a o => Sys2Proof.Machine.execVld d a o s
  | .vst sc a o => Sys2Proof.Machine.execVst sc a o s
  | .vldx d a b => Sys2Proof.Machine.execVldx d a b s
  | .vstx sc a b => Sys2Proof.Machine.execVstx sc a b s
  | .ldw32 d a b => Sys2Proof.Machine.execLdw32 d a b s
  | .ldw64 d a b => Sys2Proof.Machine.execLdw64 d a b s
  | .stw32 sc a b => Sys2Proof.Machine.execStw32 sc a b s
  | .stw64 sc a b => Sys2Proof.Machine.execStw64 sc a b s
  | .vldw d a b => Sys2Proof.Machine.execVldw d a b s
  | .vstw sc a b => Sys2Proof.Machine.execVstw sc a b s
  | .aadd d a b width r sc => Sys2Proof.Machine.execAadd d a b width r sc s
  | .aand d a b width r sc => Sys2Proof.Machine.execAand d a b width r sc s
  | .aor d a b width r sc => Sys2Proof.Machine.execAor d a b width r sc s
  | .axor d a b width r sc => Sys2Proof.Machine.execAxor d a b width r sc s
  | .amin d a b width r sc => Sys2Proof.Machine.execAmin d a b width r sc s
  | .amax d a b width r sc => Sys2Proof.Machine.execAmax d a b width r sc s
  | .aminu d a b width r sc => Sys2Proof.Machine.execAminu d a b width r sc s
  | .amaxu d a b width r sc => Sys2Proof.Machine.execAmaxu d a b width r sc s
  | .aswp d a b width r sc => Sys2Proof.Machine.execAswp d a b width r sc s
  | .acas d a b width r sc => Sys2Proof.Machine.execAcas d a b width r sc s
  | .afadd d a b width r sc => Sys2Proof.Machine.execAfadd d a b width r sc s
  | .adecz d a b width r sc => Sys2Proof.Machine.execAdecz d a b width r sc s
  | .fence sc => Sys2Proof.Machine.execFence sc s
  | .rprobe d a => Sys2Proof.Machine.execRprobe d a s
  | .mwait d a b width sc => Sys2Proof.Machine.execMwait d a b width sc s
  | .cpy d a b m n t => Sys2Proof.Machine.execCpy d a b m n t s
  | .cpy2d d a b m n t => Sys2Proof.Machine.execCpy2d d a b m n t s
  | .lcp a b m t => Sys2Proof.Machine.execLcp a b m t s
  | .lcpNf d a b m t => Sys2Proof.Machine.execLcpNf d a b m t s
  | .lcs a b m t => Sys2Proof.Machine.execLcs a b m t s
  | .rdc d a b m t => Sys2Proof.Machine.execRdc d a b m t s
  | .ired a m t => Sys2Proof.Machine.execIred a m t s
  | .ctw d t => Sys2Proof.Machine.execCtw d t s
  | .ctq d t => Sys2Proof.Machine.execCtq d t s
  | .qpop d a q => Sys2Proof.Machine.execQpop d a q s
  | .qpopl d a pr q => Sys2Proof.Machine.execQpopl d a pr q s
  | .qpeek d a pr q => Sys2Proof.Machine.execQpeek d a pr q s
  | .qcnt d a q => Sys2Proof.Machine.execQcnt d a q s
  | .qwait a q => Sys2Proof.Machine.execQwait a q s
  | .qpush a => Sys2Proof.Machine.execQpush a s
  | .msend a b => Sys2Proof.Machine.execMsend a b s
  | .hsend a b => Sys2Proof.Machine.execHsend a b s
  | .rsend b => Sys2Proof.Machine.execRsend b s
  | .bsend b => Sys2Proof.Machine.execBsend b s
  | .xsend a b xm => Sys2Proof.Machine.execXsend a b xm s
  | .xred a b xm => Sys2Proof.Machine.execXred a b xm s
  | .gvote d a => Sys2Proof.Machine.execGvote d a s
  | .launch a => Sys2Proof.Machine.execLaunch a s
  | .launchNb d a => Sys2Proof.Machine.execLaunchNb d a s
  | .ekickGecko a => Sys2Proof.Machine.execEkickGecko a s
  | .ekickRake a => Sys2Proof.Machine.execEkickRake a s
  | .ekickCham a => Sys2Proof.Machine.execEkickCham a s
  | .ztst sc a o => Sys2Proof.Machine.execZtst sc a o s
  | .add d a b => Sys2Proof.Machine.execAdd d a b s
  | .sub d a b => Sys2Proof.Machine.execSub d a b s
  | .and d a b => Sys2Proof.Machine.execAnd d a b s
  | .or d a b => Sys2Proof.Machine.execOr d a b s
  | .xor d a b => Sys2Proof.Machine.execXor d a b s
  | .andn d a b => Sys2Proof.Machine.execAndn d a b s
  | .shl d a b => Sys2Proof.Machine.execShl d a b s
  | .shr d a b => Sys2Proof.Machine.execShr d a b s
  | .sar d a b => Sys2Proof.Machine.execSar d a b s
  | .rol d a b => Sys2Proof.Machine.execRol d a b s
  | .min d a b => Sys2Proof.Machine.execMin d a b s
  | .max d a b => Sys2Proof.Machine.execMax d a b s
  | .minu d a b => Sys2Proof.Machine.execMinu d a b s
  | .maxu d a b => Sys2Proof.Machine.execMaxu d a b s
  | .slt d a b => Sys2Proof.Machine.execSlt d a b s
  | .sltu d a b => Sys2Proof.Machine.execSltu d a b s
  | .mul d a b => Sys2Proof.Machine.execMul d a b s
  | .mulh d a b => Sys2Proof.Machine.execMulh d a b s
  | .mulhu d a b => Sys2Proof.Machine.execMulhu d a b s
  | .div d a b => Sys2Proof.Machine.execDiv d a b s
  | .divu d a b => Sys2Proof.Machine.execDivu d a b s
  | .rem d a b => Sys2Proof.Machine.execRem d a b s
  | .remu d a b => Sys2Proof.Machine.execRemu d a b s
  | .sel d a b => Sys2Proof.Machine.execSel d a b s
  | .clz d a => Sys2Proof.Machine.execClz d a s
  | .ctz d a => Sys2Proof.Machine.execCtz d a s
  | .popc d a => Sys2Proof.Machine.execPopc d a s
  | .bfx d a b => Sys2Proof.Machine.execBfx d a b s
  | .bfi d a b => Sys2Proof.Machine.execBfi d a b s
  | .mov d a => Sys2Proof.Machine.execMov d a s
  | .lea d a b => Sys2Proof.Machine.execLea d a b s
  | .wadr d a b => Sys2Proof.Machine.execWadr d a b s
  | .addi d a imm => Sys2Proof.Machine.execAddi d a imm s
  | .andi d a imm => Sys2Proof.Machine.execAndi d a imm s
  | .ori d a imm => Sys2Proof.Machine.execOri d a imm s
  | .xori d a imm => Sys2Proof.Machine.execXori d a imm s
  | .shli d a sc => Sys2Proof.Machine.execShli d a sc s
  | .shri d a sc => Sys2Proof.Machine.execShri d a sc s
  | .sari d a sc => Sys2Proof.Machine.execSari d a sc s
  | .li d imm => Sys2Proof.Machine.execLi d imm s
  | .lui d imm => Sys2Proof.Machine.execLui d imm s
  | .lhi d imm => Sys2Proof.Machine.execLhi d imm s
  | .vadd d a b t pr => Sys2Proof.Machine.execVadd d a b t pr s
  | .vsub d a b t pr => Sys2Proof.Machine.execVsub d a b t pr s
  | .vmul d a b t pr => Sys2Proof.Machine.execVmul d a b t pr s
  | .vmulh d a b t pr => Sys2Proof.Machine.execVmulh d a b t pr s
  | .vmin d a b t pr => Sys2Proof.Machine.execVmin d a b t pr s
  | .vmax d a b t pr => Sys2Proof.Machine.execVmax d a b t pr s
  | .vminu d a b t pr => Sys2Proof.Machine.execVminu d a b t pr s
  | .vmaxu d a b t pr => Sys2Proof.Machine.execVmaxu d a b t pr s
  | .vand d a b t pr => Sys2Proof.Machine.execVand d a b t pr s
  | .vor d a b t pr => Sys2Proof.Machine.execVor d a b t pr s
  | .vxor d a b t pr => Sys2Proof.Machine.execVxor d a b t pr s
  | .vshl d a b t pr => Sys2Proof.Machine.execVshl d a b t pr s
  | .vshr d a b t pr => Sys2Proof.Machine.execVshr d a b t pr s
  | .vsar d a b t pr => Sys2Proof.Machine.execVsar d a b t pr s
  | .vabs d a t pr => Sys2Proof.Machine.execVabs d a t pr s
  | .vneg d a t pr => Sys2Proof.Machine.execVneg d a t pr s
  | .vadds d a b t pr => Sys2Proof.Machine.execVadds d a b t pr s
  | .vsubs d a b t pr => Sys2Proof.Machine.execVsubs d a b t pr s
  | .vaddsu d a b t pr => Sys2Proof.Machine.execVaddsu d a b t pr s
  | .vsubsu d a b t pr => Sys2Proof.Machine.execVsubsu d a b t pr s
  | .vcmpeq d a b t pr => Sys2Proof.Machine.execVcmpeq d a b t pr s
  | .vcmpne d a b t pr => Sys2Proof.Machine.execVcmpne d a b t pr s
  | .vcmplt d a b t pr => Sys2Proof.Machine.execVcmplt d a b t pr s
  | .vcmple d a b t pr => Sys2Proof.Machine.execVcmple d a b t pr s
  | .vcmpltu d a b t pr => Sys2Proof.Machine.execVcmpltu d a b t pr s
  | .vcmpleu d a b t pr => Sys2Proof.Machine.execVcmpleu d a b t pr s
  | .vsel d a b pr => Sys2Proof.Machine.execVsel d a b pr s
  | .vdot4 d a b t pr => Sys2Proof.Machine.execVdot4 d a b t pr s
  | .vdot4u d a b t pr => Sys2Proof.Machine.execVdot4u d a b t pr s
  | .fadd d a b t pr => Sys2Proof.Machine.execFadd d a b t pr s
  | .fsub d a b t pr => Sys2Proof.Machine.execFsub d a b t pr s
  | .fmul d a b t pr => Sys2Proof.Machine.execFmul d a b t pr s
  | .fmin d a b t pr => Sys2Proof.Machine.execFmin d a b t pr s
  | .fmax d a b t pr => Sys2Proof.Machine.execFmax d a b t pr s
  | .fabs d a t pr => Sys2Proof.Machine.execFabs d a t pr s
  | .fneg d a t pr => Sys2Proof.Machine.execFneg d a t pr s
  | .fcpsgn d a b t pr => Sys2Proof.Machine.execFcpsgn d a b t pr s
  | .fcmpeq d a b t pr => Sys2Proof.Machine.execFcmpeq d a b t pr s
  | .fcmplt d a b t pr => Sys2Proof.Machine.execFcmplt d a b t pr s
  | .fcmple d a b t pr => Sys2Proof.Machine.execFcmple d a b t pr s
  | .fcmpun d a b t pr => Sys2Proof.Machine.execFcmpun d a b t pr s
  | .fclass d a t pr => Sys2Proof.Machine.execFclass d a t pr s
  | .fround d a m t pr => Sys2Proof.Machine.execFround d a m t pr s
  | .cvtf d a y t pr => Sys2Proof.Machine.execCvtf d a y t pr s
  | .cvtfi d a y t pr => Sys2Proof.Machine.execCvtfi d a y t pr s
  | .cvtif d a y t pr => Sys2Proof.Machine.execCvtif d a y t pr s
  | .cvtq d a y t pr => Sys2Proof.Machine.execCvtq d a y t pr s
  | .cvtdq d a pr => Sys2Proof.Machine.execCvtdq d a pr s
  | .cvtsr d a y t pr => Sys2Proof.Machine.execCvtsr d a y t pr s
  | .ffma d a b c t pr => Sys2Proof.Machine.execFfma d a b c t pr s
  | .ffms d a b c t pr => Sys2Proof.Machine.execFfms d a b c t pr s
  | .ffnma d a b c t pr => Sys2Proof.Machine.execFfnma d a b c t pr s
  | .frcp d a t pr => Sys2Proof.Machine.execFrcp d a t pr s
  | .frsq d a t pr => Sys2Proof.Machine.execFrsq d a t pr s
  | .fsqrt d a t pr => Sys2Proof.Machine.execFsqrt d a t pr s
  | .fexp2 d a t pr => Sys2Proof.Machine.execFexp2 d a t pr s
  | .flog2 d a t pr => Sys2Proof.Machine.execFlog2 d a t pr s
  | .fsin d a t pr => Sys2Proof.Machine.execFsin d a t pr s
  | .fcos d a t pr => Sys2Proof.Machine.execFcos d a t pr s
  | .fdiv d a b t pr => Sys2Proof.Machine.execFdiv d a b t pr s
  | .vbcast d a t pr => Sys2Proof.Machine.execVbcast d a t pr s
  | .vget d a b t pr => Sys2Proof.Machine.execVget d a b t pr s
  | .vput d a b t pr => Sys2Proof.Machine.execVput d a b t pr s
  | .vperm d a b t pr => Sys2Proof.Machine.execVperm d a b t pr s
  | .vext d a b t pr => Sys2Proof.Machine.execVext d a b t pr s
  | .vins d a b t pr => Sys2Proof.Machine.execVins d a b t pr s
  | .vmov d a pr => Sys2Proof.Machine.execVmov d a pr s
  | .vli d imm => Sys2Proof.Machine.execVli d imm s
  | .vaddi d a imm => Sys2Proof.Machine.execVaddi d a imm s
  | .vshli d a sc => Sys2Proof.Machine.execVshli d a sc s
  | .vshri d a sc => Sys2Proof.Machine.execVshri d a sc s
  | .wballot d a b pr => Sys2Proof.Machine.execWballot d a b pr s
  | .wany d a b pr => Sys2Proof.Machine.execWany d a b pr s
  | .wall d a b pr => Sys2Proof.Machine.execWall d a b pr s
  | .wshfl d a b pr => Sys2Proof.Machine.execWshfl d a b pr s
  | .wshup d a b pr => Sys2Proof.Machine.execWshup d a b pr s
  | .wshdn d a b pr => Sys2Proof.Machine.execWshdn d a b pr s
  | .wbfly d a b pr => Sys2Proof.Machine.execWbfly d a b pr s
  | .wsum d a b t pr => Sys2Proof.Machine.execWsum d a b t pr s
  | .wmin d a b t pr => Sys2Proof.Machine.execWmin d a b t pr s
  | .wmax d a b t pr => Sys2Proof.Machine.execWmax d a b t pr s
  | .wscan d a b t pr => Sys2Proof.Machine.execWscan d a b t pr s
  | .mshape d a => Sys2Proof.Machine.execMshape d a s
  | .mclaim d => Sys2Proof.Machine.execMclaim d s
  | .mzero n => Sys2Proof.Machine.execMzero n s
  | .mgo n a b r => Sys2Proof.Machine.execMgo n a b r s
  | .msc a => Sys2Proof.Machine.execMsc a s
  | .mrd d n => Sys2Proof.Machine.execMrd d n s
  | .mwr n a => Sys2Proof.Machine.execMwr n a s
  | .rep n c sc => Sys2Proof.Machine.execRep n c sc s
  | .bxt d a b pr => Sys2Proof.Machine.execBxt d a b pr s
  | .trix d a b c pr => Sys2Proof.Machine.execTrix d a b c pr s
  | .cdec d a b pr => Sys2Proof.Machine.execCdec d a b pr s
  | .rbase d a b pr => Sys2Proof.Machine.execRbase d a b pr s
  | .cov d a b c pr => Sys2Proof.Machine.execCov d a b c pr s
  | .hcmp d a b pr => Sys2Proof.Machine.execHcmp d a b pr s
  | .nopC => Sys2Proof.Machine.execNopC s
  | .ret => Sys2Proof.Machine.execRet s
  | .fim => Sys2Proof.Machine.execFim s
  | .cyield => Sys2Proof.Machine.execCyield s
  | .cexit => Sys2Proof.Machine.execCexit s
  | .ifence => Sys2Proof.Machine.execIfence s
  | .xsync => Sys2Proof.Machine.execXsync s
  | .gbar => Sys2Proof.Machine.execGbar s
  | .nopA => Sys2Proof.Machine.execNopA s
  | .mrel => Sys2Proof.Machine.execMrel s
  | .repe => Sys2Proof.Machine.execRepe s
  | .illegalBundle => Sys2Proof.Machine.execIllegalBundle s
  | .sfuResultRetire => Sys2Proof.Machine.execSfuResultRetire s
  | .windowRequest => Sys2Proof.Machine.execWindowRequest s
  | .windowResponse => Sys2Proof.Machine.execWindowResponse s
  | .parkedResume => Sys2Proof.Machine.execParkedResume s
  | .c0CompletionReport => Sys2Proof.Machine.execC0CompletionReport s
  | .waveFormation => Sys2Proof.Machine.execWaveFormation s
  | .partialWaveTimeout => Sys2Proof.Machine.execPartialWaveTimeout s
  | .waveInstancePerform => Sys2Proof.Machine.execWaveInstancePerform s
  | .wsyncComplete => Sys2Proof.Machine.execWsyncComplete s
  | .gangBarrierComplete => Sys2Proof.Machine.execGangBarrierComplete s
  | .matrixOpStart => Sys2Proof.Machine.execMatrixOpStart s
  | .scaleFifoConsume => Sys2Proof.Machine.execScaleFifoConsume s
  | .matrixOpEnd => Sys2Proof.Machine.execMatrixOpEnd s
  | .replayIssue => Sys2Proof.Machine.execReplayIssue s
  | .flitInject => Sys2Proof.Machine.execFlitInject s
  | .xredChainAdd => Sys2Proof.Machine.execXredChainAdd s
  | .flitLanding => Sys2Proof.Machine.execFlitLanding s
  | .xlongPhaseEnd => Sys2Proof.Machine.execXlongPhaseEnd s
  | .xsyncComplete => Sys2Proof.Machine.execXsyncComplete s
  | .inboxArrival => Sys2Proof.Machine.execInboxArrival s
  | .hitSorterArrival => Sys2Proof.Machine.execHitSorterArrival s
  | .mailboxArrival => Sys2Proof.Machine.execMailboxArrival s
  | .overflowReturn => Sys2Proof.Machine.execOverflowReturn s
  | .copyRequestReceipt => Sys2Proof.Machine.execCopyRequestReceipt s
  | .copySectorWrite => Sys2Proof.Machine.execCopySectorWrite s
  | .copyComplete => Sys2Proof.Machine.execCopyComplete s
  | .heatRaise => Sys2Proof.Machine.execHeatRaise s
  | .sweeperHalving => Sys2Proof.Machine.execSweeperHalving s
  | .pageRequestGroup => Sys2Proof.Machine.execPageRequestGroup s
  | .pageRequestResponse => Sys2Proof.Machine.execPageRequestResponse s
  | .rdcSectorUpdate => Sys2Proof.Machine.execRdcSectorUpdate s
  | .iredFold => Sys2Proof.Machine.execIredFold s
  | .iredCombine => Sys2Proof.Machine.execIredCombine s
  | .geckoWalkStart => Sys2Proof.Machine.execGeckoWalkStart s
  | .geckoMigration => Sys2Proof.Machine.execGeckoMigration s
  | .geckoStepLimit => Sys2Proof.Machine.execGeckoStepLimit s
  | .geckoWalkEnd => Sys2Proof.Machine.execGeckoWalkEnd s
  | .rakeCommand => Sys2Proof.Machine.execRakeCommand s
  | .rakeCompletion => Sys2Proof.Machine.execRakeCompletion s
  | .chameleonCommand => Sys2Proof.Machine.execChameleonCommand s
  | .chameleonWindowAck => Sys2Proof.Machine.execChameleonWindowAck s
  | .chameleonEnd => Sys2Proof.Machine.execChameleonEnd s
  | .rayAtHome => Sys2Proof.Machine.execRayAtHome s
  | .rayArrival => Sys2Proof.Machine.execRayArrival s
  | .salternCacheFill => Sys2Proof.Machine.execSalternCacheFill s
  | .pageIn => Sys2Proof.Machine.execPageIn s
  | .evictionIdleCheck => Sys2Proof.Machine.execEvictionIdleCheck s
  | .treeletFillComplete => Sys2Proof.Machine.execTreeletFillComplete s
  | .initialPin => Sys2Proof.Machine.execInitialPin s
  | .heatPeriodEnd => Sys2Proof.Machine.execHeatPeriodEnd s
  | .lport => Sys2Proof.Machine.execLport s
  | .launchValidate => Sys2Proof.Machine.execLaunchValidate s
  | .waitWordCheck => Sys2Proof.Machine.execWaitWordCheck s
  | .launchSelection => Sys2Proof.Machine.execLaunchSelection s
  | .panGrant => Sys2Proof.Machine.execPanGrant s
  | .c0Start => Sys2Proof.Machine.execC0Start s
  | .swapOut => Sys2Proof.Machine.execSwapOut s
  | .groupRestore => Sys2Proof.Machine.execGroupRestore s
  | .preemptDelivery => Sys2Proof.Machine.execPreemptDelivery s
  | .deferredHalt => Sys2Proof.Machine.execDeferredHalt s
  | .coreSave => Sys2Proof.Machine.execCoreSave s
  | .groupRetirement => Sys2Proof.Machine.execGroupRetirement s
  | .launchEnd => Sys2Proof.Machine.execLaunchEnd s
  | .iqtail => Sys2Proof.Machine.execIqtail s
  | .invalidationStart => Sys2Proof.Machine.execInvalidationStart s
  | .invalidationComplete => Sys2Proof.Machine.execInvalidationComplete s
  | .atsInvalidateRequest => Sys2Proof.Machine.execAtsInvalidateRequest s
  | .atsInvalidateCompletion => Sys2Proof.Machine.execAtsInvalidateCompletion s
  | .atsTranslationResponse => Sys2Proof.Machine.execAtsTranslationResponse s
  | .pmap => Sys2Proof.Machine.execPmap s
  | .registerWrite => Sys2Proof.Machine.execRegisterWrite s
  | .hostBar2Access => Sys2Proof.Machine.execHostBar2Access s
  | .priReset => Sys2Proof.Machine.execPriReset s
  | .lenboFlitReceive => Sys2Proof.Machine.execLenboFlitReceive s
  | .lenboNak => Sys2Proof.Machine.execLenboNak s
  | .lenboLaneLoss => Sys2Proof.Machine.execLenboLaneLoss s
  | .lenboLinkDown => Sys2Proof.Machine.execLenboLinkDown s
  | .lenboPacketReceive => Sys2Proof.Machine.execLenboPacketReceive s
  | .lenboRetransmitTimeout => Sys2Proof.Machine.execLenboRetransmitTimeout s
  | .epochRefusal => Sys2Proof.Machine.execEpochRefusal s
  | .lenboRequestGiveUp => Sys2Proof.Machine.execLenboRequestGiveUp s
  | .lenboCreditReturn => Sys2Proof.Machine.execLenboCreditReturn s
  | .widthreq => Sys2Proof.Machine.execWidthreq s
  | .scrub => Sys2Proof.Machine.execScrub s
  | .repeatedCorrection => Sys2Proof.Machine.execRepeatedCorrection s
  | .brineDivergence => Sys2Proof.Machine.execBrineDivergence s
  | .dbgctlStop => Sys2Proof.Machine.execDbgctlStop s
  | .dbgctlDump => Sys2Proof.Machine.execDbgctlDump s
  | .dbgctlLoad => Sys2Proof.Machine.execDbgctlLoad s
  | .dbgctlResume => Sys2Proof.Machine.execDbgctlResume s
  | .thermalWarning => Sys2Proof.Machine.execThermalWarning s
  | .thermalTrip => Sys2Proof.Machine.execThermalTrip s
  | .thermalRecover => Sys2Proof.Machine.execThermalRecover s
  | .thermalPowerOff => Sys2Proof.Machine.execThermalPowerOff s
  | .powerUp => Sys2Proof.Machine.execPowerUp s
  | .fundamentalReset => Sys2Proof.Machine.execFundamentalReset s
  | .functionLevelReset => Sys2Proof.Machine.execFunctionLevelReset s
  | .getVersion => Sys2Proof.Machine.execGetVersion s
  | .getCapabilities => Sys2Proof.Machine.execGetCapabilities s
  | .negotiateAlgorithms => Sys2Proof.Machine.execNegotiateAlgorithms s
  | .getDigests => Sys2Proof.Machine.execGetDigests s
  | .getCertificate => Sys2Proof.Machine.execGetCertificate s
  | .challenge => Sys2Proof.Machine.execChallenge s
  | .getMeasurements => Sys2Proof.Machine.execGetMeasurements s
  | .powerOff => Sys2Proof.Machine.execPowerOff s

end Sys2Proof.Machine
end

