-- ==== Sys2Proof/Machine/Supervisor.lean ====
section
/-! DEFINITION. The core supervisor that the distributor loads into the supervisor segment: what it does at the start
of a core and at a trap (R116, R222, R317). Its code is firmware; while the segment holds it, a context that stands at
its entry takes the action the manual gives as one step (log 18). -/

namespace Sys2Proof.Machine

/-- A context stands at the entry of the core supervisor. -/
def Core.atSupervisor (k : Core) (c : Fin 11) : Bool :=
  k.sup && k.ctxs[c].mode && decide (k.ctxs[c].pc = trapEntry k.kstvec)

/-- KSSCR0 and KSSCR1 are scratch of the supervisor: their values are free (R222). -/
def State.scratch (s : State) : State :=
  { s with fresh := s.fresh + 2 }.modCx fun x =>
    { x with k.sscr0 := Config.freeAddr s.fresh, k.sscr1 := Config.freeAddr (s.fresh + 1) }

/-- The launch is ended with a report of this context: its KCAUSE, KEPC and KADDR (R222). The context goes no further. -/
def State.supervisorReport (s : State) (status : Cause) : State :=
  let k := s.here
  let x := s.cx
  let info : EndInfo :=
    { status := status, core := s.cur.core, ctx := s.cur.ctx.val, kepc := x.k.epc, kcause := x.k.cause, kaddr := x.k.addr }
  if k.faulted.isSome then s.stall .other
  else ((s.modHere fun k => { k with faulted := some info }).post .launchEnd { launch := k.launch, info := info }).stall .other

/-- The image copied to 0x1100 on copy tag 0 (R317). -/
def State.bootCopy (s : State) (l : Launch) : State :=
  let n := s.cur.core
  let (id, s) := s.newId
  let c := s.newCopy id .cpy 0 false false
  (s.modHere fun k => { k with boot := 1 }).sendCopy { c with
    dst := winOf n 0x1100, src := BitVec.ofNat 64 l.r.image, shape := BitVec.ofNat 64 l.r.imglen,
    dstR := some { lo := 0x1100, hi := 0x1100 + l.r.imglen } }

/-- The start of a core: the image is copied, the initial treelets are waited for, and user code is entered at ENTRY
(R317). A failure of the copy ends the launch with the copy's status. -/
def State.supervisorStart (s : State) : State :=
  match s.launch? s.here.launch with
  | none => s.stall .other
  | some l =>
    let t := s.here.tags[(0 : Fin 16)]
    if s.here.boot = 0 then (s.bootCopy l).stall .other
    else if s.here.boot = 1 then
      if t.count ≠ 0 then s.stall .other
      else if t.status ≠ 0 then s.supervisorReport t.status
      else ((s.modTag s.here.launch s.cur.core 0 Tag.clear).modHere fun k => { k with boot := 2 }).stall .other
    else if s.here.boot = 2 ∧ l.pinsLeft = 0 then
      ((s.modHere fun k => { k with boot := 3 }).modCx fun x =>
        { x with mode := false, pmode := false, k.epc := BitVec.ofNat 64 l.r.entry, pc := BitVec.ofNat 17 l.r.entry }).scratch
    else s.stall .other

/-- What the core supervisor does for the issuing context (R222). A BREAK with a debugger attached halts the core; when
it goes on, the context returns. -/
def State.supervise (s : State) : State :=
  let x := s.cx
  let code : Cause := x.k.cause.setWidth 8
  if code = 0 then s.supervisorStart
  else if code = Cause.brkStep ∧ s.here.brkHeld then
    ((s.modHere fun k => { k with brkHeld := false }).trapReturn 0xF).scratch
  else if code = Cause.brkStep ∧ s.mgmt.attach ∧ s.mgmt.dbgcore.toNat = s.cur.core then
    { s.modHere fun k => { k with dbgHalt := true, brkHeld := true } with mgmt.dbghalted := true }.stall .other
  else if x.pmode ∨ x.k.utvec &&& 0x1FFFC = 0 then s.supervisorReport code
  else (s.modCx fun x => { x with mode := false, pc := (x.k.utvec &&& 0x1FFFC).setWidth 17 }).scratch

end Sys2Proof.Machine
end

