-- ==== Sys2Proof/Machine/Sched.lean ====
section
/-! DEFINITION. What comes next: the choice of a device event or of the next core and context to issue, running
one bundle, and the wrap-up of a bundle (R34, R35, R48, R112, R174, R195 to R197, R210, R326, R457). -/

namespace Sys2Proof.Machine

/-! ### Device events -/

/-- The event at a place of the agenda, or the first of its lane, with the agenda that remains. -/
def takeTask (l : List Task) (i : Nat) : Option (Task × List Task) :=
  match l[i]? with
  | none => none
  | some t =>
    let j := if t.lane = 0 then i else l.findIdx fun u => decide (u.lane = t.lane)
    l[j]?.map fun u => (u, l.eraseIdx j)

/-- An event bound to the beginning of this tick has still to happen: it comes before any other access (R49, R259). -/
def State.startDue (s : State) : Bool :=
  decide (s.power = .service) && (s.timed.head?.map fun x => decide (x.1 ≤ 2 * s.ticks)).getD false

/-- A free choice between the pending events and issuing; with none pending, issuing (log 2). -/
def State.pick (s : State) : Option Task × State :=
  if s.agenda = [] || s.startDue then (none, s)
  else
    let k := (Config.freeTurn s.fresh + s.fresh) % (s.agenda.length + 1)
    let s := { s with fresh := s.fresh + 1 }
    if k = 0 then (none, s)
    else match takeTask s.agenda (k - 1) with
      | none => (none, s)
      | some (t, rest) => (some t, { s with agenda := rest })

/-! ### Choosing a context (R210, R326) -/

/-- The owner's replay is under way. -/
def Core.replaying (k : Core) (c : Fin 11) : Bool :=
  match k.rep with
  | some r => decide (r.owner = c) && !r.capturing && !r.ended && decide (r.suspended = 0)
  | none => false

/-- A halted core's c0 has still to take the end of its barrier (R326). -/
def Core.takesEnd (k : Core) : Bool := decide (k.run = .halted) && k.barEnd.isSome

/-- A context that may be tried: live, not suspended, parked, ending or waiting for an instance, a barrier or a
`cyield`, and a helper only once what comes before it is performed (R102); while the core defers a halt only c0, and after
the end of the phase c0 only to take the end of its barrier (R326). In the tick in which its `mgo` issues a context runs
ahead at most (R188, R196). -/
def Core.triable (k : Core) (c : Fin 11) : Bool :=
  let x := k.ctxs[c]
  (!k.dbgHalt || k.midIssue c) && x.live && !x.susp && !x.parked && !x.ending && (x.waveOp.elim true WaveOp.replayed) && decide (x.yieldFor = 0) &&
  (x.after.all fun id => !(k.win.any fun e => decide (e.id = id) && e.resp.isNone)) &&
  (match k.arrival with
   | some a => decide (a.ctx ≠ c) || (a.replayed && k.replaying c)
   | none => true) &&
  (decide (c ≠ 0) || k.barrier.isNone || k.barEnd.isSome) &&
  (decide (k.run = .running) || (decide (c = 0) && (decide (k.run = .halting) || k.takesEnd)))

/-- The next context to try from the pointer on, among those not tried since it moved (R210): how many places
past the pointer, and which. -/
def Core.nextCtx (k : Core) : Option (Nat × Fin 11) :=
  (((List.range 11).filter fun i => decide (k.tried ≤ i)).map fun i => (i, Fin.ofNat 11 (k.rr.val + i))).find?
    fun x => k.triable x.2

/-- Some core from `turn` on may issue. A debugger halts a core between two instructions (R116, R452). -/
def State.nextCore (s : State) : Option (Nat × Core) :=
  s.cores.find? fun x =>
    decide (s.turn ≤ x.1) && (!x.2.dbgHalt || !x.2.atBoundary) &&
    (decide (x.2.run = .running) || decide (x.2.run = .halting) || x.2.takesEnd)

/-! ### One bundle -/

/-- The A-word of a pair runs at the next word, on the registers the bundle started with (R34), under the whole of KMASK
(R112). -/
def State.atAWord (s : State) (x : Context) : State :=
  { s with cur.at_ := s.cur.p + 4, cur.isA := true, cur.snap := some x, cur.lanes := 0xF }

/-- A pair (R34, R35, R457): a condition that holds the A-word holds the bundle; then the C-word, and unless it
waits or faults, the A-word. -/
def State.runPair (s : State) (c a : Instr) : Result :=
  let s := { s with cur.pair := true }
  match exec a (s.atAWord s.cx) with
  | .next r =>
    if r.cur.stalled then .next (s.stall .other)
    else match exec c s with
      | .next t => if t.cur.stalled || t.cur.trapped then .next t else exec a (t.atAWord s.cx)
      | e => e
  | e => e

/-- The words of a bundle executed; the PC already stands after it (R38). -/
def State.runBundle (s : State) (b : Bundle) : Result :=
  match b with
  | .lone i isA => exec i { s with cur.isA := isA }
  | .pair c a => s.runPair c a

/-- A decode fault is the event of its own row (R35, R46). -/
def State.runBad (s : State) (b : BadBundle) : Result :=
  let s := match b.addr with
    | some _ => s
    | none => { s with fresh := s.fresh + 1 }
  exec .illegalBundle { s with
    ev := { cause := b.cause, addr := b.epc.toNat, flag := b.isA, value := b.addr.getD (Config.freeAddr (s.fresh - 1)) } }

/-- The latch of a bundle of context `c` of core `n`, standing at its PC. An A-word executed alone (R112) is the A-word
of the pair it stands in (log 12). -/
def State.latch (s : State) (n : Nat) (c : Fin 11) (size : Off) : State :=
  let x := s.ctx n c
  { s.modCtx n c fun x => { x with pc := x.pc + size } with
    cur := { core := n, ctx := c, p := if x.aword then x.pc - 4 else x.pc, at_ := x.pc, next := x.pc + size,
             isA := x.aword, pair := x.aword, lanes := (x.reLanes.map Redo.lanes).getD 0xF } }

/-- The size of a fetched bundle. -/
def Bundle.size : Bundle → Off
  | .lone _ _ => 4
  | .pair _ _ => 8

/-- A fetched bundle that may issue runs; otherwise it waits, or a report is delivered (R48, R153). -/
def State.tryBundle (s : State) (n : Nat) (c : Fin 11) (b : Bundle) : Result :=
  let x := s.ctx n c
  let s := s.latch n c b.size
  let m := (s.core n).rowsRead x
  if x.readsRefused m b then
    match x.reports with
    | r :: _ => .next (s.deliver r)
    | [] => .next s
  else if x.held m b then .next (s.stall .other)
  else if (s.core n).run = .halting ∧ b.deferHeld then .next (s.stall .other)
  else s.runBundle b

/-! ### Replays (R195 to R197) -/

/-- The replayed word that issues next, with its fields advanced. -/
def Rep.word (r : Rep) : Option Instr :=
  (r.words[r.next]?).bind fun w => (decodeNat w.toNat).map (advanced (r.iter * r.stride.toNat))

/-- A C-word that may run ahead of a replay: majors 0x09 to 0x10 and 0x13, `nop` and `kget` (R196). -/
def runsAhead (w : Nat) : Bool :=
  let m := fld w 24 6
  isLone w && !isAClass w &&
    ((decide (0x09 ≤ m) && decide (m ≤ 0x10)) || decide (m = 0x13) ||
     (decide (m = 0) && (decide (fld w 19 5 = 0) || decide (fld w 19 5 = 3))))

/-- The replayed word alone. -/
def State.replayAlone (s : State) (n : Nat) (c : Fin 11) : Result :=
  exec .replayIssue (s.latch n c 0)

/-- A fetched C-word that joins the replayed word, when it is ready and the two meet the rules of a pair; the one
that is not ready waits alone (R196). -/
def State.replayStep (s : State) (n : Nat) (c : Fin 11) : Result :=
  let k := s.core n
  let x := k.ctxs[c]
  match k.rep.bind Rep.word with
  | none => s.replayAlone n c
  | some a =>
    let waiting := decide ((k.arrival.map Arrival.ctx) = some c) || x.waveOp.isSome
    match s.fetch n x.mode x.pc x.fbuf with
    | .error _ => if waiting then .next ((s.latch n c 0).stall .gang) else s.replayAlone n c
    | .ok b =>
      match b with
      | .pair _ _ => if waiting then .next ((s.latch n c 0).stall .gang) else s.replayAlone n c
      | .lone i _ =>
        if !runsAhead (s.codeWord n x.pc) || (writes i).meets (writes a) || x.held (k.rowsRead x) b ||
            x.readsRefused (k.rowsRead x) b then
          if waiting then .next ((s.latch n c 0).stall .gang) else s.replayAlone n c
        else
          match exec i (s.latch n c 4) with
          | .next t =>
            if t.cur.stalled then
              if waiting then .next t else s.replayAlone n c
            else if t.cur.trapped || waiting then .next t
            else
              match exec .replayIssue { t with cur.snap := some x } with
              | .next u => if u.cur.stalled then .next t else .next u
              | e => e
          | e => e

/-! ### Wrap-up -/

/-- A context whose bundle has retired whole, so that single step may stop it: nothing of it is left for the next bundle
(R24, R112). -/
def Context.retired (x : Context) : Bool := x.live && !x.ending && x.reLanes.isNone && !x.aword

/-- After any other bundle a context sees what window stores of other cores have written: these order nothing, as R232 has
it, among them the loads and the branches (R306; log 30). -/
def Bundle.quiet : Bundle → Bool
  | .lone i _ =>
    match i with
    | .ld8 .. | .ld8z .. | .ld16 .. | .ld16z .. | .ld32 .. | .ld32z .. | .ld64 .. => true
    | .br .. | .bz .. | .bnz .. | .addi .. => true
    | _ => false
  | .pair _ _ => false

/-- A bundle that issued: the pointer moves past it, its A-word is captured, single step traps. One that did not
issue stands where it was. What `old`, the context before the bundle, was to execute in part is done with, unless a
replayed word issued alone (R196); a `tret` may have left such a bundle for the next time (R112). -/
def State.finish (s : State) (captured : Option (BitVec 32)) (step : Bool) (old : Context) (quiet : Bool) : State :=
  let n := s.cur.core
  let c := s.cur.ctx
  let unfetched := decide (s.cur.next = old.pc)
  if s.cur.stalled then
    (s.modCore n fun k => ((k.modCtx c fun x => { x with pc := old.pc }).unyield c)).modCore n
      fun k => { k with tried := k.tried + 1 }
  else
    let s := if quiet || (s.core n).past.isEmpty then s else s.modCore n fun k => k.closePast c fun _ => true
    let s := if s.cur.trapped || s.cur.joined then s
      else s.modCore n fun k => k.capture c captured s.cur.at_
    let s := if s.cur.trapped then s
      else s.modCtx n c fun x => { x with block := if s.cur.joined then x.block else none,
                                          reLanes := if (s.cur.joined && !s.cur.pair) || old.reLanes.isNone || unfetched then x.reLanes
                                            else none,
                                          aword := (s.cur.joined || !old.aword || unfetched) && x.aword,
                                          fbuf := if x.pc = s.cur.next then x.fbuf.filter fun b => unfetched || decide (b.1 ≠ old.pc)
                                            else [] }
    let s := if step && !s.cur.trapped && !s.cur.joined && (s.ctx n c).retired then s.breakStep n c else s
    { s.modCore n fun k => { k.unyield c with rr := c + 1, tried := 0 } with turn := n + 1 }

/-- The A-word of a bundle, when it has one that a capture takes: any but the `rep` that started it (R195). -/
def State.captureWord (s : State) (n : Nat) (p : Off) (b : Bundle) : Option (BitVec 32) :=
  match b with
  | .lone i isA => if isA && !isRep i then some (BitVec.ofNat 32 (s.codeWord n p)) else none
  | .pair _ a => if isRep a then none else some (BitVec.ofNat 32 (s.codeWord n (p + 4)))
where
  /-- The word is `rep`. -/
  isRep : Instr → Bool
    | .rep _ _ _ => true
    | _ => false

/-- One attempt of context `c` of core `n` to issue. -/
def State.attempt (s : State) (n : Nat) (c : Fin 11) : Result :=
  let k := s.core n
  let x := k.ctxs[c]
  let step := x.sstep && !x.mode
  let wrap (r : Result) (w : Option (BitVec 32)) (quiet : Bool := false) : Result :=
    match r with
    | .next t => .next { t.finish w step x quiet with cur := {} }
    | e => e
  if c = 0 ∧ k.xlongDue ∧ x.reLanes.isNone ∧ k.barEnd.isNone then
    let s := (s.latch n c 0).modCore n fun k => { k with xlongDue := false }
    wrap (.next (s.faultOpen Cause.xlong)) none
  else if k.atSupervisor c then wrap (.next (s.latch n c 0).supervise) none
  else if k.replaying c then wrap (s.replayStep n c) none
  else
    match (if x.aword then s.fetchAWord n x.mode x.pc else s.fetch n x.mode x.pc x.fbuf) with
    | .error b => wrap ((s.latch n c 0).runBad b) none
    | .ok b =>
      wrap (s.tryBundle n c b) (s.captureWord n x.pc b) b.quiet

/-- The words that contexts wait for are looked at after a step (R158). -/
def watched (r : Result) : Result :=
  match r with
  | .next t => .next t.watch
  | e => e

/-! ### The clock -/

/-- A tick: every resident group's slot count goes on; a count of 1,000 in an exchange phase ends it, before anything
issues in that tick (R174, R253). -/
def State.tick (s : State) : State :=
  let due := s.groups.filter fun x =>
    decide (x.2.st = .resident) && x.2.exch && decide (x.2.kxslot + 1 = 1000)
  { s with
    ticks := s.ticks + 1, turn := 0,
    groups := s.groups.map fun x =>
      (x.1, if x.2.st = .resident then { x.2 with kxslot := min 0xFFFF (x.2.kxslot + 1) } else x.2)
    timed := due.foldl (fun l x =>
      insertTimed (2 * (s.ticks + 1)) { op := .xlongPhaseEnd, arg := { group := x.1 }, lane := 0 } l) s.timed }

/-- The first event bound to a time no later than `now` happens; without one, `other`. -/
def State.atTime (s : State) (now : Nat) (other : Result) : Result :=
  match s.timed with
  | [] => other
  | (t, task) :: rest => if t ≤ now then exec task.op { s with timed := rest, ev := task.arg, cur := {} } else other

/-- The end of a tick: an event bound to it, or the next tick. -/
def State.endTick (s : State) : Result := s.atTime (2 * s.ticks + 1) (.next s.tick)

/-- Issue: the next core and context, or the end of the tick. -/
def State.issue (s : State) : Result :=
  s.atTime (2 * s.ticks) <|
    match s.nextCore with
    | none => s.endTick
    | some (n, k) =>
      match k.nextCtx with
      | none => .next { s.modCore n fun k => { k with tried := 0 } with turn := n + 1 }
      | some (i, c) => (s.modCore n fun k => { k with tried := i }).attempt n c

end Sys2Proof.Machine
end

