-- ==== Sys2Proof/Machine/Step.lean ====
section
/-! DEFINITION. One step of the package, and the placing of one instruction where the next step fetches. -/

namespace Sys2Proof.Machine

/-- One step: a pending device event, or the next bundle, or the end of a tick; then the ports look at the words that
contexts wait for (R158). A package without power and with nothing pending takes none. -/
def step (s : State) : Host.Outcome State Fault Refusal :=
  match s.pick with
  | (some t, s) => watched (exec t.op { s with ev := t.arg, cur := {} })
  | (none, s) =>
    match s.power with
    | .service => watched s.issue
    | .off => if s.agenda = [] then .fault .powerless else .next s.tick
    | _ => .next s.tick

/-- The state with core 0 placed as the distributor leaves a started core: c0 in supervisor mode at offset 0 with
the reset segments, in a launch of one 8 × 1 group (R315, R317; log 4). -/
def State.placed (s : State) : State :=
  let place (k : Core) : Core := { k with run := .running, launch := 0, group := 0, helpers := 10, rr := 0, tried := 0 }
  let c0 (k : Core) : Core := k.modCtx 0 fun _ => { Context.reset with live := true, mode := true }
  { s.modCore 0 fun k => c0 (place k) with
    turn := 0, agenda := [], power := .service,
    groups := [(0, { launch := 0, num := 0, corner := 0, w := 8, h := 1, st := .resident })],
    launches := [{ id := 0, va := 0, src := .channel 0, st := .started, groups := [0] }] }

/-- The state with one instruction of the opcode table stored where `step` fetches next: offset 0 of core 0. A word
with L = 0 stands in a pair with a `nop` (R32, R33). -/
def State.withFetchWord (s : State) (_nbits w : Nat) : State :=
  let s := s.placed
  let w := w % 2 ^ 32
  let two (a b : Nat) : State := (s.storeNat (ulmKey 0 0) 4 a).storeNat (ulmKey 0 4) 4 b
  if isLone w then s.storeNat (ulmKey 0 0) 4 w
  else if isAClass w then two 0 w
  else two w 0x40000000

end Sys2Proof.Machine
end

