-- ==== Sys2Proof/Laws/PerInstr.lean ====
section
/-! SUPPORT. Decoding what was encoded, instruction by instruction. The family `RoundTrip`: a word instruction has a
word with either L bit, a device event has none, and the word of a well-formed instruction decodes to that instruction
and that L bit. -/

namespace Sys2Proof

theorem View.ofCode_code (t : View) : View.ofCode t.code = some t := by cases t <;> rfl
theorem FFmt.ofCode_code (t : FFmt) : FFmt.ofCode t.code = some t := by cases t <;> rfl
theorem SFmt.ofCode_code (t : SFmt) : SFmt.ofCode t.code = some t := by cases t <;> rfl
theorem TyCode.ofCode_code (t : TyCode) : TyCode.ofCode t.code = some t := by cases t <;> rfl
theorem RMode.ofCode_code (t : RMode) : RMode.ofCode t.code = some t := by cases t <;> rfl
theorem Cull.ofCode_code (t : Cull) : Cull.ofCode t.code = some t := by cases t <;> rfl
theorem AWidth.ofCode_code (t : AWidth) : AWidth.ofCode t.code = some t := by cases t <;> rfl
theorem Order.ofCode_code (t : Order) : Order.ofCode t.code = some t := by cases t <;> rfl
theorem Scope.ofCode_code (t : Scope) : Scope.ofCode t.code = some t := by cases t <;> rfl
theorem Port.ofCode_code (t : Port) : Port.ofCode t.code = some t := by cases t <;> rfl
theorem XMode.ofCode_code (t : XMode) : XMode.ofCode t.code = some t := by cases t <;> rfl
theorem View.code_lt (t : View) : t.code < 4 := by cases t <;> decide
theorem FFmt.code_lt (t : FFmt) : t.code < 4 := by cases t <;> decide
theorem SFmt.code_lt (t : SFmt) : t.code < 2 := by cases t <;> decide
theorem TyCode.code_lt (t : TyCode) : t.code < 32 := by cases t <;> decide
theorem RMode.code_lt (t : RMode) : t.code < 8 := by cases t <;> decide
theorem Cull.code_lt (t : Cull) : t.code < 4 := by cases t <;> decide
theorem AWidth.code_lt (t : AWidth) : t.code < 2 := by cases t <;> decide
theorem Order.code_lt (t : Order) : t.code < 4 := by cases t <;> decide
theorem Scope.code_lt (t : Scope) : t.code < 4 := by cases t <;> decide
theorem Port.code_lt (t : Port) : t.code < 4 := by cases t <;> decide
theorem XMode.code_lt (t : XMode) : t.code < 4 := by cases t <;> decide
theorem bitNat_lt (b : Bool) : bitNat b < 2 := by cases b <;> decide
theorem bitNat_eq_one (b : Bool) : decide (bitNat b = 1) = b := by cases b <;> rfl

set_option linter.unusedSimpArgs false

namespace Laws.RoundTrip

/-- Encoding and decoding agree on an instruction. -/
def Statement (i : Instr) : Prop :=
  ∀ lone : Bool, (encode lone i).isSome = i.isWord ∧
    (wellFormed i = true → ∀ w, encode lone i = some w → decodeWord w = some (lone || loneOnly i, i))

/-- A device event has no word. -/
theorem ofEvent (i : Instr) (h : encodeBody i = none) (hw : i.isWord = false) : Statement i := by
  intro lone
  refine ⟨by simp [encode, h, hw], fun _ w hw => ?_⟩
  simp [encode, h] at hw

/-- What is left to show of a word instruction: its bits stay below L, and decode with either L bit. -/
theorem ofWord (i : Instr) (n : Nat) (h : encodeBody i = some n) (hw : i.isWord = true) (hn : n < 2 ^ 31)
    (hd : ∀ L w, L < 2 → wellFormed i = true → w = n + L * 2 ^ 31 → decodeNat w = some i) : Statement i := by
  intro lone
  refine ⟨by simp [encode, h, hw], fun hf w hw => ?_⟩
  have hb := bitNat_lt (lone || loneOnly i)
  have hl : n + bitNat (lone || loneOnly i) * 2 ^ 31 < 2 ^ 32 := by omega
  simp only [encode, h, Option.map_some, Option.some.injEq] at hw
  have e : w.toNat = n + bitNat (lone || loneOnly i) * 2 ^ 31 := by
    rw [← hw, BitVec.toNat_ofNat, Nat.mod_eq_of_lt hl]
  have hL : isLone (n + bitNat (lone || loneOnly i) * 2 ^ 31) = (lone || loneOnly i) := by
    have : fld (n + bitNat (lone || loneOnly i) * 2 ^ 31) 31 1 = bitNat (lone || loneOnly i) := by unfold fld; omega
    rw [isLone, flag, this, bitNat_eq_one]
  rw [decodeWord, e, hd _ _ hb hf rfl, Option.map_some, hL]

/-! The fields of a word, one lemma for each layout of fields. -/

theorem bits00 (x0 c0 c1 L w : Nat) (b0 : x0 < 16384) (b1 : c0 < 64) (b2 : c1 < 32)
    (hw : w = x0 * 1 + c0 * 16777216 + c1 * 524288 + L * 2147483648) :
    fld w 30 1 = 0 ∧ fld w 24 6 = c0 ∧ fld w 19 5 = c1 ∧ fld w 14 5 = 0 ∧ fld w 0 14 = x0 := by
  unfold fld; refine ⟨?_, ?_, ?_, ?_, ?_⟩ <;> omega

theorem bits01 (x0 x1 c0 c1 L w : Nat) (b0 : x0 < 16) (b1 : x1 < 2) (b2 : c0 < 64) (b3 : c1 < 32)
    (hw : w = x0 * 1 + x1 * 16384 + c0 * 16777216 + c1 * 524288 + L * 2147483648) :
    fld w 30 1 = 0 ∧ fld w 24 6 = c0 ∧ fld w 19 5 = c1 ∧ fld w 4 10 = 0 ∧ fld w 15 4 = 0 ∧ fld w 14 1 = x1 ∧ fld w 0 4 = x0 := by
  unfold fld; refine ⟨?_, ?_, ?_, ?_, ?_, ?_, ?_⟩ <;> omega

theorem bits02 (x0 x1 c0 c1 L w : Nat) (b0 : x0 < 16384) (b1 : x1 < 32) (b2 : c0 < 64) (b3 : c1 < 32)
    (hw : w = x0 * 1 + x1 * 16384 + c0 * 16777216 + c1 * 524288 + L * 2147483648) :
    fld w 30 1 = 0 ∧ fld w 24 6 = c0 ∧ fld w 19 5 = c1 ∧ fld w 14 5 = x1 ∧ fld w 0 14 = x0 := by
  unfold fld; refine ⟨?_, ?_, ?_, ?_, ?_⟩ <;> omega

theorem bits03 (x0 c0 c1 L w : Nat) (b0 : x0 < 32) (b1 : c0 < 64) (b2 : c1 < 32)
    (hw : w = x0 * 16384 + c0 * 16777216 + c1 * 524288 + L * 2147483648) :
    fld w 30 1 = 0 ∧ fld w 24 6 = c0 ∧ fld w 19 5 = c1 ∧ fld w 0 14 = 0 ∧ fld w 14 5 = x0 := by
  unfold fld; refine ⟨?_, ?_, ?_, ?_, ?_⟩ <;> omega

theorem bits04 (x0 c0 L w : Nat) (b0 : x0 < 16777216) (b1 : c0 < 64)
    (hw : w = x0 * 1 + c0 * 16777216 + L * 2147483648) :
    fld w 30 1 = 0 ∧ fld w 24 6 = c0 ∧ fld w 0 24 = x0 := by
  unfold fld; refine ⟨?_, ?_, ?_⟩ <;> omega

theorem bits05 (x0 x1 c0 c1 L w : Nat) (b0 : x0 < 262144) (b1 : x1 < 8) (b2 : c0 < 64) (b3 : c1 < 8)
    (hw : w = x0 * 1 + x1 * 2097152 + c0 * 16777216 + c1 * 262144 + L * 2147483648) :
    fld w 30 1 = 0 ∧ fld w 24 6 = c0 ∧ fld w 18 3 = c1 ∧ fld w 21 3 = x1 ∧ fld w 0 18 = x0 := by
  unfold fld; refine ⟨?_, ?_, ?_, ?_, ?_⟩ <;> omega

theorem bits06 (x0 x1 c0 c1 L w : Nat) (b0 : x0 < 262144) (b1 : x1 < 32) (b2 : c0 < 64) (b3 : c1 < 2)
    (hw : w = x0 * 1 + x1 * 262144 + c0 * 16777216 + c1 * 8388608 + L * 2147483648) :
    fld w 30 1 = 0 ∧ fld w 24 6 = c0 ∧ fld w 23 1 = c1 ∧ fld w 18 5 = x1 ∧ fld w 0 18 = x0 := by
  unfold fld; refine ⟨?_, ?_, ?_, ?_, ?_⟩ <;> omega

theorem bits07 (x0 x1 x2 c0 c1 L w : Nat) (b0 : x0 < 4096) (b1 : x1 < 32) (b2 : x2 < 32) (b3 : c0 < 64) (b4 : c1 < 4)
    (hw : w = x0 * 1 + x1 * 4096 + x2 * 131072 + c0 * 16777216 + c1 * 4194304 + L * 2147483648) :
    fld w 30 1 = 0 ∧ fld w 24 6 = c0 ∧ fld w 22 2 = c1 ∧ fld w 17 5 = x2 ∧ fld w 12 5 = x1 ∧ fld w 0 12 = x0 := by
  unfold fld; refine ⟨?_, ?_, ?_, ?_, ?_, ?_⟩ <;> omega

theorem bits08 (x0 c0 c1 L w : Nat) (b0 : x0 < 32) (b1 : c0 < 64) (b2 : c1 < 32)
    (hw : w = x0 * 16384 + c0 * 16777216 + c1 * 16 + L * 2147483648) :
    fld w 30 1 = 0 ∧ fld w 24 6 = c0 ∧ fld w 4 5 = c1 ∧ fld w 0 4 = 0 ∧ fld w 9 5 = 0 ∧ fld w 19 5 = 0 ∧ fld w 14 5 = x0 := by
  unfold fld; refine ⟨?_, ?_, ?_, ?_, ?_, ?_, ?_⟩ <;> omega

theorem bits09 (x0 x1 c0 c1 L w : Nat) (b0 : x0 < 8) (b1 : x1 < 32768) (b2 : c0 < 64) (b3 : c1 < 32)
    (hw : w = x0 * 1 + x1 * 512 + c0 * 16777216 + c1 * 16 + L * 2147483648) :
    fld w 30 1 = 0 ∧ fld w 24 6 = c0 ∧ fld w 4 5 = c1 ∧ fld w 3 1 = 0 ∧ fld w 0 3 = x0 ∧ fld w 9 15 = x1 := by
  unfold fld; refine ⟨?_, ?_, ?_, ?_, ?_, ?_⟩ <;> omega

theorem bits10 (x0 c0 c1 L w : Nat) (b0 : x0 < 32768) (b1 : c0 < 64) (b2 : c1 < 32)
    (hw : w = x0 * 512 + c0 * 16777216 + c1 * 16 + L * 2147483648) :
    fld w 30 1 = 0 ∧ fld w 24 6 = c0 ∧ fld w 4 5 = c1 ∧ fld w 0 4 = 0 ∧ fld w 9 15 = x0 := by
  unfold fld; refine ⟨?_, ?_, ?_, ?_, ?_⟩ <;> omega

theorem bits11 (x0 c0 c1 L w : Nat) (b0 : x0 < 8) (b1 : c0 < 64) (b2 : c1 < 32)
    (hw : w = x0 * 1 + c0 * 16777216 + c1 * 16 + L * 2147483648) :
    fld w 30 1 = 0 ∧ fld w 24 6 = c0 ∧ fld w 4 5 = c1 ∧ fld w 3 1 = 0 ∧ fld w 9 15 = 0 ∧ fld w 0 3 = x0 := by
  unfold fld; refine ⟨?_, ?_, ?_, ?_, ?_, ?_⟩ <;> omega

theorem bits12 (x0 x1 x2 c0 c1 L w : Nat) (b0 : x0 < 32) (b1 : x1 < 32) (b2 : x2 < 32) (b3 : c0 < 64) (b4 : c1 < 32)
    (hw : w = x0 * 512 + x1 * 16384 + x2 * 524288 + c0 * 16777216 + c1 * 16 + L * 2147483648) :
    fld w 30 1 = 0 ∧ fld w 24 6 = c0 ∧ fld w 4 5 = c1 ∧ fld w 0 4 = 0 ∧ fld w 19 5 = x2 ∧ fld w 14 5 = x1 ∧ fld w 9 5 = x0 := by
  unfold fld; refine ⟨?_, ?_, ?_, ?_, ?_, ?_, ?_⟩ <;> omega

theorem bits13 (x0 x1 c0 c1 L w : Nat) (b0 : x0 < 32) (b1 : x1 < 32) (b2 : c0 < 64) (b3 : c1 < 32)
    (hw : w = x0 * 16384 + x1 * 524288 + c0 * 16777216 + c1 * 16 + L * 2147483648) :
    fld w 30 1 = 0 ∧ fld w 24 6 = c0 ∧ fld w 4 5 = c1 ∧ fld w 0 4 = 0 ∧ fld w 9 5 = 0 ∧ fld w 19 5 = x1 ∧ fld w 14 5 = x0 := by
  unfold fld; refine ⟨?_, ?_, ?_, ?_, ?_, ?_, ?_⟩ <;> omega

theorem bits14 (x0 x1 c0 c1 L w : Nat) (b0 : x0 < 32) (b1 : x1 < 32) (b2 : c0 < 64) (b3 : c1 < 32)
    (hw : w = x0 * 512 + x1 * 16384 + c0 * 16777216 + c1 * 16 + L * 2147483648) :
    fld w 30 1 = 0 ∧ fld w 24 6 = c0 ∧ fld w 4 5 = c1 ∧ fld w 0 4 = 0 ∧ fld w 19 5 = 0 ∧ fld w 14 5 = x1 ∧ fld w 9 5 = x0 := by
  unfold fld; refine ⟨?_, ?_, ?_, ?_, ?_, ?_, ?_⟩ <;> omega

theorem bits15 (x0 x1 x2 c0 c1 L w : Nat) (b0 : x0 < 2048) (b1 : x1 < 32) (b2 : x2 < 32) (b3 : c0 < 64) (b4 : c1 < 8)
    (hw : w = x0 * 1 + x1 * 16384 + x2 * 524288 + c0 * 16777216 + c1 * 2048 + L * 2147483648) :
    fld w 30 1 = 0 ∧ fld w 24 6 = c0 ∧ fld w 11 3 = c1 ∧ fld w 19 5 = x2 ∧ fld w 14 5 = x1 ∧ fld w 0 11 = x0 := by
  unfold fld; refine ⟨?_, ?_, ?_, ?_, ?_, ?_⟩ <;> omega

theorem bits16 (x0 x1 x2 x3 x4 x5 c0 c1 L w : Nat) (b0 : x0 < 4) (b1 : x1 < 4) (b2 : x2 < 2) (b3 : x3 < 32) (b4 : x4 < 32) (b5 : x5 < 32) (b6 : c0 < 64) (b7 : c1 < 16)
    (hw : w = x0 * 1 + x1 * 4 + x2 * 256 + x3 * 512 + x4 * 16384 + x5 * 524288 + c0 * 16777216 + c1 * 16 + L * 2147483648) :
    fld w 30 1 = 0 ∧ fld w 24 6 = c0 ∧ fld w 4 4 = c1 ∧ fld w 8 1 = x2 ∧ fld w 2 2 = x1 ∧ fld w 0 2 = x0 ∧ fld w 19 5 = x5 ∧ fld w 14 5 = x4 ∧ fld w 9 5 = x3 := by
  unfold fld; refine ⟨?_, ?_, ?_, ?_, ?_, ?_, ?_, ?_, ?_⟩ <;> omega

theorem bits17 (x0 c0 c1 L w : Nat) (b0 : x0 < 4) (b1 : c0 < 64) (b2 : c1 < 32)
    (hw : w = x0 * 1 + c0 * 16777216 + c1 * 16 + L * 2147483648) :
    fld w 30 1 = 0 ∧ fld w 24 6 = c0 ∧ fld w 4 5 = c1 ∧ fld w 2 2 = 0 ∧ fld w 9 15 = 0 ∧ fld w 0 2 = x0 := by
  unfold fld; refine ⟨?_, ?_, ?_, ?_, ?_, ?_⟩ <;> omega

theorem bits18 (x0 x1 x2 x3 x4 c0 c1 L w : Nat) (b0 : x0 < 4) (b1 : x1 < 2) (b2 : x2 < 32) (b3 : x3 < 32) (b4 : x4 < 32) (b5 : c0 < 64) (b6 : c1 < 32)
    (hw : w = x0 * 1 + x1 * 4 + x2 * 512 + x3 * 16384 + x4 * 524288 + c0 * 16777216 + c1 * 16 + L * 2147483648) :
    fld w 30 1 = 0 ∧ fld w 24 6 = c0 ∧ fld w 4 5 = c1 ∧ fld w 3 1 = 0 ∧ fld w 0 2 = x0 ∧ fld w 19 5 = x4 ∧ fld w 14 5 = x3 ∧ fld w 9 5 = x2 ∧ fld w 2 1 = x1 := by
  unfold fld; refine ⟨?_, ?_, ?_, ?_, ?_, ?_, ?_, ?_, ?_⟩ <;> omega

theorem bits19 (x0 x1 x2 x3 x4 x5 c0 c1 L w : Nat) (b0 : x0 < 16) (b1 : x1 < 2) (b2 : x2 < 2) (b3 : x3 < 32) (b4 : x4 < 32) (b5 : x5 < 32) (b6 : c0 < 64) (b7 : c1 < 8)
    (hw : w = x0 * 1 + x1 * 128 + x2 * 256 + x3 * 512 + x4 * 16384 + x5 * 524288 + c0 * 16777216 + c1 * 16 + L * 2147483648) :
    fld w 30 1 = 0 ∧ fld w 24 6 = c0 ∧ fld w 4 3 = c1 ∧ fld w 0 4 = x0 ∧ fld w 19 5 = x5 ∧ fld w 14 5 = x4 ∧ fld w 9 5 = x3 ∧ fld w 8 1 = x2 ∧ fld w 7 1 = x1 := by
  unfold fld; refine ⟨?_, ?_, ?_, ?_, ?_, ?_, ?_, ?_, ?_⟩ <;> omega

theorem bits20 (x0 x1 x2 x3 c0 c1 L w : Nat) (b0 : x0 < 16) (b1 : x1 < 2) (b2 : x2 < 32) (b3 : x3 < 32) (b4 : c0 < 64) (b5 : c1 < 8)
    (hw : w = x0 * 1 + x1 * 256 + x2 * 512 + x3 * 16384 + c0 * 16777216 + c1 * 16 + L * 2147483648) :
    fld w 30 1 = 0 ∧ fld w 24 6 = c0 ∧ fld w 4 3 = c1 ∧ fld w 7 1 = 0 ∧ fld w 19 5 = 0 ∧ fld w 0 4 = x0 ∧ fld w 22 2 = 0 ∧ fld w 14 5 = x3 ∧ fld w 9 5 = x2 ∧ fld w 19 3 = 0 ∧ fld w 8 1 = x1 := by
  unfold fld; refine ⟨?_, ?_, ?_, ?_, ?_, ?_, ?_, ?_, ?_, ?_, ?_⟩ <;> omega

theorem bits21 (x0 x1 x2 x3 x4 c0 c1 c2 L w : Nat) (b0 : x0 < 16) (b1 : x1 < 2) (b2 : x2 < 32) (b3 : x3 < 32) (b4 : x4 < 8) (b5 : c0 < 64) (b6 : c1 < 8) (b7 : c2 < 2)
    (hw : w = x0 * 1 + x1 * 256 + x2 * 512 + x3 * 16384 + x4 * 524288 + c0 * 16777216 + c1 * 16 + c2 * 128 + L * 2147483648) :
    fld w 30 1 = 0 ∧ fld w 24 6 = c0 ∧ fld w 4 3 = c1 ∧ fld w 7 1 = c2 ∧ fld w 19 5 = x4 ∧ fld w 0 4 = x0 ∧ fld w 22 2 = 0 ∧ fld w 14 5 = x3 ∧ fld w 9 5 = x2 ∧ fld w 19 3 = x4 ∧ fld w 8 1 = x1 := by
  unfold fld; refine ⟨?_, ?_, ?_, ?_, ?_, ?_, ?_, ?_, ?_, ?_, ?_⟩ <;> omega

theorem bits22 (x0 x1 x2 x3 c0 c1 L w : Nat) (b0 : x0 < 16) (b1 : x1 < 2) (b2 : x2 < 32) (b3 : x3 < 32) (b4 : c0 < 64) (b5 : c1 < 8)
    (hw : w = x0 * 1 + x1 * 256 + x2 * 512 + x3 * 16384 + c0 * 16777216 + c1 * 16 + L * 2147483648) :
    fld w 30 1 = 0 ∧ fld w 24 6 = c0 ∧ fld w 4 3 = c1 ∧ fld w 7 1 = 0 ∧ fld w 19 5 = 0 ∧ fld w 0 4 = x0 ∧ fld w 14 5 = x3 ∧ fld w 9 5 = x2 ∧ fld w 8 1 = x1 := by
  unfold fld; refine ⟨?_, ?_, ?_, ?_, ?_, ?_, ?_, ?_, ?_⟩ <;> omega

theorem bits23 (x0 x1 x2 x3 x4 c0 c1 L w : Nat) (b0 : x0 < 16) (b1 : x1 < 2) (b2 : x2 < 32) (b3 : x3 < 32) (b4 : x4 < 32) (b5 : c0 < 64) (b6 : c1 < 8)
    (hw : w = x0 * 1 + x1 * 256 + x2 * 512 + x3 * 16384 + x4 * 524288 + c0 * 16777216 + c1 * 16 + L * 2147483648) :
    fld w 30 1 = 0 ∧ fld w 24 6 = c0 ∧ fld w 4 3 = c1 ∧ fld w 7 1 = 0 ∧ fld w 0 4 = x0 ∧ fld w 19 5 = x4 ∧ fld w 14 5 = x3 ∧ fld w 9 5 = x2 ∧ fld w 8 1 = x1 := by
  unfold fld; refine ⟨?_, ?_, ?_, ?_, ?_, ?_, ?_, ?_, ?_⟩ <;> omega

theorem bits24 (x0 x1 x2 c0 c1 L w : Nat) (b0 : x0 < 16) (b1 : x1 < 2) (b2 : x2 < 32) (b3 : c0 < 64) (b4 : c1 < 8)
    (hw : w = x0 * 1 + x1 * 256 + x2 * 16384 + c0 * 16777216 + c1 * 16 + L * 2147483648) :
    fld w 30 1 = 0 ∧ fld w 24 6 = c0 ∧ fld w 4 3 = c1 ∧ fld w 7 1 = 0 ∧ fld w 9 5 = 0 ∧ fld w 19 5 = 0 ∧ fld w 0 4 = x0 ∧ fld w 14 5 = x2 ∧ fld w 8 1 = x1 := by
  unfold fld; refine ⟨?_, ?_, ?_, ?_, ?_, ?_, ?_, ?_, ?_⟩ <;> omega

theorem bits25 (x0 x1 c0 c1 L w : Nat) (b0 : x0 < 16) (b1 : x1 < 32) (b2 : c0 < 64) (b3 : c1 < 8)
    (hw : w = x0 * 1 + x1 * 524288 + c0 * 16777216 + c1 * 16 + L * 2147483648) :
    fld w 30 1 = 0 ∧ fld w 24 6 = c0 ∧ fld w 4 3 = c1 ∧ fld w 7 12 = 0 ∧ fld w 0 4 = x0 ∧ fld w 19 5 = x1 := by
  unfold fld; refine ⟨?_, ?_, ?_, ?_, ?_, ?_⟩ <;> omega

theorem bits26 (x0 x1 x2 c0 c1 L w : Nat) (b0 : x0 < 4) (b1 : x1 < 32) (b2 : x2 < 32) (b3 : c0 < 64) (b4 : c1 < 32)
    (hw : w = x0 * 1 + x1 * 16384 + x2 * 524288 + c0 * 16777216 + c1 * 16 + L * 2147483648) :
    fld w 30 1 = 0 ∧ fld w 24 6 = c0 ∧ fld w 4 5 = c1 ∧ fld w 2 2 = 0 ∧ fld w 9 5 = 0 ∧ fld w 0 2 = x0 ∧ fld w 19 5 = x2 ∧ fld w 14 5 = x1 := by
  unfold fld; refine ⟨?_, ?_, ?_, ?_, ?_, ?_, ?_, ?_⟩ <;> omega

theorem bits27 (x0 x1 x2 x3 c0 c1 L w : Nat) (b0 : x0 < 4) (b1 : x1 < 8) (b2 : x2 < 32) (b3 : x3 < 32) (b4 : c0 < 64) (b5 : c1 < 32)
    (hw : w = x0 * 1 + x1 * 512 + x2 * 16384 + x3 * 524288 + c0 * 16777216 + c1 * 16 + L * 2147483648) :
    fld w 30 1 = 0 ∧ fld w 24 6 = c0 ∧ fld w 4 5 = c1 ∧ fld w 2 2 = 0 ∧ fld w 12 2 = 0 ∧ fld w 0 2 = x0 ∧ fld w 19 5 = x3 ∧ fld w 14 5 = x2 ∧ fld w 9 3 = x1 := by
  unfold fld; refine ⟨?_, ?_, ?_, ?_, ?_, ?_, ?_, ?_, ?_⟩ <;> omega

theorem bits28 (x0 x1 c0 c1 L w : Nat) (b0 : x0 < 4) (b1 : x1 < 32) (b2 : c0 < 64) (b3 : c1 < 32)
    (hw : w = x0 * 1 + x1 * 16384 + c0 * 16777216 + c1 * 16 + L * 2147483648) :
    fld w 30 1 = 0 ∧ fld w 24 6 = c0 ∧ fld w 4 5 = c1 ∧ fld w 2 2 = 0 ∧ fld w 9 5 = 0 ∧ fld w 19 5 = 0 ∧ fld w 0 2 = x0 ∧ fld w 14 5 = x1 := by
  unfold fld; refine ⟨?_, ?_, ?_, ?_, ?_, ?_, ?_, ?_⟩ <;> omega

theorem bits29 (x0 c0 c1 L w : Nat) (b0 : x0 < 32) (b1 : c0 < 64) (b2 : c1 < 32)
    (hw : w = x0 * 512 + c0 * 16777216 + c1 * 16 + L * 2147483648) :
    fld w 30 1 = 0 ∧ fld w 24 6 = c0 ∧ fld w 4 5 = c1 ∧ fld w 0 4 = 0 ∧ fld w 14 10 = 0 ∧ fld w 9 5 = x0 := by
  unfold fld; refine ⟨?_, ?_, ?_, ?_, ?_, ?_⟩ <;> omega

theorem bits30 (x0 x1 x2 c0 c1 L w : Nat) (b0 : x0 < 4) (b1 : x1 < 32) (b2 : x2 < 32) (b3 : c0 < 64) (b4 : c1 < 32)
    (hw : w = x0 * 1 + x1 * 512 + x2 * 16384 + c0 * 16777216 + c1 * 16 + L * 2147483648) :
    fld w 30 1 = 0 ∧ fld w 24 6 = c0 ∧ fld w 4 5 = c1 ∧ fld w 19 5 = 0 ∧ fld w 0 4 = x0 ∧ fld w 14 5 = x2 ∧ fld w 9 5 = x1 := by
  unfold fld; refine ⟨?_, ?_, ?_, ?_, ?_, ?_, ?_⟩ <;> omega

theorem bits31 (x0 x1 x2 c0 c1 L w : Nat) (b0 : x0 < 2) (b1 : x1 < 32) (b2 : x2 < 32) (b3 : c0 < 64) (b4 : c1 < 32)
    (hw : w = x0 * 1 + x1 * 512 + x2 * 16384 + c0 * 16777216 + c1 * 16 + L * 2147483648) :
    fld w 30 1 = 0 ∧ fld w 24 6 = c0 ∧ fld w 4 5 = c1 ∧ fld w 1 3 = 0 ∧ fld w 19 5 = 0 ∧ fld w 14 5 = x2 ∧ fld w 9 5 = x1 ∧ fld w 0 1 = x0 := by
  unfold fld; refine ⟨?_, ?_, ?_, ?_, ?_, ?_, ?_, ?_⟩ <;> omega

theorem bits32 (x0 c0 c1 L w : Nat) (b0 : x0 < 32) (b1 : c0 < 64) (b2 : c1 < 32)
    (hw : w = x0 * 16384 + c0 * 16777216 + c1 * 16 + L * 2147483648) :
    fld w 30 1 = 0 ∧ fld w 24 6 = c0 ∧ fld w 4 5 = c1 ∧ fld w 0 1 = 0 ∧ fld w 0 4 = 0 ∧ fld w 9 5 = 0 ∧ fld w 19 5 = 0 ∧ fld w 1 3 = 0 ∧ fld w 22 2 = 0 ∧ fld w 14 5 = x0 ∧ fld w 19 3 = 0 := by
  unfold fld; refine ⟨?_, ?_, ?_, ?_, ?_, ?_, ?_, ?_, ?_, ?_, ?_⟩ <;> omega

theorem bits33 (x0 x1 c0 c1 c2 L w : Nat) (b0 : x0 < 32) (b1 : x1 < 8) (b2 : c0 < 64) (b3 : c1 < 32) (b4 : c2 < 2)
    (hw : w = x0 * 16384 + x1 * 524288 + c0 * 16777216 + c1 * 16 + c2 * 1 + L * 2147483648) :
    fld w 30 1 = 0 ∧ fld w 24 6 = c0 ∧ fld w 4 5 = c1 ∧ fld w 0 1 = c2 ∧ fld w 9 5 = 0 ∧ fld w 19 5 = x1 ∧ fld w 1 3 = 0 ∧ fld w 22 2 = 0 ∧ fld w 14 5 = x0 ∧ fld w 19 3 = x1 := by
  unfold fld; refine ⟨?_, ?_, ?_, ?_, ?_, ?_, ?_, ?_, ?_, ?_⟩ <;> omega

theorem bits34 (x0 c0 c1 L w : Nat) (b0 : x0 < 32) (b1 : c0 < 64) (b2 : c1 < 32)
    (hw : w = x0 * 16384 + c0 * 16777216 + c1 * 16 + L * 2147483648) :
    fld w 30 1 = 0 ∧ fld w 24 6 = c0 ∧ fld w 4 5 = c1 ∧ fld w 9 5 = 0 ∧ fld w 19 5 = 0 ∧ fld w 14 5 = x0 ∧ fld w 0 4 = 0 := by
  unfold fld; refine ⟨?_, ?_, ?_, ?_, ?_, ?_, ?_⟩ <;> omega

theorem bits35 (x0 c0 c1 c2 L w : Nat) (b0 : x0 < 32) (b1 : c0 < 64) (b2 : c1 < 32) (b3 : c2 < 16)
    (hw : w = x0 * 16384 + c0 * 16777216 + c1 * 16 + c2 * 1 + L * 2147483648) :
    fld w 30 1 = 0 ∧ fld w 24 6 = c0 ∧ fld w 4 5 = c1 ∧ fld w 9 5 = 0 ∧ fld w 19 5 = 0 ∧ fld w 14 5 = x0 ∧ fld w 0 4 = c2 := by
  unfold fld; refine ⟨?_, ?_, ?_, ?_, ?_, ?_, ?_⟩ <;> omega

theorem bits36 (x0 x1 x2 c0 c1 L w : Nat) (b0 : x0 < 32) (b1 : x1 < 32) (b2 : x2 < 32) (b3 : c0 < 64) (b4 : c1 < 16)
    (hw : w = 1073741824 + x0 * 512 + x1 * 16384 + x2 * 524288 + c0 * 16777216 + c1 * 32 + L * 2147483648) :
    fld w 30 1 = 1 ∧ fld w 24 6 = c0 ∧ fld w 5 4 = c1 ∧ fld w 0 5 = 0 ∧ fld w 19 5 = x2 ∧ fld w 14 5 = x1 ∧ fld w 9 5 = x0 := by
  unfold fld; refine ⟨?_, ?_, ?_, ?_, ?_, ?_, ?_⟩ <;> omega

theorem bits37 (x0 x1 c0 c1 L w : Nat) (b0 : x0 < 32) (b1 : x1 < 32) (b2 : c0 < 64) (b3 : c1 < 16)
    (hw : w = 1073741824 + x0 * 16384 + x1 * 524288 + c0 * 16777216 + c1 * 32 + L * 2147483648) :
    fld w 30 1 = 1 ∧ fld w 24 6 = c0 ∧ fld w 5 4 = c1 ∧ fld w 0 5 = 0 ∧ fld w 9 5 = 0 ∧ fld w 19 5 = x1 ∧ fld w 14 5 = x0 := by
  unfold fld; refine ⟨?_, ?_, ?_, ?_, ?_, ?_, ?_⟩ <;> omega

theorem bits38 (x0 x1 x2 c0 c1 L w : Nat) (b0 : x0 < 2048) (b1 : x1 < 32) (b2 : x2 < 32) (b3 : c0 < 64) (b4 : c1 < 8)
    (hw : w = 1073741824 + x0 * 1 + x1 * 16384 + x2 * 524288 + c0 * 16777216 + c1 * 2048 + L * 2147483648) :
    fld w 30 1 = 1 ∧ fld w 24 6 = c0 ∧ fld w 11 3 = c1 ∧ fld w 19 5 = x2 ∧ fld w 14 5 = x1 ∧ fld w 0 11 = x0 := by
  unfold fld; refine ⟨?_, ?_, ?_, ?_, ?_, ?_⟩ <;> omega

theorem bits39 (x0 x1 x2 c0 c1 L w : Nat) (b0 : x0 < 64) (b1 : x1 < 32) (b2 : x2 < 32) (b3 : c0 < 64) (b4 : c1 < 8)
    (hw : w = 1073741824 + x0 * 1 + x1 * 16384 + x2 * 524288 + c0 * 16777216 + c1 * 2048 + L * 2147483648) :
    fld w 30 1 = 1 ∧ fld w 24 6 = c0 ∧ fld w 11 3 = c1 ∧ fld w 6 5 = 0 ∧ fld w 19 5 = x2 ∧ fld w 14 5 = x1 ∧ fld w 0 6 = x0 := by
  unfold fld; refine ⟨?_, ?_, ?_, ?_, ?_, ?_, ?_⟩ <;> omega

theorem bits40 (x0 x1 c0 c1 L w : Nat) (b0 : x0 < 2048) (b1 : x1 < 32) (b2 : c0 < 64) (b3 : c1 < 8)
    (hw : w = 1073741824 + x0 * 1 + x1 * 524288 + c0 * 16777216 + c1 * 2048 + L * 2147483648) :
    fld w 30 1 = 1 ∧ fld w 24 6 = c0 ∧ fld w 11 3 = c1 ∧ fld w 14 5 = 0 ∧ fld w 19 5 = x1 ∧ fld w 0 11 = x0 := by
  unfold fld; refine ⟨?_, ?_, ?_, ?_, ?_, ?_⟩ <;> omega

theorem bits41 (x0 x1 c0 L w : Nat) (b0 : x0 < 524288) (b1 : x1 < 32) (b2 : c0 < 64)
    (hw : w = 1073741824 + x0 * 1 + x1 * 524288 + c0 * 16777216 + L * 2147483648) :
    fld w 30 1 = 1 ∧ fld w 24 6 = c0 ∧ fld w 19 5 = x1 ∧ fld w 0 19 = x0 := by
  unfold fld; refine ⟨?_, ?_, ?_, ?_⟩ <;> omega

theorem bits42 (x0 x1 x2 x3 x4 c0 c1 L w : Nat) (b0 : x0 < 8) (b1 : x1 < 4) (b2 : x2 < 32) (b3 : x3 < 32) (b4 : x4 < 32) (b5 : c0 < 64) (b6 : c1 < 16)
    (hw : w = 1073741824 + x0 * 1 + x1 * 8 + x2 * 512 + x3 * 16384 + x4 * 524288 + c0 * 16777216 + c1 * 32 + L * 2147483648) :
    fld w 30 1 = 1 ∧ fld w 24 6 = c0 ∧ fld w 5 4 = c1 ∧ fld w 3 2 = x1 ∧ fld w 19 5 = x4 ∧ fld w 14 5 = x3 ∧ fld w 9 5 = x2 ∧ fld w 0 3 = x0 := by
  unfold fld; refine ⟨?_, ?_, ?_, ?_, ?_, ?_, ?_, ?_⟩ <;> omega

theorem bits43 (x0 x1 x2 x3 c0 c1 L w : Nat) (b0 : x0 < 8) (b1 : x1 < 4) (b2 : x2 < 32) (b3 : x3 < 32) (b4 : c0 < 64) (b5 : c1 < 16)
    (hw : w = 1073741824 + x0 * 1 + x1 * 8 + x2 * 16384 + x3 * 524288 + c0 * 16777216 + c1 * 32 + L * 2147483648) :
    fld w 30 1 = 1 ∧ fld w 24 6 = c0 ∧ fld w 5 4 = c1 ∧ fld w 9 5 = 0 ∧ fld w 3 2 = x1 ∧ fld w 19 5 = x3 ∧ fld w 14 5 = x2 ∧ fld w 0 3 = x0 := by
  unfold fld; refine ⟨?_, ?_, ?_, ?_, ?_, ?_, ?_, ?_⟩ <;> omega

theorem bits44 (x0 x1 x2 x3 x4 c0 c1 L w : Nat) (b0 : x0 < 8) (b1 : x1 < 4) (b2 : x2 < 32) (b3 : x3 < 32) (b4 : x4 < 8) (b5 : c0 < 64) (b6 : c1 < 16)
    (hw : w = 1073741824 + x0 * 1 + x1 * 8 + x2 * 512 + x3 * 16384 + x4 * 524288 + c0 * 16777216 + c1 * 32 + L * 2147483648) :
    fld w 30 1 = 1 ∧ fld w 24 6 = c0 ∧ fld w 5 4 = c1 ∧ fld w 22 2 = 0 ∧ fld w 3 2 = x1 ∧ fld w 14 5 = x3 ∧ fld w 9 5 = x2 ∧ fld w 19 3 = x4 ∧ fld w 0 3 = x0 := by
  unfold fld; refine ⟨?_, ?_, ?_, ?_, ?_, ?_, ?_, ?_, ?_⟩ <;> omega

theorem bits45 (x0 x1 x2 x3 c0 c1 c2 L w : Nat) (b0 : x0 < 8) (b1 : x1 < 32) (b2 : x2 < 32) (b3 : x3 < 32) (b4 : c0 < 64) (b5 : c1 < 16) (b6 : c2 < 4)
    (hw : w = 1073741824 + x0 * 1 + x1 * 512 + x2 * 16384 + x3 * 524288 + c0 * 16777216 + c1 * 32 + c2 * 8 + L * 2147483648) :
    fld w 30 1 = 1 ∧ fld w 24 6 = c0 ∧ fld w 5 4 = c1 ∧ fld w 3 2 = c2 ∧ fld w 19 5 = x3 ∧ fld w 14 5 = x2 ∧ fld w 9 5 = x1 ∧ fld w 0 3 = x0 := by
  unfold fld; refine ⟨?_, ?_, ?_, ?_, ?_, ?_, ?_, ?_⟩ <;> omega

theorem bits46 (x0 x1 x2 x3 x4 c0 c1 L w : Nat) (b0 : x0 < 8) (b1 : x1 < 2) (b2 : x2 < 32) (b3 : x3 < 32) (b4 : x4 < 32) (b5 : c0 < 64) (b6 : c1 < 16)
    (hw : w = 1073741824 + x0 * 1 + x1 * 8 + x2 * 512 + x3 * 16384 + x4 * 524288 + c0 * 16777216 + c1 * 32 + L * 2147483648) :
    fld w 30 1 = 1 ∧ fld w 24 6 = c0 ∧ fld w 5 4 = c1 ∧ fld w 4 1 = 0 ∧ fld w 19 5 = x4 ∧ fld w 14 5 = x3 ∧ fld w 9 5 = x2 ∧ fld w 0 3 = x0 ∧ fld w 3 1 = x1 := by
  unfold fld; refine ⟨?_, ?_, ?_, ?_, ?_, ?_, ?_, ?_, ?_⟩ <;> omega

theorem bits47 (x0 x1 x2 x3 x4 c0 c1 L w : Nat) (b0 : x0 < 8) (b1 : x1 < 4) (b2 : x2 < 8) (b3 : x3 < 32) (b4 : x4 < 32) (b5 : c0 < 64) (b6 : c1 < 16)
    (hw : w = 1073741824 + x0 * 1 + x1 * 8 + x2 * 512 + x3 * 16384 + x4 * 524288 + c0 * 16777216 + c1 * 32 + L * 2147483648) :
    fld w 30 1 = 1 ∧ fld w 24 6 = c0 ∧ fld w 5 4 = c1 ∧ fld w 12 2 = 0 ∧ fld w 9 3 = x2 ∧ fld w 3 2 = x1 ∧ fld w 19 5 = x4 ∧ fld w 14 5 = x3 ∧ fld w 0 3 = x0 := by
  unfold fld; refine ⟨?_, ?_, ?_, ?_, ?_, ?_, ?_, ?_, ?_⟩ <;> omega

theorem bits48 (x0 x1 x2 x3 x4 c0 c1 L w : Nat) (b0 : x0 < 8) (b1 : x1 < 4) (b2 : x2 < 32) (b3 : x3 < 32) (b4 : x4 < 32) (b5 : c0 < 64) (b6 : c1 < 16)
    (hw : w = 1073741824 + x0 * 1 + x1 * 8 + x2 * 512 + x3 * 16384 + x4 * 524288 + c0 * 16777216 + c1 * 32 + L * 2147483648) :
    fld w 30 1 = 1 ∧ fld w 24 6 = c0 ∧ fld w 5 4 = c1 ∧ fld w 9 5 = x2 ∧ fld w 3 2 = x1 ∧ fld w 19 5 = x4 ∧ fld w 14 5 = x3 ∧ fld w 0 3 = x0 := by
  unfold fld; refine ⟨?_, ?_, ?_, ?_, ?_, ?_, ?_, ?_⟩ <;> omega

theorem bits49 (x0 x1 x2 c0 c1 c2 L w : Nat) (b0 : x0 < 8) (b1 : x1 < 32) (b2 : x2 < 32) (b3 : c0 < 64) (b4 : c1 < 16) (b5 : c2 < 2)
    (hw : w = 1073741824 + x0 * 1 + x1 * 16384 + x2 * 524288 + c0 * 16777216 + c1 * 32 + c2 * 8192 + L * 2147483648) :
    fld w 30 1 = 1 ∧ fld w 24 6 = c0 ∧ fld w 5 4 = c1 ∧ fld w 3 2 = 0 ∧ fld w 9 4 = 0 ∧ fld w 13 1 = c2 ∧ fld w 19 5 = x2 ∧ fld w 14 5 = x1 ∧ fld w 0 3 = x0 := by
  unfold fld; refine ⟨?_, ?_, ?_, ?_, ?_, ?_, ?_, ?_, ?_⟩ <;> omega

theorem bits50 (x0 x1 x2 x3 x4 x5 c0 L w : Nat) (b0 : x0 < 4) (b1 : x1 < 4) (b2 : x2 < 32) (b3 : x3 < 32) (b4 : x4 < 32) (b5 : x5 < 32) (b6 : c0 < 64)
    (hw : w = 1073741824 + x0 * 1 + x1 * 4 + x2 * 16 + x3 * 512 + x4 * 16384 + x5 * 524288 + c0 * 16777216 + L * 2147483648) :
    fld w 30 1 = 1 ∧ fld w 24 6 = c0 ∧ fld w 2 2 = x1 ∧ fld w 0 2 = x0 ∧ fld w 19 5 = x5 ∧ fld w 14 5 = x4 ∧ fld w 9 5 = x3 ∧ fld w 4 5 = x2 := by
  unfold fld; refine ⟨?_, ?_, ?_, ?_, ?_, ?_, ?_, ?_⟩ <;> omega

theorem bits51 (x0 x1 x2 x3 c0 c1 L w : Nat) (b0 : x0 < 8) (b1 : x1 < 2) (b2 : x2 < 32) (b3 : x3 < 32) (b4 : c0 < 64) (b5 : c1 < 16)
    (hw : w = 1073741824 + x0 * 1 + x1 * 8 + x2 * 16384 + x3 * 524288 + c0 * 16777216 + c1 * 32 + L * 2147483648) :
    fld w 30 1 = 1 ∧ fld w 24 6 = c0 ∧ fld w 5 4 = c1 ∧ fld w 4 1 = 0 ∧ fld w 9 5 = 0 ∧ fld w 3 1 = x1 ∧ fld w 19 5 = x3 ∧ fld w 14 5 = x2 ∧ fld w 0 3 = x0 := by
  unfold fld; refine ⟨?_, ?_, ?_, ?_, ?_, ?_, ?_, ?_, ?_⟩ <;> omega

theorem bits52 (x0 x1 x2 x3 x4 c0 c1 L w : Nat) (b0 : x0 < 8) (b1 : x1 < 2) (b2 : x2 < 32) (b3 : x3 < 32) (b4 : x4 < 32) (b5 : c0 < 64) (b6 : c1 < 16)
    (hw : w = 1073741824 + x0 * 1 + x1 * 8 + x2 * 512 + x3 * 16384 + x4 * 524288 + c0 * 16777216 + c1 * 32 + L * 2147483648) :
    fld w 30 1 = 1 ∧ fld w 24 6 = c0 ∧ fld w 5 4 = c1 ∧ fld w 4 1 = 0 ∧ fld w 3 1 = x1 ∧ fld w 19 5 = x4 ∧ fld w 14 5 = x3 ∧ fld w 9 5 = x2 ∧ fld w 0 3 = x0 := by
  unfold fld; refine ⟨?_, ?_, ?_, ?_, ?_, ?_, ?_, ?_, ?_⟩ <;> omega

theorem bits53 (x0 x1 x2 c0 c1 c2 L w : Nat) (b0 : x0 < 8) (b1 : x1 < 32) (b2 : x2 < 32) (b3 : c0 < 64) (b4 : c1 < 16) (b5 : c2 < 4)
    (hw : w = 1073741824 + x0 * 1 + x1 * 16384 + x2 * 524288 + c0 * 16777216 + c1 * 32 + c2 * 8 + L * 2147483648) :
    fld w 30 1 = 1 ∧ fld w 24 6 = c0 ∧ fld w 5 4 = c1 ∧ fld w 9 5 = 0 ∧ fld w 3 2 = c2 ∧ fld w 19 5 = x2 ∧ fld w 14 5 = x1 ∧ fld w 0 3 = x0 := by
  unfold fld; refine ⟨?_, ?_, ?_, ?_, ?_, ?_, ?_, ?_⟩ <;> omega

theorem bits54 (x0 x1 x2 x3 c0 c1 L w : Nat) (b0 : x0 < 8) (b1 : x1 < 32) (b2 : x2 < 8) (b3 : x3 < 32) (b4 : c0 < 64) (b5 : c1 < 16)
    (hw : w = 1073741824 + x0 * 1 + x1 * 512 + x2 * 16384 + x3 * 524288 + c0 * 16777216 + c1 * 32 + L * 2147483648) :
    fld w 30 1 = 1 ∧ fld w 24 6 = c0 ∧ fld w 5 4 = c1 ∧ fld w 3 2 = 0 ∧ fld w 17 2 = 0 ∧ fld w 19 5 = x3 ∧ fld w 9 5 = x1 ∧ fld w 14 3 = x2 ∧ fld w 0 3 = x0 := by
  unfold fld; refine ⟨?_, ?_, ?_, ?_, ?_, ?_, ?_, ?_, ?_⟩ <;> omega

theorem bits55 (x0 x1 x2 x3 c0 c1 L w : Nat) (b0 : x0 < 8) (b1 : x1 < 32) (b2 : x2 < 8) (b3 : x3 < 8) (b4 : c0 < 64) (b5 : c1 < 16)
    (hw : w = 1073741824 + x0 * 1 + x1 * 512 + x2 * 16384 + x3 * 524288 + c0 * 16777216 + c1 * 32 + L * 2147483648) :
    fld w 30 1 = 1 ∧ fld w 24 6 = c0 ∧ fld w 5 4 = c1 ∧ fld w 3 2 = 0 ∧ fld w 17 2 = 0 ∧ fld w 22 2 = 0 ∧ fld w 9 5 = x1 ∧ fld w 19 3 = x3 ∧ fld w 14 3 = x2 ∧ fld w 0 3 = x0 := by
  unfold fld; refine ⟨?_, ?_, ?_, ?_, ?_, ?_, ?_, ?_, ?_, ?_⟩ <;> omega

theorem bits56 (x0 c0 c1 L w : Nat) (b0 : x0 < 32) (b1 : c0 < 64) (b2 : c1 < 16)
    (hw : w = 1073741824 + x0 * 524288 + c0 * 16777216 + c1 * 32 + L * 2147483648) :
    fld w 30 1 = 1 ∧ fld w 24 6 = c0 ∧ fld w 5 4 = c1 ∧ fld w 0 5 = 0 ∧ fld w 9 10 = 0 ∧ fld w 19 5 = x0 := by
  unfold fld; refine ⟨?_, ?_, ?_, ?_, ?_, ?_⟩ <;> omega

theorem bits57 (x0 x1 x2 x3 c0 c1 L w : Nat) (b0 : x0 < 2) (b1 : x1 < 32) (b2 : x2 < 32) (b3 : x3 < 32) (b4 : c0 < 64) (b5 : c1 < 16)
    (hw : w = 1073741824 + x0 * 8 + x1 * 512 + x2 * 16384 + x3 * 524288 + c0 * 16777216 + c1 * 32 + L * 2147483648) :
    fld w 30 1 = 1 ∧ fld w 24 6 = c0 ∧ fld w 5 4 = c1 ∧ fld w 0 3 = 0 ∧ fld w 4 1 = 0 ∧ fld w 19 5 = x3 ∧ fld w 14 5 = x2 ∧ fld w 9 5 = x1 ∧ fld w 3 1 = x0 := by
  unfold fld; refine ⟨?_, ?_, ?_, ?_, ?_, ?_, ?_, ?_, ?_⟩ <;> omega

theorem bits58 (x0 c0 c1 L w : Nat) (b0 : x0 < 32) (b1 : c0 < 64) (b2 : c1 < 16)
    (hw : w = 1073741824 + x0 * 16384 + c0 * 16777216 + c1 * 32 + L * 2147483648) :
    fld w 30 1 = 1 ∧ fld w 24 6 = c0 ∧ fld w 5 4 = c1 ∧ fld w 0 5 = 0 ∧ fld w 9 5 = 0 ∧ fld w 19 5 = 0 ∧ fld w 14 5 = x0 := by
  unfold fld; refine ⟨?_, ?_, ?_, ?_, ?_, ?_, ?_⟩ <;> omega

theorem bits59 (x0 x1 x2 c0 c1 L w : Nat) (b0 : x0 < 32) (b1 : x1 < 32) (b2 : x2 < 16) (b3 : c0 < 64) (b4 : c1 < 16)
    (hw : w = 1073741824 + x0 * 512 + x1 * 16384 + x2 * 524288 + c0 * 16777216 + c1 * 32 + L * 2147483648) :
    fld w 30 1 = 1 ∧ fld w 24 6 = c0 ∧ fld w 5 4 = c1 ∧ fld w 0 5 = 0 ∧ fld w 23 1 = 0 ∧ fld w 19 4 = x2 ∧ fld w 14 5 = x1 ∧ fld w 9 5 = x0 := by
  unfold fld; refine ⟨?_, ?_, ?_, ?_, ?_, ?_, ?_, ?_⟩ <;> omega

theorem bits60 (x0 x1 x2 x3 c0 c1 L w : Nat) (b0 : x0 < 8) (b1 : x1 < 32) (b2 : x2 < 32) (b3 : x3 < 32) (b4 : c0 < 64) (b5 : c1 < 16)
    (hw : w = 1073741824 + x0 * 1 + x1 * 512 + x2 * 16384 + x3 * 524288 + c0 * 16777216 + c1 * 32 + L * 2147483648) :
    fld w 30 1 = 1 ∧ fld w 24 6 = c0 ∧ fld w 5 4 = c1 ∧ fld w 3 2 = 0 ∧ fld w 19 5 = x3 ∧ fld w 14 5 = x2 ∧ fld w 9 5 = x1 ∧ fld w 0 3 = x0 := by
  unfold fld; refine ⟨?_, ?_, ?_, ?_, ?_, ?_, ?_, ?_⟩ <;> omega

theorem bits61 (c0 c1 L w : Nat) (b0 : c0 < 64) (b1 : c1 < 32)
    (hw : w = c0 * 16777216 + c1 * 524288 + L * 2147483648) :
    fld w 30 1 = 0 ∧ fld w 24 6 = c0 ∧ fld w 19 5 = c1 ∧ fld w 0 19 = 0 := by
  unfold fld; refine ⟨?_, ?_, ?_, ?_⟩ <;> omega

theorem bits62 (c0 c1 L w : Nat) (b0 : c0 < 64) (b1 : c1 < 32)
    (hw : w = c0 * 16777216 + c1 * 16 + L * 2147483648) :
    fld w 30 1 = 0 ∧ fld w 24 6 = c0 ∧ fld w 4 5 = c1 ∧ fld w 0 4 = 0 ∧ fld w 9 15 = 0 := by
  unfold fld; refine ⟨?_, ?_, ?_, ?_, ?_⟩ <;> omega

theorem bits63 (c0 c1 L w : Nat) (b0 : c0 < 64) (b1 : c1 < 16)
    (hw : w = 1073741824 + c0 * 16777216 + c1 * 32 + L * 2147483648) :
    fld w 30 1 = 1 ∧ fld w 24 6 = c0 ∧ fld w 5 4 = c1 ∧ fld w 0 5 = 0 ∧ fld w 9 15 = 0 := by
  unfold fld; refine ⟨?_, ?_, ?_, ?_, ?_⟩ <;> omega

/-! One lemma for each instruction. -/

theorem trap (i : BitVec 14) : Statement (.trap i) := by
  have h0 := i.isLt
  refine ofWord _ _ rfl rfl (by simp only [pack]; omega) fun L w hL hf hw => ?_
  obtain ⟨e0, e1, e2, e3, e4⟩ := bits00 i.toNat 0 1 L w h0 (by decide) (by decide) (by simp only [pack] at hw; omega)
  simp [decodeNat, decodeWith, isAClass, flag, decodeC, decodeC00, e0, e1, e2, e3, e4, imf]
theorem tret (d : Bool) (m : BitVec 4) : Statement (.tret d m) := by
  have h0 := m.isLt; have h1 := (bitNat_lt d)
  refine ofWord _ _ rfl rfl (by simp only [pack]; omega) fun L w hL hf hw => ?_
  obtain ⟨e0, e1, e2, e3, e4, e5, e6⟩ := bits01 m.toNat (bitNat d) 0 2 L w h0 h1 (by decide) (by decide) (by simp only [pack] at hw; omega)
  simp [decodeNat, decodeWith, isAClass, flag, decodeC, decodeC00, e0, e1, e2, e3, e4, e5, e6, imf, bitNat_eq_one]
theorem kget (d : Fin 32) (k : BitVec 14) : Statement (.kget d k) := by
  have h0 := k.isLt; have h1 := d.isLt
  refine ofWord _ _ rfl rfl (by simp only [pack]; omega) fun L w hL hf hw => ?_
  obtain ⟨e0, e1, e2, e3, e4⟩ := bits02 k.toNat d.val 0 3 L w h0 h1 (by decide) (by decide) (by simp only [pack] at hw; omega)
  simp [decodeNat, decodeWith, isAClass, flag, decodeC, decodeC00, e0, e1, e2, e3, e4, reg, imf]
theorem kset (s : Fin 32) (k : BitVec 14) : Statement (.kset s k) := by
  have h0 := k.isLt; have h1 := s.isLt
  refine ofWord _ _ rfl rfl (by simp only [pack]; omega) fun L w hL hf hw => ?_
  obtain ⟨e0, e1, e2, e3, e4⟩ := bits02 k.toNat s.val 0 4 L w h0 h1 (by decide) (by decide) (by simp only [pack] at hw; omega)
  simp [decodeNat, decodeWith, isAClass, flag, decodeC, decodeC00, e0, e1, e2, e3, e4, reg, imf]
theorem kswp (s : Fin 32) (k : BitVec 14) : Statement (.kswp s k) := by
  have h0 := k.isLt; have h1 := s.isLt
  refine ofWord _ _ rfl rfl (by simp only [pack]; omega) fun L w hL hf hw => ?_
  obtain ⟨e0, e1, e2, e3, e4⟩ := bits02 k.toNat s.val 0 5 L w h0 h1 (by decide) (by decide) (by simp only [pack] at hw; omega)
  simp [decodeNat, decodeWith, isAClass, flag, decodeC, decodeC00, e0, e1, e2, e3, e4, reg, imf]
theorem csave (s : Fin 32) : Statement (.csave s) := by
  have h0 := s.isLt
  refine ofWord _ _ rfl rfl (by simp only [pack]; omega) fun L w hL hf hw => ?_
  obtain ⟨e0, e1, e2, e3, e4⟩ := bits03 s.val 0 6 L w h0 (by decide) (by decide) (by simp only [pack] at hw; omega)
  simp [decodeNat, decodeWith, isAClass, flag, decodeC, decodeC00, e0, e1, e2, e3, e4, reg]
theorem crest (s : Fin 32) : Statement (.crest s) := by
  have h0 := s.isLt
  refine ofWord _ _ rfl rfl (by simp only [pack]; omega) fun L w hL hf hw => ?_
  obtain ⟨e0, e1, e2, e3, e4⟩ := bits03 s.val 0 7 L w h0 (by decide) (by decide) (by simp only [pack] at hw; omega)
  simp [decodeNat, decodeWith, isAClass, flag, decodeC, decodeC00, e0, e1, e2, e3, e4, reg]
theorem dbg (s : Fin 32) : Statement (.dbg s) := by
  have h0 := s.isLt
  refine ofWord _ _ rfl rfl (by simp only [pack]; omega) fun L w hL hf hw => ?_
  obtain ⟨e0, e1, e2, e3, e4⟩ := bits03 s.val 0 8 L w h0 (by decide) (by decide) (by simp only [pack] at hw; omega)
  simp [decodeNat, decodeWith, isAClass, flag, decodeC, decodeC00, e0, e1, e2, e3, e4, reg]
theorem br (o : BitVec 24) : Statement (.br o) := by
  have h0 := o.isLt
  refine ofWord _ _ rfl rfl (by simp only [pack]; omega) fun L w hL hf hw => ?_
  obtain ⟨e0, e1, e2⟩ := bits04 o.toNat 1 L w h0 (by decide) (by simp only [pack] at hw; omega)
  simp [decodeNat, decodeWith, isAClass, flag, decodeC, decodeC01, e0, e1, e2, imf]
theorem call (o : BitVec 24) : Statement (.call o) := by
  have h0 := o.isLt
  refine ofWord _ _ rfl rfl (by simp only [pack]; omega) fun L w hL hf hw => ?_
  obtain ⟨e0, e1, e2⟩ := bits04 o.toNat 2 L w h0 (by decide) (by simp only [pack] at hw; omega)
  simp [decodeNat, decodeWith, isAClass, flag, decodeC, decodeC02, e0, e1, e2, imf]
theorem bany (pr : Fin 8) (o : BitVec 18) : Statement (.bany pr o) := by
  have h0 := o.isLt; have h1 := pr.isLt
  refine ofWord _ _ rfl rfl (by simp only [pack]; omega) fun L w hL hf hw => ?_
  obtain ⟨e0, e1, e2, e3, e4⟩ := bits05 o.toNat pr.val 3 0 L w h0 h1 (by decide) (by decide) (by simp only [pack] at hw; omega)
  simp [decodeNat, decodeWith, isAClass, flag, decodeC, decodeC03, e0, e1, e2, e3, e4, preg, imf]
theorem ball (pr : Fin 8) (o : BitVec 18) : Statement (.ball pr o) := by
  have h0 := o.isLt; have h1 := pr.isLt
  refine ofWord _ _ rfl rfl (by simp only [pack]; omega) fun L w hL hf hw => ?_
  obtain ⟨e0, e1, e2, e3, e4⟩ := bits05 o.toNat pr.val 3 1 L w h0 h1 (by decide) (by decide) (by simp only [pack] at hw; omega)
  simp [decodeNat, decodeWith, isAClass, flag, decodeC, decodeC03, e0, e1, e2, e3, e4, preg, imf]
theorem bnone (pr : Fin 8) (o : BitVec 18) : Statement (.bnone pr o) := by
  have h0 := o.isLt; have h1 := pr.isLt
  refine ofWord _ _ rfl rfl (by simp only [pack]; omega) fun L w hL hf hw => ?_
  obtain ⟨e0, e1, e2, e3, e4⟩ := bits05 o.toNat pr.val 3 2 L w h0 h1 (by decide) (by decide) (by simp only [pack] at hw; omega)
  simp [decodeNat, decodeWith, isAClass, flag, decodeC, decodeC03, e0, e1, e2, e3, e4, preg, imf]
theorem bnall (pr : Fin 8) (o : BitVec 18) : Statement (.bnall pr o) := by
  have h0 := o.isLt; have h1 := pr.isLt
  refine ofWord _ _ rfl rfl (by simp only [pack]; omega) fun L w hL hf hw => ?_
  obtain ⟨e0, e1, e2, e3, e4⟩ := bits05 o.toNat pr.val 3 3 L w h0 h1 (by decide) (by decide) (by simp only [pack] at hw; omega)
  simp [decodeNat, decodeWith, isAClass, flag, decodeC, decodeC03, e0, e1, e2, e3, e4, preg, imf]
theorem bz (a : Fin 32) (o : BitVec 18) : Statement (.bz a o) := by
  have h0 := o.isLt; have h1 := a.isLt
  refine ofWord _ _ rfl rfl (by simp only [pack]; omega) fun L w hL hf hw => ?_
  obtain ⟨e0, e1, e2, e3, e4⟩ := bits06 o.toNat a.val 4 0 L w h0 h1 (by decide) (by decide) (by simp only [pack] at hw; omega)
  simp [decodeNat, decodeWith, isAClass, flag, decodeC, decodeC04, e0, e1, e2, e3, e4, reg, imf]
theorem bnz (a : Fin 32) (o : BitVec 18) : Statement (.bnz a o) := by
  have h0 := o.isLt; have h1 := a.isLt
  refine ofWord _ _ rfl rfl (by simp only [pack]; omega) fun L w hL hf hw => ?_
  obtain ⟨e0, e1, e2, e3, e4⟩ := bits06 o.toNat a.val 4 1 L w h0 h1 (by decide) (by decide) (by simp only [pack] at hw; omega)
  simp [decodeNat, decodeWith, isAClass, flag, decodeC, decodeC04, e0, e1, e2, e3, e4, reg, imf]
theorem blt (a : Fin 32) (b : Fin 32) (o : BitVec 12) : Statement (.blt a b o) := by
  have h0 := o.isLt; have h1 := b.isLt; have h2 := a.isLt
  refine ofWord _ _ rfl rfl (by simp only [pack]; omega) fun L w hL hf hw => ?_
  obtain ⟨e0, e1, e2, e3, e4, e5⟩ := bits07 o.toNat b.val a.val 5 0 L w h0 h1 h2 (by decide) (by decide) (by simp only [pack] at hw; omega)
  simp [decodeNat, decodeWith, isAClass, flag, decodeC, decodeC05, e0, e1, e2, e3, e4, e5, reg, imf]
theorem bge (a : Fin 32) (b : Fin 32) (o : BitVec 12) : Statement (.bge a b o) := by
  have h0 := o.isLt; have h1 := b.isLt; have h2 := a.isLt
  refine ofWord _ _ rfl rfl (by simp only [pack]; omega) fun L w hL hf hw => ?_
  obtain ⟨e0, e1, e2, e3, e4, e5⟩ := bits07 o.toNat b.val a.val 5 1 L w h0 h1 h2 (by decide) (by decide) (by simp only [pack] at hw; omega)
  simp [decodeNat, decodeWith, isAClass, flag, decodeC, decodeC05, e0, e1, e2, e3, e4, e5, reg, imf]
theorem bltu (a : Fin 32) (b : Fin 32) (o : BitVec 12) : Statement (.bltu a b o) := by
  have h0 := o.isLt; have h1 := b.isLt; have h2 := a.isLt
  refine ofWord _ _ rfl rfl (by simp only [pack]; omega) fun L w hL hf hw => ?_
  obtain ⟨e0, e1, e2, e3, e4, e5⟩ := bits07 o.toNat b.val a.val 5 2 L w h0 h1 h2 (by decide) (by decide) (by simp only [pack] at hw; omega)
  simp [decodeNat, decodeWith, isAClass, flag, decodeC, decodeC05, e0, e1, e2, e3, e4, e5, reg, imf]
theorem bgeu (a : Fin 32) (b : Fin 32) (o : BitVec 12) : Statement (.bgeu a b o) := by
  have h0 := o.isLt; have h1 := b.isLt; have h2 := a.isLt
  refine ofWord _ _ rfl rfl (by simp only [pack]; omega) fun L w hL hf hw => ?_
  obtain ⟨e0, e1, e2, e3, e4, e5⟩ := bits07 o.toNat b.val a.val 5 3 L w h0 h1 h2 (by decide) (by decide) (by simp only [pack] at hw; omega)
  simp [decodeNat, decodeWith, isAClass, flag, decodeC, decodeC05, e0, e1, e2, e3, e4, e5, reg, imf]
theorem callr (a : Fin 32) : Statement (.callr a) := by
  have h0 := a.isLt
  refine ofWord _ _ rfl rfl (by simp only [pack]; omega) fun L w hL hf hw => ?_
  obtain ⟨e0, e1, e2, e3, e4, e5, e6⟩ := bits08 a.val 6 0 L w h0 (by decide) (by decide) (by simp only [pack] at hw; omega)
  simp [decodeNat, decodeWith, isAClass, flag, decodeC, decodeC06, e0, e1, e2, e3, e4, e5, e6, reg]
theorem jr (a : Fin 32) : Statement (.jr a) := by
  have h0 := a.isLt
  refine ofWord _ _ rfl rfl (by simp only [pack]; omega) fun L w hL hf hw => ?_
  obtain ⟨e0, e1, e2, e3, e4, e5, e6⟩ := bits08 a.val 6 1 L w h0 (by decide) (by decide) (by simp only [pack] at hw; omega)
  simp [decodeNat, decodeWith, isAClass, flag, decodeC, decodeC06, e0, e1, e2, e3, e4, e5, e6, reg]
theorem jv (a : Fin 32) : Statement (.jv a) := by
  have h0 := a.isLt
  refine ofWord _ _ rfl rfl (by simp only [pack]; omega) fun L w hL hf hw => ?_
  obtain ⟨e0, e1, e2, e3, e4, e5, e6⟩ := bits08 a.val 6 3 L w h0 (by decide) (by decide) (by simp only [pack] at hw; omega)
  simp [decodeNat, decodeWith, isAClass, flag, decodeC, decodeC06, e0, e1, e2, e3, e4, e5, e6, reg]
theorem ifm (o : BitVec 15) (pr : Fin 8) : Statement (.ifm o pr) := by
  have h0 := pr.isLt; have h1 := o.isLt
  refine ofWord _ _ rfl rfl (by simp only [pack]; omega) fun L w hL hf hw => ?_
  obtain ⟨e0, e1, e2, e3, e4, e5⟩ := bits09 pr.val o.toNat 7 0 L w h0 h1 (by decide) (by decide) (by simp only [pack] at hw; omega)
  simp [decodeNat, decodeWith, isAClass, flag, decodeC, decodeC07, e0, e1, e2, e3, e4, e5, preg, imf]
theorem elm (o : BitVec 15) : Statement (.elm o) := by
  have h0 := o.isLt
  refine ofWord _ _ rfl rfl (by simp only [pack]; omega) fun L w hL hf hw => ?_
  obtain ⟨e0, e1, e2, e3, e4⟩ := bits10 o.toNat 7 1 L w h0 (by decide) (by decide) (by simp only [pack] at hw; omega)
  simp [decodeNat, decodeWith, isAClass, flag, decodeC, decodeC07, e0, e1, e2, e3, e4, imf]
theorem lpm (o : BitVec 15) : Statement (.lpm o) := by
  have h0 := o.isLt
  refine ofWord _ _ rfl rfl (by simp only [pack]; omega) fun L w hL hf hw => ?_
  obtain ⟨e0, e1, e2, e3, e4⟩ := bits10 o.toNat 7 3 L w h0 (by decide) (by decide) (by simp only [pack] at hw; omega)
  simp [decodeNat, decodeWith, isAClass, flag, decodeC, decodeC07, e0, e1, e2, e3, e4, imf]
theorem brk (pr : Fin 8) : Statement (.brk pr) := by
  have h0 := pr.isLt
  refine ofWord _ _ rfl rfl (by simp only [pack]; omega) fun L w hL hf hw => ?_
  obtain ⟨e0, e1, e2, e3, e4, e5⟩ := bits11 pr.val 7 4 L w h0 (by decide) (by decide) (by simp only [pack] at hw; omega)
  simp [decodeNat, decodeWith, isAClass, flag, decodeC, decodeC07, e0, e1, e2, e3, e4, e5, preg]
theorem cnt (pr : Fin 8) : Statement (.cnt pr) := by
  have h0 := pr.isLt
  refine ofWord _ _ rfl rfl (by simp only [pack]; omega) fun L w hL hf hw => ?_
  obtain ⟨e0, e1, e2, e3, e4, e5⟩ := bits11 pr.val 7 5 L w h0 (by decide) (by decide) (by simp only [pack] at hw; omega)
  simp [decodeNat, decodeWith, isAClass, flag, decodeC, decodeC07, e0, e1, e2, e3, e4, e5, preg]
theorem lpe (pr : Fin 8) : Statement (.lpe pr) := by
  have h0 := pr.isLt
  refine ofWord _ _ rfl rfl (by simp only [pack]; omega) fun L w hL hf hw => ?_
  obtain ⟨e0, e1, e2, e3, e4, e5⟩ := bits11 pr.val 7 6 L w h0 (by decide) (by decide) (by simp only [pack] at hw; omega)
  simp [decodeNat, decodeWith, isAClass, flag, decodeC, decodeC07, e0, e1, e2, e3, e4, e5, preg]
theorem cstart (d : Fin 32) (a : Fin 32) (b : Fin 32) : Statement (.cstart d a b) := by
  have h0 := b.isLt; have h1 := a.isLt; have h2 := d.isLt
  refine ofWord _ _ rfl rfl (by simp only [pack]; omega) fun L w hL hf hw => ?_
  obtain ⟨e0, e1, e2, e3, e4, e5, e6⟩ := bits12 b.val a.val d.val 8 0 L w h0 h1 h2 (by decide) (by decide) (by simp only [pack] at hw; omega)
  simp [decodeNat, decodeWith, isAClass, flag, decodeC, decodeC08, e0, e1, e2, e3, e4, e5, e6, reg]
theorem cquery (d : Fin 32) (a : Fin 32) : Statement (.cquery d a) := by
  have h0 := a.isLt; have h1 := d.isLt
  refine ofWord _ _ rfl rfl (by simp only [pack]; omega) fun L w hL hf hw => ?_
  obtain ⟨e0, e1, e2, e3, e4, e5, e6⟩ := bits13 a.val d.val 8 1 L w h0 h1 (by decide) (by decide) (by simp only [pack] at hw; omega)
  simp [decodeNat, decodeWith, isAClass, flag, decodeC, decodeC08, e0, e1, e2, e3, e4, e5, e6, reg]
theorem cwait (a : Fin 32) : Statement (.cwait a) := by
  have h0 := a.isLt
  refine ofWord _ _ rfl rfl (by simp only [pack]; omega) fun L w hL hf hw => ?_
  obtain ⟨e0, e1, e2, e3, e4, e5, e6⟩ := bits08 a.val 8 2 L w h0 (by decide) (by decide) (by simp only [pack] at hw; omega)
  simp [decodeNat, decodeWith, isAClass, flag, decodeC, decodeC08, e0, e1, e2, e3, e4, e5, e6, reg]
theorem wform (d : Fin 32) (a : Fin 32) : Statement (.wform d a) := by
  have h0 := a.isLt; have h1 := d.isLt
  refine ofWord _ _ rfl rfl (by simp only [pack]; omega) fun L w hL hf hw => ?_
  obtain ⟨e0, e1, e2, e3, e4, e5, e6⟩ := bits13 a.val d.val 8 5 L w h0 h1 (by decide) (by decide) (by simp only [pack] at hw; omega)
  simp [decodeNat, decodeWith, isAClass, flag, decodeC, decodeC08, e0, e1, e2, e3, e4, e5, e6, reg]
theorem wsync (a : Fin 32) : Statement (.wsync a) := by
  have h0 := a.isLt
  refine ofWord _ _ rfl rfl (by simp only [pack]; omega) fun L w hL hf hw => ?_
  obtain ⟨e0, e1, e2, e3, e4, e5, e6⟩ := bits08 a.val 8 6 L w h0 (by decide) (by decide) (by simp only [pack] at hw; omega)
  simp [decodeNat, decodeWith, isAClass, flag, decodeC, decodeC08, e0, e1, e2, e3, e4, e5, e6, reg]
theorem reord (a : Fin 32) (b : Fin 32) : Statement (.reord a b) := by
  have h0 := b.isLt; have h1 := a.isLt
  refine ofWord _ _ rfl rfl (by simp only [pack]; omega) fun L w hL hf hw => ?_
  obtain ⟨e0, e1, e2, e3, e4, e5, e6⟩ := bits14 b.val a.val 8 7 L w h0 h1 (by decide) (by decide) (by simp only [pack] at hw; omega)
  simp [decodeNat, decodeWith, isAClass, flag, decodeC, decodeC08, e0, e1, e2, e3, e4, e5, e6, reg]
theorem ld8 (d : Fin 32) (a : Fin 32) (o : BitVec 11) : Statement (.ld8 d a o) := by
  have h0 := o.isLt; have h1 := a.isLt; have h2 := d.isLt
  refine ofWord _ _ rfl rfl (by simp only [pack]; omega) fun L w hL hf hw => ?_
  obtain ⟨e0, e1, e2, e3, e4, e5⟩ := bits15 o.toNat a.val d.val 9 0 L w h0 h1 h2 (by decide) (by decide) (by simp only [pack] at hw; omega)
  simp [decodeNat, decodeWith, isAClass, flag, decodeC, decodeC09, e0, e1, e2, e3, e4, e5, reg, imf]
theorem ld8z (d : Fin 32) (a : Fin 32) (o : BitVec 11) : Statement (.ld8z d a o) := by
  have h0 := o.isLt; have h1 := a.isLt; have h2 := d.isLt
  refine ofWord _ _ rfl rfl (by simp only [pack]; omega) fun L w hL hf hw => ?_
  obtain ⟨e0, e1, e2, e3, e4, e5⟩ := bits15 o.toNat a.val d.val 9 1 L w h0 h1 h2 (by decide) (by decide) (by simp only [pack] at hw; omega)
  simp [decodeNat, decodeWith, isAClass, flag, decodeC, decodeC09, e0, e1, e2, e3, e4, e5, reg, imf]
theorem ld16 (d : Fin 32) (a : Fin 32) (o : BitVec 11) : Statement (.ld16 d a o) := by
  have h0 := o.isLt; have h1 := a.isLt; have h2 := d.isLt
  refine ofWord _ _ rfl rfl (by simp only [pack]; omega) fun L w hL hf hw => ?_
  obtain ⟨e0, e1, e2, e3, e4, e5⟩ := bits15 o.toNat a.val d.val 9 2 L w h0 h1 h2 (by decide) (by decide) (by simp only [pack] at hw; omega)
  simp [decodeNat, decodeWith, isAClass, flag, decodeC, decodeC09, e0, e1, e2, e3, e4, e5, reg, imf]
theorem ld16z (d : Fin 32) (a : Fin 32) (o : BitVec 11) : Statement (.ld16z d a o) := by
  have h0 := o.isLt; have h1 := a.isLt; have h2 := d.isLt
  refine ofWord _ _ rfl rfl (by simp only [pack]; omega) fun L w hL hf hw => ?_
  obtain ⟨e0, e1, e2, e3, e4, e5⟩ := bits15 o.toNat a.val d.val 9 3 L w h0 h1 h2 (by decide) (by decide) (by simp only [pack] at hw; omega)
  simp [decodeNat, decodeWith, isAClass, flag, decodeC, decodeC09, e0, e1, e2, e3, e4, e5, reg, imf]
theorem ld32 (d : Fin 32) (a : Fin 32) (o : BitVec 11) : Statement (.ld32 d a o) := by
  have h0 := o.isLt; have h1 := a.isLt; have h2 := d.isLt
  refine ofWord _ _ rfl rfl (by simp only [pack]; omega) fun L w hL hf hw => ?_
  obtain ⟨e0, e1, e2, e3, e4, e5⟩ := bits15 o.toNat a.val d.val 9 4 L w h0 h1 h2 (by decide) (by decide) (by simp only [pack] at hw; omega)
  simp [decodeNat, decodeWith, isAClass, flag, decodeC, decodeC09, e0, e1, e2, e3, e4, e5, reg, imf]
theorem ld32z (d : Fin 32) (a : Fin 32) (o : BitVec 11) : Statement (.ld32z d a o) := by
  have h0 := o.isLt; have h1 := a.isLt; have h2 := d.isLt
  refine ofWord _ _ rfl rfl (by simp only [pack]; omega) fun L w hL hf hw => ?_
  obtain ⟨e0, e1, e2, e3, e4, e5⟩ := bits15 o.toNat a.val d.val 9 5 L w h0 h1 h2 (by decide) (by decide) (by simp only [pack] at hw; omega)
  simp [decodeNat, decodeWith, isAClass, flag, decodeC, decodeC09, e0, e1, e2, e3, e4, e5, reg, imf]
theorem ld64 (d : Fin 32) (a : Fin 32) (o : BitVec 11) : Statement (.ld64 d a o) := by
  have h0 := o.isLt; have h1 := a.isLt; have h2 := d.isLt
  refine ofWord _ _ rfl rfl (by simp only [pack]; omega) fun L w hL hf hw => ?_
  obtain ⟨e0, e1, e2, e3, e4, e5⟩ := bits15 o.toNat a.val d.val 9 6 L w h0 h1 h2 (by decide) (by decide) (by simp only [pack] at hw; omega)
  simp [decodeNat, decodeWith, isAClass, flag, decodeC, decodeC09, e0, e1, e2, e3, e4, e5, reg, imf]
theorem st8 (s : Fin 32) (a : Fin 32) (o : BitVec 11) : Statement (.st8 s a o) := by
  have h0 := o.isLt; have h1 := a.isLt; have h2 := s.isLt
  refine ofWord _ _ rfl rfl (by simp only [pack]; omega) fun L w hL hf hw => ?_
  obtain ⟨e0, e1, e2, e3, e4, e5⟩ := bits15 o.toNat a.val s.val 10 0 L w h0 h1 h2 (by decide) (by decide) (by simp only [pack] at hw; omega)
  simp [decodeNat, decodeWith, isAClass, flag, decodeC, decodeC0a, e0, e1, e2, e3, e4, e5, reg, imf]
theorem st16 (s : Fin 32) (a : Fin 32) (o : BitVec 11) : Statement (.st16 s a o) := by
  have h0 := o.isLt; have h1 := a.isLt; have h2 := s.isLt
  refine ofWord _ _ rfl rfl (by simp only [pack]; omega) fun L w hL hf hw => ?_
  obtain ⟨e0, e1, e2, e3, e4, e5⟩ := bits15 o.toNat a.val s.val 10 1 L w h0 h1 h2 (by decide) (by decide) (by simp only [pack] at hw; omega)
  simp [decodeNat, decodeWith, isAClass, flag, decodeC, decodeC0a, e0, e1, e2, e3, e4, e5, reg, imf]
theorem st32 (s : Fin 32) (a : Fin 32) (o : BitVec 11) : Statement (.st32 s a o) := by
  have h0 := o.isLt; have h1 := a.isLt; have h2 := s.isLt
  refine ofWord _ _ rfl rfl (by simp only [pack]; omega) fun L w hL hf hw => ?_
  obtain ⟨e0, e1, e2, e3, e4, e5⟩ := bits15 o.toNat a.val s.val 10 2 L w h0 h1 h2 (by decide) (by decide) (by simp only [pack] at hw; omega)
  simp [decodeNat, decodeWith, isAClass, flag, decodeC, decodeC0a, e0, e1, e2, e3, e4, e5, reg, imf]
theorem st64 (s : Fin 32) (a : Fin 32) (o : BitVec 11) : Statement (.st64 s a o) := by
  have h0 := o.isLt; have h1 := a.isLt; have h2 := s.isLt
  refine ofWord _ _ rfl rfl (by simp only [pack]; omega) fun L w hL hf hw => ?_
  obtain ⟨e0, e1, e2, e3, e4, e5⟩ := bits15 o.toNat a.val s.val 10 3 L w h0 h1 h2 (by decide) (by decide) (by simp only [pack] at hw; omega)
  simp [decodeNat, decodeWith, isAClass, flag, decodeC, decodeC0a, e0, e1, e2, e3, e4, e5, reg, imf]
theorem vld (d : Fin 32) (a : Fin 32) (o : BitVec 11) : Statement (.vld d a o) := by
  have h0 := o.isLt; have h1 := a.isLt; have h2 := d.isLt
  refine ofWord _ _ rfl rfl (by simp only [pack]; omega) fun L w hL hf hw => ?_
  obtain ⟨e0, e1, e2, e3, e4, e5⟩ := bits15 o.toNat a.val d.val 11 0 L w h0 h1 h2 (by decide) (by decide) (by simp only [pack] at hw; omega)
  simp [decodeNat, decodeWith, isAClass, flag, decodeC, decodeC0b, e0, e1, e2, e3, e4, e5, reg, imf]
theorem vst (s : Fin 32) (a : Fin 32) (o : BitVec 11) : Statement (.vst s a o) := by
  have h0 := o.isLt; have h1 := a.isLt; have h2 := s.isLt
  refine ofWord _ _ rfl rfl (by simp only [pack]; omega) fun L w hL hf hw => ?_
  obtain ⟨e0, e1, e2, e3, e4, e5⟩ := bits15 o.toNat a.val s.val 11 1 L w h0 h1 h2 (by decide) (by decide) (by simp only [pack] at hw; omega)
  simp [decodeNat, decodeWith, isAClass, flag, decodeC, decodeC0b, e0, e1, e2, e3, e4, e5, reg, imf]
theorem vldx (d : Fin 32) (a : Fin 32) (b : Fin 32) : Statement (.vldx d a b) := by
  have h0 := b.isLt; have h1 := a.isLt; have h2 := d.isLt
  refine ofWord _ _ rfl rfl (by simp only [pack]; omega) fun L w hL hf hw => ?_
  obtain ⟨e0, e1, e2, e3, e4, e5, e6⟩ := bits12 b.val a.val d.val 12 0 L w h0 h1 h2 (by decide) (by decide) (by simp only [pack] at hw; omega)
  simp [decodeNat, decodeWith, isAClass, flag, decodeC, decodeC0c, e0, e1, e2, e3, e4, e5, e6, reg]
theorem vstx (s : Fin 32) (a : Fin 32) (b : Fin 32) : Statement (.vstx s a b) := by
  have h0 := b.isLt; have h1 := a.isLt; have h2 := s.isLt
  refine ofWord _ _ rfl rfl (by simp only [pack]; omega) fun L w hL hf hw => ?_
  obtain ⟨e0, e1, e2, e3, e4, e5, e6⟩ := bits12 b.val a.val s.val 12 1 L w h0 h1 h2 (by decide) (by decide) (by simp only [pack] at hw; omega)
  simp [decodeNat, decodeWith, isAClass, flag, decodeC, decodeC0c, e0, e1, e2, e3, e4, e5, e6, reg]
theorem ldw32 (d : Fin 32) (a : Fin 32) (b : Fin 32) : Statement (.ldw32 d a b) := by
  have h0 := b.isLt; have h1 := a.isLt; have h2 := d.isLt
  refine ofWord _ _ rfl rfl (by simp only [pack]; omega) fun L w hL hf hw => ?_
  obtain ⟨e0, e1, e2, e3, e4, e5, e6⟩ := bits12 b.val a.val d.val 12 2 L w h0 h1 h2 (by decide) (by decide) (by simp only [pack] at hw; omega)
  simp [decodeNat, decodeWith, isAClass, flag, decodeC, decodeC0c, e0, e1, e2, e3, e4, e5, e6, reg]
theorem ldw64 (d : Fin 32) (a : Fin 32) (b : Fin 32) : Statement (.ldw64 d a b) := by
  have h0 := b.isLt; have h1 := a.isLt; have h2 := d.isLt
  refine ofWord _ _ rfl rfl (by simp only [pack]; omega) fun L w hL hf hw => ?_
  obtain ⟨e0, e1, e2, e3, e4, e5, e6⟩ := bits12 b.val a.val d.val 12 3 L w h0 h1 h2 (by decide) (by decide) (by simp only [pack] at hw; omega)
  simp [decodeNat, decodeWith, isAClass, flag, decodeC, decodeC0c, e0, e1, e2, e3, e4, e5, e6, reg]
theorem stw32 (s : Fin 32) (a : Fin 32) (b : Fin 32) : Statement (.stw32 s a b) := by
  have h0 := b.isLt; have h1 := a.isLt; have h2 := s.isLt
  refine ofWord _ _ rfl rfl (by simp only [pack]; omega) fun L w hL hf hw => ?_
  obtain ⟨e0, e1, e2, e3, e4, e5, e6⟩ := bits12 b.val a.val s.val 12 4 L w h0 h1 h2 (by decide) (by decide) (by simp only [pack] at hw; omega)
  simp [decodeNat, decodeWith, isAClass, flag, decodeC, decodeC0c, e0, e1, e2, e3, e4, e5, e6, reg]
theorem stw64 (s : Fin 32) (a : Fin 32) (b : Fin 32) : Statement (.stw64 s a b) := by
  have h0 := b.isLt; have h1 := a.isLt; have h2 := s.isLt
  refine ofWord _ _ rfl rfl (by simp only [pack]; omega) fun L w hL hf hw => ?_
  obtain ⟨e0, e1, e2, e3, e4, e5, e6⟩ := bits12 b.val a.val s.val 12 5 L w h0 h1 h2 (by decide) (by decide) (by simp only [pack] at hw; omega)
  simp [decodeNat, decodeWith, isAClass, flag, decodeC, decodeC0c, e0, e1, e2, e3, e4, e5, e6, reg]
theorem vldw (d : Fin 32) (a : Fin 32) (b : Fin 32) : Statement (.vldw d a b) := by
  have h0 := b.isLt; have h1 := a.isLt; have h2 := d.isLt
  refine ofWord _ _ rfl rfl (by simp only [pack]; omega) fun L w hL hf hw => ?_
  obtain ⟨e0, e1, e2, e3, e4, e5, e6⟩ := bits12 b.val a.val d.val 12 6 L w h0 h1 h2 (by decide) (by decide) (by simp only [pack] at hw; omega)
  simp [decodeNat, decodeWith, isAClass, flag, decodeC, decodeC0c, e0, e1, e2, e3, e4, e5, e6, reg]
theorem vstw (s : Fin 32) (a : Fin 32) (b : Fin 32) : Statement (.vstw s a b) := by
  have h0 := b.isLt; have h1 := a.isLt; have h2 := s.isLt
  refine ofWord _ _ rfl rfl (by simp only [pack]; omega) fun L w hL hf hw => ?_
  obtain ⟨e0, e1, e2, e3, e4, e5, e6⟩ := bits12 b.val a.val s.val 12 7 L w h0 h1 h2 (by decide) (by decide) (by simp only [pack] at hw; omega)
  simp [decodeNat, decodeWith, isAClass, flag, decodeC, decodeC0c, e0, e1, e2, e3, e4, e5, e6, reg]
theorem aadd (d : Fin 32) (a : Fin 32) (b : Fin 32) (width : AWidth) (r : Order) (s : Scope) : Statement (.aadd d a b width r s) := by
  have h0 := (Scope.code_lt s); have h1 := (Order.code_lt r); have h2 := (AWidth.code_lt width); have h3 := b.isLt; have h4 := a.isLt; have h5 := d.isLt
  refine ofWord _ _ rfl rfl (by simp only [pack]; omega) fun L w hL hf hw => ?_
  obtain ⟨e0, e1, e2, e3, e4, e5, e6, e7, e8⟩ := bits16 s.code r.code width.code b.val a.val d.val 13 0 L w h0 h1 h2 h3 h4 h5 (by decide) (by decide) (by simp only [pack] at hw; omega)
  simp [decodeNat, decodeWith, isAClass, flag, decodeC, decodeC0d, e0, e1, e2, e3, e4, e5, e6, e7, e8, reg, AWidth.ofCode_code, Order.ofCode_code, Scope.ofCode_code]
theorem aand (d : Fin 32) (a : Fin 32) (b : Fin 32) (width : AWidth) (r : Order) (s : Scope) : Statement (.aand d a b width r s) := by
  have h0 := (Scope.code_lt s); have h1 := (Order.code_lt r); have h2 := (AWidth.code_lt width); have h3 := b.isLt; have h4 := a.isLt; have h5 := d.isLt
  refine ofWord _ _ rfl rfl (by simp only [pack]; omega) fun L w hL hf hw => ?_
  obtain ⟨e0, e1, e2, e3, e4, e5, e6, e7, e8⟩ := bits16 s.code r.code width.code b.val a.val d.val 13 1 L w h0 h1 h2 h3 h4 h5 (by decide) (by decide) (by simp only [pack] at hw; omega)
  simp [decodeNat, decodeWith, isAClass, flag, decodeC, decodeC0d, e0, e1, e2, e3, e4, e5, e6, e7, e8, reg, AWidth.ofCode_code, Order.ofCode_code, Scope.ofCode_code]
theorem aor (d : Fin 32) (a : Fin 32) (b : Fin 32) (width : AWidth) (r : Order) (s : Scope) : Statement (.aor d a b width r s) := by
  have h0 := (Scope.code_lt s); have h1 := (Order.code_lt r); have h2 := (AWidth.code_lt width); have h3 := b.isLt; have h4 := a.isLt; have h5 := d.isLt
  refine ofWord _ _ rfl rfl (by simp only [pack]; omega) fun L w hL hf hw => ?_
  obtain ⟨e0, e1, e2, e3, e4, e5, e6, e7, e8⟩ := bits16 s.code r.code width.code b.val a.val d.val 13 2 L w h0 h1 h2 h3 h4 h5 (by decide) (by decide) (by simp only [pack] at hw; omega)
  simp [decodeNat, decodeWith, isAClass, flag, decodeC, decodeC0d, e0, e1, e2, e3, e4, e5, e6, e7, e8, reg, AWidth.ofCode_code, Order.ofCode_code, Scope.ofCode_code]
theorem axor (d : Fin 32) (a : Fin 32) (b : Fin 32) (width : AWidth) (r : Order) (s : Scope) : Statement (.axor d a b width r s) := by
  have h0 := (Scope.code_lt s); have h1 := (Order.code_lt r); have h2 := (AWidth.code_lt width); have h3 := b.isLt; have h4 := a.isLt; have h5 := d.isLt
  refine ofWord _ _ rfl rfl (by simp only [pack]; omega) fun L w hL hf hw => ?_
  obtain ⟨e0, e1, e2, e3, e4, e5, e6, e7, e8⟩ := bits16 s.code r.code width.code b.val a.val d.val 13 3 L w h0 h1 h2 h3 h4 h5 (by decide) (by decide) (by simp only [pack] at hw; omega)
  simp [decodeNat, decodeWith, isAClass, flag, decodeC, decodeC0d, e0, e1, e2, e3, e4, e5, e6, e7, e8, reg, AWidth.ofCode_code, Order.ofCode_code, Scope.ofCode_code]
theorem amin (d : Fin 32) (a : Fin 32) (b : Fin 32) (width : AWidth) (r : Order) (s : Scope) : Statement (.amin d a b width r s) := by
  have h0 := (Scope.code_lt s); have h1 := (Order.code_lt r); have h2 := (AWidth.code_lt width); have h3 := b.isLt; have h4 := a.isLt; have h5 := d.isLt
  refine ofWord _ _ rfl rfl (by simp only [pack]; omega) fun L w hL hf hw => ?_
  obtain ⟨e0, e1, e2, e3, e4, e5, e6, e7, e8⟩ := bits16 s.code r.code width.code b.val a.val d.val 13 4 L w h0 h1 h2 h3 h4 h5 (by decide) (by decide) (by simp only [pack] at hw; omega)
  simp [decodeNat, decodeWith, isAClass, flag, decodeC, decodeC0d, e0, e1, e2, e3, e4, e5, e6, e7, e8, reg, AWidth.ofCode_code, Order.ofCode_code, Scope.ofCode_code]
theorem amax (d : Fin 32) (a : Fin 32) (b : Fin 32) (width : AWidth) (r : Order) (s : Scope) : Statement (.amax d a b width r s) := by
  have h0 := (Scope.code_lt s); have h1 := (Order.code_lt r); have h2 := (AWidth.code_lt width); have h3 := b.isLt; have h4 := a.isLt; have h5 := d.isLt
  refine ofWord _ _ rfl rfl (by simp only [pack]; omega) fun L w hL hf hw => ?_
  obtain ⟨e0, e1, e2, e3, e4, e5, e6, e7, e8⟩ := bits16 s.code r.code width.code b.val a.val d.val 13 5 L w h0 h1 h2 h3 h4 h5 (by decide) (by decide) (by simp only [pack] at hw; omega)
  simp [decodeNat, decodeWith, isAClass, flag, decodeC, decodeC0d, e0, e1, e2, e3, e4, e5, e6, e7, e8, reg, AWidth.ofCode_code, Order.ofCode_code, Scope.ofCode_code]
theorem aminu (d : Fin 32) (a : Fin 32) (b : Fin 32) (width : AWidth) (r : Order) (s : Scope) : Statement (.aminu d a b width r s) := by
  have h0 := (Scope.code_lt s); have h1 := (Order.code_lt r); have h2 := (AWidth.code_lt width); have h3 := b.isLt; have h4 := a.isLt; have h5 := d.isLt
  refine ofWord _ _ rfl rfl (by simp only [pack]; omega) fun L w hL hf hw => ?_
  obtain ⟨e0, e1, e2, e3, e4, e5, e6, e7, e8⟩ := bits16 s.code r.code width.code b.val a.val d.val 13 6 L w h0 h1 h2 h3 h4 h5 (by decide) (by decide) (by simp only [pack] at hw; omega)
  simp [decodeNat, decodeWith, isAClass, flag, decodeC, decodeC0d, e0, e1, e2, e3, e4, e5, e6, e7, e8, reg, AWidth.ofCode_code, Order.ofCode_code, Scope.ofCode_code]
theorem amaxu (d : Fin 32) (a : Fin 32) (b : Fin 32) (width : AWidth) (r : Order) (s : Scope) : Statement (.amaxu d a b width r s) := by
  have h0 := (Scope.code_lt s); have h1 := (Order.code_lt r); have h2 := (AWidth.code_lt width); have h3 := b.isLt; have h4 := a.isLt; have h5 := d.isLt
  refine ofWord _ _ rfl rfl (by simp only [pack]; omega) fun L w hL hf hw => ?_
  obtain ⟨e0, e1, e2, e3, e4, e5, e6, e7, e8⟩ := bits16 s.code r.code width.code b.val a.val d.val 13 7 L w h0 h1 h2 h3 h4 h5 (by decide) (by decide) (by simp only [pack] at hw; omega)
  simp [decodeNat, decodeWith, isAClass, flag, decodeC, decodeC0d, e0, e1, e2, e3, e4, e5, e6, e7, e8, reg, AWidth.ofCode_code, Order.ofCode_code, Scope.ofCode_code]
theorem aswp (d : Fin 32) (a : Fin 32) (b : Fin 32) (width : AWidth) (r : Order) (s : Scope) : Statement (.aswp d a b width r s) := by
  have h0 := (Scope.code_lt s); have h1 := (Order.code_lt r); have h2 := (AWidth.code_lt width); have h3 := b.isLt; have h4 := a.isLt; have h5 := d.isLt
  refine ofWord _ _ rfl rfl (by simp only [pack]; omega) fun L w hL hf hw => ?_
  obtain ⟨e0, e1, e2, e3, e4, e5, e6, e7, e8⟩ := bits16 s.code r.code width.code b.val a.val d.val 13 8 L w h0 h1 h2 h3 h4 h5 (by decide) (by decide) (by simp only [pack] at hw; omega)
  simp [decodeNat, decodeWith, isAClass, flag, decodeC, decodeC0d, e0, e1, e2, e3, e4, e5, e6, e7, e8, reg, AWidth.ofCode_code, Order.ofCode_code, Scope.ofCode_code]
theorem acas (d : Fin 32) (a : Fin 32) (b : Fin 32) (width : AWidth) (r : Order) (s : Scope) : Statement (.acas d a b width r s) := by
  have h0 := (Scope.code_lt s); have h1 := (Order.code_lt r); have h2 := (AWidth.code_lt width); have h3 := b.isLt; have h4 := a.isLt; have h5 := d.isLt
  refine ofWord _ _ rfl rfl (by simp only [pack]; omega) fun L w hL hf hw => ?_
  obtain ⟨e0, e1, e2, e3, e4, e5, e6, e7, e8⟩ := bits16 s.code r.code width.code b.val a.val d.val 13 9 L w h0 h1 h2 h3 h4 h5 (by decide) (by decide) (by simp only [pack] at hw; omega)
  simp [decodeNat, decodeWith, isAClass, flag, decodeC, decodeC0d, e0, e1, e2, e3, e4, e5, e6, e7, e8, reg, AWidth.ofCode_code, Order.ofCode_code, Scope.ofCode_code]
theorem afadd (d : Fin 32) (a : Fin 32) (b : Fin 32) (width : AWidth) (r : Order) (s : Scope) : Statement (.afadd d a b width r s) := by
  have h0 := (Scope.code_lt s); have h1 := (Order.code_lt r); have h2 := (AWidth.code_lt width); have h3 := b.isLt; have h4 := a.isLt; have h5 := d.isLt
  refine ofWord _ _ rfl rfl (by simp only [pack]; omega) fun L w hL hf hw => ?_
  obtain ⟨e0, e1, e2, e3, e4, e5, e6, e7, e8⟩ := bits16 s.code r.code width.code b.val a.val d.val 13 10 L w h0 h1 h2 h3 h4 h5 (by decide) (by decide) (by simp only [pack] at hw; omega)
  simp [decodeNat, decodeWith, isAClass, flag, decodeC, decodeC0d, e0, e1, e2, e3, e4, e5, e6, e7, e8, reg, AWidth.ofCode_code, Order.ofCode_code, Scope.ofCode_code]
theorem adecz (d : Fin 32) (a : Fin 32) (b : Fin 32) (width : AWidth) (r : Order) (s : Scope) : Statement (.adecz d a b width r s) := by
  have h0 := (Scope.code_lt s); have h1 := (Order.code_lt r); have h2 := (AWidth.code_lt width); have h3 := b.isLt; have h4 := a.isLt; have h5 := d.isLt
  refine ofWord _ _ rfl rfl (by simp only [pack]; omega) fun L w hL hf hw => ?_
  obtain ⟨e0, e1, e2, e3, e4, e5, e6, e7, e8⟩ := bits16 s.code r.code width.code b.val a.val d.val 13 11 L w h0 h1 h2 h3 h4 h5 (by decide) (by decide) (by simp only [pack] at hw; omega)
  simp [decodeNat, decodeWith, isAClass, flag, decodeC, decodeC0d, e0, e1, e2, e3, e4, e5, e6, e7, e8, reg, AWidth.ofCode_code, Order.ofCode_code, Scope.ofCode_code]
theorem fence (s : Scope) : Statement (.fence s) := by
  have h0 := (Scope.code_lt s)
  refine ofWord _ _ rfl rfl (by simp only [pack]; omega) fun L w hL hf hw => ?_
  obtain ⟨e0, e1, e2, e3, e4, e5⟩ := bits17 s.code 14 0 L w h0 (by decide) (by decide) (by simp only [pack] at hw; omega)
  simp [decodeNat, decodeWith, isAClass, flag, decodeC, decodeC0e, e0, e1, e2, e3, e4, e5, Scope.ofCode_code]
theorem rprobe (d : Fin 32) (a : Fin 32) : Statement (.rprobe d a) := by
  have h0 := a.isLt; have h1 := d.isLt
  refine ofWord _ _ rfl rfl (by simp only [pack]; omega) fun L w hL hf hw => ?_
  obtain ⟨e0, e1, e2, e3, e4, e5, e6⟩ := bits13 a.val d.val 14 2 L w h0 h1 (by decide) (by decide) (by simp only [pack] at hw; omega)
  simp [decodeNat, decodeWith, isAClass, flag, decodeC, decodeC0e, e0, e1, e2, e3, e4, e5, e6, reg]
theorem mwait (d : Fin 32) (a : Fin 32) (b : Fin 32) (width : Bool) (s : Scope) : Statement (.mwait d a b width s) := by
  have h0 := (Scope.code_lt s); have h1 := (bitNat_lt width); have h2 := b.isLt; have h3 := a.isLt; have h4 := d.isLt
  refine ofWord _ _ rfl rfl (by simp only [pack]; omega) fun L w hL hf hw => ?_
  obtain ⟨e0, e1, e2, e3, e4, e5, e6, e7, e8⟩ := bits18 s.code (bitNat width) b.val a.val d.val 14 3 L w h0 h1 h2 h3 h4 (by decide) (by decide) (by simp only [pack] at hw; omega)
  simp [decodeNat, decodeWith, isAClass, flag, decodeC, decodeC0e, e0, e1, e2, e3, e4, e5, e6, e7, e8, reg, bitNat_eq_one, Scope.ofCode_code]
theorem cpy (d : Fin 32) (a : Fin 32) (b : Fin 32) (m : Bool) (n : Bool) (t : Fin 16) : Statement (.cpy d a b m n t) := by
  have h0 := t.isLt; have h1 := (bitNat_lt n); have h2 := (bitNat_lt m); have h3 := b.isLt; have h4 := a.isLt; have h5 := d.isLt
  refine ofWord _ _ rfl rfl (by simp only [pack]; omega) fun L w hL hf hw => ?_
  obtain ⟨e0, e1, e2, e3, e4, e5, e6, e7, e8⟩ := bits19 t.val (bitNat n) (bitNat m) b.val a.val d.val 15 0 L w h0 h1 h2 h3 h4 h5 (by decide) (by decide) (by simp only [pack] at hw; omega)
  simp [decodeNat, decodeWith, isAClass, flag, decodeC, decodeC0f, e0, e1, e2, e3, e4, e5, e6, e7, e8, reg, bitNat_eq_one]
theorem cpy2d (d : Fin 32) (a : Fin 32) (b : Fin 32) (m : Bool) (n : Bool) (t : Fin 16) : Statement (.cpy2d d a b m n t) := by
  have h0 := t.isLt; have h1 := (bitNat_lt n); have h2 := (bitNat_lt m); have h3 := b.isLt; have h4 := a.isLt; have h5 := d.isLt
  refine ofWord _ _ rfl rfl (by simp only [pack]; omega) fun L w hL hf hw => ?_
  obtain ⟨e0, e1, e2, e3, e4, e5, e6, e7, e8⟩ := bits19 t.val (bitNat n) (bitNat m) b.val a.val d.val 15 1 L w h0 h1 h2 h3 h4 h5 (by decide) (by decide) (by simp only [pack] at hw; omega)
  simp [decodeNat, decodeWith, isAClass, flag, decodeC, decodeC0f, e0, e1, e2, e3, e4, e5, e6, e7, e8, reg, bitNat_eq_one]
theorem lcp (a : Fin 32) (b : Fin 32) (m : Bool) (t : Fin 16) : Statement (.lcp a b m t) := by
  have h0 := t.isLt; have h1 := (bitNat_lt m); have h2 := b.isLt; have h3 := a.isLt
  refine ofWord _ _ rfl rfl (by simp only [pack]; omega) fun L w hL hf hw => ?_
  obtain ⟨e0, e1, e2, e3, e4, e5, e6, e7, e8, e9, e10⟩ := bits20 t.val (bitNat m) b.val a.val 15 2 L w h0 h1 h2 h3 (by decide) (by decide) (by simp only [pack] at hw; omega)
  simp [decodeNat, decodeWith, isAClass, flag, decodeC, decodeC0f, e0, e1, e2, e3, e4, e5, e6, e7, e8, e9, e10, reg, preg, bitNat_eq_one]
theorem lcpNf (d : Fin 8) (a : Fin 32) (b : Fin 32) (m : Bool) (t : Fin 16) : Statement (.lcpNf d a b m t) := by
  have h0 := t.isLt; have h1 := (bitNat_lt m); have h2 := b.isLt; have h3 := a.isLt; have h4 := d.isLt
  refine ofWord _ _ rfl rfl (by simp only [pack]; omega) fun L w hL hf hw => ?_
  obtain ⟨e0, e1, e2, e3, e4, e5, e6, e7, e8, e9, e10⟩ := bits21 t.val (bitNat m) b.val a.val d.val 15 2 1 L w h0 h1 h2 h3 h4 (by decide) (by decide) (by decide) (by simp only [pack] at hw; omega)
  simp [decodeNat, decodeWith, isAClass, flag, decodeC, decodeC0f, e0, e1, e2, e3, e4, e5, e6, e7, e8, e9, e10, reg, preg, bitNat_eq_one]
theorem lcs (a : Fin 32) (b : Fin 32) (m : Bool) (t : Fin 16) : Statement (.lcs a b m t) := by
  have h0 := t.isLt; have h1 := (bitNat_lt m); have h2 := b.isLt; have h3 := a.isLt
  refine ofWord _ _ rfl rfl (by simp only [pack]; omega) fun L w hL hf hw => ?_
  obtain ⟨e0, e1, e2, e3, e4, e5, e6, e7, e8⟩ := bits22 t.val (bitNat m) b.val a.val 15 3 L w h0 h1 h2 h3 (by decide) (by decide) (by simp only [pack] at hw; omega)
  simp [decodeNat, decodeWith, isAClass, flag, decodeC, decodeC0f, e0, e1, e2, e3, e4, e5, e6, e7, e8, reg, bitNat_eq_one]
theorem rdc (d : Fin 32) (a : Fin 32) (b : Fin 32) (m : Bool) (t : Fin 16) : Statement (.rdc d a b m t) := by
  have h0 := t.isLt; have h1 := (bitNat_lt m); have h2 := b.isLt; have h3 := a.isLt; have h4 := d.isLt
  refine ofWord _ _ rfl rfl (by simp only [pack]; omega) fun L w hL hf hw => ?_
  obtain ⟨e0, e1, e2, e3, e4, e5, e6, e7, e8⟩ := bits23 t.val (bitNat m) b.val a.val d.val 15 4 L w h0 h1 h2 h3 h4 (by decide) (by decide) (by simp only [pack] at hw; omega)
  simp [decodeNat, decodeWith, isAClass, flag, decodeC, decodeC0f, e0, e1, e2, e3, e4, e5, e6, e7, e8, reg, bitNat_eq_one]
theorem ired (a : Fin 32) (m : Bool) (t : Fin 16) : Statement (.ired a m t) := by
  have h0 := t.isLt; have h1 := (bitNat_lt m); have h2 := a.isLt
  refine ofWord _ _ rfl rfl (by simp only [pack]; omega) fun L w hL hf hw => ?_
  obtain ⟨e0, e1, e2, e3, e4, e5, e6, e7, e8⟩ := bits24 t.val (bitNat m) a.val 15 5 L w h0 h1 h2 (by decide) (by decide) (by simp only [pack] at hw; omega)
  simp [decodeNat, decodeWith, isAClass, flag, decodeC, decodeC0f, e0, e1, e2, e3, e4, e5, e6, e7, e8, reg, bitNat_eq_one]
theorem ctw (d : Fin 32) (t : Fin 16) : Statement (.ctw d t) := by
  have h0 := t.isLt; have h1 := d.isLt
  refine ofWord _ _ rfl rfl (by simp only [pack]; omega) fun L w hL hf hw => ?_
  obtain ⟨e0, e1, e2, e3, e4, e5⟩ := bits25 t.val d.val 15 6 L w h0 h1 (by decide) (by decide) (by simp only [pack] at hw; omega)
  have e6 : fld w 9 10 = 0 := by unfold fld at e3 ⊢; omega
  have e7 : fld w 7 2 = 0 := by unfold fld at e3 ⊢; omega
  simp [decodeNat, decodeWith, isAClass, flag, decodeC, decodeC0f, e0, e1, e2, e4, e5, e6, e7, reg]
theorem ctq (d : Fin 32) (t : Fin 16) : Statement (.ctq d t) := by
  have h0 := t.isLt; have h1 := d.isLt
  refine ofWord _ _ rfl rfl (by simp only [pack]; omega) fun L w hL hf hw => ?_
  obtain ⟨e0, e1, e2, e3, e4, e5⟩ := bits25 t.val d.val 15 7 L w h0 h1 (by decide) (by decide) (by simp only [pack] at hw; omega)
  have e6 : fld w 9 10 = 0 := by unfold fld at e3 ⊢; omega
  have e7 : fld w 7 2 = 0 := by unfold fld at e3 ⊢; omega
  simp [decodeNat, decodeWith, isAClass, flag, decodeC, decodeC0f, e0, e1, e2, e4, e5, e6, e7, reg]
theorem qpop (d : Fin 32) (a : Fin 32) (q : Port) : Statement (.qpop d a q) := by
  have h0 := (Port.code_lt q); have h1 := a.isLt; have h2 := d.isLt
  refine ofWord _ _ rfl rfl (by simp only [pack]; omega) fun L w hL hf hw => ?_
  obtain ⟨e0, e1, e2, e3, e4, e5, e6, e7⟩ := bits26 q.code a.val d.val 16 0 L w h0 h1 h2 (by decide) (by decide) (by simp only [pack] at hw; omega)
  simp [decodeNat, decodeWith, isAClass, flag, decodeC, decodeC10, e0, e1, e2, e3, e4, e5, e6, e7, reg, Port.ofCode_code, whenLegal, hf]
theorem qpopl (d : Fin 32) (a : Fin 32) (pr : Fin 8) (q : Port) : Statement (.qpopl d a pr q) := by
  have h0 := (Port.code_lt q); have h1 := pr.isLt; have h2 := a.isLt; have h3 := d.isLt
  refine ofWord _ _ rfl rfl (by simp only [pack]; omega) fun L w hL hf hw => ?_
  obtain ⟨e0, e1, e2, e3, e4, e5, e6, e7, e8⟩ := bits27 q.code pr.val a.val d.val 16 1 L w h0 h1 h2 h3 (by decide) (by decide) (by simp only [pack] at hw; omega)
  simp [decodeNat, decodeWith, isAClass, flag, decodeC, decodeC10, e0, e1, e2, e3, e4, e5, e6, e7, e8, reg, preg, Port.ofCode_code, whenLegal, hf]
theorem qpeek (d : Fin 32) (a : Fin 32) (pr : Fin 8) (q : Port) : Statement (.qpeek d a pr q) := by
  have h0 := (Port.code_lt q); have h1 := pr.isLt; have h2 := a.isLt; have h3 := d.isLt
  refine ofWord _ _ rfl rfl (by simp only [pack]; omega) fun L w hL hf hw => ?_
  obtain ⟨e0, e1, e2, e3, e4, e5, e6, e7, e8⟩ := bits27 q.code pr.val a.val d.val 16 2 L w h0 h1 h2 h3 (by decide) (by decide) (by simp only [pack] at hw; omega)
  simp [decodeNat, decodeWith, isAClass, flag, decodeC, decodeC10, e0, e1, e2, e3, e4, e5, e6, e7, e8, reg, preg, Port.ofCode_code, whenLegal, hf]
theorem qcnt (d : Fin 32) (a : Fin 32) (q : Port) : Statement (.qcnt d a q) := by
  have h0 := (Port.code_lt q); have h1 := a.isLt; have h2 := d.isLt
  refine ofWord _ _ rfl rfl (by simp only [pack]; omega) fun L w hL hf hw => ?_
  obtain ⟨e0, e1, e2, e3, e4, e5, e6, e7⟩ := bits26 q.code a.val d.val 16 3 L w h0 h1 h2 (by decide) (by decide) (by simp only [pack] at hw; omega)
  simp [decodeNat, decodeWith, isAClass, flag, decodeC, decodeC10, e0, e1, e2, e3, e4, e5, e6, e7, reg, Port.ofCode_code, whenLegal, hf]
theorem qwait (a : Fin 32) (q : Port) : Statement (.qwait a q) := by
  have h0 := (Port.code_lt q); have h1 := a.isLt
  refine ofWord _ _ rfl rfl (by simp only [pack]; omega) fun L w hL hf hw => ?_
  obtain ⟨e0, e1, e2, e3, e4, e5, e6, e7⟩ := bits28 q.code a.val 16 4 L w h0 h1 (by decide) (by decide) (by simp only [pack] at hw; omega)
  simp [decodeNat, decodeWith, isAClass, flag, decodeC, decodeC10, e0, e1, e2, e3, e4, e5, e6, e7, reg, Port.ofCode_code]
theorem qpush (a : Fin 32) : Statement (.qpush a) := by
  have h0 := a.isLt
  refine ofWord _ _ rfl rfl (by simp only [pack]; omega) fun L w hL hf hw => ?_
  obtain ⟨e0, e1, e2, e3, e4, e5, e6⟩ := bits08 a.val 16 5 L w h0 (by decide) (by decide) (by simp only [pack] at hw; omega)
  simp [decodeNat, decodeWith, isAClass, flag, decodeC, decodeC10, e0, e1, e2, e3, e4, e5, e6, reg]
theorem msend (a : Fin 32) (b : Fin 32) : Statement (.msend a b) := by
  have h0 := b.isLt; have h1 := a.isLt
  refine ofWord _ _ rfl rfl (by simp only [pack]; omega) fun L w hL hf hw => ?_
  obtain ⟨e0, e1, e2, e3, e4, e5, e6⟩ := bits14 b.val a.val 16 6 L w h0 h1 (by decide) (by decide) (by simp only [pack] at hw; omega)
  simp [decodeNat, decodeWith, isAClass, flag, decodeC, decodeC10, e0, e1, e2, e3, e4, e5, e6, reg, whenLegal, hf]
theorem hsend (a : Fin 32) (b : Fin 32) : Statement (.hsend a b) := by
  have h0 := b.isLt; have h1 := a.isLt
  refine ofWord _ _ rfl rfl (by simp only [pack]; omega) fun L w hL hf hw => ?_
  obtain ⟨e0, e1, e2, e3, e4, e5, e6⟩ := bits14 b.val a.val 16 7 L w h0 h1 (by decide) (by decide) (by simp only [pack] at hw; omega)
  simp [decodeNat, decodeWith, isAClass, flag, decodeC, decodeC10, e0, e1, e2, e3, e4, e5, e6, reg]
theorem rsend (b : Fin 32) : Statement (.rsend b) := by
  have h0 := b.isLt
  refine ofWord _ _ rfl rfl (by simp only [pack]; omega) fun L w hL hf hw => ?_
  obtain ⟨e0, e1, e2, e3, e4, e5⟩ := bits29 b.val 16 8 L w h0 (by decide) (by decide) (by simp only [pack] at hw; omega)
  simp [decodeNat, decodeWith, isAClass, flag, decodeC, decodeC10, e0, e1, e2, e3, e4, e5, reg, whenLegal, hf]
theorem bsend (b : Fin 32) : Statement (.bsend b) := by
  have h0 := b.isLt
  refine ofWord _ _ rfl rfl (by simp only [pack]; omega) fun L w hL hf hw => ?_
  obtain ⟨e0, e1, e2, e3, e4, e5⟩ := bits29 b.val 16 9 L w h0 (by decide) (by decide) (by simp only [pack] at hw; omega)
  simp [decodeNat, decodeWith, isAClass, flag, decodeC, decodeC10, e0, e1, e2, e3, e4, e5, reg, whenLegal, hf]
theorem xsend (a : Fin 32) (b : Fin 32) (xm : XMode) : Statement (.xsend a b xm) := by
  have h0 := (XMode.code_lt xm); have h1 := b.isLt; have h2 := a.isLt
  refine ofWord _ _ rfl rfl (by simp only [pack]; omega) fun L w hL hf hw => ?_
  obtain ⟨e0, e1, e2, e3, e4, e5, e6⟩ := bits30 xm.code b.val a.val 17 0 L w h0 h1 h2 (by decide) (by decide) (by simp only [pack] at hw; omega)
  simp [decodeNat, decodeWith, isAClass, flag, decodeC, decodeC11, e0, e1, e2, e3, e4, e5, e6, reg, XMode.ofCode_code]
theorem xred (a : Fin 32) (b : Fin 32) (xm : Bool) : Statement (.xred a b xm) := by
  have h0 := (bitNat_lt xm); have h1 := b.isLt; have h2 := a.isLt
  refine ofWord _ _ rfl rfl (by simp only [pack]; omega) fun L w hL hf hw => ?_
  obtain ⟨e0, e1, e2, e3, e4, e5, e6, e7⟩ := bits31 (bitNat xm) b.val a.val 17 1 L w h0 h1 h2 (by decide) (by decide) (by simp only [pack] at hw; omega)
  simp [decodeNat, decodeWith, isAClass, flag, decodeC, decodeC11, e0, e1, e2, e3, e4, e5, e6, e7, reg, bitNat_eq_one]
theorem gvote (d : Fin 32) (a : Fin 32) : Statement (.gvote d a) := by
  have h0 := a.isLt; have h1 := d.isLt
  refine ofWord _ _ rfl rfl (by simp only [pack]; omega) fun L w hL hf hw => ?_
  obtain ⟨e0, e1, e2, e3, e4, e5, e6⟩ := bits13 a.val d.val 17 4 L w h0 h1 (by decide) (by decide) (by simp only [pack] at hw; omega)
  simp [decodeNat, decodeWith, isAClass, flag, decodeC, decodeC11, e0, e1, e2, e3, e4, e5, e6, reg]
theorem launch (a : Fin 32) : Statement (.launch a) := by
  have h0 := a.isLt
  refine ofWord _ _ rfl rfl (by simp only [pack]; omega) fun L w hL hf hw => ?_
  obtain ⟨e0, e1, e2, e3, e4, e5, e6, e7, e8, e9, e10⟩ := bits32 a.val 18 0 L w h0 (by decide) (by decide) (by simp only [pack] at hw; omega)
  simp [decodeNat, decodeWith, isAClass, flag, decodeC, decodeC12, e0, e1, e2, e3, e4, e5, e6, e7, e8, e9, e10, reg, preg]
theorem launchNb (d : Fin 8) (a : Fin 32) : Statement (.launchNb d a) := by
  have h0 := a.isLt; have h1 := d.isLt
  refine ofWord _ _ rfl rfl (by simp only [pack]; omega) fun L w hL hf hw => ?_
  obtain ⟨e0, e1, e2, e3, e4, e5, e6, e7, e8, e9⟩ := bits33 a.val d.val 18 0 1 L w h0 h1 (by decide) (by decide) (by decide) (by simp only [pack] at hw; omega)
  simp [decodeNat, decodeWith, isAClass, flag, decodeC, decodeC12, e0, e1, e2, e3, e4, e5, e6, e7, e8, e9, reg, preg]
theorem ekickGecko (a : Fin 32) : Statement (.ekickGecko a) := by
  have h0 := a.isLt
  refine ofWord _ _ rfl rfl (by simp only [pack]; omega) fun L w hL hf hw => ?_
  obtain ⟨e0, e1, e2, e3, e4, e5, e6⟩ := bits34 a.val 18 1 L w h0 (by decide) (by decide) (by simp only [pack] at hw; omega)
  simp [decodeNat, decodeWith, isAClass, flag, decodeC, decodeC12, e0, e1, e2, e3, e4, e5, e6, reg]
theorem ekickRake (a : Fin 32) : Statement (.ekickRake a) := by
  have h0 := a.isLt
  refine ofWord _ _ rfl rfl (by simp only [pack]; omega) fun L w hL hf hw => ?_
  obtain ⟨e0, e1, e2, e3, e4, e5, e6⟩ := bits35 a.val 18 1 1 L w h0 (by decide) (by decide) (by decide) (by simp only [pack] at hw; omega)
  simp [decodeNat, decodeWith, isAClass, flag, decodeC, decodeC12, e0, e1, e2, e3, e4, e5, e6, reg]
theorem ekickCham (a : Fin 32) : Statement (.ekickCham a) := by
  have h0 := a.isLt
  refine ofWord _ _ rfl rfl (by simp only [pack]; omega) fun L w hL hf hw => ?_
  obtain ⟨e0, e1, e2, e3, e4, e5, e6⟩ := bits35 a.val 18 1 2 L w h0 (by decide) (by decide) (by decide) (by simp only [pack] at hw; omega)
  simp [decodeNat, decodeWith, isAClass, flag, decodeC, decodeC12, e0, e1, e2, e3, e4, e5, e6, reg]
theorem ztst (s : Fin 32) (a : Fin 32) (o : BitVec 11) : Statement (.ztst s a o) := by
  have h0 := o.isLt; have h1 := a.isLt; have h2 := s.isLt
  refine ofWord _ _ rfl rfl (by simp only [pack]; omega) fun L w hL hf hw => ?_
  obtain ⟨e0, e1, e2, e3, e4, e5⟩ := bits15 o.toNat a.val s.val 19 0 L w h0 h1 h2 (by decide) (by decide) (by simp only [pack] at hw; omega)
  simp [decodeNat, decodeWith, isAClass, flag, decodeC, decodeC13, e0, e1, e2, e3, e4, e5, reg, imf]
theorem add (d : Fin 32) (a : Fin 32) (b : Fin 32) : Statement (.add d a b) := by
  have h0 := b.isLt; have h1 := a.isLt; have h2 := d.isLt
  refine ofWord _ _ rfl rfl (by simp only [pack]; omega) fun L w hL hf hw => ?_
  obtain ⟨e0, e1, e2, e3, e4, e5, e6⟩ := bits36 b.val a.val d.val 1 0 L w h0 h1 h2 (by decide) (by decide) (by simp only [pack] at hw; omega)
  simp [decodeNat, decodeWith, isAClass, flag, decodeA, decodeA01, e0, e1, e2, e3, e4, e5, e6, reg]
theorem sub (d : Fin 32) (a : Fin 32) (b : Fin 32) : Statement (.sub d a b) := by
  have h0 := b.isLt; have h1 := a.isLt; have h2 := d.isLt
  refine ofWord _ _ rfl rfl (by simp only [pack]; omega) fun L w hL hf hw => ?_
  obtain ⟨e0, e1, e2, e3, e4, e5, e6⟩ := bits36 b.val a.val d.val 1 1 L w h0 h1 h2 (by decide) (by decide) (by simp only [pack] at hw; omega)
  simp [decodeNat, decodeWith, isAClass, flag, decodeA, decodeA01, e0, e1, e2, e3, e4, e5, e6, reg]
theorem and (d : Fin 32) (a : Fin 32) (b : Fin 32) : Statement (.and d a b) := by
  have h0 := b.isLt; have h1 := a.isLt; have h2 := d.isLt
  refine ofWord _ _ rfl rfl (by simp only [pack]; omega) fun L w hL hf hw => ?_
  obtain ⟨e0, e1, e2, e3, e4, e5, e6⟩ := bits36 b.val a.val d.val 1 2 L w h0 h1 h2 (by decide) (by decide) (by simp only [pack] at hw; omega)
  simp [decodeNat, decodeWith, isAClass, flag, decodeA, decodeA01, e0, e1, e2, e3, e4, e5, e6, reg]
theorem or (d : Fin 32) (a : Fin 32) (b : Fin 32) : Statement (.or d a b) := by
  have h0 := b.isLt; have h1 := a.isLt; have h2 := d.isLt
  refine ofWord _ _ rfl rfl (by simp only [pack]; omega) fun L w hL hf hw => ?_
  obtain ⟨e0, e1, e2, e3, e4, e5, e6⟩ := bits36 b.val a.val d.val 1 3 L w h0 h1 h2 (by decide) (by decide) (by simp only [pack] at hw; omega)
  simp [decodeNat, decodeWith, isAClass, flag, decodeA, decodeA01, e0, e1, e2, e3, e4, e5, e6, reg]
theorem xor (d : Fin 32) (a : Fin 32) (b : Fin 32) : Statement (.xor d a b) := by
  have h0 := b.isLt; have h1 := a.isLt; have h2 := d.isLt
  refine ofWord _ _ rfl rfl (by simp only [pack]; omega) fun L w hL hf hw => ?_
  obtain ⟨e0, e1, e2, e3, e4, e5, e6⟩ := bits36 b.val a.val d.val 1 4 L w h0 h1 h2 (by decide) (by decide) (by simp only [pack] at hw; omega)
  simp [decodeNat, decodeWith, isAClass, flag, decodeA, decodeA01, e0, e1, e2, e3, e4, e5, e6, reg]
theorem andn (d : Fin 32) (a : Fin 32) (b : Fin 32) : Statement (.andn d a b) := by
  have h0 := b.isLt; have h1 := a.isLt; have h2 := d.isLt
  refine ofWord _ _ rfl rfl (by simp only [pack]; omega) fun L w hL hf hw => ?_
  obtain ⟨e0, e1, e2, e3, e4, e5, e6⟩ := bits36 b.val a.val d.val 1 5 L w h0 h1 h2 (by decide) (by decide) (by simp only [pack] at hw; omega)
  simp [decodeNat, decodeWith, isAClass, flag, decodeA, decodeA01, e0, e1, e2, e3, e4, e5, e6, reg]
theorem shl (d : Fin 32) (a : Fin 32) (b : Fin 32) : Statement (.shl d a b) := by
  have h0 := b.isLt; have h1 := a.isLt; have h2 := d.isLt
  refine ofWord _ _ rfl rfl (by simp only [pack]; omega) fun L w hL hf hw => ?_
  obtain ⟨e0, e1, e2, e3, e4, e5, e6⟩ := bits36 b.val a.val d.val 1 6 L w h0 h1 h2 (by decide) (by decide) (by simp only [pack] at hw; omega)
  simp [decodeNat, decodeWith, isAClass, flag, decodeA, decodeA01, e0, e1, e2, e3, e4, e5, e6, reg]
theorem shr (d : Fin 32) (a : Fin 32) (b : Fin 32) : Statement (.shr d a b) := by
  have h0 := b.isLt; have h1 := a.isLt; have h2 := d.isLt
  refine ofWord _ _ rfl rfl (by simp only [pack]; omega) fun L w hL hf hw => ?_
  obtain ⟨e0, e1, e2, e3, e4, e5, e6⟩ := bits36 b.val a.val d.val 1 7 L w h0 h1 h2 (by decide) (by decide) (by simp only [pack] at hw; omega)
  simp [decodeNat, decodeWith, isAClass, flag, decodeA, decodeA01, e0, e1, e2, e3, e4, e5, e6, reg]
theorem sar (d : Fin 32) (a : Fin 32) (b : Fin 32) : Statement (.sar d a b) := by
  have h0 := b.isLt; have h1 := a.isLt; have h2 := d.isLt
  refine ofWord _ _ rfl rfl (by simp only [pack]; omega) fun L w hL hf hw => ?_
  obtain ⟨e0, e1, e2, e3, e4, e5, e6⟩ := bits36 b.val a.val d.val 1 8 L w h0 h1 h2 (by decide) (by decide) (by simp only [pack] at hw; omega)
  simp [decodeNat, decodeWith, isAClass, flag, decodeA, decodeA01, e0, e1, e2, e3, e4, e5, e6, reg]
theorem rol (d : Fin 32) (a : Fin 32) (b : Fin 32) : Statement (.rol d a b) := by
  have h0 := b.isLt; have h1 := a.isLt; have h2 := d.isLt
  refine ofWord _ _ rfl rfl (by simp only [pack]; omega) fun L w hL hf hw => ?_
  obtain ⟨e0, e1, e2, e3, e4, e5, e6⟩ := bits36 b.val a.val d.val 1 9 L w h0 h1 h2 (by decide) (by decide) (by simp only [pack] at hw; omega)
  simp [decodeNat, decodeWith, isAClass, flag, decodeA, decodeA01, e0, e1, e2, e3, e4, e5, e6, reg]
theorem min (d : Fin 32) (a : Fin 32) (b : Fin 32) : Statement (.min d a b) := by
  have h0 := b.isLt; have h1 := a.isLt; have h2 := d.isLt
  refine ofWord _ _ rfl rfl (by simp only [pack]; omega) fun L w hL hf hw => ?_
  obtain ⟨e0, e1, e2, e3, e4, e5, e6⟩ := bits36 b.val a.val d.val 1 10 L w h0 h1 h2 (by decide) (by decide) (by simp only [pack] at hw; omega)
  simp [decodeNat, decodeWith, isAClass, flag, decodeA, decodeA01, e0, e1, e2, e3, e4, e5, e6, reg]
theorem max (d : Fin 32) (a : Fin 32) (b : Fin 32) : Statement (.max d a b) := by
  have h0 := b.isLt; have h1 := a.isLt; have h2 := d.isLt
  refine ofWord _ _ rfl rfl (by simp only [pack]; omega) fun L w hL hf hw => ?_
  obtain ⟨e0, e1, e2, e3, e4, e5, e6⟩ := bits36 b.val a.val d.val 1 11 L w h0 h1 h2 (by decide) (by decide) (by simp only [pack] at hw; omega)
  simp [decodeNat, decodeWith, isAClass, flag, decodeA, decodeA01, e0, e1, e2, e3, e4, e5, e6, reg]
theorem minu (d : Fin 32) (a : Fin 32) (b : Fin 32) : Statement (.minu d a b) := by
  have h0 := b.isLt; have h1 := a.isLt; have h2 := d.isLt
  refine ofWord _ _ rfl rfl (by simp only [pack]; omega) fun L w hL hf hw => ?_
  obtain ⟨e0, e1, e2, e3, e4, e5, e6⟩ := bits36 b.val a.val d.val 1 12 L w h0 h1 h2 (by decide) (by decide) (by simp only [pack] at hw; omega)
  simp [decodeNat, decodeWith, isAClass, flag, decodeA, decodeA01, e0, e1, e2, e3, e4, e5, e6, reg]
theorem maxu (d : Fin 32) (a : Fin 32) (b : Fin 32) : Statement (.maxu d a b) := by
  have h0 := b.isLt; have h1 := a.isLt; have h2 := d.isLt
  refine ofWord _ _ rfl rfl (by simp only [pack]; omega) fun L w hL hf hw => ?_
  obtain ⟨e0, e1, e2, e3, e4, e5, e6⟩ := bits36 b.val a.val d.val 1 13 L w h0 h1 h2 (by decide) (by decide) (by simp only [pack] at hw; omega)
  simp [decodeNat, decodeWith, isAClass, flag, decodeA, decodeA01, e0, e1, e2, e3, e4, e5, e6, reg]
theorem slt (d : Fin 32) (a : Fin 32) (b : Fin 32) : Statement (.slt d a b) := by
  have h0 := b.isLt; have h1 := a.isLt; have h2 := d.isLt
  refine ofWord _ _ rfl rfl (by simp only [pack]; omega) fun L w hL hf hw => ?_
  obtain ⟨e0, e1, e2, e3, e4, e5, e6⟩ := bits36 b.val a.val d.val 1 14 L w h0 h1 h2 (by decide) (by decide) (by simp only [pack] at hw; omega)
  simp [decodeNat, decodeWith, isAClass, flag, decodeA, decodeA01, e0, e1, e2, e3, e4, e5, e6, reg]
theorem sltu (d : Fin 32) (a : Fin 32) (b : Fin 32) : Statement (.sltu d a b) := by
  have h0 := b.isLt; have h1 := a.isLt; have h2 := d.isLt
  refine ofWord _ _ rfl rfl (by simp only [pack]; omega) fun L w hL hf hw => ?_
  obtain ⟨e0, e1, e2, e3, e4, e5, e6⟩ := bits36 b.val a.val d.val 1 15 L w h0 h1 h2 (by decide) (by decide) (by simp only [pack] at hw; omega)
  simp [decodeNat, decodeWith, isAClass, flag, decodeA, decodeA01, e0, e1, e2, e3, e4, e5, e6, reg]
theorem mul (d : Fin 32) (a : Fin 32) (b : Fin 32) : Statement (.mul d a b) := by
  have h0 := b.isLt; have h1 := a.isLt; have h2 := d.isLt
  refine ofWord _ _ rfl rfl (by simp only [pack]; omega) fun L w hL hf hw => ?_
  obtain ⟨e0, e1, e2, e3, e4, e5, e6⟩ := bits36 b.val a.val d.val 2 0 L w h0 h1 h2 (by decide) (by decide) (by simp only [pack] at hw; omega)
  simp [decodeNat, decodeWith, isAClass, flag, decodeA, decodeA02, e0, e1, e2, e3, e4, e5, e6, reg]
theorem mulh (d : Fin 32) (a : Fin 32) (b : Fin 32) : Statement (.mulh d a b) := by
  have h0 := b.isLt; have h1 := a.isLt; have h2 := d.isLt
  refine ofWord _ _ rfl rfl (by simp only [pack]; omega) fun L w hL hf hw => ?_
  obtain ⟨e0, e1, e2, e3, e4, e5, e6⟩ := bits36 b.val a.val d.val 2 1 L w h0 h1 h2 (by decide) (by decide) (by simp only [pack] at hw; omega)
  simp [decodeNat, decodeWith, isAClass, flag, decodeA, decodeA02, e0, e1, e2, e3, e4, e5, e6, reg]
theorem mulhu (d : Fin 32) (a : Fin 32) (b : Fin 32) : Statement (.mulhu d a b) := by
  have h0 := b.isLt; have h1 := a.isLt; have h2 := d.isLt
  refine ofWord _ _ rfl rfl (by simp only [pack]; omega) fun L w hL hf hw => ?_
  obtain ⟨e0, e1, e2, e3, e4, e5, e6⟩ := bits36 b.val a.val d.val 2 2 L w h0 h1 h2 (by decide) (by decide) (by simp only [pack] at hw; omega)
  simp [decodeNat, decodeWith, isAClass, flag, decodeA, decodeA02, e0, e1, e2, e3, e4, e5, e6, reg]
theorem div (d : Fin 32) (a : Fin 32) (b : Fin 32) : Statement (.div d a b) := by
  have h0 := b.isLt; have h1 := a.isLt; have h2 := d.isLt
  refine ofWord _ _ rfl rfl (by simp only [pack]; omega) fun L w hL hf hw => ?_
  obtain ⟨e0, e1, e2, e3, e4, e5, e6⟩ := bits36 b.val a.val d.val 2 3 L w h0 h1 h2 (by decide) (by decide) (by simp only [pack] at hw; omega)
  simp [decodeNat, decodeWith, isAClass, flag, decodeA, decodeA02, e0, e1, e2, e3, e4, e5, e6, reg]
theorem divu (d : Fin 32) (a : Fin 32) (b : Fin 32) : Statement (.divu d a b) := by
  have h0 := b.isLt; have h1 := a.isLt; have h2 := d.isLt
  refine ofWord _ _ rfl rfl (by simp only [pack]; omega) fun L w hL hf hw => ?_
  obtain ⟨e0, e1, e2, e3, e4, e5, e6⟩ := bits36 b.val a.val d.val 2 4 L w h0 h1 h2 (by decide) (by decide) (by simp only [pack] at hw; omega)
  simp [decodeNat, decodeWith, isAClass, flag, decodeA, decodeA02, e0, e1, e2, e3, e4, e5, e6, reg]
theorem rem (d : Fin 32) (a : Fin 32) (b : Fin 32) : Statement (.rem d a b) := by
  have h0 := b.isLt; have h1 := a.isLt; have h2 := d.isLt
  refine ofWord _ _ rfl rfl (by simp only [pack]; omega) fun L w hL hf hw => ?_
  obtain ⟨e0, e1, e2, e3, e4, e5, e6⟩ := bits36 b.val a.val d.val 2 5 L w h0 h1 h2 (by decide) (by decide) (by simp only [pack] at hw; omega)
  simp [decodeNat, decodeWith, isAClass, flag, decodeA, decodeA02, e0, e1, e2, e3, e4, e5, e6, reg]
theorem remu (d : Fin 32) (a : Fin 32) (b : Fin 32) : Statement (.remu d a b) := by
  have h0 := b.isLt; have h1 := a.isLt; have h2 := d.isLt
  refine ofWord _ _ rfl rfl (by simp only [pack]; omega) fun L w hL hf hw => ?_
  obtain ⟨e0, e1, e2, e3, e4, e5, e6⟩ := bits36 b.val a.val d.val 2 6 L w h0 h1 h2 (by decide) (by decide) (by simp only [pack] at hw; omega)
  simp [decodeNat, decodeWith, isAClass, flag, decodeA, decodeA02, e0, e1, e2, e3, e4, e5, e6, reg]
theorem sel (d : Fin 32) (a : Fin 32) (b : Fin 32) : Statement (.sel d a b) := by
  have h0 := b.isLt; have h1 := a.isLt; have h2 := d.isLt
  refine ofWord _ _ rfl rfl (by simp only [pack]; omega) fun L w hL hf hw => ?_
  obtain ⟨e0, e1, e2, e3, e4, e5, e6⟩ := bits36 b.val a.val d.val 2 7 L w h0 h1 h2 (by decide) (by decide) (by simp only [pack] at hw; omega)
  simp [decodeNat, decodeWith, isAClass, flag, decodeA, decodeA02, e0, e1, e2, e3, e4, e5, e6, reg]
theorem clz (d : Fin 32) (a : Fin 32) : Statement (.clz d a) := by
  have h0 := a.isLt; have h1 := d.isLt
  refine ofWord _ _ rfl rfl (by simp only [pack]; omega) fun L w hL hf hw => ?_
  obtain ⟨e0, e1, e2, e3, e4, e5, e6⟩ := bits37 a.val d.val 2 8 L w h0 h1 (by decide) (by decide) (by simp only [pack] at hw; omega)
  simp [decodeNat, decodeWith, isAClass, flag, decodeA, decodeA02, e0, e1, e2, e3, e4, e5, e6, reg]
theorem ctz (d : Fin 32) (a : Fin 32) : Statement (.ctz d a) := by
  have h0 := a.isLt; have h1 := d.isLt
  refine ofWord _ _ rfl rfl (by simp only [pack]; omega) fun L w hL hf hw => ?_
  obtain ⟨e0, e1, e2, e3, e4, e5, e6⟩ := bits37 a.val d.val 2 9 L w h0 h1 (by decide) (by decide) (by simp only [pack] at hw; omega)
  simp [decodeNat, decodeWith, isAClass, flag, decodeA, decodeA02, e0, e1, e2, e3, e4, e5, e6, reg]
theorem popc (d : Fin 32) (a : Fin 32) : Statement (.popc d a) := by
  have h0 := a.isLt; have h1 := d.isLt
  refine ofWord _ _ rfl rfl (by simp only [pack]; omega) fun L w hL hf hw => ?_
  obtain ⟨e0, e1, e2, e3, e4, e5, e6⟩ := bits37 a.val d.val 2 10 L w h0 h1 (by decide) (by decide) (by simp only [pack] at hw; omega)
  simp [decodeNat, decodeWith, isAClass, flag, decodeA, decodeA02, e0, e1, e2, e3, e4, e5, e6, reg]
theorem bfx (d : Fin 32) (a : Fin 32) (b : Fin 32) : Statement (.bfx d a b) := by
  have h0 := b.isLt; have h1 := a.isLt; have h2 := d.isLt
  refine ofWord _ _ rfl rfl (by simp only [pack]; omega) fun L w hL hf hw => ?_
  obtain ⟨e0, e1, e2, e3, e4, e5, e6⟩ := bits36 b.val a.val d.val 2 11 L w h0 h1 h2 (by decide) (by decide) (by simp only [pack] at hw; omega)
  simp [decodeNat, decodeWith, isAClass, flag, decodeA, decodeA02, e0, e1, e2, e3, e4, e5, e6, reg]
theorem bfi (d : Fin 32) (a : Fin 32) (b : Fin 32) : Statement (.bfi d a b) := by
  have h0 := b.isLt; have h1 := a.isLt; have h2 := d.isLt
  refine ofWord _ _ rfl rfl (by simp only [pack]; omega) fun L w hL hf hw => ?_
  obtain ⟨e0, e1, e2, e3, e4, e5, e6⟩ := bits36 b.val a.val d.val 2 12 L w h0 h1 h2 (by decide) (by decide) (by simp only [pack] at hw; omega)
  simp [decodeNat, decodeWith, isAClass, flag, decodeA, decodeA02, e0, e1, e2, e3, e4, e5, e6, reg]
theorem mov (d : Fin 32) (a : Fin 32) : Statement (.mov d a) := by
  have h0 := a.isLt; have h1 := d.isLt
  refine ofWord _ _ rfl rfl (by simp only [pack]; omega) fun L w hL hf hw => ?_
  obtain ⟨e0, e1, e2, e3, e4, e5, e6⟩ := bits37 a.val d.val 2 13 L w h0 h1 (by decide) (by decide) (by simp only [pack] at hw; omega)
  simp [decodeNat, decodeWith, isAClass, flag, decodeA, decodeA02, e0, e1, e2, e3, e4, e5, e6, reg]
theorem lea (d : Fin 32) (a : Fin 32) (b : Fin 32) : Statement (.lea d a b) := by
  have h0 := b.isLt; have h1 := a.isLt; have h2 := d.isLt
  refine ofWord _ _ rfl rfl (by simp only [pack]; omega) fun L w hL hf hw => ?_
  obtain ⟨e0, e1, e2, e3, e4, e5, e6⟩ := bits36 b.val a.val d.val 2 14 L w h0 h1 h2 (by decide) (by decide) (by simp only [pack] at hw; omega)
  simp [decodeNat, decodeWith, isAClass, flag, decodeA, decodeA02, e0, e1, e2, e3, e4, e5, e6, reg]
theorem wadr (d : Fin 32) (a : Fin 32) (b : Fin 32) : Statement (.wadr d a b) := by
  have h0 := b.isLt; have h1 := a.isLt; have h2 := d.isLt
  refine ofWord _ _ rfl rfl (by simp only [pack]; omega) fun L w hL hf hw => ?_
  obtain ⟨e0, e1, e2, e3, e4, e5, e6⟩ := bits36 b.val a.val d.val 2 15 L w h0 h1 h2 (by decide) (by decide) (by simp only [pack] at hw; omega)
  simp [decodeNat, decodeWith, isAClass, flag, decodeA, decodeA02, e0, e1, e2, e3, e4, e5, e6, reg]
theorem addi (d : Fin 32) (a : Fin 32) (i : BitVec 11) : Statement (.addi d a i) := by
  have h0 := i.isLt; have h1 := a.isLt; have h2 := d.isLt
  refine ofWord _ _ rfl rfl (by simp only [pack]; omega) fun L w hL hf hw => ?_
  obtain ⟨e0, e1, e2, e3, e4, e5⟩ := bits38 i.toNat a.val d.val 3 0 L w h0 h1 h2 (by decide) (by decide) (by simp only [pack] at hw; omega)
  simp [decodeNat, decodeWith, isAClass, flag, decodeA, decodeA03, e0, e1, e2, e3, e4, e5, reg, imf]
theorem andi (d : Fin 32) (a : Fin 32) (i : BitVec 11) : Statement (.andi d a i) := by
  have h0 := i.isLt; have h1 := a.isLt; have h2 := d.isLt
  refine ofWord _ _ rfl rfl (by simp only [pack]; omega) fun L w hL hf hw => ?_
  obtain ⟨e0, e1, e2, e3, e4, e5⟩ := bits38 i.toNat a.val d.val 3 1 L w h0 h1 h2 (by decide) (by decide) (by simp only [pack] at hw; omega)
  simp [decodeNat, decodeWith, isAClass, flag, decodeA, decodeA03, e0, e1, e2, e3, e4, e5, reg, imf]
theorem ori (d : Fin 32) (a : Fin 32) (i : BitVec 11) : Statement (.ori d a i) := by
  have h0 := i.isLt; have h1 := a.isLt; have h2 := d.isLt
  refine ofWord _ _ rfl rfl (by simp only [pack]; omega) fun L w hL hf hw => ?_
  obtain ⟨e0, e1, e2, e3, e4, e5⟩ := bits38 i.toNat a.val d.val 3 2 L w h0 h1 h2 (by decide) (by decide) (by simp only [pack] at hw; omega)
  simp [decodeNat, decodeWith, isAClass, flag, decodeA, decodeA03, e0, e1, e2, e3, e4, e5, reg, imf]
theorem xori (d : Fin 32) (a : Fin 32) (i : BitVec 11) : Statement (.xori d a i) := by
  have h0 := i.isLt; have h1 := a.isLt; have h2 := d.isLt
  refine ofWord _ _ rfl rfl (by simp only [pack]; omega) fun L w hL hf hw => ?_
  obtain ⟨e0, e1, e2, e3, e4, e5⟩ := bits38 i.toNat a.val d.val 3 3 L w h0 h1 h2 (by decide) (by decide) (by simp only [pack] at hw; omega)
  simp [decodeNat, decodeWith, isAClass, flag, decodeA, decodeA03, e0, e1, e2, e3, e4, e5, reg, imf]
theorem shli (d : Fin 32) (a : Fin 32) (s : BitVec 6) : Statement (.shli d a s) := by
  have h0 := s.isLt; have h1 := a.isLt; have h2 := d.isLt
  refine ofWord _ _ rfl rfl (by simp only [pack]; omega) fun L w hL hf hw => ?_
  obtain ⟨e0, e1, e2, e3, e4, e5, e6⟩ := bits39 s.toNat a.val d.val 3 4 L w h0 h1 h2 (by decide) (by decide) (by simp only [pack] at hw; omega)
  simp [decodeNat, decodeWith, isAClass, flag, decodeA, decodeA03, e0, e1, e2, e3, e4, e5, e6, reg, imf]
theorem shri (d : Fin 32) (a : Fin 32) (s : BitVec 6) : Statement (.shri d a s) := by
  have h0 := s.isLt; have h1 := a.isLt; have h2 := d.isLt
  refine ofWord _ _ rfl rfl (by simp only [pack]; omega) fun L w hL hf hw => ?_
  obtain ⟨e0, e1, e2, e3, e4, e5, e6⟩ := bits39 s.toNat a.val d.val 3 5 L w h0 h1 h2 (by decide) (by decide) (by simp only [pack] at hw; omega)
  simp [decodeNat, decodeWith, isAClass, flag, decodeA, decodeA03, e0, e1, e2, e3, e4, e5, e6, reg, imf]
theorem sari (d : Fin 32) (a : Fin 32) (s : BitVec 6) : Statement (.sari d a s) := by
  have h0 := s.isLt; have h1 := a.isLt; have h2 := d.isLt
  refine ofWord _ _ rfl rfl (by simp only [pack]; omega) fun L w hL hf hw => ?_
  obtain ⟨e0, e1, e2, e3, e4, e5, e6⟩ := bits39 s.toNat a.val d.val 3 6 L w h0 h1 h2 (by decide) (by decide) (by simp only [pack] at hw; omega)
  simp [decodeNat, decodeWith, isAClass, flag, decodeA, decodeA03, e0, e1, e2, e3, e4, e5, e6, reg, imf]
theorem li (d : Fin 32) (i : BitVec 11) : Statement (.li d i) := by
  have h0 := i.isLt; have h1 := d.isLt
  refine ofWord _ _ rfl rfl (by simp only [pack]; omega) fun L w hL hf hw => ?_
  obtain ⟨e0, e1, e2, e3, e4, e5⟩ := bits40 i.toNat d.val 3 7 L w h0 h1 (by decide) (by decide) (by simp only [pack] at hw; omega)
  simp [decodeNat, decodeWith, isAClass, flag, decodeA, decodeA03, e0, e1, e2, e3, e4, e5, reg, imf]
theorem lui (d : Fin 32) (i : BitVec 19) : Statement (.lui d i) := by
  have h0 := i.isLt; have h1 := d.isLt
  refine ofWord _ _ rfl rfl (by simp only [pack]; omega) fun L w hL hf hw => ?_
  obtain ⟨e0, e1, e2, e3⟩ := bits41 i.toNat d.val 4 L w h0 h1 (by decide) (by simp only [pack] at hw; omega)
  simp [decodeNat, decodeWith, isAClass, flag, decodeA, decodeA04, e0, e1, e2, e3, reg, imf]
theorem lhi (d : Fin 32) (i : BitVec 19) : Statement (.lhi d i) := by
  have h0 := i.isLt; have h1 := d.isLt
  refine ofWord _ _ rfl rfl (by simp only [pack]; omega) fun L w hL hf hw => ?_
  obtain ⟨e0, e1, e2, e3⟩ := bits41 i.toNat d.val 5 L w h0 h1 (by decide) (by simp only [pack] at hw; omega)
  simp [decodeNat, decodeWith, isAClass, flag, decodeA, decodeA05, e0, e1, e2, e3, reg, imf]
theorem vadd (d : Fin 32) (a : Fin 32) (b : Fin 32) (t : View) (pr : Fin 8) : Statement (.vadd d a b t pr) := by
  have h0 := pr.isLt; have h1 := (View.code_lt t); have h2 := b.isLt; have h3 := a.isLt; have h4 := d.isLt
  refine ofWord _ _ rfl rfl (by simp only [pack]; omega) fun L w hL hf hw => ?_
  obtain ⟨e0, e1, e2, e3, e4, e5, e6, e7⟩ := bits42 pr.val t.code b.val a.val d.val 8 0 L w h0 h1 h2 h3 h4 (by decide) (by decide) (by simp only [pack] at hw; omega)
  simp [decodeNat, decodeWith, isAClass, flag, decodeA, decodeA08, e0, e1, e2, e3, e4, e5, e6, e7, reg, preg, View.ofCode_code]
theorem vsub (d : Fin 32) (a : Fin 32) (b : Fin 32) (t : View) (pr : Fin 8) : Statement (.vsub d a b t pr) := by
  have h0 := pr.isLt; have h1 := (View.code_lt t); have h2 := b.isLt; have h3 := a.isLt; have h4 := d.isLt
  refine ofWord _ _ rfl rfl (by simp only [pack]; omega) fun L w hL hf hw => ?_
  obtain ⟨e0, e1, e2, e3, e4, e5, e6, e7⟩ := bits42 pr.val t.code b.val a.val d.val 8 1 L w h0 h1 h2 h3 h4 (by decide) (by decide) (by simp only [pack] at hw; omega)
  simp [decodeNat, decodeWith, isAClass, flag, decodeA, decodeA08, e0, e1, e2, e3, e4, e5, e6, e7, reg, preg, View.ofCode_code]
theorem vmul (d : Fin 32) (a : Fin 32) (b : Fin 32) (t : View) (pr : Fin 8) : Statement (.vmul d a b t pr) := by
  have h0 := pr.isLt; have h1 := (View.code_lt t); have h2 := b.isLt; have h3 := a.isLt; have h4 := d.isLt
  refine ofWord _ _ rfl rfl (by simp only [pack]; omega) fun L w hL hf hw => ?_
  obtain ⟨e0, e1, e2, e3, e4, e5, e6, e7⟩ := bits42 pr.val t.code b.val a.val d.val 8 2 L w h0 h1 h2 h3 h4 (by decide) (by decide) (by simp only [pack] at hw; omega)
  simp [decodeNat, decodeWith, isAClass, flag, decodeA, decodeA08, e0, e1, e2, e3, e4, e5, e6, e7, reg, preg, View.ofCode_code]
theorem vmulh (d : Fin 32) (a : Fin 32) (b : Fin 32) (t : View) (pr : Fin 8) : Statement (.vmulh d a b t pr) := by
  have h0 := pr.isLt; have h1 := (View.code_lt t); have h2 := b.isLt; have h3 := a.isLt; have h4 := d.isLt
  refine ofWord _ _ rfl rfl (by simp only [pack]; omega) fun L w hL hf hw => ?_
  obtain ⟨e0, e1, e2, e3, e4, e5, e6, e7⟩ := bits42 pr.val t.code b.val a.val d.val 8 3 L w h0 h1 h2 h3 h4 (by decide) (by decide) (by simp only [pack] at hw; omega)
  simp [decodeNat, decodeWith, isAClass, flag, decodeA, decodeA08, e0, e1, e2, e3, e4, e5, e6, e7, reg, preg, View.ofCode_code]
theorem vmin (d : Fin 32) (a : Fin 32) (b : Fin 32) (t : View) (pr : Fin 8) : Statement (.vmin d a b t pr) := by
  have h0 := pr.isLt; have h1 := (View.code_lt t); have h2 := b.isLt; have h3 := a.isLt; have h4 := d.isLt
  refine ofWord _ _ rfl rfl (by simp only [pack]; omega) fun L w hL hf hw => ?_
  obtain ⟨e0, e1, e2, e3, e4, e5, e6, e7⟩ := bits42 pr.val t.code b.val a.val d.val 8 4 L w h0 h1 h2 h3 h4 (by decide) (by decide) (by simp only [pack] at hw; omega)
  simp [decodeNat, decodeWith, isAClass, flag, decodeA, decodeA08, e0, e1, e2, e3, e4, e5, e6, e7, reg, preg, View.ofCode_code]
theorem vmax (d : Fin 32) (a : Fin 32) (b : Fin 32) (t : View) (pr : Fin 8) : Statement (.vmax d a b t pr) := by
  have h0 := pr.isLt; have h1 := (View.code_lt t); have h2 := b.isLt; have h3 := a.isLt; have h4 := d.isLt
  refine ofWord _ _ rfl rfl (by simp only [pack]; omega) fun L w hL hf hw => ?_
  obtain ⟨e0, e1, e2, e3, e4, e5, e6, e7⟩ := bits42 pr.val t.code b.val a.val d.val 8 5 L w h0 h1 h2 h3 h4 (by decide) (by decide) (by simp only [pack] at hw; omega)
  simp [decodeNat, decodeWith, isAClass, flag, decodeA, decodeA08, e0, e1, e2, e3, e4, e5, e6, e7, reg, preg, View.ofCode_code]
theorem vminu (d : Fin 32) (a : Fin 32) (b : Fin 32) (t : View) (pr : Fin 8) : Statement (.vminu d a b t pr) := by
  have h0 := pr.isLt; have h1 := (View.code_lt t); have h2 := b.isLt; have h3 := a.isLt; have h4 := d.isLt
  refine ofWord _ _ rfl rfl (by simp only [pack]; omega) fun L w hL hf hw => ?_
  obtain ⟨e0, e1, e2, e3, e4, e5, e6, e7⟩ := bits42 pr.val t.code b.val a.val d.val 8 6 L w h0 h1 h2 h3 h4 (by decide) (by decide) (by simp only [pack] at hw; omega)
  simp [decodeNat, decodeWith, isAClass, flag, decodeA, decodeA08, e0, e1, e2, e3, e4, e5, e6, e7, reg, preg, View.ofCode_code]
theorem vmaxu (d : Fin 32) (a : Fin 32) (b : Fin 32) (t : View) (pr : Fin 8) : Statement (.vmaxu d a b t pr) := by
  have h0 := pr.isLt; have h1 := (View.code_lt t); have h2 := b.isLt; have h3 := a.isLt; have h4 := d.isLt
  refine ofWord _ _ rfl rfl (by simp only [pack]; omega) fun L w hL hf hw => ?_
  obtain ⟨e0, e1, e2, e3, e4, e5, e6, e7⟩ := bits42 pr.val t.code b.val a.val d.val 8 7 L w h0 h1 h2 h3 h4 (by decide) (by decide) (by simp only [pack] at hw; omega)
  simp [decodeNat, decodeWith, isAClass, flag, decodeA, decodeA08, e0, e1, e2, e3, e4, e5, e6, e7, reg, preg, View.ofCode_code]
theorem vand (d : Fin 32) (a : Fin 32) (b : Fin 32) (t : View) (pr : Fin 8) : Statement (.vand d a b t pr) := by
  have h0 := pr.isLt; have h1 := (View.code_lt t); have h2 := b.isLt; have h3 := a.isLt; have h4 := d.isLt
  refine ofWord _ _ rfl rfl (by simp only [pack]; omega) fun L w hL hf hw => ?_
  obtain ⟨e0, e1, e2, e3, e4, e5, e6, e7⟩ := bits42 pr.val t.code b.val a.val d.val 8 8 L w h0 h1 h2 h3 h4 (by decide) (by decide) (by simp only [pack] at hw; omega)
  simp [decodeNat, decodeWith, isAClass, flag, decodeA, decodeA08, e0, e1, e2, e3, e4, e5, e6, e7, reg, preg, View.ofCode_code]
theorem vor (d : Fin 32) (a : Fin 32) (b : Fin 32) (t : View) (pr : Fin 8) : Statement (.vor d a b t pr) := by
  have h0 := pr.isLt; have h1 := (View.code_lt t); have h2 := b.isLt; have h3 := a.isLt; have h4 := d.isLt
  refine ofWord _ _ rfl rfl (by simp only [pack]; omega) fun L w hL hf hw => ?_
  obtain ⟨e0, e1, e2, e3, e4, e5, e6, e7⟩ := bits42 pr.val t.code b.val a.val d.val 8 9 L w h0 h1 h2 h3 h4 (by decide) (by decide) (by simp only [pack] at hw; omega)
  simp [decodeNat, decodeWith, isAClass, flag, decodeA, decodeA08, e0, e1, e2, e3, e4, e5, e6, e7, reg, preg, View.ofCode_code]
theorem vxor (d : Fin 32) (a : Fin 32) (b : Fin 32) (t : View) (pr : Fin 8) : Statement (.vxor d a b t pr) := by
  have h0 := pr.isLt; have h1 := (View.code_lt t); have h2 := b.isLt; have h3 := a.isLt; have h4 := d.isLt
  refine ofWord _ _ rfl rfl (by simp only [pack]; omega) fun L w hL hf hw => ?_
  obtain ⟨e0, e1, e2, e3, e4, e5, e6, e7⟩ := bits42 pr.val t.code b.val a.val d.val 8 10 L w h0 h1 h2 h3 h4 (by decide) (by decide) (by simp only [pack] at hw; omega)
  simp [decodeNat, decodeWith, isAClass, flag, decodeA, decodeA08, e0, e1, e2, e3, e4, e5, e6, e7, reg, preg, View.ofCode_code]
theorem vshl (d : Fin 32) (a : Fin 32) (b : Fin 32) (t : View) (pr : Fin 8) : Statement (.vshl d a b t pr) := by
  have h0 := pr.isLt; have h1 := (View.code_lt t); have h2 := b.isLt; have h3 := a.isLt; have h4 := d.isLt
  refine ofWord _ _ rfl rfl (by simp only [pack]; omega) fun L w hL hf hw => ?_
  obtain ⟨e0, e1, e2, e3, e4, e5, e6, e7⟩ := bits42 pr.val t.code b.val a.val d.val 8 11 L w h0 h1 h2 h3 h4 (by decide) (by decide) (by simp only [pack] at hw; omega)
  simp [decodeNat, decodeWith, isAClass, flag, decodeA, decodeA08, e0, e1, e2, e3, e4, e5, e6, e7, reg, preg, View.ofCode_code]
theorem vshr (d : Fin 32) (a : Fin 32) (b : Fin 32) (t : View) (pr : Fin 8) : Statement (.vshr d a b t pr) := by
  have h0 := pr.isLt; have h1 := (View.code_lt t); have h2 := b.isLt; have h3 := a.isLt; have h4 := d.isLt
  refine ofWord _ _ rfl rfl (by simp only [pack]; omega) fun L w hL hf hw => ?_
  obtain ⟨e0, e1, e2, e3, e4, e5, e6, e7⟩ := bits42 pr.val t.code b.val a.val d.val 8 12 L w h0 h1 h2 h3 h4 (by decide) (by decide) (by simp only [pack] at hw; omega)
  simp [decodeNat, decodeWith, isAClass, flag, decodeA, decodeA08, e0, e1, e2, e3, e4, e5, e6, e7, reg, preg, View.ofCode_code]
theorem vsar (d : Fin 32) (a : Fin 32) (b : Fin 32) (t : View) (pr : Fin 8) : Statement (.vsar d a b t pr) := by
  have h0 := pr.isLt; have h1 := (View.code_lt t); have h2 := b.isLt; have h3 := a.isLt; have h4 := d.isLt
  refine ofWord _ _ rfl rfl (by simp only [pack]; omega) fun L w hL hf hw => ?_
  obtain ⟨e0, e1, e2, e3, e4, e5, e6, e7⟩ := bits42 pr.val t.code b.val a.val d.val 8 13 L w h0 h1 h2 h3 h4 (by decide) (by decide) (by simp only [pack] at hw; omega)
  simp [decodeNat, decodeWith, isAClass, flag, decodeA, decodeA08, e0, e1, e2, e3, e4, e5, e6, e7, reg, preg, View.ofCode_code]
theorem vabs (d : Fin 32) (a : Fin 32) (t : View) (pr : Fin 8) : Statement (.vabs d a t pr) := by
  have h0 := pr.isLt; have h1 := (View.code_lt t); have h2 := a.isLt; have h3 := d.isLt
  refine ofWord _ _ rfl rfl (by simp only [pack]; omega) fun L w hL hf hw => ?_
  obtain ⟨e0, e1, e2, e3, e4, e5, e6, e7⟩ := bits43 pr.val t.code a.val d.val 8 14 L w h0 h1 h2 h3 (by decide) (by decide) (by simp only [pack] at hw; omega)
  simp [decodeNat, decodeWith, isAClass, flag, decodeA, decodeA08, e0, e1, e2, e3, e4, e5, e6, e7, reg, preg, View.ofCode_code]
theorem vneg (d : Fin 32) (a : Fin 32) (t : View) (pr : Fin 8) : Statement (.vneg d a t pr) := by
  have h0 := pr.isLt; have h1 := (View.code_lt t); have h2 := a.isLt; have h3 := d.isLt
  refine ofWord _ _ rfl rfl (by simp only [pack]; omega) fun L w hL hf hw => ?_
  obtain ⟨e0, e1, e2, e3, e4, e5, e6, e7⟩ := bits43 pr.val t.code a.val d.val 8 15 L w h0 h1 h2 h3 (by decide) (by decide) (by simp only [pack] at hw; omega)
  simp [decodeNat, decodeWith, isAClass, flag, decodeA, decodeA08, e0, e1, e2, e3, e4, e5, e6, e7, reg, preg, View.ofCode_code]
theorem vadds (d : Fin 32) (a : Fin 32) (b : Fin 32) (t : View) (pr : Fin 8) : Statement (.vadds d a b t pr) := by
  have h0 := pr.isLt; have h1 := (View.code_lt t); have h2 := b.isLt; have h3 := a.isLt; have h4 := d.isLt
  refine ofWord _ _ rfl rfl (by simp only [pack]; omega) fun L w hL hf hw => ?_
  obtain ⟨e0, e1, e2, e3, e4, e5, e6, e7⟩ := bits42 pr.val t.code b.val a.val d.val 9 0 L w h0 h1 h2 h3 h4 (by decide) (by decide) (by simp only [pack] at hw; omega)
  simp [decodeNat, decodeWith, isAClass, flag, decodeA, decodeA09, e0, e1, e2, e3, e4, e5, e6, e7, reg, preg, View.ofCode_code]
theorem vsubs (d : Fin 32) (a : Fin 32) (b : Fin 32) (t : View) (pr : Fin 8) : Statement (.vsubs d a b t pr) := by
  have h0 := pr.isLt; have h1 := (View.code_lt t); have h2 := b.isLt; have h3 := a.isLt; have h4 := d.isLt
  refine ofWord _ _ rfl rfl (by simp only [pack]; omega) fun L w hL hf hw => ?_
  obtain ⟨e0, e1, e2, e3, e4, e5, e6, e7⟩ := bits42 pr.val t.code b.val a.val d.val 9 1 L w h0 h1 h2 h3 h4 (by decide) (by decide) (by simp only [pack] at hw; omega)
  simp [decodeNat, decodeWith, isAClass, flag, decodeA, decodeA09, e0, e1, e2, e3, e4, e5, e6, e7, reg, preg, View.ofCode_code]
theorem vaddsu (d : Fin 32) (a : Fin 32) (b : Fin 32) (t : View) (pr : Fin 8) : Statement (.vaddsu d a b t pr) := by
  have h0 := pr.isLt; have h1 := (View.code_lt t); have h2 := b.isLt; have h3 := a.isLt; have h4 := d.isLt
  refine ofWord _ _ rfl rfl (by simp only [pack]; omega) fun L w hL hf hw => ?_
  obtain ⟨e0, e1, e2, e3, e4, e5, e6, e7⟩ := bits42 pr.val t.code b.val a.val d.val 9 2 L w h0 h1 h2 h3 h4 (by decide) (by decide) (by simp only [pack] at hw; omega)
  simp [decodeNat, decodeWith, isAClass, flag, decodeA, decodeA09, e0, e1, e2, e3, e4, e5, e6, e7, reg, preg, View.ofCode_code]
theorem vsubsu (d : Fin 32) (a : Fin 32) (b : Fin 32) (t : View) (pr : Fin 8) : Statement (.vsubsu d a b t pr) := by
  have h0 := pr.isLt; have h1 := (View.code_lt t); have h2 := b.isLt; have h3 := a.isLt; have h4 := d.isLt
  refine ofWord _ _ rfl rfl (by simp only [pack]; omega) fun L w hL hf hw => ?_
  obtain ⟨e0, e1, e2, e3, e4, e5, e6, e7⟩ := bits42 pr.val t.code b.val a.val d.val 9 3 L w h0 h1 h2 h3 h4 (by decide) (by decide) (by simp only [pack] at hw; omega)
  simp [decodeNat, decodeWith, isAClass, flag, decodeA, decodeA09, e0, e1, e2, e3, e4, e5, e6, e7, reg, preg, View.ofCode_code]
theorem vcmpeq (d : Fin 8) (a : Fin 32) (b : Fin 32) (t : View) (pr : Fin 8) : Statement (.vcmpeq d a b t pr) := by
  have h0 := pr.isLt; have h1 := (View.code_lt t); have h2 := b.isLt; have h3 := a.isLt; have h4 := d.isLt
  refine ofWord _ _ rfl rfl (by simp only [pack]; omega) fun L w hL hf hw => ?_
  obtain ⟨e0, e1, e2, e3, e4, e5, e6, e7, e8⟩ := bits44 pr.val t.code b.val a.val d.val 9 4 L w h0 h1 h2 h3 h4 (by decide) (by decide) (by simp only [pack] at hw; omega)
  simp [decodeNat, decodeWith, isAClass, flag, decodeA, decodeA09, e0, e1, e2, e3, e4, e5, e6, e7, e8, reg, preg, View.ofCode_code]
theorem vcmpne (d : Fin 8) (a : Fin 32) (b : Fin 32) (t : View) (pr : Fin 8) : Statement (.vcmpne d a b t pr) := by
  have h0 := pr.isLt; have h1 := (View.code_lt t); have h2 := b.isLt; have h3 := a.isLt; have h4 := d.isLt
  refine ofWord _ _ rfl rfl (by simp only [pack]; omega) fun L w hL hf hw => ?_
  obtain ⟨e0, e1, e2, e3, e4, e5, e6, e7, e8⟩ := bits44 pr.val t.code b.val a.val d.val 9 5 L w h0 h1 h2 h3 h4 (by decide) (by decide) (by simp only [pack] at hw; omega)
  simp [decodeNat, decodeWith, isAClass, flag, decodeA, decodeA09, e0, e1, e2, e3, e4, e5, e6, e7, e8, reg, preg, View.ofCode_code]
theorem vcmplt (d : Fin 8) (a : Fin 32) (b : Fin 32) (t : View) (pr : Fin 8) : Statement (.vcmplt d a b t pr) := by
  have h0 := pr.isLt; have h1 := (View.code_lt t); have h2 := b.isLt; have h3 := a.isLt; have h4 := d.isLt
  refine ofWord _ _ rfl rfl (by simp only [pack]; omega) fun L w hL hf hw => ?_
  obtain ⟨e0, e1, e2, e3, e4, e5, e6, e7, e8⟩ := bits44 pr.val t.code b.val a.val d.val 9 6 L w h0 h1 h2 h3 h4 (by decide) (by decide) (by simp only [pack] at hw; omega)
  simp [decodeNat, decodeWith, isAClass, flag, decodeA, decodeA09, e0, e1, e2, e3, e4, e5, e6, e7, e8, reg, preg, View.ofCode_code]
theorem vcmple (d : Fin 8) (a : Fin 32) (b : Fin 32) (t : View) (pr : Fin 8) : Statement (.vcmple d a b t pr) := by
  have h0 := pr.isLt; have h1 := (View.code_lt t); have h2 := b.isLt; have h3 := a.isLt; have h4 := d.isLt
  refine ofWord _ _ rfl rfl (by simp only [pack]; omega) fun L w hL hf hw => ?_
  obtain ⟨e0, e1, e2, e3, e4, e5, e6, e7, e8⟩ := bits44 pr.val t.code b.val a.val d.val 9 7 L w h0 h1 h2 h3 h4 (by decide) (by decide) (by simp only [pack] at hw; omega)
  simp [decodeNat, decodeWith, isAClass, flag, decodeA, decodeA09, e0, e1, e2, e3, e4, e5, e6, e7, e8, reg, preg, View.ofCode_code]
theorem vcmpltu (d : Fin 8) (a : Fin 32) (b : Fin 32) (t : View) (pr : Fin 8) : Statement (.vcmpltu d a b t pr) := by
  have h0 := pr.isLt; have h1 := (View.code_lt t); have h2 := b.isLt; have h3 := a.isLt; have h4 := d.isLt
  refine ofWord _ _ rfl rfl (by simp only [pack]; omega) fun L w hL hf hw => ?_
  obtain ⟨e0, e1, e2, e3, e4, e5, e6, e7, e8⟩ := bits44 pr.val t.code b.val a.val d.val 9 8 L w h0 h1 h2 h3 h4 (by decide) (by decide) (by simp only [pack] at hw; omega)
  simp [decodeNat, decodeWith, isAClass, flag, decodeA, decodeA09, e0, e1, e2, e3, e4, e5, e6, e7, e8, reg, preg, View.ofCode_code]
theorem vcmpleu (d : Fin 8) (a : Fin 32) (b : Fin 32) (t : View) (pr : Fin 8) : Statement (.vcmpleu d a b t pr) := by
  have h0 := pr.isLt; have h1 := (View.code_lt t); have h2 := b.isLt; have h3 := a.isLt; have h4 := d.isLt
  refine ofWord _ _ rfl rfl (by simp only [pack]; omega) fun L w hL hf hw => ?_
  obtain ⟨e0, e1, e2, e3, e4, e5, e6, e7, e8⟩ := bits44 pr.val t.code b.val a.val d.val 9 9 L w h0 h1 h2 h3 h4 (by decide) (by decide) (by simp only [pack] at hw; omega)
  simp [decodeNat, decodeWith, isAClass, flag, decodeA, decodeA09, e0, e1, e2, e3, e4, e5, e6, e7, e8, reg, preg, View.ofCode_code]
theorem vsel (d : Fin 32) (a : Fin 32) (b : Fin 32) (pr : Fin 8) : Statement (.vsel d a b pr) := by
  have h0 := pr.isLt; have h1 := b.isLt; have h2 := a.isLt; have h3 := d.isLt
  refine ofWord _ _ rfl rfl (by simp only [pack]; omega) fun L w hL hf hw => ?_
  obtain ⟨e0, e1, e2, e3, e4, e5, e6, e7⟩ := bits45 pr.val b.val a.val d.val 9 10 3 L w h0 h1 h2 h3 (by decide) (by decide) (by decide) (by simp only [pack] at hw; omega)
  simp [decodeNat, decodeWith, isAClass, flag, decodeA, decodeA09, e0, e1, e2, e3, e4, e5, e6, e7, reg, preg]
theorem vdot4 (d : Fin 32) (a : Fin 32) (b : Fin 32) (t : Bool) (pr : Fin 8) : Statement (.vdot4 d a b t pr) := by
  have h0 := pr.isLt; have h1 := (bitNat_lt t); have h2 := b.isLt; have h3 := a.isLt; have h4 := d.isLt
  refine ofWord _ _ rfl rfl (by simp only [pack]; omega) fun L w hL hf hw => ?_
  obtain ⟨e0, e1, e2, e3, e4, e5, e6, e7, e8⟩ := bits46 pr.val (bitNat t) b.val a.val d.val 9 11 L w h0 h1 h2 h3 h4 (by decide) (by decide) (by simp only [pack] at hw; omega)
  simp [decodeNat, decodeWith, isAClass, flag, decodeA, decodeA09, e0, e1, e2, e3, e4, e5, e6, e7, e8, reg, preg, bitNat_eq_one]
theorem vdot4u (d : Fin 32) (a : Fin 32) (b : Fin 32) (t : Bool) (pr : Fin 8) : Statement (.vdot4u d a b t pr) := by
  have h0 := pr.isLt; have h1 := (bitNat_lt t); have h2 := b.isLt; have h3 := a.isLt; have h4 := d.isLt
  refine ofWord _ _ rfl rfl (by simp only [pack]; omega) fun L w hL hf hw => ?_
  obtain ⟨e0, e1, e2, e3, e4, e5, e6, e7, e8⟩ := bits46 pr.val (bitNat t) b.val a.val d.val 9 12 L w h0 h1 h2 h3 h4 (by decide) (by decide) (by simp only [pack] at hw; omega)
  simp [decodeNat, decodeWith, isAClass, flag, decodeA, decodeA09, e0, e1, e2, e3, e4, e5, e6, e7, e8, reg, preg, bitNat_eq_one]
theorem fadd (d : Fin 32) (a : Fin 32) (b : Fin 32) (t : FFmt) (pr : Fin 8) : Statement (.fadd d a b t pr) := by
  have h0 := pr.isLt; have h1 := (FFmt.code_lt t); have h2 := b.isLt; have h3 := a.isLt; have h4 := d.isLt
  refine ofWord _ _ rfl rfl (by simp only [pack]; omega) fun L w hL hf hw => ?_
  obtain ⟨e0, e1, e2, e3, e4, e5, e6, e7⟩ := bits42 pr.val t.code b.val a.val d.val 10 0 L w h0 h1 h2 h3 h4 (by decide) (by decide) (by simp only [pack] at hw; omega)
  simp [decodeNat, decodeWith, isAClass, flag, decodeA, decodeA0a, e0, e1, e2, e3, e4, e5, e6, e7, reg, preg, FFmt.ofCode_code]
theorem fsub (d : Fin 32) (a : Fin 32) (b : Fin 32) (t : FFmt) (pr : Fin 8) : Statement (.fsub d a b t pr) := by
  have h0 := pr.isLt; have h1 := (FFmt.code_lt t); have h2 := b.isLt; have h3 := a.isLt; have h4 := d.isLt
  refine ofWord _ _ rfl rfl (by simp only [pack]; omega) fun L w hL hf hw => ?_
  obtain ⟨e0, e1, e2, e3, e4, e5, e6, e7⟩ := bits42 pr.val t.code b.val a.val d.val 10 1 L w h0 h1 h2 h3 h4 (by decide) (by decide) (by simp only [pack] at hw; omega)
  simp [decodeNat, decodeWith, isAClass, flag, decodeA, decodeA0a, e0, e1, e2, e3, e4, e5, e6, e7, reg, preg, FFmt.ofCode_code]
theorem fmul (d : Fin 32) (a : Fin 32) (b : Fin 32) (t : FFmt) (pr : Fin 8) : Statement (.fmul d a b t pr) := by
  have h0 := pr.isLt; have h1 := (FFmt.code_lt t); have h2 := b.isLt; have h3 := a.isLt; have h4 := d.isLt
  refine ofWord _ _ rfl rfl (by simp only [pack]; omega) fun L w hL hf hw => ?_
  obtain ⟨e0, e1, e2, e3, e4, e5, e6, e7⟩ := bits42 pr.val t.code b.val a.val d.val 10 2 L w h0 h1 h2 h3 h4 (by decide) (by decide) (by simp only [pack] at hw; omega)
  simp [decodeNat, decodeWith, isAClass, flag, decodeA, decodeA0a, e0, e1, e2, e3, e4, e5, e6, e7, reg, preg, FFmt.ofCode_code]
theorem fmin (d : Fin 32) (a : Fin 32) (b : Fin 32) (t : FFmt) (pr : Fin 8) : Statement (.fmin d a b t pr) := by
  have h0 := pr.isLt; have h1 := (FFmt.code_lt t); have h2 := b.isLt; have h3 := a.isLt; have h4 := d.isLt
  refine ofWord _ _ rfl rfl (by simp only [pack]; omega) fun L w hL hf hw => ?_
  obtain ⟨e0, e1, e2, e3, e4, e5, e6, e7⟩ := bits42 pr.val t.code b.val a.val d.val 10 3 L w h0 h1 h2 h3 h4 (by decide) (by decide) (by simp only [pack] at hw; omega)
  simp [decodeNat, decodeWith, isAClass, flag, decodeA, decodeA0a, e0, e1, e2, e3, e4, e5, e6, e7, reg, preg, FFmt.ofCode_code]
theorem fmax (d : Fin 32) (a : Fin 32) (b : Fin 32) (t : FFmt) (pr : Fin 8) : Statement (.fmax d a b t pr) := by
  have h0 := pr.isLt; have h1 := (FFmt.code_lt t); have h2 := b.isLt; have h3 := a.isLt; have h4 := d.isLt
  refine ofWord _ _ rfl rfl (by simp only [pack]; omega) fun L w hL hf hw => ?_
  obtain ⟨e0, e1, e2, e3, e4, e5, e6, e7⟩ := bits42 pr.val t.code b.val a.val d.val 10 4 L w h0 h1 h2 h3 h4 (by decide) (by decide) (by simp only [pack] at hw; omega)
  simp [decodeNat, decodeWith, isAClass, flag, decodeA, decodeA0a, e0, e1, e2, e3, e4, e5, e6, e7, reg, preg, FFmt.ofCode_code]
theorem fabs (d : Fin 32) (a : Fin 32) (t : FFmt) (pr : Fin 8) : Statement (.fabs d a t pr) := by
  have h0 := pr.isLt; have h1 := (FFmt.code_lt t); have h2 := a.isLt; have h3 := d.isLt
  refine ofWord _ _ rfl rfl (by simp only [pack]; omega) fun L w hL hf hw => ?_
  obtain ⟨e0, e1, e2, e3, e4, e5, e6, e7⟩ := bits43 pr.val t.code a.val d.val 10 5 L w h0 h1 h2 h3 (by decide) (by decide) (by simp only [pack] at hw; omega)
  simp [decodeNat, decodeWith, isAClass, flag, decodeA, decodeA0a, e0, e1, e2, e3, e4, e5, e6, e7, reg, preg, FFmt.ofCode_code]
theorem fneg (d : Fin 32) (a : Fin 32) (t : FFmt) (pr : Fin 8) : Statement (.fneg d a t pr) := by
  have h0 := pr.isLt; have h1 := (FFmt.code_lt t); have h2 := a.isLt; have h3 := d.isLt
  refine ofWord _ _ rfl rfl (by simp only [pack]; omega) fun L w hL hf hw => ?_
  obtain ⟨e0, e1, e2, e3, e4, e5, e6, e7⟩ := bits43 pr.val t.code a.val d.val 10 6 L w h0 h1 h2 h3 (by decide) (by decide) (by simp only [pack] at hw; omega)
  simp [decodeNat, decodeWith, isAClass, flag, decodeA, decodeA0a, e0, e1, e2, e3, e4, e5, e6, e7, reg, preg, FFmt.ofCode_code]
theorem fcpsgn (d : Fin 32) (a : Fin 32) (b : Fin 32) (t : FFmt) (pr : Fin 8) : Statement (.fcpsgn d a b t pr) := by
  have h0 := pr.isLt; have h1 := (FFmt.code_lt t); have h2 := b.isLt; have h3 := a.isLt; have h4 := d.isLt
  refine ofWord _ _ rfl rfl (by simp only [pack]; omega) fun L w hL hf hw => ?_
  obtain ⟨e0, e1, e2, e3, e4, e5, e6, e7⟩ := bits42 pr.val t.code b.val a.val d.val 10 7 L w h0 h1 h2 h3 h4 (by decide) (by decide) (by simp only [pack] at hw; omega)
  simp [decodeNat, decodeWith, isAClass, flag, decodeA, decodeA0a, e0, e1, e2, e3, e4, e5, e6, e7, reg, preg, FFmt.ofCode_code]
theorem fcmpeq (d : Fin 8) (a : Fin 32) (b : Fin 32) (t : FFmt) (pr : Fin 8) : Statement (.fcmpeq d a b t pr) := by
  have h0 := pr.isLt; have h1 := (FFmt.code_lt t); have h2 := b.isLt; have h3 := a.isLt; have h4 := d.isLt
  refine ofWord _ _ rfl rfl (by simp only [pack]; omega) fun L w hL hf hw => ?_
  obtain ⟨e0, e1, e2, e3, e4, e5, e6, e7, e8⟩ := bits44 pr.val t.code b.val a.val d.val 10 8 L w h0 h1 h2 h3 h4 (by decide) (by decide) (by simp only [pack] at hw; omega)
  simp [decodeNat, decodeWith, isAClass, flag, decodeA, decodeA0a, e0, e1, e2, e3, e4, e5, e6, e7, e8, reg, preg, FFmt.ofCode_code]
theorem fcmplt (d : Fin 8) (a : Fin 32) (b : Fin 32) (t : FFmt) (pr : Fin 8) : Statement (.fcmplt d a b t pr) := by
  have h0 := pr.isLt; have h1 := (FFmt.code_lt t); have h2 := b.isLt; have h3 := a.isLt; have h4 := d.isLt
  refine ofWord _ _ rfl rfl (by simp only [pack]; omega) fun L w hL hf hw => ?_
  obtain ⟨e0, e1, e2, e3, e4, e5, e6, e7, e8⟩ := bits44 pr.val t.code b.val a.val d.val 10 9 L w h0 h1 h2 h3 h4 (by decide) (by decide) (by simp only [pack] at hw; omega)
  simp [decodeNat, decodeWith, isAClass, flag, decodeA, decodeA0a, e0, e1, e2, e3, e4, e5, e6, e7, e8, reg, preg, FFmt.ofCode_code]
theorem fcmple (d : Fin 8) (a : Fin 32) (b : Fin 32) (t : FFmt) (pr : Fin 8) : Statement (.fcmple d a b t pr) := by
  have h0 := pr.isLt; have h1 := (FFmt.code_lt t); have h2 := b.isLt; have h3 := a.isLt; have h4 := d.isLt
  refine ofWord _ _ rfl rfl (by simp only [pack]; omega) fun L w hL hf hw => ?_
  obtain ⟨e0, e1, e2, e3, e4, e5, e6, e7, e8⟩ := bits44 pr.val t.code b.val a.val d.val 10 10 L w h0 h1 h2 h3 h4 (by decide) (by decide) (by simp only [pack] at hw; omega)
  simp [decodeNat, decodeWith, isAClass, flag, decodeA, decodeA0a, e0, e1, e2, e3, e4, e5, e6, e7, e8, reg, preg, FFmt.ofCode_code]
theorem fcmpun (d : Fin 8) (a : Fin 32) (b : Fin 32) (t : FFmt) (pr : Fin 8) : Statement (.fcmpun d a b t pr) := by
  have h0 := pr.isLt; have h1 := (FFmt.code_lt t); have h2 := b.isLt; have h3 := a.isLt; have h4 := d.isLt
  refine ofWord _ _ rfl rfl (by simp only [pack]; omega) fun L w hL hf hw => ?_
  obtain ⟨e0, e1, e2, e3, e4, e5, e6, e7, e8⟩ := bits44 pr.val t.code b.val a.val d.val 10 11 L w h0 h1 h2 h3 h4 (by decide) (by decide) (by simp only [pack] at hw; omega)
  simp [decodeNat, decodeWith, isAClass, flag, decodeA, decodeA0a, e0, e1, e2, e3, e4, e5, e6, e7, e8, reg, preg, FFmt.ofCode_code]
theorem fclass (d : Fin 32) (a : Fin 32) (t : FFmt) (pr : Fin 8) : Statement (.fclass d a t pr) := by
  have h0 := pr.isLt; have h1 := (FFmt.code_lt t); have h2 := a.isLt; have h3 := d.isLt
  refine ofWord _ _ rfl rfl (by simp only [pack]; omega) fun L w hL hf hw => ?_
  obtain ⟨e0, e1, e2, e3, e4, e5, e6, e7⟩ := bits43 pr.val t.code a.val d.val 10 12 L w h0 h1 h2 h3 (by decide) (by decide) (by simp only [pack] at hw; omega)
  simp [decodeNat, decodeWith, isAClass, flag, decodeA, decodeA0a, e0, e1, e2, e3, e4, e5, e6, e7, reg, preg, FFmt.ofCode_code]
theorem fround (d : Fin 32) (a : Fin 32) (m : RMode) (t : FFmt) (pr : Fin 8) : Statement (.fround d a m t pr) := by
  have h0 := pr.isLt; have h1 := (FFmt.code_lt t); have h2 := (RMode.code_lt m); have h3 := a.isLt; have h4 := d.isLt
  refine ofWord _ _ rfl rfl (by simp only [pack]; omega) fun L w hL hf hw => ?_
  obtain ⟨e0, e1, e2, e3, e4, e5, e6, e7, e8⟩ := bits47 pr.val t.code m.code a.val d.val 10 13 L w h0 h1 h2 h3 h4 (by decide) (by decide) (by simp only [pack] at hw; omega)
  simp [decodeNat, decodeWith, isAClass, flag, decodeA, decodeA0a, e0, e1, e2, e3, e4, e5, e6, e7, e8, reg, preg, FFmt.ofCode_code, RMode.ofCode_code]
theorem cvtf (d : Fin 32) (a : Fin 32) (y : TyCode) (t : FFmt) (pr : Fin 8) : Statement (.cvtf d a y t pr) := by
  have h0 := pr.isLt; have h1 := (FFmt.code_lt t); have h2 := (TyCode.code_lt y); have h3 := a.isLt; have h4 := d.isLt
  refine ofWord _ _ rfl rfl (by simp only [pack]; omega) fun L w hL hf hw => ?_
  obtain ⟨e0, e1, e2, e3, e4, e5, e6, e7⟩ := bits48 pr.val t.code y.code a.val d.val 11 0 L w h0 h1 h2 h3 h4 (by decide) (by decide) (by simp only [pack] at hw; omega)
  simp [decodeNat, decodeWith, isAClass, flag, decodeA, decodeA0b, e0, e1, e2, e3, e4, e5, e6, e7, reg, preg, FFmt.ofCode_code, TyCode.ofCode_code, whenLegal, hf]
theorem cvtfi (d : Fin 32) (a : Fin 32) (y : TyCode) (t : FFmt) (pr : Fin 8) : Statement (.cvtfi d a y t pr) := by
  have h0 := pr.isLt; have h1 := (FFmt.code_lt t); have h2 := (TyCode.code_lt y); have h3 := a.isLt; have h4 := d.isLt
  refine ofWord _ _ rfl rfl (by simp only [pack]; omega) fun L w hL hf hw => ?_
  obtain ⟨e0, e1, e2, e3, e4, e5, e6, e7⟩ := bits48 pr.val t.code y.code a.val d.val 11 1 L w h0 h1 h2 h3 h4 (by decide) (by decide) (by simp only [pack] at hw; omega)
  simp [decodeNat, decodeWith, isAClass, flag, decodeA, decodeA0b, e0, e1, e2, e3, e4, e5, e6, e7, reg, preg, FFmt.ofCode_code, TyCode.ofCode_code, whenLegal, hf]
theorem cvtif (d : Fin 32) (a : Fin 32) (y : TyCode) (t : FFmt) (pr : Fin 8) : Statement (.cvtif d a y t pr) := by
  have h0 := pr.isLt; have h1 := (FFmt.code_lt t); have h2 := (TyCode.code_lt y); have h3 := a.isLt; have h4 := d.isLt
  refine ofWord _ _ rfl rfl (by simp only [pack]; omega) fun L w hL hf hw => ?_
  obtain ⟨e0, e1, e2, e3, e4, e5, e6, e7⟩ := bits48 pr.val t.code y.code a.val d.val 11 2 L w h0 h1 h2 h3 h4 (by decide) (by decide) (by simp only [pack] at hw; omega)
  simp [decodeNat, decodeWith, isAClass, flag, decodeA, decodeA0b, e0, e1, e2, e3, e4, e5, e6, e7, reg, preg, FFmt.ofCode_code, TyCode.ofCode_code, whenLegal, hf]
theorem cvtq (d : Fin 32) (a : Fin 32) (y : TyCode) (t : FFmt) (pr : Fin 8) : Statement (.cvtq d a y t pr) := by
  have h0 := pr.isLt; have h1 := (FFmt.code_lt t); have h2 := (TyCode.code_lt y); have h3 := a.isLt; have h4 := d.isLt
  refine ofWord _ _ rfl rfl (by simp only [pack]; omega) fun L w hL hf hw => ?_
  obtain ⟨e0, e1, e2, e3, e4, e5, e6, e7⟩ := bits48 pr.val t.code y.code a.val d.val 11 3 L w h0 h1 h2 h3 h4 (by decide) (by decide) (by simp only [pack] at hw; omega)
  simp [decodeNat, decodeWith, isAClass, flag, decodeA, decodeA0b, e0, e1, e2, e3, e4, e5, e6, e7, reg, preg, FFmt.ofCode_code, TyCode.ofCode_code, whenLegal, hf]
theorem cvtdq (d : Fin 32) (a : Fin 32) (pr : Fin 8) : Statement (.cvtdq d a pr) := by
  have h0 := pr.isLt; have h1 := a.isLt; have h2 := d.isLt
  refine ofWord _ _ rfl rfl (by simp only [pack]; omega) fun L w hL hf hw => ?_
  obtain ⟨e0, e1, e2, e3, e4, e5, e6, e7, e8⟩ := bits49 pr.val a.val d.val 11 4 1 L w h0 h1 h2 (by decide) (by decide) (by decide) (by simp only [pack] at hw; omega)
  simp [decodeNat, decodeWith, isAClass, flag, decodeA, decodeA0b, e0, e1, e2, e3, e4, e5, e6, e7, e8, reg, preg]
theorem cvtsr (d : Fin 32) (a : Fin 32) (y : TyCode) (t : FFmt) (pr : Fin 8) : Statement (.cvtsr d a y t pr) := by
  have h0 := pr.isLt; have h1 := (FFmt.code_lt t); have h2 := (TyCode.code_lt y); have h3 := a.isLt; have h4 := d.isLt
  refine ofWord _ _ rfl rfl (by simp only [pack]; omega) fun L w hL hf hw => ?_
  obtain ⟨e0, e1, e2, e3, e4, e5, e6, e7⟩ := bits48 pr.val t.code y.code a.val d.val 11 5 L w h0 h1 h2 h3 h4 (by decide) (by decide) (by simp only [pack] at hw; omega)
  simp [decodeNat, decodeWith, isAClass, flag, decodeA, decodeA0b, e0, e1, e2, e3, e4, e5, e6, e7, reg, preg, FFmt.ofCode_code, TyCode.ofCode_code, whenLegal, hf]
theorem ffma (d : Fin 32) (a : Fin 32) (b : Fin 32) (c : Fin 32) (t : FFmt) (pr : Fin 4) : Statement (.ffma d a b c t pr) := by
  have h0 := pr.isLt; have h1 := (FFmt.code_lt t); have h2 := c.isLt; have h3 := b.isLt; have h4 := a.isLt; have h5 := d.isLt
  refine ofWord _ _ rfl rfl (by simp only [pack]; omega) fun L w hL hf hw => ?_
  obtain ⟨e0, e1, e2, e3, e4, e5, e6, e7⟩ := bits50 pr.val t.code c.val b.val a.val d.val 12 L w h0 h1 h2 h3 h4 h5 (by decide) (by simp only [pack] at hw; omega)
  simp [decodeNat, decodeWith, isAClass, flag, decodeA, decodeA0c, e0, e1, e2, e3, e4, e5, e6, e7, reg, FFmt.ofCode_code]
theorem ffms (d : Fin 32) (a : Fin 32) (b : Fin 32) (c : Fin 32) (t : FFmt) (pr : Fin 4) : Statement (.ffms d a b c t pr) := by
  have h0 := pr.isLt; have h1 := (FFmt.code_lt t); have h2 := c.isLt; have h3 := b.isLt; have h4 := a.isLt; have h5 := d.isLt
  refine ofWord _ _ rfl rfl (by simp only [pack]; omega) fun L w hL hf hw => ?_
  obtain ⟨e0, e1, e2, e3, e4, e5, e6, e7⟩ := bits50 pr.val t.code c.val b.val a.val d.val 13 L w h0 h1 h2 h3 h4 h5 (by decide) (by simp only [pack] at hw; omega)
  simp [decodeNat, decodeWith, isAClass, flag, decodeA, decodeA0d, e0, e1, e2, e3, e4, e5, e6, e7, reg, FFmt.ofCode_code]
theorem ffnma (d : Fin 32) (a : Fin 32) (b : Fin 32) (c : Fin 32) (t : FFmt) (pr : Fin 4) : Statement (.ffnma d a b c t pr) := by
  have h0 := pr.isLt; have h1 := (FFmt.code_lt t); have h2 := c.isLt; have h3 := b.isLt; have h4 := a.isLt; have h5 := d.isLt
  refine ofWord _ _ rfl rfl (by simp only [pack]; omega) fun L w hL hf hw => ?_
  obtain ⟨e0, e1, e2, e3, e4, e5, e6, e7⟩ := bits50 pr.val t.code c.val b.val a.val d.val 14 L w h0 h1 h2 h3 h4 h5 (by decide) (by simp only [pack] at hw; omega)
  simp [decodeNat, decodeWith, isAClass, flag, decodeA, decodeA0e, e0, e1, e2, e3, e4, e5, e6, e7, reg, FFmt.ofCode_code]
theorem frcp (d : Fin 32) (a : Fin 32) (t : SFmt) (pr : Fin 8) : Statement (.frcp d a t pr) := by
  have h0 := pr.isLt; have h1 := (SFmt.code_lt t); have h2 := a.isLt; have h3 := d.isLt
  refine ofWord _ _ rfl rfl (by simp only [pack]; omega) fun L w hL hf hw => ?_
  obtain ⟨e0, e1, e2, e3, e4, e5, e6, e7, e8⟩ := bits51 pr.val t.code a.val d.val 15 0 L w h0 h1 h2 h3 (by decide) (by decide) (by simp only [pack] at hw; omega)
  simp [decodeNat, decodeWith, isAClass, flag, decodeA, decodeA0f, e0, e1, e2, e3, e4, e5, e6, e7, e8, reg, preg, SFmt.ofCode_code]
theorem frsq (d : Fin 32) (a : Fin 32) (t : SFmt) (pr : Fin 8) : Statement (.frsq d a t pr) := by
  have h0 := pr.isLt; have h1 := (SFmt.code_lt t); have h2 := a.isLt; have h3 := d.isLt
  refine ofWord _ _ rfl rfl (by simp only [pack]; omega) fun L w hL hf hw => ?_
  obtain ⟨e0, e1, e2, e3, e4, e5, e6, e7, e8⟩ := bits51 pr.val t.code a.val d.val 15 1 L w h0 h1 h2 h3 (by decide) (by decide) (by simp only [pack] at hw; omega)
  simp [decodeNat, decodeWith, isAClass, flag, decodeA, decodeA0f, e0, e1, e2, e3, e4, e5, e6, e7, e8, reg, preg, SFmt.ofCode_code]
theorem fsqrt (d : Fin 32) (a : Fin 32) (t : SFmt) (pr : Fin 8) : Statement (.fsqrt d a t pr) := by
  have h0 := pr.isLt; have h1 := (SFmt.code_lt t); have h2 := a.isLt; have h3 := d.isLt
  refine ofWord _ _ rfl rfl (by simp only [pack]; omega) fun L w hL hf hw => ?_
  obtain ⟨e0, e1, e2, e3, e4, e5, e6, e7, e8⟩ := bits51 pr.val t.code a.val d.val 15 2 L w h0 h1 h2 h3 (by decide) (by decide) (by simp only [pack] at hw; omega)
  simp [decodeNat, decodeWith, isAClass, flag, decodeA, decodeA0f, e0, e1, e2, e3, e4, e5, e6, e7, e8, reg, preg, SFmt.ofCode_code]
theorem fexp2 (d : Fin 32) (a : Fin 32) (t : SFmt) (pr : Fin 8) : Statement (.fexp2 d a t pr) := by
  have h0 := pr.isLt; have h1 := (SFmt.code_lt t); have h2 := a.isLt; have h3 := d.isLt
  refine ofWord _ _ rfl rfl (by simp only [pack]; omega) fun L w hL hf hw => ?_
  obtain ⟨e0, e1, e2, e3, e4, e5, e6, e7, e8⟩ := bits51 pr.val t.code a.val d.val 15 3 L w h0 h1 h2 h3 (by decide) (by decide) (by simp only [pack] at hw; omega)
  simp [decodeNat, decodeWith, isAClass, flag, decodeA, decodeA0f, e0, e1, e2, e3, e4, e5, e6, e7, e8, reg, preg, SFmt.ofCode_code]
theorem flog2 (d : Fin 32) (a : Fin 32) (t : SFmt) (pr : Fin 8) : Statement (.flog2 d a t pr) := by
  have h0 := pr.isLt; have h1 := (SFmt.code_lt t); have h2 := a.isLt; have h3 := d.isLt
  refine ofWord _ _ rfl rfl (by simp only [pack]; omega) fun L w hL hf hw => ?_
  obtain ⟨e0, e1, e2, e3, e4, e5, e6, e7, e8⟩ := bits51 pr.val t.code a.val d.val 15 4 L w h0 h1 h2 h3 (by decide) (by decide) (by simp only [pack] at hw; omega)
  simp [decodeNat, decodeWith, isAClass, flag, decodeA, decodeA0f, e0, e1, e2, e3, e4, e5, e6, e7, e8, reg, preg, SFmt.ofCode_code]
theorem fsin (d : Fin 32) (a : Fin 32) (t : SFmt) (pr : Fin 8) : Statement (.fsin d a t pr) := by
  have h0 := pr.isLt; have h1 := (SFmt.code_lt t); have h2 := a.isLt; have h3 := d.isLt
  refine ofWord _ _ rfl rfl (by simp only [pack]; omega) fun L w hL hf hw => ?_
  obtain ⟨e0, e1, e2, e3, e4, e5, e6, e7, e8⟩ := bits51 pr.val t.code a.val d.val 15 5 L w h0 h1 h2 h3 (by decide) (by decide) (by simp only [pack] at hw; omega)
  simp [decodeNat, decodeWith, isAClass, flag, decodeA, decodeA0f, e0, e1, e2, e3, e4, e5, e6, e7, e8, reg, preg, SFmt.ofCode_code]
theorem fcos (d : Fin 32) (a : Fin 32) (t : SFmt) (pr : Fin 8) : Statement (.fcos d a t pr) := by
  have h0 := pr.isLt; have h1 := (SFmt.code_lt t); have h2 := a.isLt; have h3 := d.isLt
  refine ofWord _ _ rfl rfl (by simp only [pack]; omega) fun L w hL hf hw => ?_
  obtain ⟨e0, e1, e2, e3, e4, e5, e6, e7, e8⟩ := bits51 pr.val t.code a.val d.val 15 6 L w h0 h1 h2 h3 (by decide) (by decide) (by simp only [pack] at hw; omega)
  simp [decodeNat, decodeWith, isAClass, flag, decodeA, decodeA0f, e0, e1, e2, e3, e4, e5, e6, e7, e8, reg, preg, SFmt.ofCode_code]
theorem fdiv (d : Fin 32) (a : Fin 32) (b : Fin 32) (t : SFmt) (pr : Fin 8) : Statement (.fdiv d a b t pr) := by
  have h0 := pr.isLt; have h1 := (SFmt.code_lt t); have h2 := b.isLt; have h3 := a.isLt; have h4 := d.isLt
  refine ofWord _ _ rfl rfl (by simp only [pack]; omega) fun L w hL hf hw => ?_
  obtain ⟨e0, e1, e2, e3, e4, e5, e6, e7, e8⟩ := bits52 pr.val t.code b.val a.val d.val 15 7 L w h0 h1 h2 h3 h4 (by decide) (by decide) (by simp only [pack] at hw; omega)
  simp [decodeNat, decodeWith, isAClass, flag, decodeA, decodeA0f, e0, e1, e2, e3, e4, e5, e6, e7, e8, reg, preg, SFmt.ofCode_code]
theorem vbcast (d : Fin 32) (a : Fin 32) (t : View) (pr : Fin 8) : Statement (.vbcast d a t pr) := by
  have h0 := pr.isLt; have h1 := (View.code_lt t); have h2 := a.isLt; have h3 := d.isLt
  refine ofWord _ _ rfl rfl (by simp only [pack]; omega) fun L w hL hf hw => ?_
  obtain ⟨e0, e1, e2, e3, e4, e5, e6, e7⟩ := bits43 pr.val t.code a.val d.val 16 0 L w h0 h1 h2 h3 (by decide) (by decide) (by simp only [pack] at hw; omega)
  simp [decodeNat, decodeWith, isAClass, flag, decodeA, decodeA10, e0, e1, e2, e3, e4, e5, e6, e7, reg, preg, View.ofCode_code]
theorem vget (d : Fin 32) (a : Fin 32) (b : Fin 32) (t : View) (pr : Fin 8) : Statement (.vget d a b t pr) := by
  have h0 := pr.isLt; have h1 := (View.code_lt t); have h2 := b.isLt; have h3 := a.isLt; have h4 := d.isLt
  refine ofWord _ _ rfl rfl (by simp only [pack]; omega) fun L w hL hf hw => ?_
  obtain ⟨e0, e1, e2, e3, e4, e5, e6, e7⟩ := bits42 pr.val t.code b.val a.val d.val 16 1 L w h0 h1 h2 h3 h4 (by decide) (by decide) (by simp only [pack] at hw; omega)
  simp [decodeNat, decodeWith, isAClass, flag, decodeA, decodeA10, e0, e1, e2, e3, e4, e5, e6, e7, reg, preg, View.ofCode_code]
theorem vput (d : Fin 32) (a : Fin 32) (b : Fin 32) (t : View) (pr : Fin 8) : Statement (.vput d a b t pr) := by
  have h0 := pr.isLt; have h1 := (View.code_lt t); have h2 := b.isLt; have h3 := a.isLt; have h4 := d.isLt
  refine ofWord _ _ rfl rfl (by simp only [pack]; omega) fun L w hL hf hw => ?_
  obtain ⟨e0, e1, e2, e3, e4, e5, e6, e7⟩ := bits42 pr.val t.code b.val a.val d.val 16 2 L w h0 h1 h2 h3 h4 (by decide) (by decide) (by simp only [pack] at hw; omega)
  simp [decodeNat, decodeWith, isAClass, flag, decodeA, decodeA10, e0, e1, e2, e3, e4, e5, e6, e7, reg, preg, View.ofCode_code]
theorem vperm (d : Fin 32) (a : Fin 32) (b : Fin 32) (t : View) (pr : Fin 8) : Statement (.vperm d a b t pr) := by
  have h0 := pr.isLt; have h1 := (View.code_lt t); have h2 := b.isLt; have h3 := a.isLt; have h4 := d.isLt
  refine ofWord _ _ rfl rfl (by simp only [pack]; omega) fun L w hL hf hw => ?_
  obtain ⟨e0, e1, e2, e3, e4, e5, e6, e7⟩ := bits42 pr.val t.code b.val a.val d.val 16 3 L w h0 h1 h2 h3 h4 (by decide) (by decide) (by simp only [pack] at hw; omega)
  simp [decodeNat, decodeWith, isAClass, flag, decodeA, decodeA10, e0, e1, e2, e3, e4, e5, e6, e7, reg, preg, View.ofCode_code]
theorem vext (d : Fin 32) (a : Fin 32) (b : Fin 32) (t : View) (pr : Fin 8) : Statement (.vext d a b t pr) := by
  have h0 := pr.isLt; have h1 := (View.code_lt t); have h2 := b.isLt; have h3 := a.isLt; have h4 := d.isLt
  refine ofWord _ _ rfl rfl (by simp only [pack]; omega) fun L w hL hf hw => ?_
  obtain ⟨e0, e1, e2, e3, e4, e5, e6, e7⟩ := bits42 pr.val t.code b.val a.val d.val 16 4 L w h0 h1 h2 h3 h4 (by decide) (by decide) (by simp only [pack] at hw; omega)
  simp [decodeNat, decodeWith, isAClass, flag, decodeA, decodeA10, e0, e1, e2, e3, e4, e5, e6, e7, reg, preg, View.ofCode_code, whenLegal, hf]
theorem vins (d : Fin 32) (a : Fin 32) (b : Fin 32) (t : View) (pr : Fin 8) : Statement (.vins d a b t pr) := by
  have h0 := pr.isLt; have h1 := (View.code_lt t); have h2 := b.isLt; have h3 := a.isLt; have h4 := d.isLt
  refine ofWord _ _ rfl rfl (by simp only [pack]; omega) fun L w hL hf hw => ?_
  obtain ⟨e0, e1, e2, e3, e4, e5, e6, e7⟩ := bits42 pr.val t.code b.val a.val d.val 16 5 L w h0 h1 h2 h3 h4 (by decide) (by decide) (by simp only [pack] at hw; omega)
  simp [decodeNat, decodeWith, isAClass, flag, decodeA, decodeA10, e0, e1, e2, e3, e4, e5, e6, e7, reg, preg, View.ofCode_code, whenLegal, hf]
theorem vmov (d : Fin 32) (a : Fin 32) (pr : Fin 8) : Statement (.vmov d a pr) := by
  have h0 := pr.isLt; have h1 := a.isLt; have h2 := d.isLt
  refine ofWord _ _ rfl rfl (by simp only [pack]; omega) fun L w hL hf hw => ?_
  obtain ⟨e0, e1, e2, e3, e4, e5, e6, e7⟩ := bits53 pr.val a.val d.val 16 6 3 L w h0 h1 h2 (by decide) (by decide) (by decide) (by simp only [pack] at hw; omega)
  simp [decodeNat, decodeWith, isAClass, flag, decodeA, decodeA10, e0, e1, e2, e3, e4, e5, e6, e7, reg, preg]
theorem vli (d : Fin 32) (i : BitVec 11) : Statement (.vli d i) := by
  have h0 := i.isLt; have h1 := d.isLt
  refine ofWord _ _ rfl rfl (by simp only [pack]; omega) fun L w hL hf hw => ?_
  obtain ⟨e0, e1, e2, e3, e4, e5⟩ := bits40 i.toNat d.val 17 0 L w h0 h1 (by decide) (by decide) (by simp only [pack] at hw; omega)
  simp [decodeNat, decodeWith, isAClass, flag, decodeA, decodeA11, e0, e1, e2, e3, e4, e5, reg, imf]
theorem vaddi (d : Fin 32) (a : Fin 32) (i : BitVec 11) : Statement (.vaddi d a i) := by
  have h0 := i.isLt; have h1 := a.isLt; have h2 := d.isLt
  refine ofWord _ _ rfl rfl (by simp only [pack]; omega) fun L w hL hf hw => ?_
  obtain ⟨e0, e1, e2, e3, e4, e5⟩ := bits38 i.toNat a.val d.val 17 1 L w h0 h1 h2 (by decide) (by decide) (by simp only [pack] at hw; omega)
  simp [decodeNat, decodeWith, isAClass, flag, decodeA, decodeA11, e0, e1, e2, e3, e4, e5, reg, imf]
theorem vshli (d : Fin 32) (a : Fin 32) (s : BitVec 6) : Statement (.vshli d a s) := by
  have h0 := s.isLt; have h1 := a.isLt; have h2 := d.isLt
  refine ofWord _ _ rfl rfl (by simp only [pack]; omega) fun L w hL hf hw => ?_
  obtain ⟨e0, e1, e2, e3, e4, e5, e6⟩ := bits39 s.toNat a.val d.val 17 2 L w h0 h1 h2 (by decide) (by decide) (by simp only [pack] at hw; omega)
  simp [decodeNat, decodeWith, isAClass, flag, decodeA, decodeA11, e0, e1, e2, e3, e4, e5, e6, reg, imf]
theorem vshri (d : Fin 32) (a : Fin 32) (s : BitVec 6) : Statement (.vshri d a s) := by
  have h0 := s.isLt; have h1 := a.isLt; have h2 := d.isLt
  refine ofWord _ _ rfl rfl (by simp only [pack]; omega) fun L w hL hf hw => ?_
  obtain ⟨e0, e1, e2, e3, e4, e5, e6⟩ := bits39 s.toNat a.val d.val 17 3 L w h0 h1 h2 (by decide) (by decide) (by simp only [pack] at hw; omega)
  simp [decodeNat, decodeWith, isAClass, flag, decodeA, decodeA11, e0, e1, e2, e3, e4, e5, e6, reg, imf]
theorem wballot (d : Fin 32) (a : Fin 8) (b : Fin 32) (pr : Fin 8) : Statement (.wballot d a b pr) := by
  have h0 := pr.isLt; have h1 := b.isLt; have h2 := a.isLt; have h3 := d.isLt
  refine ofWord _ _ rfl rfl (by simp only [pack]; omega) fun L w hL hf hw => ?_
  obtain ⟨e0, e1, e2, e3, e4, e5, e6, e7, e8⟩ := bits54 pr.val b.val a.val d.val 18 0 L w h0 h1 h2 h3 (by decide) (by decide) (by simp only [pack] at hw; omega)
  simp [decodeNat, decodeWith, isAClass, flag, decodeA, decodeA12, e0, e1, e2, e3, e4, e5, e6, e7, e8, reg, preg]
theorem wany (d : Fin 8) (a : Fin 8) (b : Fin 32) (pr : Fin 8) : Statement (.wany d a b pr) := by
  have h0 := pr.isLt; have h1 := b.isLt; have h2 := a.isLt; have h3 := d.isLt
  refine ofWord _ _ rfl rfl (by simp only [pack]; omega) fun L w hL hf hw => ?_
  obtain ⟨e0, e1, e2, e3, e4, e5, e6, e7, e8, e9⟩ := bits55 pr.val b.val a.val d.val 18 1 L w h0 h1 h2 h3 (by decide) (by decide) (by simp only [pack] at hw; omega)
  simp [decodeNat, decodeWith, isAClass, flag, decodeA, decodeA12, e0, e1, e2, e3, e4, e5, e6, e7, e8, e9, reg, preg]
theorem wall (d : Fin 8) (a : Fin 8) (b : Fin 32) (pr : Fin 8) : Statement (.wall d a b pr) := by
  have h0 := pr.isLt; have h1 := b.isLt; have h2 := a.isLt; have h3 := d.isLt
  refine ofWord _ _ rfl rfl (by simp only [pack]; omega) fun L w hL hf hw => ?_
  obtain ⟨e0, e1, e2, e3, e4, e5, e6, e7, e8, e9⟩ := bits55 pr.val b.val a.val d.val 18 2 L w h0 h1 h2 h3 (by decide) (by decide) (by simp only [pack] at hw; omega)
  simp [decodeNat, decodeWith, isAClass, flag, decodeA, decodeA12, e0, e1, e2, e3, e4, e5, e6, e7, e8, e9, reg, preg]
theorem wshfl (d : Fin 32) (a : Fin 32) (b : Fin 32) (pr : Fin 8) : Statement (.wshfl d a b pr) := by
  have h0 := pr.isLt; have h1 := b.isLt; have h2 := a.isLt; have h3 := d.isLt
  refine ofWord _ _ rfl rfl (by simp only [pack]; omega) fun L w hL hf hw => ?_
  obtain ⟨e0, e1, e2, e3, e4, e5, e6, e7⟩ := bits45 pr.val b.val a.val d.val 18 3 3 L w h0 h1 h2 h3 (by decide) (by decide) (by decide) (by simp only [pack] at hw; omega)
  simp [decodeNat, decodeWith, isAClass, flag, decodeA, decodeA12, e0, e1, e2, e3, e4, e5, e6, e7, reg, preg]
theorem wshup (d : Fin 32) (a : Fin 32) (b : Fin 32) (pr : Fin 8) : Statement (.wshup d a b pr) := by
  have h0 := pr.isLt; have h1 := b.isLt; have h2 := a.isLt; have h3 := d.isLt
  refine ofWord _ _ rfl rfl (by simp only [pack]; omega) fun L w hL hf hw => ?_
  obtain ⟨e0, e1, e2, e3, e4, e5, e6, e7⟩ := bits45 pr.val b.val a.val d.val 18 4 3 L w h0 h1 h2 h3 (by decide) (by decide) (by decide) (by simp only [pack] at hw; omega)
  simp [decodeNat, decodeWith, isAClass, flag, decodeA, decodeA12, e0, e1, e2, e3, e4, e5, e6, e7, reg, preg]
theorem wshdn (d : Fin 32) (a : Fin 32) (b : Fin 32) (pr : Fin 8) : Statement (.wshdn d a b pr) := by
  have h0 := pr.isLt; have h1 := b.isLt; have h2 := a.isLt; have h3 := d.isLt
  refine ofWord _ _ rfl rfl (by simp only [pack]; omega) fun L w hL hf hw => ?_
  obtain ⟨e0, e1, e2, e3, e4, e5, e6, e7⟩ := bits45 pr.val b.val a.val d.val 18 5 3 L w h0 h1 h2 h3 (by decide) (by decide) (by decide) (by simp only [pack] at hw; omega)
  simp [decodeNat, decodeWith, isAClass, flag, decodeA, decodeA12, e0, e1, e2, e3, e4, e5, e6, e7, reg, preg]
theorem wbfly (d : Fin 32) (a : Fin 32) (b : Fin 32) (pr : Fin 8) : Statement (.wbfly d a b pr) := by
  have h0 := pr.isLt; have h1 := b.isLt; have h2 := a.isLt; have h3 := d.isLt
  refine ofWord _ _ rfl rfl (by simp only [pack]; omega) fun L w hL hf hw => ?_
  obtain ⟨e0, e1, e2, e3, e4, e5, e6, e7⟩ := bits45 pr.val b.val a.val d.val 18 6 3 L w h0 h1 h2 h3 (by decide) (by decide) (by decide) (by simp only [pack] at hw; omega)
  simp [decodeNat, decodeWith, isAClass, flag, decodeA, decodeA12, e0, e1, e2, e3, e4, e5, e6, e7, reg, preg]
theorem wsum (d : Fin 32) (a : Fin 32) (b : Fin 32) (t : View) (pr : Fin 8) : Statement (.wsum d a b t pr) := by
  have h0 := pr.isLt; have h1 := (View.code_lt t); have h2 := b.isLt; have h3 := a.isLt; have h4 := d.isLt
  refine ofWord _ _ rfl rfl (by simp only [pack]; omega) fun L w hL hf hw => ?_
  obtain ⟨e0, e1, e2, e3, e4, e5, e6, e7⟩ := bits42 pr.val t.code b.val a.val d.val 18 7 L w h0 h1 h2 h3 h4 (by decide) (by decide) (by simp only [pack] at hw; omega)
  simp [decodeNat, decodeWith, isAClass, flag, decodeA, decodeA12, e0, e1, e2, e3, e4, e5, e6, e7, reg, preg, View.ofCode_code]
theorem wmin (d : Fin 32) (a : Fin 32) (b : Fin 32) (t : View) (pr : Fin 8) : Statement (.wmin d a b t pr) := by
  have h0 := pr.isLt; have h1 := (View.code_lt t); have h2 := b.isLt; have h3 := a.isLt; have h4 := d.isLt
  refine ofWord _ _ rfl rfl (by simp only [pack]; omega) fun L w hL hf hw => ?_
  obtain ⟨e0, e1, e2, e3, e4, e5, e6, e7⟩ := bits42 pr.val t.code b.val a.val d.val 18 8 L w h0 h1 h2 h3 h4 (by decide) (by decide) (by simp only [pack] at hw; omega)
  simp [decodeNat, decodeWith, isAClass, flag, decodeA, decodeA12, e0, e1, e2, e3, e4, e5, e6, e7, reg, preg, View.ofCode_code]
theorem wmax (d : Fin 32) (a : Fin 32) (b : Fin 32) (t : View) (pr : Fin 8) : Statement (.wmax d a b t pr) := by
  have h0 := pr.isLt; have h1 := (View.code_lt t); have h2 := b.isLt; have h3 := a.isLt; have h4 := d.isLt
  refine ofWord _ _ rfl rfl (by simp only [pack]; omega) fun L w hL hf hw => ?_
  obtain ⟨e0, e1, e2, e3, e4, e5, e6, e7⟩ := bits42 pr.val t.code b.val a.val d.val 18 9 L w h0 h1 h2 h3 h4 (by decide) (by decide) (by simp only [pack] at hw; omega)
  simp [decodeNat, decodeWith, isAClass, flag, decodeA, decodeA12, e0, e1, e2, e3, e4, e5, e6, e7, reg, preg, View.ofCode_code]
theorem wscan (d : Fin 32) (a : Fin 32) (b : Fin 32) (t : View) (pr : Fin 8) : Statement (.wscan d a b t pr) := by
  have h0 := pr.isLt; have h1 := (View.code_lt t); have h2 := b.isLt; have h3 := a.isLt; have h4 := d.isLt
  refine ofWord _ _ rfl rfl (by simp only [pack]; omega) fun L w hL hf hw => ?_
  obtain ⟨e0, e1, e2, e3, e4, e5, e6, e7⟩ := bits42 pr.val t.code b.val a.val d.val 18 10 L w h0 h1 h2 h3 h4 (by decide) (by decide) (by simp only [pack] at hw; omega)
  simp [decodeNat, decodeWith, isAClass, flag, decodeA, decodeA12, e0, e1, e2, e3, e4, e5, e6, e7, reg, preg, View.ofCode_code]
theorem mshape (d : Fin 32) (a : Fin 32) : Statement (.mshape d a) := by
  have h0 := a.isLt; have h1 := d.isLt
  refine ofWord _ _ rfl rfl (by simp only [pack]; omega) fun L w hL hf hw => ?_
  obtain ⟨e0, e1, e2, e3, e4, e5, e6⟩ := bits37 a.val d.val 19 0 L w h0 h1 (by decide) (by decide) (by simp only [pack] at hw; omega)
  simp [decodeNat, decodeWith, isAClass, flag, decodeA, decodeA13, e0, e1, e2, e3, e4, e5, e6, reg]
theorem mclaim (d : Fin 32) : Statement (.mclaim d) := by
  have h0 := d.isLt
  refine ofWord _ _ rfl rfl (by simp only [pack]; omega) fun L w hL hf hw => ?_
  obtain ⟨e0, e1, e2, e3, e4, e5⟩ := bits56 d.val 19 1 L w h0 (by decide) (by decide) (by simp only [pack] at hw; omega)
  simp [decodeNat, decodeWith, isAClass, flag, decodeA, decodeA13, e0, e1, e2, e3, e4, e5, reg]
theorem mzero (n : Fin 32) : Statement (.mzero n) := by
  have h0 := n.isLt
  refine ofWord _ _ rfl rfl (by simp only [pack]; omega) fun L w hL hf hw => ?_
  obtain ⟨e0, e1, e2, e3, e4, e5⟩ := bits56 n.val 19 3 L w h0 (by decide) (by decide) (by simp only [pack] at hw; omega)
  simp [decodeNat, decodeWith, isAClass, flag, decodeA, decodeA13, e0, e1, e2, e3, e4, e5, reg]
theorem mgo (n : Fin 32) (a : Fin 32) (b : Fin 32) (r : Bool) : Statement (.mgo n a b r) := by
  have h0 := (bitNat_lt r); have h1 := b.isLt; have h2 := a.isLt; have h3 := n.isLt
  refine ofWord _ _ rfl rfl (by simp only [pack]; omega) fun L w hL hf hw => ?_
  obtain ⟨e0, e1, e2, e3, e4, e5, e6, e7, e8⟩ := bits57 (bitNat r) b.val a.val n.val 19 4 L w h0 h1 h2 h3 (by decide) (by decide) (by simp only [pack] at hw; omega)
  simp [decodeNat, decodeWith, isAClass, flag, decodeA, decodeA13, e0, e1, e2, e3, e4, e5, e6, e7, e8, reg, bitNat_eq_one]
theorem msc (a : Fin 32) : Statement (.msc a) := by
  have h0 := a.isLt
  refine ofWord _ _ rfl rfl (by simp only [pack]; omega) fun L w hL hf hw => ?_
  obtain ⟨e0, e1, e2, e3, e4, e5, e6⟩ := bits58 a.val 19 5 L w h0 (by decide) (by decide) (by simp only [pack] at hw; omega)
  simp [decodeNat, decodeWith, isAClass, flag, decodeA, decodeA13, e0, e1, e2, e3, e4, e5, e6, reg]
theorem mrd (d : Fin 32) (n : Fin 32) : Statement (.mrd d n) := by
  have h0 := n.isLt; have h1 := d.isLt
  refine ofWord _ _ rfl rfl (by simp only [pack]; omega) fun L w hL hf hw => ?_
  obtain ⟨e0, e1, e2, e3, e4, e5, e6⟩ := bits37 n.val d.val 19 6 L w h0 h1 (by decide) (by decide) (by simp only [pack] at hw; omega)
  simp [decodeNat, decodeWith, isAClass, flag, decodeA, decodeA13, e0, e1, e2, e3, e4, e5, e6, reg]
theorem mwr (n : Fin 32) (a : Fin 32) : Statement (.mwr n a) := by
  have h0 := a.isLt; have h1 := n.isLt
  refine ofWord _ _ rfl rfl (by simp only [pack]; omega) fun L w hL hf hw => ?_
  obtain ⟨e0, e1, e2, e3, e4, e5, e6⟩ := bits37 a.val n.val 19 7 L w h0 h1 (by decide) (by decide) (by simp only [pack] at hw; omega)
  simp [decodeNat, decodeWith, isAClass, flag, decodeA, decodeA13, e0, e1, e2, e3, e4, e5, e6, reg]
theorem rep (n : BitVec 4) (c : BitVec 5) (s : BitVec 5) : Statement (.rep n c s) := by
  have h0 := s.isLt; have h1 := c.isLt; have h2 := n.isLt
  refine ofWord _ _ rfl rfl (by simp only [pack]; omega) fun L w hL hf hw => ?_
  obtain ⟨e0, e1, e2, e3, e4, e5, e6, e7⟩ := bits59 s.toNat c.toNat n.toNat 19 8 L w h0 h1 h2 (by decide) (by decide) (by simp only [pack] at hw; omega)
  simp [decodeNat, decodeWith, isAClass, flag, decodeA, decodeA13, e0, e1, e2, e3, e4, e5, e6, e7, imf]
theorem bxt (d : Fin 32) (a : Fin 32) (b : Fin 32) (pr : Fin 8) : Statement (.bxt d a b pr) := by
  have h0 := pr.isLt; have h1 := b.isLt; have h2 := a.isLt; have h3 := d.isLt
  refine ofWord _ _ rfl rfl (by simp only [pack]; omega) fun L w hL hf hw => ?_
  obtain ⟨e0, e1, e2, e3, e4, e5, e6, e7⟩ := bits60 pr.val b.val a.val d.val 20 0 L w h0 h1 h2 h3 (by decide) (by decide) (by simp only [pack] at hw; omega)
  simp [decodeNat, decodeWith, isAClass, flag, decodeA, decodeA14, e0, e1, e2, e3, e4, e5, e6, e7, reg, preg, whenLegal, hf]
theorem trix (d : Fin 32) (a : Fin 32) (b : Fin 32) (c : Cull) (pr : Fin 8) : Statement (.trix d a b c pr) := by
  have h0 := pr.isLt; have h1 := (Cull.code_lt c); have h2 := b.isLt; have h3 := a.isLt; have h4 := d.isLt
  refine ofWord _ _ rfl rfl (by simp only [pack]; omega) fun L w hL hf hw => ?_
  obtain ⟨e0, e1, e2, e3, e4, e5, e6, e7⟩ := bits42 pr.val c.code b.val a.val d.val 20 1 L w h0 h1 h2 h3 h4 (by decide) (by decide) (by simp only [pack] at hw; omega)
  simp [decodeNat, decodeWith, isAClass, flag, decodeA, decodeA14, e0, e1, e2, e3, e4, e5, e6, e7, reg, preg, Cull.ofCode_code, whenLegal, hf]
theorem cdec (d : Fin 32) (a : Fin 32) (b : Fin 32) (pr : Fin 8) : Statement (.cdec d a b pr) := by
  have h0 := pr.isLt; have h1 := b.isLt; have h2 := a.isLt; have h3 := d.isLt
  refine ofWord _ _ rfl rfl (by simp only [pack]; omega) fun L w hL hf hw => ?_
  obtain ⟨e0, e1, e2, e3, e4, e5, e6, e7⟩ := bits60 pr.val b.val a.val d.val 20 2 L w h0 h1 h2 h3 (by decide) (by decide) (by simp only [pack] at hw; omega)
  simp [decodeNat, decodeWith, isAClass, flag, decodeA, decodeA14, e0, e1, e2, e3, e4, e5, e6, e7, reg, preg, whenLegal, hf]
theorem rbase (d : Fin 32) (a : Fin 32) (b : Fin 32) (pr : Fin 8) : Statement (.rbase d a b pr) := by
  have h0 := pr.isLt; have h1 := b.isLt; have h2 := a.isLt; have h3 := d.isLt
  refine ofWord _ _ rfl rfl (by simp only [pack]; omega) fun L w hL hf hw => ?_
  obtain ⟨e0, e1, e2, e3, e4, e5, e6, e7⟩ := bits60 pr.val b.val a.val d.val 20 3 L w h0 h1 h2 h3 (by decide) (by decide) (by simp only [pack] at hw; omega)
  simp [decodeNat, decodeWith, isAClass, flag, decodeA, decodeA14, e0, e1, e2, e3, e4, e5, e6, e7, reg, preg]
theorem cov (d : Fin 32) (a : Fin 32) (b : Fin 32) (c : Cull) (pr : Fin 8) : Statement (.cov d a b c pr) := by
  have h0 := pr.isLt; have h1 := (Cull.code_lt c); have h2 := b.isLt; have h3 := a.isLt; have h4 := d.isLt
  refine ofWord _ _ rfl rfl (by simp only [pack]; omega) fun L w hL hf hw => ?_
  obtain ⟨e0, e1, e2, e3, e4, e5, e6, e7⟩ := bits42 pr.val c.code b.val a.val d.val 20 4 L w h0 h1 h2 h3 h4 (by decide) (by decide) (by simp only [pack] at hw; omega)
  simp [decodeNat, decodeWith, isAClass, flag, decodeA, decodeA14, e0, e1, e2, e3, e4, e5, e6, e7, reg, preg, Cull.ofCode_code, whenLegal, hf]
theorem hcmp (d : Fin 32) (a : Fin 32) (b : Fin 32) (pr : Fin 8) : Statement (.hcmp d a b pr) := by
  have h0 := pr.isLt; have h1 := b.isLt; have h2 := a.isLt; have h3 := d.isLt
  refine ofWord _ _ rfl rfl (by simp only [pack]; omega) fun L w hL hf hw => ?_
  obtain ⟨e0, e1, e2, e3, e4, e5, e6, e7⟩ := bits60 pr.val b.val a.val d.val 20 5 L w h0 h1 h2 h3 (by decide) (by decide) (by simp only [pack] at hw; omega)
  simp [decodeNat, decodeWith, isAClass, flag, decodeA, decodeA14, e0, e1, e2, e3, e4, e5, e6, e7, reg, preg, whenLegal, hf]
theorem nopC : Statement .nopC := by
  refine ofWord _ _ rfl rfl (by simp only [pack]; omega) fun L w hL hf hw => ?_
  obtain ⟨e0, e1, e2, e3⟩ := bits61  0 0 L w  (by decide) (by decide) (by simp only [pack] at hw; omega)
  simp [decodeNat, decodeWith, isAClass, flag, decodeC, decodeC00, e0, e1, e2, e3]
theorem ret : Statement .ret := by
  refine ofWord _ _ rfl rfl (by simp only [pack]; omega) fun L w hL hf hw => ?_
  obtain ⟨e0, e1, e2, e3, e4⟩ := bits62  6 2 L w  (by decide) (by decide) (by simp only [pack] at hw; omega)
  simp [decodeNat, decodeWith, isAClass, flag, decodeC, decodeC06, e0, e1, e2, e3, e4]
theorem fim : Statement .fim := by
  refine ofWord _ _ rfl rfl (by simp only [pack]; omega) fun L w hL hf hw => ?_
  obtain ⟨e0, e1, e2, e3, e4⟩ := bits62  7 2 L w  (by decide) (by decide) (by simp only [pack] at hw; omega)
  simp [decodeNat, decodeWith, isAClass, flag, decodeC, decodeC07, e0, e1, e2, e3, e4]
theorem cyield : Statement .cyield := by
  refine ofWord _ _ rfl rfl (by simp only [pack]; omega) fun L w hL hf hw => ?_
  obtain ⟨e0, e1, e2, e3, e4⟩ := bits62  8 3 L w  (by decide) (by decide) (by simp only [pack] at hw; omega)
  simp [decodeNat, decodeWith, isAClass, flag, decodeC, decodeC08, e0, e1, e2, e3, e4]
theorem cexit : Statement .cexit := by
  refine ofWord _ _ rfl rfl (by simp only [pack]; omega) fun L w hL hf hw => ?_
  obtain ⟨e0, e1, e2, e3, e4⟩ := bits62  8 4 L w  (by decide) (by decide) (by simp only [pack] at hw; omega)
  simp [decodeNat, decodeWith, isAClass, flag, decodeC, decodeC08, e0, e1, e2, e3, e4]
theorem ifence : Statement .ifence := by
  refine ofWord _ _ rfl rfl (by simp only [pack]; omega) fun L w hL hf hw => ?_
  obtain ⟨e0, e1, e2, e3, e4⟩ := bits62  14 1 L w  (by decide) (by decide) (by simp only [pack] at hw; omega)
  simp [decodeNat, decodeWith, isAClass, flag, decodeC, decodeC0e, e0, e1, e2, e3, e4]
theorem xsync : Statement .xsync := by
  refine ofWord _ _ rfl rfl (by simp only [pack]; omega) fun L w hL hf hw => ?_
  obtain ⟨e0, e1, e2, e3, e4⟩ := bits62  17 2 L w  (by decide) (by decide) (by simp only [pack] at hw; omega)
  simp [decodeNat, decodeWith, isAClass, flag, decodeC, decodeC11, e0, e1, e2, e3, e4]
theorem gbar : Statement .gbar := by
  refine ofWord _ _ rfl rfl (by simp only [pack]; omega) fun L w hL hf hw => ?_
  obtain ⟨e0, e1, e2, e3, e4⟩ := bits62  17 3 L w  (by decide) (by decide) (by simp only [pack] at hw; omega)
  simp [decodeNat, decodeWith, isAClass, flag, decodeC, decodeC11, e0, e1, e2, e3, e4]
theorem nopA : Statement .nopA := by
  refine ofWord _ _ rfl rfl (by simp only [pack]; omega) fun L w hL hf hw => ?_
  obtain ⟨e0, e1, e2, e3, e4⟩ := bits63  0 0 L w  (by decide) (by decide) (by simp only [pack] at hw; omega)
  simp [decodeNat, decodeWith, isAClass, flag, decodeA, decodeA00, e0, e1, e2, e3, e4]
theorem mrel : Statement .mrel := by
  refine ofWord _ _ rfl rfl (by simp only [pack]; omega) fun L w hL hf hw => ?_
  obtain ⟨e0, e1, e2, e3, e4⟩ := bits63  19 2 L w  (by decide) (by decide) (by simp only [pack] at hw; omega)
  simp [decodeNat, decodeWith, isAClass, flag, decodeA, decodeA13, e0, e1, e2, e3, e4]
theorem repe : Statement .repe := by
  refine ofWord _ _ rfl rfl (by simp only [pack]; omega) fun L w hL hf hw => ?_
  obtain ⟨e0, e1, e2, e3, e4⟩ := bits63  19 9 L w  (by decide) (by decide) (by simp only [pack] at hw; omega)
  simp [decodeNat, decodeWith, isAClass, flag, decodeA, decodeA13, e0, e1, e2, e3, e4]
theorem illegalBundle : Statement .illegalBundle := ofEvent _ rfl rfl
theorem sfuResultRetire : Statement .sfuResultRetire := ofEvent _ rfl rfl
theorem windowRequest : Statement .windowRequest := ofEvent _ rfl rfl
theorem windowResponse : Statement .windowResponse := ofEvent _ rfl rfl
theorem parkedResume : Statement .parkedResume := ofEvent _ rfl rfl
theorem c0CompletionReport : Statement .c0CompletionReport := ofEvent _ rfl rfl
theorem waveFormation : Statement .waveFormation := ofEvent _ rfl rfl
theorem partialWaveTimeout : Statement .partialWaveTimeout := ofEvent _ rfl rfl
theorem waveInstancePerform : Statement .waveInstancePerform := ofEvent _ rfl rfl
theorem wsyncComplete : Statement .wsyncComplete := ofEvent _ rfl rfl
theorem gangBarrierComplete : Statement .gangBarrierComplete := ofEvent _ rfl rfl
theorem matrixOpStart : Statement .matrixOpStart := ofEvent _ rfl rfl
theorem scaleFifoConsume : Statement .scaleFifoConsume := ofEvent _ rfl rfl
theorem matrixOpEnd : Statement .matrixOpEnd := ofEvent _ rfl rfl
theorem replayIssue : Statement .replayIssue := ofEvent _ rfl rfl
theorem flitInject : Statement .flitInject := ofEvent _ rfl rfl
theorem xredChainAdd : Statement .xredChainAdd := ofEvent _ rfl rfl
theorem flitLanding : Statement .flitLanding := ofEvent _ rfl rfl
theorem xlongPhaseEnd : Statement .xlongPhaseEnd := ofEvent _ rfl rfl
theorem xsyncComplete : Statement .xsyncComplete := ofEvent _ rfl rfl
theorem inboxArrival : Statement .inboxArrival := ofEvent _ rfl rfl
theorem hitSorterArrival : Statement .hitSorterArrival := ofEvent _ rfl rfl
theorem mailboxArrival : Statement .mailboxArrival := ofEvent _ rfl rfl
theorem overflowReturn : Statement .overflowReturn := ofEvent _ rfl rfl
theorem copyRequestReceipt : Statement .copyRequestReceipt := ofEvent _ rfl rfl
theorem copySectorWrite : Statement .copySectorWrite := ofEvent _ rfl rfl
theorem copyComplete : Statement .copyComplete := ofEvent _ rfl rfl
theorem heatRaise : Statement .heatRaise := ofEvent _ rfl rfl
theorem sweeperHalving : Statement .sweeperHalving := ofEvent _ rfl rfl
theorem pageRequestGroup : Statement .pageRequestGroup := ofEvent _ rfl rfl
theorem pageRequestResponse : Statement .pageRequestResponse := ofEvent _ rfl rfl
theorem rdcSectorUpdate : Statement .rdcSectorUpdate := ofEvent _ rfl rfl
theorem iredFold : Statement .iredFold := ofEvent _ rfl rfl
theorem iredCombine : Statement .iredCombine := ofEvent _ rfl rfl
theorem geckoWalkStart : Statement .geckoWalkStart := ofEvent _ rfl rfl
theorem geckoMigration : Statement .geckoMigration := ofEvent _ rfl rfl
theorem geckoStepLimit : Statement .geckoStepLimit := ofEvent _ rfl rfl
theorem geckoWalkEnd : Statement .geckoWalkEnd := ofEvent _ rfl rfl
theorem rakeCommand : Statement .rakeCommand := ofEvent _ rfl rfl
theorem rakeCompletion : Statement .rakeCompletion := ofEvent _ rfl rfl
theorem chameleonCommand : Statement .chameleonCommand := ofEvent _ rfl rfl
theorem chameleonWindowAck : Statement .chameleonWindowAck := ofEvent _ rfl rfl
theorem chameleonEnd : Statement .chameleonEnd := ofEvent _ rfl rfl
theorem rayAtHome : Statement .rayAtHome := ofEvent _ rfl rfl
theorem rayArrival : Statement .rayArrival := ofEvent _ rfl rfl
theorem salternCacheFill : Statement .salternCacheFill := ofEvent _ rfl rfl
theorem pageIn : Statement .pageIn := ofEvent _ rfl rfl
theorem evictionIdleCheck : Statement .evictionIdleCheck := ofEvent _ rfl rfl
theorem treeletFillComplete : Statement .treeletFillComplete := ofEvent _ rfl rfl
theorem initialPin : Statement .initialPin := ofEvent _ rfl rfl
theorem heatPeriodEnd : Statement .heatPeriodEnd := ofEvent _ rfl rfl
theorem lport : Statement .lport := ofEvent _ rfl rfl
theorem launchValidate : Statement .launchValidate := ofEvent _ rfl rfl
theorem waitWordCheck : Statement .waitWordCheck := ofEvent _ rfl rfl
theorem launchSelection : Statement .launchSelection := ofEvent _ rfl rfl
theorem panGrant : Statement .panGrant := ofEvent _ rfl rfl
theorem c0Start : Statement .c0Start := ofEvent _ rfl rfl
theorem swapOut : Statement .swapOut := ofEvent _ rfl rfl
theorem groupRestore : Statement .groupRestore := ofEvent _ rfl rfl
theorem preemptDelivery : Statement .preemptDelivery := ofEvent _ rfl rfl
theorem deferredHalt : Statement .deferredHalt := ofEvent _ rfl rfl
theorem coreSave : Statement .coreSave := ofEvent _ rfl rfl
theorem groupRetirement : Statement .groupRetirement := ofEvent _ rfl rfl
theorem launchEnd : Statement .launchEnd := ofEvent _ rfl rfl
theorem iqtail : Statement .iqtail := ofEvent _ rfl rfl
theorem invalidationStart : Statement .invalidationStart := ofEvent _ rfl rfl
theorem invalidationComplete : Statement .invalidationComplete := ofEvent _ rfl rfl
theorem atsInvalidateRequest : Statement .atsInvalidateRequest := ofEvent _ rfl rfl
theorem atsInvalidateCompletion : Statement .atsInvalidateCompletion := ofEvent _ rfl rfl
theorem atsTranslationResponse : Statement .atsTranslationResponse := ofEvent _ rfl rfl
theorem pmap : Statement .pmap := ofEvent _ rfl rfl
theorem registerWrite : Statement .registerWrite := ofEvent _ rfl rfl
theorem hostBar2Access : Statement .hostBar2Access := ofEvent _ rfl rfl
theorem priReset : Statement .priReset := ofEvent _ rfl rfl
theorem lenboFlitReceive : Statement .lenboFlitReceive := ofEvent _ rfl rfl
theorem lenboNak : Statement .lenboNak := ofEvent _ rfl rfl
theorem lenboLaneLoss : Statement .lenboLaneLoss := ofEvent _ rfl rfl
theorem lenboLinkDown : Statement .lenboLinkDown := ofEvent _ rfl rfl
theorem lenboPacketReceive : Statement .lenboPacketReceive := ofEvent _ rfl rfl
theorem lenboRetransmitTimeout : Statement .lenboRetransmitTimeout := ofEvent _ rfl rfl
theorem epochRefusal : Statement .epochRefusal := ofEvent _ rfl rfl
theorem lenboRequestGiveUp : Statement .lenboRequestGiveUp := ofEvent _ rfl rfl
theorem lenboCreditReturn : Statement .lenboCreditReturn := ofEvent _ rfl rfl
theorem widthreq : Statement .widthreq := ofEvent _ rfl rfl
theorem scrub : Statement .scrub := ofEvent _ rfl rfl
theorem repeatedCorrection : Statement .repeatedCorrection := ofEvent _ rfl rfl
theorem brineDivergence : Statement .brineDivergence := ofEvent _ rfl rfl
theorem dbgctlStop : Statement .dbgctlStop := ofEvent _ rfl rfl
theorem dbgctlDump : Statement .dbgctlDump := ofEvent _ rfl rfl
theorem dbgctlLoad : Statement .dbgctlLoad := ofEvent _ rfl rfl
theorem dbgctlResume : Statement .dbgctlResume := ofEvent _ rfl rfl
theorem thermalWarning : Statement .thermalWarning := ofEvent _ rfl rfl
theorem thermalTrip : Statement .thermalTrip := ofEvent _ rfl rfl
theorem thermalRecover : Statement .thermalRecover := ofEvent _ rfl rfl
theorem thermalPowerOff : Statement .thermalPowerOff := ofEvent _ rfl rfl
theorem powerUp : Statement .powerUp := ofEvent _ rfl rfl
theorem fundamentalReset : Statement .fundamentalReset := ofEvent _ rfl rfl
theorem functionLevelReset : Statement .functionLevelReset := ofEvent _ rfl rfl
theorem getVersion : Statement .getVersion := ofEvent _ rfl rfl
theorem getCapabilities : Statement .getCapabilities := ofEvent _ rfl rfl
theorem negotiateAlgorithms : Statement .negotiateAlgorithms := ofEvent _ rfl rfl
theorem getDigests : Statement .getDigests := ofEvent _ rfl rfl
theorem getCertificate : Statement .getCertificate := ofEvent _ rfl rfl
theorem challenge : Statement .challenge := ofEvent _ rfl rfl
theorem getMeasurements : Statement .getMeasurements := ofEvent _ rfl rfl
theorem powerOff : Statement .powerOff := ofEvent _ rfl rfl

end Laws.RoundTrip

end Sys2Proof
end

