-- ==== Sys2Proof/Safety.lean ====
section
/-! DEFINITION. What counts as a safe step, and the words in which claims say what an instruction leaves alone: the
frames of an instruction that writes registers only, of one that moves the PC only, and of one that stores. -/

namespace Sys2Proof

open Sys2Proof.Machine

/-- The state is in canonical form: memory lists no address twice and no zero byte. -/
def Machine.State.wf (s : State) : Prop := Memory.wf s.mem = true

/-- A step that goes on. -/
def Machine.State.goesOn (s : State) : Prop := ∃ t, step s = .next t

/-- The byte of the package's memory at a key, as a load reads it. -/
def Machine.State.byteAt (s : State) (a : Nat) : Byte := memGet s.mem a

/-- Nothing changes outside the issuing context, save KLATENT of its core: no byte of memory, no poison bit, no other
core, no other context of the core, no other per-core register, accumulator, queue or tag, no device. -/
structure Machine.State.ctxOnly (s t : State) : Prop where
  rest : t = { s with cores := t.cores }
  mem : ∀ a, t.byteAt a = s.byteAt a
  cores : ∀ n, n ≠ s.cur.core → t.core n = s.core n
  core : t.here = { s.here with ctxs := t.here.ctxs, klatent := t.here.klatent }
  ctxs : ∀ c : Fin 11, c ≠ s.cur.ctx → t.here.ctxs[c] = s.here.ctxs[c]

/-- Of the issuing context only general registers and their marks change: no K-register, mask, stack entry, mode or
pending mark, and not the PC. -/
structure Machine.State.regsOnly (s t : State) : Prop extends s.ctxOnly t where
  regs : t.cx = { s.cx with r := t.cx.r }

/-- gD holds `x`, with `mark`; g0 stays 0 (R13). Every other register and mark stays. -/
structure Machine.State.gotG (s t : State) (d : Fin 32) (x : Word) (mark : Bool) : Prop extends s.regsOnly t where
  value : t.cx.g d = if d = 0 then 0 else x
  marked : t.cx.gBad d = (decide (d ≠ 0) && mark)
  other : ∀ r, r ≠ d → t.cx.g r = s.cx.g r ∧ t.cx.gBad r = s.cx.gBad r
  vregs : t.cx.r.v = s.cx.r.v ∧ t.cx.r.vMark = s.cx.r.vMark
  pregs : t.cx.r.p = s.cx.r.p ∧ t.cx.r.pMark = s.cx.r.pMark

/-- The lanes `m` of vD hold `x`, with the marks `marks`; its other lanes, every other register and mark stay. -/
structure Machine.State.gotV (s t : State) (d : Fin 32) (m : Mask) (x : Nat → Word) (marks : Mask) : Prop
    extends s.regsOnly t where
  value : ∀ l, l < 4 → lane l (t.cx.v d) = if bitOf m l then x l else lane l (s.cx.v d)
  marked : t.cx.vBad d = (s.cx.vBad d &&& ~~~m) ||| (marks &&& m)
  other : ∀ r, r ≠ d → t.cx.v r = s.cx.v r ∧ t.cx.vBad r = s.cx.vBad r
  gregs : t.cx.r.g = s.cx.r.g ∧ t.cx.r.gMark = s.cx.r.gMark
  pregs : t.cx.r.p = s.cx.r.p ∧ t.cx.r.pMark = s.cx.r.pMark

/-- The bits `m` of pD are those of `x`; p0 stays 0xF (R13). Its other bits and every other register stay. -/
structure Machine.State.gotP (s t : State) (d : Fin 8) (m : Mask) (x : Nat → Bool) : Prop extends s.regsOnly t where
  value : ∀ l, l < 4 → bitOf (t.cx.p d) l = if d ≠ 0 ∧ bitOf m l then x l else bitOf (s.cx.p d) l
  other : ∀ r, r ≠ d → t.cx.p r = s.cx.p r ∧ t.cx.pBad r = s.cx.pBad r
  gregs : t.cx.r.g = s.cx.r.g ∧ t.cx.r.gMark = s.cx.r.gMark
  vregs : t.cx.r.v = s.cx.r.v ∧ t.cx.r.vMark = s.cx.r.vMark

/-- The issuing context becomes `x`, and nothing else changes, KLATENT included. -/
structure Machine.State.became (s t : State) (x : Context) : Prop extends s.ctxOnly t where
  cx : t.cx = x
  count : t.here.klatent = s.here.klatent

/-- Only the PC of the issuing context changes: it becomes `a`. -/
def Machine.State.wentTo (s t : State) (a : Off) : Prop := s.became t { s.cx with pc := a }

/-- A trap of the issuing context would be one of the bundle at the trap entry in supervisor mode, which stops the core
instead (R110, R221). -/
def Machine.State.doubleFault (s : State) : Prop := s.cx.mode = true ∧ s.cur.p = trapEntry s.here.kstvec

/-- The issuing context has taken a trap: KCAUSE, KEPC and KADDR hold what is given, PMODE the old mode, the mode is
supervisor and the PC is KSTVEC[11:2] × 4; its registers, masks and stacks, KLRES, the KLFn registers, memory and every
other context stay (R22, R110). -/
structure Machine.State.tookTrap (s t : State) (cause : Word) (epc : Off) (addr : Word) : Prop where
  cause : t.cx.k.cause = cause
  epc : t.cx.k.epc = epc.setWidth 64
  addr : t.cx.k.addr = addr
  mode : t.cx.mode = true
  pmode : t.cx.pmode = s.cx.mode
  pc : t.cx.pc = trapEntry s.here.kstvec
  regs : t.cx.r = s.cx.r ∧ t.cx.f = s.cx.f ∧ t.cx.k.lres = s.cx.k.lres ∧ t.cx.k.lf = s.cx.k.lf
  others : ∀ c : Fin 11, c ≠ s.cur.ctx → t.here.ctxs[c] = s.here.ctxs[c]
  cores : ∀ n, n ≠ s.cur.core → t.core n = s.core n
  mem : ∀ a, t.byteAt a = s.byteAt a
  ended : t.cur.trapped = true

/-- KCAUSE of a fault that is not lane-precise: the code, and PAIR for the A-word of a pair (R22, R35). -/
def Machine.State.faultCause (s : State) (c : Cause) : Word :=
  c.setWidth 64 ||| (ofBool 64 (s.cur.pair && s.cur.isA) <<< 15)

/-- The instruction takes an execution fault with a cause and an address and has no other effect. -/
def Machine.State.faults (s : State) (i : Instr) (c : Cause) (addr : Word) : Prop :=
  ∃ t, exec i s = .next t ∧ s.tookTrap t (s.faultCause c) s.cur.at_ (addr &&& 0x00FFFFFFFFFFFFFF)

/-- Nothing stands in the way of an ordinary trap: the bundle is not the one at the trap entry in supervisor mode, and
the word is not a replayed one. -/
def Machine.State.plain (s : State) : Prop := ¬ s.doubleFault ∧ s.cur.replay = none

/-- The word reads the registers of its context as they stand: it is not the A-word of a pair, which reads those before
the bundle (R34), and no `tret` limits its lanes (R112). -/
def Machine.State.first (s : State) : Prop := s.cur.snap = none ∧ s.cur.lanes = 0xF

/-- The instruction answers a next state with a property. -/
def Machine.State.does (s : State) (i : Instr) (P : State → Prop) : Prop := ∃ t, exec i s = .next t ∧ P t

/-- The instruction writes `x` to gD, unmarked, and does nothing else. -/
def Machine.State.writesG (s : State) (i : Instr) (d : Fin 32) (x : Word) : Prop :=
  s.does i fun t => s.gotG t d x false

/-- The instruction writes `x l` to every lane l of `m` of vD, unmarked, and does nothing else. -/
def Machine.State.writesV (s : State) (i : Instr) (d : Fin 32) (m : Mask) (x : Nat → Word) : Prop :=
  s.does i fun t => s.gotV t d m x 0

/-- The instruction moves the PC to `a` and does nothing else. -/
def Machine.State.goesTo (s : State) (i : Instr) (a : Off) : Prop := s.does i fun t => s.wentTo t a

/-- No register of the list is poisoned for the instruction. -/
def Machine.State.cleanG (s : State) (rs : List (Fin 32)) : Prop := ∀ r ∈ rs, s.src.gBad r = false

/-- The governing predicate is not poisoned, and no lane of the registers that an active lane reads is. -/
def Machine.State.cleanV (s : State) (pr : Fin 8) (rs : List (Fin 32)) : Prop :=
  s.src.pBad pr = false ∧ ∀ r ∈ rs, s.src.vBad r &&& s.active pr = 0

/-- The instruction writes the lanes `m` of vD, unmarked, and nothing else: element e of lane l, of w bits, is `x l e`. -/
def Machine.State.writesEls (s : State) (i : Instr) (d : Fin 32) (m : Mask) (w : Nat) (x : Nat → Nat → Nat) : Prop :=
  ∃ y, s.writesV i d m y ∧ ∀ l e, l < 4 → bitOf m l → e < 64 / w → el w e (y l) = x l e

/-- The instruction writes the bits `m` of pD, and nothing else. -/
def Machine.State.writesP (s : State) (i : Instr) (d : Fin 8) (m : Mask) (x : Nat → Bool) : Prop :=
  s.does i fun t => s.gotP t d m x

/-- The flags an instruction raises: one is raised when some element of an active lane raises it (R72). -/
def Machine.flagsOf (m : Mask) (n : Nat) (fl : Nat → Nat → Flags) (all : Flags) : Prop :=
  ∀ b, all.getLsbD b = true ↔ ∃ l e, l < 4 ∧ bitOf m l ∧ e < n ∧ (fl l e).getLsbD b = true

/-- The instruction writes the codes of n results to the low elements of the lanes `m` of vD, zero above them, and
raises their flags in KFPC; nothing else of `base` changes. -/
def Machine.State.writesF (s : State) (i : Instr) (base : State) (d : Fin 32) (m : Mask) (w n : Nat)
    (res : Nat → Nat → FRes) : Prop :=
  ∃ u y fl, base.gotV u d m y 0 ∧ exec i s = .next (u.raise fl) ∧ flagsOf m n (fun l e => (res l e).flags) fl ∧
    ∀ l e, l < 4 → bitOf m l → e < 64 / w → el w e (y l) = if e < n then (res l e).code % 2 ^ w else 0

/-- The n bytes from a key up become `b 0`, `b 1`, …; every other byte of memory stays. -/
def Machine.State.gotMem (s t : State) (key n : Nat) (b : Nat → Byte) : Prop :=
  (∀ k, k < n → t.byteAt (key + k) = b k) ∧ ∀ a, a < key ∨ key + n ≤ a → t.byteAt a = s.byteAt a

/-- Byte k of a number. -/
def byteOf (x k : Nat) : Byte := BitVec.ofNat 8 (x / 256 ^ k)

/-- Nothing changes but memory and what a write to it invalidates: fetch buffers may lose bundles (R149, R225), and the
older bytes of recent window stores, which are the model's own (log 30), may go. -/
structure Machine.State.memOnly (s t : State) : Prop where
  rest : t = { s with mem := t.mem, cores := t.cores }
  core : ∀ n, t.core n = { s.core n with past := (t.core n).past, ctxs := (t.core n).ctxs }
  ctxs : ∀ n (c : Fin 11), t.ctx n c = { s.ctx n c with fbuf := (t.ctx n c).fbuf }
  fbuf : ∀ n (c : Fin 11), (t.ctx n c).fbuf.Sublist (s.ctx n c).fbuf
  past : ∀ n, (t.core n).past.Sublist (s.core n).past

/-- No fetch buffer of core n holds a bundle of a sector that `size` bytes at `a` touch. -/
def Machine.State.refetches (t : State) (n a size : Nat) : Prop :=
  ∀ (c : Fin 11), ∀ b ∈ (t.ctx n c).fbuf, inSectors a size b = false

/-- The instruction stores n bytes of a number at offset `a` of its own ULM, and does nothing else but let what lies in
their sectors be fetched again. -/
def Machine.State.stores (s : State) (i : Instr) (a n x : Nat) : Prop :=
  s.does i fun t => s.memOnly t ∧ t.refetches s.cur.core a n ∧ s.gotMem t (ulmKey s.cur.core a) n (byteOf x)

/-- A window request leaves the issuing context: an entry of the core's table, its destination pending, the request on
its way; nothing else changes. -/
def Machine.State.sentWindow (s t : State) (e : WinEntry) : Prop :=
  t = { s with
    cores := t.cores, nextId := s.nextId + 1,
    agenda := s.agenda ++ [{ op := .windowRequest, arg := { core := s.cur.core, id := s.nextId }, lane := 0 }] } ∧
  t.here = { s.here with win := s.here.win ++ [e], ctxs := t.here.ctxs } ∧ t.cx = s.cx.pend e.dst true ∧
  (∀ c : Fin 11, c ≠ s.cur.ctx → t.here.ctxs[c] = s.here.ctxs[c]) ∧ ∀ n, n ≠ s.cur.core → t.core n = s.core n

/-- Nothing holds a local access of the issuing core: no copy range, no window access, no flit still to be read, no landing
and no read of B at its port in this tick. -/
def Machine.State.calm (s : State) : Prop :=
  (∀ i : Fin 16, s.here.tags[i].dst = none ∧ s.here.tags[i].src = none ∧ s.here.tags[i].parked = [] ∧
    s.here.tags[i].failed = []) ∧
  s.here.win = [] ∧ (s.group s.here.group).xsends = [] ∧ (s.group s.here.group).contribs = [] ∧
  s.portTaken s.cur.core = false

/-- A finite value as a rational; an infinity and a NaN count as 0. -/
def Machine.FVal.rat : FVal → ℚ
  | .num n m e => (if n then -1 else 1) * (m : ℚ) * (2 : ℚ) ^ e
  | _ => 0

/-- The value of an f32 code, and whether it has one. -/
def rat32 (c : Nat) : ℚ := (fmtF32.value c).rat
def finite32 (c : Nat) : Prop := ∃ n m e, fmtF32.value c = .num n m e

/-- An f32 code is a nearest one to a number; the largest not above it; the smallest not below it. -/
def nearest32 (c : Nat) (x : ℚ) : Prop := finite32 c ∧ ∀ z, z < 2 ^ 32 → finite32 z → |rat32 c - x| ≤ |rat32 z - x|
def below32 (c : Nat) (x : ℚ) : Prop :=
  finite32 c ∧ rat32 c ≤ x ∧ ∀ z, z < 2 ^ 32 → finite32 z → rat32 z ≤ x → rat32 z ≤ rat32 c
def above32 (c : Nat) (x : ℚ) : Prop :=
  finite32 c ∧ x ≤ rat32 c ∧ ∀ z, z < 2 ^ 32 → finite32 z → x ≤ rat32 z → rat32 c ≤ rat32 z

end Sys2Proof
end

