-- ==== Sys2Proof/Certificates/Slice0/Obligations.lean ====
section
/-! DEFINITION. The obligations: what the manual's rules say the machine does, one statement each. A statement about an
instruction says under which conditions on the state and the operands it completes, what it then leaves, and what it
leaves alone. -/

open Sys2Proof Sys2Proof.Machine

/-- R87: the sixteen operations of A major 0x01 on 64-bit values; nothing but gD changes. -/
def Obligations.AluThreeRegister : Prop :=
  ∀ (s : State) (d a b : Fin 32), s.cleanG [a, b] →
    let x := s.src.g a
    let y := s.src.g b
    let n := y.toNat % 64
    s.writesG (.add d a b) d (x + y) ∧ s.writesG (.sub d a b) d (x - y) ∧
    s.writesG (.and d a b) d (x &&& y) ∧ s.writesG (.or d a b) d (x ||| y) ∧
    s.writesG (.xor d a b) d (x ^^^ y) ∧ s.writesG (.andn d a b) d (x &&& ~~~y) ∧
    s.writesG (.shl d a b) d (x <<< n) ∧ s.writesG (.shr d a b) d (x >>> n) ∧
    s.writesG (.sar d a b) d (x.sshiftRight n) ∧ s.writesG (.rol d a b) d (x.rotateLeft n) ∧
    s.writesG (.min d a b) d (if x.toInt ≤ y.toInt then x else y) ∧
    s.writesG (.max d a b) d (if x.toInt ≤ y.toInt then y else x) ∧
    s.writesG (.minu d a b) d (if x.toNat ≤ y.toNat then x else y) ∧
    s.writesG (.maxu d a b) d (if x.toNat ≤ y.toNat then y else x) ∧
    s.writesG (.slt d a b) d (if x.toInt < y.toInt then 1 else 0) ∧
    s.writesG (.sltu d a b) d (if x.toNat < y.toNat then 1 else 0)

/-- R88: products and quotients of A major 0x02, with the special cases of its table. -/
def Obligations.MultiplyDivide : Prop :=
  ∀ (s : State) (d a b : Fin 32), s.cleanG [a, b] →
    let x := s.src.g a
    let y := s.src.g b
    s.writesG (.mul d a b) d (BitVec.ofNat 64 (x.toNat * y.toNat)) ∧
    s.writesG (.mulh d a b) d (BitVec.extractLsb' 64 64 (x.signExtend 128 * y.signExtend 128)) ∧
    s.writesG (.mulhu d a b) d (BitVec.extractLsb' 64 64 (x.setWidth 128 * y.setWidth 128)) ∧
    s.writesG (.div d a b) d (if y = 0 then 0xFFFFFFFFFFFFFFFF
      else if x = 0x8000000000000000 ∧ y = 0xFFFFFFFFFFFFFFFF then 0x8000000000000000
      else BitVec.ofInt 64 (x.toInt.tdiv y.toInt)) ∧
    s.writesG (.divu d a b) d (if y = 0 then 0xFFFFFFFFFFFFFFFF else BitVec.ofNat 64 (x.toNat / y.toNat)) ∧
    s.writesG (.rem d a b) d (if y = 0 then x
      else if x = 0x8000000000000000 ∧ y = 0xFFFFFFFFFFFFFFFF then 0 else BitVec.ofInt 64 (x.toInt.tmod y.toInt)) ∧
    s.writesG (.remu d a b) d (if y = 0 then x else BitVec.ofNat 64 (x.toNat % y.toNat))

/-- R89: selection and bit fields. clz, ctz and popc are characterised by what they count. -/
def Obligations.SelectAndBitFields : Prop :=
  ∀ (s : State) (d a b : Fin 32),
    let x := s.src.g a
    let y := s.src.g b
    let z := s.src.g d
    let pos := y.toNat % 64
    let w := min (y.toNat / 256 % 64 + 1) (64 - pos)
    let ones : Word := BitVec.ofNat 64 (2 ^ w - 1)
    (s.cleanG [d, a, b] → s.writesG (.sel d a b) d (if z ≠ 0 then x else y)) ∧
    (s.cleanG [a] → ∃ n, n ≤ 64 ∧ x.toNat < 2 ^ (64 - n) ∧ (n < 64 → 2 ^ (63 - n) ≤ x.toNat) ∧
      s.writesG (.clz d a) d (BitVec.ofNat 64 n)) ∧
    (s.cleanG [a] → ∃ n, n ≤ 64 ∧ x.toNat % 2 ^ n = 0 ∧ (n < 64 → x.toNat / 2 ^ n % 2 = 1) ∧
      s.writesG (.ctz d a) d (BitVec.ofNat 64 n)) ∧
    (s.cleanG [a] → s.writesG (.popc d a) d (BitVec.ofNat 64 ((List.range 64).countP fun i => x.getLsbD i))) ∧
    (s.cleanG [a, b] → s.writesG (.bfx d a b) d ((x >>> pos) &&& ones)) ∧
    (s.cleanG [d, a, b] →
      s.writesG (.bfi d a b) d ((z &&& ~~~(ones <<< pos)) ||| ((x <<< pos) &&& (ones <<< pos))))

/-- R90, R92, R93: copies and addresses, the long immediates, and the words that do nothing. -/
def Obligations.MovesAndLongImmediates : Prop :=
  (∀ (s : State) (d a b : Fin 32),
    let x := s.src.g a
    let y := s.src.g b
    (s.cleanG [a] → s.writesG (.mov d a) d x) ∧
    (s.cleanG [a, b] → s.writesG (.lea d a b) d (x + 8 * y)) ∧
    (s.cleanG [a, b] → s.writesG (.wadr d a b) d (BitVec.ofNat 64
      (2 ^ 55 + x.toNat / 2 ^ 32 % 2 ^ 10 * 2 ^ 45 + x.toNat % 2 ^ 16 * 2 ^ 29 + x.toNat / 2 ^ 42 % 2 * 2 ^ 28 +
        y.toNat % 2 ^ 17)))) ∧
  (∀ (s : State) (d : Fin 32) (i : BitVec 19),
    s.writesG (.lui d i) d (i.signExtend 64 <<< 11) ∧
    (s.cleanG [d] → s.writesG (.lhi d i) d ((s.src.g d &&& (0x3FFFFFFF : Word)) ||| (i.signExtend 64 <<< 30))) ∧
    exec .nopC s = .next s ∧ exec .nopA s = .next s)

/-- R91: the immediate operations of A major 0x03. -/
def Obligations.Immediates : Prop :=
  ∀ (s : State) (d a : Fin 32) (i : BitVec 11) (n : BitVec 6),
    let x := s.src.g a
    (s.cleanG [a] →
      s.writesG (.addi d a i) d (x + i.signExtend 64) ∧ s.writesG (.andi d a i) d (x &&& i.signExtend 64) ∧
      s.writesG (.ori d a i) d (x ||| i.signExtend 64) ∧ s.writesG (.xori d a i) d (x ^^^ i.signExtend 64) ∧
      s.writesG (.shli d a n) d (x <<< n.toNat) ∧ s.writesG (.shri d a n) d (x >>> n.toNat) ∧
      s.writesG (.sari d a n) d (x.sshiftRight n.toNat)) ∧
    s.writesG (.li d i) d (i.signExtend 64)

/-- R85: an instruction whose source is poisoned raises POISON with KADDR 0, KEPC at the word, and nothing of it takes
effect: for the operations on two registers and on one. -/
def Obligations.PoisonedSourceTraps : Prop :=
  ∀ (s : State) (d a b : Fin 32) (i : BitVec 11) (o : BitVec 18) (k : BitVec 12), s.plain →
    (s.src.gBad a = true ∨ s.src.gBad b = true →
      ∀ j ∈ [Instr.add d a b, .sub d a b, .and d a b, .or d a b, .xor d a b, .andn d a b, .shl d a b, .shr d a b,
        .sar d a b, .rol d a b, .min d a b, .max d a b, .minu d a b, .maxu d a b, .slt d a b, .sltu d a b, .mul d a b,
        .mulh d a b, .mulhu d a b, .div d a b, .divu d a b, .rem d a b, .remu d a b, .bfx d a b, .bfi d a b, .sel d a b,
        .lea d a b, .wadr d a b, .blt a b k, .bge a b k, .bltu a b k, .bgeu a b k], s.faults j Cause.poison 0) ∧
    (s.src.gBad a = true →
      ∀ j ∈ [Instr.addi d a i, .andi d a i, .ori d a i, .xori d a i, .clz d a, .ctz d a, .popc d a, .mov d a, .bz a o,
        .bnz a o, .callr a, .jr a, .lhi a (i.setWidth 19)], s.faults j Cause.poison 0)

/-- R94 with R38: a taken branch goes on at the bundle's offset plus four times the signed word offset, modulo 2^17; one
that is not taken changes nothing. -/
def Obligations.Branches : Prop :=
  ∀ (s : State) (a b : Fin 32) (pr : Fin 8) (o : BitVec 24) (o18 : BitVec 18) (o12 : BitVec 12),
    let x := s.src.g a
    let y := s.src.g b
    let m := s.src.f.kmask
    let at_ (n : Int) : Off := BitVec.ofInt 17 (s.cur.p.toNat + 4 * n)
    let cond (i : Instr) (c : Prop) (n : Int) : Prop :=
      (c → s.goesTo i (at_ n)) ∧ (¬ c → exec i s = .next s)
    s.goesTo (.br o) (at_ o.toInt) ∧
    (s.src.pBad pr = false →
      cond (.bany pr o18) (s.src.p pr &&& m ≠ 0) o18.toInt ∧ cond (.ball pr o18) (s.src.p pr &&& m = m) o18.toInt ∧
      cond (.bnone pr o18) (s.src.p pr &&& m = 0) o18.toInt ∧ cond (.bnall pr o18) (s.src.p pr &&& m ≠ m) o18.toInt) ∧
    (s.cleanG [a] → cond (.bz a o18) (x = 0) o18.toInt ∧ cond (.bnz a o18) (x ≠ 0) o18.toInt) ∧
    (s.cleanG [a, b] →
      cond (.blt a b o12) (x.toInt < y.toInt) o12.toInt ∧ cond (.bge a b o12) (y.toInt ≤ x.toInt) o12.toInt ∧
      cond (.bltu a b o12) (x.toNat < y.toNat) o12.toInt ∧ cond (.bgeu a b o12) (y.toNat ≤ x.toNat) o12.toInt)

/-- R17, R95: calls push the offset of the next bundle, jumps do not; a call with eight entries on the stack stores the
oldest of them at KSPILL. A return pops the stack, or reads the newest stored address back at
KSPILL + 8 × (SPILLED − 1) when it is empty; with nothing left it raises RSTACK. The model's own reading, not the manual's
words: that the two low bits of a stored word do not count (log 27), and that KSPILL is a source of the return, so that its
mark raises POISON by R85 (log 69). -/
def Obligations.CallsAndReturns : Prop :=
  (∀ (s : State) (a : Fin 32) (o : BitVec 24),
    let x := s.src.g a
    let pushed : Context := { s.cx with
      f.depth := s.cx.f.depth + 1, f.ret := s.cx.f.ret.setIfInBounds s.cx.f.depth.toNat s.cur.next,
      f.retBad := withBit s.cx.f.retBad s.cx.f.depth.toNat false }
    (s.cx.f.depth.toNat < 8 → s.does (.call o) fun t =>
      s.became t { pushed with pc := BitVec.ofInt 17 (s.cur.p.toNat + 4 * o.toInt) }) ∧
    (s.cleanG [a] → x.toNat % 4 = 0 →
      s.goesTo (.jr a) (x.setWidth 17) ∧
      (s.cx.f.depth.toNat < 8 → s.does (.callr a) fun t => s.became t { pushed with pc := x.setWidth 17 })) ∧
    (s.cleanG [a] → x.toNat % 4 ≠ 0 → s.plain →
      s.faults (.jr a) Cause.align x ∧ s.faults (.callr a) Cause.align x)) ∧
  (∀ (s : State) (o : BitVec 24),
    let f := s.cx.f
    let slot := (s.cx.k.spill.setWidth 17 : BitVec 17).toNat + 8 * f.spilled.toNat
    s.wf → f.depth = 8 → f.retBad.getLsbD 0 = false → s.kBad 0x00B = false → s.localCheck slot 8 { w := true } = .ok →
      s.does (.call o) fun t =>
        t.loadNat (s.hereKey slot) 8 = f.ret[0].toNat ∧
        (∀ k, k < s.hereKey slot ∨ s.hereKey slot + 8 ≤ k → t.byteAt k = s.byteAt k) ∧
        t.cx.f.depth = 8 ∧ t.cx.f.spilled = f.spilled + 1 ∧ t.cx.f.ret[7] = s.cur.next ∧
        (∀ i : Fin 7, t.cx.f.ret[i.val] = f.ret[i.val + 1]) ∧ t.cx.r = s.cx.r ∧ t.cx.k = s.cx.k ∧
        t.cx.pc = BitVec.ofInt 17 (s.cur.p.toNat + 4 * o.toInt)) ∧
  (∀ (s : State), s.cx.f.depth.toNat ≤ 8 →
    let f := s.cx.f
    let slot := (s.cx.k.spill.setWidth 17 : BitVec 17).toNat + 8 * (f.spilled.toNat - 1)
    (0 < f.depth.toNat → f.retBad.getLsbD (f.depth.toNat - 1) = false →
      s.does .ret fun t => s.became t { s.cx with
        f.depth := f.depth - 1, pc := (f.ret.toList[f.depth.toNat - 1]?).getD 0 }) ∧
    (f.depth = 0 → f.spilled ≠ 0 → s.kBad 0x00B = false → s.localCheck slot 8 { r := true } = .ok →
      s.poisoned (s.hereKey slot) = false →
      s.does .ret fun t => s.became t { s.cx with
        f.spilled := f.spilled - 1, pc := BitVec.ofNat 17 (s.loadNat (s.hereKey slot) 8 / 4 * 4) }) ∧
    (f.depth = 0 → f.spilled ≠ 0 → s.kBad 0x00B = true → s.plain → s.faults .ret Cause.poison 0) ∧
    (f.depth = 0 → f.spilled = 0 → s.plain →
      ∃ t addr, exec .ret s = .next t ∧ s.tookTrap t (s.faultCause Cause.rstack) s.cur.at_ addr))

/-- R95, R98, R110 to R112: entering and leaving cancel. A return undoes a call, the end of an if brings the mask back that
entered it whatever the then-part did to KMASK, and a return from a trap goes on after the trap in the old mode. -/
def Obligations.EntriesAndExitsCancel : Prop :=
  (∀ (s t u : State) (o : BitVec 24), s.cx.f.depth.toNat < 8 → exec (.call o) s = .next t → u.cx.f = t.cx.f →
    u.does .ret fun v => v.cx.pc = s.cur.next ∧ v.cx.f.depth = s.cx.f.depth ∧ v.cx.f.spilled = s.cx.f.spilled ∧
      ∀ i, i < s.cx.f.depth.toNat → v.cx.f.ret[i]? = s.cx.f.ret[i]?) ∧
  (∀ (s t u : State) (o : BitVec 15) (pr : Fin 8), s.first → s.cx.pBad pr = false → s.cx.f.kmsd.toNat < 32 →
    s.cx.f.kmask ≠ 0 → exec (.ifm o pr) s = .next t → u.first → u.cx.f.stack = t.cx.f.stack → u.cx.f.kmsd = t.cx.f.kmsd →
    u.does .fim fun v => v.cx.f.kmask = s.cx.f.kmask ∧ v.cx.f.kmsd = s.cx.f.kmsd ∧ v.cx.pc = u.cx.pc) ∧
  (∀ (s t u : State) (i : BitVec 14) (m : Mask), ¬ s.doubleFault → s.cur.p.toNat % 4 = 0 → s.kBad 0x000 = false →
    s.kBad 0x001 = false → exec (.trap i) s = .next t → u.cx = t.cx → u.does (.tret false m) fun v =>
      v.cx.pc = s.cur.p + 4 ∧ v.cx.mode = s.cx.mode ∧ v.cx.r = s.cx.r ∧ v.cx.f = s.cx.f ∧ v.cx.k.cause = 0)

/-- R96: a jump by per-lane targets. Equal targets move the context; lanes with the lowest lane's target go there and the
others wait in a REPEAT entry at this jv; a full mask stack raises MSTACK; a target that is no multiple of 4 raises
ALIGN with the lowest such lane's target. -/
def Obligations.JumpByLanes : Prop :=
  ∀ (s : State) (a : Fin 32) (j : Nat), s.first →
    let m := s.cx.f.kmask
    let f := s.cx.f
    let target (l : Nat) : Off := (lane l (s.cx.v a)).setWidth 17
    s.cx.vBad a &&& m = 0 → j < 4 → m.getLsbD j = true →
    ((∀ l, l < 4 → m.getLsbD l = true → (target l).toNat % 4 = 0) → (∀ l, l < j → m.getLsbD l = false) →
      ∀ same : Mask, (∀ l, l < 4 → same.getLsbD l = (m.getLsbD l && decide (target l = target j))) →
        (same = m → s.goesTo (.jv a) (target j)) ∧
        (same ≠ m → f.kmsd.toNat < 32 → s.does (.jv a) fun t => s.became t { s.cx with
          f.kmask := same, f.kmsd := f.kmsd + 1, pc := target j,
          f.stack := f.stack.setIfInBounds f.kmsd.toNat
            { mask := m &&& ~~~same, kind := .repeatKind, resume := s.cur.p } }) ∧
        (same ≠ m → 32 ≤ f.kmsd.toNat → s.plain → s.faults (.jv a) Cause.mstack 0)) ∧
    ((target j).toNat % 4 ≠ 0 → (∀ l, l < j → m.getLsbD l = true → (target l).toNat % 4 = 0) → s.plain →
      s.faults (.jv a) Cause.align ((target j).setWidth 64))

/-- R84, R98, R100: the if, else and end of an if. Each push and pop changes KMSD by one. That an entry which holds no lane
leaves KMASK as it was (`keepMask`) is the model's reading of R84 (log 58); R98 says KMASK := x.mask. -/
def Obligations.IfElse : Prop :=
  ∀ (s : State) (o : BitVec 15) (pr : Fin 8), s.first →
    let f := s.cx.f
    let m := f.kmask
    let p := s.cx.p pr
    let at_ : Off := BitVec.ofInt 17 (s.cur.p.toNat + 4 * o.toInt)
    let pushed : Context := { s.cx with
      f.kmsd := f.kmsd + 1
      f.stack := f.stack.setIfInBounds f.kmsd.toNat { mask := m, kind := .ifKind, resume := at_ } }
    let top := (f.stack.toList[f.kmsd.toNat - 1]?).getD {}
    (s.cx.pBad pr = false → f.kmsd.toNat < 32 →
      (m &&& p ≠ 0 → s.does (.ifm o pr) fun t => s.became t { pushed with f.kmask := m &&& p }) ∧
      (m &&& p = 0 → s.does (.ifm o pr) fun t => s.became t { pushed with pc := at_ })) ∧
    (f.kmsd ≠ 0 → top.kind = .ifKind → top.bad = false →
      (top.mask &&& ~~~m ≠ 0 → s.does (.elm o) fun t => s.became t { s.cx with f.kmask := top.mask &&& ~~~m }) ∧
      (top.mask &&& ~~~m = 0 → s.goesTo (.elm o) at_)) ∧
    (f.kmsd ≠ 0 → top.kind ≠ .loopKind → top.bad = false → s.does .fim fun t => s.became t { s.cx with
      f.kmask := keepMask top.mask m, f.kmsd := f.kmsd - 1,
      pc := if top.kind = .repeatKind then top.resume else s.cx.pc }) ∧
    (s.plain →
      (s.cx.pBad pr = false → 32 ≤ f.kmsd.toNat → s.faults (.ifm o pr) Cause.mstack 0) ∧
      (f.kmsd = 0 ∨ top.kind ≠ .ifKind → s.faults (.elm o) Cause.mstack 0) ∧
      (f.kmsd = 0 ∨ top.kind = .loopKind → s.faults .fim Cause.mstack 0))

/-- R16, R84, R99, R100: loops. The entry pushes the exit and the head; brk and lpe take lanes out of the loop, and the
context leaves when none is left; cnt lets lanes wait for the next iteration; a LOOP entry with nothing below it raises
MSTACK where both are to be popped. That an entry which holds no lane leaves KMASK as it was (`keepMask`) is the model's
reading of R84 (log 58). -/
def Obligations.Loops : Prop :=
  ∀ (s : State) (o : BitVec 15) (pr : Fin 8), s.first →
    let f := s.cx.f
    let m := f.kmask
    let d := f.kmsd.toNat
    let p := s.cx.p pr
    let at_ : Off := BitVec.ofInt 17 (s.cur.p.toNat + 4 * o.toInt)
    let top := (f.stack.toList[d - 1]?).getD {}
    let below := (f.stack.toList[d - 2]?).getD {}
    let cut (x : Mask) : Vector MaskEntry 32 := f.stack.setIfInBounds (d - 1) { top with mask := top.mask &&& ~~~x }
    let again (i : Instr) (x : Mask) : Prop := s.does i fun t => s.became t { s.cx with
      f.stack := cut x, f.kmask := top.mask &&& ~~~x, pc := top.resume }
    let leave (i : Instr) (x : Mask) : Prop := s.does i fun t => s.became t { s.cx with
      f.stack := cut x, f.kmask := keepMask below.mask m, f.kmsd := f.kmsd - 1 - 1, pc := below.resume }
    (d ≤ 30 → s.does (.lpm o) fun t => s.became t { s.cx with
      f.kmsd := f.kmsd + 1 + 1
      f.stack := (f.stack.setIfInBounds d { mask := m, kind := .ifKind, resume := at_ }).setIfInBounds (d + 1)
        { mask := m, kind := .loopKind, resume := s.cur.next } }) ∧
    (s.plain → 30 < d → s.faults (.lpm o) Cause.mstack 0) ∧
    (s.cx.pBad pr = false → 2 ≤ d → d ≤ 32 → top.kind = .loopKind → top.bad = false → below.bad = false →
      let b := m &&& p
      let w := m &&& ~~~p
      (m &&& ~~~b ≠ 0 → s.does (.brk pr) fun t => s.became t { s.cx with f.stack := cut b, f.kmask := m &&& ~~~b }) ∧
      (m &&& ~~~b = 0 → top.mask &&& ~~~b ≠ 0 → again (.brk pr) b) ∧
      (m &&& ~~~b = 0 → top.mask &&& ~~~b = 0 → leave (.brk pr) b) ∧
      (w ≠ 0 → s.does (.cnt pr) fun t => s.became t { s.cx with f.kmask := w }) ∧
      (w = 0 → s.does (.cnt pr) fun t => s.became t { s.cx with f.kmask := keepMask top.mask m, pc := top.resume }) ∧
      (top.mask &&& ~~~w ≠ 0 → again (.lpe pr) w) ∧ (top.mask &&& ~~~w = 0 → leave (.lpe pr) w)) ∧
    (s.plain → s.cx.pBad pr = false → d = 1 → top.kind = .loopKind → top.bad = false →
      let b := m &&& p
      let w := m &&& ~~~p
      (m &&& ~~~b ≠ 0 → s.does (.brk pr) fun t => s.became t { s.cx with f.stack := cut b, f.kmask := m &&& ~~~b }) ∧
      (m &&& ~~~b = 0 → top.mask &&& ~~~b ≠ 0 → again (.brk pr) b) ∧
      (m &&& ~~~b = 0 → top.mask &&& ~~~b = 0 → s.faults (.brk pr) Cause.mstack 0) ∧
      (w ≠ 0 → s.does (.cnt pr) fun t => s.became t { s.cx with f.kmask := w }) ∧
      (w = 0 → s.does (.cnt pr) fun t => s.became t { s.cx with f.kmask := keepMask top.mask m, pc := top.resume }) ∧
      (top.mask &&& ~~~w ≠ 0 → again (.lpe pr) w) ∧
      (top.mask &&& ~~~w = 0 → s.faults (.lpe pr) Cause.mstack 0)) ∧
    (s.plain → s.cx.pBad pr = false → f.kmsd = 0 ∨ top.kind ≠ .loopKind →
      s.faults (.brk pr) Cause.mstack 0 ∧ s.faults (.cnt pr) Cause.mstack 0 ∧ s.faults (.lpe pr) Cause.mstack 0)

/-- R102 to R105, R208, R238: starting a helper, which is held until what its issuer has still to perform is done, asking for
the status of a context and the bits of that status, waiting for one, yielding; and the end of a context, which drops its
stacks, its claim and its buffer. That a context pending in a wave instance shows BLOCK is R208's list and the model's
reading (log 26): R103's own table does not name it. -/
def Obligations.ContextInstructions : Prop :=
  (∀ (s : State) (d a b : Fin 32) (c : Fin 11),
    let x := s.src.g a
    let y := s.src.g b
    let n := x.toNat % 16
    let fresh : Context := { Context.reset with
      live := true, pc := x.setWidth 17,
      r := { Regs.zero with g := (((Regs.zero.g.set 29 ((x.extractLsb' 32 17).setWidth 64)).set 30
        ((x.extractLsb' 32 17).setWidth 64)).set 1 y).set 2 (BitVec.ofNat 64 s.cur.ctx.val) }
      k := { group := s.cx.k.group, pan := s.cx.k.pan, launch := s.cx.k.launch }
      after := (s.here.win.filter fun e => decide (e.ctx = s.cur.ctx) && e.resp.isNone).map WinEntry.id }
    let free (k : Fin 11) : Prop :=
      0 < k.val ∧ k.val ≤ s.here.helpers ∧ s.here.ctxs[k].live = false ∧ s.here.ctxs[k].susp = false
    (s.cleanG [a, b] → x.toNat % 4 = 0 → x.toNat / 2 ^ 32 % 32 = 0 →
      (free c → (∀ k, k < c → ¬ free k) → c ≠ s.cur.ctx → s.does (.cstart d a b) fun t =>
        t.here.ctxs[c] = fresh ∧ t.cx.g d = (if d = 0 then 0 else BitVec.ofNat 64 c.val) ∧
        (∀ r, r ≠ d → t.cx.g r = s.cx.g r) ∧ (∀ k : Fin 11, k ≠ c → k ≠ s.cur.ctx → t.here.ctxs[k] = s.here.ctxs[k]) ∧
        (∀ k, t.byteAt k = s.byteAt k)) ∧
      ((∀ k, ¬ free k) → s.writesG (.cstart d a b) d 0)) ∧
    (s.cleanG [a, b] → ¬ (x.toNat % 4 = 0 ∧ x.toNat / 2 ^ 32 % 32 = 0) → s.plain →
      s.faults (.cstart d a b) Cause.align x) ∧
    (s.cleanG [a] →
      (10 < n → s.writesG (.cquery d a) d 0) ∧
      (∀ k : Fin 11, k.val = n → s.does (.cquery d a) fun t => s.gotG t d (s.here.statusOf k (s.waits s.cur.core k)) false) ∧
      (s.cx.wake = some .released → s.does (.cwait a) fun t => s.became t { s.cx with wake := none }) ∧
      (s.cx.wake ≠ some .released →
        10 < n ∨ n = s.cur.ctx.val ∨ (∀ k : Fin 11, k.val = n → s.here.ctxs[k].live = false) →
        exec (.cwait a) s = .next s)) ∧
    (s.does .cyield fun t => s.became t { s.cx with yieldFor := s.readyOthers s.cur.core s.cur.ctx })) ∧
  (∀ (s : State) (n : Nat) (c : Fin 11),
    let k := s.core n
    let x := k.ctxs[c]
    let w := k.statusOf c (s.waits n c)
    (x.live = true → x.susp = false →
      w.getLsbD 0 = true ∧ w.getLsbD 1 = false ∧ w.getLsbD 5 = decide (k.claim = some c) ∧ w.getLsbD 6 = x.mode ∧
      (∀ i, 7 ≤ i → w.getLsbD i = false) ∧ (x.wake = none → w.getLsbD 4 = x.k.wave.getLsbD 31) ∧
      (x.block = none → w.getLsbD 2 = x.parked) ∧ (x.block = none → x.waveOp = none → w.getLsbD 3 = false) ∧
      (x.waveOp.isSome = true → w.getLsbD 3 = true) ∧
      (∀ b d, x.block = some b → b.kind = .cwait d → x.waveOp = none →
        w.getLsbD 3 = (x.wake.isNone && k.ctxs[d].live))) ∧
    (x.live = false → x.susp = false → w = 0) ∧
    (x.susp = true → w.getLsbD 1 = true ∧ w.getLsbD 0 = x.live ∧ w.getLsbD 2 = false ∧ w.getLsbD 3 = false)) ∧
  (∀ (s : State), s.drained = true → s.cx.reports = [] → s.here.desync = none ∨ s.here.claim ≠ some s.cur.ctx →
    s.does .cexit fun t =>
      t.cx.live = decide (s.cur.ctx = 0) ∧ t.cx.ending = decide (s.cur.ctx = 0) ∧
      t.cx.f.kmsd = 0 ∧ t.cx.f.depth = 0 ∧ t.cx.f.spilled = 0 ∧ t.here.claim ≠ some s.cur.ctx ∧
      (s.here.claim = some s.cur.ctx → t.here.fifo = [] ∧ t.here.latch = none) ∧
      (∀ r, t.here.rep = some r → r.owner ≠ s.cur.ctx) ∧ t.cx.k.wave.getLsbD 31 = false ∧ t.cx.r = s.cx.r ∧
      (∀ c : Fin 11, c ≠ s.cur.ctx → t.here.ctxs[c] = s.here.ctxs[c]) ∧ (∀ a, t.byteAt a = s.byteAt a) ∧
      (∃ l, t.agenda = l ++ [{ op := .c0CompletionReport, arg := { core := s.cur.core }, lane := 0 }]))

/-- R46, R110, R111, R221: a software trap records the immediate and the offset of the next word and enters the supervisor; a
bundle that does not decode takes the trap of its cause; a trap of the bundle at the trap entry in supervisor mode
stops the core and tells the launch. -/
def Obligations.TrapsTaken : Prop :=
  (∀ (s : State) (i : BitVec 14), ¬ s.doubleFault →
    s.does (.trap i) fun t => s.tookTrap t (Cause.swtrap.setWidth 64) (s.cur.p + 4) (i.setWidth 64)) ∧
  (∀ (s : State), ¬ s.doubleFault → s.does .illegalBundle fun t =>
    s.tookTrap t (s.ev.cause.setWidth 64 ||| (ofBool 64 s.ev.flag <<< 15)) (BitVec.ofNat 17 s.ev.addr)
      (s.ev.value &&& 0x00FFFFFFFFFFFFFF)) ∧
  (∀ (s : State) (i : BitVec 14), s.doubleFault → s.here.kerr.getLsbD 7 = true → s.does (.trap i) fun t =>
    t.here.run = .stopped ∧ t.cx = s.cx ∧ (∀ a, t.byteAt a = s.byteAt a) ∧
    ∃ e, t.agenda = s.agenda ++ [{ op := .launchEnd, arg := { launch := s.here.launch, info := e }, lane := 0 }] ∧
      e.status = Cause.swtrap ∧ e.core = s.cur.core ∧ e.ctx = s.cur.ctx.val)

/-- R85, R112: tret. To the user handler the mode becomes user and the PC comes from KUTVEC; otherwise the mode comes back
from PMODE, KCAUSE is cleared and the PC is KEPC, the word after it, or the bundle after it, whose C-word the context
executes in the lanes m alone when the fault was lane-precise; a user may not return to the supervisor, nor without a
cause; a poisoned KUTVEC, KCAUSE or KEPC is a poisoned source (log 69). Bits [1:0] of KEPC do not reach the PC: the
model's choice (log 70). That the A-word alone, or the lanes, stand as marks of the context for its next bundle (`aword`,
`reLanes`) is the model's bookkeeping of the re-execution (log 13). -/
def Obligations.TrapReturn : Prop :=
  ∀ (s : State) (m : Mask) (d : Bool),
    let x := s.cx
    let code := x.k.cause.toNat % 256
    let pair := x.k.cause.getLsbD 15
    let lanep := x.k.cause.getLsbD 14
    let a : Off := x.k.epc.setWidth 17 &&& 0x1FFFC
    let size : Off := if s.loadNat (ulmKey s.cur.core a.toNat) 4 / 2 ^ 31 % 2 = 1 then 4 else 8
    let back : Context := { x with mode := x.pmode, k.cause := 0, fbuf := [] }
    let redo : Redo := { lanes := m, cause := x.k.cause, pc := s.cur.p, mode := x.mode, parked := false }
    let clean : Prop := s.kBad 0x000 = false ∧ s.kBad 0x001 = false
    let plain : Prop := code = 0x11 ∨ code = 0x14 ∨ code = 0
    let mayReturn : Prop := x.mode = true ∨ (x.pmode = false ∧ code ≠ 0)
    let returns (y : Context) : Prop := s.does (.tret false m) fun t =>
      t.cx = y ∧ (∀ c : Fin 11, c ≠ s.cur.ctx → t.here.ctxs[c] = s.here.ctxs[c]) ∧
      (∀ k, t.byteAt k = s.byteAt k) ∧ (∀ n, n ≠ s.cur.core → t.core n = s.core n)
    (x.mode = true → x.pmode = false → s.kBad 0x00C = false → s.does (.tret true m) fun t =>
      s.became t { x with mode := false, pc := (x.k.utvec.setWidth 17) &&& 0x1FFFC, fbuf := [] }) ∧
    (mayReturn → clean →
      (plain → returns { back with pc := a }) ∧
      (¬ plain → pair = true → m = 0 → returns { back with pc := a + 4 }) ∧
      (¬ plain → pair = true → m ≠ 0 → returns { back with pc := a, aword := true }) ∧
      (¬ plain → pair = false → m = 0 → returns { back with pc := a + size }) ∧
      (¬ plain → pair = false → m ≠ 0 → lanep = true → returns { back with pc := a, reLanes := some redo }) ∧
      (¬ plain → pair = false → m ≠ 0 → lanep = false → returns { back with pc := a })) ∧
    (s.plain → (d = true ∧ (x.mode = false ∨ x.pmode = true)) ∨ (d = false ∧ ¬ mayReturn ∧ clean) →
      ∃ t addr, exec (.tret d m) s = .next t ∧ s.tookTrap t (s.faultCause Cause.priv) s.cur.at_ addr) ∧
    (s.plain → x.mode = true → x.pmode = false → s.kBad 0x00C = true → s.faults (.tret true m) Cause.poison 0) ∧
    (s.plain → x.mode = true ∨ x.pmode = false → ¬ clean → s.faults (.tret false m) Cause.poison 0)

/-- R122: packed integers, element by element in the active lanes, at every width of the view. -/
def Obligations.PackedIntegers : Prop :=
  ∀ (s : State) (d a b : Fin 32) (t : View) (pr : Fin 8),
    let w := t.bits
    let x (l e : Nat) : Nat := el w e (lane l (s.src.v a))
    let y (l e : Nat) : Nat := el w e (lane l (s.src.v b))
    let sg (n : Nat) : Int := if n < 2 ^ (w - 1) then n else (n : Int) - 2 ^ w
    let mod (z : Int) : Nat := (z % 2 ^ w).toNat
    let satS (z : Int) : Nat := mod (max (-2 ^ (w - 1)) (min (2 ^ (w - 1) - 1) z))
    let satU (z : Int) : Nat := mod (max 0 (min (2 ^ w - 1) z))
    let op (i : Instr) (f : Nat → Nat → Nat) : Prop :=
      s.writesEls i d (s.active pr) w fun l e => f (x l e) (y l e)
    (s.cleanV pr [a, b] →
      op (.vadd d a b t pr) (fun x y => (x + y) % 2 ^ w) ∧ op (.vsub d a b t pr) (fun x y => mod (x - y : Int)) ∧
      op (.vmul d a b t pr) (fun x y => x * y % 2 ^ w) ∧
      op (.vmulh d a b t pr) (fun x y => mod (sg x * sg y / 2 ^ w)) ∧
      op (.vmin d a b t pr) (fun x y => if sg x ≤ sg y then x else y) ∧
      op (.vmax d a b t pr) (fun x y => if sg x ≤ sg y then y else x) ∧
      op (.vminu d a b t pr) min ∧ op (.vmaxu d a b t pr) max ∧
      op (.vand d a b t pr) (fun x y => x &&& y) ∧ op (.vor d a b t pr) (fun x y => x ||| y) ∧
      op (.vxor d a b t pr) (fun x y => x ^^^ y) ∧ op (.vshl d a b t pr) (fun x y => x * 2 ^ (y % w) % 2 ^ w) ∧
      op (.vshr d a b t pr) (fun x y => x / 2 ^ (y % w)) ∧
      op (.vsar d a b t pr) (fun x y => mod (sg x / 2 ^ (y % w))) ∧
      op (.vadds d a b t pr) (fun x y => satS (sg x + sg y)) ∧
      op (.vsubs d a b t pr) (fun x y => satS (sg x - sg y)) ∧
      op (.vaddsu d a b t pr) (fun x y => satU (x + y : Int)) ∧
      op (.vsubsu d a b t pr) (fun x y => satU (x - y : Int))) ∧
    (s.cleanV pr [a] →
      op (.vabs d a t pr) (fun x _ => (sg x).natAbs) ∧ op (.vneg d a t pr) (fun x _ => mod (-x : Int)))

/-- R123 and R124: the comparisons write a predicate bit per active lane, set when the relation holds of every element;
vsel takes each lane of KMASK from vA or vB. -/
def Obligations.ComparesAndSelect : Prop :=
  ∀ (s : State) (d a b : Fin 32) (q : Fin 8) (t : View) (pr : Fin 8),
    let w := t.bits
    let sg (n : Nat) : Int := if n < 2 ^ (w - 1) then n else (n : Int) - 2 ^ w
    let every (r : Nat → Nat → Prop) (x : Nat → Bool) : Prop := ∀ l, l < 4 →
      (x l = true ↔ ∀ e, e < 64 / w → r (el w e (lane l (s.src.v a))) (el w e (lane l (s.src.v b))))
    let op (i : Instr) (r : Nat → Nat → Prop) : Prop := ∃ x, every r x ∧ s.writesP i q (s.active pr) x
    let p := s.src.p pr
    (s.cleanV pr [a, b] →
      op (.vcmpeq q a b t pr) (fun x y => x = y) ∧ op (.vcmpne q a b t pr) (fun x y => x ≠ y) ∧
      op (.vcmplt q a b t pr) (fun x y => sg x < sg y) ∧ op (.vcmple q a b t pr) (fun x y => sg x ≤ sg y) ∧
      op (.vcmpltu q a b t pr) (fun x y => x < y) ∧ op (.vcmpleu q a b t pr) (fun x y => x ≤ y)) ∧
    (s.src.pBad pr = false → s.src.vBad a &&& (s.kmask &&& p) = 0 → s.src.vBad b &&& (s.kmask &&& ~~~p) = 0 →
      s.writesV (.vsel d a b pr) d s.kmask fun l => if bitOf p l then lane l (s.src.v a) else lane l (s.src.v b))

/-- R125: the dot products read vD and add four products to each of its wide elements. -/
def Obligations.DotProducts : Prop :=
  ∀ (s : State) (d a b : Fin 32) (h : Bool) (pr : Fin 8), s.cleanV pr [d, a, b] →
    let w := if h then 16 else 8
    let x (l k : Nat) : Nat := el w k (lane l (s.src.v a))
    let y (l k : Nat) : Nat := el w k (lane l (s.src.v b))
    let z (l e : Nat) : Nat := el (4 * w) e (lane l (s.src.v d))
    let sg (n : Nat) : Int := if n < 2 ^ (w - 1) then n else (n : Int) - 2 ^ w
    s.writesEls (.vdot4 d a b h pr) d (s.active pr) (4 * w) (fun l e =>
      ((z l e + sg (x l (4 * e)) * sg (y l (4 * e)) + sg (x l (4 * e + 1)) * sg (y l (4 * e + 1)) +
        sg (x l (4 * e + 2)) * sg (y l (4 * e + 2)) + sg (x l (4 * e + 3)) * sg (y l (4 * e + 3))) %
          2 ^ (4 * w)).toNat) ∧
    s.writesEls (.vdot4u d a b h pr) d (s.active pr) (4 * w) (fun l e =>
      (z l e + x l (4 * e) * y l (4 * e) + x l (4 * e + 1) * y l (4 * e + 1) + x l (4 * e + 2) * y l (4 * e + 2) +
        x l (4 * e + 3) * y l (4 * e + 3)) % 2 ^ (4 * w))

/-- R126: vector immediates act on every lane of KMASK. -/
def Obligations.VectorImmediates : Prop :=
  ∀ (s : State) (d a : Fin 32) (i : BitVec 11) (n : BitVec 6),
    let x (l : Nat) : Word := lane l (s.src.v a)
    s.writesV (.vli d i) d s.kmask (fun _ => i.signExtend 64) ∧
    (s.src.vBad a &&& s.kmask = 0 →
      s.writesV (.vaddi d a i) d s.kmask (fun l => x l + i.signExtend 64) ∧
      s.writesV (.vshli d a n) d s.kmask (fun l => x l <<< n.toNat) ∧
      s.writesV (.vshri d a n) d s.kmask (fun l => x l >>> n.toNat))

/-- R136 and R137: lane moves, one element and any element, widening and narrowing. -/
def Obligations.LaneMoves : Prop :=
  ∀ (s : State) (d a b : Fin 32) (t : View) (pr : Fin 8),
    let w := t.bits
    let act := s.active pr
    let x (l e : Nat) : Nat := el w e (lane l (s.src.v a))
    let old (l e : Nat) : Nat := el w e (lane l (s.src.v d))
    let y := s.src.g b
    let j := y.toNat % (256 / w)
    let jl := j / (64 / w)
    let je := j % (64 / w)
    let one : Mask := act &&& BitVec.ofNat 4 (2 ^ jl)
    let k (l e : Nat) : Nat := el w e (lane l (s.src.v b)) % (256 / w)
    let sg (n z : Nat) : Int := if z < 2 ^ (n - 1) then z else (z : Int) - 2 ^ n
    (s.src.pBad pr = false →
      (s.cleanG [a] → s.writesEls (.vbcast d a t pr) d act w fun _ _ => (s.src.g a).toNat % 2 ^ w) ∧
      (s.cleanG [b] → s.src.vBad a &&& one = 0 →
        (bitOf act jl → s.writesG (.vget d a b t pr) d (BitVec.ofNat 64 (x jl je))) ∧
        (bitOf act jl = false → exec (.vget d a b t pr) s = .next s)) ∧
      (s.cleanG [a, b] → w = 64 ∨ s.src.vBad d &&& one = 0 →
        s.writesEls (.vput d a b t pr) d one w fun l e => if e = je then (s.src.g a).toNat % 2 ^ w else old l e) ∧
      (s.src.vBad b &&& act = 0 →
        (∀ l e, l < 4 → e < 64 / w → bitOf act l → bitOf (s.src.vBad a) (k l e / (64 / w)) = false) →
        s.writesEls (.vperm d a b t pr) d act w fun l e => x (k l e / (64 / w)) (k l e % (64 / w))) ∧
      (s.src.vBad a &&& act = 0 → s.writesV (.vmov d a pr) d act fun l => lane l (s.src.v a)) ∧
      (s.src.vBad a &&& act = 0 → s.cleanG [b] → t ≠ .b →
        s.writesEls (.vext d a b t pr) d act w fun l e =>
          let z := el (w / 2) (e + if bitOf y 0 then 64 / w else 0) (lane l (s.src.v a))
          if bitOf y 1 then (sg (w / 2) z % 2 ^ w).toNat else z) ∧
      ((s.src.vBad d ||| s.src.vBad a) &&& act = 0 → s.cleanG [b] → t ≠ .d →
        s.writesEls (.vins d a b t pr) d act w fun l e =>
          let n := 64 / (2 * w)
          let low := if bitOf y 0 then n else 0
          let z := el (2 * w) (e - low) (lane l (s.src.v a))
          if low ≤ e ∧ e < low + n then
            match y.toNat / 2 % 4 with
            | 0 => z % 2 ^ w
            | 1 => (max (-2 ^ (w - 1)) (min (2 ^ (w - 1) - 1) (sg (2 * w) z)) % 2 ^ w).toNat
            | 2 => min (2 ^ w - 1) z
            | _ => (max 0 (min (2 ^ w - 1) (sg (2 * w) z))).toNat
          else old l e))

/-- R66, R67, R70, R72, R127, R130: floating arithmetic in the lanes, with its flags; infinities, NaNs and zeros give what the
rules say. A product, a sum and a fused form are the exact one, rounded once; the minimum and the maximum are the smaller and
the larger operand, −0 below +0, and of a NaN and a number the number; `fround` gives the multiple of one its mode names. -/
def Obligations.FloatingArithmetic : Prop :=
  (∀ (s : State) (d a b c : Fin 32) (t : FFmt) (m : RMode) (pr : Fin 8) (q : Fin 4),
    let f := t.fmt
    let n := 64 / f.width
    let env := envOf s.src.k.fpc
    let x (r : Fin 32) (l e : Nat) : FVal := f.read env.ftz (el f.width e (lane l (s.src.v r)))
    let pq : Fin 8 := ⟨q.val, by omega⟩
    let op (i : Instr) (p : Fin 8) (res : Nat → Nat → FRes) : Prop := s.writesF i s d (s.active p) f.width n res
    (s.cleanV pr [a, b] →
      op (.fadd d a b t pr) pr (fun l e => f.add env (x a l e) (x b l e)) ∧
      op (.fsub d a b t pr) pr (fun l e => f.add env (x a l e) (x b l e).flip) ∧
      op (.fmul d a b t pr) pr (fun l e => f.mul env (x a l e) (x b l e)) ∧
      op (.fmin d a b t pr) pr (fun l e => f.minmax env false (x a l e) (x b l e)) ∧
      op (.fmax d a b t pr) pr (fun l e => f.minmax env true (x a l e) (x b l e))) ∧
    (s.cleanV pr [a] →
      op (.fround d a m t pr) pr (fun l e => f.integral { env with rm := m.mode env.rm } (x a l e))) ∧
    (s.cleanV pq [a, b, c] →
      op (.ffma d a b c t q) pq (fun l e => f.fma env (x a l e) (x b l e) (x c l e)) ∧
      op (.ffms d a b c t q) pq (fun l e => f.fma env (x a l e) (x b l e) (x c l e).flip) ∧
      op (.ffnma d a b c t q) pq (fun l e => f.fma env (x a l e).flip (x b l e) (x c l e)))) ∧
  (∀ (f : FloatFmt) (env : FloatEnv) (a b c : FVal), f ∈ [fmtF64, fmtF32, fmtF16, fmtBf16] →
    let nv (l : List FVal) : Flags := if l.any FVal.isSig then flagNV else 0
    (a.isNan ∨ b.isNan → f.add env a b = ⟨f.nanCode, nv [a, b]⟩ ∧ f.mul env a b = ⟨f.nanCode, nv [a, b]⟩) ∧
    (a.isNan ∨ b.isNan ∨ c.isNan → (f.fma env a b c).code = f.nanCode) ∧
    (f.add env (.inf true) (.inf false) = ⟨f.nanCode, flagNV⟩) ∧
    (f.mul env (.inf true) (.num false 0 0) = ⟨f.nanCode, flagNV⟩) ∧
    (f.fma env (.inf true) (.num false 0 0) (.nan false) = ⟨f.nanCode, flagNV⟩) ∧
    (∀ n m e, f.add env (.num n m e) (.num (!n) m e) = ⟨if env.rm = .rdn then 2 ^ (f.width - 1) else 0, 0⟩) ∧
    (∀ n m e, m ≠ 0 → f.add env (.num n m e) (.num n m e) = f.round env n (2 * m) e) ∧
    (∀ n m e k p g, f.mul env (.num n m e) (.num k p g) = f.round env (n != k) (m * p) (e + g)) ∧
    (∀ n k m e, m ≠ 0 → f.mul env (.inf n) (.num k m e) = ⟨f.signed (n != k) f.infCode, 0⟩ ∧
      f.add env (.inf n) (.num k m e) = ⟨f.signed n f.infCode, 0⟩) ∧
    (∀ n m e k p g j t h,
      let base : Int := min (e + g) h
      let at_ (neg : Bool) (m : Nat) (e : Int) : Int := (if neg then -1 else 1) * ((m * 2 ^ (e - base).toNat : Nat) : Int)
      let z : Int := at_ (n != k) (m * p) (e + g) + at_ j t h
      f.fma env (.num n m e) (.num k p g) (.num j t h) =
        if z = 0 then ⟨if ((n != k) && j) || decide (env.rm = .rdn) then 2 ^ (f.width - 1) else 0, 0⟩
        else f.round env (decide (z < 0)) z.natAbs base) ∧
    (∀ x, x < 2 ^ f.width → env.ftz = false → (f.value x).isNan = false → f.deliver env (f.value x) = ⟨x, 0⟩) ∧
    (∀ n m e k p g,
      let x : FVal := .num n m e
      let y : FVal := .num k p g
      x.rat < y.rat → f.minmax env false x y = f.deliver env x ∧ f.minmax env false y x = f.deliver env x ∧
        f.minmax env true x y = f.deliver env y ∧ f.minmax env true y x = f.deliver env y) ∧
    (∀ n e k g, f.minmax env false (.num n 0 e) (.num k 0 g) = ⟨if n || k then 2 ^ (f.width - 1) else 0, 0⟩ ∧
      f.minmax env true (.num n 0 e) (.num k 0 g) = ⟨if n && k then 2 ^ (f.width - 1) else 0, 0⟩) ∧
    (∀ big n k m e, f.minmax env big (.inf n) (.num k m e) =
      if big = n then f.deliver env (.num k m e) else ⟨f.signed n f.infCode, 0⟩) ∧
    (∀ big sg v, v.isNan = false → f.minmax env big (.nan sg) v = { f.deliver env v with
        flags := (f.deliver env v).flags ||| nv [.nan sg] } ∧ f.minmax env big v (.nan sg) = { f.deliver env v with
        flags := (f.deliver env v).flags ||| nv [.nan sg] }) ∧
    (∀ big s1 s2, f.minmax env big (.nan s1) (.nan s2) = ⟨f.nanCode, nv [.nan s1, .nan s2]⟩) ∧
    (∀ n m (e : Int), (0 ≤ e → f.integral env (.num n m e) = f.round env n m e) ∧
      (e < 0 →
        let k := (-e).toNat
        let q := m / 2 ^ k
        let r := m % 2 ^ k
        let up : Prop := match env.rm with
          | .rne => 2 ^ k < 2 * r ∨ (2 * r = 2 ^ k ∧ q % 2 = 1)
          | .rtz => False
          | .rdn => n = true ∧ r ≠ 0
          | .rup => n = false ∧ r ≠ 0
          | .rna => 2 ^ k ≤ 2 * r
        (up → (f.integral env (.num n m e)).code = (f.round env n (q + 1) 0).code) ∧
        (¬ up → (f.integral env (.num n m e)).code = (f.round env n q 0).code) ∧
        (f.integral env (.num n m e)).flags = if r = 0 then 0 else flagNX)))

/-- R66, R67, R128, R129: comparisons into a predicate with their flags, operations on the sign bits, and classes. A NaN
makes eq, lt and le false and un true; lt and le raise NV for any NaN, eq and un for a signalling one. -/
def Obligations.FloatComparesAndSigns : Prop :=
  ∀ (s : State) (d a b : Fin 32) (g : Fin 8) (t : FFmt) (pr : Fin 8),
    let f := t.fmt
    let w := f.width
    let n := 64 / w
    let ftz := bitOf s.src.k.fpc 4
    let act := s.active pr
    let raw (r : Fin 32) (l e : Nat) : Nat := el w e (lane l (s.src.v r))
    let x (r : Fin 32) (l e : Nat) : FVal := f.read ftz (raw r l e)
    let nan (l e : Nat) : Prop := (x a l e).isNan ∨ (x b l e).isNan
    let op (i : Instr) (r : FVal → FVal → Bool) (nv : Nat → Nat → Prop) : Prop :=
      ∃ u y fl, s.gotP u g act y ∧ exec i s = .next (u.raise fl) ∧
        (∀ l, l < 4 → (y l = true ↔ ∀ e, e < n → r (x a l e) (x b l e) = true)) ∧
        (fl = flagNV ∨ fl = 0) ∧ (fl = flagNV ↔ ∃ l e, l < 4 ∧ bitOf act l ∧ e < n ∧ nv l e)
    let sig (l e : Nat) : Prop := (x a l e).isSig ∨ (x b l e).isSig
    (s.cleanV pr [a, b] →
      op (.fcmpeq g a b t pr) (fun p q => !p.isNan && !q.isNan && !p.below false q && !q.below false p) sig ∧
      op (.fcmplt g a b t pr) (fun p q => p.below false q) nan ∧
      op (.fcmple g a b t pr) (fun p q => !p.isNan && !q.isNan && !q.below false p) nan ∧
      op (.fcmpun g a b t pr) (fun p q => p.isNan || q.isNan) sig ∧
      s.writesEls (.fcpsgn d a b t pr) d act w (fun l e =>
        raw a l e % 2 ^ (w - 1) + raw b l e / 2 ^ (w - 1) * 2 ^ (w - 1))) ∧
    (s.cleanV pr [a] →
      s.writesEls (.fabs d a t pr) d act w (fun l e => raw a l e % 2 ^ (w - 1)) ∧
      s.writesEls (.fneg d a t pr) d act w (fun l e => (raw a l e + 2 ^ (w - 1)) % 2 ^ w) ∧
      s.writesEls (.fclass d a t pr) d act w (fun l e =>
        match f.value (raw a l e) with
        | .nan sg => if sg then 0x100 else 0x200
        | .inf neg => if neg then 0x001 else 0x080
        | .num neg m _ =>
          if m = 0 then (if neg then 0x008 else 0x010)
          else if m < 2 ^ f.fbits then (if neg then 0x004 else 0x020)
          else (if neg then 0x002 else 0x040)))

/-- R69, R74 to R76, R131, R132: conversions of the n low elements of each active lane, packed low, zero above. cvtsr
draws its thresholds from KSEED, which then advances unless the pair's C-word wrote it. A conversion to an integer
saturates with NV, and a NaN gives 0. -/
def Obligations.Conversions : Prop :=
  ∀ (s : State) (d a : Fin 32) (y : TyCode) (t : FFmt) (pr : Fin 8) (g : FloatFmt) (k : Bool × Nat),
    s.cleanV pr [a] →
    let f := t.fmt
    let env := envOf s.src.k.fpc
    let x (w l e : Nat) : Nat := el w e (lane l (s.src.v a))
    let scale (l : Nat) : Nat := (lane l (s.src.v a)).toNat / 2 ^ 56
    let op (i : Instr) (ws wd : Nat) (res : Nat → Nat → FRes) : Prop :=
      s.writesF i s d (s.active pr) wd (64 / max ws wd) res
    let next : State := if s.cur.seedSet then s else s.modCx fun c => { c with k.seed := c.k.seed + 1 }
    (y.float? = some g →
      op (.cvtf d a y t pr) f.width g.width (fun l e => g.convert env (f.read env.ftz (x f.width l e))) ∧
      op (.cvtq d a y t pr) g.width f.width (fun l e =>
        if scale l = 0xFF then ⟨f.nanCode, 0⟩ else
        match g.value (x g.width l e) with
        | .num neg m p => f.round env neg m (p + (scale l - 127))
        | v => f.deliver env v) ∧
      s.writesF (.cvtsr d a y t pr) next d (s.active pr) g.width (64 / max f.width g.width) (fun l e =>
        g.stochastic env.ftz (srThreshold s.src.k.seed l e) (f.read env.ftz (x f.width l e)))) ∧
    (y.int? = some k →
      op (.cvtfi d a y t pr) f.width k.2 (fun l e => toInteger env.rm k.1 k.2 (f.read env.ftz (x f.width l e))) ∧
      op (.cvtif d a y t pr) k.2 f.width (fun l e =>
        let v := x k.2 l e
        let z : Int := if k.1 ∧ 2 ^ (k.2 - 1) ≤ v then (v : Int) - 2 ^ k.2 else v
        f.round env (decide (z < 0)) z.natAbs 0)) ∧
    op (.cvtdq d a pr) 64 16 (fun l e => toInteger env.rm true 16 (fmtF64.read env.ftz (x 64 l e))) ∧
    (∀ rm sg w, toInteger rm sg w (.nan sg) = ⟨0, flagNV⟩ ∧
      toInteger rm true 16 (.inf true) = ⟨0x8000, flagNV⟩ ∧ toInteger rm true 16 (.inf false) = ⟨0x7FFF, flagNV⟩ ∧
      toInteger rm false 8 (.num false 300 0) = ⟨0xFF, flagNV⟩ ∧ toInteger rm sg 32 (.num true 0 w) = ⟨0, 0⟩)

/-- R133, R134, R135: the special-function unit: its results arrive later; what it gives for a zero, an infinity and a NaN;
frcp gives one of the two values that bracket the exact result, and fsqrt under RTZ the one not larger. Which of the two
frcp gives, and the values of fexp2, flog2, fsin and fcos within their bounds, are free in the model (log 6): no bound of
those four is stated. -/
def Obligations.SpecialFunctions : Prop :=
  (∀ (s : State) (d a b : Fin 32) (t : SFmt) (pr : Fin 8),
    let f := t.fmt
    let w := f.width
    let env := envOf s.src.k.fpc
    let act := s.active pr
    let x (r : Fin 32) (l e : Nat) : Nat := el w e (lane l (s.src.v r))
    let op (i : Instr) (res : Nat → Nat → FRes) : Prop := s.does i fun t =>
      (∃ r, t.here.sfu = s.here.sfu ++ [r] ∧ r.ctx = s.cur.ctx ∧ r.dst = d ∧ r.lanes = act ∧
        flagsOf act (64 / w) (fun l e => (res l e).flags) r.flags ∧
        ∀ l e, l < 4 → e < 64 / w → el w e (lane l r.value) = (res l e).code % 2 ^ w) ∧
      t.cx = s.cx.pend (.v d act) true ∧ t.agenda = s.agenda ++ [⟨.sfuResultRetire, { core := s.cur.core }, 0⟩] ∧
      (∀ c : Fin 11, c ≠ s.cur.ctx → t.here.ctxs[c] = s.here.ctxs[c]) ∧ (∀ k, t.byteAt k = s.byteAt k)
    (s.cleanV pr [a] →
      op (.frcp d a t pr) (fun l e => f.rcp env (x a l e)) ∧ op (.frsq d a t pr) (fun l e => f.rsq env (x a l e)) ∧
      op (.fsqrt d a t pr) (fun l e => f.sqrt env (x a l e)) ∧
      op (.fexp2 d a t pr) (fun l e => f.exp2 env (x a l e)) ∧
      op (.flog2 d a t pr) (fun l e => f.log2 env (x a l e)) ∧
      op (.fsin d a t pr) (fun l e => f.sine env 0 (x a l e)) ∧
      op (.fcos d a t pr) (fun l e => f.sine env 1 (x a l e))) ∧
    (s.cleanV pr [a, b] → op (.fdiv d a b t pr) (fun l e => f.div env (x a l e) (x b l e))) ∧
    (∀ (n : Nat) (r : SfuItem) (rest : List SfuItem), s.ev.core = n → (s.core n).sfu = r :: rest →
      s.does .sfuResultRetire fun t =>
        (t.core n).sfu = rest ∧
        (∀ l, l < 4 → lane l ((t.ctx n r.ctx).v r.dst) =
          if bitOf r.lanes l then lane l r.value else lane l ((s.ctx n r.ctx).v r.dst)) ∧
        (∀ q : Fin 32, q ≠ r.dst → (t.ctx n r.ctx).v q = (s.ctx n r.ctx).v q) ∧
        (t.ctx n r.ctx).k.fpc = (s.ctx n r.ctx).k.fpc ||| (r.flags.setWidth 64 <<< 8) ∧
        bitOf (t.ctx n r.ctx).vPend r.dst.val = false ∧ (t.ctx n r.ctx).pc = (s.ctx n r.ctx).pc ∧
        (∀ c : Fin 11, c ≠ r.ctx → t.ctx n c = s.ctx n c) ∧ (∀ k, t.byteAt k = s.byteAt k))) ∧
  (∀ (f : FloatFmt) (env : FloatEnv), f = fmtF64 ∨ f = fmtF32 →
    let z (n : Bool) : Nat := if n then 2 ^ (f.width - 1) else 0
    let inf (n : Bool) : Nat := f.infCode + z n
    let one : Nat := (2 ^ (f.ebits - 1) - 1) * 2 ^ f.fbits
    let bad : FRes := ⟨f.nanCode, flagNV⟩
    (∀ n, f.rcp env (z n) = ⟨inf n, flagDZ⟩ ∧ f.rsq env (z n) = ⟨inf n, flagDZ⟩ ∧ f.sqrt env (z n) = ⟨z n, 0⟩ ∧
      f.exp2 env (z n) = ⟨one, 0⟩ ∧ f.log2 env (z n) = ⟨inf true, flagDZ⟩ ∧ f.sine env 0 (z n) = ⟨z n, 0⟩ ∧
      f.sine env 1 (z n) = ⟨one, 0⟩) ∧
    (f.rcp env (inf false) = ⟨0, 0⟩ ∧ f.rsq env (inf false) = ⟨0, 0⟩ ∧ f.sqrt env (inf false) = ⟨f.infCode, 0⟩ ∧
      f.exp2 env (inf false) = ⟨f.infCode, 0⟩ ∧ f.log2 env (inf false) = ⟨f.infCode, 0⟩) ∧
    (f.rcp env (inf true) = ⟨z true, 0⟩ ∧ f.rsq env (inf true) = bad ∧ f.sqrt env (inf true) = bad ∧
      f.exp2 env (inf true) = ⟨0, 0⟩ ∧ f.log2 env (inf true) = bad) ∧
    (∀ n, f.sine env 0 (inf n) = bad ∧ f.sine env 1 (inf n) = bad) ∧
    (f.div env 0 0 = bad ∧ f.div env (inf false) (inf true) = bad ∧ f.div env one (z true) = ⟨inf true, flagDZ⟩) ∧
    (∀ x sg, f.value x = .nan sg →
      let nan : FRes := ⟨f.nanCode, if sg then flagNV else 0⟩
      f.rcp env x = nan ∧ f.rsq env x = nan ∧ f.sqrt env x = nan ∧ f.exp2 env x = nan ∧ f.log2 env x = nan ∧
        f.sine env 0 x = nan ∧ f.sine env 1 x = nan ∧ (f.div env x 0).code = f.nanCode ∧ (f.div env 0 x).code = f.nanCode) ∧
    (∀ x n m e, f.value x = .num n m e → m ≠ 0 → env.ftz = false →
      let mag (c : Nat) : ℚ := |(f.value c).rat|
      let v : ℚ := (m : ℚ) * (2 : ℚ) ^ e
      (bitOf (f.rcp env x).flags 2 = false → ∃ c, c ≤ f.maxCode ∧
        ((f.rcp env x).code = z n + c ∨ (f.rcp env x).code = z n + c + 1) ∧ mag c * v ≤ 1 ∧
        (c < f.maxCode → 1 < mag (c + 1) * v)) ∧
      (n = false → env.rm = .rtz →
        let c := (f.sqrt env x).code
        c < f.maxCode ∧ mag c * mag c ≤ v ∧ v < mag (c + 1) * mag (c + 1))))

/-- R70: rounding to a format in each of the five modes. Toward zero gives the largest value that is not larger in magnitude;
to nearest gives that one or the next, whichever is nearer, and on a tie the one with an even last fraction bit, or the one
larger in magnitude; downward and upward give the one or the next by the sign; where nothing overflows. NX is raised exactly
when the result differs from the exact value. -/
def Obligations.RoundingIsCorrect : Prop :=
  ∀ (f : FloatFmt) (neg : Bool) (m : Nat) (e : Int),
    f ∈ [fmtF64, fmtF32, fmtF16, fmtBf16, fmtE5m2, fmtE4m3, fmtE2m1] → m ≠ 0 →
    let mag (c : Nat) : ℚ := match f.value c with
      | .num _ p g => (p : ℚ) * (2 : ℚ) ^ g
      | _ => 0
    let x : ℚ := (m : ℚ) * (2 : ℚ) ^ e
    let sign : Nat := if neg then 2 ^ (f.width - 1) else 0
    let z := f.round { rm := .rtz } neg m e
    let r := f.round { rm := .rne } neg m e
    bitOf z.flags 2 = false → bitOf r.flags 2 = false → ∃ c, c ≤ f.maxCode ∧
      z.code = sign + c ∧ mag c ≤ x ∧ (c < f.maxCode → x < mag (c + 1)) ∧
      (bitOf z.flags 0 = true ↔ mag c ≠ x) ∧ (bitOf r.flags 0 = true ↔ mag c ≠ x) ∧
      (c < f.maxCode →
        (2 * x < mag c + mag (c + 1) → r.code = sign + c) ∧ (mag c + mag (c + 1) < 2 * x → r.code = sign + c + 1) ∧
        (2 * x = mag c + mag (c + 1) → r.code = sign + if c % 2 = 0 then c else c + 1) ∧
        (f.round { rm := .rdn } neg m e).code = sign + (if neg = true ∧ mag c ≠ x then c + 1 else c) ∧
        (f.round { rm := .rup } neg m e).code = sign + (if neg = false ∧ mag c ≠ x then c + 1 else c) ∧
        (mag c ≠ x → (f.round { rm := .rna } neg m e).code = sign + if mag c + mag (c + 1) ≤ 2 * x then c + 1 else c) ∧
        (mag c = x → (f.round { rm := .rna } neg m e).code = sign + c))

/-- R27, R28, R147 to R149: scalar loads and stores of own ULM, and the checks before them: alignment, a segment that covers
the access, and one that grants its mode what it needs. A store drops the fetched bundles of its sectors. Where another
core's window store came shortly before and wrote all that a load reads, the load may still give the bytes before it, as
R232 lets it: whether it does is free in the model (log 30). -/
def Obligations.LocalLoadsAndStores : Prop :=
  (∀ (s : State) (d a : Fin 32) (o : BitVec 11), s.wf →
    let ea (n : Nat) : Nat := (s.src.g a + o.signExtend 64 * BitVec.ofNat 64 n).toNat
    let key (n : Nat) : Nat := ulmKey s.cur.core (ea n)
    let x (n : Nat) : Nat := leNat ((List.range n).map fun k => s.byteAt (key n + k))
    let ext (signed : Bool) (n y : Nat) : Word :=
      if signed ∧ 2 ^ (8 * n - 1) ≤ y then BitVec.ofInt 64 ((y : Int) - 2 ^ (8 * n)) else BitVec.ofNat 64 y
    let load (i : Instr) (signed : Bool) (n : Nat) : Prop := s.localCheck (ea n) n { r := true } = .ok →
      (s.here.past = [] → s.does i fun t => s.gotG t d (ext signed n (x n)) (s.poisoned (key n))) ∧
      s.does i fun t =>
        (∃ y bad, t.cx.g d = (if d = 0 then 0 else ext signed n y) ∧ t.cx.gBad d = (decide (d ≠ 0) && bad) ∧
          ((y = x n ∧ bad = s.poisoned (key n)) ∨ ∃ e ∈ s.here.past, e.off ≤ ea n ∧ ea n + n ≤ e.off + e.old.length ∧
            y = leNat ((List.range n).map fun k => (e.old[ea n - e.off + k]?).getD 0) ∧ bad = e.bad)) ∧
        (∀ r, r ≠ d → t.cx.g r = s.cx.g r ∧ t.cx.gBad r = s.cx.gBad r) ∧
        t.cx = { s.cx with r.g := t.cx.r.g, r.gMark := t.cx.r.gMark, r.gAt := t.cx.r.gAt } ∧
        t.here = { s.here with ctxs := t.here.ctxs, past := t.here.past, klatent := t.here.klatent } ∧
        (∀ c : Fin 11, c ≠ s.cur.ctx → t.here.ctxs[c] = s.here.ctxs[c]) ∧
        t = { s with cores := t.cores, fresh := t.fresh } ∧ ∀ c, c ≠ s.cur.core → t.core c = s.core c
    let store (i : Instr) (n : Nat) : Prop := s.localCheck (ea n) n { w := true } = .ok →
      s.stores i (ea n) n (s.src.g d).toNat
    (s.cleanG [a] →
      load (.ld8 d a o) true 1 ∧ load (.ld8z d a o) false 1 ∧ load (.ld16 d a o) true 2 ∧ load (.ld16z d a o) false 2 ∧
      load (.ld32 d a o) true 4 ∧ load (.ld32z d a o) false 4 ∧ load (.ld64 d a o) false 8) ∧
    (s.cleanG [a, d] → store (.st8 d a o) 1 ∧ store (.st16 d a o) 2 ∧ store (.st32 d a o) 4 ∧ store (.st64 d a o) 8)) ∧
  (∀ (s : State) (d a : Fin 32) (o : BitVec 11) (i : Instr) (n : Nat) (store : Bool),
    (i, n, store) ∈ [(Instr.ld8 d a o, 1, false), (.ld8z d a o, 1, false), (.ld16 d a o, 2, false),
      (.ld16z d a o, 2, false), (.ld32 d a o, 4, false), (.ld32z d a o, 4, false), (.ld64 d a o, 8, false),
      (.st8 d a o, 1, true), (.st16 d a o, 2, true), (.st32 d a o, 4, true), (.st64 d a o, 8, true)] →
    s.cleanG [a, d] →
    let ea : Word := s.src.g a + o.signExtend 64 * BitVec.ofNat 64 n
    let e := ea.toNat
    let covers (k : Word) : Prop := k.toNat % 2 ^ 17 ≤ e ∧ e + n ≤ k.toNat / 2 ^ 18 % 2 ^ 18
    let grants (k : Word) : Prop :=
      k.getLsbD ((if s.src.mode then 39 else 36) + if store then 1 else 0) = true
    let some_ (p : Word → Prop) : Prop := ∃ j : Fin 4, p s.here.kseg[j]
    (s.plain → e % n ≠ 0 → s.faults i Cause.align ea) ∧
    (s.plain → e % n = 0 → ¬ some_ covers → s.faults i Cause.ulmbound ea) ∧
    (s.plain → e % n = 0 → e + n ≤ 2 ^ 17 → some_ covers → ¬ some_ (fun k => covers k ∧ grants k) →
      s.faults i Cause.priv ea) ∧
    (e % n = 0 → e + n ≤ 2 ^ 17 → some_ (fun k => covers k ∧ grants k) → s.calm →
      s.localCheck e n { r := !store, w := store } = .ok))

/-- R150, R212, R214: vector loads and stores, lane by lane, when the checks of every active lane pass: KLRES names the lanes, a
load writes and marks them, a store puts their bytes in ascending lanes. Lane faults are taken together: KCAUSE names
the lanes, KLRES those that have performed, and the code is that of the lowest lane whose cause is not PAGEWAIT; where every
cause is PAGEWAIT a user context parks with the same records, and a supervisor context waits with nothing performed. -/
def Obligations.VectorLoadsAndStores : Prop :=
  ∀ (s : State) (d a b : Fin 32) (o : BitVec 11), s.wf →
    let m := s.kmask
    let row (l : Nat) : Word := s.src.g a + o.signExtend 64 * 32 + BitVec.ofNat 64 (8 * l)
    let idx (l : Nat) : Word := s.src.g b + lane l (s.src.v a)
    let load (i : Instr) (ad : Nat → Word) : Prop :=
      ∃ u, s.gotV u d m (fun l => BitVec.ofNat 64 (s.loadNat (s.hereKey (ad l).toNat) 8))
          (ofBits fun l => s.poisoned (s.hereKey (ad l).toNat)) ∧
        exec i s = .next (u.modCx fun x => { x with k.lres := m.setWidth 64 })
    let store (i : Instr) (ad : Nat → Word) : Prop :=
      let key (l : Nat) : Nat := s.hereKey (ad l).toNat
      s.does i fun t =>
        t.cx = { s.cx with k.lres := m.setWidth 64, fbuf := t.cx.fbuf } ∧
        (∀ c : Fin 11, c ≠ s.cur.ctx → t.here.ctxs[c] = { s.here.ctxs[c] with fbuf := (t.here.ctxs[c]).fbuf }) ∧
        (∀ n, n ≠ s.cur.core → t.core n = s.core n) ∧
        (∀ l k, l < 4 → bitOf m l → k < 8 →
          (∀ j, l < j → j < 4 → bitOf m j → key l + k < key j ∨ key j + 8 ≤ key l + k) →
          t.byteAt (key l + k) = byteOf (lane l (s.src.v d)).toNat k) ∧
        (∀ x, (∀ l, l < 4 → bitOf m l → x < key l ∨ key l + 8 ≤ x) → t.byteAt x = s.byteAt x)
    let allOk (ad : Nat → Word) (need : Perm) : Prop :=
      ∀ l, l < 4 → bitOf m l → s.localCheck (ad l).toNat 8 need = .ok
    let faulting (i : Instr) (ad : Nat → Word) (marks : Mask) (need : Perm) : Prop :=
      let chk (l : Nat) : Check := s.laneCheck (bitOf marks l) (ad l) 8 need
      let fault (l : Nat) : Option (Cause × Word) := (chk l).fault?
      ∀ (bad : Mask) (j : Nat) (f : Cause × Word), s.cur.replay = none → (∀ l, l < 4 → bitOf m l → chk l ≠ .wait) →
        (∀ l, l < 4 → bitOf bad l = (bitOf m l && (fault l).isSome)) → j < 4 → bitOf bad j → fault j = some f →
        let done : Mask := m &&& ~~~bad
        let key (l : Nat) : Nat := s.hereKey (ad l).toNat
        let taken (t : State) : Prop :=
          t.cx.k.cause = (s.faultCause f.1 ||| (bad.setWidth 64 <<< 8) ||| (0x4000 : Word)) ∧
          t.cx.k.addr = f.2 &&& (0x00FFFFFFFFFFFFFF : Word) ∧ t.cx.k.epc = s.cur.at_.setWidth 64 ∧
          t.cx.k.lres = done.setWidth 64 ∧
          (∀ l : Fin 4, t.cx.k.lf[l] = if bitOf bad l then (fault l).elim 0 fun g => klf g.1 g.2 else 0) ∧
          (need.r = true → (∀ a, t.byteAt a = s.byteAt a) ∧ ∀ l, l < 4 → lane l (t.cx.v d) =
            if bitOf done l then BitVec.ofNat 64 (s.loadNat (key l) 8) else lane l (s.cx.v d)) ∧
          (need.w = true → t.cx.r = s.cx.r ∧ (∀ l k, l < 4 → bitOf done l → k < 8 →
            (∀ j, l < j → j < 4 → bitOf done j → key l + k < key j ∨ key j + 8 ≤ key l + k) →
            t.byteAt (key l + k) = byteOf (lane l (s.src.v d)).toNat k) ∧
            (∀ x, (∀ l, l < 4 → bitOf done l → x < key l ∨ key l + 8 ≤ x) → t.byteAt x = s.byteAt x))
        (¬ s.doubleFault → f.1 ≠ Cause.pagewait →
          (∀ l g, l < j → bitOf bad l → fault l = some g → g.1 = Cause.pagewait) →
          s.does i fun t => taken t ∧ t.cx.mode = true ∧ t.cx.pmode = s.cx.mode ∧ t.cx.pc = trapEntry s.here.kstvec) ∧
        ((∀ l g, l < 4 → bitOf bad l → fault l = some g → g.1 = Cause.pagewait) → (∀ l, l < j → bitOf bad l = false) →
          (s.src.mode = false → s.does i fun t => taken t ∧ t.cx.parked = true ∧ t.cx.mode = s.cx.mode ∧ t.cx.pc = s.cur.p) ∧
          (s.src.mode = true → s.does i fun t => t.cur.stalled = true ∧ t.cx.r = s.cx.r ∧ t.cx.k = s.cx.k ∧
            t.cx.parked = s.cx.parked ∧ ∀ a, t.byteAt a = s.byteAt a))
    (s.cleanG [a] → (allOk row { r := true } → load (.vld d a o) row) ∧
      (allOk row { w := true } → store (.vst d a o) row)) ∧
    (s.cleanG [b] → s.src.vBad a &&& m = 0 →
      (allOk idx { r := true } → load (.vldx d a b) idx) ∧ (allOk idx { w := true } → store (.vstx d a b) idx)) ∧
    (s.cleanG [a] → faulting (.vld d a o) row 0 { r := true } ∧ faulting (.vst d a o) row 0 { w := true }) ∧
    (s.cleanG [b] → faulting (.vldx d a b) idx (s.src.vBad a) { r := true } ∧
      faulting (.vstx d a b) idx (s.src.vBad a) { w := true })

/-- R146, R151 to R153: a window access of a well-formed, aligned address takes an entry and leaves; its destination is
pending. It is performed at the core it names as one step, under the segments that held there when it was issued (R29),
or refused, and the answer retires into the issuing context. -/
def Obligations.WindowAccesses : Prop :=
  ∀ (s : State) (d a b : Fin 32),
    let va := s.src.g a + s.src.g b
    let formed : Prop := va.toNat / 2 ^ 55 = 1 ∧ va.toNat / 2 ^ 17 % 2 ^ 11 = 0
    let e (op : WinOp) (data : VReg) (dst : Dest) : WinEntry :=
      { id := s.nextId, ctx := s.cur.ctx, off := s.cur.p, op := op, va := va, data := data, cmp := 0, dst := dst,
        acq := false, resp := none, remote := none, segs := s.segsAt va }
    let sends (i : Instr) (n : Nat) (x : WinEntry) : Prop :=
      (formed → va.toNat % n = 0 → s.here.win.length < 48 → s.acquiring = false → s.does i fun t => s.sentWindow t x) ∧
      (s.plain → ¬ formed → s.faults i Cause.ulmbound va) ∧
      (s.plain → formed → va.toNat % n ≠ 0 → s.faults i Cause.align va)
    let c := s.ev.core
    let entry := (s.core c).entry? s.ev.id
    (s.cleanG [a, b] →
      sends (.ldw32 d a b) 4 (e (.ld 4) 0 (.g d)) ∧ sends (.ldw64 d a b) 8 (e (.ld 8) 0 (.g d)) ∧
      sends (.vldw d a b) 32 (e (.vld s.kmask) 0 (.v d s.kmask)) ∧
      (s.src.vBad d &&& s.kmask = 0 → sends (.vstw d a b) 32 (e (.vst s.kmask) (s.src.v d) .none))) ∧
    (s.cleanG [a, b, d] →
      sends (.stw32 d a b) 4 (e (.st 4) ((s.src.g d).setWidth 256) .none) ∧
      sends (.stw64 d a b) 8 (e (.st 8) ((s.src.g d).setWidth 256) .none)) ∧
    (∀ x, s.wf → entry = some x → x.resp = none → x.remote = none →
      (s.core c).winBefore s.mgmt.pkgnum.toNat x = false → s.remote x.va = false →
      (winCore x.va = c → s.copyHeld c x.ctx x.id (winOff x.va) x.op.bytes x.op.writes = false) →
      s.portTaken (winCore x.va) = false →
      let key := ulmKey (winCore x.va) (winOff x.va)
      let ok : Prop := s.live (s.core c).launch (winCore x.va) = true ∧
        winPermitted (x.segs.getD (s.core (winCore x.va)).kseg) x.op (winOff x.va) = true
      let answered (t : State) (r : WinResp) : Prop :=
        (t.core c).entry? s.ev.id = some { x with resp := some r } ∧
        t.agenda = s.agenda ++ [{ op := .windowResponse, arg := { core := c, id := s.ev.id }, lane := 0 }]
      (¬ ok → s.does .windowRequest fun t => answered t ⟨Cause.window, 0, 0⟩ ∧ ∀ k, t.byteAt k = s.byteAt k) ∧
      (∀ n, ok → x.op = .ld n → s.does .windowRequest fun t =>
        answered t ⟨0, BitVec.ofNat 256 (s.loadNat key n), if s.poisoned key then 0xF else 0⟩ ∧
        ∀ k, t.byteAt k = s.byteAt k) ∧
      (∀ n, ok → x.op = .st n → s.does .windowRequest fun t =>
        answered t ⟨0, 0, 0⟩ ∧ s.gotMem t key n (byteOf x.data.toNat))) ∧
    (∀ x r, entry = some x → x.resp = some r → x.op ≠ .mwait →
      (∀ g, r.cause = 0 → x.dst = .g g → s.does .windowResponse fun t =>
        (t.core c).entry? s.ev.id = none ∧
        (t.ctx c x.ctx).g g = (if g = 0 then 0 else lane 0 r.data) ∧
        (t.ctx c x.ctx).gBad g = (decide (g ≠ 0) && decide (r.mark ≠ 0)) ∧
        (g ≠ 0 → bitOf (t.ctx c x.ctx).gPend g = false) ∧
        (∀ q, q ≠ g → (t.ctx c x.ctx).g q = (s.ctx c x.ctx).g q) ∧ (∀ k, t.byteAt k = s.byteAt k)) ∧
      (r.cause ≠ 0 → s.does .windowResponse fun t =>
        (t.core c).entry? s.ev.id = none ∧
        (t.ctx c x.ctx).reports = (s.ctx c x.ctx).reports ++
          [{ cause := r.cause, va := x.va, off := x.off, dst := x.dst }] ∧
        (t.ctx c x.ctx).r = (s.ctx c x.ctx).r ∧ (∀ k, t.byteAt k = s.byteAt k)))

/-- R154: the atomics. A local one, whose checks pass, reads the old value into gD, zero-extended, and writes the new
one, if there is one, in one step; a window one takes an entry with its operands. -/
def Obligations.Atomics : Prop :=
  ∀ (s : State) (d a b : Fin 32) (w : AWidth) (r : Order) (c : Scope), s.wf → s.cleanG [a, b, d] →
    let va := s.src.g a
    let n := if w = .w then 4 else 8
    let k := 8 * n
    let key := s.hereKey va.toNat
    let old := s.loadNat key n
    let y := (s.src.g b).toNat % 2 ^ k
    let sg (x : Nat) : Int := if x < 2 ^ (k - 1) then x else (x : Int) - 2 ^ k
    let rel : Prop := r = .rel ∨ r = .ar
    let free : Prop := rel → s.released = true
    let f : FloatFmt := if w = .w then fmtF32 else fmtF64
    let op (i : Instr) (fn : AtomFn) (new : Option Nat) : Prop :=
      (bitOf va 55 = false → s.localCheck va.toNat n { r := true, w := true } = .ok → free →
        s.here.run.up = true → s.here.brineLevel < 2 → s.poisoned key = false →
        ∃ u, s.does i (fun t => u.gotG t d (BitVec.ofNat 64 old) false) ∧ s.memOnly u ∧ u.refetches s.cur.core va.toNat n ∧
          s.gotMem u key n fun j => match new with
            | some x => byteOf x j
            | none => s.byteAt (key + j)) ∧
      (bitOf va 55 = true → winForm va = true → va.toNat % n = 0 → s.here.win.length < 48 → s.acquiring = false →
        free → s.does i fun t => s.sentWindow t
          { id := s.nextId, ctx := s.cur.ctx, off := s.cur.p, op := .atom fn w, va := va,
            data := (s.src.g b).setWidth 256, cmp := s.src.g d, dst := .g d, acq := decide (r = .acq ∨ r = .ar),
            resp := none, remote := none, segs := s.segsAt va })
    op (.aadd d a b w r c) .add (some ((old + y) % 2 ^ k)) ∧
    op (.aand d a b w r c) .and (some (old &&& y)) ∧ op (.aor d a b w r c) .or (some (old ||| y)) ∧
    op (.axor d a b w r c) .xor (some (old ^^^ y)) ∧
    op (.amin d a b w r c) .min (some (if sg y < sg old then y else old)) ∧
    op (.amax d a b w r c) .max (some (if sg old < sg y then y else old)) ∧
    op (.aminu d a b w r c) .minu (some (min old y)) ∧ op (.amaxu d a b w r c) .maxu (some (max old y)) ∧
    op (.aswp d a b w r c) .swp (some y) ∧
    op (.acas d a b w r c) .cas (if old = (s.src.g d).toNat % 2 ^ k then some y else none) ∧
    op (.afadd d a b w r c) .fadd (some (f.add {} (f.value old) (f.value y)).code) ∧
    (old ≠ 1 ∨ bitOf va 55 = true →
      op (.adecz d a b w r c) .decz (if old = 0 then none else some (old - 1))) ∧
    (old = 1 → bitOf va 55 = false → s.localCheck va.toNat n { r := true, w := true } = .ok → free →
      s.here.brineLevel < 2 → s.poisoned key = false → s.here.run.up = true → s.here.over .q3 = [] →
      (s.here.queue .q3).length < portCap .q3 → s.does (.adecz d a b w r c) fun t =>
        t.here.queue .q3 = s.here.queue .q3 ++ [{ words := [s.src.g b], marks := [false] }] ∧
        t.cx.g d = (if d = 0 then 0 else 1) ∧ s.gotMem t key n fun _ => 0)

/-- R153, R155 to R158: fences and waits. fence takes the oldest report as a trap, and with none, and no access
outstanding, passes; ifence passes when no store is to be performed, and drops what has been fetched; rprobe answers
without a fault; mwait passes when the word has reached the bound and waits below it; a word that reaches the bound is
kept for the context that waits. -/
def Obligations.FencesAndWaits : Prop :=
  ∀ (s : State) (d a b : Fin 32) (w : Bool) (c : Scope),
    let x := s.cx
    let va := s.src.g a
    let v := BitVec.ofNat 64 (s.loadNat (s.hereKey va.toNat) 8)
    (s.here.desync = none → (∀ e ∈ s.here.win, e.ctx ≠ s.cur.ctx) →
      (x.reports = [] → exec (.fence c) s = .next s) ∧
      (∀ r rest, x.reports = r :: rest → ¬ s.doubleFault → s.does (.fence c) fun t =>
        t.cx.reports = rest ∧ t.cx.k.cause = r.cause.setWidth 64 ∧ t.cx.k.epc = r.off.setWidth 64 ∧
        t.cx.k.addr = r.va &&& (0x00FFFFFFFFFFFFFF : Word) ∧ t.cx.k.lres = 0 ∧
        t.cx.k.lf[0] = klf r.cause (s.cur.p.setWidth 64) ∧ t.cx.mode = true ∧ t.cx.pc = trapEntry s.here.kstvec ∧
        t.cx.r = x.r ∧ ∀ k, t.byteAt k = s.byteAt k)) ∧
    ((∀ e ∈ s.here.win, e.ctx = s.cur.ctx → e.resp ≠ none ∨ e.op.writes = false) →
      s.does .ifence fun t => s.became t { x with fbuf := [] }) ∧
    (s.cleanG [a] →
      (2 ^ 55 ≤ va.toNat → s.writesG (.rprobe d a) d 0) ∧
      (∀ pte at_ size, va.toNat < 2 ^ 55 → s.walkNow (s.pasidOf s.cur.core) va.toNat = .leaf pte at_ size →
        s.writesG (.rprobe d a) d (BitVec.ofNat 64 (pte.toNat / 2 ^ 58 % 4 * 2 ^ 12 + pte.toNat / 2 ^ 56 % 4 * 2 ^ 10 +
          colour va.toNat * 16 + sizeCode size * 4 + 2 + pte.toNat / 2 % 2))) ∧
      (∀ q, va.toNat < 2 ^ 55 → s.walkNow (s.pasidOf s.cur.core) va.toNat = q → (∀ p k z, q ≠ .leaf p k z) →
        s.writesG (.rprobe d a) d (BitVec.ofNat 64 (colour va.toNat * 16)))) ∧
    (s.cleanG [a, b] → x.reports = [] → x.mwaitVal = none → bitOf va 55 = false →
      s.localCheck va.toNat 8 { r := true } = .ok →
      ((s.src.g b).toNat ≤ v.toNat ∨ s.poisoned (s.hereKey va.toNat) = true →
        s.does (.mwait d a b w c) fun t => s.gotG t d v (s.poisoned (s.hereKey va.toNat))) ∧
      (v.toNat < (s.src.g b).toNat → s.poisoned (s.hereKey va.toNat) = false →
        s.does (.mwait d a b w c) fun t => t.cur.stalled = true ∧ t.cx.r = x.r ∧ t.cx.pc = x.pc ∧
          t.cx.block.map Block.kind = some (.mwait w va (s.src.g b)))) ∧
    (∀ v' mark, s.cleanG [a, b] → x.reports = [] → x.mwaitVal = some (v', mark) →
      (s.src.g b).toNat ≤ v'.toNat ∨ mark = true →
      ∃ u, s.became u { x with mwaitVal := none } ∧ s.does (.mwait d a b w c) fun t => u.gotG t d v' mark) ∧
    (∀ (n : Nat) (k : Fin 11) swap ad bound key, (∃ q ∈ s.cores, q.1 = n) →
      (s.ctx n k).block.map Block.kind = some (.mwait swap ad bound) → (s.ctx n k).mwaitVal = none →
      (s.ctx n k).susp = false → s.mwaitKey n ad = some key → bound.toNat ≤ s.loadNat key 8 →
      (s.watch.ctx n k).mwaitVal = some (BitVec.ofNat 64 (s.loadNat key 8), s.poisoned key))

/-- R159, R160, R162: a copy instruction with room on its tag, and whose operands pass the checks, becomes one request
to the copy engines: the tag counts it and covers its own ends, the request is on its way, and nothing else changes but
KLRES of a lane copy and the pending predicate of one that does not wait. A copy of no bytes completes at once. -/
def Obligations.CopyInstructions : Prop :=
  ∀ (s : State) (d a b : Fin 32) (p : Fin 8) (m nf : Bool) (g : Fin 16),
    let x := s.src.g d
    let y := s.src.g a
    let z := s.src.g b
    let k := s.kmask
    let v (l : Nat) : Word := lane l (s.src.v a)
    let own (l : Nat) : Word := z + BitVec.ofNat 64 (16 * l)
    let slot : Prop := (s.here.tags.toList.map Tag.count).sum < 64 ∧ s.here.tags[g].count < 64 ∧ s.released = true ∧
      s.here.run.up = true ∧ s.isSaved s.here.launch s.cur.core = false
    let sent (i : Instr) (cx : Context) (q : Copy → Prop) : Prop := s.does i fun t => ∃ c : Copy,
      t = { s with
        cores := t.cores, copies := s.copies ++ [c], nextId := s.nextId + 1,
        agenda := s.agenda ++ [{ op := .copyRequestReceipt, arg := { id := s.nextId }, lane := 0 }] } ∧
      c.id = s.nextId ∧ c.core = s.cur.core ∧ c.ctx = s.cur.ctx ∧ c.tag = g ∧ c.launch = s.here.launch ∧ c.mb = m ∧
      c.next = 0 ∧ c.status = 0 ∧ q c ∧ t.cx = cx ∧
      t.here.tags[g] = { s.here.tags[g] with
        count := s.here.tags[g].count + 1, dst := rangeUnion s.here.tags[g].dst c.dstR,
        src := rangeUnion s.here.tags[g].src c.srcR } ∧
      (∀ j, j ≠ g → t.here.tags[j] = s.here.tags[j]) ∧ (∀ n, n ≠ s.cur.core → t.core n = s.core n) ∧
      ∀ c' : Fin 11, c' ≠ s.cur.ctx → t.here.ctxs[c'] = s.here.ctxs[c']
    let okRows (rows : List Row) : Prop := s.rowFault x y rows = none
    let lanesPass (toUlm : Bool) : Prop := k ≠ 0 ∧ s.src.gBad b = false ∧ s.src.vBad a &&& k = 0 ∧
      ∀ l, l < 4 → bitOf k l → (v l).toNat % 16 = 0 ∧ (own l).toNat % 16 = 0 ∧ s.badEnd (v l) 16 = false ∧
        (own l).toNat + 16 ≤ 2 ^ 17 ∧
        segCheck s.here.kseg s.src.mode (own l).toNat 16 (if toUlm then { w := true } else { r := true }) = none ∧
        s.ownCheck (v l) 16 (if toUlm then { r := true } else { w := true }) = none
    let lres : Context := { s.cx with k.lres := k.setWidth 64 }
    let pairs : List (Nat × Word) := (lanesOf k).map fun l => (l, v l)
    (slot → s.cleanG [d, a, b] →
      (z = 0 → x.toNat % 8 = 0 → y.toNat % 8 = 0 → okRows [{ dst := x, src := y, n := 0, lane := none }] →
        exec (.cpy d a b false nf g) s = .next s) ∧
      (z ≠ 0 → z.toNat < 2 ^ 24 → z.toNat % 8 = 0 → x.toNat % 8 = 0 → y.toNat % 8 = 0 →
        okRows [{ dst := x, src := y, n := z.toNat, lane := none }] →
        sent (.cpy d a b m nf g) s.cx fun c => c.kind = .cpy ∧ c.dst = x ∧ c.src = y ∧ c.shape = z ∧ c.nf = nf ∧
          c.pd = none ∧ c.dstR = s.ownRange s.cur.core x z.toNat ∧ c.srcR = s.ownRange s.cur.core y z.toNat) ∧
      (shLen z ≠ 0 → shLen z % 8 = 0 → x.toNat % 8 = 0 → y.toNat % 8 = 0 →
        okRows ((List.range (shRows z)).map fun r =>
          { dst := x + BitVec.ofNat 64 (r * shDst z), src := y + BitVec.ofNat 64 (r * shSrc z), n := shLen z,
            lane := none }) →
        sent (.cpy2d d a b m nf g) s.cx fun c => c.kind = .cpy2d ∧ c.dst = x ∧ c.src = y ∧ c.shape = z ∧ c.nf = nf ∧
          c.pd = none) ∧
      (z.toNat < 2 ^ 26 → z.toNat / 2 ^ 24 ≠ 3 → z.toNat % 2 ^ 24 % 32 = 0 → x.toNat % 32 = 0 → y.toNat % 8 = 0 →
        bitOf x 55 = false →
        let n := z.toNat % 2 ^ 24 / 32 * (if z.toNat / 2 ^ 24 = 0 then 32 else 16)
        s.badEnd y n = false → s.ownCheck y n { r := true } = none →
        sent (.rdc d a b m g) s.cx fun c => c.kind = .rdc ∧ c.dst = x ∧ c.src = y ∧ c.shape = z ∧ c.dstR = none ∧
          c.srcR = s.ownRange s.cur.core y n)) ∧
    (slot → lanesPass true →
      sent (.lcp a b m g) lres (fun c => c.kind = .lcp ∧ c.dst = winOf s.cur.core 0 + z ∧ c.lanes = pairs ∧
        c.nf = false ∧ c.pd = none) ∧
      sent (.lcpNf p a b m g) (lres.pend (.p p) true) (fun c => c.kind = .lcp ∧ c.dst = winOf s.cur.core 0 + z ∧
        c.lanes = pairs ∧ c.nf = true ∧ c.pd = some p)) ∧
    (slot → lanesPass false →
      sent (.lcs a b m g) lres fun c => c.kind = .lcs ∧ c.src = winOf s.cur.core 0 + z ∧ c.lanes = pairs ∧
        c.nf = false ∧ c.pd = none) ∧
    (slot → s.cleanG [a] → y.toNat % 64 = 0 → y.toNat + 64 ≤ 2 ^ 17 →
      s.alsoHeld (s.here.scoreboard y.toNat 64 false) y.toNat 64 false = .ok → s.poisonedRange (s.hereKey y.toNat) 64 = false →
      let bs := memBytes s.mem (s.hereKey y.toNat) 64
      let q := iredOf bs
      q.illegal bs = false → q.table.toNat % q.rowBytes = 0 → q.stride % q.rowBytes = 0 → q.idxOff % 4 = 0 →
      q.dOff % 32 = 0 → q.idxOff + 4 * q.nidx ≤ 2 ^ 17 → q.dOff + q.destBytes ≤ 2 ^ 17 →
      segCheck s.here.kseg s.src.mode y.toNat 64 { r := true } = none →
      (q.nidx = 0 ∨ segCheck s.here.kseg s.src.mode q.idxOff (4 * q.nidx) { r := true } = none) →
      segCheck s.here.kseg s.src.mode q.dOff q.destBytes { w := true } = none →
      sent (.ired a m g) s.cx fun c => c.kind = .ired ∧ c.src = q.table ∧ c.dst = winOf s.cur.core q.dOff ∧
        c.dstR = some { lo := q.dOff, hi := q.dOff + q.destBytes }) ∧
    (s.here.tags[g].count = 0 →
      ∃ u, s.gotG u d s.here.tags[g].word false ∧ exec (.ctw d g) s = exec (.ctq d g) s ∧
        s.does (.ctw d g) fun t => t.cx = u.cx ∧ t.here.tags[g] = s.here.tags[g].clear ∧
          (∀ j, j ≠ g → t.here.tags[j] = s.here.tags[j]) ∧ ∀ k, t.byteAt k = s.byteAt k) ∧
    (s.here.tags[g].count ≠ 0 → s.writesG (.ctq d g) d s.here.tags[g].word)

/-- R161, R165, R166, R241, R340: the engines. A request received begins; each piece of at most one destination sector is
written with what its source sectors held when they were read, each once and whole: now, or for an earlier piece. Past
the last sector the copy completes, and its tag counts it off. That one step both reads what has not been read and writes
the piece is the model's choice (log 43). -/
def Obligations.CopyEngine : Prop :=
  ∀ (s : State) (c : Copy) (n : Nat), s.wf → s.copy? s.ev.id = some c → c.core = n →
    s.live c.launch n = true → s.isSaved c.launch n = false → c.park = [] →
    let next (t : State) (op : Instr) : Prop := t.agenda = s.agenda ++ [{ op := op, arg := { id := c.id }, lane := 0 }]
    (c.kind = .cpy → s.does .copyRequestReceipt fun t =>
      next t .copySectorWrite ∧ t.copy? c.id = some { c with started := true } ∧ t.cores = s.cores ∧ t.mem = s.mem) ∧
    (c.piece c.next = none → s.does .copySectorWrite fun t => next t .copyComplete ∧ t.mem = s.mem) ∧
    (∀ p, c.kind = .cpy → c.piece c.next = some p → c.out = false → c.got = none → c.refused = none →
      c.marked = [] → winCore c.src = n → winCore c.dst = n → s.portBusy c.launch n = false →
      s.ownEnd n p.src = true → s.ownEnd n p.dst = true → s.poisoned (ulmKey n (winOff p.dst)) = false →
      winForm p.src = true → winForm p.dst = true →
      let lands (b : Nat → Byte) : Prop := s.does .copySectorWrite fun t =>
        next t .copySectorWrite ∧ (∃ r, t.copy? c.id = some { c with next := c.next + 1, read := r }) ∧
        s.gotMem t (ulmKey n (winOff p.dst)) p.n b
      (c.read = [] → s.poisonedRange (ulmKey n (winOff p.src)) p.n = false → winOff p.src + p.n ≤ 2 ^ 17 →
        lands fun k => s.byteAt (ulmKey n (winOff p.src) + k)) ∧
      (∀ bs, p.src.toNat % 32 + p.n ≤ 32 → c.cached p.src.toNat p.n = some (bs, false, false) →
        lands fun k => (bs[k]?).getD 0)) ∧
    (c.kind ≠ .chunk → c.pd = none → c.mb = false → s.does .copyComplete fun t =>
      t.copy? c.id = none ∧ (t.core n).tags[c.tag].count = (s.core n).tags[c.tag].count - 1 ∧
      (t.core n).tags[c.tag].status = topCause (s.core n).tags[c.tag].status c.status ∧
      ((s.core n).tags[c.tag].count = 1 → (t.core n).tags[c.tag].dst = none ∧ (t.core n).tags[c.tag].src = none) ∧
      (∃ l, t.agenda = l ++ [{ op := .c0CompletionReport, arg := { core := n }, lane := 0 }]) ∧ t.mem = s.mem)

/-- R83, R388 to R390: near-memory sums. An rdc step whose destination is there adds eight source elements into the eight
f32 elements of one destination sector. An ired die whose next row is there adds it to its partial; with none left it asks
to be combined. A combination writes the next sector of the lowest die's partial to the destination, as it is for the
first die and added to what stands there for a later one; with no die left the copy completes. -/
def Obligations.NearMemorySums : Prop :=
  ∀ (s : State) (c : Copy) (pa : Nat), s.wf → s.copy? s.ev.id = some c →
    s.live c.launch c.core = true → s.isSaved c.launch c.core = false → c.park = [] → c.read = [] →
    s.portBusy c.launch c.core = false →
    let k := s.ev.n
    let ty := c.shape.toNat / 2 ^ 24 % 4
    let w := if ty = 0 then 4 else 2
    let dst := c.dst + BitVec.ofNat 64 (32 * k)
    let src := c.src + BitVec.ofNat 64 (8 * w * k)
    let from_ := ulmKey c.core (winOff src)
    let q := c.ired
    let j := s.ev.die
    let w' := if q.ty = 0 then 4 else 2
    let mine (p : Nat × List (BitVec 32) × List Bool) : Bool := decide (p.1 = j)
    let to_ := ulmKey c.core (q.dOff + 32 * c.next)
    let f (x y : Nat) : Nat := (fmtF32.add {} (fmtF32.value x) (fmtF32.value y)).code % 2 ^ 32
    let there (op : Instr) (va : Nat) (write : Bool) : Prop :=
      (s.need c.id { op := op, arg := s.ev, lane := 0 } c.launch c.pasid va write).1 = .at_ pa
    (c.kind = .rdc → s.ownEnd c.core src = true → winForm src = true → winOff src + 8 * w ≤ 2 ^ 17 → c.refused = none →
      s.poisonedRange from_ (8 * w) = false → s.poisoned pa = false → s.levelOf c.launch < 2 →
      there .rdcSectorUpdate dst.toNat true →
      s.does .rdcSectorUpdate fun t =>
        (∀ i, i < 8 → t.loadNat (pa + 4 * i) 4 =
          f (toF32 0 (s.loadNat (pa + 4 * i) 4)) (toF32 ty (s.loadNat (from_ + w * i) w))) ∧
        ∀ a, a < pa ∨ pa + 32 ≤ a → t.byteAt a = s.byteAt a) ∧
    ((∀ x ∈ c.idx, colour (q.rowAt x) ≠ j) → s.does .iredFold fun t =>
      t = { s with agenda := s.agenda ++ [{ op := .iredCombine, arg := { id := c.id }, lane := 0 }] }) ∧
    (∀ x, c.idx.find? (fun x => decide (colour (q.rowAt x) = j)) = some x →
      (∀ p ∈ c.parts, p.1 = j → p.2.1.length = q.rowLen ∧ p.2.2.length = q.rowLen) → there .iredFold (q.rowAt x) false →
      s.does .iredFold fun t => ∃ c' vals marks, t.copy? c.id = some c' ∧ c'.idx = c.idx.erase x ∧
        c'.parts.find? mine = some (j, vals, marks) ∧ t.mem = s.mem ∧
        ∀ i, i < q.rowLen →
          let row := toF32 q.ty (s.loadNat (pa + w' * i) w')
          vals[i]? = some (BitVec.ofNat 32 (match c.parts.find? mine with
            | none => row
            | some p => f ((p.2.1[i]?).getD 0).toNat row)) ∧
          marks[i]? = some (s.poisoned (pa + w' * i) ||
            (match c.parts.find? mine with
              | none => false
              | some p => (p.2.2[i]?).getD false))) ∧
    (c.idx = [] → c.parts = [] → s.does .iredCombine fun t =>
      t.agenda = s.agenda ++ [{ op := .copyComplete, arg := { id := c.id }, lane := 0 }] ∧ t.mem = s.mem) ∧
    (∀ d part, c.idx = [] → c.dies.head? = some d → c.parts.find? (fun p => decide (p.1 = d)) = some part →
      (∀ b ∈ part.2.2, b = false) → 8 * c.next + 8 ≤ part.2.1.length → (c.out = true → s.poisoned to_ = false) →
      s.does .iredCombine fun t =>
        (∀ i, i < 8 → t.loadNat (to_ + 4 * i) 4 =
          let x := ((part.2.1[8 * c.next + i]?).getD 0).toNat
          if c.out then f (toF32 0 (s.loadNat (to_ + 4 * i) 4)) x else x) ∧
        (∀ a, a < to_ ∨ to_ + 32 ≤ a → t.byteAt a = s.byteAt a) ∧
        t.agenda = s.agenda ++ [{ op := .iredCombine, arg := { id := c.id }, lane := 0 }])

/-- R167 to R170, R172, R216, R282, R370: the queue instructions of a core whose earlier waiters there are none of. A push
onto a full queue, or behind entries that wait in its ring, is written to the ring in main memory. -/
def Obligations.QueueInstructions : Prop :=
  ∀ (s : State) (d a : Fin 32) (p : Fin 8) (q : Port),
    let y := s.src.g a
    let n := y.toNat % 512
    let cap : Nat := match q with
      | .q0 => 32
      | .q1 => 256
      | .q2 => 32
      | .q3 => 64
    let put (t : State) (e : QEntry) : Prop := match q with
      | .q0 => ∀ l, l < 4 → lane l (t.cx.v d) = e.word l ∧ lane l (t.cx.v (d + 1)) = e.word (4 + l)
      | .q3 => t.cx.g d = if d = 0 then 0 else e.word 0
      | _ => ∀ l, l < 4 → lane l (t.cx.v d) = e.word l
    (∀ e rest, q ≠ .q1 → s.waitersBefore q = [] → s.here.queue q = e :: rest →
      (s.does (.qpop d a q) fun t => t.here.queue q = rest ∧ put t e ∧ t.cx.pc = s.cx.pc ∧ t.cx.r.p = s.cx.r.p ∧
        ∀ k, t.byteAt k = s.byteAt k) ∧
      (s.does (.qpeek d a p q) fun t => t.here.queue q = s.here.queue q ∧ put t e ∧ t.cx.p p = 0xF ∧
        t.cx.pc = s.cx.pc ∧ ∀ k, t.byteAt k = s.byteAt k)) ∧
    (∀ h rest, q = .q1 → s.cleanG [a] → s.waitersBefore q = [] → (s.bed (s.cur.core / 8)).sorter = h :: rest →
      h.resume = none → bitOf y 8 = true ∨ h.key = y.setWidth 8 →
      s.does (.qpop d a q) fun t => (t.bed (s.cur.core / 8)).sorter = rest ∧ put t h.entry ∧ t.cx.pc = s.cx.pc) ∧
    (q ≠ .q1 → s.waitersBefore q = [] → s.here.queue q = [] →
      (s.does (.qpop d a q) fun t => t.cur.stalled = true ∧ t.cx.r = s.cx.r ∧ t.cx.f = s.cx.f ∧ t.cx.k = s.cx.k) ∧
      (s.does (.qpeek d a p q) fun t => put t { words := [], marks := [] } ∧ t.cx.p p = if p = 0 then 0xF else 0)) ∧
    (s.waitersBefore q = [] → (q = .q1 → s.cleanG [a]) →
      let rank (l : Nat) : Nat := ((lanesOf s.kmask).filter fun k => decide (k < l)).length
      let count := (lanesOf s.kmask).length
      let named (h : HitEntry) : Bool := h.resume.isNone && (bitOf y 8 || decide (h.key = y.setWidth 8))
      let hits := (s.bed (s.cur.core / 8)).sorter
      let there : List (List Word) :=
        if q = .q1 then (hits.filter named).map HitEntry.words else (s.here.queue q).map QEntry.words
      let words : Nat := match q with
        | .q0 => 8
        | .q1 => 4
        | .q2 => 2
        | .q3 => 1
      s.does (.qpopl d a p q) fun t =>
        (q ≠ .q1 → t.here.queue q = (s.here.queue q).drop count) ∧
        (q = .q1 → (t.bed (s.cur.core / 8)).sorter.Sublist hits ∧
          (t.bed (s.cur.core / 8)).sorter.filter named = (hits.filter named).drop count ∧
          ((t.bed (s.cur.core / 8)).sorter.filter fun h => !named h) = hits.filter fun h => !named h) ∧
        (∀ l j, l < 4 → bitOf s.kmask l → j < words →
          lane l (t.cx.v (d + Fin.ofNat 32 j)) = ((there[rank l]?).bind fun e => e[j]?).getD 0) ∧
        (∀ l, l < 4 → bitOf s.kmask l → p ≠ 0 → bitOf (t.cx.p p) l = decide (rank l < there.length)) ∧
        (∀ l, l < 4 → bitOf s.kmask l = false →
          (∀ r, lane l (t.cx.v r) = lane l (s.cx.v r)) ∧ bitOf (t.cx.p p) l = bitOf (s.cx.p p) l) ∧
        (∀ r : Fin 32, (∀ j, j < words → r ≠ d + Fin.ofNat 32 j) → t.cx.v r = s.cx.v r) ∧
        t.cx.r.g = s.cx.r.g ∧ ∀ k, t.byteAt k = s.byteAt k) ∧
    (q ≠ .q1 → s.writesG (.qcnt d a q) d (BitVec.ofNat 64 ((s.here.queue q).length + (s.here.over q).length))) ∧
    (s.cleanG [a] → s.writesG (.qcnt d a .q1) d
      (BitVec.ofNat 64 (((s.bed (s.cur.core / 8)).sorter ++ (s.bed (s.cur.core / 8)).spill).filter fun e =>
        e.resume.isNone && (bitOf y 8 || decide (e.key = y.setWidth 8))).length)) ∧
    (s.cleanG [a] →
      (s.cx.wake = some .released → s.does (.qwait a q) fun t => s.became t { s.cx with wake := none }) ∧
      (s.cx.wake ≠ some .released → n ≤ cap → max 1 n ≤ s.portCount s.cur.core q 0x100 →
        exec (.qwait a q) s = .next s) ∧
      (s.cx.wake ≠ some .released → cap < n → s.plain → ∃ t ad, exec (.qwait a q) s = .next t ∧
        s.tookTrap t (s.faultCause Cause.illop) s.cur.at_ ad) ∧
      (s.released = true → s.here.brineLevel < 2 → s.here.run.up = true → s.here.over .q3 = [] →
        (s.here.queue .q3).length < 64 → s.does (.qpush a) fun t =>
          t.here.queue .q3 = s.here.queue .q3 ++ [{ words := [y], marks := [false] }] ∧ t.cx = s.cx ∧ ∀ k, t.byteAt k = s.byteAt k) ∧
      (∀ pa, s.wf → s.released = true → s.here.brineLevel < 2 → s.here.run.up = true →
        s.here.over .q3 ≠ [] ∨ 64 ≤ (s.here.queue .q3).length →
        (s.here.over .q3).length < s.ringRoom s.here.launch s.cur.core .q3 →
        s.ringPlace s.here.launch s.cur.core .q3 s.here.ovIdx[7].toNat true = some pa → s.does (.qpush a) fun t =>
          t.here.over .q3 = s.here.over .q3 ++ [{ words := [y], marks := [false], ring := true }] ∧
          t.here.queue .q3 = s.here.queue .q3 ∧ t.here.ovIdx[7] = s.here.ovIdx[7] + 1 ∧ t.cx = s.cx ∧
          s.gotMem t pa 8 (byteOf y.toNat)))

/-- R165, R171, R172, R282: sends and arrivals. A message with room in the send buffer leaves with the words of its registers;
at a core of the launch it enters the inbox, or the hit sorter of the bed; a completion enters the mailbox; and entries
that waited in the ring of their queue in main memory are read back from their place in it (`ringPlace`, R282) as room
frees. That an entry whose ring has no place in memory (`ring` false) stays as it is, is the model's choice (log 11). -/
def Obligations.SendsAndArrivals : Prop :=
  ∀ (s : State) (a b : Fin 32),
    let va := s.src.g a
    let lo : List Word := (List.range 4).map fun l => lane l (s.src.v b)
    let hi (l : Nat) : Word := lane l (s.src.v (b + 1))
    let free : Prop := s.src.gBad a = false ∧ winForm va = true ∧ s.acquiring = false ∧ s.released = true ∧
      s.here.sends.length < 8
    let leaves (i : Instr) (kind : SendKind) (key : Byte) (words : List Word) (op : Instr) : Prop := s.does i fun t =>
      (∃ m : Msg, t.msgs = s.msgs ++ [m] ∧ m.id = s.nextId ∧ m.kind = kind ∧ m.sender = s.cur.core ∧
        m.ctx = s.cur.ctx ∧ m.launch = s.here.launch ∧ m.target = winCore va ∧ m.va = va ∧ m.key = key ∧
        m.words = words ∧ ∀ x ∈ m.marks, x = false) ∧
      t.here.sends = s.here.sends ++ [s.nextId] ∧ t.cx = s.cx ∧
      (∃ lane, t.agenda = s.agenda ++ [{ op := op, arg := { id := s.nextId }, lane := lane }]) ∧
      ∀ k, t.byteAt k = s.byteAt k
    (free → s.src.vBad b = 0 → s.src.vBad (b + 1) = 0 →
      leaves (.msend a b) .msend 0
        (lo ++ [hi 0, hi 1, hi 2, hi 3 &&& (0x3FFFFFFFFFFFFFFF : Word)]) .inboxArrival) ∧
    (free → s.src.vBad b = 0 → leaves (.hsend a b) .hsend (va.setWidth 8) lo .hitSorterArrival) ∧
    (∀ m : Msg, s.msg? s.ev.id = some m → s.live m.launch m.target = true → (s.core m.target).brineLevel < 2 →
      (m.kind ≠ .msend ∨ s.remote m.va = false) → (s.core m.target).over .q0 = [] →
      ((s.core m.target).queue .q0).length < 32 → s.does .inboxArrival fun t =>
        (t.core m.target).queue .q0 = (s.core m.target).queue .q0 ++ [{ words := m.words, marks := m.marks }] ∧ t.msg? m.id = none ∧
        ∀ k, t.byteAt k = s.byteAt k) ∧
    (∀ m : Msg, let bd := m.target / 8
      s.msg? s.ev.id = some m → s.live m.launch m.target = true → s.live m.launch (8 * bd) = true →
      s.remote m.va = false → (s.core (8 * bd)).brineLevel < 2 → (s.bed bd).spill = [] →
      sorterPlaces (s.bed bd).sorter < 256 → s.reordWaits bd = false → s.does .hitSorterArrival fun t =>
        (∃ e, (t.bed bd).sorter = (s.bed bd).sorter ++ [e] ∧ e.key = m.key ∧ e.words = m.words ∧ e.marks = m.marks ∧
          e.resume = none) ∧ t.msg? m.id = none) ∧
    (∀ c, s.ev.core = c → s.live s.ev.launch c = true → (s.core c).brineLevel < 2 → (s.core c).over .q2 = [] →
      ((s.core c).queue .q2).length < 32 → s.does .mailboxArrival fun t =>
        (t.core c).queue .q2 = (s.core c).queue .q2 ++ [{
          words := [BitVec.ofNat 64 (leNat (s.ev.bytes.take 8)), BitVec.ofNat 64 (leNat (s.ev.bytes.drop 8))],
          marks := [false, false] }] ∧
        (∀ n, n ≠ c → t.core n = s.core n) ∧ t.mem = s.mem) ∧
    (∀ c e, s.ev.core = c → s.ev.qport = .q3 → s.ev.flag = false → (s.core c).run.up = true → (s.core c).over .q3 = [e] →
      ((s.core c).queue .q3).length < 64 → s.does .overflowReturn fun t =>
        (∃ e', (t.core c).queue .q3 = (s.core c).queue .q3 ++ [e'] ∧ (e.ring = false → e' = e) ∧
          ∀ pa, e.ring = true → e.words.length = 1 →
            s.ringPlace (s.core c).launch c .q3 (s.core c).ovIdx[6].toNat false = some pa →
            e'.words = [BitVec.ofNat 64 (s.loadNat pa 8)]) ∧
        (t.core c).over .q3 = [] ∧ (t.core c).ovIdx[6] = (s.core c).ovIdx[6] + 1 ∧ t.mem = s.mem)

/-- R29, R173 to R176, R253, R255 to R260, R458: phased exchange. A send in its slot puts one flit for each slot on its way;
a flit travels to its target and is written there, or refused by the segments that held there when its instruction issued; a barrier is left when it has ended, and ends for every core of the
group at once, with the votes counted and a new phase begun. A phase too long ends too: a core that waits in the barrier
that would have closed it traps there, and every other owes that barrier, which completes at once when it comes to it. -/
def Obligations.PhasedExchange : Prop :=
  ∀ (s : State) (d a b : Fin 32) (m : XMode) (row : Bool),
    let x := s.src.g a
    let y := s.src.g b
    let gid := s.here.group
    let now := (s.group gid).kxslot
    let slot := y.toNat / 2 ^ 32 % 2 ^ 16
    let n := y.toNat / 2 ^ 16 % 2 ^ 16
    let tgt := y.toNat % 2 ^ 16
    let doff := x.toNat / 2 ^ 32 % 2 ^ 17
    let soff := x.toNat % 2 ^ 17
    let due (t : State) (k : Nat) (op : Instr) (arg : EvArg) : Prop :=
      (2 * (s.ticks + k) + 1, ({ op := op, arg := arg, lane := 0 } : Task)) ∈ t.timed
    let lines : Prop := s.cur.ctx = 0 ∧ doff % 32 = 0 ∧ soff % 32 = 0 ∧ slot + n ≤ 1000 ∧ slot = now ∧ 0 < n
    let outside : Prop := if row then (s.group gid).w ≤ tgt % 256 else (s.group gid).h ≤ tgt % 256
    let e := s.ev.group
    let g := s.group e
    let kinds := g.cores.filterMap fun c => (s.core c).barrier
    (s.cleanG [a, b] → lines → s.sourceCheck soff n = none → s.sourceHeld soff (32 * n) = false →
      ((s.group gid).outside m tgt = false → s.does (.xsend a b m) fun t =>
        (t.group gid).exch = true ∧ (t.group gid).xsends = (s.group gid).xsends ++
          [{ id := s.nextId, core := s.cur.core, mode := m, s := slot, f := n, tgt := tgt, doff := doff, soff := soff,
             base := s.ticks, done := 0, segs := s.segsNow ((s.group gid).targets m s.cur.core tgt) }] ∧
        (∀ k, k < n → due t k .flitInject { group := gid, id := s.nextId, n := k }) ∧ t.cx = s.cx ∧ t.mem = s.mem) ∧
      (¬ outside → s.does (.xred a b row) fun t =>
        (t.group gid).exch = true ∧ (t.group gid).contribs = (s.group gid).contribs ++
          [{ core := s.cur.core, row := row, s := slot, f := n, tgt := tgt, doff := doff, soff := soff,
             base := s.ticks, done := 0, segs := s.segsNow [(s.group gid).chainDest row s.cur.core tgt] }] ∧
        (∀ k, k < n → due t k .xredChainAdd { group := gid, core := s.cur.core, m := slot, flag := row, n := k }) ∧
        t.cx = s.cx ∧ t.mem = s.mem)) ∧
    (∀ v, s.cur.ctx = 0 → s.here.barEnd = some (.done v) →
      let after : Core := { s.here with barrier := none, barEnd := none }
      (s.does .xsync fun t => t.here = after ∧ t.mem = s.mem) ∧ (s.does .gbar fun t => t.here = after ∧ t.mem = s.mem) ∧
      (s.does (.gvote d a) fun t => t.here.barrier = none ∧ t.here.barEnd = none ∧
        t.cx.g d = (if d = 0 then 0 else v) ∧ t.cx.pc = s.cx.pc ∧ t.mem = s.mem)) ∧
    (s.cur.ctx = 0 → s.src.gBad a = false → s.here.barEnd = none → s.here.owed = [] → s.released = true →
      (s.does .xsync fun t => t.cur.stalled = true ∧ t.here.barrier = some .xsync) ∧
      (s.does .gbar fun t => t.cur.stalled = true ∧ t.here.barrier = some .gbar) ∧
      (s.does (.gvote d a) fun t => t.cur.stalled = true ∧ t.here.barrier = some (.gvote (bitOf x 0) d))) ∧
    (∀ any rest, s.cur.ctx = 0 → s.src.gBad a = false → s.here.barEnd = none → s.here.owed = any :: rest →
      (s.does .xsync fun t => t.here = { s.here with owed := rest } ∧ t.mem = s.mem) ∧
      (any = true → s.does .gbar fun t => t.here = { s.here with owed := rest } ∧ t.mem = s.mem) ∧
      (s.does (.gvote d a) fun t => t.here.owed = rest ∧ t.here.barrier = s.here.barrier ∧
        t.cx.g d = 0 ∧ t.cx.pc = s.cx.pc ∧ t.mem = s.mem)) ∧
    (s.barrierReady g = true → g.ready = some s.ev.n → (g.exch = false ∨ g.kxslot < 1000) → kinds ≠ [] → (∀ k ∈ kinds, k ≠ .gbar) →
      g.xcolls = [] → s.does .xsyncComplete fun t =>
        let votes := (kinds.filter BarKind.vote).length
        (∀ c ∈ g.cores, (t.core c).barEnd = some (.done (BitVec.ofNat 64
          (votes * 2 ^ 32 + (if 0 < votes then 2 else 0) + if votes = kinds.length then 1 else 0)))) ∧
        (t.group e).exch = false ∧ (t.group e).kxslot = 0 ∧ t.mem = s.mem) ∧
    (g.exch = true → g.st = .resident → 1000 ≤ g.kxslot → (∀ c ∈ g.cores, (s.core c).barrier = none) →
      s.does .xlongPhaseEnd fun t => (∀ c ∈ g.cores, (t.core c).xlongDue = true) ∧ (t.group e).exch = false ∧
        (t.group e).kxslot = 0 ∧ t.mem = s.mem) ∧
    (g.exch = true → g.st = .resident → 1000 ≤ g.kxslot → g.cores.Nodup →
      (∃ c ∈ g.cores, ∃ k, (s.core c).barrier = some k ∧ (s.core c).barEnd = none ∧ k ≠ .gbar) →
      s.does .xlongPhaseEnd fun t => ∀ c ∈ g.cores, (s.core c).barEnd = none →
        ((s.core c).barrier.isSome = true → ∃ ad, (t.core c).barEnd = some (.trap Cause.xlong ad none)) ∧
        ((s.core c).barrier = none → (t.core c).xlongDue = true ∧ (t.core c).owed = (s.core c).owed ++ [true])) ∧
    (∀ q, g.xsends.find? (fun q => decide (q.id = s.ev.id)) = some q → q.done = s.ev.n → q.mode = .uc →
      s.does .flitInject fun t => t.mem = s.mem ∧ ∃ f ∈ (t.group e).flits,
        f.target = g.corner + 256 * (q.tgt / 256) + q.tgt % 256 ∧ f.doff = q.doff + 32 * q.done ∧
        f.data = BitVec.ofNat 256 (s.loadNat (ulmKey q.core (q.soff + 32 * q.done)) 32) ∧
        f.mark = s.poisoned (ulmKey q.core (q.soff + 32 * q.done))) ∧
    (∀ q, g.chain s.ev.core s.ev.flag s.ev.m = [q] → q.core = s.ev.core → s.does .xredChainAdd fun t =>
      t.mem = s.mem ∧ ∃ f ∈ (t.group e).flits,
        f.target = (if s.ev.flag then q.core / 256 * 256 + g.corner % 256 + q.tgt % 256
          else (g.corner / 256 + q.tgt % 256) * 256 + q.core % 256) ∧ f.doff = q.doff + 32 * s.ev.n ∧
        ∀ i, i < 8 → (elem 32 i f.data).toNat =
          let z := s.loadNat (ulmKey q.core (q.soff + 32 * s.ev.n) + 4 * i) 4
          if (fmtF32.value z).isNan then fmtF32.nanCode else z) ∧
    (∀ f, s.wf → g.flits.find? (fun f => decide (f.id = s.ev.id) && decide (f.target = s.ev.core)) = some f →
      (s.live g.launch f.target = true → segCheck f.segs false f.doff 32 { rwr := true } = none → f.met = false →
        s.does .flitLanding fun t => s.gotMem t (ulmKey f.target f.doff) 32 (byteOf f.data.toNat) ∧
          (t.group e).flits = g.flits.erase f) ∧
      (segCheck f.segs false f.doff 32 { rwr := true } ≠ none → s.does .flitLanding fun t => t.mem = s.mem ∧
        (t.group e).flits = g.flits.erase f ∧
        (t.group e).xcolls = (if g.kxslot = 0 then 999 else g.kxslot - 1, f.target) :: g.xcolls))

/-- R177, R178: a launch from a core, and a kick of an engine, hand over the 128 bytes of a record in own ULM: to the
pending launches of the group, or to the queue of the engine, which is told. A launch that does not wait says in its
predicate whether there was a place. -/
def Obligations.LaunchesAndKicks : Prop :=
  ∀ (s : State) (p : Fin 8) (a : Fin 32),
    let off := (s.src.g a).toNat % 2 ^ 17
    let bs := (List.range 128).map fun k => s.byteAt (s.hereKey off + k)
    let gid := s.here.group
    let full : Prop := 4 ≤ (s.group gid).pending.length
    let given (t : State) : Prop :=
      (t.group gid).pending = (s.group gid).pending ++
        [{ va := off, bytes := bs, core := s.cur.core, ctx := s.cur.ctx }] ∧
      ({ op := .launchValidate, arg := { source := .group gid }, lane := 0 } : Task) ∈ t.agenda ∧ t.mem = s.mem
    let told (t : State) (op : Instr) : Prop :=
      t.agenda = s.agenda ++ [{ op := op, arg := { id := s.nextId }, lane := 0 }] ∧ t.cores = s.cores ∧ t.mem = s.mem
    s.cleanG [a] → off % 128 = 0 → s.localCheck off 128 { r := true } = .ok →
    s.poisonedRange (s.hereKey off) 128 = false → s.released = true →
    (¬ full → (s.does (.launch a) fun t => given t ∧ t.cores = s.cores) ∧
      (s.does (.launchNb p a) fun t => given t ∧ t.cx.p p = 0xF ∧ t.cx.pc = s.cx.pc)) ∧
    (full → s.does (.launchNb p a) fun t => s.gotP t p 0xF fun _ => false) ∧
    ((geckoOf bs).dest = 0 → s.kicksAt (colour (geckoOf bs).start.toNat) < 64 → s.does (.ekickGecko a) fun t =>
      told t .geckoWalkStart ∧ ∃ w, t.walks = s.walks ++ [w] ∧ w.id = s.nextId ∧ w.cmd = bs ∧ w.core = s.cur.core ∧
        w.running = false ∧ w.ended = none) ∧
    ((s.rakeQueue (dieOf s.cur.core)).length < 4 → s.does (.ekickRake a) fun t =>
      told t .rakeCommand ∧ ∃ r, t.rakes = s.rakes ++ [(dieOf s.cur.core, r)] ∧ r.id = s.nextId ∧ r.cmd = bs) ∧
    ((s.chamQueue (s.cur.core % 256 / 128)).length < 8 → s.does (.ekickCham a) fun t =>
      told t .chameleonCommand ∧ ∃ c, t.chams = s.chams ++ [(s.cur.core % 256 / 128, c)] ∧ c.id = s.nextId ∧ c.cmd = bs)

/-- R106 to R109, R283, R284: forming a wave, its barrier, and the way back to the hit sorter. Eight requests that agree form a
wave: a plain one, or one of the first 32 entries of a bin that has as many; requests that differ raise WMASK in each. What
a formation gives a member is taken when its `wform` issues: the mask of members, KWAVE and KLANE, the payload of its lanes
and, for reordered entries, the cleared registers and the PC to go on at. That a wave's number is the count of formations
before it, and that gD of such a member is cleared with the other registers, is the model's reading (log 31). -/
def Obligations.Waves : Prop :=
  ∀ (s : State) (d a b : Fin 32),
    let x := s.cx
    let bed := s.cur.core / 8
    let key : Byte := (s.src.g a).setWidth 8
    let es := (lanesOf s.src.f.kmask).map (s.reorderEntry key ((s.src.g b).setWidth 17))
    let e := s.ev.group
    let reqs := (bedCores e).filterMap fun n => oldest (s.bedWaiters [n] Context.forming)
    let want (w : Nat × Nat × Fin 11) : Word := (s.ctx w.2.1 w.2.2).req.getD 0
    let waits (y : Context) : Prop := y.block.map Block.kind = some .wsync ∧ y.req.isSome ∧ y.wake = none ∧ y.susp = false
    (s.cleanG [a] →
      (∀ f : Formed, x.wake = some (.formed f) → f.regs ≤ 8 →
        let place := s.cur.core % 8
        (f.regs = 0 → f.resume = none → ∃ u, s.became u
            { x.joins f with wake := none, req := none, f.kmask := f.own.getD x.f.kmask } ∧
          s.does (.wform d a) fun t => u.gotG t d f.gd false) ∧
        s.does (.wform d a) fun t => t.cx.wake = none ∧ t.cx.req = none ∧ t.cx.f.kmask = f.own.getD x.f.kmask ∧
          t.cx.pc = f.resume.getD x.pc ∧
          t.cx.g d = (if d = 0 ∨ (f.resume ≠ none ∧ d ≠ 29 ∧ d ≠ 30) then 0 else f.gd) ∧
          (∀ w l, f.wave = some (w, l) → t.cx.k.wave = w ∧ t.cx.k.lane = l) ∧
          (∀ j l, j < f.regs → l < 4 → lane l (t.cx.v (Fin.ofNat 32 j)) =
            ((f.entries[4 * place + l]?).bind fun e => e.words[j]?).getD 0) ∧
          (f.resume = none → t.cx.f.depth = x.f.depth ∧ t.cx.r.p = x.r.p ∧ (∀ r, r ≠ d → t.cx.g r = x.g r) ∧
            ∀ j, f.regs ≤ j → j < 32 → t.cx.v (Fin.ofNat 32 j) = x.v (Fin.ofNat 32 j)) ∧
          (f.resume ≠ none → t.cx.f.depth = 0 ∧ t.cx.f.spilled = 0 ∧
            (∀ r, r ≠ d → t.cx.g r = if r = 29 ∨ r = 30 then x.g r else 0) ∧
            (∀ r, t.cx.p r = if r = 0 then 0xF else 0) ∧ ∀ j, 8 ≤ j → j < 32 → t.cx.v (Fin.ofNat 32 j) = 0) ∧
          ∀ k, t.byteAt k = s.byteAt k) ∧
      (x.wake = some .synced → s.does (.wsync a) fun t => s.became t { x with wake := none, req := none }) ∧
      (x.wake = none → x.f.kmsd = 0 → x.inWave = false → s.does (.wform d a) fun t =>
        t.cur.stalled = true ∧ t.cx.req = some (s.src.g a) ∧ t.cx.r = x.r ∧
        ({ op := .waveFormation, arg := { group := bed, core := s.cur.core }, lane := 0 } : Task) ∈ t.agenda) ∧
      (x.wake = none → x.inWave = true → x.waveLanes s.src.f.kmask &&& ~~~((s.src.g a).setWidth 32) = 0 →
        s.released = true → s.does (.wsync a) fun t =>
          t.cur.stalled = true ∧ t.cx.req = some (s.src.g a) ∧ t.cx.r = x.r ∧
          ({ op := .wsyncComplete, arg := { group := bed, id := x.waveNo }, lane := 0 } : Task) ∈ t.agenda)) ∧
    (s.cleanG [a, b] → x.f.kmsd = 0 → s.cur.ctx ≠ 0 → (s.src.g b).toNat % 4 = 0 → s.drained = true →
      s.here.desync = none → x.reports = [] → sorterPlaces (s.bed bed).sorter + sorterPlaces es ≤ 256 →
      (s.coreOf s.here.launch (8 * bed)).brineLevel < 2 →
      s.does (.reord a b) fun t =>
        (t.bed bed).sorter = (s.bed bed).sorter ++ (es.zipIdx.map fun h => { h.1 with num := s.nextId + h.2 }) ∧
        t.cx.live = false ∧
        (∀ h ∈ es, h.key = key ∧ h.resume = some ((s.src.g b).setWidth 17) ∧ h.words.length = 8) ∧
        es.length = (lanesOf s.src.f.kmask).length ∧ ∀ k, t.byteAt k = s.byteAt k) ∧
    (reqs.length = 8 → (∃ w ∈ reqs, ∃ v ∈ reqs, want w &&& (0x3FF : Word) ≠ want v &&& (0x3FF : Word)) →
      s.does .waveFormation fun t => t.mem = s.mem ∧ t.beds = s.beds ∧
        ∀ w ∈ reqs, t.ctx w.2.1 w.2.2 = { s.ctx w.2.1 w.2.2 with wake := some (.fault Cause.wmask) }) ∧
    (∀ k : Byte, let bin := (s.bed e).sorter.filter fun h => decide (h.key = k)
      reqs.length = 8 → (∀ w ∈ reqs, want w &&& (0x3FF : Word) = k.setWidth 64) → (s.core (8 * e)).brineLevel < 2 →
      32 ≤ bin.length → (∀ h ∈ bin, h.resume = none) → s.does .waveFormation fun t =>
        (t.bed e).forms = (s.bed e).forms + 1 ∧ t.mem = s.mem ∧
        ((t.bed e).sorter.filter fun h => decide (h.key = k)) = bin.drop 32 ∧
        ((t.bed e).sorter.filter fun h => decide (h.key ≠ k)) = ((s.bed e).sorter.filter fun h => decide (h.key ≠ k)) ∧
        ∀ w ∈ reqs, ∃ (f : Formed) (places : Word),
          t.ctx w.2.1 w.2.2 = { s.ctx w.2.1 w.2.2 with wake := some (.formed f) } ∧
          f.gd = BitVec.ofNat 64 (2 ^ 32 - 1 + k.toNat * 2 ^ 32) ∧ f.own = some 0xF ∧ f.regs = 4 ∧ f.resume = none ∧
          f.entries = bin.take 32 ∧ f.wave = some (BitVec.ofNat 64 (2 ^ 31 + (s.bed e).forms.toNat), places) ∧
          ∀ l, l < 4 → elem 8 l places = BitVec.ofNat 8 (4 * (w.2.1 % 8) + l)) ∧
    (reqs.length = 8 → (∀ w ∈ reqs, ∀ v ∈ reqs, want w &&& (0x3FF : Word) = want v &&& (0x3FF : Word)) →
      (∀ w ∈ reqs, bitOf (want w) 9 = true) → (s.core (8 * e)).brineLevel < 2 → s.does .waveFormation fun t =>
        (t.bed e).forms = (s.bed e).forms + 1 ∧ t.mem = s.mem ∧
        ∀ w ∈ reqs, (s.ctx w.2.1 w.2.2).f.kmask ≠ 0 → ∃ (f : Formed) (places : Word),
          (t.ctx w.2.1 w.2.2) = { s.ctx w.2.1 w.2.2 with wake := some (.formed f) } ∧
          (∀ v ∈ reqs, elem 4 (v.2.1 % 8) f.gd = (s.ctx v.2.1 v.2.2).f.kmask) ∧
          f.own = none ∧ f.regs = 0 ∧ f.resume = none ∧
          f.wave = some (BitVec.ofNat 64 (2 ^ 31 + (s.bed e).forms.toNat), places) ∧
          ∀ l, l < 4 → elem 8 l places =
            if bitOf (s.ctx w.2.1 w.2.2).f.kmask l then BitVec.ofNat 8 (4 * (w.2.1 % 8) + l) else (0xFF : BitVec 8)) ∧
    (s.does .partialWaveTimeout fun t =>
      t = { s with agenda := s.agenda ++ [{ op := .waveFormation, arg := { group := e }, lane := 0 }] }) ∧
    (∀ n c named, n < 8 → s.members e s.ev.id = [(8 * e + n, c)] → (s.core (8 * e + n)).run = .running →
      waits (s.ctx (8 * e + n) c) → (s.ctx (8 * e + n) c).req = some named →
      (s.ctx (8 * e + n) c).waveLanes 0xF &&& named.setWidth 32 ≠ 0 → s.does .wsyncComplete fun t =>
        (t.ctx (8 * e + n) c).wake = some .synced ∧ t.mem = s.mem)

/-- R80, R81, R138 to R143: wave operations. At issue the operation passes the local checks and waits for its instance; one
that names no lane of its own is over at once where no lane of it is active, and raises WMASK otherwise. An instance whose
participants have all arrived and agree gives every lane that takes part its result: the ballot, whether some lane or every
lane that takes part has its bit, the lane that a shuffle names, the sum, the smallest and the largest of the lanes that take
part, and the sum of those up to its own. The reductions are stated for 64-bit integers. -/
def Obligations.WaveOperations : Prop :=
  ∀ (s : State) (d a b : Fin 32) (q r : Fin 8) (t : View) (pr : Fin 8),
    let x := s.cx
    let y := s.src.g b
    let members : BitVec 32 := y.setWidth 32
    let act := s.active pr
    let ops : List (Instr × WaveFn × View × Bool) :=
      [(.wballot d q b pr, .ballot, .b, true), (.wany r q b pr, .any, .b, true), (.wall r q b pr, .all, .b, true),
       (.wshfl d a b pr, .shfl, .d, false), (.wshup d a b pr, .shup, .d, false), (.wshdn d a b pr, .shdn, .d, false),
       (.wbfly d a b pr, .bfly, .d, false), (.wsum d a b t pr, .sum, t, false), (.wmin d a b t pr, .min, t, false),
       (.wmax d a b t pr, .max, t, false), (.wscan d a b t pr, .scan, t, false)]
    (∀ o ∈ ops, s.src.pBad pr = false → s.src.gBad b = false → s.src.inWave = true →
      s.src.waveLanes act &&& ~~~members = 0 →
      (s.src.waveLanes 0xF &&& members = 0 → act = 0 → exec o.1 s = .next s) ∧
      (s.src.waveLanes 0xF &&& members = 0 → act ≠ 0 → s.plain →
        ∃ u ad, exec o.1 s = .next u ∧ s.tookTrap u (s.faultCause Cause.wmask) s.cur.at_ ad) ∧
      (s.src.waveLanes 0xF &&& members ≠ 0 → waveIllegal o.2.1 o.2.2.1 y = false →
        (if o.2.2.2 then s.src.pBad q = false else (s.src.vBad a ||| if o.2.1 = .shfl then s.src.vBad d else 0) &&& act = 0) →
        s.cur.replay = none → s.does o.1 fun u => ∃ w,
          u.cx = { x with waveOp := some w, waveFaults := x.faultsKept, pc := if s.cur.pair then s.cur.p + 4 else s.cur.p,
                          aword := x.aword || s.cur.pair } ∧
          u.cur.joined = true ∧ w.fn = o.2.1 ∧ w.view = o.2.2.1 ∧ w.members = members ∧ w.arg = y ∧ w.active = act ∧
          w.next = x.pc ∧ (if o.2.2.2 then w.pred = s.src.p q else w.src = s.src.v a ∧ w.old = s.src.v d) ∧
          u.agenda = s.agenda ++
            [⟨.waveInstancePerform, { core := s.cur.core, id := s.src.waveNo, group := s.cur.core / 8 }, 0⟩] ∧
          ∀ k, u.byteAt k = s.byteAt k)) ∧
    (∀ (op : Nat × Fin 11 → WaveOp) (c : Nat → Option (Word × Bool)),
      let ms := s.members s.ev.group s.ev.id
      let pos (m : Nat × Fin 11) (l : Nat) : Nat := (elem 8 l (s.ctx m.1 m.2).k.lane).toNat
      let takes (m : Nat × Fin 11) (l i : Nat) : Prop :=
        m ∈ ms ∧ l < 4 ∧ i < 32 ∧ pos m l = i ∧ bitOf (op m).active l ∧ bitOf (op m).members i
      let has (i : Nat) (z : Word) : Prop := ∃ p, c i = some (z, p)
      let upTo (n : Nat) : Word := ((List.range n).map fun i => (c i).elim 0 Prod.fst).sum
      ms ≠ [] →
      (∀ m ∈ ms, let k := s.ctx m.1 m.2
        k.wake = none ∧ k.waveFaults = [] ∧ k.waveOp = some (op m) ∧ (op m).replayed = false ∧
        k.waveLanes 0xF &&& (op m).members ≠ 0) →
      (∀ m ∈ ms, ∀ n ∈ ms, (op m).fn = (op n).fn ∧ (op m).view = (op n).view ∧ (op m).members = (op n).members ∧
        (op m).arg.extractLsb' 32 16 = (op n).arg.extractLsb' 32 16) →
      (∀ m l n j i, takes m l i → takes n j i → m = n ∧ l = j) →
      (∀ m l i, takes m l i → c i = some (lane l (op m).src, bitOf (op m).pred l)) →
      (∀ i, (∀ m l, ¬ takes m l i) → c i = none) →
      s.does .waveInstancePerform fun u => (∀ k, u.byteAt k = s.byteAt k) ∧ ∀ m ∈ ms,
        let w := op m
        let old := s.ctx m.1 m.2
        let k := u.ctx m.1 m.2
        let delta := w.arg.toNat / 2 ^ 32 % 32
        let kind := w.arg.toNat / 2 ^ 40 % 8
        let gives (z : Nat → Nat → Word) : Prop := ∀ l, l < 4 →
          (∀ i, takes m l i → lane l (k.v w.dst) = z l i) ∧
          ((∀ i, ¬ takes m l i) → lane l (k.v w.dst) = lane l (old.v w.dst))
        let bits (z : Bool) : Prop := ∀ l, l < 4 → w.dst.val % 8 ≠ 0 →
          bitOf (k.p (Fin.ofNat 8 w.dst.val)) l = if bitOf w.active l then z else bitOf (old.p (Fin.ofNat 8 w.dst.val)) l
        let least (f : Word → Int) : Prop := ∀ l i, takes m l i →
          ∃ z, lane l (k.v w.dst) = z ∧ (∃ j, has j z) ∧ ∀ j z', has j z' → f z ≤ f z'
        k.waveOp = none ∧
        (w.fn = .ballot → w.dst ≠ 0 → ∀ i, i < 64 → (bitOf (k.g w.dst) i = true ↔ ∃ z, c i = some (z, true))) ∧
        (w.fn = .any → ((∃ i z, c i = some (z, true)) → bits true) ∧ ((∀ i z, c i ≠ some (z, true)) → bits false)) ∧
        (w.fn = .all → ((∀ i z, c i ≠ some (z, false)) → bits true) ∧ ((∃ i z, c i = some (z, false)) → bits false)) ∧
        (w.fn = .shfl → gives fun l _ => (c ((lane l w.old).toNat % 32)).elim 0 Prod.fst) ∧
        (w.fn = .shup → gives fun l i => if i < delta then lane l w.src else (c (i - delta)).elim 0 Prod.fst) ∧
        (w.fn = .shdn → gives fun l i => if 31 < i + delta then lane l w.src else (c (i + delta)).elim 0 Prod.fst) ∧
        (w.fn = .bfly → gives fun _ i => (c (i ^^^ delta)).elim 0 Prod.fst) ∧
        (w.view = .d →
          (w.fn = .sum → kind < 2 → gives fun _ _ => upTo 32) ∧
          (w.fn = .scan → kind < 2 → w.arg.toNat / 2 ^ 44 % 4 = 0 → gives fun _ i => upTo (i + 1)) ∧
          (w.fn = .min → kind = 0 → least BitVec.toInt) ∧ (w.fn = .max → kind = 0 → least fun z => -z.toInt) ∧
          (w.fn = .min → kind = 1 → least fun z => z.toNat) ∧ (w.fn = .max → kind = 1 → least fun z => -z.toNat)))

/-- R182 to R188, R191, R193, R195: the instructions of the matrix unit. The shape that is granted; the claim; rows of
accumulators cleared, read and written; a scale pushed; the arrival at the gang barrier; the repetition buffer begun
and released; CLAIM without the claim. -/
def Obligations.MatrixUnit : Prop :=
  ∀ (s : State) (d a b n : Fin 32) (keep : Bool), s.captured = false → s.here.desync = none →
    let x := s.src.g a
    let m := x.toNat % 256
    let cols := x.toNat / 2 ^ 8 % 256
    let k := x.toNat / 2 ^ 16 % 256
    let ty := x.toNat / 2 ^ 24 % 16
    let table : List (List Nat) := [[1, 2], [1, 2, 4, 8], [8, 16], [8, 16], [8, 16, 32], [8, 16, 32], [8, 16, 32, 64],
      [8, 16, 32], [8, 16, 32], [32], [32], [32, 64]]
    let ks : List Nat := (table[ty]?).getD []
    let best (bound : Nat) (l : List Nat) (z : Nat) : Prop := z ∈ l ∧ z ≤ bound ∧ ∀ y ∈ l, y ≤ bound → y ≤ z
    let granted (z : Nat) : Prop := s.does (.mshape d a) fun t =>
      t.cx.k.mshape = BitVec.ofNat 64 z ∧ t.cx.g d = (if d = 0 then 0 else BitVec.ofNat 64 z) ∧
      (∀ r, r ≠ d → t.cx.g r = s.cx.g r) ∧ t.cx.r.v = s.cx.r.v ∧ t.cx.r.p = s.cx.r.p ∧ t.cx.pc = s.cx.pc ∧ t.mem = s.mem
    let mine : Prop := s.here.claim = some s.cur.ctx
    let shape := s.src.k.mshape
    let sty := shape.toNat / 2 ^ 24 % 16
    let sm := shape.toNat % 256
    let sk := shape.toNat / 2 ^ 16 % 256
    let scaled : Prop := 9 ≤ sty ∧ sty ≤ 11
    let legal : Prop := shape.toNat / 2 ^ 31 % 2 = 1 ∧ sm ∈ [1, 2, 4, 8] ∧ shape.toNat / 2 ^ 8 % 256 = 8 ∧
      sk ∈ (table[sty]?).getD []
    let rows (t : State) (r : Fin 32) : VReg × BitVec 8 := (t.here.acc[r], elem 8 r.val t.here.accMark)
    let stays (t : State) : Prop := t.cx = s.cx ∧ t.mem = s.mem ∧ t.here.claim = s.here.claim
    (s.src.gBad a = false →
      (∀ p q, best m [1, 2, 4, 8] p → best k ks q → 8 ≤ cols →
        granted (2 ^ 31 + ty * 2 ^ 24 + q * 2 ^ 16 + 8 * 2 ^ 8 + p)) ∧
      ((∀ p, ¬ best m [1, 2, 4, 8] p) ∨ (∀ q, ¬ best k ks q) ∨ cols < 8 → granted 0)) ∧
    ((s.here.claim = none → s.does (.mclaim d) fun t =>
        t.here.claim = some s.cur.ctx ∧ t.cx.g d = (if d = 0 then 0 else 1) ∧ (∀ r, r ≠ d → t.cx.g r = s.cx.g r) ∧
        t.cx.r.v = s.cx.r.v ∧ t.cx.pc = s.cx.pc ∧ t.mem = s.mem) ∧
      (∀ c, s.here.claim = some c → s.writesG (.mclaim d) d (if c = s.cur.ctx then 1 else 0))) ∧
    ((∀ r, s.here.rep = some r → r.owner ≠ s.cur.ctx) →
      (¬ mine → exec .mrel s = .next s) ∧
      (mine → s.here.matOp = none → s.does .mrel fun t => t.cx = s.cx ∧ t.mem = s.mem ∧
        t.here = { s.here with fifo := [], fifoBad := [], latch := none, claim := none })) ∧
    (mine → s.here.accBusy (n.val / 8) = false →
      (n.val % 8 = 0 → s.does (.mzero n) fun t => stays t ∧
        ∀ r : Fin 32, rows t r = if r.val / 8 = n.val / 8 then (0, 0) else rows s r) ∧
      (∀ mk : Mask, (∀ l, l < 4 → bitOf mk l = (bitOf (rows s n).2 (2 * l) || bitOf (rows s n).2 (2 * l + 1))) →
        s.does (.mrd d n) fun t => s.gotV t d 0xF (fun l => lane l s.here.acc[n]) mk) ∧
      (s.does (.mwr n a) fun t => stays t ∧ t.here.acc[n] = s.src.v a ∧
        (∀ i, i < 8 → bitOf (rows t n).2 i = bitOf (s.src.vBad a) (i / 2)) ∧ ∀ r : Fin 32, r ≠ n → rows t r = rows s r)) ∧
    (mine → legal → scaled → s.src.vBad a = 0 →
      (s.here.fifo.length < 8 → s.does (.msc a) fun t => stays t ∧ t.here.fifo = s.here.fifo ++ [s.src.v a] ∧
        t.here.acc = s.here.acc) ∧
      (8 ≤ s.here.fifo.length → s.here.scaledOp = false → s.plain → s.faults (.msc a) Cause.mdesync 0)) ∧
    (mine → ¬ (legal ∧ scaled) → s.plain → ∃ addr, s.faults (.msc a) Cause.mshape addr) ∧
    (mine → legal → a.val + sm ≤ 32 → (sty = 0 → n.val / 8 % 2 = 0) → n.val % 8 = 0 → s.src.gBad b = false →
      s.here.badScale shape = false → (s.src.g b).toNat % 32 = 0 → s.cur.replay = none → s.does (.mgo n a b keep) fun t =>
        t.here.arrival = some
          { ctx := s.cur.ctx, off := s.cur.at_, next := s.cx.pc, d5 := n.val, a5 := a.val, gB := s.src.g b, keep := keep,
            shape := shape, super := s.src.mode, replayed := false, read := none } ∧
        t.cur.joined = true ∧ t.cx.r = s.cx.r ∧ t.here.acc = s.here.acc ∧ t.mem = s.mem ∧
        t.cx.pc = (if s.cur.pair then s.cur.p + 4 else s.cur.p) ∧
        t.agenda = s.agenda ∧ (2 * (s.ticks + 1), (⟨.gangBarrierComplete,
          { core := s.cur.core, group := s.cur.core / 16, launch := s.here.launch }, 0⟩ : Task)) ∈ t.timed) ∧
    (∀ (i : BitVec 4) (c w : BitVec 5), s.here.rep = none →
      (mine → s.does (.rep i c w) fun t => stays t ∧ t.here.rep = some
        ⟨s.cur.ctx, [], [], i.toNat + 1, w, c.toNat + 1, 0, 0, true, 0, false, 0⟩) ∧
      exec .repe s = .next s) ∧
    (∀ r, s.here.rep = some r → r.owner = s.cur.ctx → r.capturing = false →
      (r.ended = true → s.does .repe fun t => stays t ∧ t.here.rep = none) ∧
      (r.ended = false → s.does .repe fun t => t.cur.stalled = true ∧ t.here.rep = some r)) ∧
    (¬ mine → s.plain → ∀ i ∈ [Instr.mzero n, .mrd d n, .mwr n a, .msc a, .mgo n a b keep],
      ∃ addr, s.faults i Cause.claim addr)

/-- R79, R187 to R192, R195, R197, R428, R429: the matrix unit at work. A replayed word is performed and the replay moves on,
and an uncorrectable one takes POISON, with the offset and the iteration of the word in KLF0 and the replay ended; an operation
whose residues were wrong marks what it writes; the gang barrier checks that its participants agree, reads B, one sector in a
tick whose port no landing takes, and binds the start; an operation starts on every participant at once, with its A rows of the
latch or the registers, and leaves the latch as `.r` says; a scale is consumed, and an empty FIFO puts every participant out of
step; an i8 operation adds the exact products modulo 2^32 and raises no flag, an f32 operation is one fused multiply-add for
each k and raises their flags; a lost operation leaves the accumulators alone, and the claim holder takes MDESYNC, with the
offset of the `mgo` in KADDR, at the next word of the list of R192 that it issues. What an uncorrectable scale entry does once
the `mgo` has issued is the model's choice (log 70). -/
def Obligations.MatrixEngine : Prop :=
  ∀ (s : State),
    let e := s.ev
    let c := e.core
    let cores := s.gang e.launch e.group
    (∀ r w, s.here.rep = some r → r.owner = s.cur.ctx → bitOf r.bad r.next = true → r.words[r.next]? = some w →
      ¬ s.doubleFault → s.does .replayIssue fun u =>
        u.cur.trapped = true ∧ u.cx.k.cause = Cause.poison.setWidth 64 ∧ u.cx.k.addr = 0 ∧
        u.cx.k.epc = s.cx.pc.setWidth 64 ∧ u.cx.pc = trapEntry s.here.kstvec ∧ u.cx.mode = true ∧ u.cx.pmode = s.cx.mode ∧
        u.cx.k.lf[0].extractLsb' 56 8 = Cause.poison ∧
        u.cx.k.lf[0].extractLsb' 0 17 = (r.offs[r.next]?).getD 0 ∧
        u.cx.k.lf[0].extractLsb' 17 5 = BitVec.ofNat 5 r.iter ∧
        (∃ q, u.here.rep = some q ∧ q.ended = true ∧ q.owner = r.owner ∧ q.words = r.words ∧ q.bad = r.bad) ∧
        u.cx.r = s.cx.r ∧ u.mem = s.mem) ∧
    (∀ (o : Off) (n d a : Fin 32) (keep : Bool) (sc : Scope), s.here.desync = some o → s.here.scaleBad = false →
      s.here.claim = some s.cur.ctx → s.here.rep = none → s.plain →
      ∀ i ∈ [Instr.mzero n, .mrd d n, .mwr n a, .msc a, .mgo n d a keep, .mrel, .repe, .fence sc, .cexit],
        s.faults i Cause.mdesync (o.setWidth 64) ∧ s.does i fun t => t.here.desync = none ∧ t.here.acc = s.here.acc) ∧
    (∀ r w i, s.here.rep = some r → bitOf r.bad r.next = false → r.words[r.next]? = some w →
      (decodeNat w.toNat).map (advanced (r.iter * r.stride.toNat)) = some i → wellFormed i = true →
      s.src.held (s.here.rowsRead s.src) (.lone i true) = false →
      s.src.readsRefused (s.here.rowsRead s.src) (.lone i true) = false →
      s.cur.stalled = false → s.cur.trapped = false → s.cur.joined = false →
      ∀ d x y t pr, i = .vadd d x y t pr → s.src.pBad pr = false →
        let act : Mask := s.src.f.kmask &&& s.src.p pr
        (s.src.vBad x ||| s.src.vBad y) &&& act = 0 → s.does .replayIssue fun u =>
          u.here.rep = some (if r.next + 1 < r.words.length then { r with next := r.next + 1 }
            else { r with next := 0, iter := r.iter + 1, ended := decide (r.count ≤ r.iter + 1) }) ∧
          (∀ l j, l < 4 → j < 64 / t.bits → el t.bits j (lane l (u.cx.v d)) = if bitOf act l then
            (el t.bits j (lane l (s.src.v x)) + el t.bits j (lane l (s.src.v y))) % 2 ^ t.bits
            else el t.bits j (lane l (s.cx.v d))) ∧
          (∀ q, q ≠ d → u.cx.v q = s.cx.v q) ∧ u.cx.r.g = s.cx.r.g ∧ u.cx.pc = s.cx.pc ∧ u.mem = s.mem) ∧
    (∀ a : Arrival,
      let src := 16 * e.group + a.gB.toNat / 2 ^ 32 % 16
      let width := match a.shape.toNat / 2 ^ 24 % 16 with
        | 0 => 64
        | 1 => 32
        | 2 => 16
        | 3 => 16
        | 6 => 4
        | 11 => 4
        | _ => 8
      let bytes := a.shape.toNat / 2 ^ 16 % 256 * width
      let key := ulmKey src (a.gB.toNat % 2 ^ 17 + 32 * e.n)
      let id := if e.n = 0 then s.nextId else e.id
      let m := if e.n = 0 then (bytes + 31) / 32 else e.m
      let free := (cores.map fun q => (((s.core q).matOp.map MatOp.endTick).getD 0)).foldl max 0
      let next (t : State) (tick : Nat) (op : Instr) (arg : EvArg) : Prop := (2 * tick, (⟨op, arg, 0⟩ : Task)) ∈ t.timed
      (e.n = 0 → a ∈ cores.filterMap (fun q => (s.core q).arrival) →
        (∀ q ∈ cores, s.live e.launch q = true ∧ ∃ z, (s.core q).arrival = some z ∧ z.read = none) →
        (src ∉ cores ∨ (∃ q ∈ cores, ∃ z, (s.core q).arrival = some z ∧
          (z.gB.toNat % 2 ^ 17 ≠ a.gB.toNat % 2 ^ 17 ∨ z.gB.toNat / 2 ^ 32 % 16 ≠ a.gB.toNat / 2 ^ 32 % 16 ∨
            z.shape.toNat / 2 ^ 16 % 2 ^ 12 ≠ a.shape.toNat / 2 ^ 16 % 2 ^ 12)) ∨
          ((s.core src).arrival = some a ∧ ∃ x y, s.bCheck src a = .bad x y)) →
        s.does .gangBarrierComplete fun t => t.mem = s.mem ∧
          (∀ q ∈ cores, ∃ z, (t.core q).arrival = some z ∧ z.read = some s.nextId) ∧
          next t (max free (s.ticks + 1)) .matrixOpStart { e with id := s.nextId, m := 0, flag := true }) ∧
      (cores ≠ [] → src ∈ cores → (s.core src).arrival = some a →
      (∀ q ∈ cores, s.live e.launch q = true ∧ ∃ z, (s.core q).arrival = some z ∧
        z.read = (if e.n = 0 then none else some e.id) ∧ z.gB.toNat % 2 ^ 17 = a.gB.toNat % 2 ^ 17 ∧
        z.shape.toNat / 2 ^ 16 % 2 ^ 12 = a.shape.toNat / 2 ^ 16 % 2 ^ 12 ∧
        z.gB.toNat / 2 ^ 32 % 16 = a.gB.toNat / 2 ^ 32 % 16) →
      (e.n = 0 → s.bCheck src a = .ok) →
      (s.portTaken src = true → s.does .gangBarrierComplete fun t =>
        next t (s.ticks + 1) .gangBarrierComplete e ∧ t.cores = s.cores ∧ t.mem = s.mem) ∧
      (s.portTaken src = false → s.does .gangBarrierComplete fun t => t.mem = s.mem ∧
        (∀ q ∈ cores, ∃ z, (t.core q).arrival = some z ∧ z.read = some id) ∧
        let read : EvArg := { e with
          id := id, m := m, n := e.n + 1,
          bytes := e.bytes ++ (List.range (min 32 (bytes - 32 * e.n))).map fun k => s.byteAt (key + k)
          value := withBit e.value e.n (s.poisoned key) }
        if e.n + 1 < m then next t (s.ticks + 1) .gangBarrierComplete read
        else next t (max free (s.ticks + 1)) .matrixOpStart { read with flag := false }))) ∧
    ((e.addr ≠ 1 → (∀ q ∈ cores, s.live e.launch q = true ∧ (s.core q).matOp = none ∧
        ∃ a, (s.core q).arrival = some a ∧ a.read = some e.id) →
      s.does .matrixOpStart fun t => t.mem = s.mem ∧
        (2 * s.ticks + 1, (⟨.matrixOpStart, { e with addr := 1 }, 0⟩ : Task)) ∈ t.timed ∧
        ∀ q ∈ cores, ∀ a, (s.core q).arrival = some a →
        (t.core q).arrival = some { a with started := true } ∧
        ∃ o, (t.core q).matOp = some o ∧ o.id = e.id ∧ o.ctx = a.ctx ∧ o.d5 = a.d5 ∧
          o.shape = a.shape ∧ o.b = e.bytes ∧ o.desync = e.flag ∧ o.endTick = s.ticks + shapeTime a.shape ∧
          let rows := (List.range (a.shape.toNat % 256)).map fun i =>
            ((s.core q).ctxs[a.ctx]).v (Fin.ofNat 32 (a.a5 + i))
          (a.keep = false → o.rows = rows ∧ (t.core q).latch = none) ∧
          (a.keep = true → (∀ l, (s.core q).latch = some l → l.a5 = a.a5 → o.rows = l.rows ∧ (t.core q).latch = some l) ∧
            ((∀ l, (s.core q).latch = some l → l.a5 ≠ a.a5) → o.rows = rows ∧ ∃ l, (t.core q).latch = some l ∧
              l.a5 = a.a5 ∧ l.rows = rows))) ∧
     (e.addr = 1 → s.does .matrixOpStart fun t => t.mem = s.mem ∧ ∀ q ∈ cores, ∀ a, (s.core q).arrival = some a →
        (t.core q).arrival = if a.started then none else some a)) ∧
    (∀ o, (s.core c).matOp = some o → o.id = e.id →
      let allOut (t : State) : Prop := t.mem = s.mem ∧ (t.core c).fifo = (s.core c).fifo ∧
        ∀ q z, (s.core q).matOp = some z → z.id = e.id → ∃ y, (t.core q).matOp = some y ∧ y.desync = true ∧ y.off = z.off ∧
          y.ctx = z.ctx
      (∀ z rest, (s.core c).fifo = z :: rest → (s.core c).fifoBad.headD false = false →
        s.does .scaleFifoConsume fun t => (t.core c).fifo = rest ∧ t.mem = s.mem ∧
          (t.core c).matOp = some { o with scales := o.scales ++ [z], blocks := o.blocks + 1 } ∧
          ∀ q, q ≠ c → t.core q = s.core q) ∧
      ((s.core c).fifo = [] → s.does .scaleFifoConsume allOut) ∧
      ((s.core c).fifo ≠ [] → (s.core c).fifoBad.headD false = true → s.does .scaleFifoConsume fun t =>
        allOut t ∧ (t.core c).matOp = some { o with scaleBad := true, desync := true })) ∧
    (∀ o, (s.core c).matOp = some o → o.id = e.id →
      let ty := o.shape.toNat / 2 ^ 24 % 16
      let k := o.shape.toNat / 2 ^ 16 % 256
      let m := o.shape.toNat % 256
      let row (r : Nat) : VReg := (o.rows[r]?).getD 0
      let byteB (j : Nat) : Byte := (o.b[j]?).getD 0
      (o.desync = true → s.does .matrixOpEnd fun t => (t.core c).acc = (s.core c).acc ∧ (t.core c).matOp = none ∧
        (t.core c).desync = (if (s.core c).claim = some o.ctx then some o.off else (s.core c).desync) ∧
        (t.core c).ctxs = (s.core c).ctxs ∧ t.mem = s.mem) ∧
      (o.desync = false → o.d5 % 8 = 0 → o.d5 < 32 → m ≤ 8 →
        (ty = 1 → o.residue = true → s.does .matrixOpEnd fun t =>
          ∀ r j, r < m → j < 8 → (t.core c).accMark.getLsbD (8 * (o.d5 + r) + j) = true) ∧
        (ty = 7 → s.does .matrixOpEnd fun t => (t.core c).matOp = none ∧ t.mem = s.mem ∧ t.ctx c o.ctx = s.ctx c o.ctx ∧
          (∀ r j, r < m → j < 8 → elem 32 j (t.core c).acc[Fin.ofNat 32 (o.d5 + r)] =
            BitVec.ofInt 32 (((elem 32 j (s.core c).acc[Fin.ofNat 32 (o.d5 + r)]).toNat : Int) +
              ((List.range k).map fun i => (elem 8 i (row r)).toInt * (byteB (8 * i + j)).toInt).sum)) ∧
          ∀ r : Fin 32, r.val < o.d5 ∨ o.d5 + m ≤ r.val → (t.core c).acc[r] = (s.core c).acc[r]) ∧
        (ty = 1 → s.does .matrixOpEnd fun t => (t.core c).matOp = none ∧ t.mem = s.mem ∧
          ∃ y : Nat → Nat → Nat → Nat,
            let one (r j i : Nat) : FRes := fmtF32.fma {} (fmtF32.value (elem 32 i (row r)).toNat)
              (fmtF32.value (leNat ((o.b.drop (4 * (8 * i + j))).take 4))) (fmtF32.value (y r j i))
            (∀ r j, r < m → j < 8 → y r j 0 = (elem 32 j (s.core c).acc[Fin.ofNat 32 (o.d5 + r)]).toNat ∧
              (∀ i, i < k → y r j (i + 1) = (one r j i).code) ∧
              elem 32 j (t.core c).acc[Fin.ofNat 32 (o.d5 + r)] = BitVec.ofNat 32 (y r j k)) ∧
            (∀ b, b < 5 → (bitOf (t.ctx c o.ctx).k.fpc (8 + b) = true ↔ bitOf (s.ctx c o.ctx).k.fpc (8 + b) = true ∨
              ∃ r j i, r < m ∧ j < 8 ∧ i < k ∧ (one r j i).flags.getLsbD b = true)) ∧
            (t.ctx c o.ctx).r = (s.ctx c o.ctx).r ∧ (t.ctx c o.ctx).pc = (s.ctx c o.ctx).pc)))

/-- R69, R77, R199 to R206: rays against boxes and triangles, codes, rebased origins, the better hit, coverage and the
depth test, on finite values. Every test is exact; a delivered number is the one rounding of it. -/
def Obligations.Geometry : Prop :=
  ∀ (s : State) (d a b : Fin 32) (o : BitVec 11) (c : Cull) (pr : Fin 8), s.src.pBad pr = false →
    let act := s.active pr
    let code (r : Fin 32) (l e : Nat) : Nat := el 32 e (lane l (s.src.v r))
    let z (r : Fin 32) (l e : Nat) : ℚ := rat32 (code r l e)
    let fin (r : Fin 32) (ls : List (Nat × Nat)) : Prop := ∀ p ∈ ls, finite32 (code r p.1 p.2)
    let pair (p q : Nat) : Word := BitVec.ofNat 64 (p % 2 ^ 32 + 2 ^ 32 * (q % 2 ^ 32))
    let inf := 0x7F800000
    let once : Prop := act ≠ 0
    let clean (rs : List (Fin 32)) : Prop := ∀ r ∈ rs, s.src.vBad r = 0
    let ray : Prop := fin a [(0, 0), (0, 1), (1, 0), (1, 1), (2, 0), (2, 1), (3, 0), (3, 1)] ∧
      fin (a + 1) [(0, 0), (0, 1), (1, 0), (1, 1)]
    let og (i : Nat) : ℚ := if i = 0 then z a 0 0 else if i = 1 then z a 0 1 else z a 1 0
    let dir (i : Nat) : ℚ := if i = 0 then z a 2 0 else if i = 1 then z a 2 1 else z a 3 0
    let rc (i : Nat) : ℚ := if i = 0 then z (a + 1) 0 0 else if i = 1 then z (a + 1) 0 1 else z (a + 1) 1 0
    let eps := z a 1 1
    let tmin := z a 3 1
    let tmax := z (a + 1) 1 1
    let bx (i : Nat) : Fin 32 := if i = 0 then b else if i = 1 then b + 1 else b + 2
    let t1 (l i : Nat) : ℚ := (z (bx i) l 0 - eps - og i) * rc i
    let t2 (l i : Nat) : ℚ := (z (bx i) l 1 + eps - og i) * rc i
    let near (l : Nat) : ℚ := max tmin (max (min (t1 l 0) (t2 l 0)) (max (min (t1 l 1) (t2 l 1)) (min (t1 l 2) (t2 l 2))))
    let far (l : Nat) : ℚ := min tmax (min (max (t1 l 0) (t2 l 0)) (min (max (t1 l 1) (t2 l 1)) (max (t1 l 2) (t2 l 2))))
    let hit (l : Nat) : Prop := bitOf act l ∧ near l ≤ far l ∧ ∀ i, i < 3 → z (bx i) l 0 ≤ z (bx i) l 1
    (clean [a, a + 1, b, b + 1, b + 2] → ray → (∀ l i, l < 4 → i < 3 → fin (bx i) [(l, 0), (l, 1)]) →
      ∃ y, s.writesV (.bxt d a b pr) d act y ∧ ∃ n : Nat → Nat,
        (∀ l, l < 4 → hit l → below32 (n l) (near l)) ∧ (∀ l, l < 4 → bitOf act l → ¬ hit l → y l = pair inf 0xFFFFFFFF) ∧
        ∀ l, l < 4 → hit l → ∃ r, y l = pair (n l) r ∧ ∀ h : List Nat, h.Nodup →
          (∀ k, k ∈ h ↔ k < 4 ∧ hit k ∧ (rat32 (n k) < rat32 (n l) ∨ (rat32 (n k) = rat32 (n l) ∧ k < l))) →
          r = h.length) ∧
    (let v (j i : Nat) : ℚ := if i < 2 then z b (j % 3) i else z (b + 1) (j % 3) 0
     let cross (p q : Nat → ℚ) (i : Nat) : ℚ :=
       p ((i + 1) % 3) * q ((i + 2) % 3) - p ((i + 2) % 3) * q ((i + 1) % 3)
     let dot (p q : Nat → ℚ) : ℚ := p 0 * q 0 + p 1 * q 1 + p 2 * q 2
     let sub (p q : Nat → ℚ) (i : Nat) : ℚ := p i - q i
     let e (j : Nat) : ℚ := dot (cross (sub (v (j + 1)) og) (sub (v (j + 2)) og)) dir
     let bd (j : Nat) : ℚ := let w := cross (sub (v (j + 1)) (v (j + 2))) dir
       |w 0| + |w 1| + |w 2|
     let sum := e 0 + e 1 + e 2
     let inside : Prop := sum ≠ 0 ∧ ((∀ j, j < 3 → -eps * bd j ≤ e j) ∨ ∀ j, j < 3 → e j ≤ eps * bd j)
     let kept : Prop := match c with
       | .off => True
       | .back => sum ≤ 0
       | .front => 0 ≤ sum
     let x := dot (sub (v 0) og) (cross (sub (v 1) (v 0)) (sub (v 2) (v 0))) / sum
     let miss (l : Nat) : Word := if l = 0 then pair inf 0 else 0
     once → clean [a, a + 1, b, b + 1] → ray → fin b [(0, 0), (0, 1), (1, 0), (1, 1), (2, 0), (2, 1)] →
       fin (b + 1) [(0, 0), (1, 0), (2, 0)] →
       (¬ (inside ∧ kept) → s.writesV (.trix d a b c pr) d 0x3 miss) ∧
       (inside → kept → |x| ≤ 2 ^ 127 → |e 1 / sum| ≤ 2 ^ 127 → |e 2 / sum| ≤ 2 ^ 127 → ∃ t u w,
         nearest32 t x ∧ nearest32 u (e 1 / sum) ∧ nearest32 w (e 2 / sum) ∧
         (tmin ≤ rat32 t ∧ rat32 t ≤ tmax → s.writesV (.trix d a b c pr) d 0x3 fun l =>
           if l = 0 then pair t u else pair w (if 0 < sum then 3 else 1)) ∧
         (¬ (tmin ≤ rat32 t ∧ rat32 t ≤ tmax) → s.writesV (.trix d a b c pr) d 0x3 miss))) ∧
    (let sc : Int := ((s.src.g b).setWidth 8).toInt
     let q (l e : Nat) : ℚ := ((BitVec.ofNat 16 (el 16 e (lane l (s.src.v a)))).toInt : ℚ) * (2 : ℚ) ^ sc
     s.src.gBad b = false → s.src.vBad a &&& act = 0 →
       (sc.natAbs ≤ 100 → s.does (.cdec d a b pr) fun t =>
         (∀ l, l < 4 → if bitOf act l then
             rat32 (el 32 0 (lane l (t.cx.v d))) = q l 0 ∧ rat32 (el 32 1 (lane l (t.cx.v d))) = q l 1 ∧
             rat32 (el 32 0 (lane l (t.cx.v (d + 1)))) = q l 2 ∧ el 32 1 (lane l (t.cx.v (d + 1))) = 0
           else lane l (t.cx.v d) = lane l (s.cx.v d) ∧ lane l (t.cx.v (d + 1)) = lane l (s.cx.v (d + 1))) ∧
         (∀ r, r ≠ d → r ≠ d + 1 → t.cx.v r = s.cx.v r) ∧ t.cx.r.g = s.cx.r.g ∧ t.cx.pc = s.cx.pc ∧ t.mem = s.mem) ∧
       (100 < sc.natAbs → once → s.plain → ∃ addr, s.faults (.cdec d a b pr) Cause.illop addr)) ∧
    (let f (r : Fin 32) (i : Nat) : FVal := fmtF64.value (lane i (s.src.v r)).toNat
     let comp (i : Nat) : FRes := fmtF32.add {} (f a i) (f b i).flip
     let err (i : Nat) : ℚ := |((f a i).rat - (f b i).rat) - rat32 (comp i).code|
     once → clean [a, b] → (∀ i, i < 3 → (∃ n m e, f a i = .num n m e) ∧ (∃ n m e, f b i = .num n m e) ∧
         |(f a i).rat - (f b i).rat| ≤ 2 ^ 126) →
       ∃ u y fl er, s.gotV u d 0x3 y 0 ∧ exec (.rbase d a b pr) s = .next (u.raise fl) ∧
         y 0 = pair (comp 0).code (comp 1).code ∧ y 1 = pair (comp 2).code er ∧
         above32 er (max (err 0) (max (err 1) (err 2))) ∧
         ∃ up : FRes, up = rebaseBound ((List.range 3).map fun i =>
             (rebase (lane i (s.src.v a)).toNat (lane i (s.src.v b)).toNat).2) ∧ up.code % 2 ^ 32 = er ∧
           ∀ k, fl.getLsbD k = true ↔ up.flags.getLsbD k = true ∨ ∃ i, i < 3 ∧ (comp i).flags.getLsbD k = true) ∧
    (let t (r : Fin 32) := code r 0 0
     let wins : Prop := bitOf (lane 1 (s.src.v a)) 32 ∧
       (bitOf (lane 1 (s.src.v d)) 32 = false ∨ z a 0 0 < z d 0 0 ∨
         (z a 0 0 = z d 0 0 ∧ lane 2 (s.src.v a) < lane 2 (s.src.v d)))
     once → clean [a, b, d] → finite32 (t a) → finite32 (t d) → d ≠ b →
       (wins → s.does (.hcmp d a b pr) fun u => u.cx.v d = s.src.v a ∧
         (∀ l, l < 4 → lane l (u.cx.v b) = if l = 1 then pair (code b 1 0) (t a) else lane l (s.cx.v b)) ∧
         (∀ r, r ≠ d → r ≠ b → u.cx.v r = s.cx.v r) ∧ u.cx.r.g = s.cx.r.g ∧ u.cx.pc = s.cx.pc ∧ u.mem = s.mem) ∧
       (¬ wins → exec (.hcmp d a b pr) s = .next s)) ∧
    (let i32 (r : Fin 32) (l e : Nat) : Int := (BitVec.ofNat 32 (code r l e)).toInt
     let edge (p q w : Int × Int) : Int := (q.1 - p.1) * (w.2 - p.2) - (q.2 - p.2) * (w.1 - p.1)
     let owns (p q : Int × Int) : Prop := q.2 < p.2 ∨ (p.2 = q.2 ∧ q.1 < p.1)
     let v (j : Nat) : Int × Int := (i32 b (j % 3) 0, i32 b (j % 3) 1)
     let at_ (l : Nat) : Int × Int := (i32 a l 0, i32 a l 1)
     let e (l j : Nat) : Int := edge (v (j + 1)) (v (j + 2)) (at_ l)
     let area (l : Nat) : Int := e l 0 + e l 1 + e l 2
     let kept (l : Nat) : Prop := match c with
       | .off => True
       | .back => 0 ≤ area l
       | .front => area l ≤ 0
     let covered (l : Nat) : Prop := area l ≠ 0 ∧ kept l ∧
       ((0 < area l ∧ ∀ j, j < 3 → 0 < e l j ∨ (e l j = 0 ∧ owns (v (j + 1)) (v (j + 2)))) ∨
        (area l < 0 ∧ ∀ j, j < 3 → e l j < 0 ∨ (e l j = 0 ∧ owns (v (j + 2)) (v (j + 1)))))
     let depth (l : Nat) : ℚ := ((e l 0 : ℚ) * z (b + 1) 0 0 + e l 1 * z (b + 1) 1 0 + e l 2 * z (b + 1) 2 0) / area l
     clean [a, b, b + 1] → fin (b + 1) [(0, 0), (1, 0), (2, 0)] → (∀ l, l < 4 → |depth l| ≤ 2 ^ 127) →
       ∃ y, s.writesV (.cov d a b c pr) d act y ∧ ∀ l, l < 4 → bitOf act l →
         (covered l → ∃ n, y l = pair n 1 ∧ nearest32 n (depth l)) ∧ (¬ covered l → y l = pair inf 0)) ∧
    (let ad (l : Nat) : Word := s.src.g a + o.signExtend 64 * 4 + BitVec.ofNat 64 (4 * l)
     let key (l : Nat) : Nat := s.hereKey (ad l).toNat
     let zs (l : Nat) : Nat := code d l 0
     let pass (l : Nat) : Bool := bitOf (lane l (s.src.v d)) 32 &&
       (fmtF32.value (zs l)).below false (fmtF32.value (s.loadNat (key l) 4))
     s.wf → s.first → s.cleanG [a] → s.src.vBad d &&& s.kmask = 0 →
       (∀ l, l < 4 → bitOf s.kmask l → s.localCheck (ad l).toNat 4 { r := true, w := true } = .ok ∧
         s.poisoned (key l) = false) →
       s.does (.ztst d a o) fun t =>
         (∀ l, l < 4 → lane l (t.cx.v d) =
           if bitOf s.kmask l then pair (zs l) (if pass l then 1 else 0) else lane l (s.cx.v d)) ∧
         (∀ l, l < 4 → bitOf s.kmask l → t.loadNat (key l) 4 = if pass l then zs l else s.loadNat (key l) 4) ∧
         (∀ k, (∀ l, l < 4 → bitOf s.kmask l → k < key l ∨ key l + 4 ≤ k) → t.byteAt k = s.byteAt k) ∧
         t.cx.k.lres = s.kmask.setWidth 64 ∧ t.cx.pc = s.cx.pc)

/-- R3, R20 to R27, R29, R113, R116, R225, R317, R432: reading, writing and exchanging a K-register; the value each one reads,
KCORE, KXPH, KWTMO and KCYCLE among them; the bits a write leaves, of KERR those it does not clear; the bundles that the
contexts of the core hold fetched when a segment changes, each held before or fetched under the old segments; the refusals; and
the debug word. That a KSEGn write is where the contexts read ahead, by at most four bundles, is the model's choice (log 9, of
R225), and so is the count of cycles in a tick that KCYCLE is read from (log 3). -/
def Obligations.KRegisters : Prop :=
  ∀ (s : State) (d : Fin 32) (k : BitVec 14),
    let n := k.toNat
    let v := s.src.g d
    let value (t : State) (m : Nat) : Word := t.kread s.cur.core s.cur.ctx m
    let old := value s n
    let x := s.cx
    let assigned : Prop := n ≤ 0x17 ∨ (0x40 ≤ n ∧ n ≤ 0x46) ∨ (0x80 ≤ n ∧ n ≤ 0x86)
    let perCore : Prop := (0x40 ≤ n ∧ n ≤ 0x46) ∨ n ∈ [0x80, 0x82, 0x83, 0x86]
    let userWrites : Prop := n ∈ [0x03, 0x0B, 0x0C, 0x0D, 0x0E]
    let mayRead : Prop := assigned ∧ (s.src.mode = true ∨ n < 0x80)
    let mayWrite : Prop := assigned ∧ (s.src.mode = true ∨ (n < 0x80 ∧ (perCore ∨ userWrites)))
    let ready : Prop := n ≠ 0x16 ∧ (n = 0x0D → s.flagsDue = false)
    let table : List (Nat × Word) := [(0x00, x.k.cause), (0x01, x.k.epc), (0x02, x.k.addr), (0x03, x.k.lres),
      (0x04, x.k.lf[0]), (0x05, x.k.lf[1]), (0x06, x.k.lf[2]), (0x07, x.k.lf[3]), (0x08, x.f.kmask.setWidth 64),
      (0x09, x.f.kmsd.setWidth 64), (0x0A, BitVec.ofNat 64 (x.f.depth.toNat + 2 ^ 16 * x.f.spilled.toNat)),
      (0x0B, x.k.spill), (0x0C, x.k.utvec), (0x0D, x.k.fpc), (0x0E, x.k.seed), (0x0F, x.k.mshape),
      (0x10, BitVec.ofNat 64 s.cur.ctx.val), (0x11, x.k.lane), (0x12, x.k.wave), (0x13, x.k.group), (0x14, x.k.pan),
      (0x15, x.k.launch), (0x17, BitVec.ofNat 64 (s.group s.here.group).kxslot),
      (0x40, BitVec.ofNat 64 (s.mgmt.pkgnum.toNat * 2 ^ 32 +
        (s.cur.core / 256 / 64 * 2 + s.cur.core % 256 / 128) * 2 ^ 16 + s.cur.core)), (0x41, s.here.kseg[0]),
      (0x42, s.here.kseg[1]), (0x43, s.here.kseg[2]), (0x44, s.here.kseg[3]), (0x45, s.here.kxph.setWidth 64),
      (0x46, s.here.kwtmo.setWidth 64), (0x80, s.here.kstvec),
      (0x81, BitVec.ofNat 64 (x.mode.toNat + 2 * x.pmode.toNat + 8 * x.sstep.toNat)), (0x82, s.here.kbrine),
      (0x83, s.here.kerr), (0x84, x.k.sscr0), (0x85, x.k.sscr1), (0x86, s.here.klatent.setWidth 64)]
    let written : List (Nat × Word) := [(0x00, v &&& 0xCFFF), (0x01, v &&& 0x1FFFF), (0x02, v &&& 0x00FFFFFFFFFFFFFF),
      (0x03, v &&& 0xF), (0x04, v), (0x05, v), (0x06, v), (0x07, v), (0x08, if v &&& 0xF = 0 then old else v &&& 0xF),
      (0x09, BitVec.ofNat 64 (min 32 (v.toNat % 64))),
      (0x0A, BitVec.ofNat 64 (min 8 (v.toNat % 16) + 2 ^ 16 * (v.toNat / 2 ^ 16 % 2 ^ 16))),
      (0x0B, v &&& 0x1FFF8), (0x0C, v &&& 0x1FFFC),
      (0x0D, if v.toNat % 8 ≤ 4 then v &&& 0x1F37 else (v &&& 0x1F30 : Word) ||| (old &&& 7 : Word)), (0x0E, v),
      (0x0F, v &&& 0x8FFFFFFF), (0x41, v &&& 0x00000FFFFFFDFFFF), (0x42, v &&& 0x00000FFFFFFDFFFF),
      (0x43, v &&& 0x00000FFFFFFDFFFF), (0x44, v &&& 0x00000FFFFFFDFFFF), (0x46, v &&& 0xFFFF), (0x80, v &&& 0xFFC),
      (0x81, (v &&& 0xA : Word) ||| (old &&& 1 : Word)),
      (0x82, (old &&& ~~~0xFF00 : Word) ||| (v &&& 0xFF00 : Word)),
      (0x83, (old &&& ~~~(v &&& 0xFF) : Word) &&&
        (if v.toNat / 2 ^ 32 % 2 ^ 16 = 0 then BitVec.allOnes 64 else ~~~0x0000FFFF00000000)), (0x84, v), (0x85, v),
      (0x86, if v.toNat % 2 ^ 32 = 0 then old else 0)]
    let fixed : List Nat := [0x10, 0x11, 0x12, 0x13, 0x14, 0x15, 0x17, 0x40, 0x45]
    let others (t : State) : Prop := (∀ m, m ≠ n → value t m = value s m) ∧ t.mem = s.mem ∧ t.cx.pc = s.cx.pc ∧
      t.cx.r.v = s.cx.r.v ∧ t.cx.r.p = s.cx.r.p ∧ (∀ c, c ≠ s.cur.core → t.core c = s.core c) ∧
      (∀ c : Fin 11, c ≠ s.cur.ctx → ∃ buf, t.here.ctxs[c] = { s.here.ctxs[c] with fbuf := buf }) ∧
      ∀ c : Fin 11,
        let old := s.here.ctxs[c]
        let new := t.here.ctxs[c]
        (n < 0x41 ∨ 0x44 < n → new.fbuf = old.fbuf) ∧ new.fbuf.length ≤ max 4 old.fbuf.length ∧
        ∀ b ∈ new.fbuf, b ∈ old.fbuf ∨
          segCheck s.here.kseg old.mode b.1.toNat (if isLone b.2.1 then 4 else 8) { x := true } = none
    (mayRead → ready → s.kBad n = false → s.writesG (.kget d k) d old ∧ ∀ p ∈ table, p.1 = n → old = p.2) ∧
    (∀ l start, n = 0x16 → s.kBad n = false → s.here.brineLevel = 0 → s.launch? s.here.launch = some l →
      l.startTick = some start →
      s.writesG (.kget d k) d (Config.cyclesOf s.ticks - Config.cyclesOf start)) ∧
    (mayWrite → ready → s.kBad n = false → s.src.gBad d = false →
      let keeps : Prop := n ∈ fixed ∨ (s.src.mode = false ∧ perCore)
      (s.does (.kset d k) fun t => others t ∧ t.cx.r = s.cx.r ∧ (keeps → value t n = old) ∧
        (¬ keeps → ∀ p ∈ written, p.1 = n → value t n = p.2)) ∧
      (s.cx.gBad d = false → s.does (.kswp d k) fun t => others t ∧ (∀ r, t.cx.g r = if r ≠ 0 ∧ r = d then old else s.cx.g r) ∧
        (keeps → value t n = old) ∧ (¬ keeps → ∀ p ∈ written, p.1 = n → value t n = p.2))) ∧
    (s.plain → ¬ assigned → ∀ i ∈ [Instr.kget d k, .kset d k, .kswp d k], ∃ addr, s.faults i Cause.illop addr) ∧
    (s.plain → assigned → ¬ mayRead → ∀ i ∈ [Instr.kget d k, .kset d k, .kswp d k], ∃ addr, s.faults i Cause.priv addr) ∧
    (s.plain → assigned → ¬ mayWrite → ∀ i ∈ [Instr.kset d k, .kswp d k], ∃ addr, s.faults i Cause.priv addr) ∧
    (s.src.gBad d = false → s.does (.dbg d) fun t => t.here.dbgWord = v ∧ t.mgmt.dbgword = v ∧ t.mem = s.mem ∧
      t.cx = s.cx ∧ (s.mgmt.attach = true ∧ s.mgmt.dbgcore.toNat = s.cur.core → t.here.dbgHalt = true) ∧
      (¬ (s.mgmt.attach = true ∧ s.mgmt.dbgcore.toNat = s.cur.core) → t.here.dbgHalt = s.here.dbgHalt) ∧
      ∀ c, c ≠ s.cur.core → t.core c = s.core c)

/-- R10, R114, R115, R149, R330: a context is saved to 4,096 bytes of own ULM, whose sectors are fetched again, and a context
is installed from such bytes; and the image of a live context gives the context back: its registers and marks (g0 and p0 carry
none), PC (whose bits [1:0] are always zero), mode, masks, stacks, and the defined bits of its K-registers. That the segments
are checked for 8 bytes at a time is the model's choice (log 70). -/
def Obligations.ContextImages : Prop :=
  (∀ (s : State) (a : Fin 32) (c : Fin 11), s.wf → s.src.gBad a = false → c ≠ s.cur.ctx →
    (s.src.g a).toNat / 2 ^ 32 % 16 = c.val →
    let off := (s.src.g a).toNat % 2 ^ 17
    let x := s.here.ctxs[c]
    let u : State := if x.live then
      s.modHere fun k => (k.withdraw c).modCtx c fun x => { x with susp := true } else s
    off % 64 = 0 →
      (s.here.midIssue c = false → u.here.settled c = true → u.imageRefused off { w := true } = none →
        u.imageCheck off true = .ok →
        s.does (.csave a) fun t => (∀ b : Fin 11, t.here.ctxs[b] =
            { (u.here.afterSave c).ctxs[b] with fbuf := (t.here.ctxs[b]).fbuf }) ∧ t.refetches s.cur.core off 4096 ∧
          s.gotMem t (s.hereKey off) 4096 (fun i => ((u.image s.cur.core c x.live)[i]?).getD 0) ∧
          (x.live = true → (t.here.ctxs[c]).susp = true) ∧ ∀ n, n ≠ s.cur.core → t.core n = s.core n) ∧
      (let bs := memBytes s.mem (s.hereKey off) 4096
       x.live = false ∨ x.susp = true → s.imageRefused off { r := true } = none →
       s.imageCheck off false = .ok → s.poisonedRange (s.hereKey off) 4096 = false → imageBad bs = false →
       (imageMat bs = false ∨ s.here.claim = none ∨ s.here.claim = some c) → s.does (.crest a) fun t =>
         t.here = s.here.install c bs ∧ t.mem = s.mem ∧ t.here.ctxs[c] = imageContext bs x ∧
         t.agenda = s.agenda ++ [⟨.parkedResume, { core := s.cur.core, ctx := c.val }, 0⟩] ∧
         ∀ n, n ≠ s.cur.core → t.core n = s.core n)) ∧
  (∀ (s : State) (n : Nat) (c : Fin 11) (old : Context),
    let x := s.ctx n c
    let y := imageContext (s.image n c true) old
    x.f.depth ≤ 8 → x.f.kmsd ≤ 32 → x.f.kmask ≠ 0 → x.f.retBad = 0 → (∀ e ∈ x.f.stack.toList, e.bad = false) →
      (s.image n c true).length = 4096 ∧ (∀ r, y.g r = x.g r) ∧ (∀ r, y.v r = x.v r) ∧ (∀ r, y.p r = x.p r) ∧
      y.r.gMark = x.r.gMark &&& ~~~1 ∧ y.r.vMark = x.r.vMark ∧ y.r.pMark = x.r.pMark &&& ~~~1 ∧ y.pc = x.pc &&& 0x1FFFC ∧
      y.mode = x.mode ∧
      y.pmode = x.pmode ∧ y.sstep = x.sstep ∧ y.f = x.f ∧ y.k.lf = x.k.lf ∧ y.k.seed = x.k.seed ∧
      y.k.lane = x.k.lane &&& 0xFFFFFFFF ∧ y.k.wave = x.k.wave &&& 0x8000FFFF ∧ y.k.group = x.k.group &&& 0xFFFFFFFF ∧
      y.k.pan = x.k.pan &&& 0xFFFFFFFF ∧ y.k.launch = x.k.launch &&& 0x00FFFFFFFFFFFFFF ∧ y.k.sscr0 = x.k.sscr0 ∧ y.k.sscr1 = x.k.sscr1 ∧ y.live = true ∧ y.susp = false ∧
      y.parked = x.parked ∧ y.aword = x.aword)

/-- R381 to R387, R425, R429: a walk of the Gecko. A word of the rule program does what the scalar instruction does, on the
walk's own registers; a branch moves the walk; a load reads main memory and counts a step; a trap ends the walk, and so does a
marked register that a word reads, with POISON (R425, R429); a walk migrates to the die of its next load; its result block
lands. -/
def Obligations.GeckoWalks : Prop :=
  ∀ (s : State) (w : Walk), s.walk? s.ev.id = some w → w.ended = none →
    let c := w.fields
    let id := s.ev.id
    let again : List Task := s.agenda ++ [⟨.geckoWalkStart, { id := id }, 0⟩]
    let x (r : Fin 32) : Word := if r = 0 then 0 else w.g[r]
    let moved (pc : Nat) : Prop := s.does .geckoWalkStart fun t =>
      t.walk? id = some { w with n := w.n + 1, pc := pc } ∧ t.agenda = again ∧ t.mem = s.mem ∧ t.cores = s.cores
    let wrote (d : Fin 32) (v : Word) : Prop := s.does .geckoWalkStart fun t =>
      t.walk? id = some { w with n := w.n + 1, pc := w.pc + 1, g := if d = 0 then w.g else w.g.set d v } ∧
      t.agenda = again ∧ t.mem = s.mem ∧ t.cores = s.cores
    (∀ word i, w.running = true → w.words ≠ [] → w.pc < c.len → w.n + 1 ≤ 16 * c.limit + 64 → w.words[w.pc]? = some word →
      walkWord c.len w.pc word.toNat = some i →
      (∀ d a (k : BitVec 11) (o : BitVec 18), a ≠ 0 → w.gMark.getLsbD a.val = true →
        i = .addi d a k ∨ i = .ld64 d a k ∨ i = .bz a o → s.does .geckoWalkStart fun t => t.mem = s.mem ∧ t.cores = s.cores ∧
          t.walk? id = some { w with n := w.n + 1, ended := some (4, Cause.poison, 0), running := false } ∧
          t.agenda = s.agenda ++ [⟨.geckoWalkEnd, { id := id }, 0⟩]) ∧
      (w.gMark = 0 → (∀ d a b, (i = .add d a b → wrote d (x a + x b)) ∧ (i = .sub d a b → wrote d (x a - x b)) ∧
        (i = .xor d a b → wrote d (x a ^^^ x b)) ∧ (i = .mul d a b → wrote d (x a * x b))) ∧
      (∀ d a (k : BitVec 11), i = .addi d a k → wrote d (x a + k.signExtend 64)) ∧
      (∀ (o : BitVec 24), i = .br o → moved (w.pc + o.toInt).toNat) ∧
      (∀ a (o : BitVec 18), (i = .bz a o → moved (if x a = 0 then (w.pc + o.toInt).toNat else w.pc + 1)) ∧
        (i = .bnz a o → moved (if x a = 0 then w.pc + 1 else (w.pc + o.toInt).toNat))) ∧
      (∀ k : BitVec 14, i = .trap k → s.does .geckoWalkStart fun t => t.mem = s.mem ∧ t.cores = s.cores ∧
        t.walk? id = some { w with n := w.n + 1, ended := some (k.toNat, 0, 0), running := false } ∧
        t.agenda = s.agenda ++ [⟨.geckoWalkEnd, { id := id }, 0⟩]) ∧
      (∀ d a (o : BitVec 11), i = .ld64 d a o →
        let ea := (x a + o.signExtend 64 * 8).toNat
        let v : Walk := { w with n := w.n + 1 }
        let u := s.modWalk id fun w => { w with n := w.n + 1 }
        ea < 2 ^ 55 → ea % 8 = 0 → w.steps ≠ c.limit →
        (colour ea ≠ w.die → s.does .geckoWalkStart fun t =>
          t.walk? id = some { v with running := false, migrated := true } ∧
          t.agenda = s.agenda ++ [⟨.geckoMigration, { id := id, die := colour ea }, 0⟩] ∧ t.mem = s.mem) ∧
        (∀ l pa z, s.launch? w.launch = some l → l.st ≠ .ending → l.st ≠ .retired → colour ea = w.die →
          u.walkFetch v ea = (.value pa, z) → z.poisoned pa = false → s.does .geckoWalkStart fun t =>
            t.mem = z.mem ∧ t.agenda = z.agenda ++ [⟨.geckoWalkStart, { id := id }, 0⟩] ∧ (z.walk? id = some v →
              t.walk? id = some { v with steps := w.steps + 1, pc := w.pc + 1,
                                         g := if d = 0 then w.g else w.g.set d (BitVec.ofNat 64 (z.loadNat pa 8)) }))))) ∧
    (w.migrated = true → w.running = false → w.die ≠ s.ev.die → s.does .geckoMigration fun t =>
      (∃ v ∈ t.walks, v = { w with die := s.ev.die, migr := w.migr + 1 }) ∧ t.mem = s.mem ∧
      t.agenda = s.agenda ++ [⟨.geckoMigration, s.ev, 0⟩]) ∧
    (w.migrated = true → w.running = false → w.die = s.ev.die → s.nextWalk w.die = some w.id →
      s.does .geckoMigration fun t => t.walk? id = some { w with running := true, migrated := false, n := w.n - 1 } ∧
        t.agenda = again ∧ t.mem = s.mem) ∧
    (s.does .geckoStepLimit fun t => t.walk? id = some { w with ended := some (2, 0, s.ev.value), running := false } ∧
      t.agenda = s.agenda ++ [⟨.geckoWalkEnd, { id := id }, 0⟩] ∧ t.mem = s.mem) ∧
    (∀ (y : State) (o : Nat) (st : Cause) (a : Word) (l : Launch) (base : Nat), y.walk? y.ev.id = some { w with ended := some (o, st, a) } →
      y.wf → y.launch? w.launch = some l → l.st ≠ .ending → l.st ≠ .retired → c.dest ≠ 0 → o ≠ 5 → bitOf c.dest 55 = true →
      y.remote c.dest = false → winCore c.dest = w.core → y.portBusy w.launch w.core = false → y.ulmBase w.launch w.core = some base → w.counted = false →
      y.does .geckoWalkEnd fun t => y.gotMem t (base + winOff c.dest) 64 (fun k => ((w.block o st a)[k]?).getD 0) ∧
        t.walk? y.ev.id = none)

/-- R349 to R358: the Rake. The error that a table gives each group is the greatest of its projected error and of the errors of
the groups it is made from; an effective error is 0 for a collapsed group and else the least of its own and those above it; the
cut takes exactly the clusters whose own error is within the bound and whose parent's is not; the projected error of a record
is the nearest f32 of ERR × KFACT / max(D − RADIUS, DNEAR), or +∞ where a number is a NaN or negative; the bytes of the four
outputs and MONO; a bad record or table ends the command; the outputs are written, the command leaves, and its completion is
posted. That a difference of coordinates counts as an intermediate result is a reading (DEDUCED, log 50). -/
def Obligations.RakeCuts : Prop :=
  (∀ (ngrp : Nat) (ws p : List Nat), dagFault ngrp ws = none → p.length = ngrp → (∀ x ∈ p, x ≤ posInf) →
    let es := ws.map dagEntry
    let e := errorsE es p
    e.length = ngrp ∧ (∀ g, g < ngrp → f32Key (p.getD g 0) ≤ f32Key (e.getD g 0)) ∧
    (∀ c ∈ es, ∀ x g, c.src = some x → c.grp = some g → f32Key (e.getD x 0) ≤ f32Key (e.getD g 0)) ∧
    (∀ g, g < ngrp → f32Key (e.getD g 0) = f32Key (p.getD g 0) ∨
      ∃ c ∈ es, ∃ x, c.src = some x ∧ c.grp = some g ∧ f32Key (e.getD g 0) = f32Key (e.getD x 0)) ∧
    (∀ coll : List Nat,
      let f := errorsF es e coll
      let up (c : DagEntry) : Nat := f32Key ((c.grp.map fun x => f.getD x 0).getD posInf)
      f.length = ngrp ∧ ∀ g, g < ngrp → f32Key (f.getD g 0) ≤ f32Key (e.getD g 0) ∧
        (∀ c ∈ es, c.src = some g → f32Key (f.getD g 0) ≤ up c) ∧ (g ∈ coll → f32Key (f.getD g 0) = 0) ∧
        (g ∉ coll → f32Key (f.getD g 0) = f32Key (e.getD g 0) ∨ ∃ c ∈ es, c.src = some g ∧ f32Key (f.getD g 0) = up c)) ∧
    ∀ (f : List Nat) (tau k : Nat), k ∈ cutOf es f tau ↔ ∃ c, es[k]? = some c ∧
      f32Key ((c.src.map fun g => f.getD g 0).getD 0) ≤ tau ∧ tau < f32Key ((c.grp.map fun g => f.getD g 0).getD posInf)) ∧
  (∀ (r : RakeRec) (g : List Byte),
    let sub (a b : Nat) : Nat := (fmtF64.add {} (fmtF64.value a) (fmtF64.value b).flip).code
    let plus (a b : Nat) : Nat := (fmtF64.add {} (fmtF64.value a) (fmtF64.value b)).code
    let sq (a : Nat) : Nat := (fmtF64.mul {} (fmtF64.value a) (fmtF64.value a)).code
    let d (i : Nat) : Nat := sub (getN g (8 * i) 8) ((r.eye[i]?).getD 0)
    let near := sub (fmtF64.sqrt {} (plus (plus (sq (d 0)) (sq (d 1))) (sq (d 2)))).code (toD (getN g 24 4))
    let vals : List FVal := [fmtF32.value (getN g 28 4), fmtF32.value (getN g 24 4), fmtF64.value (d 0), fmtF64.value (d 1),
      fmtF64.value (d 2), fmtF64.value near]
    let m : ℚ := max (fmtF64.value near).rat (rat32 r.dnear)
    let exact : ℚ := rat32 (getN g 28 4) * rat32 r.kfact / m
    ((∃ v ∈ vals, v.isNan = true ∨ v.rat < 0) → projected r g = (posInf, true)) ∧
    ((∀ v ∈ vals, 0 ≤ v.rat ∧ ∃ n k e, v = .num n k e) → finite32 r.kfact → finite32 r.dnear → 0 < rat32 r.kfact →
      0 < rat32 r.dnear → exact ≤ rat32 0x7F7FFFFF → ∃ p, projected r g = (p, false) ∧ nearest32 p exact)) ∧
  (∀ (r : RakeRec) (e f cut : List Nat) (known : List (Nat × Bool)),
    ∃ l b m sc, rakeOutputs r e f cut known = [(r.list, l), (r.bitmap, b), (r.miss, m), (r.scratch, sc)] ∧
      l.length = 4 * min r.listCap cut.length ∧
      (∀ i k, i < r.listCap → cut[i]? = some k → k < 2 ^ 25 → getN l (4 * i) 4 = k + if (k, false) ∈ known then 2 ^ 31 else 0) ∧
      b.length = 64 * ((r.ncl + 511) / 512) ∧
      (∀ k, k < 8 * b.length → (bitOf ((b[k / 8]?).getD 0) (k % 8) = true ↔ k ∈ cut ∧ (k, false) ∉ known)) ∧
      (∃ gone : List Nat, gone.Perm ((known.filter fun x => !x.2).map Prod.fst) ∧ gone.Pairwise (· ≤ ·) ∧
        m.length = 4 * min r.missCap gone.length ∧
        ∀ i k, i < r.missCap → gone[i]? = some k → k < 2 ^ 25 → getN m (4 * i) 4 = k) ∧
      (f.length = e.length → sc.length = 8 * e.length ∧ ∀ g x y, f[g]? = some x → e[g]? = some y → x < 2 ^ 32 → y < 2 ^ 32 →
        getN sc (8 * g) 4 = x ∧ getN sc (8 * g + 4) 4 = y)) ∧
  (∀ (p : List (Nat × Bool)) (e : List Nat), ∃ l : List Nat, l.Nodup ∧ violations p e = l.length ∧
    ∀ g, g ∈ l ↔ ∃ x y, p[g]? = some x ∧ e[g]? = some y ∧ (x.2 = true ∨ f32Key x.1 ≠ f32Key y)) ∧
  (∀ (s : State) (die : Nat) (c : RakeCmd), s.rake? s.ev.id = some (die, c) →
    let r := rakeOf c.cmd
    let a : Asker := ⟨c.id, ⟨.rakeCommand, s.ev, 0⟩, 0, c.pasid⟩
    let waits (t : State) : Prop := t.agenda.getLast? = some ⟨.rakeCompletion, { id := c.id }, 0⟩
    let report (status cut nmiss mono flags detail : Nat) : List Byte :=
      natBytes 9 1 ++ natBytes status 1 ++ natBytes 0 1 ++ natBytes c.ctx.val 1 ++ natBytes cut 4 ++ natBytes nmiss 4 ++
        natBytes mono 2 ++ natBytes flags 1 ++ natBytes detail 1
    (c.result = none → ((s.rakeQueue die).head?.map RakeCmd.id) = some c.id →
      (r.bad = true → s.does .rakeCommand fun t => waits t ∧ t.mem = s.mem ∧
        t.rake? c.id = some (die, { c with result := some ([], report 1 0xFFFFFFFF 0 0 0 1) })) ∧
      (∀ bs u d k, r.bad = false → s.engineRead a r.dag (8 * r.ncl) = (.data bs false, u) →
        dagFault r.ngrp ((List.range r.ncl).map fun i => getN bs (8 * i) 8) = some (d, k) →
        u.rake? c.id = some (die, c) → s.does .rakeCommand fun t => waits t ∧ t.mem = u.mem ∧
          t.rake? c.id = some (die, { c with result := some ([], report 1 k 0 0 0 d) })) ∧
      (∀ bs u gs v coll f cut known z,
        let ws := (List.range r.ncl).map fun i => getN bs (8 * i) 8
        let p := ((List.range r.ngrp).map fun g => (gs.drop (32 * g)).take 32).map (projected r)
        let e := errorsE (ws.map dagEntry) (p.map Prod.fst)
        let missed := ((known.filter fun x => !x.2).map Prod.fst).length
        r.bad = false → s.engineRead a r.dag (8 * r.ncl) = (.data bs false, u) → dagFault r.ngrp ws = none →
        u.engineRead a r.gbase (32 * r.ngrp) = (.data gs false, v) → r.pagein = false →
        v.collapse c (ws.map dagEntry) e (r.ngrp + 1) [] c.probes = (some (coll, f, cut), known, z) →
        z.rake? c.id = some (die, c) → s.does .rakeCommand fun t => waits t ∧ t.mem = z.mem ∧
          t.rake? c.id = some (die, { c with probes := known, result := some (rakeOutputs r e f cut known,
            report 0 cut.length missed (min 0xFFFF (violations p e))
              ((if coll = [] then 0 else 1) + (if ∃ k ∈ cut, (k, false) ∈ known then 2 else 0) +
                if r.listCap < cut.length ∨ r.missCap < missed then 4 else 0) 0) }))) ∧
    (∀ bytes, c.result = some ([], bytes) → s.does .rakeCompletion fun t => t.mem = s.mem ∧ t.rake? c.id = none ∧
      t.agenda = s.agenda ++
        [⟨.mailboxArrival, { launch := c.launch, core := c.core, bytes := bytes }, 2 ^ 48 + c.core + 1⟩]) ∧
    (∀ outs bytes l u, c.result = some (outs, bytes) → outs ≠ [] → r.done = 0 →
      s.outPlaces ⟨c.id, ⟨.rakeCompletion, s.ev, 0⟩, 0, c.pasid⟩ outs = (.at_ l, u) → s.does .rakeCompletion fun t =>
        t.mem = (u.putPlaces l (outs.flatMap Prod.snd)).mem ∧ t.rake? c.id = none ∧
        t.agenda.getLast? =
          some ⟨.mailboxArrival, { launch := c.launch, core := c.core, bytes := bytes }, 2 ^ 48 + c.core + 1⟩))

/-- R395, R397, R398, R400: the Chameleon. Distribution and its inverse agree; the plan covers every element of the
destination, from where the source holds it, in chunks that stay in one 4 KiB block at both ends; a window of at most
64 chunks becomes copies; a chunk that is over is counted; the command ends with its completion. -/
def Obligations.ChameleonMoves : Prop :=
  (∀ (d : Dim) (i : Nat), i < d.extent → 0 < d.grid → (∀ b, d.cyclic = some b → 0 < b) →
    (d.place i).1 < d.grid ∧ (d.place i).2 < d.local_ ∧ d.index (d.place i).1 (d.place i).2 = some i) ∧
  (∀ (src dst : Layout),
    (∀ c ∈ planOf src dst, 0 < c.n ∧
      (dst.addr c.dshard c.doff) >>> 12 = (dst.addr c.dshard (c.doff + (c.n - 1))) >>> 12 ∧
      (src.addr c.sshard c.soff) >>> 12 = (src.addr c.sshard (c.soff + (c.n - 1))) >>> 12 ∧
      ∀ j, j < c.n → ∃ i, dst.element c.dshard (c.doff + j) = some i ∧ src.place i = (c.sshard, c.soff + j)) ∧
    (∀ dev o i, dev < dst.devices → o < dst.shardSize → dst.element dev o = some i →
      ∃ c ∈ planOf src dst, c.dshard = dev ∧ c.doff ≤ o ∧ o < c.doff + c.n)) ∧
  (∀ (s : State) (side : Nat) (c : ChamCmd), s.cham? s.ev.id = some (side, c) →
    let plan := planOf c.src c.dst
    let n := min 64 (plan.length - c.issued)
    (c.ending = false → c.started = true → c.failed = [] → c.stop = false → c.issued < plan.length → c.due = none →
      c.issued - c.acked < 256 → s.chamHome c = true → s.does .chameleonCommand fun t =>
        t.cham? c.id = some (side, { c with
          issued := c.issued + n, open_ := c.open_ ++ (List.range n).map fun i => c.issued + i }) ∧
        t.mem = s.mem ∧ t.copies.length = s.copies.length + n ∧ ∀ i x, i < n → plan[c.issued + i]? = some x →
          ∃ q, t.copies[s.copies.length + i]? = some q ∧ q.kind = .chunk ∧ q.dst = c.dst.addr x.dshard x.doff ∧
            q.src = c.src.addr x.sshard x.soff ∧ q.shape.toNat = c.dst.bytes * x.n % 2 ^ 64 ∧ q.launch = c.launch) ∧
    (c.ending = false → c.due = none → s.ev.flag = true → s.ev.cause = 0 →
      let done : ChamCmd := { c with open_ := c.open_.erase s.ev.n, status := topCause c.status 0 }
      done.windowDone = false → s.does .chameleonWindowAck fun t => t.cham? c.id = some (side, done) ∧ t.mem = s.mem ∧
        t.agenda = s.agenda ++ [⟨.chameleonCommand, { id := c.id }, 0⟩]) ∧
    (c.started = true → c.ending = true → c.at_ 24 = 0 → c.stop = false → s.does .chameleonEnd fun t =>
      let report : List Byte := natBytes 10 1 ++ natBytes c.status.toNat 1 ++ natBytes 0 1 ++ natBytes c.ctx.val 1 ++
        natBytes (getN c.cursor 0 4) 4 ++ natBytes (getN c.cursor 8 6) 6 ++ natBytes (getN c.cursor 4 1) 1 ++
        natBytes c.detail 1
      t.cham? c.id = none ∧ t.mem = s.mem ∧ t.agenda = s.agenda ++
        [⟨.mailboxArrival, { launch := c.launch, core := c.core, bytes := report }, 2 ^ 48 + c.core + 1⟩]))

/-- R171, R268 to R278, R361 to R379: rays and sluice triangles. A ray leaves for the replica that the cache of its core
gives, or for the home of its treelet; a triangle leaves as one copy for each tile it meets; a ray at a core with its
treelet enters q0, and is counted; elsewhere it is forwarded or goes home; a home sends it on, holds it for a
replica that leaves, or asks for the treelet; a replica that is idle leaves in two steps, its slot EVICTING between them;
slots are filled, freed and counted. That `bsend` leaves the send buffer in the step in which it issues is the model's choice
(log 25), and so are the two steps of an eviction and the slot that is FREE after it (log 24). -/
def Obligations.TreeletRays : Prop :=
  (∀ ray n, 0 < n → replicaOf ray n < n) ∧
  (∀ (s : State) (b : Fin 32),
    let lo : List Word := (List.range 4).map fun l => lane l (s.src.v b)
    let hi (l : Nat) : Word := lane l (s.src.v (b + 1))
    let id := (hi 2).toNat % 2 ^ 32
    let ray := (hi 1).toNat / 2 ^ 32
    let sent (i : Instr) (kind : SendKind) (words : List Word) (target : Nat) (op : Instr) : Prop := s.does i fun t =>
      (∃ m : Msg, t.msgs = s.msgs ++ [m] ∧ m.id = s.nextId ∧ m.kind = kind ∧ m.sender = s.cur.core ∧
        m.ctx = s.cur.ctx ∧ m.launch = s.here.launch ∧ m.target = target ∧ m.words = words) ∧
      t.here.sends = s.here.sends ++ [s.nextId] ∧ t.cx = s.cx ∧ t.mem = s.mem ∧
      t.agenda = s.agenda ++ [⟨op, { id := s.nextId }, 0⟩]
    s.src.vBad b = 0 → s.src.vBad (b + 1) = 0 → s.acquiring = false → s.released = true → s.here.sends.length < 8 →
      (let words := lo ++ [hi 0, hi 1, hi 2, (hi 3 &&& (0x3FFFFFFFFFFFFFFF : Word)) ||| (0x4000000000000000 : Word)]
       (bitOf (hi 3) 56 = false → id ≠ 0xFFFFFFFF →
        (∀ h, s.here.scache.find? (fun h => decide (h.id = id)) = some h →
          sent (.rsend b) .rsend words ((h.reps[ray * 0x9E3779B1 % 2 ^ 32 * h.reps.length / 2 ^ 32]?).getD (0, 0)).1
            .rayArrival) ∧
        ((∀ h ∈ s.here.scache, h.id ≠ id) → sent (.rsend b) .rsend words s.cur.core .rayAtHome)) ∧
       (bitOf (hi 3) 56 = true ∨ id = 0xFFFFFFFF → s.plain → ∃ ad, s.faults (.rsend b) Cause.illop ad)) ∧
      (∀ l, s.panOf s.cur.core = some l → (∀ m ∈ s.msgs, m.id < s.nextId) → (∀ i ∈ s.here.sends, i < s.nextId) →
        let box := lane 3 (s.src.v b)
        let x (i : Nat) : Nat := box.toNat / 2 ^ (16 * i) % 2 ^ 16
        let tile (c : Nat) : Bool := decide (x 0 ≤ x 2) && decide (x 1 ≤ x 3) &&
          decide (x 0 ≤ 16 * l.relX c + 15) && decide (16 * l.relX c ≤ x 2) &&
          decide (x 1 ≤ 16 * l.relY c + 15) && decide (16 * l.relY c ≤ x 3)
        s.does (.bsend b) fun t => t.cx = s.cx ∧ t.mem = s.mem ∧ t.here.sends = s.here.sends ∧
          ∃ ms : List Msg, t.msgs = s.msgs ++ ms ∧
            ms.map Msg.target = (rectCores l.corner l.width l.height).filter tile ∧ ∀ m ∈ ms, m.kind = .bsend ∧
              m.sender = s.cur.core ∧ m.words =
                lo ++ [hi 0, hi 1, hi 2, (hi 3 &&& (0x00FFFFFFFFFFFFFF : Word)) ||| (0x8000000000000000 : Word)])) ∧
  (∀ (s : State) (m : Msg) (l : Launch), s.msg? s.ev.id = some m → s.launch? m.launch = some l → l.id = m.launch →
    let k := s.core m.target
    let id := ((m.words[6]?).getD 0).toNat % 2 ^ 32
    let ray := ((m.words[5]?).getD 0).toNat / 2 ^ 32
    let flag (b : Bool) : List Word :=
      (List.range 8).map fun i => let w := (m.words[i]?).getD 0; if i = 7 then withBit w 56 b else w
    let held (i : Fin 6) : Prop := k.slots[i].state = .resident ∧ k.slots[i].id = id
    let die := homeDie id l.corner
    (s.live m.launch m.target = true → s.pageOf m.launch m.target = none → k.brineLevel < 2 → l.r.treelets ≤ 6 →
      (∀ i : Fin 6, i.val < l.r.treelets → held i → (∀ j : Fin 6, j < i → ¬ held j) → k.over .q0 = [] →
        (k.queue .q0).length < 32 → s.does .rayArrival fun t =>
          (t.core m.target).queue .q0 = k.queue .q0 ++ [{ words := flag false, marks := m.marks }] ∧ t.mem = s.mem ∧ t.msg? m.id = none ∧
          (t.core m.target).slots[i].count = min 0xFFFF (k.slots[i].count + 1)) ∧
      (s.pageOf m.launch m.sender = none → (∀ i : Fin 6, i.val < l.r.treelets → ¬ held i) →
        (∀ p, bitOf ((m.words[7]?).getD 0) 56 = false → k.fptrs.find? (fun p => decide (p.1 = id)) = some p →
          s.does .rayArrival fun t => t.msg? m.id = some { m with words := flag true, target := p.2 } ∧ t.mem = s.mem ∧
            t.agenda = s.agenda ++ [⟨.rayArrival, { id := m.id }, 0⟩]) ∧
        (bitOf ((m.words[7]?).getD 0) 56 = true → s.does .rayArrival fun t =>
          t.msg? m.id = some { m with words := flag false } ∧ t.mem = s.mem ∧
          t.agenda = s.agenda ++ [⟨.rayAtHome, { id := m.id }, 0⟩]))) ∧
    (∀ h, s.home? l.id id = some h →
      let to_ := (h.reps[ray * 0x9E3779B1 % 2 ^ 32 * h.reps.length / 2 ^ 32]?).getD (0, 0)
      s.pageOf m.launch m.sender = none →
      (to_ ∈ h.leaving → s.does .rayAtHome fun t => t.mem = s.mem ∧ t.rays = s.rays ++ [(die, m)] ∧ t.agenda = s.agenda) ∧
      (to_ ∉ h.leaving → s.does .rayAtHome fun t => t.mem = s.mem ∧
        t.msg? m.id = some { m with target := to_.1 } ∧ ∃ g, t.agenda = s.agenda ++
          [⟨.rayArrival, { id := m.id }, 0⟩, ⟨.salternCacheFill, { launch := l.id, core := m.sender, home := some g }, 0⟩] ∧
          g.id = h.id ∧ g.reps = h.reps)) ∧
    (s.home? l.id id = none → s.pageOf m.launch m.sender = none →
      (∀ c, l.cat = some c → id < c.2.1 →
        (s.rays.filter fun r => decide (r.1 = die) && s.atAgent r).length < s.agentRoom →
        s.pageIn? l.id id = none → s.does .rayAtHome fun t => t.rays = s.rays ++ [(die, m)] ∧ t.mem = s.mem ∧ ∃ p,
          t.pageIns = s.pageIns ++ [p] ∧ p.launch = l.id ∧ p.treelet = id ∧ p.replica = false ∧ p.place = none ∧
          t.agenda = s.agenda ++ [⟨.pageIn, { id := p.id }, 0⟩]) ∧
      (∀ c, l.cat = some c → c.2.1 ≤ id → s.does .rayAtHome fun t => t.mem = s.mem ∧ t.agenda = s.agenda ++
        [⟨.launchEnd, { launch := l.id, info := ⟨Cause.launchbad, 0xFFFF, 0, 0, 0, BitVec.ofNat 64 id⟩ }, 0⟩]))) ∧
  (∀ (s : State),
    let e := s.ev
    (∀ h, e.home = some h → s.live e.launch e.core = true → s.does .salternCacheFill fun t =>
      (t.core e.core).scache.head? = some h ∧ (∀ c, c ≠ e.core → t.core c = s.core c) ∧ t.mem = s.mem) ∧
    (∀ (l : Launch) (p : PageIn) (c : Nat) (i : Fin 6) (x : CatEntry) (u : State),
      s.pageIns.find? (fun p => decide (p.id = e.id)) = some p → s.launch? p.launch = some l → p.place = none →
      p.evicting = false → p.replica = false → p.counted = false → l.r.treelets ≠ 0 → s.readCat (p.asker l) l p.treelet p.treelet false = (.entry x, u) →
      (u.dieHomes (homeDie p.treelet l.corner)).length < 65536 → u.levelOf l.id = 0 → u.chooseSlot l p = some (c, i.val) → c < 2 ^ 16 →
      (u.core c).slots[i].state = .free → s.does .pageIn fun t =>
        (t.core c).slots[i] = { id := p.treelet, state := .filling } ∧ t.mem = u.mem ∧
        (∀ q ∈ t.pageIns, q.id = p.id → q.place = some (c, i.val)) ∧
        t.agenda = u.agenda ++ [⟨.pageIn, { id := p.id }, 0⟩]) ∧
    (∀ h, s.home? e.launch e.m = some h → s.levelOf e.launch = 0 → e.n < 6 → (∀ p ∈ s.pageIns, p.id ≠ e.id) →
      s.pageOf e.launch e.core = none →
      let k := s.core e.core
      let mine := (e.core, e.n)
      let others := h.reps.filter fun r => decide (r ≠ mine)
      let idle : Prop := s.live e.launch e.core = true ∧ k.idle e.n = true ∧ (k.slot e.n).id = e.m
      (e.flag = false → idle → s.does .evictionIdleCheck fun t => t.home? e.launch e.m = some h ∧ t.mem = s.mem ∧
        (t.core e.core).slot e.n = { k.slot e.n with state := .evicting } ∧
        t.agenda = s.agenda ++ [⟨.evictionIdleCheck, { e with flag := true }, 0⟩] ∧
        ∀ r rest, others = r :: rest → (t.core e.core).fptrs.getLast? = some (e.m, r.1)) ∧
      (e.flag = false → ¬ idle → s.does .evictionIdleCheck fun t =>
        t.home? e.launch e.m = some { h with leaving := h.leaving.erase mine } ∧ t.cores = s.cores ∧ t.mem = s.mem) ∧
      (e.flag = true → s.live e.launch e.core = true → s.does .evictionIdleCheck fun t =>
        t.home? e.launch e.m = (if others = [] then none
          else some { h with leaving := h.leaving.erase mine, reps := others }) ∧
        (t.core e.core).slot e.n = {} ∧ t.mem = s.mem)) ∧
    (∀ (p : PageIn) (l : Launch) (c : Nat) (i : Fin 6), s.pageIns.find? (fun p => decide (p.id = e.id)) = some p →
      s.launch? p.launch = some l → p.place = some (c, i.val) → s.live l.id c = true → s.pageOf l.id c = none →
      (s.home? l.id p.treelet = none → (s.dieHomes (homeDie p.treelet l.corner)).length < 65536) →
      s.does .treeletFillComplete fun t =>
        (t.core c).slots[i] = { id := p.treelet, state := .resident, stamp := s.kcycle l.corner } ∧
        (∃ h, t.home? l.id p.treelet = some h ∧
          h.reps = ((s.home? l.id p.treelet).map Home.reps).getD [] ++ [(c, i.val)]) ∧
        (∀ q ∈ t.pageIns, q.id ≠ p.id) ∧ t.mem = s.mem) ∧
    (∀ (l : Launch) a count thr, s.launch? e.launch = some l → l.cat = some (a, count, thr) →
      (count ≤ e.n → s.does .initialPin fun t =>
        t.launch? l.id = some { l with pinsLeft := l.pinsLeft - 1 } ∧ t.mem = s.mem ∧ t.agenda = s.agenda) ∧
      (∀ x u, e.n < count →
        s.readCat ⟨l.id, ⟨.initialPin, e, 0⟩, l.id, l.pasid⟩ l e.n (l.catVa e.n) true = (.entry x, u) → x.init = false →
        s.does .initialPin fun t => t.mem = u.mem ∧ t.pageIns = u.pageIns ∧
          t.agenda = u.agenda ++ [⟨.initialPin, { launch := l.id, n := e.n + 1 }, 0⟩])) ∧
    (∀ l, s.launch? e.launch = some l → e.flag = false → l.r.treelets ≤ 6 → l.width ≤ 256 → s.does .heatPeriodEnd fun t =>
      (∀ c ∈ rectCores l.corner l.width l.height, s.live l.id c = true → ∀ i : Fin 6, i.val < l.r.treelets →
        (t.core c).slots[i].last = (s.core c).slots[i].count ∧ (t.core c).slots[i].count = 0 ∧
        (t.core c).slots[i].id = (s.core c).slots[i].id) ∧
      t.agenda.getLast? = some ⟨.heatPeriodEnd, { launch := l.id }, 0⟩))

/-- R308 to R317, R321: a launch from its port to its start. A record's address enters the channel; a record at the head
is checked, waits for its wait words, is selected when no eligible head has a higher priority, is granted a place that
is free unless one of higher priority has become eligible, and its contexts 0 start in supervisor mode. That a rejected record
leaves the FIFO, and the head moves, only at the rejection is the model's choice (log 21), and the stages in which the checks of
R312 come are its reading (DEDUCED, log 22). -/
def Obligations.LaunchLife : Prop :=
  ∀ (s : State),
    let e := s.ev
    let ch := e.port
    let va := e.value
    (s.power = .service → e.flag = false →
      (va &&& 0xFF0000000000007F = 0 → (s.channel ch).fifo.length < 256 → s.does .lport fun t =>
        (t.channel ch).fifo = (s.channel ch).fifo ++ [va.toNat] ∧ (t.channel ch).ovf = (s.channel ch).ovf ∧
        (⟨.launchValidate, { source := .channel ch }, 0⟩ : Task) ∈ t.agenda ∧ t.mem = s.mem) ∧
      (va &&& 0xFF0000000000007F = 0 → 256 ≤ (s.channel ch).fifo.length → s.does .lport fun t =>
        (t.channel ch).ovf = true ∧ (t.channel ch).fifo = (s.channel ch).fifo ∧ t.agenda = s.agenda ∧ t.mem = s.mem) ∧
      (va &&& 0xFF0000000000007F ≠ 0 → s.does .lport fun t => (t.channel ch).fifo = (s.channel ch).fifo ∧ t.mem = s.mem ∧
        (t.channel ch).waiting = (s.channel ch).waiting ++
          [natBytes 0x12 1 ++ natBytes 0 1 ++ natBytes 0xFFFF 2 ++ List.replicate 20 0 ++ natBytes va.toNat 8])) ∧
    (∀ l, s.headOf e.source = some l → l.st = .head → l.validated = false → 2 ≤ l.stage →
      l.r.imglen ≤ 4096 * (l.stage - 2) → l.bad = false → s.does .launchValidate fun t =>
        t.launch? l.id = some { l with validated := true } ∧ t.mem = s.mem ∧
        (⟨.waitWordCheck, { launch := l.id }, 0⟩ : Task) ∈ t.agenda) ∧
    (∀ l ch', e.source = .channel ch' → s.headOf e.source = some l → l.src = .channel ch' → l.parent = none → l.st = .head →
      l.validated = false → l.stage = 1 → l.r.bad = true → s.does .launchValidate fun t =>
        (∃ x, t.launch? l.id = some x ∧ x.st = .retired ∧ x.first = some ⟨Cause.launchbad, 0xFFFF, 0, 0, 0, 0⟩) ∧
        (⟨.launchEnd, { launch := l.id }, 0⟩ : Task) ∈ t.agenda ∧ (t.channel ch').head = none ∧ (t.channel ch').fifo = (s.channel ch').fifo.drop 1 ∧
        t.mem = s.mem ∧ (t.channel l.root).waiting = (s.channel l.root).waiting ++
          [natBytes 0x12 1 ++ natBytes 0 1 ++ natBytes 0xFFFF 2 ++ List.replicate 20 0 ++ natBytes l.va 8]) ∧
    (∀ l u, s.launch? e.launch = some l → l.st = .head → l.validated = true → l.eligible = false →
      (s.waitWords l (l.r.waitva.zip l.r.waittg) = (.ready, u) → u.launch? l.id = some l → s.does .waitWordCheck fun t =>
        t.launch? l.id = some { l with eligible := true } ∧ t.mem = u.mem ∧ (⟨.launchSelection, {}, 0⟩ : Task) ∈ t.agenda) ∧
      (s.waitWords l (l.r.waitva.zip l.r.waittg) = (.no, u) → s.does .waitWordCheck fun t =>
        t.launches = u.launches ∧ t.mem = u.mem ∧ (⟨.waitWordCheck, { launch := l.id }, 0⟩ : Task) ∈ t.agenda)) ∧
    (∀ l, l ∈ s.launches → l.st = .head → l.eligible = true → s.mgmt.replay = false → s.mgmt.noGrant = false →
      s.mgmt.hold = false → (∀ x ∈ s.launches, x.st ≠ .granted) → s.selected = none → s.aboveDue (s.effOf l) = true →
      (s.launches.map Launch.id).Nodup →
      (∀ x ∈ s.launches, x.id ≠ l.id → x.st = .head → x.eligible = true → s.effOf x < s.effOf l) →
      (s.fitFor l).isSome = true → s.does .launchSelection fun t => t.selected = some l.id ∧ t.mem = s.mem ∧
        t.launch? l.id = some { l with st := .selected, prio := s.effOf l } ∧
        (⟨.panGrant, { launch := l.id }, 0⟩ : Task) ∈ t.agenda ∧ (⟨.launchSelection, {}, 0⟩ : Task) ∈ t.agenda) ∧
    (∀ l corner, s.wf → s.launch? e.launch = some l → l.st = .selected → s.selected = some l.id → s.mgmt.noGrant = false →
      s.mgmt.hold = false → s.aboveDue l.prio = true → (∀ x ∈ s.candidates, s.effOf x ≤ l.prio) →
      s.mgmt.replay = false → s.brineFor l = 0 → l.r.gang = false → l.pblock.length = 256 →
      s.fitFor l = some corner → l.r.grpw < 256 → s.does .panGrant fun t => t.selected = none ∧
        (∃ x, t.launch? l.id = some x ∧ x.st = .granted ∧ x.corner = corner ∧ x.groups = l.groups ++ [s.nextId]) ∧
        (t.group s.nextId).corner = corner ∧ (t.group s.nextId).st = .setup ∧
        ∀ c ∈ rectCores corner (l.r.grpw + 1) (l.r.grph + 1), (t.core c).run = .setup ∧ (t.core c).launch = l.id ∧
          (t.core c).group = s.nextId ∧ (t.core c).kseg = l.r.kseg ∧ (t.core c).helpers = l.r.helpers ∧
          (∀ k, k < 256 → t.byteAt (ulmKey c (0x1000 + k)) = (l.pblock[k]?).getD 0) ∧
          ∀ k, 0x1100 ≤ k → k < 0x20000 → t.byteAt (ulmKey c k) = 0) ∧
    (∀ l, s.launch? e.launch = some l → l.st = .granted → s.does .c0Start fun t => t.mem = s.mem ∧
      (∃ x, t.launch? l.id = some x ∧ x.startTick = some (l.startTick.getD s.ticks) ∧
        x.st = if l.groups.length = l.groupCount then .started else .granted) ∧
      ∀ i ∈ l.groups, (s.group i).st = .setup → (t.group i).st = .resident ∧ (t.group i).kxslot = 0 ∧
        ∀ c ∈ (s.group i).cores, (t.core c).run = .running ∧
          let x := (t.core c).ctxs[(0 : Fin 11)]
          x.live = true ∧ x.mode = true ∧ x.pc = 0 ∧ x.f.kmask = 0xF ∧ x.k.launch = BitVec.ofNat 64 l.va ∧
          x.k.pan = BitVec.ofNat 64 (l.r.panh * 2 ^ 24 + l.r.panw * 2 ^ 16 + l.corner) ∧ ∀ r, x.g r = 0)

/-- R319 to R333, R371: launches put aside and ended. A group halts to be saved, or defers while it is in an exchange phase;
a halted core is written to its slot and is free, its registers as they were; a saved group that is due, and whose cores
are free, is resident again; a group whose contexts 0 have all ended retires; a launch that ends stops its cores, and
frees them once nothing of it is outstanding; after its report, its completion counter goes up and it is forgotten. When a saved
group is due and comes back is the model's choice (log 19), and so are what a save keeps beside slot and page (log 20) and what
a freed core still holds: its registers, K-registers, tags, segments, phase count and accumulators (log 73). -/
def Obligations.SavesAndEnds : Prop :=
  ∀ (s : State),
    let e := s.ev
    let stops (t : State) (g : Group) (r : RunState) : Prop :=
      (∀ c ∈ g.cores, (s.core c).run ≠ .stopped → (s.core c).xlongDue = false → (t.core c).run = r) ∧
      ((∀ c ∈ g.cores, (s.core c).xlongDue = false) → t.mem = s.mem)
    let freed (k : Core) : Core :=
      { Core.reset with
        ctxs := k.ctxs.map Context.remains, tags := k.tags, kseg := k.kseg, kxph := k.kxph, acc := k.acc, accMark := k.accMark }
    (∀ l i g u, s.launch? e.launch = some l → l.st = .started → l.brine = 0 → s.groupsAtBoundary [(i, g)] = true →
      (s.liveGroups l).filter (fun g => decide (g.2.st = .resident) && !g.2.deferred) = [(i, g)] → s.group i = g →
      s.reserve [(i, g)] = some u → s.does .preemptDelivery fun t => t.saves = u.saves ∧
        (g.exch = false → (t.group i).st = .preempted ∧ stops t g .halted) ∧
        (g.exch = true → (t.group i).deferred = true ∧ stops t g .halting)) ∧
    ((s.group e.group).deferred = true → s.groupsAtBoundary [(e.group, s.group e.group)] = true → s.does .deferredHalt fun t => (t.group e.group).st = .preempted ∧
      (t.group e.group).deferred = false ∧ stops t (s.group e.group) .halted) ∧
    (∀ l i g u n, s.launch? e.launch = some l → l.st = .started → l.brine = 0 → s.replays l = false →
      s.swapVictims l = [(i, g)] → s.groupsAtBoundary [(i, g)] = true → s.group i = g → s.selected.bind s.launch? = some n → l.prio ≤ s.effOf n →
      s.fitFor n = none → s.reserve [(i, g)] = some u → s.does .swapOut fun t =>
        (t.group i).st = .swapped ∧ stops t g .halted ∧ t.saves = u.saves) ∧
    (∀ first, s.wf →
      let c := e.core
      let k := s.core c
      let g := s.group k.group
      let a := s.poolBase + 2 ^ 18 * (first + (g.cores.idxOf? c).getD 0)
      s.saves.find? (fun x => decide (x.1 = k.group)) = some (k.group, first) → k.run = .halted →
      g.st = .swapped ∨ g.st = .preempted → (∀ i, k.settled i = true) → k.matOp = none → g.flits = [] → s.flushFull c = none →
      a + 2 ^ 18 ≤ 2 ^ 55 → s.does .coreSave fun t => t.core c = freed k ∧ t.isSaved k.launch c = true ∧
        (∀ n, n ≠ c → t.core n = s.core n) ∧ ((∀ p, k.queue p = []) → (c % 8 = 0 → (s.bed (c / 8)).sorter = []) →
        (∀ o, o < 0x20000 → t.byteAt (a + o) = s.byteAt (ulmKey c o)) ∧
        ∀ o, o < a ∨ a + 2 ^ 18 ≤ o → t.byteAt o = s.byteAt o)) ∧
    (∀ l, s.launch? e.launch = some l → l.st = .started → s.restorable l ≠ [] → s.selected = none →
      let gs := s.restorable l
      let cores := gs.flatMap fun g => g.2.cores
      (∀ c ∈ cores, (s.slotOf l.id c).isSome = true) →
      (cores.foldl (fun (r : State × Option EndInfo) c =>
        ((r.1.restoreCore l.id c).1, r.2.orElse fun _ => (r.1.restoreCore l.id c).2)) (s, none)).2 = none →
      s.does .groupRestore fun t => (∀ g ∈ gs, (t.group g.1).st = .resident ∧ ∀ x ∈ t.saves, x.1 ≠ g.1) ∧
        ∀ c ∈ cores, (t.core c).run = .running ∧ t.isSaved l.id c = false) ∧
    (let k := s.core e.core
     k.ctxs[(0 : Fin 11)].ending = true →
      (∀ c : Fin 11, c ≠ 0 → k.ctxs[c].live = false ∧ k.ctxs[c].susp = false) → (∀ i : Fin 16, k.tags[i].count = 0) →
      s.does .c0CompletionReport fun t =>
        t = { s with agenda := s.agenda ++ [⟨.groupRetirement, { group := k.group, launch := k.launch }, 0⟩] }) ∧
    (let g := s.group e.group
     ∀ l, s.launch? g.launch = some l → g.st = .resident → g.deferred = false → g.pending = [] → l.st ≠ .ending →
      (∀ c ∈ g.cores, (s.core c).run.up = true ∧ (s.core c).ctxs[(0 : Fin 11)].ending = true ∧
        (∀ x : Fin 11, x ≠ 0 → (s.core c).ctxs[x].live = false ∧ (s.core c).ctxs[x].susp = false) ∧
        ∀ i : Fin 16, (s.core c).tags[i].count = 0) →
      s.does .groupRetirement fun t => (t.group e.group).st = .retired ∧ (∀ c ∈ g.cores, t.core c = freed (s.core c)) ∧
        (∀ c, c ∉ g.cores → t.core c = s.core c) ∧ t.mem = s.mem) ∧
    (∀ l, s.launch? e.launch = some l →
      (l.st = .started → (∀ g ∈ s.liveGroups l, g.2.pending = []) → s.does .launchEnd fun t => t.mem = s.mem ∧
        (∃ x, t.launch? l.id = some x ∧ x.st = .ending ∧ x.first = some e.info) ∧
        (⟨.launchEnd, { launch := l.id }, 0⟩ : Task) ∈ t.agenda ∧
        ∀ g ∈ s.liveGroups l, ∀ c ∈ g.2.cores, (s.core c).launch = l.id → (s.core c).run ≠ .free →
          (t.core c).run = .halted) ∧
      (l.st = .ending → (s.cores.map Prod.fst).Nodup → (∀ c, (s.core c).launch = l.id → (s.core c).run ≠ .free → (s.dropParked l.id).quiet l.id c = true) →
        s.does .launchEnd fun t => (∀ c, (s.core c).launch = l.id → (s.core c).run ≠ .free →
          t.core c = freed ((s.dropParked l.id).core c)) ∧ (∀ i ∈ l.groups, (t.group i).st = .retired) ∧
          ((∀ w ∈ s.pageWaits, w.launch ≠ l.id) → t.mem = s.mem ∧
            ∀ c, (s.core c).launch = l.id → (s.core c).run ≠ .free → t.core c = freed (s.core c))) ∧
      (l.st = .retired → l.notice = none → l.told = none → (∀ x ∈ s.agenda, x.op ≠ .heatPeriodEnd) →
        (s.channel l.root).waiting.contains (reportBytes (l.first.getD endNormal) l.va) = false →
        (l.r.compl = 0 → s.does .launchEnd fun t => t.launch? l.id = none ∧ t.mem = s.mem) ∧
        (∀ pa, s.wf → l.r.compl ≠ 0 → s.poisonedRange pa 8 = false →
          (s.need l.id ⟨.launchEnd, { launch := l.id }, 0⟩ l.id l.pasid l.r.compl true).1 = .at_ pa →
          s.does .launchEnd fun t => t.launch? l.id = none ∧
            BitVec.ofNat 64 (t.loadNat pa 8) = BitVec.ofNat 64 (s.loadNat pa 8) + 1 ∧
            ∀ a, a < pa ∨ pa + 8 ≤ a → t.byteAt a = s.byteAt a)))

/-- R157, R213, R226, R335 to R344, R410, R412: translation. A heat field goes up by one, and is halved by the sweeper of its
stack; a page request group is sent when it fits, and its answer lets the requests that wait for it go on, or refuses
them; a descriptor drops what it covers from every TLB, and its completion word is written; the host's own
translations are filled and dropped; a context parked on a page goes on once no copy parks its range and nothing suspends it. That
the completion word is written under the PASID of its descriptor, and that IQHEAD moves with it, is the model's choice (log 48, of
R343), and so are the marks that a resumed context carries to its next bundle (log 13). -/
def Obligations.PagesAndTranslation : Prop :=
  ∀ (s : State),
    let e := s.ev
    let field (x : Word) (i : Nat) : Nat := x.toNat / 2 ^ i % 4
    let rest (x y : Word) : Prop := (x ^^^ y) &&& 0xF0FFFFFFFFFFFFFF = 0
    (s.wf → BitVec.ofNat 64 (s.loadNat e.addr 8) = e.value → s.does .heatRaise fun t =>
      let y := BitVec.ofNat 64 (t.loadNat e.addr 8)
      let hot := if e.flag then 58 else 56
      let other := if e.flag then 56 else 58
      rest y e.value ∧ field y hot = min 3 (field e.value hot + 1) ∧ field y other = field e.value other ∧
      (∀ a, a < e.addr ∨ e.addr + 8 ≤ a → t.byteAt a = s.byteAt a) ∧ t.cores = s.cores) ∧
    (BitVec.ofNat 64 (s.loadNat e.addr 8) ≠ e.value → s.does .heatRaise fun t => t.mem = s.mem ∧ t.cores = s.cores) ∧
    (∀ a b p, s.wf → s.pasidEntry e.pasid = some (a, b) → bitOf a 0 = true → b.setWidth 32 ≠ (0 : BitVec 32) →
      (s.leavesUnder walkLevels (a.toNat / 2 ^ 11 % 2 ^ 41 * 2 ^ 11)).filter (fun p => decide (p / 4096 % 16 = e.die)) = [p] →
      s.does .sweeperHalving fun t =>
        let x := BitVec.ofNat 64 (s.loadNat p 8)
        let y := BitVec.ofNat 64 (t.loadNat p 8)
        rest y x ∧ field y 56 = field x 56 / 2 ∧ field y 58 = field x 58 / 2 ∧
        (∀ k, k < p ∨ p + 8 ≤ k → t.byteAt k = s.byteAt k) ∧ t.cores = s.cores) ∧
    (∀ g, s.pageGroups.find? (fun x => !x.sent && decide ((x.pages.head?.map fun p => colour p.1) = some e.die)) = some g →
      s.hostRegs.priStopped = false →
      ((s.pageGroups.filter PageGroup.sent).map fun x => x.pages.length).sum + g.pages.length ≤ min 2048 s.hostRegs.alloc →
      s.does .pageRequestGroup fun t => (∃ x ∈ t.pageGroups, x = { g with sent := true }) ∧ t.mem = s.mem ∧
        t.cores = s.cores) ∧
    (∀ g w, s.pageGroups.find? (fun x => x.sent && decide (x.pasid = e.pasid) && decide (x.prg = e.id)) = some g →
      s.pageWaits = [w] → w.pasid = g.pasid → (∃ p ∈ g.pages, p.1 = w.granule) → s.does .pageRequestResponse fun t =>
        t.pageWaits = [] ∧ w.task ∈ t.agenda ∧ (∀ x ∈ t.pageGroups, x.id ≠ g.id) ∧ t.mem = s.mem ∧ t.cores = s.cores ∧
        (e.n = 0 → t.denied = s.denied ∧ t.hostRegs = s.hostRegs) ∧
        (e.n = 1 → t.denied = (w.req, w.granule) :: s.denied ∧ t.hostRegs = s.hostRegs) ∧
        (1 < e.n → t.denied = (w.req, w.granule) :: s.denied ∧ t.hostRegs.priStopped = true ∧ t.pageGroups = [])) ∧
    (s.power = .booting → exec .priReset s = .next { s with retries := s.retries + 1 }) ∧
    (s.power ≠ .booting → s.does .priReset fun t => t.hostRegs = { s.hostRegs with priStopped := false, alloc := e.n } ∧ t.mem = s.mem ∧
      t.cores = s.cores ∧ ∀ d, d < 16 → (⟨.pageRequestGroup, { die := d }, 0⟩ : Task) ∈ t.agenda) ∧
    (s.power = .service → (e.value.setWidth 32 - s.hostRegs.iqhead).toNat ≤ 2 ^ (s.hostRegs.iqbase.toNat % 32) →
      s.does .iqtail fun t => t.hostRegs = { s.hostRegs with iqtail := e.value.setWidth 32 } ∧ t.mem = s.mem ∧
        (⟨.invalidationStart, {}, 0⟩ : Task) ∈ t.agenda) ∧
    (∀ base n, s.iqRing = some (base, n) → s.invals = [] → s.hostRegs.iqhead ≠ s.hostRegs.iqtail →
      let a := base + 32 * (s.hostRegs.iqhead.toNat % n)
      let va := s.loadNat a 8
      let p := s.loadNat (a + 8) 4
      let log := s.loadNat (a + 12) 1
      let bad : Prop := va % 4096 ≠ 0 ∨ 2 ^ 56 ≤ va ∨ 2 ^ 20 ≤ p ∨ log < 12 ∨ 56 < log ∨ s.loadNat (a + 13) 3 ≠ 0
      s.does .invalidationStart fun t => t.mem = s.mem ∧ t.cores = s.cores ∧
        (∀ x ∈ s.tlb, x ∈ t.tlb ↔ ¬ (¬ bad ∧ x.2.host = false ∧ x.2.pasid = p ∧
          (log = 56 ∨ (x.2.va < va + 2 ^ log ∧ va < x.2.va + x.2.size)))) ∧ (∀ x ∈ t.tlb, x ∈ s.tlb) ∧
        t.agenda = s.agenda ++ [⟨.invalidationComplete, {}, 0⟩]) ∧
    (∀ i pa u, s.invals = [i] → s.wf →
      s.need i.id ⟨.invalidationComplete, {}, 0⟩ 0 i.pasid (i.word / 8 * 8) true = (.at_ pa, u) → u.mem = s.mem →
      s.does .invalidationComplete fun t => t.invals = [] ∧ t.hostRegs.iqhead = u.hostRegs.iqhead + 1 ∧
        t.loadNat pa 8 = (if i.bad then i.value ^^^ 1 else i.value).toNat ∧
        ∀ a, a < pa ∨ pa + 8 ≤ a → t.byteAt a = s.byteAt a) ∧
    (s.does .atsInvalidateRequest fun t => t.mem = s.mem ∧ t.cores = s.cores ∧
      (∀ x ∈ s.tlb, x ∈ t.tlb ↔ ¬ (x.2.host = true ∧ x.2.pasid = e.pasid ∧ x.2.va < e.addr + e.n ∧
        e.addr < x.2.va + x.2.size)) ∧ t.agenda = s.agenda ++ [⟨.atsInvalidateCompletion, { id := e.id }, 0⟩]) ∧
    (s.does .atsInvalidateCompletion fun t => t = { s with msix := (256 + e.id) :: s.msix }) ∧
    ((e.die, e.pasid, granuleOf e.addr) ∈ s.atsAsked → s.does .atsTranslationResponse fun t => t.mem = s.mem ∧
      t.cores = s.cores ∧ ∀ hpa w, e.answer = .granted hpa w → ∃ x, t.tlb = (e.die, x) :: s.tlb ∧ x.pasid = e.pasid ∧
        x.va = granuleOf e.addr ∧ x.size = 4096 ∧ x.pa = granuleOf hpa % 2 ^ 51 ∧ x.r = true ∧ x.w = w ∧ x.host = true) ∧
    (let c : Fin 11 := Fin.ofNat 11 e.ctx
     let x := s.ctx e.core c
     let cause := x.k.cause
     let m : Mask := if cause.getLsbD 14 then BitVec.ofNat 4 (cause.toNat / 2 ^ 8) else 0xF
     let a : Off := x.k.epc.setWidth 17 &&& 0x1FFFC
     let back : Context := { x with parked := false, waitVA := [], k.cause := 0, fbuf := [] }
     let redo : Redo := { lanes := m, cause := cause, pc := x.pc, mode := x.mode, parked := true }
     let waits : Prop := ∃ i : Fin 16, ∃ p ∈ (s.core e.core).tags[i].parked ++ (s.core e.core).tags[i].landing, p.2 ∈ x.waitVA
     (waits ∨ x.susp = true ∨ (s.core e.core).run = .halted → exec .parkedResume s = .next s) ∧
     (x.parked = true → ¬ waits → x.susp = false → (s.core e.core).run = .running → cause.toNat % 256 ≠ 0 →
      cause.toNat % 256 ≠ 0x11 → cause.toNat % 256 ≠ 0x14 → m ≠ 0 →
      s.does .parkedResume fun t => t.mem = s.mem ∧ (∀ d : Fin 11, d ≠ c → t.ctx e.core d = s.ctx e.core d) ∧
        (∀ n, n ≠ e.core → t.core n = s.core n) ∧
        (cause.getLsbD 15 = true → t.ctx e.core c = { back with pc := a, aword := true }) ∧
        (cause.getLsbD 15 = false → cause.getLsbD 14 = false → t.ctx e.core c = { back with pc := a }) ∧
        (cause.getLsbD 15 = false → cause.getLsbD 14 = true →
          t.ctx e.core c = { back with pc := a, reLanes := some redo })))

/-- R9, R308, R406, R408 to R410, R446 to R452: what the host and the board do. Registers are written with the bits that
they have, and read as they stand, with 0 where nothing is listed and for bits only written; BAR2 writes device memory; the debugger
stops a core, has it dumped and loaded, and lets it go on; an update of board flash waits for the next power-up; the responder
answers in order. That a dump and a load leave the queues alone, with no reset, is the model's choice (log 54), and so is the form
in which SPDM answers stand (log 7). -/
def Obligations.HostSide : Prop :=
  ∀ (s : State),
    let e := s.ev
    let v := e.value
    let quiet (t : State) : Prop := t.mem = s.mem ∧ t.cores = s.cores
    (s.power = .service → e.space = .bar0 →
      (e.addr = 0x1000 → s.does .registerWrite fun t => quiet t ∧
        t.hostRegs = { s.hostRegs with ptab := (v &&& 0x000FFFFFFFFFF000 : Word) ||| BitVec.ofNat 64 (min 20 (v.toNat % 32)) }) ∧
      (s.saves = [] →
        (e.addr = 0x1008 → s.does .registerWrite fun t => t = { s with
          hostRegs := { s.hostRegs with spbase := v &&& 0x000FFFFFFFFC0000 } }) ∧
        (e.addr = 0x1010 → s.does .registerWrite fun t => t = { s with
          hostRegs := { s.hostRegs with spcnt := v.setWidth 32 } })) ∧
      ((s.rays.any s.atAgent) = false → e.addr = 0x1030 → s.does .registerWrite fun t => t = { s with
        hostRegs := { s.hostRegs with pagbase := v &&& 0x000FFFFFFFF0001F } }) ∧
      (∀ ch, ch < 64 →
        (e.addr = 0x100000 + 4096 * ch + 0x08 → s.does .registerWrite fun t => quiet t ∧
          t.channel ch = { s.channel ch with cfg := v &&& 0x037FFFFF }) ∧
        (e.addr = 0x100000 + 4096 * ch + 0x18 → s.does .registerWrite fun t => quiet t ∧ t.agenda = s.agenda ∧
          t.channel ch = { s.channel ch with rrbase := v &&& 0x00FFFFFFFFFFF01F }) ∧
        (e.addr = 0x100000 + 4096 * ch + 0x28 → s.does .registerWrite fun t => quiet t ∧ t.agenda = s.agenda ∧
          t.channel ch = { s.channel ch with rrhead := v.setWidth 32 }))) ∧
    (s.power ≠ .off → e.space = .management →
      (e.addr = 0x010 → s.does .registerWrite fun t => t = { s with mgmt := { s.mgmt with
        errbase := v &&& 0x000FFFFFFFFFF01F } }) ∧
      (e.addr = 0x048 → s.does .registerWrite fun t => t = { s with mgmt := { s.mgmt with
        attach := v.getLsbD 16, dbgcore := v.setWidth 16 } }) ∧
      (e.addr = 0x060 → s.does .registerWrite fun t => t = { s with mgmt := { s.mgmt with
        ttrip := v.extractLsb' 16 8, twarn := v.extractLsb' 8 8 } })) ∧
    (s.power ≠ .off → e.space = .flash → s.does .registerWrite fun t => t = { s with flashNext := some e.flash }) ∧
    (s.power ≠ .service → ∀ a, s.readBar0 a = 0) ∧
    (s.power = .service →
      s.readBar0 0x1000 = s.hostRegs.ptab ∧ s.readBar0 0x1008 = s.hostRegs.spbase ∧ s.readBar0 0x1030 = s.hostRegs.pagbase ∧
      s.readBar0 0x1020 = s.hostRegs.iqtail.setWidth 64 ∧ s.readBar0 0x1028 = s.hostRegs.iqhead.setWidth 64 ∧
      (∀ a, a < 0x1000 ∨ 0x1040 ≤ a ∧ a < 0x100000 ∨ 0x140000 ≤ a → s.readBar0 a = 0) ∧
      ∀ ch, ch < 64 →
        let c := s.channel ch
        let at_ (o : Nat) : Word := s.readBar0 (0x100000 + 4096 * ch + o)
        at_ 0x00 = 0 ∧ at_ 0x08 = c.cfg ∧ at_ 0x18 = c.rrbase ∧ at_ 0x20 = c.rrtail.setWidth 64 ∧ at_ 0x28 = c.rrhead.setWidth 64 ∧
        (at_ 0x10).extractLsb' 32 16 = c.rlost ∧ ((at_ 0x10).getLsbD 16 = c.ovf) ∧
        ((at_ 0x10).extractLsb' 0 16).toNat = min 256 c.fifo.length) ∧
    (let at_ := s.readMgmt
     let m := s.mgmt
     (at_ 0).getLsbD 0 = m.ready ∧ (at_ 0).getLsbD 1 = m.bootFail ∧ (at_ 0).getLsbD 8 = m.repairFail ∧ (at_ 0).getLsbD 20 = m.fatal ∧
     (at_ 0x18).setWidth 32 = m.errtail ∧ (at_ 0x18).extractLsb' 48 16 = m.lost ∧ at_ 0x20 = m.errhead.setWidth 64 ∧
     (at_ 0x50).getLsbD 3 = m.dbghalted ∧ ((at_ 0x50).setWidth 3 : BitVec 3) = 0 ∧ (at_ 0x50).getLsbD 4 = false ∧
     at_ 0x58 = m.dbgword ∧ (at_ 0x60).setWidth 8 = m.tmax ∧
     (∀ a, 0x180 ≤ a → at_ a = 0) ∧
     ∀ j, j < 16 →
       let q := s.lenbo.port j
       (at_ (0x100 + 8 * j)).extractLsb' 16 16 = q.retrain ∧ (at_ (0x100 + 8 * j)).getLsbD 8 = q.up ∧
       (q.width < 16 → ((at_ (0x100 + 8 * j)).setWidth 4 : BitVec 4).toNat = q.width)) ∧
    (s.does .pmap fun t => t = if s.power = .service then { s with hostRegs := { s.hostRegs with pmap := v } } else s) ∧
    (s.wf → s.power = .service → e.flag = true → e.addr + e.bytes.length ≤ 2 ^ 40 → s.does .hostBar2Access fun t =>
      s.gotMem t e.addr e.bytes.length (fun i => (e.bytes[i]?).getD 0) ∧ t.cores = s.cores ∧
      (e.m = 1 → ∀ k, k < e.bytes.length → t.poisoned (e.addr + k) = true) ∧
      (e.m ≠ 1 → ∀ k, t.poisoned k = (s.poisoned k && !decide (e.addr ≤ k / 32 * 32 ∧ k / 32 * 32 + 32 ≤ e.addr + e.bytes.length)))) ∧
    (e.flag = false → exec .hostBar2Access s = .next s) ∧
    (let c := s.mgmt.dbgcore.toNat
     s.mgmt.attach = true →
      ((s.core c).run.up = true → (s.core c).run = .stopped ∨ (∀ x : Fin 11, (s.core c).midIssue x = false) →
        s.does .dbgctlStop fun t => t.core c = { s.core c with dbgHalt := true } ∧
          t.mgmt.dbghalted = true ∧ (∀ n, n ≠ c → t.core n = s.core n) ∧ t.mem = s.mem) ∧
      ((s.core c).dbgHalt = true →
        let a := s.poolBase + 2 ^ 18 * (s.hostRegs.spcnt.toNat + s.mgmt.dbgslot.toNat)
        (s.does .dbgctlResume fun t => t.core c = { s.core c with dbgHalt := false } ∧ t.mgmt.dbghalted = false ∧
          (∀ n, n ≠ c → t.core n = s.core n) ∧ t.mem = s.mem) ∧
        (s.wf → a + 2 ^ 18 ≤ 2 ^ 55 → s.does .dbgctlDump fun t => t.cores = s.cores ∧
          (∀ o, o < 0x20000 → t.byteAt (a + o) = s.byteAt (ulmKey c o)) ∧
          ∀ o, o < a ∨ a + 2 ^ 18 ≤ o → t.byteAt o = s.byteAt o) ∧
        (s.wf → a + 2 ^ 18 ≤ 2 ^ 55 → (∀ i, i < 11 → imageBad (memBytes s.mem (a + 0x20000 + 0x1000 * i) 0x1000) = false ∧
            imageMat (memBytes s.mem (a + 0x20000 + 0x1000 * i) 0x1000) = false) → s.does .dbgctlLoad fun t =>
          (∀ o, o < 0x20000 → t.byteAt (ulmKey c o) = s.byteAt (a + o)) ∧ (∀ n, n ≠ c → t.core n = s.core n) ∧
          (t.core c).dbgHalt = true ∧ ∀ i : Fin 4, (t.core c).kseg[i] = BitVec.ofNat 64
            (s.loadNat (a + 0x2B000 + 8 * i.val) 8) &&& 0x00000FFFFFFDFFFF)))  ∧
    (s.power ≠ .off →
      let ok (i : Instr) (bs : List Byte) (p : Spdm) : Prop := s.does i fun t => t = { s with spdm := { p with answer := bs } }
      let p := s.spdm
      let refused (i : Instr) : Prop := ok i [0x12, 0x7F] p
      ok .getVersion [0x12, 0x04, 0x00, 0x12] { version := true } ∧
      (if p.version then ok .getCapabilities ([0x12, 0x61] ++ natBytes 0x16 4) { p with caps := true }
        else refused .getCapabilities) ∧
      (if p.caps then ok .negotiateAlgorithms ([0x12, 0x63] ++ (natBytes 4 4 ++ natBytes 1 4 ++ natBytes 2 4))
        { p with algs := true } else refused .negotiateAlgorithms) ∧
      (p.algs = true → ok .getDigests ([0x12, 0x01] ++ natBytes (Config.sha256 s.flash.record.cert).toNat 32) p ∧
        ok .getCertificate ([0x12, 0x02] ++ (s.flash.record.cert.drop e.addr).take e.n) p ∧
        (∀ key, s.attestKey = some key →
          ok .challenge ([0x12, 0x03] ++ (natBytes (Config.sha256 s.flash.record.cert).toNat 32 ++
            Config.sign key (Config.sha256 s.flash.record.cert) v.toNat)) p) ∧
        (s.attestKey = none → refused .challenge) ∧
        ok .getMeasurements ([0x12, 0x60] ++
          (List.range 4).flatMap fun i => natBytes (i + 1) 1 ++ natBytes (s.measure (i + 1)).toNat 32) p) ∧
      (p.algs = false → ∀ i ∈ [Instr.getDigests, .getCertificate, .challenge, .getMeasurements], refused i))

/-- R402 to R407, R434, R435: Lenbo. Flits are taken in sequence and with their CRC right, and discarded otherwise; they hold
buffers until their packet is taken; a NAK and a time-out send again what has not arrived; packets wait for credits; lanes
and links; a packet of another epoch is refused, and a duplicate gets the answer of the first; an answer, a refusal or a
give-up ends its request; after a package stop nothing goes on the wire (R431). Which flits leave the replay buffer at a credit
return is the model's choice (log 17), and so are the counts of held and returned credits (log 52). -/
def Obligations.LenboLinks : Prop :=
  ∀ (s : State),
    let e := s.ev
    let q := s.lenbo.port e.port
    let now (t : State) : LenboPort := t.lenbo.port e.port
    let f := e.flit
    let p := e.packet
    let same (t : State) : Prop := t.mem = s.mem ∧ t.cores = s.cores
    let sat : BitVec 16 := if q.retrain = BitVec.allOnes 16 then q.retrain else q.retrain + 1
    let ended (t : State) (r : LenboReq) : Prop := ∀ x ∈ t.lenbo.reqs, ¬ (x.target = r.target ∧ x.seq = r.seq)
    let alone (r : LenboReq) : Prop := r.win = none ∧ r.copy = none
    let asked : LenboPort := { q with discarding := true, nak := some q.expect }
    let intact := f.crc = Config.linkCrc f.data f.side
    (q.up = true →
      (¬ intact ∨ f.seq ≠ q.expect → s.does .lenboFlitReceive fun t => now t = { asked with
        errors := if q.discarding then q.errors else q.errors + 1 } ∧ same t) ∧
      (intact → f.seq = q.expect → f.vc = 0 → s.does .lenboFlitReceive fun t => now t = { q with
        expect := q.expect + 1, discarding := false, nak := none, errors := q.errors + 1 } ∧ same t) ∧
      (intact → f.seq = q.expect → f.vc ≠ 0 → s.does .lenboFlitReceive fun t =>
        (now t).expect = q.expect + 1 ∧ (now t).discarding = false ∧ (now t).nak = none ∧ same t ∧
        (f.shared = true → (now t).heldPool = q.heldPool + 1 ∧ (now t).held = q.held) ∧
        (f.shared = false → (now t).heldPool = q.heldPool ∧
          (now t).held[Fin.ofNat 6 f.vc.toNat] = q.held[Fin.ofNat 6 f.vc.toNat] + 1) ∧
        (assoc [] f.vc.toNat q.rx = [] → flitsOf f.data = 0 →
          let whole : EvArg :=
            { port := e.port, packet := packetOf f.data [], flag := true, m := f.vc.toNat, n := bitNat f.shared }
          ⟨.lenboPacketReceive, whole, 2 ^ 52 + 8 * e.port + f.vc.toNat + 1⟩ ∈ t.agenda))) ∧
    (∀ a b, q.replay = a ++ b → (∀ x ∈ a, x.seq ≠ BitVec.ofNat 12 e.n) → (∃ x, b.head? = some x ∧ x.seq = BitVec.ofNat 12 e.n) →
      s.mgmt.fatal = false → s.does .lenboNak fun t => now t = { q with replay := b, wire := q.wire ++ b } ∧ same t) ∧
    (s.mgmt.fatal = true → exec .lenboNak s = .next s ∧ s.does .lenboCreditReturn fun t => same t ∧ (now t).queue = q.queue ∧
      (now t).wire = q.wire ∧ (now t).replay.Sublist q.replay) ∧
    (e.n ∈ [1, 2, 4, 8] → s.does .lenboLaneLoss fun t =>
      now t = { asked with up := true, width := e.n, retrain := sat } ∧ t.cores = s.cores) ∧
    (e.n ∉ [1, 2, 4, 8] → s.does .lenboLaneLoss fun t => now t = { asked with up := false, width := 0 } ∧
      t.msix = 64 :: s.msix ∧ t.cores = s.cores) ∧
    (s.does .lenboLinkDown fun t => now t = { asked with up := false, width := 0 } ∧ t.msix = 64 :: s.msix ∧
      t.cores = s.cores) ∧
    (q.up = true → e.n ∈ [1, 2, 4, 8] → q.rx = [] → s.does .widthreq fun t =>
      now t = { q with req := e.n, width := e.n } ∧ same t ∧ t.agenda = s.agenda) ∧
    (q.queue = [] → s.does .lenboCreditReturn fun t => same t ∧
      (now t).replay.length + min e.n (q.replay.countP fun x => decide (x.shared = e.flag ∧ x.vc.toNat = e.m)) = q.replay.length ∧
      (now t).replay.Sublist q.replay ∧ (now t).wire = q.wire ∧ (now t).txSeq = q.txSeq ∧
      (e.flag = true → (now t).pool = min 1024 (q.pool + e.n) ∧ (now t).vcCredits = q.vcCredits) ∧
      (e.flag = false → (now t).pool = q.pool ∧
        (now t).vcCredits = q.vcCredits.set (Fin.ofNat 6 e.m) (min 9 (q.vcCredits[Fin.ofNat 6 e.m] + e.n)))) ∧
    (∀ w c,
      let fs := packetFlits w
      let own := q.vcCredits[Fin.ofNat 6 c]
      let o := q.offer (w, c)
      ((∃ y ∈ q.queue, y.2 = c) ∨ 512 < q.replay.length + fs.length ∨ (q.pool < fs.length ∧ own < fs.length) →
        o = { q with queue := q.queue ++ [(w, c)] }) ∧
      ((∀ y ∈ q.queue, y.2 ≠ c) → q.replay.length + fs.length ≤ 512 →
        (fs.length ≤ q.pool → o.pool = q.pool - fs.length ∧ o.vcCredits = q.vcCredits) ∧
        (q.pool < fs.length → fs.length ≤ own → o.pool = q.pool ∧
          o.vcCredits = q.vcCredits.set (Fin.ofNat 6 c) (own - fs.length)) ∧
        (fs.length ≤ q.pool ∨ fs.length ≤ own → o.queue = q.queue ∧ o.txSeq = q.txSeq + BitVec.ofNat 12 fs.length ∧
          ∃ out, o.wire = q.wire ++ out ∧ o.replay = q.replay ++ out ∧ out.length = fs.length ∧
            ∀ i d, fs[i]? = some d → ∃ x, out[i]? = some x ∧ x.data = d ∧ x.seq = q.txSeq + BitVec.ofNat 12 i ∧
              x.vc = BitVec.ofNat 3 c ∧ x.shared = decide (fs.length ≤ q.pool) ∧ x.crc = Config.linkCrc x.data x.side))) ∧
    (e.flag = true → p.e2eOk = false → s.does .lenboPacketReceive fun t => same t ∧
      (now t).returned = q.returned ++ [(decide (e.n = 1), e.m, p.data.length + 1)] ∧ (now t).expect = q.expect ∧
      (e.n = 1 → (now t).heldPool = q.heldPool - (p.data.length + 1) ∧ (now t).held = q.held)) ∧
    (s.mgmt.fatal = false → e.flag = false →
      (p.e2eOk = false ∨ p.dst ≠ s.mgmt.pkgnum.toNat → exec .lenboPacketReceive s = .next s) ∧
      (p.e2eOk = true → p.dst = s.mgmt.pkgnum.toNat →
        (1 ≤ p.kind.toNat → p.kind.toNat ≤ 5 → p.epoch ≠ s.lenbo.epoch.toNat → s.does .lenboPacketReceive fun t => same t ∧
          ∃ a, t.lenbo.sent = a :: s.lenbo.sent ∧ a.kind = 8 ∧ a.dst = p.src ∧ a.seq = p.seq ∧
            a.epoch = s.lenbo.epoch.toNat ∧ a.data = []) ∧
        (∀ d a, 1 ≤ p.kind.toNat → p.kind.toNat ≤ 5 → p.epoch = s.lenbo.epoch.toNat →
          s.lenbo.done.find? (fun d => decide (d.src = p.src) && decide (d.seq = p.seq)) = some d → d.answer = some a →
          s.does .lenboPacketReceive fun t => same t ∧ t.lenbo.sent = a :: s.lenbo.sent ∧ t.lenbo.done = s.lenbo.done) ∧
        (∀ r, p.kind = 6 ∨ p.kind = 7 → s.reqTo p.src p.seq = some r → alone r → s.does .lenboPacketReceive fun t =>
          ended t r ∧ same t) ∧
        (p.kind = 8 → s.does .lenboPacketReceive fun t => t = { s with agenda := s.agenda ++ [⟨.epochRefusal, e, 0⟩] }))) ∧
    (∀ r, s.reqTo p.src p.seq = some r → alone r → s.does .epochRefusal fun t => ended t r ∧ same t ∧
      t.lenbo.epochOf p.src = p.epoch % 2 ^ 16) ∧
    (s.mgmt.fatal = false → ∀ r, s.reqTo e.id e.n = some r → s.does .lenboRetransmitTimeout fun t => same t ∧
      t.lenbo.sent = r.packet :: s.lenbo.sent ∧ t.agenda = s.agenda ++ [⟨.lenboRetransmitTimeout, e, 0⟩] ∧
      ∃ x, t.reqTo e.id e.n = some x ∧ x.packet = r.packet) ∧
    (∀ r, s.reqTo e.id e.n = some r → alone r → s.does .lenboRequestGiveUp fun t => ended t r ∧ same t) ∧
    (s.reqTo e.id e.n = none → exec .lenboRetransmitTimeout s = .next s ∧ exec .lenboRequestGiveUp s = .next s)

/-- R425 to R433, R440, R442 to R445, R449, R450, R454: checks, heat and power. A corrected datum is counted, an
uncorrectable one is marked or poisoned, an error in control structures stops the package; temperature holds grants
and launches; a package loses everything with its power, but what is the host's and the board's, and serves again after a power-up
whose steps all pass: the device key is derived, image and record of board flash verify from the root digest down and the image
is not too old, the attestation key unwraps (R446, R447), and no die has three failing columns. That a stop also sets the bits by
which nothing is granted is the model's choice (log 53), and so are the watch over BRHEAD (log 71), EPOCH 0 at power-up (log 8),
host memory that stays (log 54), what begins a scrub period (log 72), and the form of the records in flash (log 7). -/
def Obligations.IntegrityAndPower : Prop :=
  ∀ (s : State),
    let e := s.ev
    let p := e.place
    let hot := BitVec.ofNat 8 (min 255 e.n)
    let m := s.mgmt
    let lostAll (t : State) : Prop := (s.wf → ∀ a, t.byteAt a = if hostKey a then s.byteAt a else 0) ∧
      (∀ a, t.poisoned a = (hostKey a && s.poisoned a)) ∧ t.cores = [] ∧ t.launches = [] ∧ t.groups = [] ∧
      t.ticks = s.ticks ∧ t.deviceKey = none ∧ t.attestKey = none
    let next (t : State) (old : List Task) : Prop := t.agenda = old ++ [⟨.powerUp, {}, 0⟩]
    let boots (i : Instr) (epoch : BitVec 16) : Prop := s.does i fun t => lostAll t ∧ t.lenbo.epoch = epoch ∧
      t.power = .booting ∧ t.mgmt.stage = 1 ∧ t.mgmt.ready = false ∧ t.flash = s.flashNext.getD s.flash ∧
      t.flashNext = none ∧ t.poweredAt = s.ticks ∧ next t []
    let f := s.flash
    let good (c : Config.Signed) (body : List Byte) : Prop := Config.sha256 c.root = Config.rootDigest ∧
      (∀ i x, c.keys[i]? = some x →
        Config.rsaPss (if i = 0 then c.root else ((c.keys[i - 1]?).map Prod.fst).getD []) x.1 x.2 = true) ∧
      Config.rsaPss ((c.keys.getLast?.map Prod.fst).getD c.root) body c.sig = true
    let accepted : Prop := good f.image.signed (imageBody f.image) ∧ good f.record.signed (recordBody f.record) ∧
      f.record.minVersion ≤ f.image.version
    let counting : Prop := ∃ x ∈ s.agenda, x.op = .repeatedCorrection ∧ x.arg.place = p
    let sound : Prop := ((List.range 8).all fun d => decide ((failingColumns s.fresh d).length ≤ 2)) = true
    (e.outcome = .clean → s.does .scrub fun t => t.mem = s.mem ∧ t.cores = s.cores ∧
      (¬ counting → t.corrected p = 0) ∧ (counting → t.corrected p = s.corrected p)) ∧
    (∀ c o, e.outcome = .corrected → p = .ulm c o → s.does .scrub fun t =>
      let k := (s.core c).kerr
      t.corrected p = (if e.flag = true ∧ ¬ counting then 1 else s.corrected p + 1) ∧ (t.core c).kerr.getLsbD 0 = true ∧
      (t.core c).kerr.extractLsb' 32 16 =
        (if k.extractLsb' 32 16 = 0xFFFF then 0xFFFF else k.extractLsb' 32 16 + 1) ∧
      (t.core c).kerr.extractLsb' 1 31 = k.extractLsb' 1 31 ∧ (∀ n, n ≠ c → t.core n = s.core n) ∧ t.mem = s.mem ∧
      (e.flag = false → s.corrected p = 15 → ⟨.repeatedCorrection, { place := p }, 0⟩ ∈ t.agenda)) ∧
    (e.outcome = .uncorrectable →
      (∀ c x r, p = .g c x r → r ≠ 0 → s.does .scrub fun t => (t.ctx c x).gBad r = true ∧ (t.ctx c x).g r = (s.ctx c x).g r ∧
        (t.core c).kerr.getLsbD 2 = true ∧ (∀ q, q ≠ r → (t.ctx c x).gBad q = (s.ctx c x).gBad q)) ∧
      (∀ c o, p = .ulm c o → o < 0x20000 → s.does .scrub fun t => t.poisoned (ulmKey c o) = true ∧
        (t.core c).kerr.getLsbD 1 = true) ∧
      (∀ c o, p = .ulm c o → (s.core c).kerr.getLsbD 1 = true → s.does .scrub fun t => t.mgmt.errtail = m.errtail ∧
        t.msix = s.msix ∧ assoc 0 256 t.mgmt.errCounts = assoc 0 256 m.errCounts + 1) ∧
      (∀ c x r l, p = .residue c x (.v r l) → s.does .scrub fun t => (t.ctx c x).vBad r = (s.ctx c x).vBad r ||| l ∧
        (t.core c).kerr.getLsbD 4 = true) ∧
      (∀ c x o, p = .residue c x .acc → (s.core c).matOp = some o → s.does .scrub fun t =>
        (t.core c).matOp = some { o with residue := true } ∧ (t.core c).kerr.getLsbD 4 = true) ∧
      (∀ c n r, p = .rep c n → (s.core c).rep = some r → n < r.words.length → s.does .scrub fun t =>
        (t.core c).rep = some { r with bad := withBit r.bad n true } ∧ (t.core c).kerr.getLsbD 6 = true) ∧
      (∀ w r y, p = .hart w r → r ≠ 0 → s.walk? w = some y → s.does .scrub fun t =>
        t.walk? w = some { y with gMark := withBit y.gMark r.val true } ∧ t.cores = s.cores ∧ t.mem = s.mem) ∧
      (∀ pa, p = .hbm pa → s.does .scrub fun t => t.poisoned pa = true ∧ t.cores = s.cores) ∧
      (∀ w, p = .distributor w → s.does .scrub fun t => t.mgmt.fatal = true ∧ t.msix = 64 :: s.msix ∧ t.agenda = s.agenda ∧
        ∀ c, (t.core c).run = if (s.core c).run = .free then .free else .stopped) ∧
      (∀ w, p = .control w → s.does .scrub fun t => t.mgmt.fatal = true ∧ t.mgmt.noGrant = true ∧ t.mgmt.hold = true ∧
        t.msix = 64 :: s.msix ∧ (∀ c, (t.core c).run = if (s.core c).run = .free then .free else .stopped) ∧
        ∀ l ∈ s.launches, l.st = .granted ∨ l.st = .started ∨ l.st = .ending → ∃ task ∈ t.agenda, task.op = .launchEnd ∧
          task.arg.launch = l.id ∧ task.arg.info.status = Cause.fabric)) ∧
    (16 ≤ s.corrected p →
      (∀ a, s.wf → ringSlot m.errbase 16 m.errtail m.errhead 32 = some a → s.does .repeatedCorrection fun t =>
        t.corrected p = 0 ∧ t.mgmt.errtail = m.errtail + 1 ∧ t.loadNat a 1 = 7 ∧ t.loadNat (a + 1) 1 = (recordOf p).1 % 256 ∧
        t.loadNat (a + 8) 8 = (recordOf p).2.2.toNat ∧ ∀ k, k < a ∨ a + 32 ≤ k → t.byteAt k = s.byteAt k) ∧
      (ringSlot m.errbase 16 m.errtail m.errhead 32 = none → s.does .repeatedCorrection fun t => t.corrected p = 0 ∧
        t.mem = s.mem ∧ t.mgmt.lost = if m.lost = 0xFFFF then 0xFFFF else m.lost + 1)) ∧
    (∀ l, s.launch? e.launch = some l → m.replay = true → l.brine ≠ 0 → l.st = .started →
      (e.n = m.brhead.toNat → s.does .brineDivergence fun t => t.mgmt = { m with diverged := true } ∧ t.mem = s.mem ∧
        t.agenda = s.agenda ++ [⟨.launchEnd, { launch := l.id, info := ⟨Cause.launchbad, 0xFFFF, 0, 0, 0,
          BitVec.ofNat 64 m.brhead.toNat⟩ }, 0⟩]) ∧
      (e.n ≠ m.brhead.toNat → s.does .brineDivergence fun t => t.mgmt = m ∧ t.mem = s.mem ∧
        t.agenda = s.agenda ++ [⟨.brineDivergence, { launch := l.id, n := m.brhead.toNat }, 0⟩])) ∧
    (hot < m.twarn ∨ m.therm.getLsbD 0 = true → s.does .thermalWarning fun t => t = { s with mgmt := { m with tmax := hot } }) ∧
    (m.twarn ≤ hot → m.therm.getLsbD 0 = false → s.does .thermalWarning fun t => t.mgmt.tmax = hot ∧ t.mgmt.noGrant = true ∧
      t.mgmt.therm.getLsbD 0 = true ∧ t.msix = 64 :: s.msix ∧ t.cores = s.cores) ∧
    (m.ttrip ≤ hot → m.therm.getLsbD 1 = false → s.does .thermalTrip fun t => t.mgmt.tmax = hot ∧ t.mgmt.hold = true ∧
      t.mgmt.therm.getLsbD 1 = true ∧ t.cores = s.cores ∧ ∀ l ∈ s.launches,
        l.st = .granted ∨ l.st = .started ∨ l.st = .ending → ⟨.preemptDelivery, { launch := l.id }, 0⟩ ∈ t.agenda) ∧
    (hot.toNat + 5 < m.twarn.toNat → s.does .thermalRecover fun t => t.mgmt =
      { m with tmax := hot, noGrant := m.fatal, hold := m.fatal, therm := 0 } ∧ t.cores = s.cores ∧ t.mem = s.mem) ∧
    (m.twarn.toNat ≤ hot.toNat + 5 → s.does .thermalRecover fun t => t = { s with mgmt := { m with tmax := hot } }) ∧
    (m.ttrip.toNat + 10 ≤ hot.toNat → s.does .thermalPowerOff fun t => lostAll t ∧ t.power = .off ∧ t.agenda = [] ∧
      t.alerts = s.alerts + 1) ∧
    (s.does .powerOff fun t => lostAll t ∧ t.power = .off ∧ t.agenda = [] ∧ t.flash = s.flash ∧ t.flashNext = s.flashNext ∧ t.hostRegs = {} ∧ t.spdm = {} ∧ t.mgmt.ready = false) ∧
    (s.power = .off → boots .powerUp 0) ∧ (s.power ≠ .off → s.power ≠ .booting → exec .powerUp s = .next s) ∧
    (s.power = .booting →
      (m.stage = 1 → s.does .powerUp fun t => t.power = .booting ∧ t.mgmt = { m with stage := 2 } ∧ next t s.agenda) ∧
      (m.stage = 2 → s.does .powerUp fun t => t.power = .booting ∧ t.mgmt = { m with stage := 3 } ∧
        t.deviceKey = some (Config.sha256 (Config.corrected (Config.sramPattern s.fresh) f.record.helper)) ∧
        next t s.agenda) ∧
      (∀ k, m.stage = 3 → s.deviceKey = some k → s.does .powerUp fun t =>
        (∀ key, accepted → Config.unwrap k f.record.wrapped = some key → t.power = .booting ∧
          t.mgmt = { m with stage := 4 } ∧ t.attestKey = some key ∧ next t s.agenda) ∧
        (¬ accepted ∨ Config.unwrap k f.record.wrapped = none → t.power = .unserviceable ∧
          t.mgmt = { m with bootFail := true } ∧ t.attestKey = s.attestKey ∧ t.agenda = s.agenda)) ∧
      (m.stage = 4 → s.does .powerUp fun t =>
        (sound → t.power = .booting ∧ t.mgmt.stage = 5 ∧ t.mgmt.repairFail = false ∧ next t s.agenda) ∧
        (¬ sound → t.power = .unserviceable ∧ t.mgmt.repairFail = true ∧ t.agenda = s.agenda)) ∧
      (m.stage = 5 → s.does .powerUp fun t => t.power = .service ∧ t.mgmt = { m with stage := 6, ready := true } ∧
        t.mem = s.mem)) ∧
    (s.power ≠ .off → boots .fundamentalReset (s.lenbo.epoch + 1)) ∧
    (s.power ≠ .off → s.power ≠ .booting → boots .functionLevelReset (s.lenbo.epoch + 1)) ∧
    (s.power = .booting → exec .functionLevelReset s = .next { s with retries := s.retries + 1 })

/-- R9, R13, R14, R21, R24, R27, R442: what reset leaves. That the bytes of host memory read as 0, as those of the device do, is
the model's choice (log 5), and so is that no context is live (log 4). Other values that the manual does not give, or that say
where the machine stands when the model begins (log 8), are not stated. -/
def Obligations.ResetValues : Prop :=
  let s := State.reset
  s.wf ∧ (∀ a, s.byteAt a = 0 ∧ s.poisoned a = false) ∧
  (∀ n : Nat,
    let k := s.core n
    (∀ (c : Fin 11),
      let x := s.ctx n c
      (∀ r, x.g r = 0 ∧ x.v r = 0 ∧ x.gBad r = false ∧ x.vBad r = 0) ∧ (∀ r, x.p r = if r = 0 then 0xF else 0) ∧
      x.live = false ∧ x.mode = decide (c = 0) ∧ x.f.kmask = 0xF ∧ x.f.kmsd = 0 ∧ x.f.depth = 0 ∧ x.k.cause = 0 ∧
      x.k.lres = 0 ∧ x.k.fpc = 0 ∧ x.k.mshape = 0 ∧ x.k.wave = 0) ∧
    k.kseg[0] = 0x0000038040000000 ∧ k.kseg[1] = 0 ∧ k.kseg[2] = 0 ∧ k.kseg[3] = 0 ∧
    (∀ i : Fin 32, k.acc[i] = 0) ∧ k.accMark = 0 ∧ k.fifo = [] ∧ k.claim = none ∧ k.rep = none ∧ k.q0 = [] ∧ k.q2 = [] ∧
    k.q3 = [] ∧ k.kerr = 0 ∧ ∀ i : Fin 16, k.tags[i].count = 0) ∧
  s.mgmt.ttrip = 105 ∧ s.mgmt.twarn = 95

/-- R32, R33, R38, R46, R210: with no event pending, a step runs the bundle at the PC of the context whose turn it is. A
lone word that decodes in a segment its mode may execute is fetched as that instruction, and the step is `exec` of it,
with the PC already after it; of a pair the C-word goes first, and the A-word reads the registers as they stood. An
event that the step takes from the agenda is `exec` of it. -/
def Obligations.StepRunsDecoded : Prop :=
  ∀ (s : State),
    (∀ n super (p : Off) i, let w := s.codeWord n p
      segCheck (s.core n).kseg super p.toNat 4 { x := true } = none → s.poisoned (ulmKey n p.toNat) = false →
      isLone w = true → decodeNat w = some i → (superOnly i = true → super = true) →
      ∀ buf, s.fetch n super p buf = .ok (.lone i (isAClass w))) ∧
    (∀ n super (p : Off) c a, let w := s.codeWord n p
      let w2 := s.codeWord n (p + 4)
      p.toNat % 8 = 0 → segCheck (s.core n).kseg super p.toNat 4 { x := true } = none →
      segCheck (s.core n).kseg super p.toNat 8 { x := true } = none → s.poisonedWord n p 8 = none →
      isLone w = false → isAClass w = false → isLone w2 = false → isAClass w2 = true →
      decodeNat w = some c → decodeNat w2 = some a → loneOnly c = false → (writes c).meets (writes a) = false →
      (superOnly c = true → super = true) → ∀ buf, s.fetch n super p buf = .ok (.pair c a)) ∧
    (∀ n k j c b, s.agenda = [] → s.timed = [] → s.power = .service → s.nextCore = some (n, k) → k.nextCtx = some (j, c) →
      let u := s.modCore n fun k => { k with tried := j }
      let x := (u.core n).ctxs[c]
      let m := (u.core n).rowsRead x
      (c = 0 → (u.core n).xlongDue = false) → (u.core n).atSupervisor c = false → (u.core n).replaying c = false →
      x.aword = false →
      u.fetch n x.mode x.pc x.fbuf = .ok b → x.readsRefused m b = false → x.held m b = false →
      ((u.core n).run = .halting → b.deferHeld = false) →
      let l := u.latch n c b.size
      let ends (t : State) : State :=
        State.watch { t.finish (u.captureWord n x.pc b) (x.sstep && !x.mode) x b.quiet with cur := {} }
      l.cur.core = n ∧ l.cur.ctx = c ∧ l.cur.p = x.pc ∧ l.cx.pc = x.pc + b.size ∧
      (∀ i isA t, b = .lone i isA → exec i { l with cur := { l.cur with isA := isA } } = .next t →
        step s = .next (ends t)) ∧
      (∀ i a r t v, b = .pair i a →
        let y : State := { l with cur := { l.cur with pair := true } }
        exec a (y.atAWord y.cx) = .next r → r.cur.stalled = false → exec i y = .next t → t.cur.stalled = false →
        t.cur.trapped = false → exec a (t.atAWord y.cx) = .next v → step s = .next (ends v))) ∧
    (∀ task u, s.pick = (some task, u) → ∀ t, exec task.op { u with ev := task.arg, cur := {} } = .next t → step s = .next t.watch)

/-- R32 to R45 and the encodings of the instruction tables: words written out from them decode to what they stand for. -/
def Obligations.DecodedWords : Prop :=
  let reads (w : Nat) (lone : Bool) (i : Instr) : Prop := decodeWord (BitVec.ofNat 32 w) = some (lone, i)
  reads 0x0929B002 false (.ld64 5 6 2) ∧ reads 0x48190A12 false (.vadd 3 4 5 .w 2) ∧ reads 0xC4268ACF true (.lui 4 0x68ACF) ∧
  reads 0xC3383FFD true (.li 7 0x7FD) ∧ reads 0xCB299808 true (.cvtf 5 6 .e4m3 .w 0) ∧ reads 0x84A7FFDE true (.bnz 9 0x3FFDE) ∧
  reads 0x8021C00D true (.kset 7 0xD) ∧ reads 0x8D21D109 true (.aadd 4 7 8 .d .rel .gr) ∧
  reads 0xCC204435 true (.ffma 4 1 2 3 .w 1) ∧ reads 0xD3440A88 true (.mgo 8 16 5 true) ∧ reads 0xD301C300 true (.rep 0 7 1) ∧
  reads 0xD4608C28 true (.trix 12 2 6 .back 0) ∧ reads 0x8F10C903 true (.cpy 2 3 4 true false 3) ∧
  reads 0x91008610 true (.xred 2 3 false) ∧ reads 0x90000480 true (.rsend 2) ∧ reads 0x884A0000 true (.cstart 9 8 0) ∧
  reads 0x80000000 true .nopC ∧ reads 0x40000000 false .nopA

/-- R7, R9: memory is bytes, lowest address first. What is stored is read back, and nothing else changes; a wide store is the
store of its bytes; and memories that read alike are the same data. -/
def Obligations.MemoryLaws : Prop :=
  (∀ (s : State) (a n x : Nat), s.wf →
    let t := s.storeNat a n x
    t.wf ∧ t.loadNat a n = x % 256 ^ n ∧ (∀ k, k < n → t.byteAt (a + k) = byteOf x k) ∧
    (∀ b, b < a ∨ a + n ≤ b → t.byteAt b = s.byteAt b) ∧
    (∀ b m, a ≤ b → b + m ≤ a + n → t.loadNat b m = x / 256 ^ (b - a) % 256 ^ m) ∧
    ∀ b m y, b + m ≤ a ∨ a + n ≤ b → (t.storeNat b m y).mem = ((s.storeNat b m y).storeNat a n x).mem) ∧
  (∀ (s : State) (a b n : Nat), s.wf → a + n ≤ b ∨ b + n ≤ a →
    let t := s.copyBytes a b n
    t.wf ∧ (∀ k, k < n → t.byteAt (b + k) = s.byteAt (a + k)) ∧ ∀ k, k < b ∨ b + n ≤ k → t.byteAt k = s.byteAt k) ∧
  ∀ (s t : State), s.wf → t.wf → (∀ a, s.byteAt a = t.byteAt a) → s.mem = t.mem

/-- R32 to R45: encoding and decoding agree on every instruction. A word instruction has a word with either L bit, a device
event has none; and the word of a well-formed instruction, with every operand at every value, decodes to that
instruction and that L bit, which an instruction that only stands alone always has. -/
def Obligations.DecodeUndoesEncode : Prop :=
  ∀ (i : Instr) (lone : Bool), (encode lone i).isSome = i.isWord ∧
    ∀ w, wellFormed i = true → encode lone i = some w → decodeWord w = some (lone || loneOnly i, i)

/-- R9: every step keeps memory in its canonical form: no address is listed twice, and none with the byte that an unlisted
address reads as. -/
def Obligations.StepKeepsMemory : Prop :=
  ∀ (s t : State), s.wf → step s = .next t → t.wf
end

