-- ==== Sys2Proof/Laws/Exec.lean ====
section
/-! SUPPORT. What `exec` calls for each instruction. -/

namespace Sys2Proof.Machine

theorem exec_trap (imm : BitVec 14) (s : State) : exec (.trap imm) s = execTrap imm s := rfl
theorem exec_tret (d : Bool) (m : BitVec 4) (s : State) : exec (.tret d m) s = execTret d m s := rfl
theorem exec_kget (d : Fin 32) (k : BitVec 14) (s : State) : exec (.kget d k) s = execKget d k s := rfl
theorem exec_kset (sc : Fin 32) (k : BitVec 14) (s : State) : exec (.kset sc k) s = execKset sc k s := rfl
theorem exec_kswp (sc : Fin 32) (k : BitVec 14) (s : State) : exec (.kswp sc k) s = execKswp sc k s := rfl
theorem exec_csave (sc : Fin 32) (s : State) : exec (.csave sc) s = execCsave sc s := rfl
theorem exec_crest (sc : Fin 32) (s : State) : exec (.crest sc) s = execCrest sc s := rfl
theorem exec_dbg (sc : Fin 32) (s : State) : exec (.dbg sc) s = execDbg sc s := rfl
theorem exec_br (o : BitVec 24) (s : State) : exec (.br o) s = execBr o s := rfl
theorem exec_call (o : BitVec 24) (s : State) : exec (.call o) s = execCall o s := rfl
theorem exec_bany (pr : Fin 8) (o : BitVec 18) (s : State) : exec (.bany pr o) s = execBany pr o s := rfl
theorem exec_ball (pr : Fin 8) (o : BitVec 18) (s : State) : exec (.ball pr o) s = execBall pr o s := rfl
theorem exec_bnone (pr : Fin 8) (o : BitVec 18) (s : State) : exec (.bnone pr o) s = execBnone pr o s := rfl
theorem exec_bnall (pr : Fin 8) (o : BitVec 18) (s : State) : exec (.bnall pr o) s = execBnall pr o s := rfl
theorem exec_bz (a : Fin 32) (o : BitVec 18) (s : State) : exec (.bz a o) s = execBz a o s := rfl
theorem exec_bnz (a : Fin 32) (o : BitVec 18) (s : State) : exec (.bnz a o) s = execBnz a o s := rfl
theorem exec_blt (a : Fin 32) (b : Fin 32) (o : BitVec 12) (s : State) : exec (.blt a b o) s = execBlt a b o s := rfl
theorem exec_bge (a : Fin 32) (b : Fin 32) (o : BitVec 12) (s : State) : exec (.bge a b o) s = execBge a b o s := rfl
theorem exec_bltu (a : Fin 32) (b : Fin 32) (o : BitVec 12) (s : State) : exec (.bltu a b o) s = execBltu a b o s := rfl
theorem exec_bgeu (a : Fin 32) (b : Fin 32) (o : BitVec 12) (s : State) : exec (.bgeu a b o) s = execBgeu a b o s := rfl
theorem exec_callr (a : Fin 32) (s : State) : exec (.callr a) s = execCallr a s := rfl
theorem exec_jr (a : Fin 32) (s : State) : exec (.jr a) s = execJr a s := rfl
theorem exec_jv (a : Fin 32) (s : State) : exec (.jv a) s = execJv a s := rfl
theorem exec_ifm (o : BitVec 15) (pr : Fin 8) (s : State) : exec (.ifm o pr) s = execIfm o pr s := rfl
theorem exec_elm (o : BitVec 15) (s : State) : exec (.elm o) s = execElm o s := rfl
theorem exec_lpm (o : BitVec 15) (s : State) : exec (.lpm o) s = execLpm o s := rfl
theorem exec_brk (pr : Fin 8) (s : State) : exec (.brk pr) s = execBrk pr s := rfl
theorem exec_cnt (pr : Fin 8) (s : State) : exec (.cnt pr) s = execCnt pr s := rfl
theorem exec_lpe (pr : Fin 8) (s : State) : exec (.lpe pr) s = execLpe pr s := rfl
theorem exec_cstart (d : Fin 32) (a : Fin 32) (b : Fin 32) (s : State) : exec (.cstart d a b) s = execCstart d a b s := rfl
theorem exec_cquery (d : Fin 32) (a : Fin 32) (s : State) : exec (.cquery d a) s = execCquery d a s := rfl
theorem exec_cwait (a : Fin 32) (s : State) : exec (.cwait a) s = execCwait a s := rfl
theorem exec_wform (d : Fin 32) (a : Fin 32) (s : State) : exec (.wform d a) s = execWform d a s := rfl
theorem exec_wsync (a : Fin 32) (s : State) : exec (.wsync a) s = execWsync a s := rfl
theorem exec_reord (a : Fin 32) (b : Fin 32) (s : State) : exec (.reord a b) s = execReord a b s := rfl
theorem exec_ld8 (d : Fin 32) (a : Fin 32) (o : BitVec 11) (s : State) : exec (.ld8 d a o) s = execLd8 d a o s := rfl
theorem exec_ld8z (d : Fin 32) (a : Fin 32) (o : BitVec 11) (s : State) : exec (.ld8z d a o) s = execLd8z d a o s := rfl
theorem exec_ld16 (d : Fin 32) (a : Fin 32) (o : BitVec 11) (s : State) : exec (.ld16 d a o) s = execLd16 d a o s := rfl
theorem exec_ld16z (d : Fin 32) (a : Fin 32) (o : BitVec 11) (s : State) : exec (.ld16z d a o) s = execLd16z d a o s := rfl
theorem exec_ld32 (d : Fin 32) (a : Fin 32) (o : BitVec 11) (s : State) : exec (.ld32 d a o) s = execLd32 d a o s := rfl
theorem exec_ld32z (d : Fin 32) (a : Fin 32) (o : BitVec 11) (s : State) : exec (.ld32z d a o) s = execLd32z d a o s := rfl
theorem exec_ld64 (d : Fin 32) (a : Fin 32) (o : BitVec 11) (s : State) : exec (.ld64 d a o) s = execLd64 d a o s := rfl
theorem exec_st8 (sc : Fin 32) (a : Fin 32) (o : BitVec 11) (s : State) : exec (.st8 sc a o) s = execSt8 sc a o s := rfl
theorem exec_st16 (sc : Fin 32) (a : Fin 32) (o : BitVec 11) (s : State) : exec (.st16 sc a o) s = execSt16 sc a o s := rfl
theorem exec_st32 (sc : Fin 32) (a : Fin 32) (o : BitVec 11) (s : State) : exec (.st32 sc a o) s = execSt32 sc a o s := rfl
theorem exec_st64 (sc : Fin 32) (a : Fin 32) (o : BitVec 11) (s : State) : exec (.st64 sc a o) s = execSt64 sc a o s := rfl
theorem exec_vld (d : Fin 32) (a : Fin 32) (o : BitVec 11) (s : State) : exec (.vld d a o) s = execVld d a o s := rfl
theorem exec_vst (sc : Fin 32) (a : Fin 32) (o : BitVec 11) (s : State) : exec (.vst sc a o) s = execVst sc a o s := rfl
theorem exec_vldx (d : Fin 32) (a : Fin 32) (b : Fin 32) (s : State) : exec (.vldx d a b) s = execVldx d a b s := rfl
theorem exec_vstx (sc : Fin 32) (a : Fin 32) (b : Fin 32) (s : State) : exec (.vstx sc a b) s = execVstx sc a b s := rfl
theorem exec_ldw32 (d : Fin 32) (a : Fin 32) (b : Fin 32) (s : State) : exec (.ldw32 d a b) s = execLdw32 d a b s := rfl
theorem exec_ldw64 (d : Fin 32) (a : Fin 32) (b : Fin 32) (s : State) : exec (.ldw64 d a b) s = execLdw64 d a b s := rfl
theorem exec_stw32 (sc : Fin 32) (a : Fin 32) (b : Fin 32) (s : State) : exec (.stw32 sc a b) s = execStw32 sc a b s := rfl
theorem exec_stw64 (sc : Fin 32) (a : Fin 32) (b : Fin 32) (s : State) : exec (.stw64 sc a b) s = execStw64 sc a b s := rfl
theorem exec_vldw (d : Fin 32) (a : Fin 32) (b : Fin 32) (s : State) : exec (.vldw d a b) s = execVldw d a b s := rfl
theorem exec_vstw (sc : Fin 32) (a : Fin 32) (b : Fin 32) (s : State) : exec (.vstw sc a b) s = execVstw sc a b s := rfl
theorem exec_aadd (d : Fin 32) (a : Fin 32) (b : Fin 32) (width : AWidth) (r : Order) (sc : Scope) (s : State) : exec (.aadd d a b width r sc) s = execAadd d a b width r sc s := rfl
theorem exec_aand (d : Fin 32) (a : Fin 32) (b : Fin 32) (width : AWidth) (r : Order) (sc : Scope) (s : State) : exec (.aand d a b width r sc) s = execAand d a b width r sc s := rfl
theorem exec_aor (d : Fin 32) (a : Fin 32) (b : Fin 32) (width : AWidth) (r : Order) (sc : Scope) (s : State) : exec (.aor d a b width r sc) s = execAor d a b width r sc s := rfl
theorem exec_axor (d : Fin 32) (a : Fin 32) (b : Fin 32) (width : AWidth) (r : Order) (sc : Scope) (s : State) : exec (.axor d a b width r sc) s = execAxor d a b width r sc s := rfl
theorem exec_amin (d : Fin 32) (a : Fin 32) (b : Fin 32) (width : AWidth) (r : Order) (sc : Scope) (s : State) : exec (.amin d a b width r sc) s = execAmin d a b width r sc s := rfl
theorem exec_amax (d : Fin 32) (a : Fin 32) (b : Fin 32) (width : AWidth) (r : Order) (sc : Scope) (s : State) : exec (.amax d a b width r sc) s = execAmax d a b width r sc s := rfl
theorem exec_aminu (d : Fin 32) (a : Fin 32) (b : Fin 32) (width : AWidth) (r : Order) (sc : Scope) (s : State) : exec (.aminu d a b width r sc) s = execAminu d a b width r sc s := rfl
theorem exec_amaxu (d : Fin 32) (a : Fin 32) (b : Fin 32) (width : AWidth) (r : Order) (sc : Scope) (s : State) : exec (.amaxu d a b width r sc) s = execAmaxu d a b width r sc s := rfl
theorem exec_aswp (d : Fin 32) (a : Fin 32) (b : Fin 32) (width : AWidth) (r : Order) (sc : Scope) (s : State) : exec (.aswp d a b width r sc) s = execAswp d a b width r sc s := rfl
theorem exec_acas (d : Fin 32) (a : Fin 32) (b : Fin 32) (width : AWidth) (r : Order) (sc : Scope) (s : State) : exec (.acas d a b width r sc) s = execAcas d a b width r sc s := rfl
theorem exec_afadd (d : Fin 32) (a : Fin 32) (b : Fin 32) (width : AWidth) (r : Order) (sc : Scope) (s : State) : exec (.afadd d a b width r sc) s = execAfadd d a b width r sc s := rfl
theorem exec_adecz (d : Fin 32) (a : Fin 32) (b : Fin 32) (width : AWidth) (r : Order) (sc : Scope) (s : State) : exec (.adecz d a b width r sc) s = execAdecz d a b width r sc s := rfl
theorem exec_fence (sc : Scope) (s : State) : exec (.fence sc) s = execFence sc s := rfl
theorem exec_rprobe (d : Fin 32) (a : Fin 32) (s : State) : exec (.rprobe d a) s = execRprobe d a s := rfl
theorem exec_mwait (d : Fin 32) (a : Fin 32) (b : Fin 32) (width : Bool) (sc : Scope) (s : State) : exec (.mwait d a b width sc) s = execMwait d a b width sc s := rfl
theorem exec_cpy (d : Fin 32) (a : Fin 32) (b : Fin 32) (m : Bool) (n : Bool) (t : Fin 16) (s : State) : exec (.cpy d a b m n t) s = execCpy d a b m n t s := rfl
theorem exec_cpy2d (d : Fin 32) (a : Fin 32) (b : Fin 32) (m : Bool) (n : Bool) (t : Fin 16) (s : State) : exec (.cpy2d d a b m n t) s = execCpy2d d a b m n t s := rfl
theorem exec_lcp (a : Fin 32) (b : Fin 32) (m : Bool) (t : Fin 16) (s : State) : exec (.lcp a b m t) s = execLcp a b m t s := rfl
theorem exec_lcpNf (d : Fin 8) (a : Fin 32) (b : Fin 32) (m : Bool) (t : Fin 16) (s : State) : exec (.lcpNf d a b m t) s = execLcpNf d a b m t s := rfl
theorem exec_lcs (a : Fin 32) (b : Fin 32) (m : Bool) (t : Fin 16) (s : State) : exec (.lcs a b m t) s = execLcs a b m t s := rfl
theorem exec_rdc (d : Fin 32) (a : Fin 32) (b : Fin 32) (m : Bool) (t : Fin 16) (s : State) : exec (.rdc d a b m t) s = execRdc d a b m t s := rfl
theorem exec_ired (a : Fin 32) (m : Bool) (t : Fin 16) (s : State) : exec (.ired a m t) s = execIred a m t s := rfl
theorem exec_ctw (d : Fin 32) (t : Fin 16) (s : State) : exec (.ctw d t) s = execCtw d t s := rfl
theorem exec_ctq (d : Fin 32) (t : Fin 16) (s : State) : exec (.ctq d t) s = execCtq d t s := rfl
theorem exec_qpop (d : Fin 32) (a : Fin 32) (q : Port) (s : State) : exec (.qpop d a q) s = execQpop d a q s := rfl
theorem exec_qpopl (d : Fin 32) (a : Fin 32) (pr : Fin 8) (q : Port) (s : State) : exec (.qpopl d a pr q) s = execQpopl d a pr q s := rfl
theorem exec_qpeek (d : Fin 32) (a : Fin 32) (pr : Fin 8) (q : Port) (s : State) : exec (.qpeek d a pr q) s = execQpeek d a pr q s := rfl
theorem exec_qcnt (d : Fin 32) (a : Fin 32) (q : Port) (s : State) : exec (.qcnt d a q) s = execQcnt d a q s := rfl
theorem exec_qwait (a : Fin 32) (q : Port) (s : State) : exec (.qwait a q) s = execQwait a q s := rfl
theorem exec_qpush (a : Fin 32) (s : State) : exec (.qpush a) s = execQpush a s := rfl
theorem exec_msend (a : Fin 32) (b : Fin 32) (s : State) : exec (.msend a b) s = execMsend a b s := rfl
theorem exec_hsend (a : Fin 32) (b : Fin 32) (s : State) : exec (.hsend a b) s = execHsend a b s := rfl
theorem exec_rsend (b : Fin 32) (s : State) : exec (.rsend b) s = execRsend b s := rfl
theorem exec_bsend (b : Fin 32) (s : State) : exec (.bsend b) s = execBsend b s := rfl
theorem exec_xsend (a : Fin 32) (b : Fin 32) (xm : XMode) (s : State) : exec (.xsend a b xm) s = execXsend a b xm s := rfl
theorem exec_xred (a : Fin 32) (b : Fin 32) (xm : Bool) (s : State) : exec (.xred a b xm) s = execXred a b xm s := rfl
theorem exec_gvote (d : Fin 32) (a : Fin 32) (s : State) : exec (.gvote d a) s = execGvote d a s := rfl
theorem exec_launch (a : Fin 32) (s : State) : exec (.launch a) s = execLaunch a s := rfl
theorem exec_launchNb (d : Fin 8) (a : Fin 32) (s : State) : exec (.launchNb d a) s = execLaunchNb d a s := rfl
theorem exec_ekickGecko (a : Fin 32) (s : State) : exec (.ekickGecko a) s = execEkickGecko a s := rfl
theorem exec_ekickRake (a : Fin 32) (s : State) : exec (.ekickRake a) s = execEkickRake a s := rfl
theorem exec_ekickCham (a : Fin 32) (s : State) : exec (.ekickCham a) s = execEkickCham a s := rfl
theorem exec_ztst (sc : Fin 32) (a : Fin 32) (o : BitVec 11) (s : State) : exec (.ztst sc a o) s = execZtst sc a o s := rfl
theorem exec_add (d : Fin 32) (a : Fin 32) (b : Fin 32) (s : State) : exec (.add d a b) s = execAdd d a b s := rfl
theorem exec_sub (d : Fin 32) (a : Fin 32) (b : Fin 32) (s : State) : exec (.sub d a b) s = execSub d a b s := rfl
theorem exec_and (d : Fin 32) (a : Fin 32) (b : Fin 32) (s : State) : exec (.and d a b) s = execAnd d a b s := rfl
theorem exec_or (d : Fin 32) (a : Fin 32) (b : Fin 32) (s : State) : exec (.or d a b) s = execOr d a b s := rfl
theorem exec_xor (d : Fin 32) (a : Fin 32) (b : Fin 32) (s : State) : exec (.xor d a b) s = execXor d a b s := rfl
theorem exec_andn (d : Fin 32) (a : Fin 32) (b : Fin 32) (s : State) : exec (.andn d a b) s = execAndn d a b s := rfl
theorem exec_shl (d : Fin 32) (a : Fin 32) (b : Fin 32) (s : State) : exec (.shl d a b) s = execShl d a b s := rfl
theorem exec_shr (d : Fin 32) (a : Fin 32) (b : Fin 32) (s : State) : exec (.shr d a b) s = execShr d a b s := rfl
theorem exec_sar (d : Fin 32) (a : Fin 32) (b : Fin 32) (s : State) : exec (.sar d a b) s = execSar d a b s := rfl
theorem exec_rol (d : Fin 32) (a : Fin 32) (b : Fin 32) (s : State) : exec (.rol d a b) s = execRol d a b s := rfl
theorem exec_min (d : Fin 32) (a : Fin 32) (b : Fin 32) (s : State) : exec (.min d a b) s = execMin d a b s := rfl
theorem exec_max (d : Fin 32) (a : Fin 32) (b : Fin 32) (s : State) : exec (.max d a b) s = execMax d a b s := rfl
theorem exec_minu (d : Fin 32) (a : Fin 32) (b : Fin 32) (s : State) : exec (.minu d a b) s = execMinu d a b s := rfl
theorem exec_maxu (d : Fin 32) (a : Fin 32) (b : Fin 32) (s : State) : exec (.maxu d a b) s = execMaxu d a b s := rfl
theorem exec_slt (d : Fin 32) (a : Fin 32) (b : Fin 32) (s : State) : exec (.slt d a b) s = execSlt d a b s := rfl
theorem exec_sltu (d : Fin 32) (a : Fin 32) (b : Fin 32) (s : State) : exec (.sltu d a b) s = execSltu d a b s := rfl
theorem exec_mul (d : Fin 32) (a : Fin 32) (b : Fin 32) (s : State) : exec (.mul d a b) s = execMul d a b s := rfl
theorem exec_mulh (d : Fin 32) (a : Fin 32) (b : Fin 32) (s : State) : exec (.mulh d a b) s = execMulh d a b s := rfl
theorem exec_mulhu (d : Fin 32) (a : Fin 32) (b : Fin 32) (s : State) : exec (.mulhu d a b) s = execMulhu d a b s := rfl
theorem exec_div (d : Fin 32) (a : Fin 32) (b : Fin 32) (s : State) : exec (.div d a b) s = execDiv d a b s := rfl
theorem exec_divu (d : Fin 32) (a : Fin 32) (b : Fin 32) (s : State) : exec (.divu d a b) s = execDivu d a b s := rfl
theorem exec_rem (d : Fin 32) (a : Fin 32) (b : Fin 32) (s : State) : exec (.rem d a b) s = execRem d a b s := rfl
theorem exec_remu (d : Fin 32) (a : Fin 32) (b : Fin 32) (s : State) : exec (.remu d a b) s = execRemu d a b s := rfl
theorem exec_sel (d : Fin 32) (a : Fin 32) (b : Fin 32) (s : State) : exec (.sel d a b) s = execSel d a b s := rfl
theorem exec_clz (d : Fin 32) (a : Fin 32) (s : State) : exec (.clz d a) s = execClz d a s := rfl
theorem exec_ctz (d : Fin 32) (a : Fin 32) (s : State) : exec (.ctz d a) s = execCtz d a s := rfl
theorem exec_popc (d : Fin 32) (a : Fin 32) (s : State) : exec (.popc d a) s = execPopc d a s := rfl
theorem exec_bfx (d : Fin 32) (a : Fin 32) (b : Fin 32) (s : State) : exec (.bfx d a b) s = execBfx d a b s := rfl
theorem exec_bfi (d : Fin 32) (a : Fin 32) (b : Fin 32) (s : State) : exec (.bfi d a b) s = execBfi d a b s := rfl
theorem exec_mov (d : Fin 32) (a : Fin 32) (s : State) : exec (.mov d a) s = execMov d a s := rfl
theorem exec_lea (d : Fin 32) (a : Fin 32) (b : Fin 32) (s : State) : exec (.lea d a b) s = execLea d a b s := rfl
theorem exec_wadr (d : Fin 32) (a : Fin 32) (b : Fin 32) (s : State) : exec (.wadr d a b) s = execWadr d a b s := rfl
theorem exec_addi (d : Fin 32) (a : Fin 32) (imm : BitVec 11) (s : State) : exec (.addi d a imm) s = execAddi d a imm s := rfl
theorem exec_andi (d : Fin 32) (a : Fin 32) (imm : BitVec 11) (s : State) : exec (.andi d a imm) s = execAndi d a imm s := rfl
theorem exec_ori (d : Fin 32) (a : Fin 32) (imm : BitVec 11) (s : State) : exec (.ori d a imm) s = execOri d a imm s := rfl
theorem exec_xori (d : Fin 32) (a : Fin 32) (imm : BitVec 11) (s : State) : exec (.xori d a imm) s = execXori d a imm s := rfl
theorem exec_shli (d : Fin 32) (a : Fin 32) (sc : BitVec 6) (s : State) : exec (.shli d a sc) s = execShli d a sc s := rfl
theorem exec_shri (d : Fin 32) (a : Fin 32) (sc : BitVec 6) (s : State) : exec (.shri d a sc) s = execShri d a sc s := rfl
theorem exec_sari (d : Fin 32) (a : Fin 32) (sc : BitVec 6) (s : State) : exec (.sari d a sc) s = execSari d a sc s := rfl
theorem exec_li (d : Fin 32) (imm : BitVec 11) (s : State) : exec (.li d imm) s = execLi d imm s := rfl
theorem exec_lui (d : Fin 32) (imm : BitVec 19) (s : State) : exec (.lui d imm) s = execLui d imm s := rfl
theorem exec_lhi (d : Fin 32) (imm : BitVec 19) (s : State) : exec (.lhi d imm) s = execLhi d imm s := rfl
theorem exec_vadd (d : Fin 32) (a : Fin 32) (b : Fin 32) (t : View) (pr : Fin 8) (s : State) : exec (.vadd d a b t pr) s = execVadd d a b t pr s := rfl
theorem exec_vsub (d : Fin 32) (a : Fin 32) (b : Fin 32) (t : View) (pr : Fin 8) (s : State) : exec (.vsub d a b t pr) s = execVsub d a b t pr s := rfl
theorem exec_vmul (d : Fin 32) (a : Fin 32) (b : Fin 32) (t : View) (pr : Fin 8) (s : State) : exec (.vmul d a b t pr) s = execVmul d a b t pr s := rfl
theorem exec_vmulh (d : Fin 32) (a : Fin 32) (b : Fin 32) (t : View) (pr : Fin 8) (s : State) : exec (.vmulh d a b t pr) s = execVmulh d a b t pr s := rfl
theorem exec_vmin (d : Fin 32) (a : Fin 32) (b : Fin 32) (t : View) (pr : Fin 8) (s : State) : exec (.vmin d a b t pr) s = execVmin d a b t pr s := rfl
theorem exec_vmax (d : Fin 32) (a : Fin 32) (b : Fin 32) (t : View) (pr : Fin 8) (s : State) : exec (.vmax d a b t pr) s = execVmax d a b t pr s := rfl
theorem exec_vminu (d : Fin 32) (a : Fin 32) (b : Fin 32) (t : View) (pr : Fin 8) (s : State) : exec (.vminu d a b t pr) s = execVminu d a b t pr s := rfl
theorem exec_vmaxu (d : Fin 32) (a : Fin 32) (b : Fin 32) (t : View) (pr : Fin 8) (s : State) : exec (.vmaxu d a b t pr) s = execVmaxu d a b t pr s := rfl
theorem exec_vand (d : Fin 32) (a : Fin 32) (b : Fin 32) (t : View) (pr : Fin 8) (s : State) : exec (.vand d a b t pr) s = execVand d a b t pr s := rfl
theorem exec_vor (d : Fin 32) (a : Fin 32) (b : Fin 32) (t : View) (pr : Fin 8) (s : State) : exec (.vor d a b t pr) s = execVor d a b t pr s := rfl
theorem exec_vxor (d : Fin 32) (a : Fin 32) (b : Fin 32) (t : View) (pr : Fin 8) (s : State) : exec (.vxor d a b t pr) s = execVxor d a b t pr s := rfl
theorem exec_vshl (d : Fin 32) (a : Fin 32) (b : Fin 32) (t : View) (pr : Fin 8) (s : State) : exec (.vshl d a b t pr) s = execVshl d a b t pr s := rfl
theorem exec_vshr (d : Fin 32) (a : Fin 32) (b : Fin 32) (t : View) (pr : Fin 8) (s : State) : exec (.vshr d a b t pr) s = execVshr d a b t pr s := rfl
theorem exec_vsar (d : Fin 32) (a : Fin 32) (b : Fin 32) (t : View) (pr : Fin 8) (s : State) : exec (.vsar d a b t pr) s = execVsar d a b t pr s := rfl
theorem exec_vabs (d : Fin 32) (a : Fin 32) (t : View) (pr : Fin 8) (s : State) : exec (.vabs d a t pr) s = execVabs d a t pr s := rfl
theorem exec_vneg (d : Fin 32) (a : Fin 32) (t : View) (pr : Fin 8) (s : State) : exec (.vneg d a t pr) s = execVneg d a t pr s := rfl
theorem exec_vadds (d : Fin 32) (a : Fin 32) (b : Fin 32) (t : View) (pr : Fin 8) (s : State) : exec (.vadds d a b t pr) s = execVadds d a b t pr s := rfl
theorem exec_vsubs (d : Fin 32) (a : Fin 32) (b : Fin 32) (t : View) (pr : Fin 8) (s : State) : exec (.vsubs d a b t pr) s = execVsubs d a b t pr s := rfl
theorem exec_vaddsu (d : Fin 32) (a : Fin 32) (b : Fin 32) (t : View) (pr : Fin 8) (s : State) : exec (.vaddsu d a b t pr) s = execVaddsu d a b t pr s := rfl
theorem exec_vsubsu (d : Fin 32) (a : Fin 32) (b : Fin 32) (t : View) (pr : Fin 8) (s : State) : exec (.vsubsu d a b t pr) s = execVsubsu d a b t pr s := rfl
theorem exec_vcmpeq (d : Fin 8) (a : Fin 32) (b : Fin 32) (t : View) (pr : Fin 8) (s : State) : exec (.vcmpeq d a b t pr) s = execVcmpeq d a b t pr s := rfl
theorem exec_vcmpne (d : Fin 8) (a : Fin 32) (b : Fin 32) (t : View) (pr : Fin 8) (s : State) : exec (.vcmpne d a b t pr) s = execVcmpne d a b t pr s := rfl
theorem exec_vcmplt (d : Fin 8) (a : Fin 32) (b : Fin 32) (t : View) (pr : Fin 8) (s : State) : exec (.vcmplt d a b t pr) s = execVcmplt d a b t pr s := rfl
theorem exec_vcmple (d : Fin 8) (a : Fin 32) (b : Fin 32) (t : View) (pr : Fin 8) (s : State) : exec (.vcmple d a b t pr) s = execVcmple d a b t pr s := rfl
theorem exec_vcmpltu (d : Fin 8) (a : Fin 32) (b : Fin 32) (t : View) (pr : Fin 8) (s : State) : exec (.vcmpltu d a b t pr) s = execVcmpltu d a b t pr s := rfl
theorem exec_vcmpleu (d : Fin 8) (a : Fin 32) (b : Fin 32) (t : View) (pr : Fin 8) (s : State) : exec (.vcmpleu d a b t pr) s = execVcmpleu d a b t pr s := rfl
theorem exec_vsel (d : Fin 32) (a : Fin 32) (b : Fin 32) (pr : Fin 8) (s : State) : exec (.vsel d a b pr) s = execVsel d a b pr s := rfl
theorem exec_vdot4 (d : Fin 32) (a : Fin 32) (b : Fin 32) (t : Bool) (pr : Fin 8) (s : State) : exec (.vdot4 d a b t pr) s = execVdot4 d a b t pr s := rfl
theorem exec_vdot4u (d : Fin 32) (a : Fin 32) (b : Fin 32) (t : Bool) (pr : Fin 8) (s : State) : exec (.vdot4u d a b t pr) s = execVdot4u d a b t pr s := rfl
theorem exec_fadd (d : Fin 32) (a : Fin 32) (b : Fin 32) (t : FFmt) (pr : Fin 8) (s : State) : exec (.fadd d a b t pr) s = execFadd d a b t pr s := rfl
theorem exec_fsub (d : Fin 32) (a : Fin 32) (b : Fin 32) (t : FFmt) (pr : Fin 8) (s : State) : exec (.fsub d a b t pr) s = execFsub d a b t pr s := rfl
theorem exec_fmul (d : Fin 32) (a : Fin 32) (b : Fin 32) (t : FFmt) (pr : Fin 8) (s : State) : exec (.fmul d a b t pr) s = execFmul d a b t pr s := rfl
theorem exec_fmin (d : Fin 32) (a : Fin 32) (b : Fin 32) (t : FFmt) (pr : Fin 8) (s : State) : exec (.fmin d a b t pr) s = execFmin d a b t pr s := rfl
theorem exec_fmax (d : Fin 32) (a : Fin 32) (b : Fin 32) (t : FFmt) (pr : Fin 8) (s : State) : exec (.fmax d a b t pr) s = execFmax d a b t pr s := rfl
theorem exec_fabs (d : Fin 32) (a : Fin 32) (t : FFmt) (pr : Fin 8) (s : State) : exec (.fabs d a t pr) s = execFabs d a t pr s := rfl
theorem exec_fneg (d : Fin 32) (a : Fin 32) (t : FFmt) (pr : Fin 8) (s : State) : exec (.fneg d a t pr) s = execFneg d a t pr s := rfl
theorem exec_fcpsgn (d : Fin 32) (a : Fin 32) (b : Fin 32) (t : FFmt) (pr : Fin 8) (s : State) : exec (.fcpsgn d a b t pr) s = execFcpsgn d a b t pr s := rfl
theorem exec_fcmpeq (d : Fin 8) (a : Fin 32) (b : Fin 32) (t : FFmt) (pr : Fin 8) (s : State) : exec (.fcmpeq d a b t pr) s = execFcmpeq d a b t pr s := rfl
theorem exec_fcmplt (d : Fin 8) (a : Fin 32) (b : Fin 32) (t : FFmt) (pr : Fin 8) (s : State) : exec (.fcmplt d a b t pr) s = execFcmplt d a b t pr s := rfl
theorem exec_fcmple (d : Fin 8) (a : Fin 32) (b : Fin 32) (t : FFmt) (pr : Fin 8) (s : State) : exec (.fcmple d a b t pr) s = execFcmple d a b t pr s := rfl
theorem exec_fcmpun (d : Fin 8) (a : Fin 32) (b : Fin 32) (t : FFmt) (pr : Fin 8) (s : State) : exec (.fcmpun d a b t pr) s = execFcmpun d a b t pr s := rfl
theorem exec_fclass (d : Fin 32) (a : Fin 32) (t : FFmt) (pr : Fin 8) (s : State) : exec (.fclass d a t pr) s = execFclass d a t pr s := rfl
theorem exec_fround (d : Fin 32) (a : Fin 32) (m : RMode) (t : FFmt) (pr : Fin 8) (s : State) : exec (.fround d a m t pr) s = execFround d a m t pr s := rfl
theorem exec_cvtf (d : Fin 32) (a : Fin 32) (y : TyCode) (t : FFmt) (pr : Fin 8) (s : State) : exec (.cvtf d a y t pr) s = execCvtf d a y t pr s := rfl
theorem exec_cvtfi (d : Fin 32) (a : Fin 32) (y : TyCode) (t : FFmt) (pr : Fin 8) (s : State) : exec (.cvtfi d a y t pr) s = execCvtfi d a y t pr s := rfl
theorem exec_cvtif (d : Fin 32) (a : Fin 32) (y : TyCode) (t : FFmt) (pr : Fin 8) (s : State) : exec (.cvtif d a y t pr) s = execCvtif d a y t pr s := rfl
theorem exec_cvtq (d : Fin 32) (a : Fin 32) (y : TyCode) (t : FFmt) (pr : Fin 8) (s : State) : exec (.cvtq d a y t pr) s = execCvtq d a y t pr s := rfl
theorem exec_cvtdq (d : Fin 32) (a : Fin 32) (pr : Fin 8) (s : State) : exec (.cvtdq d a pr) s = execCvtdq d a pr s := rfl
theorem exec_cvtsr (d : Fin 32) (a : Fin 32) (y : TyCode) (t : FFmt) (pr : Fin 8) (s : State) : exec (.cvtsr d a y t pr) s = execCvtsr d a y t pr s := rfl
theorem exec_ffma (d : Fin 32) (a : Fin 32) (b : Fin 32) (c : Fin 32) (t : FFmt) (pr : Fin 4) (s : State) : exec (.ffma d a b c t pr) s = execFfma d a b c t pr s := rfl
theorem exec_ffms (d : Fin 32) (a : Fin 32) (b : Fin 32) (c : Fin 32) (t : FFmt) (pr : Fin 4) (s : State) : exec (.ffms d a b c t pr) s = execFfms d a b c t pr s := rfl
theorem exec_ffnma (d : Fin 32) (a : Fin 32) (b : Fin 32) (c : Fin 32) (t : FFmt) (pr : Fin 4) (s : State) : exec (.ffnma d a b c t pr) s = execFfnma d a b c t pr s := rfl
theorem exec_frcp (d : Fin 32) (a : Fin 32) (t : SFmt) (pr : Fin 8) (s : State) : exec (.frcp d a t pr) s = execFrcp d a t pr s := rfl
theorem exec_frsq (d : Fin 32) (a : Fin 32) (t : SFmt) (pr : Fin 8) (s : State) : exec (.frsq d a t pr) s = execFrsq d a t pr s := rfl
theorem exec_fsqrt (d : Fin 32) (a : Fin 32) (t : SFmt) (pr : Fin 8) (s : State) : exec (.fsqrt d a t pr) s = execFsqrt d a t pr s := rfl
theorem exec_fexp2 (d : Fin 32) (a : Fin 32) (t : SFmt) (pr : Fin 8) (s : State) : exec (.fexp2 d a t pr) s = execFexp2 d a t pr s := rfl
theorem exec_flog2 (d : Fin 32) (a : Fin 32) (t : SFmt) (pr : Fin 8) (s : State) : exec (.flog2 d a t pr) s = execFlog2 d a t pr s := rfl
theorem exec_fsin (d : Fin 32) (a : Fin 32) (t : SFmt) (pr : Fin 8) (s : State) : exec (.fsin d a t pr) s = execFsin d a t pr s := rfl
theorem exec_fcos (d : Fin 32) (a : Fin 32) (t : SFmt) (pr : Fin 8) (s : State) : exec (.fcos d a t pr) s = execFcos d a t pr s := rfl
theorem exec_fdiv (d : Fin 32) (a : Fin 32) (b : Fin 32) (t : SFmt) (pr : Fin 8) (s : State) : exec (.fdiv d a b t pr) s = execFdiv d a b t pr s := rfl
theorem exec_vbcast (d : Fin 32) (a : Fin 32) (t : View) (pr : Fin 8) (s : State) : exec (.vbcast d a t pr) s = execVbcast d a t pr s := rfl
theorem exec_vget (d : Fin 32) (a : Fin 32) (b : Fin 32) (t : View) (pr : Fin 8) (s : State) : exec (.vget d a b t pr) s = execVget d a b t pr s := rfl
theorem exec_vput (d : Fin 32) (a : Fin 32) (b : Fin 32) (t : View) (pr : Fin 8) (s : State) : exec (.vput d a b t pr) s = execVput d a b t pr s := rfl
theorem exec_vperm (d : Fin 32) (a : Fin 32) (b : Fin 32) (t : View) (pr : Fin 8) (s : State) : exec (.vperm d a b t pr) s = execVperm d a b t pr s := rfl
theorem exec_vext (d : Fin 32) (a : Fin 32) (b : Fin 32) (t : View) (pr : Fin 8) (s : State) : exec (.vext d a b t pr) s = execVext d a b t pr s := rfl
theorem exec_vins (d : Fin 32) (a : Fin 32) (b : Fin 32) (t : View) (pr : Fin 8) (s : State) : exec (.vins d a b t pr) s = execVins d a b t pr s := rfl
theorem exec_vmov (d : Fin 32) (a : Fin 32) (pr : Fin 8) (s : State) : exec (.vmov d a pr) s = execVmov d a pr s := rfl
theorem exec_vli (d : Fin 32) (imm : BitVec 11) (s : State) : exec (.vli d imm) s = execVli d imm s := rfl
theorem exec_vaddi (d : Fin 32) (a : Fin 32) (imm : BitVec 11) (s : State) : exec (.vaddi d a imm) s = execVaddi d a imm s := rfl
theorem exec_vshli (d : Fin 32) (a : Fin 32) (sc : BitVec 6) (s : State) : exec (.vshli d a sc) s = execVshli d a sc s := rfl
theorem exec_vshri (d : Fin 32) (a : Fin 32) (sc : BitVec 6) (s : State) : exec (.vshri d a sc) s = execVshri d a sc s := rfl
theorem exec_wballot (d : Fin 32) (a : Fin 8) (b : Fin 32) (pr : Fin 8) (s : State) : exec (.wballot d a b pr) s = execWballot d a b pr s := rfl
theorem exec_wany (d : Fin 8) (a : Fin 8) (b : Fin 32) (pr : Fin 8) (s : State) : exec (.wany d a b pr) s = execWany d a b pr s := rfl
theorem exec_wall (d : Fin 8) (a : Fin 8) (b : Fin 32) (pr : Fin 8) (s : State) : exec (.wall d a b pr) s = execWall d a b pr s := rfl
theorem exec_wshfl (d : Fin 32) (a : Fin 32) (b : Fin 32) (pr : Fin 8) (s : State) : exec (.wshfl d a b pr) s = execWshfl d a b pr s := rfl
theorem exec_wshup (d : Fin 32) (a : Fin 32) (b : Fin 32) (pr : Fin 8) (s : State) : exec (.wshup d a b pr) s = execWshup d a b pr s := rfl
theorem exec_wshdn (d : Fin 32) (a : Fin 32) (b : Fin 32) (pr : Fin 8) (s : State) : exec (.wshdn d a b pr) s = execWshdn d a b pr s := rfl
theorem exec_wbfly (d : Fin 32) (a : Fin 32) (b : Fin 32) (pr : Fin 8) (s : State) : exec (.wbfly d a b pr) s = execWbfly d a b pr s := rfl
theorem exec_wsum (d : Fin 32) (a : Fin 32) (b : Fin 32) (t : View) (pr : Fin 8) (s : State) : exec (.wsum d a b t pr) s = execWsum d a b t pr s := rfl
theorem exec_wmin (d : Fin 32) (a : Fin 32) (b : Fin 32) (t : View) (pr : Fin 8) (s : State) : exec (.wmin d a b t pr) s = execWmin d a b t pr s := rfl
theorem exec_wmax (d : Fin 32) (a : Fin 32) (b : Fin 32) (t : View) (pr : Fin 8) (s : State) : exec (.wmax d a b t pr) s = execWmax d a b t pr s := rfl
theorem exec_wscan (d : Fin 32) (a : Fin 32) (b : Fin 32) (t : View) (pr : Fin 8) (s : State) : exec (.wscan d a b t pr) s = execWscan d a b t pr s := rfl
theorem exec_mshape (d : Fin 32) (a : Fin 32) (s : State) : exec (.mshape d a) s = execMshape d a s := rfl
theorem exec_mclaim (d : Fin 32) (s : State) : exec (.mclaim d) s = execMclaim d s := rfl
theorem exec_mzero (n : Fin 32) (s : State) : exec (.mzero n) s = execMzero n s := rfl
theorem exec_mgo (n : Fin 32) (a : Fin 32) (b : Fin 32) (r : Bool) (s : State) : exec (.mgo n a b r) s = execMgo n a b r s := rfl
theorem exec_msc (a : Fin 32) (s : State) : exec (.msc a) s = execMsc a s := rfl
theorem exec_mrd (d : Fin 32) (n : Fin 32) (s : State) : exec (.mrd d n) s = execMrd d n s := rfl
theorem exec_mwr (n : Fin 32) (a : Fin 32) (s : State) : exec (.mwr n a) s = execMwr n a s := rfl
theorem exec_rep (n : BitVec 4) (c : BitVec 5) (sc : BitVec 5) (s : State) : exec (.rep n c sc) s = execRep n c sc s := rfl
theorem exec_bxt (d : Fin 32) (a : Fin 32) (b : Fin 32) (pr : Fin 8) (s : State) : exec (.bxt d a b pr) s = execBxt d a b pr s := rfl
theorem exec_trix (d : Fin 32) (a : Fin 32) (b : Fin 32) (c : Cull) (pr : Fin 8) (s : State) : exec (.trix d a b c pr) s = execTrix d a b c pr s := rfl
theorem exec_cdec (d : Fin 32) (a : Fin 32) (b : Fin 32) (pr : Fin 8) (s : State) : exec (.cdec d a b pr) s = execCdec d a b pr s := rfl
theorem exec_rbase (d : Fin 32) (a : Fin 32) (b : Fin 32) (pr : Fin 8) (s : State) : exec (.rbase d a b pr) s = execRbase d a b pr s := rfl
theorem exec_cov (d : Fin 32) (a : Fin 32) (b : Fin 32) (c : Cull) (pr : Fin 8) (s : State) : exec (.cov d a b c pr) s = execCov d a b c pr s := rfl
theorem exec_hcmp (d : Fin 32) (a : Fin 32) (b : Fin 32) (pr : Fin 8) (s : State) : exec (.hcmp d a b pr) s = execHcmp d a b pr s := rfl
theorem exec_nopC (s : State) : exec (.nopC) s = execNopC s := rfl
theorem exec_ret (s : State) : exec (.ret) s = execRet s := rfl
theorem exec_fim (s : State) : exec (.fim) s = execFim s := rfl
theorem exec_cyield (s : State) : exec (.cyield) s = execCyield s := rfl
theorem exec_cexit (s : State) : exec (.cexit) s = execCexit s := rfl
theorem exec_ifence (s : State) : exec (.ifence) s = execIfence s := rfl
theorem exec_xsync (s : State) : exec (.xsync) s = execXsync s := rfl
theorem exec_gbar (s : State) : exec (.gbar) s = execGbar s := rfl
theorem exec_nopA (s : State) : exec (.nopA) s = execNopA s := rfl
theorem exec_mrel (s : State) : exec (.mrel) s = execMrel s := rfl
theorem exec_repe (s : State) : exec (.repe) s = execRepe s := rfl
theorem exec_illegalBundle (s : State) : exec (.illegalBundle) s = execIllegalBundle s := rfl
theorem exec_sfuResultRetire (s : State) : exec (.sfuResultRetire) s = execSfuResultRetire s := rfl
theorem exec_windowRequest (s : State) : exec (.windowRequest) s = execWindowRequest s := rfl
theorem exec_windowResponse (s : State) : exec (.windowResponse) s = execWindowResponse s := rfl
theorem exec_parkedResume (s : State) : exec (.parkedResume) s = execParkedResume s := rfl
theorem exec_c0CompletionReport (s : State) : exec (.c0CompletionReport) s = execC0CompletionReport s := rfl
theorem exec_waveFormation (s : State) : exec (.waveFormation) s = execWaveFormation s := rfl
theorem exec_partialWaveTimeout (s : State) : exec (.partialWaveTimeout) s = execPartialWaveTimeout s := rfl
theorem exec_waveInstancePerform (s : State) : exec (.waveInstancePerform) s = execWaveInstancePerform s := rfl
theorem exec_wsyncComplete (s : State) : exec (.wsyncComplete) s = execWsyncComplete s := rfl
theorem exec_gangBarrierComplete (s : State) : exec (.gangBarrierComplete) s = execGangBarrierComplete s := rfl
theorem exec_matrixOpStart (s : State) : exec (.matrixOpStart) s = execMatrixOpStart s := rfl
theorem exec_scaleFifoConsume (s : State) : exec (.scaleFifoConsume) s = execScaleFifoConsume s := rfl
theorem exec_matrixOpEnd (s : State) : exec (.matrixOpEnd) s = execMatrixOpEnd s := rfl
theorem exec_replayIssue (s : State) : exec (.replayIssue) s = execReplayIssue s := rfl
theorem exec_flitInject (s : State) : exec (.flitInject) s = execFlitInject s := rfl
theorem exec_xredChainAdd (s : State) : exec (.xredChainAdd) s = execXredChainAdd s := rfl
theorem exec_flitLanding (s : State) : exec (.flitLanding) s = execFlitLanding s := rfl
theorem exec_xlongPhaseEnd (s : State) : exec (.xlongPhaseEnd) s = execXlongPhaseEnd s := rfl
theorem exec_xsyncComplete (s : State) : exec (.xsyncComplete) s = execXsyncComplete s := rfl
theorem exec_inboxArrival (s : State) : exec (.inboxArrival) s = execInboxArrival s := rfl
theorem exec_hitSorterArrival (s : State) : exec (.hitSorterArrival) s = execHitSorterArrival s := rfl
theorem exec_mailboxArrival (s : State) : exec (.mailboxArrival) s = execMailboxArrival s := rfl
theorem exec_overflowReturn (s : State) : exec (.overflowReturn) s = execOverflowReturn s := rfl
theorem exec_copyRequestReceipt (s : State) : exec (.copyRequestReceipt) s = execCopyRequestReceipt s := rfl
theorem exec_copySectorWrite (s : State) : exec (.copySectorWrite) s = execCopySectorWrite s := rfl
theorem exec_copyComplete (s : State) : exec (.copyComplete) s = execCopyComplete s := rfl
theorem exec_heatRaise (s : State) : exec (.heatRaise) s = execHeatRaise s := rfl
theorem exec_sweeperHalving (s : State) : exec (.sweeperHalving) s = execSweeperHalving s := rfl
theorem exec_pageRequestGroup (s : State) : exec (.pageRequestGroup) s = execPageRequestGroup s := rfl
theorem exec_pageRequestResponse (s : State) : exec (.pageRequestResponse) s = execPageRequestResponse s := rfl
theorem exec_rdcSectorUpdate (s : State) : exec (.rdcSectorUpdate) s = execRdcSectorUpdate s := rfl
theorem exec_iredFold (s : State) : exec (.iredFold) s = execIredFold s := rfl
theorem exec_iredCombine (s : State) : exec (.iredCombine) s = execIredCombine s := rfl
theorem exec_geckoWalkStart (s : State) : exec (.geckoWalkStart) s = execGeckoWalkStart s := rfl
theorem exec_geckoMigration (s : State) : exec (.geckoMigration) s = execGeckoMigration s := rfl
theorem exec_geckoStepLimit (s : State) : exec (.geckoStepLimit) s = execGeckoStepLimit s := rfl
theorem exec_geckoWalkEnd (s : State) : exec (.geckoWalkEnd) s = execGeckoWalkEnd s := rfl
theorem exec_rakeCommand (s : State) : exec (.rakeCommand) s = execRakeCommand s := rfl
theorem exec_rakeCompletion (s : State) : exec (.rakeCompletion) s = execRakeCompletion s := rfl
theorem exec_chameleonCommand (s : State) : exec (.chameleonCommand) s = execChameleonCommand s := rfl
theorem exec_chameleonWindowAck (s : State) : exec (.chameleonWindowAck) s = execChameleonWindowAck s := rfl
theorem exec_chameleonEnd (s : State) : exec (.chameleonEnd) s = execChameleonEnd s := rfl
theorem exec_rayAtHome (s : State) : exec (.rayAtHome) s = execRayAtHome s := rfl
theorem exec_rayArrival (s : State) : exec (.rayArrival) s = execRayArrival s := rfl
theorem exec_salternCacheFill (s : State) : exec (.salternCacheFill) s = execSalternCacheFill s := rfl
theorem exec_pageIn (s : State) : exec (.pageIn) s = execPageIn s := rfl
theorem exec_evictionIdleCheck (s : State) : exec (.evictionIdleCheck) s = execEvictionIdleCheck s := rfl
theorem exec_treeletFillComplete (s : State) : exec (.treeletFillComplete) s = execTreeletFillComplete s := rfl
theorem exec_initialPin (s : State) : exec (.initialPin) s = execInitialPin s := rfl
theorem exec_heatPeriodEnd (s : State) : exec (.heatPeriodEnd) s = execHeatPeriodEnd s := rfl
theorem exec_lport (s : State) : exec (.lport) s = execLport s := rfl
theorem exec_launchValidate (s : State) : exec (.launchValidate) s = execLaunchValidate s := rfl
theorem exec_waitWordCheck (s : State) : exec (.waitWordCheck) s = execWaitWordCheck s := rfl
theorem exec_launchSelection (s : State) : exec (.launchSelection) s = execLaunchSelection s := rfl
theorem exec_panGrant (s : State) : exec (.panGrant) s = execPanGrant s := rfl
theorem exec_c0Start (s : State) : exec (.c0Start) s = execC0Start s := rfl
theorem exec_swapOut (s : State) : exec (.swapOut) s = execSwapOut s := rfl
theorem exec_groupRestore (s : State) : exec (.groupRestore) s = execGroupRestore s := rfl
theorem exec_preemptDelivery (s : State) : exec (.preemptDelivery) s = execPreemptDelivery s := rfl
theorem exec_deferredHalt (s : State) : exec (.deferredHalt) s = execDeferredHalt s := rfl
theorem exec_coreSave (s : State) : exec (.coreSave) s = execCoreSave s := rfl
theorem exec_groupRetirement (s : State) : exec (.groupRetirement) s = execGroupRetirement s := rfl
theorem exec_launchEnd (s : State) : exec (.launchEnd) s = execLaunchEnd s := rfl
theorem exec_iqtail (s : State) : exec (.iqtail) s = execIqtail s := rfl
theorem exec_invalidationStart (s : State) : exec (.invalidationStart) s = execInvalidationStart s := rfl
theorem exec_invalidationComplete (s : State) : exec (.invalidationComplete) s = execInvalidationComplete s := rfl
theorem exec_atsInvalidateRequest (s : State) : exec (.atsInvalidateRequest) s = execAtsInvalidateRequest s := rfl
theorem exec_atsInvalidateCompletion (s : State) : exec (.atsInvalidateCompletion) s = execAtsInvalidateCompletion s := rfl
theorem exec_atsTranslationResponse (s : State) : exec (.atsTranslationResponse) s = execAtsTranslationResponse s := rfl
theorem exec_pmap (s : State) : exec (.pmap) s = execPmap s := rfl
theorem exec_registerWrite (s : State) : exec (.registerWrite) s = execRegisterWrite s := rfl
theorem exec_hostBar2Access (s : State) : exec (.hostBar2Access) s = execHostBar2Access s := rfl
theorem exec_priReset (s : State) : exec (.priReset) s = execPriReset s := rfl
theorem exec_lenboFlitReceive (s : State) : exec (.lenboFlitReceive) s = execLenboFlitReceive s := rfl
theorem exec_lenboNak (s : State) : exec (.lenboNak) s = execLenboNak s := rfl
theorem exec_lenboLaneLoss (s : State) : exec (.lenboLaneLoss) s = execLenboLaneLoss s := rfl
theorem exec_lenboLinkDown (s : State) : exec (.lenboLinkDown) s = execLenboLinkDown s := rfl
theorem exec_lenboPacketReceive (s : State) : exec (.lenboPacketReceive) s = execLenboPacketReceive s := rfl
theorem exec_lenboRetransmitTimeout (s : State) : exec (.lenboRetransmitTimeout) s = execLenboRetransmitTimeout s := rfl
theorem exec_epochRefusal (s : State) : exec (.epochRefusal) s = execEpochRefusal s := rfl
theorem exec_lenboRequestGiveUp (s : State) : exec (.lenboRequestGiveUp) s = execLenboRequestGiveUp s := rfl
theorem exec_lenboCreditReturn (s : State) : exec (.lenboCreditReturn) s = execLenboCreditReturn s := rfl
theorem exec_widthreq (s : State) : exec (.widthreq) s = execWidthreq s := rfl
theorem exec_scrub (s : State) : exec (.scrub) s = execScrub s := rfl
theorem exec_repeatedCorrection (s : State) : exec (.repeatedCorrection) s = execRepeatedCorrection s := rfl
theorem exec_brineDivergence (s : State) : exec (.brineDivergence) s = execBrineDivergence s := rfl
theorem exec_dbgctlStop (s : State) : exec (.dbgctlStop) s = execDbgctlStop s := rfl
theorem exec_dbgctlDump (s : State) : exec (.dbgctlDump) s = execDbgctlDump s := rfl
theorem exec_dbgctlLoad (s : State) : exec (.dbgctlLoad) s = execDbgctlLoad s := rfl
theorem exec_dbgctlResume (s : State) : exec (.dbgctlResume) s = execDbgctlResume s := rfl
theorem exec_thermalWarning (s : State) : exec (.thermalWarning) s = execThermalWarning s := rfl
theorem exec_thermalTrip (s : State) : exec (.thermalTrip) s = execThermalTrip s := rfl
theorem exec_thermalRecover (s : State) : exec (.thermalRecover) s = execThermalRecover s := rfl
theorem exec_thermalPowerOff (s : State) : exec (.thermalPowerOff) s = execThermalPowerOff s := rfl
theorem exec_powerUp (s : State) : exec (.powerUp) s = execPowerUp s := rfl
theorem exec_fundamentalReset (s : State) : exec (.fundamentalReset) s = execFundamentalReset s := rfl
theorem exec_functionLevelReset (s : State) : exec (.functionLevelReset) s = execFunctionLevelReset s := rfl
theorem exec_getVersion (s : State) : exec (.getVersion) s = execGetVersion s := rfl
theorem exec_getCapabilities (s : State) : exec (.getCapabilities) s = execGetCapabilities s := rfl
theorem exec_negotiateAlgorithms (s : State) : exec (.negotiateAlgorithms) s = execNegotiateAlgorithms s := rfl
theorem exec_getDigests (s : State) : exec (.getDigests) s = execGetDigests s := rfl
theorem exec_getCertificate (s : State) : exec (.getCertificate) s = execGetCertificate s := rfl
theorem exec_challenge (s : State) : exec (.challenge) s = execChallenge s := rfl
theorem exec_getMeasurements (s : State) : exec (.getMeasurements) s = execGetMeasurements s := rfl
theorem exec_powerOff (s : State) : exec (.powerOff) s = execPowerOff s := rfl

end Sys2Proof.Machine
end

