-- ==== Sys2Proof/Laws/State.lean ====
section
/-! SUPPORT. What each update of the state leaves alone, field by field, and what reading back what was just written
gives. Every lemma of the first part holds by definition. -/

namespace Sys2Proof.Machine

/-! ### Fields of the package that an update leaves alone -/

@[simp] theorem State.setCore_cur (s : State) (n : Nat) (k : Core) : (s.setCore n k).cur = s.cur := rfl
@[simp] theorem State.setCore_ev (s : State) (n : Nat) (k : Core) : (s.setCore n k).ev = s.ev := rfl
@[simp] theorem State.setCore_agenda (s : State) (n : Nat) (k : Core) : (s.setCore n k).agenda = s.agenda := rfl
@[simp] theorem State.setCore_timed (s : State) (n : Nat) (k : Core) : (s.setCore n k).timed = s.timed := rfl
@[simp] theorem State.setCore_ticks (s : State) (n : Nat) (k : Core) : (s.setCore n k).ticks = s.ticks := rfl
@[simp] theorem State.setCore_turn (s : State) (n : Nat) (k : Core) : (s.setCore n k).turn = s.turn := rfl
@[simp] theorem State.setCore_fresh (s : State) (n : Nat) (k : Core) : (s.setCore n k).fresh = s.fresh := rfl
@[simp] theorem State.setCore_nextId (s : State) (n : Nat) (k : Core) : (s.setCore n k).nextId = s.nextId := rfl
@[simp] theorem State.setCore_saved (s : State) (n : Nat) (k : Core) : (s.setCore n k).saved = s.saved := rfl
@[simp] theorem State.setCore_savedBeds (s : State) (n : Nat) (k : Core) : (s.setCore n k).savedBeds = s.savedBeds := rfl
@[simp] theorem State.setCore_beds (s : State) (n : Nat) (k : Core) : (s.setCore n k).beds = s.beds := rfl
@[simp] theorem State.setCore_groups (s : State) (n : Nat) (k : Core) : (s.setCore n k).groups = s.groups := rfl
@[simp] theorem State.setCore_mem (s : State) (n : Nat) (k : Core) : (s.setCore n k).mem = s.mem := rfl
@[simp] theorem State.setCore_poison (s : State) (n : Nat) (k : Core) : (s.setCore n k).poison = s.poison := rfl
@[simp] theorem State.setCore_msgs (s : State) (n : Nat) (k : Core) : (s.setCore n k).msgs = s.msgs := rfl
@[simp] theorem State.setCore_copies (s : State) (n : Nat) (k : Core) : (s.setCore n k).copies = s.copies := rfl
@[simp] theorem State.setCore_tlb (s : State) (n : Nat) (k : Core) : (s.setCore n k).tlb = s.tlb := rfl
@[simp] theorem State.setCore_pageGroups (s : State) (n : Nat) (k : Core) : (s.setCore n k).pageGroups = s.pageGroups := rfl
@[simp] theorem State.setCore_pageWaits (s : State) (n : Nat) (k : Core) : (s.setCore n k).pageWaits = s.pageWaits := rfl
@[simp] theorem State.setCore_answered (s : State) (n : Nat) (k : Core) : (s.setCore n k).answered = s.answered := rfl
@[simp] theorem State.setCore_denied (s : State) (n : Nat) (k : Core) : (s.setCore n k).denied = s.denied := rfl
@[simp] theorem State.setCore_pasidSeen (s : State) (n : Nat) (k : Core) : (s.setCore n k).pasidSeen = s.pasidSeen := rfl
@[simp] theorem State.setCore_atsAsked (s : State) (n : Nat) (k : Core) : (s.setCore n k).atsAsked = s.atsAsked := rfl
@[simp] theorem State.setCore_atsDenied (s : State) (n : Nat) (k : Core) : (s.setCore n k).atsDenied = s.atsDenied := rfl
@[simp] theorem State.setCore_walks (s : State) (n : Nat) (k : Core) : (s.setCore n k).walks = s.walks := rfl
@[simp] theorem State.setCore_rakes (s : State) (n : Nat) (k : Core) : (s.setCore n k).rakes = s.rakes := rfl
@[simp] theorem State.setCore_chams (s : State) (n : Nat) (k : Core) : (s.setCore n k).chams = s.chams := rfl
@[simp] theorem State.setCore_homes (s : State) (n : Nat) (k : Core) : (s.setCore n k).homes = s.homes := rfl
@[simp] theorem State.setCore_rays (s : State) (n : Nat) (k : Core) : (s.setCore n k).rays = s.rays := rfl
@[simp] theorem State.setCore_pageIns (s : State) (n : Nat) (k : Core) : (s.setCore n k).pageIns = s.pageIns := rfl
@[simp] theorem State.setCore_launches (s : State) (n : Nat) (k : Core) : (s.setCore n k).launches = s.launches := rfl
@[simp] theorem State.setCore_seqs (s : State) (n : Nat) (k : Core) : (s.setCore n k).seqs = s.seqs := rfl
@[simp] theorem State.setCore_channels (s : State) (n : Nat) (k : Core) : (s.setCore n k).channels = s.channels := rfl
@[simp] theorem State.setCore_lastSrc (s : State) (n : Nat) (k : Core) : (s.setCore n k).lastSrc = s.lastSrc := rfl
@[simp] theorem State.setCore_selected (s : State) (n : Nat) (k : Core) : (s.setCore n k).selected = s.selected := rfl
@[simp] theorem State.setCore_grants (s : State) (n : Nat) (k : Core) : (s.setCore n k).grants = s.grants := rfl
@[simp] theorem State.setCore_serials (s : State) (n : Nat) (k : Core) : (s.setCore n k).serials = s.serials := rfl
@[simp] theorem State.setCore_saves (s : State) (n : Nat) (k : Core) : (s.setCore n k).saves = s.saves := rfl
@[simp] theorem State.setCore_hostRegs (s : State) (n : Nat) (k : Core) : (s.setCore n k).hostRegs = s.hostRegs := rfl
@[simp] theorem State.setCore_invals (s : State) (n : Nat) (k : Core) : (s.setCore n k).invals = s.invals := rfl
@[simp] theorem State.setCore_msix (s : State) (n : Nat) (k : Core) : (s.setCore n k).msix = s.msix := rfl
@[simp] theorem State.setCore_lenbo (s : State) (n : Nat) (k : Core) : (s.setCore n k).lenbo = s.lenbo := rfl
@[simp] theorem State.setCore_mgmt (s : State) (n : Nat) (k : Core) : (s.setCore n k).mgmt = s.mgmt := rfl
@[simp] theorem State.setCore_spdm (s : State) (n : Nat) (k : Core) : (s.setCore n k).spdm = s.spdm := rfl
@[simp] theorem State.setCore_power (s : State) (n : Nat) (k : Core) : (s.setCore n k).power = s.power := rfl
@[simp] theorem State.setCore_deviceKey (s : State) (n : Nat) (k : Core) : (s.setCore n k).deviceKey = s.deviceKey := rfl
@[simp] theorem State.setCore_attestKey (s : State) (n : Nat) (k : Core) : (s.setCore n k).attestKey = s.attestKey := rfl
@[simp] theorem State.setCore_poweredAt (s : State) (n : Nat) (k : Core) : (s.setCore n k).poweredAt = s.poweredAt := rfl
@[simp] theorem State.setCore_flash (s : State) (n : Nat) (k : Core) : (s.setCore n k).flash = s.flash := rfl
@[simp] theorem State.setCore_flashNext (s : State) (n : Nat) (k : Core) : (s.setCore n k).flashNext = s.flashNext := rfl
@[simp] theorem State.setCore_retries (s : State) (n : Nat) (k : Core) : (s.setCore n k).retries = s.retries := rfl
@[simp] theorem State.setCore_alerts (s : State) (n : Nat) (k : Core) : (s.setCore n k).alerts = s.alerts := rfl

@[simp] theorem State.modCore_cur (s : State) (n : Nat) (f : Core → Core) : (s.modCore n f).cur = s.cur := rfl
@[simp] theorem State.modCore_ev (s : State) (n : Nat) (f : Core → Core) : (s.modCore n f).ev = s.ev := rfl
@[simp] theorem State.modCore_agenda (s : State) (n : Nat) (f : Core → Core) : (s.modCore n f).agenda = s.agenda := rfl
@[simp] theorem State.modCore_timed (s : State) (n : Nat) (f : Core → Core) : (s.modCore n f).timed = s.timed := rfl
@[simp] theorem State.modCore_ticks (s : State) (n : Nat) (f : Core → Core) : (s.modCore n f).ticks = s.ticks := rfl
@[simp] theorem State.modCore_turn (s : State) (n : Nat) (f : Core → Core) : (s.modCore n f).turn = s.turn := rfl
@[simp] theorem State.modCore_fresh (s : State) (n : Nat) (f : Core → Core) : (s.modCore n f).fresh = s.fresh := rfl
@[simp] theorem State.modCore_nextId (s : State) (n : Nat) (f : Core → Core) : (s.modCore n f).nextId = s.nextId := rfl
@[simp] theorem State.modCore_saved (s : State) (n : Nat) (f : Core → Core) : (s.modCore n f).saved = s.saved := rfl
@[simp] theorem State.modCore_savedBeds (s : State) (n : Nat) (f : Core → Core) : (s.modCore n f).savedBeds = s.savedBeds := rfl
@[simp] theorem State.modCore_beds (s : State) (n : Nat) (f : Core → Core) : (s.modCore n f).beds = s.beds := rfl
@[simp] theorem State.modCore_groups (s : State) (n : Nat) (f : Core → Core) : (s.modCore n f).groups = s.groups := rfl
@[simp] theorem State.modCore_mem (s : State) (n : Nat) (f : Core → Core) : (s.modCore n f).mem = s.mem := rfl
@[simp] theorem State.modCore_poison (s : State) (n : Nat) (f : Core → Core) : (s.modCore n f).poison = s.poison := rfl
@[simp] theorem State.modCore_msgs (s : State) (n : Nat) (f : Core → Core) : (s.modCore n f).msgs = s.msgs := rfl
@[simp] theorem State.modCore_copies (s : State) (n : Nat) (f : Core → Core) : (s.modCore n f).copies = s.copies := rfl
@[simp] theorem State.modCore_tlb (s : State) (n : Nat) (f : Core → Core) : (s.modCore n f).tlb = s.tlb := rfl
@[simp] theorem State.modCore_pageGroups (s : State) (n : Nat) (f : Core → Core) : (s.modCore n f).pageGroups = s.pageGroups := rfl
@[simp] theorem State.modCore_pageWaits (s : State) (n : Nat) (f : Core → Core) : (s.modCore n f).pageWaits = s.pageWaits := rfl
@[simp] theorem State.modCore_answered (s : State) (n : Nat) (f : Core → Core) : (s.modCore n f).answered = s.answered := rfl
@[simp] theorem State.modCore_denied (s : State) (n : Nat) (f : Core → Core) : (s.modCore n f).denied = s.denied := rfl
@[simp] theorem State.modCore_pasidSeen (s : State) (n : Nat) (f : Core → Core) : (s.modCore n f).pasidSeen = s.pasidSeen := rfl
@[simp] theorem State.modCore_atsAsked (s : State) (n : Nat) (f : Core → Core) : (s.modCore n f).atsAsked = s.atsAsked := rfl
@[simp] theorem State.modCore_atsDenied (s : State) (n : Nat) (f : Core → Core) : (s.modCore n f).atsDenied = s.atsDenied := rfl
@[simp] theorem State.modCore_walks (s : State) (n : Nat) (f : Core → Core) : (s.modCore n f).walks = s.walks := rfl
@[simp] theorem State.modCore_rakes (s : State) (n : Nat) (f : Core → Core) : (s.modCore n f).rakes = s.rakes := rfl
@[simp] theorem State.modCore_chams (s : State) (n : Nat) (f : Core → Core) : (s.modCore n f).chams = s.chams := rfl
@[simp] theorem State.modCore_homes (s : State) (n : Nat) (f : Core → Core) : (s.modCore n f).homes = s.homes := rfl
@[simp] theorem State.modCore_rays (s : State) (n : Nat) (f : Core → Core) : (s.modCore n f).rays = s.rays := rfl
@[simp] theorem State.modCore_pageIns (s : State) (n : Nat) (f : Core → Core) : (s.modCore n f).pageIns = s.pageIns := rfl
@[simp] theorem State.modCore_launches (s : State) (n : Nat) (f : Core → Core) : (s.modCore n f).launches = s.launches := rfl
@[simp] theorem State.modCore_seqs (s : State) (n : Nat) (f : Core → Core) : (s.modCore n f).seqs = s.seqs := rfl
@[simp] theorem State.modCore_channels (s : State) (n : Nat) (f : Core → Core) : (s.modCore n f).channels = s.channels := rfl
@[simp] theorem State.modCore_lastSrc (s : State) (n : Nat) (f : Core → Core) : (s.modCore n f).lastSrc = s.lastSrc := rfl
@[simp] theorem State.modCore_selected (s : State) (n : Nat) (f : Core → Core) : (s.modCore n f).selected = s.selected := rfl
@[simp] theorem State.modCore_grants (s : State) (n : Nat) (f : Core → Core) : (s.modCore n f).grants = s.grants := rfl
@[simp] theorem State.modCore_serials (s : State) (n : Nat) (f : Core → Core) : (s.modCore n f).serials = s.serials := rfl
@[simp] theorem State.modCore_saves (s : State) (n : Nat) (f : Core → Core) : (s.modCore n f).saves = s.saves := rfl
@[simp] theorem State.modCore_hostRegs (s : State) (n : Nat) (f : Core → Core) : (s.modCore n f).hostRegs = s.hostRegs := rfl
@[simp] theorem State.modCore_invals (s : State) (n : Nat) (f : Core → Core) : (s.modCore n f).invals = s.invals := rfl
@[simp] theorem State.modCore_msix (s : State) (n : Nat) (f : Core → Core) : (s.modCore n f).msix = s.msix := rfl
@[simp] theorem State.modCore_lenbo (s : State) (n : Nat) (f : Core → Core) : (s.modCore n f).lenbo = s.lenbo := rfl
@[simp] theorem State.modCore_mgmt (s : State) (n : Nat) (f : Core → Core) : (s.modCore n f).mgmt = s.mgmt := rfl
@[simp] theorem State.modCore_spdm (s : State) (n : Nat) (f : Core → Core) : (s.modCore n f).spdm = s.spdm := rfl
@[simp] theorem State.modCore_power (s : State) (n : Nat) (f : Core → Core) : (s.modCore n f).power = s.power := rfl
@[simp] theorem State.modCore_deviceKey (s : State) (n : Nat) (f : Core → Core) : (s.modCore n f).deviceKey = s.deviceKey := rfl
@[simp] theorem State.modCore_attestKey (s : State) (n : Nat) (f : Core → Core) : (s.modCore n f).attestKey = s.attestKey := rfl
@[simp] theorem State.modCore_poweredAt (s : State) (n : Nat) (f : Core → Core) : (s.modCore n f).poweredAt = s.poweredAt := rfl
@[simp] theorem State.modCore_flash (s : State) (n : Nat) (f : Core → Core) : (s.modCore n f).flash = s.flash := rfl
@[simp] theorem State.modCore_flashNext (s : State) (n : Nat) (f : Core → Core) : (s.modCore n f).flashNext = s.flashNext := rfl
@[simp] theorem State.modCore_retries (s : State) (n : Nat) (f : Core → Core) : (s.modCore n f).retries = s.retries := rfl
@[simp] theorem State.modCore_alerts (s : State) (n : Nat) (f : Core → Core) : (s.modCore n f).alerts = s.alerts := rfl

@[simp] theorem State.modCtx_cur (s : State) (n : Nat) (c : Fin 11) (f : Context → Context) : (s.modCtx n c f).cur = s.cur := rfl
@[simp] theorem State.modCtx_ev (s : State) (n : Nat) (c : Fin 11) (f : Context → Context) : (s.modCtx n c f).ev = s.ev := rfl
@[simp] theorem State.modCtx_agenda (s : State) (n : Nat) (c : Fin 11) (f : Context → Context) : (s.modCtx n c f).agenda = s.agenda := rfl
@[simp] theorem State.modCtx_timed (s : State) (n : Nat) (c : Fin 11) (f : Context → Context) : (s.modCtx n c f).timed = s.timed := rfl
@[simp] theorem State.modCtx_ticks (s : State) (n : Nat) (c : Fin 11) (f : Context → Context) : (s.modCtx n c f).ticks = s.ticks := rfl
@[simp] theorem State.modCtx_turn (s : State) (n : Nat) (c : Fin 11) (f : Context → Context) : (s.modCtx n c f).turn = s.turn := rfl
@[simp] theorem State.modCtx_fresh (s : State) (n : Nat) (c : Fin 11) (f : Context → Context) : (s.modCtx n c f).fresh = s.fresh := rfl
@[simp] theorem State.modCtx_nextId (s : State) (n : Nat) (c : Fin 11) (f : Context → Context) : (s.modCtx n c f).nextId = s.nextId := rfl
@[simp] theorem State.modCtx_saved (s : State) (n : Nat) (c : Fin 11) (f : Context → Context) : (s.modCtx n c f).saved = s.saved := rfl
@[simp] theorem State.modCtx_savedBeds (s : State) (n : Nat) (c : Fin 11) (f : Context → Context) : (s.modCtx n c f).savedBeds = s.savedBeds := rfl
@[simp] theorem State.modCtx_beds (s : State) (n : Nat) (c : Fin 11) (f : Context → Context) : (s.modCtx n c f).beds = s.beds := rfl
@[simp] theorem State.modCtx_groups (s : State) (n : Nat) (c : Fin 11) (f : Context → Context) : (s.modCtx n c f).groups = s.groups := rfl
@[simp] theorem State.modCtx_mem (s : State) (n : Nat) (c : Fin 11) (f : Context → Context) : (s.modCtx n c f).mem = s.mem := rfl
@[simp] theorem State.modCtx_poison (s : State) (n : Nat) (c : Fin 11) (f : Context → Context) : (s.modCtx n c f).poison = s.poison := rfl
@[simp] theorem State.modCtx_msgs (s : State) (n : Nat) (c : Fin 11) (f : Context → Context) : (s.modCtx n c f).msgs = s.msgs := rfl
@[simp] theorem State.modCtx_copies (s : State) (n : Nat) (c : Fin 11) (f : Context → Context) : (s.modCtx n c f).copies = s.copies := rfl
@[simp] theorem State.modCtx_tlb (s : State) (n : Nat) (c : Fin 11) (f : Context → Context) : (s.modCtx n c f).tlb = s.tlb := rfl
@[simp] theorem State.modCtx_pageGroups (s : State) (n : Nat) (c : Fin 11) (f : Context → Context) : (s.modCtx n c f).pageGroups = s.pageGroups := rfl
@[simp] theorem State.modCtx_pageWaits (s : State) (n : Nat) (c : Fin 11) (f : Context → Context) : (s.modCtx n c f).pageWaits = s.pageWaits := rfl
@[simp] theorem State.modCtx_answered (s : State) (n : Nat) (c : Fin 11) (f : Context → Context) : (s.modCtx n c f).answered = s.answered := rfl
@[simp] theorem State.modCtx_denied (s : State) (n : Nat) (c : Fin 11) (f : Context → Context) : (s.modCtx n c f).denied = s.denied := rfl
@[simp] theorem State.modCtx_pasidSeen (s : State) (n : Nat) (c : Fin 11) (f : Context → Context) : (s.modCtx n c f).pasidSeen = s.pasidSeen := rfl
@[simp] theorem State.modCtx_atsAsked (s : State) (n : Nat) (c : Fin 11) (f : Context → Context) : (s.modCtx n c f).atsAsked = s.atsAsked := rfl
@[simp] theorem State.modCtx_atsDenied (s : State) (n : Nat) (c : Fin 11) (f : Context → Context) : (s.modCtx n c f).atsDenied = s.atsDenied := rfl
@[simp] theorem State.modCtx_walks (s : State) (n : Nat) (c : Fin 11) (f : Context → Context) : (s.modCtx n c f).walks = s.walks := rfl
@[simp] theorem State.modCtx_rakes (s : State) (n : Nat) (c : Fin 11) (f : Context → Context) : (s.modCtx n c f).rakes = s.rakes := rfl
@[simp] theorem State.modCtx_chams (s : State) (n : Nat) (c : Fin 11) (f : Context → Context) : (s.modCtx n c f).chams = s.chams := rfl
@[simp] theorem State.modCtx_homes (s : State) (n : Nat) (c : Fin 11) (f : Context → Context) : (s.modCtx n c f).homes = s.homes := rfl
@[simp] theorem State.modCtx_rays (s : State) (n : Nat) (c : Fin 11) (f : Context → Context) : (s.modCtx n c f).rays = s.rays := rfl
@[simp] theorem State.modCtx_pageIns (s : State) (n : Nat) (c : Fin 11) (f : Context → Context) : (s.modCtx n c f).pageIns = s.pageIns := rfl
@[simp] theorem State.modCtx_launches (s : State) (n : Nat) (c : Fin 11) (f : Context → Context) : (s.modCtx n c f).launches = s.launches := rfl
@[simp] theorem State.modCtx_seqs (s : State) (n : Nat) (c : Fin 11) (f : Context → Context) : (s.modCtx n c f).seqs = s.seqs := rfl
@[simp] theorem State.modCtx_channels (s : State) (n : Nat) (c : Fin 11) (f : Context → Context) : (s.modCtx n c f).channels = s.channels := rfl
@[simp] theorem State.modCtx_lastSrc (s : State) (n : Nat) (c : Fin 11) (f : Context → Context) : (s.modCtx n c f).lastSrc = s.lastSrc := rfl
@[simp] theorem State.modCtx_selected (s : State) (n : Nat) (c : Fin 11) (f : Context → Context) : (s.modCtx n c f).selected = s.selected := rfl
@[simp] theorem State.modCtx_grants (s : State) (n : Nat) (c : Fin 11) (f : Context → Context) : (s.modCtx n c f).grants = s.grants := rfl
@[simp] theorem State.modCtx_serials (s : State) (n : Nat) (c : Fin 11) (f : Context → Context) : (s.modCtx n c f).serials = s.serials := rfl
@[simp] theorem State.modCtx_saves (s : State) (n : Nat) (c : Fin 11) (f : Context → Context) : (s.modCtx n c f).saves = s.saves := rfl
@[simp] theorem State.modCtx_hostRegs (s : State) (n : Nat) (c : Fin 11) (f : Context → Context) : (s.modCtx n c f).hostRegs = s.hostRegs := rfl
@[simp] theorem State.modCtx_invals (s : State) (n : Nat) (c : Fin 11) (f : Context → Context) : (s.modCtx n c f).invals = s.invals := rfl
@[simp] theorem State.modCtx_msix (s : State) (n : Nat) (c : Fin 11) (f : Context → Context) : (s.modCtx n c f).msix = s.msix := rfl
@[simp] theorem State.modCtx_lenbo (s : State) (n : Nat) (c : Fin 11) (f : Context → Context) : (s.modCtx n c f).lenbo = s.lenbo := rfl
@[simp] theorem State.modCtx_mgmt (s : State) (n : Nat) (c : Fin 11) (f : Context → Context) : (s.modCtx n c f).mgmt = s.mgmt := rfl
@[simp] theorem State.modCtx_spdm (s : State) (n : Nat) (c : Fin 11) (f : Context → Context) : (s.modCtx n c f).spdm = s.spdm := rfl
@[simp] theorem State.modCtx_power (s : State) (n : Nat) (c : Fin 11) (f : Context → Context) : (s.modCtx n c f).power = s.power := rfl
@[simp] theorem State.modCtx_deviceKey (s : State) (n : Nat) (c : Fin 11) (f : Context → Context) : (s.modCtx n c f).deviceKey = s.deviceKey := rfl
@[simp] theorem State.modCtx_attestKey (s : State) (n : Nat) (c : Fin 11) (f : Context → Context) : (s.modCtx n c f).attestKey = s.attestKey := rfl
@[simp] theorem State.modCtx_poweredAt (s : State) (n : Nat) (c : Fin 11) (f : Context → Context) : (s.modCtx n c f).poweredAt = s.poweredAt := rfl
@[simp] theorem State.modCtx_flash (s : State) (n : Nat) (c : Fin 11) (f : Context → Context) : (s.modCtx n c f).flash = s.flash := rfl
@[simp] theorem State.modCtx_flashNext (s : State) (n : Nat) (c : Fin 11) (f : Context → Context) : (s.modCtx n c f).flashNext = s.flashNext := rfl
@[simp] theorem State.modCtx_retries (s : State) (n : Nat) (c : Fin 11) (f : Context → Context) : (s.modCtx n c f).retries = s.retries := rfl
@[simp] theorem State.modCtx_alerts (s : State) (n : Nat) (c : Fin 11) (f : Context → Context) : (s.modCtx n c f).alerts = s.alerts := rfl

@[simp] theorem State.modHere_cur (s : State) (f : Core → Core) : (s.modHere f).cur = s.cur := rfl
@[simp] theorem State.modHere_ev (s : State) (f : Core → Core) : (s.modHere f).ev = s.ev := rfl
@[simp] theorem State.modHere_agenda (s : State) (f : Core → Core) : (s.modHere f).agenda = s.agenda := rfl
@[simp] theorem State.modHere_timed (s : State) (f : Core → Core) : (s.modHere f).timed = s.timed := rfl
@[simp] theorem State.modHere_ticks (s : State) (f : Core → Core) : (s.modHere f).ticks = s.ticks := rfl
@[simp] theorem State.modHere_turn (s : State) (f : Core → Core) : (s.modHere f).turn = s.turn := rfl
@[simp] theorem State.modHere_fresh (s : State) (f : Core → Core) : (s.modHere f).fresh = s.fresh := rfl
@[simp] theorem State.modHere_nextId (s : State) (f : Core → Core) : (s.modHere f).nextId = s.nextId := rfl
@[simp] theorem State.modHere_saved (s : State) (f : Core → Core) : (s.modHere f).saved = s.saved := rfl
@[simp] theorem State.modHere_savedBeds (s : State) (f : Core → Core) : (s.modHere f).savedBeds = s.savedBeds := rfl
@[simp] theorem State.modHere_beds (s : State) (f : Core → Core) : (s.modHere f).beds = s.beds := rfl
@[simp] theorem State.modHere_groups (s : State) (f : Core → Core) : (s.modHere f).groups = s.groups := rfl
@[simp] theorem State.modHere_mem (s : State) (f : Core → Core) : (s.modHere f).mem = s.mem := rfl
@[simp] theorem State.modHere_poison (s : State) (f : Core → Core) : (s.modHere f).poison = s.poison := rfl
@[simp] theorem State.modHere_msgs (s : State) (f : Core → Core) : (s.modHere f).msgs = s.msgs := rfl
@[simp] theorem State.modHere_copies (s : State) (f : Core → Core) : (s.modHere f).copies = s.copies := rfl
@[simp] theorem State.modHere_tlb (s : State) (f : Core → Core) : (s.modHere f).tlb = s.tlb := rfl
@[simp] theorem State.modHere_pageGroups (s : State) (f : Core → Core) : (s.modHere f).pageGroups = s.pageGroups := rfl
@[simp] theorem State.modHere_pageWaits (s : State) (f : Core → Core) : (s.modHere f).pageWaits = s.pageWaits := rfl
@[simp] theorem State.modHere_answered (s : State) (f : Core → Core) : (s.modHere f).answered = s.answered := rfl
@[simp] theorem State.modHere_denied (s : State) (f : Core → Core) : (s.modHere f).denied = s.denied := rfl
@[simp] theorem State.modHere_pasidSeen (s : State) (f : Core → Core) : (s.modHere f).pasidSeen = s.pasidSeen := rfl
@[simp] theorem State.modHere_atsAsked (s : State) (f : Core → Core) : (s.modHere f).atsAsked = s.atsAsked := rfl
@[simp] theorem State.modHere_atsDenied (s : State) (f : Core → Core) : (s.modHere f).atsDenied = s.atsDenied := rfl
@[simp] theorem State.modHere_walks (s : State) (f : Core → Core) : (s.modHere f).walks = s.walks := rfl
@[simp] theorem State.modHere_rakes (s : State) (f : Core → Core) : (s.modHere f).rakes = s.rakes := rfl
@[simp] theorem State.modHere_chams (s : State) (f : Core → Core) : (s.modHere f).chams = s.chams := rfl
@[simp] theorem State.modHere_homes (s : State) (f : Core → Core) : (s.modHere f).homes = s.homes := rfl
@[simp] theorem State.modHere_rays (s : State) (f : Core → Core) : (s.modHere f).rays = s.rays := rfl
@[simp] theorem State.modHere_pageIns (s : State) (f : Core → Core) : (s.modHere f).pageIns = s.pageIns := rfl
@[simp] theorem State.modHere_launches (s : State) (f : Core → Core) : (s.modHere f).launches = s.launches := rfl
@[simp] theorem State.modHere_seqs (s : State) (f : Core → Core) : (s.modHere f).seqs = s.seqs := rfl
@[simp] theorem State.modHere_channels (s : State) (f : Core → Core) : (s.modHere f).channels = s.channels := rfl
@[simp] theorem State.modHere_lastSrc (s : State) (f : Core → Core) : (s.modHere f).lastSrc = s.lastSrc := rfl
@[simp] theorem State.modHere_selected (s : State) (f : Core → Core) : (s.modHere f).selected = s.selected := rfl
@[simp] theorem State.modHere_grants (s : State) (f : Core → Core) : (s.modHere f).grants = s.grants := rfl
@[simp] theorem State.modHere_serials (s : State) (f : Core → Core) : (s.modHere f).serials = s.serials := rfl
@[simp] theorem State.modHere_saves (s : State) (f : Core → Core) : (s.modHere f).saves = s.saves := rfl
@[simp] theorem State.modHere_hostRegs (s : State) (f : Core → Core) : (s.modHere f).hostRegs = s.hostRegs := rfl
@[simp] theorem State.modHere_invals (s : State) (f : Core → Core) : (s.modHere f).invals = s.invals := rfl
@[simp] theorem State.modHere_msix (s : State) (f : Core → Core) : (s.modHere f).msix = s.msix := rfl
@[simp] theorem State.modHere_lenbo (s : State) (f : Core → Core) : (s.modHere f).lenbo = s.lenbo := rfl
@[simp] theorem State.modHere_mgmt (s : State) (f : Core → Core) : (s.modHere f).mgmt = s.mgmt := rfl
@[simp] theorem State.modHere_spdm (s : State) (f : Core → Core) : (s.modHere f).spdm = s.spdm := rfl
@[simp] theorem State.modHere_power (s : State) (f : Core → Core) : (s.modHere f).power = s.power := rfl
@[simp] theorem State.modHere_deviceKey (s : State) (f : Core → Core) : (s.modHere f).deviceKey = s.deviceKey := rfl
@[simp] theorem State.modHere_attestKey (s : State) (f : Core → Core) : (s.modHere f).attestKey = s.attestKey := rfl
@[simp] theorem State.modHere_poweredAt (s : State) (f : Core → Core) : (s.modHere f).poweredAt = s.poweredAt := rfl
@[simp] theorem State.modHere_flash (s : State) (f : Core → Core) : (s.modHere f).flash = s.flash := rfl
@[simp] theorem State.modHere_flashNext (s : State) (f : Core → Core) : (s.modHere f).flashNext = s.flashNext := rfl
@[simp] theorem State.modHere_retries (s : State) (f : Core → Core) : (s.modHere f).retries = s.retries := rfl
@[simp] theorem State.modHere_alerts (s : State) (f : Core → Core) : (s.modHere f).alerts = s.alerts := rfl

@[simp] theorem State.modCx_cur (s : State) (f : Context → Context) : (s.modCx f).cur = s.cur := rfl
@[simp] theorem State.modCx_ev (s : State) (f : Context → Context) : (s.modCx f).ev = s.ev := rfl
@[simp] theorem State.modCx_agenda (s : State) (f : Context → Context) : (s.modCx f).agenda = s.agenda := rfl
@[simp] theorem State.modCx_timed (s : State) (f : Context → Context) : (s.modCx f).timed = s.timed := rfl
@[simp] theorem State.modCx_ticks (s : State) (f : Context → Context) : (s.modCx f).ticks = s.ticks := rfl
@[simp] theorem State.modCx_turn (s : State) (f : Context → Context) : (s.modCx f).turn = s.turn := rfl
@[simp] theorem State.modCx_fresh (s : State) (f : Context → Context) : (s.modCx f).fresh = s.fresh := rfl
@[simp] theorem State.modCx_nextId (s : State) (f : Context → Context) : (s.modCx f).nextId = s.nextId := rfl
@[simp] theorem State.modCx_saved (s : State) (f : Context → Context) : (s.modCx f).saved = s.saved := rfl
@[simp] theorem State.modCx_savedBeds (s : State) (f : Context → Context) : (s.modCx f).savedBeds = s.savedBeds := rfl
@[simp] theorem State.modCx_beds (s : State) (f : Context → Context) : (s.modCx f).beds = s.beds := rfl
@[simp] theorem State.modCx_groups (s : State) (f : Context → Context) : (s.modCx f).groups = s.groups := rfl
@[simp] theorem State.modCx_mem (s : State) (f : Context → Context) : (s.modCx f).mem = s.mem := rfl
@[simp] theorem State.modCx_poison (s : State) (f : Context → Context) : (s.modCx f).poison = s.poison := rfl
@[simp] theorem State.modCx_msgs (s : State) (f : Context → Context) : (s.modCx f).msgs = s.msgs := rfl
@[simp] theorem State.modCx_copies (s : State) (f : Context → Context) : (s.modCx f).copies = s.copies := rfl
@[simp] theorem State.modCx_tlb (s : State) (f : Context → Context) : (s.modCx f).tlb = s.tlb := rfl
@[simp] theorem State.modCx_pageGroups (s : State) (f : Context → Context) : (s.modCx f).pageGroups = s.pageGroups := rfl
@[simp] theorem State.modCx_pageWaits (s : State) (f : Context → Context) : (s.modCx f).pageWaits = s.pageWaits := rfl
@[simp] theorem State.modCx_answered (s : State) (f : Context → Context) : (s.modCx f).answered = s.answered := rfl
@[simp] theorem State.modCx_denied (s : State) (f : Context → Context) : (s.modCx f).denied = s.denied := rfl
@[simp] theorem State.modCx_pasidSeen (s : State) (f : Context → Context) : (s.modCx f).pasidSeen = s.pasidSeen := rfl
@[simp] theorem State.modCx_atsAsked (s : State) (f : Context → Context) : (s.modCx f).atsAsked = s.atsAsked := rfl
@[simp] theorem State.modCx_atsDenied (s : State) (f : Context → Context) : (s.modCx f).atsDenied = s.atsDenied := rfl
@[simp] theorem State.modCx_walks (s : State) (f : Context → Context) : (s.modCx f).walks = s.walks := rfl
@[simp] theorem State.modCx_rakes (s : State) (f : Context → Context) : (s.modCx f).rakes = s.rakes := rfl
@[simp] theorem State.modCx_chams (s : State) (f : Context → Context) : (s.modCx f).chams = s.chams := rfl
@[simp] theorem State.modCx_homes (s : State) (f : Context → Context) : (s.modCx f).homes = s.homes := rfl
@[simp] theorem State.modCx_rays (s : State) (f : Context → Context) : (s.modCx f).rays = s.rays := rfl
@[simp] theorem State.modCx_pageIns (s : State) (f : Context → Context) : (s.modCx f).pageIns = s.pageIns := rfl
@[simp] theorem State.modCx_launches (s : State) (f : Context → Context) : (s.modCx f).launches = s.launches := rfl
@[simp] theorem State.modCx_seqs (s : State) (f : Context → Context) : (s.modCx f).seqs = s.seqs := rfl
@[simp] theorem State.modCx_channels (s : State) (f : Context → Context) : (s.modCx f).channels = s.channels := rfl
@[simp] theorem State.modCx_lastSrc (s : State) (f : Context → Context) : (s.modCx f).lastSrc = s.lastSrc := rfl
@[simp] theorem State.modCx_selected (s : State) (f : Context → Context) : (s.modCx f).selected = s.selected := rfl
@[simp] theorem State.modCx_grants (s : State) (f : Context → Context) : (s.modCx f).grants = s.grants := rfl
@[simp] theorem State.modCx_serials (s : State) (f : Context → Context) : (s.modCx f).serials = s.serials := rfl
@[simp] theorem State.modCx_saves (s : State) (f : Context → Context) : (s.modCx f).saves = s.saves := rfl
@[simp] theorem State.modCx_hostRegs (s : State) (f : Context → Context) : (s.modCx f).hostRegs = s.hostRegs := rfl
@[simp] theorem State.modCx_invals (s : State) (f : Context → Context) : (s.modCx f).invals = s.invals := rfl
@[simp] theorem State.modCx_msix (s : State) (f : Context → Context) : (s.modCx f).msix = s.msix := rfl
@[simp] theorem State.modCx_lenbo (s : State) (f : Context → Context) : (s.modCx f).lenbo = s.lenbo := rfl
@[simp] theorem State.modCx_mgmt (s : State) (f : Context → Context) : (s.modCx f).mgmt = s.mgmt := rfl
@[simp] theorem State.modCx_spdm (s : State) (f : Context → Context) : (s.modCx f).spdm = s.spdm := rfl
@[simp] theorem State.modCx_power (s : State) (f : Context → Context) : (s.modCx f).power = s.power := rfl
@[simp] theorem State.modCx_deviceKey (s : State) (f : Context → Context) : (s.modCx f).deviceKey = s.deviceKey := rfl
@[simp] theorem State.modCx_attestKey (s : State) (f : Context → Context) : (s.modCx f).attestKey = s.attestKey := rfl
@[simp] theorem State.modCx_poweredAt (s : State) (f : Context → Context) : (s.modCx f).poweredAt = s.poweredAt := rfl
@[simp] theorem State.modCx_flash (s : State) (f : Context → Context) : (s.modCx f).flash = s.flash := rfl
@[simp] theorem State.modCx_flashNext (s : State) (f : Context → Context) : (s.modCx f).flashNext = s.flashNext := rfl
@[simp] theorem State.modCx_retries (s : State) (f : Context → Context) : (s.modCx f).retries = s.retries := rfl
@[simp] theorem State.modCx_alerts (s : State) (f : Context → Context) : (s.modCx f).alerts = s.alerts := rfl

@[simp] theorem State.setG_cur (s : State) (r : Fin 32) (x : Word) (m : Bool) : (s.setG r x m).cur = s.cur := rfl
@[simp] theorem State.setG_ev (s : State) (r : Fin 32) (x : Word) (m : Bool) : (s.setG r x m).ev = s.ev := rfl
@[simp] theorem State.setG_agenda (s : State) (r : Fin 32) (x : Word) (m : Bool) : (s.setG r x m).agenda = s.agenda := rfl
@[simp] theorem State.setG_timed (s : State) (r : Fin 32) (x : Word) (m : Bool) : (s.setG r x m).timed = s.timed := rfl
@[simp] theorem State.setG_ticks (s : State) (r : Fin 32) (x : Word) (m : Bool) : (s.setG r x m).ticks = s.ticks := rfl
@[simp] theorem State.setG_turn (s : State) (r : Fin 32) (x : Word) (m : Bool) : (s.setG r x m).turn = s.turn := rfl
@[simp] theorem State.setG_fresh (s : State) (r : Fin 32) (x : Word) (m : Bool) : (s.setG r x m).fresh = s.fresh := rfl
@[simp] theorem State.setG_nextId (s : State) (r : Fin 32) (x : Word) (m : Bool) : (s.setG r x m).nextId = s.nextId := rfl
@[simp] theorem State.setG_saved (s : State) (r : Fin 32) (x : Word) (m : Bool) : (s.setG r x m).saved = s.saved := rfl
@[simp] theorem State.setG_savedBeds (s : State) (r : Fin 32) (x : Word) (m : Bool) : (s.setG r x m).savedBeds = s.savedBeds := rfl
@[simp] theorem State.setG_beds (s : State) (r : Fin 32) (x : Word) (m : Bool) : (s.setG r x m).beds = s.beds := rfl
@[simp] theorem State.setG_groups (s : State) (r : Fin 32) (x : Word) (m : Bool) : (s.setG r x m).groups = s.groups := rfl
@[simp] theorem State.setG_mem (s : State) (r : Fin 32) (x : Word) (m : Bool) : (s.setG r x m).mem = s.mem := rfl
@[simp] theorem State.setG_poison (s : State) (r : Fin 32) (x : Word) (m : Bool) : (s.setG r x m).poison = s.poison := rfl
@[simp] theorem State.setG_msgs (s : State) (r : Fin 32) (x : Word) (m : Bool) : (s.setG r x m).msgs = s.msgs := rfl
@[simp] theorem State.setG_copies (s : State) (r : Fin 32) (x : Word) (m : Bool) : (s.setG r x m).copies = s.copies := rfl
@[simp] theorem State.setG_tlb (s : State) (r : Fin 32) (x : Word) (m : Bool) : (s.setG r x m).tlb = s.tlb := rfl
@[simp] theorem State.setG_pageGroups (s : State) (r : Fin 32) (x : Word) (m : Bool) : (s.setG r x m).pageGroups = s.pageGroups := rfl
@[simp] theorem State.setG_pageWaits (s : State) (r : Fin 32) (x : Word) (m : Bool) : (s.setG r x m).pageWaits = s.pageWaits := rfl
@[simp] theorem State.setG_answered (s : State) (r : Fin 32) (x : Word) (m : Bool) : (s.setG r x m).answered = s.answered := rfl
@[simp] theorem State.setG_denied (s : State) (r : Fin 32) (x : Word) (m : Bool) : (s.setG r x m).denied = s.denied := rfl
@[simp] theorem State.setG_pasidSeen (s : State) (r : Fin 32) (x : Word) (m : Bool) : (s.setG r x m).pasidSeen = s.pasidSeen := rfl
@[simp] theorem State.setG_atsAsked (s : State) (r : Fin 32) (x : Word) (m : Bool) : (s.setG r x m).atsAsked = s.atsAsked := rfl
@[simp] theorem State.setG_atsDenied (s : State) (r : Fin 32) (x : Word) (m : Bool) : (s.setG r x m).atsDenied = s.atsDenied := rfl
@[simp] theorem State.setG_walks (s : State) (r : Fin 32) (x : Word) (m : Bool) : (s.setG r x m).walks = s.walks := rfl
@[simp] theorem State.setG_rakes (s : State) (r : Fin 32) (x : Word) (m : Bool) : (s.setG r x m).rakes = s.rakes := rfl
@[simp] theorem State.setG_chams (s : State) (r : Fin 32) (x : Word) (m : Bool) : (s.setG r x m).chams = s.chams := rfl
@[simp] theorem State.setG_homes (s : State) (r : Fin 32) (x : Word) (m : Bool) : (s.setG r x m).homes = s.homes := rfl
@[simp] theorem State.setG_rays (s : State) (r : Fin 32) (x : Word) (m : Bool) : (s.setG r x m).rays = s.rays := rfl
@[simp] theorem State.setG_pageIns (s : State) (r : Fin 32) (x : Word) (m : Bool) : (s.setG r x m).pageIns = s.pageIns := rfl
@[simp] theorem State.setG_launches (s : State) (r : Fin 32) (x : Word) (m : Bool) : (s.setG r x m).launches = s.launches := rfl
@[simp] theorem State.setG_seqs (s : State) (r : Fin 32) (x : Word) (m : Bool) : (s.setG r x m).seqs = s.seqs := rfl
@[simp] theorem State.setG_channels (s : State) (r : Fin 32) (x : Word) (m : Bool) : (s.setG r x m).channels = s.channels := rfl
@[simp] theorem State.setG_lastSrc (s : State) (r : Fin 32) (x : Word) (m : Bool) : (s.setG r x m).lastSrc = s.lastSrc := rfl
@[simp] theorem State.setG_selected (s : State) (r : Fin 32) (x : Word) (m : Bool) : (s.setG r x m).selected = s.selected := rfl
@[simp] theorem State.setG_grants (s : State) (r : Fin 32) (x : Word) (m : Bool) : (s.setG r x m).grants = s.grants := rfl
@[simp] theorem State.setG_serials (s : State) (r : Fin 32) (x : Word) (m : Bool) : (s.setG r x m).serials = s.serials := rfl
@[simp] theorem State.setG_saves (s : State) (r : Fin 32) (x : Word) (m : Bool) : (s.setG r x m).saves = s.saves := rfl
@[simp] theorem State.setG_hostRegs (s : State) (r : Fin 32) (x : Word) (m : Bool) : (s.setG r x m).hostRegs = s.hostRegs := rfl
@[simp] theorem State.setG_invals (s : State) (r : Fin 32) (x : Word) (m : Bool) : (s.setG r x m).invals = s.invals := rfl
@[simp] theorem State.setG_msix (s : State) (r : Fin 32) (x : Word) (m : Bool) : (s.setG r x m).msix = s.msix := rfl
@[simp] theorem State.setG_lenbo (s : State) (r : Fin 32) (x : Word) (m : Bool) : (s.setG r x m).lenbo = s.lenbo := rfl
@[simp] theorem State.setG_mgmt (s : State) (r : Fin 32) (x : Word) (m : Bool) : (s.setG r x m).mgmt = s.mgmt := rfl
@[simp] theorem State.setG_spdm (s : State) (r : Fin 32) (x : Word) (m : Bool) : (s.setG r x m).spdm = s.spdm := rfl
@[simp] theorem State.setG_power (s : State) (r : Fin 32) (x : Word) (m : Bool) : (s.setG r x m).power = s.power := rfl
@[simp] theorem State.setG_deviceKey (s : State) (r : Fin 32) (x : Word) (m : Bool) : (s.setG r x m).deviceKey = s.deviceKey := rfl
@[simp] theorem State.setG_attestKey (s : State) (r : Fin 32) (x : Word) (m : Bool) : (s.setG r x m).attestKey = s.attestKey := rfl
@[simp] theorem State.setG_poweredAt (s : State) (r : Fin 32) (x : Word) (m : Bool) : (s.setG r x m).poweredAt = s.poweredAt := rfl
@[simp] theorem State.setG_flash (s : State) (r : Fin 32) (x : Word) (m : Bool) : (s.setG r x m).flash = s.flash := rfl
@[simp] theorem State.setG_flashNext (s : State) (r : Fin 32) (x : Word) (m : Bool) : (s.setG r x m).flashNext = s.flashNext := rfl
@[simp] theorem State.setG_retries (s : State) (r : Fin 32) (x : Word) (m : Bool) : (s.setG r x m).retries = s.retries := rfl
@[simp] theorem State.setG_alerts (s : State) (r : Fin 32) (x : Word) (m : Bool) : (s.setG r x m).alerts = s.alerts := rfl

@[simp] theorem State.setV_cur (s : State) (r : Fin 32) (l : Mask) (x : VReg) (m : Mask) : (s.setV r l x m).cur = s.cur := rfl
@[simp] theorem State.setV_ev (s : State) (r : Fin 32) (l : Mask) (x : VReg) (m : Mask) : (s.setV r l x m).ev = s.ev := rfl
@[simp] theorem State.setV_agenda (s : State) (r : Fin 32) (l : Mask) (x : VReg) (m : Mask) : (s.setV r l x m).agenda = s.agenda := rfl
@[simp] theorem State.setV_timed (s : State) (r : Fin 32) (l : Mask) (x : VReg) (m : Mask) : (s.setV r l x m).timed = s.timed := rfl
@[simp] theorem State.setV_ticks (s : State) (r : Fin 32) (l : Mask) (x : VReg) (m : Mask) : (s.setV r l x m).ticks = s.ticks := rfl
@[simp] theorem State.setV_turn (s : State) (r : Fin 32) (l : Mask) (x : VReg) (m : Mask) : (s.setV r l x m).turn = s.turn := rfl
@[simp] theorem State.setV_fresh (s : State) (r : Fin 32) (l : Mask) (x : VReg) (m : Mask) : (s.setV r l x m).fresh = s.fresh := rfl
@[simp] theorem State.setV_nextId (s : State) (r : Fin 32) (l : Mask) (x : VReg) (m : Mask) : (s.setV r l x m).nextId = s.nextId := rfl
@[simp] theorem State.setV_saved (s : State) (r : Fin 32) (l : Mask) (x : VReg) (m : Mask) : (s.setV r l x m).saved = s.saved := rfl
@[simp] theorem State.setV_savedBeds (s : State) (r : Fin 32) (l : Mask) (x : VReg) (m : Mask) : (s.setV r l x m).savedBeds = s.savedBeds := rfl
@[simp] theorem State.setV_beds (s : State) (r : Fin 32) (l : Mask) (x : VReg) (m : Mask) : (s.setV r l x m).beds = s.beds := rfl
@[simp] theorem State.setV_groups (s : State) (r : Fin 32) (l : Mask) (x : VReg) (m : Mask) : (s.setV r l x m).groups = s.groups := rfl
@[simp] theorem State.setV_mem (s : State) (r : Fin 32) (l : Mask) (x : VReg) (m : Mask) : (s.setV r l x m).mem = s.mem := rfl
@[simp] theorem State.setV_poison (s : State) (r : Fin 32) (l : Mask) (x : VReg) (m : Mask) : (s.setV r l x m).poison = s.poison := rfl
@[simp] theorem State.setV_msgs (s : State) (r : Fin 32) (l : Mask) (x : VReg) (m : Mask) : (s.setV r l x m).msgs = s.msgs := rfl
@[simp] theorem State.setV_copies (s : State) (r : Fin 32) (l : Mask) (x : VReg) (m : Mask) : (s.setV r l x m).copies = s.copies := rfl
@[simp] theorem State.setV_tlb (s : State) (r : Fin 32) (l : Mask) (x : VReg) (m : Mask) : (s.setV r l x m).tlb = s.tlb := rfl
@[simp] theorem State.setV_pageGroups (s : State) (r : Fin 32) (l : Mask) (x : VReg) (m : Mask) : (s.setV r l x m).pageGroups = s.pageGroups := rfl
@[simp] theorem State.setV_pageWaits (s : State) (r : Fin 32) (l : Mask) (x : VReg) (m : Mask) : (s.setV r l x m).pageWaits = s.pageWaits := rfl
@[simp] theorem State.setV_answered (s : State) (r : Fin 32) (l : Mask) (x : VReg) (m : Mask) : (s.setV r l x m).answered = s.answered := rfl
@[simp] theorem State.setV_denied (s : State) (r : Fin 32) (l : Mask) (x : VReg) (m : Mask) : (s.setV r l x m).denied = s.denied := rfl
@[simp] theorem State.setV_pasidSeen (s : State) (r : Fin 32) (l : Mask) (x : VReg) (m : Mask) : (s.setV r l x m).pasidSeen = s.pasidSeen := rfl
@[simp] theorem State.setV_atsAsked (s : State) (r : Fin 32) (l : Mask) (x : VReg) (m : Mask) : (s.setV r l x m).atsAsked = s.atsAsked := rfl
@[simp] theorem State.setV_atsDenied (s : State) (r : Fin 32) (l : Mask) (x : VReg) (m : Mask) : (s.setV r l x m).atsDenied = s.atsDenied := rfl
@[simp] theorem State.setV_walks (s : State) (r : Fin 32) (l : Mask) (x : VReg) (m : Mask) : (s.setV r l x m).walks = s.walks := rfl
@[simp] theorem State.setV_rakes (s : State) (r : Fin 32) (l : Mask) (x : VReg) (m : Mask) : (s.setV r l x m).rakes = s.rakes := rfl
@[simp] theorem State.setV_chams (s : State) (r : Fin 32) (l : Mask) (x : VReg) (m : Mask) : (s.setV r l x m).chams = s.chams := rfl
@[simp] theorem State.setV_homes (s : State) (r : Fin 32) (l : Mask) (x : VReg) (m : Mask) : (s.setV r l x m).homes = s.homes := rfl
@[simp] theorem State.setV_rays (s : State) (r : Fin 32) (l : Mask) (x : VReg) (m : Mask) : (s.setV r l x m).rays = s.rays := rfl
@[simp] theorem State.setV_pageIns (s : State) (r : Fin 32) (l : Mask) (x : VReg) (m : Mask) : (s.setV r l x m).pageIns = s.pageIns := rfl
@[simp] theorem State.setV_launches (s : State) (r : Fin 32) (l : Mask) (x : VReg) (m : Mask) : (s.setV r l x m).launches = s.launches := rfl
@[simp] theorem State.setV_seqs (s : State) (r : Fin 32) (l : Mask) (x : VReg) (m : Mask) : (s.setV r l x m).seqs = s.seqs := rfl
@[simp] theorem State.setV_channels (s : State) (r : Fin 32) (l : Mask) (x : VReg) (m : Mask) : (s.setV r l x m).channels = s.channels := rfl
@[simp] theorem State.setV_lastSrc (s : State) (r : Fin 32) (l : Mask) (x : VReg) (m : Mask) : (s.setV r l x m).lastSrc = s.lastSrc := rfl
@[simp] theorem State.setV_selected (s : State) (r : Fin 32) (l : Mask) (x : VReg) (m : Mask) : (s.setV r l x m).selected = s.selected := rfl
@[simp] theorem State.setV_grants (s : State) (r : Fin 32) (l : Mask) (x : VReg) (m : Mask) : (s.setV r l x m).grants = s.grants := rfl
@[simp] theorem State.setV_serials (s : State) (r : Fin 32) (l : Mask) (x : VReg) (m : Mask) : (s.setV r l x m).serials = s.serials := rfl
@[simp] theorem State.setV_saves (s : State) (r : Fin 32) (l : Mask) (x : VReg) (m : Mask) : (s.setV r l x m).saves = s.saves := rfl
@[simp] theorem State.setV_hostRegs (s : State) (r : Fin 32) (l : Mask) (x : VReg) (m : Mask) : (s.setV r l x m).hostRegs = s.hostRegs := rfl
@[simp] theorem State.setV_invals (s : State) (r : Fin 32) (l : Mask) (x : VReg) (m : Mask) : (s.setV r l x m).invals = s.invals := rfl
@[simp] theorem State.setV_msix (s : State) (r : Fin 32) (l : Mask) (x : VReg) (m : Mask) : (s.setV r l x m).msix = s.msix := rfl
@[simp] theorem State.setV_lenbo (s : State) (r : Fin 32) (l : Mask) (x : VReg) (m : Mask) : (s.setV r l x m).lenbo = s.lenbo := rfl
@[simp] theorem State.setV_mgmt (s : State) (r : Fin 32) (l : Mask) (x : VReg) (m : Mask) : (s.setV r l x m).mgmt = s.mgmt := rfl
@[simp] theorem State.setV_spdm (s : State) (r : Fin 32) (l : Mask) (x : VReg) (m : Mask) : (s.setV r l x m).spdm = s.spdm := rfl
@[simp] theorem State.setV_power (s : State) (r : Fin 32) (l : Mask) (x : VReg) (m : Mask) : (s.setV r l x m).power = s.power := rfl
@[simp] theorem State.setV_deviceKey (s : State) (r : Fin 32) (l : Mask) (x : VReg) (m : Mask) : (s.setV r l x m).deviceKey = s.deviceKey := rfl
@[simp] theorem State.setV_attestKey (s : State) (r : Fin 32) (l : Mask) (x : VReg) (m : Mask) : (s.setV r l x m).attestKey = s.attestKey := rfl
@[simp] theorem State.setV_poweredAt (s : State) (r : Fin 32) (l : Mask) (x : VReg) (m : Mask) : (s.setV r l x m).poweredAt = s.poweredAt := rfl
@[simp] theorem State.setV_flash (s : State) (r : Fin 32) (l : Mask) (x : VReg) (m : Mask) : (s.setV r l x m).flash = s.flash := rfl
@[simp] theorem State.setV_flashNext (s : State) (r : Fin 32) (l : Mask) (x : VReg) (m : Mask) : (s.setV r l x m).flashNext = s.flashNext := rfl
@[simp] theorem State.setV_retries (s : State) (r : Fin 32) (l : Mask) (x : VReg) (m : Mask) : (s.setV r l x m).retries = s.retries := rfl
@[simp] theorem State.setV_alerts (s : State) (r : Fin 32) (l : Mask) (x : VReg) (m : Mask) : (s.setV r l x m).alerts = s.alerts := rfl

@[simp] theorem State.setP_cur (s : State) (r : Fin 8) (l x : Mask) : (s.setP r l x).cur = s.cur := rfl
@[simp] theorem State.setP_ev (s : State) (r : Fin 8) (l x : Mask) : (s.setP r l x).ev = s.ev := rfl
@[simp] theorem State.setP_agenda (s : State) (r : Fin 8) (l x : Mask) : (s.setP r l x).agenda = s.agenda := rfl
@[simp] theorem State.setP_timed (s : State) (r : Fin 8) (l x : Mask) : (s.setP r l x).timed = s.timed := rfl
@[simp] theorem State.setP_ticks (s : State) (r : Fin 8) (l x : Mask) : (s.setP r l x).ticks = s.ticks := rfl
@[simp] theorem State.setP_turn (s : State) (r : Fin 8) (l x : Mask) : (s.setP r l x).turn = s.turn := rfl
@[simp] theorem State.setP_fresh (s : State) (r : Fin 8) (l x : Mask) : (s.setP r l x).fresh = s.fresh := rfl
@[simp] theorem State.setP_nextId (s : State) (r : Fin 8) (l x : Mask) : (s.setP r l x).nextId = s.nextId := rfl
@[simp] theorem State.setP_saved (s : State) (r : Fin 8) (l x : Mask) : (s.setP r l x).saved = s.saved := rfl
@[simp] theorem State.setP_savedBeds (s : State) (r : Fin 8) (l x : Mask) : (s.setP r l x).savedBeds = s.savedBeds := rfl
@[simp] theorem State.setP_beds (s : State) (r : Fin 8) (l x : Mask) : (s.setP r l x).beds = s.beds := rfl
@[simp] theorem State.setP_groups (s : State) (r : Fin 8) (l x : Mask) : (s.setP r l x).groups = s.groups := rfl
@[simp] theorem State.setP_mem (s : State) (r : Fin 8) (l x : Mask) : (s.setP r l x).mem = s.mem := rfl
@[simp] theorem State.setP_poison (s : State) (r : Fin 8) (l x : Mask) : (s.setP r l x).poison = s.poison := rfl
@[simp] theorem State.setP_msgs (s : State) (r : Fin 8) (l x : Mask) : (s.setP r l x).msgs = s.msgs := rfl
@[simp] theorem State.setP_copies (s : State) (r : Fin 8) (l x : Mask) : (s.setP r l x).copies = s.copies := rfl
@[simp] theorem State.setP_tlb (s : State) (r : Fin 8) (l x : Mask) : (s.setP r l x).tlb = s.tlb := rfl
@[simp] theorem State.setP_pageGroups (s : State) (r : Fin 8) (l x : Mask) : (s.setP r l x).pageGroups = s.pageGroups := rfl
@[simp] theorem State.setP_pageWaits (s : State) (r : Fin 8) (l x : Mask) : (s.setP r l x).pageWaits = s.pageWaits := rfl
@[simp] theorem State.setP_answered (s : State) (r : Fin 8) (l x : Mask) : (s.setP r l x).answered = s.answered := rfl
@[simp] theorem State.setP_denied (s : State) (r : Fin 8) (l x : Mask) : (s.setP r l x).denied = s.denied := rfl
@[simp] theorem State.setP_pasidSeen (s : State) (r : Fin 8) (l x : Mask) : (s.setP r l x).pasidSeen = s.pasidSeen := rfl
@[simp] theorem State.setP_atsAsked (s : State) (r : Fin 8) (l x : Mask) : (s.setP r l x).atsAsked = s.atsAsked := rfl
@[simp] theorem State.setP_atsDenied (s : State) (r : Fin 8) (l x : Mask) : (s.setP r l x).atsDenied = s.atsDenied := rfl
@[simp] theorem State.setP_walks (s : State) (r : Fin 8) (l x : Mask) : (s.setP r l x).walks = s.walks := rfl
@[simp] theorem State.setP_rakes (s : State) (r : Fin 8) (l x : Mask) : (s.setP r l x).rakes = s.rakes := rfl
@[simp] theorem State.setP_chams (s : State) (r : Fin 8) (l x : Mask) : (s.setP r l x).chams = s.chams := rfl
@[simp] theorem State.setP_homes (s : State) (r : Fin 8) (l x : Mask) : (s.setP r l x).homes = s.homes := rfl
@[simp] theorem State.setP_rays (s : State) (r : Fin 8) (l x : Mask) : (s.setP r l x).rays = s.rays := rfl
@[simp] theorem State.setP_pageIns (s : State) (r : Fin 8) (l x : Mask) : (s.setP r l x).pageIns = s.pageIns := rfl
@[simp] theorem State.setP_launches (s : State) (r : Fin 8) (l x : Mask) : (s.setP r l x).launches = s.launches := rfl
@[simp] theorem State.setP_seqs (s : State) (r : Fin 8) (l x : Mask) : (s.setP r l x).seqs = s.seqs := rfl
@[simp] theorem State.setP_channels (s : State) (r : Fin 8) (l x : Mask) : (s.setP r l x).channels = s.channels := rfl
@[simp] theorem State.setP_lastSrc (s : State) (r : Fin 8) (l x : Mask) : (s.setP r l x).lastSrc = s.lastSrc := rfl
@[simp] theorem State.setP_selected (s : State) (r : Fin 8) (l x : Mask) : (s.setP r l x).selected = s.selected := rfl
@[simp] theorem State.setP_grants (s : State) (r : Fin 8) (l x : Mask) : (s.setP r l x).grants = s.grants := rfl
@[simp] theorem State.setP_serials (s : State) (r : Fin 8) (l x : Mask) : (s.setP r l x).serials = s.serials := rfl
@[simp] theorem State.setP_saves (s : State) (r : Fin 8) (l x : Mask) : (s.setP r l x).saves = s.saves := rfl
@[simp] theorem State.setP_hostRegs (s : State) (r : Fin 8) (l x : Mask) : (s.setP r l x).hostRegs = s.hostRegs := rfl
@[simp] theorem State.setP_invals (s : State) (r : Fin 8) (l x : Mask) : (s.setP r l x).invals = s.invals := rfl
@[simp] theorem State.setP_msix (s : State) (r : Fin 8) (l x : Mask) : (s.setP r l x).msix = s.msix := rfl
@[simp] theorem State.setP_lenbo (s : State) (r : Fin 8) (l x : Mask) : (s.setP r l x).lenbo = s.lenbo := rfl
@[simp] theorem State.setP_mgmt (s : State) (r : Fin 8) (l x : Mask) : (s.setP r l x).mgmt = s.mgmt := rfl
@[simp] theorem State.setP_spdm (s : State) (r : Fin 8) (l x : Mask) : (s.setP r l x).spdm = s.spdm := rfl
@[simp] theorem State.setP_power (s : State) (r : Fin 8) (l x : Mask) : (s.setP r l x).power = s.power := rfl
@[simp] theorem State.setP_deviceKey (s : State) (r : Fin 8) (l x : Mask) : (s.setP r l x).deviceKey = s.deviceKey := rfl
@[simp] theorem State.setP_attestKey (s : State) (r : Fin 8) (l x : Mask) : (s.setP r l x).attestKey = s.attestKey := rfl
@[simp] theorem State.setP_poweredAt (s : State) (r : Fin 8) (l x : Mask) : (s.setP r l x).poweredAt = s.poweredAt := rfl
@[simp] theorem State.setP_flash (s : State) (r : Fin 8) (l x : Mask) : (s.setP r l x).flash = s.flash := rfl
@[simp] theorem State.setP_flashNext (s : State) (r : Fin 8) (l x : Mask) : (s.setP r l x).flashNext = s.flashNext := rfl
@[simp] theorem State.setP_retries (s : State) (r : Fin 8) (l x : Mask) : (s.setP r l x).retries = s.retries := rfl
@[simp] theorem State.setP_alerts (s : State) (r : Fin 8) (l x : Mask) : (s.setP r l x).alerts = s.alerts := rfl

@[simp] theorem State.setPc_cur (s : State) (a : Off) : (s.setPc a).cur = s.cur := rfl
@[simp] theorem State.setPc_ev (s : State) (a : Off) : (s.setPc a).ev = s.ev := rfl
@[simp] theorem State.setPc_agenda (s : State) (a : Off) : (s.setPc a).agenda = s.agenda := rfl
@[simp] theorem State.setPc_timed (s : State) (a : Off) : (s.setPc a).timed = s.timed := rfl
@[simp] theorem State.setPc_ticks (s : State) (a : Off) : (s.setPc a).ticks = s.ticks := rfl
@[simp] theorem State.setPc_turn (s : State) (a : Off) : (s.setPc a).turn = s.turn := rfl
@[simp] theorem State.setPc_fresh (s : State) (a : Off) : (s.setPc a).fresh = s.fresh := rfl
@[simp] theorem State.setPc_nextId (s : State) (a : Off) : (s.setPc a).nextId = s.nextId := rfl
@[simp] theorem State.setPc_saved (s : State) (a : Off) : (s.setPc a).saved = s.saved := rfl
@[simp] theorem State.setPc_savedBeds (s : State) (a : Off) : (s.setPc a).savedBeds = s.savedBeds := rfl
@[simp] theorem State.setPc_beds (s : State) (a : Off) : (s.setPc a).beds = s.beds := rfl
@[simp] theorem State.setPc_groups (s : State) (a : Off) : (s.setPc a).groups = s.groups := rfl
@[simp] theorem State.setPc_mem (s : State) (a : Off) : (s.setPc a).mem = s.mem := rfl
@[simp] theorem State.setPc_poison (s : State) (a : Off) : (s.setPc a).poison = s.poison := rfl
@[simp] theorem State.setPc_msgs (s : State) (a : Off) : (s.setPc a).msgs = s.msgs := rfl
@[simp] theorem State.setPc_copies (s : State) (a : Off) : (s.setPc a).copies = s.copies := rfl
@[simp] theorem State.setPc_tlb (s : State) (a : Off) : (s.setPc a).tlb = s.tlb := rfl
@[simp] theorem State.setPc_pageGroups (s : State) (a : Off) : (s.setPc a).pageGroups = s.pageGroups := rfl
@[simp] theorem State.setPc_pageWaits (s : State) (a : Off) : (s.setPc a).pageWaits = s.pageWaits := rfl
@[simp] theorem State.setPc_answered (s : State) (a : Off) : (s.setPc a).answered = s.answered := rfl
@[simp] theorem State.setPc_denied (s : State) (a : Off) : (s.setPc a).denied = s.denied := rfl
@[simp] theorem State.setPc_pasidSeen (s : State) (a : Off) : (s.setPc a).pasidSeen = s.pasidSeen := rfl
@[simp] theorem State.setPc_atsAsked (s : State) (a : Off) : (s.setPc a).atsAsked = s.atsAsked := rfl
@[simp] theorem State.setPc_atsDenied (s : State) (a : Off) : (s.setPc a).atsDenied = s.atsDenied := rfl
@[simp] theorem State.setPc_walks (s : State) (a : Off) : (s.setPc a).walks = s.walks := rfl
@[simp] theorem State.setPc_rakes (s : State) (a : Off) : (s.setPc a).rakes = s.rakes := rfl
@[simp] theorem State.setPc_chams (s : State) (a : Off) : (s.setPc a).chams = s.chams := rfl
@[simp] theorem State.setPc_homes (s : State) (a : Off) : (s.setPc a).homes = s.homes := rfl
@[simp] theorem State.setPc_rays (s : State) (a : Off) : (s.setPc a).rays = s.rays := rfl
@[simp] theorem State.setPc_pageIns (s : State) (a : Off) : (s.setPc a).pageIns = s.pageIns := rfl
@[simp] theorem State.setPc_launches (s : State) (a : Off) : (s.setPc a).launches = s.launches := rfl
@[simp] theorem State.setPc_seqs (s : State) (a : Off) : (s.setPc a).seqs = s.seqs := rfl
@[simp] theorem State.setPc_channels (s : State) (a : Off) : (s.setPc a).channels = s.channels := rfl
@[simp] theorem State.setPc_lastSrc (s : State) (a : Off) : (s.setPc a).lastSrc = s.lastSrc := rfl
@[simp] theorem State.setPc_selected (s : State) (a : Off) : (s.setPc a).selected = s.selected := rfl
@[simp] theorem State.setPc_grants (s : State) (a : Off) : (s.setPc a).grants = s.grants := rfl
@[simp] theorem State.setPc_serials (s : State) (a : Off) : (s.setPc a).serials = s.serials := rfl
@[simp] theorem State.setPc_saves (s : State) (a : Off) : (s.setPc a).saves = s.saves := rfl
@[simp] theorem State.setPc_hostRegs (s : State) (a : Off) : (s.setPc a).hostRegs = s.hostRegs := rfl
@[simp] theorem State.setPc_invals (s : State) (a : Off) : (s.setPc a).invals = s.invals := rfl
@[simp] theorem State.setPc_msix (s : State) (a : Off) : (s.setPc a).msix = s.msix := rfl
@[simp] theorem State.setPc_lenbo (s : State) (a : Off) : (s.setPc a).lenbo = s.lenbo := rfl
@[simp] theorem State.setPc_mgmt (s : State) (a : Off) : (s.setPc a).mgmt = s.mgmt := rfl
@[simp] theorem State.setPc_spdm (s : State) (a : Off) : (s.setPc a).spdm = s.spdm := rfl
@[simp] theorem State.setPc_power (s : State) (a : Off) : (s.setPc a).power = s.power := rfl
@[simp] theorem State.setPc_deviceKey (s : State) (a : Off) : (s.setPc a).deviceKey = s.deviceKey := rfl
@[simp] theorem State.setPc_attestKey (s : State) (a : Off) : (s.setPc a).attestKey = s.attestKey := rfl
@[simp] theorem State.setPc_poweredAt (s : State) (a : Off) : (s.setPc a).poweredAt = s.poweredAt := rfl
@[simp] theorem State.setPc_flash (s : State) (a : Off) : (s.setPc a).flash = s.flash := rfl
@[simp] theorem State.setPc_flashNext (s : State) (a : Off) : (s.setPc a).flashNext = s.flashNext := rfl
@[simp] theorem State.setPc_retries (s : State) (a : Off) : (s.setPc a).retries = s.retries := rfl
@[simp] theorem State.setPc_alerts (s : State) (a : Off) : (s.setPc a).alerts = s.alerts := rfl

@[simp] theorem State.setMask_cur (s : State) (m : Mask) : (s.setMask m).cur = s.cur := rfl
@[simp] theorem State.setMask_ev (s : State) (m : Mask) : (s.setMask m).ev = s.ev := rfl
@[simp] theorem State.setMask_agenda (s : State) (m : Mask) : (s.setMask m).agenda = s.agenda := rfl
@[simp] theorem State.setMask_timed (s : State) (m : Mask) : (s.setMask m).timed = s.timed := rfl
@[simp] theorem State.setMask_ticks (s : State) (m : Mask) : (s.setMask m).ticks = s.ticks := rfl
@[simp] theorem State.setMask_turn (s : State) (m : Mask) : (s.setMask m).turn = s.turn := rfl
@[simp] theorem State.setMask_fresh (s : State) (m : Mask) : (s.setMask m).fresh = s.fresh := rfl
@[simp] theorem State.setMask_nextId (s : State) (m : Mask) : (s.setMask m).nextId = s.nextId := rfl
@[simp] theorem State.setMask_saved (s : State) (m : Mask) : (s.setMask m).saved = s.saved := rfl
@[simp] theorem State.setMask_savedBeds (s : State) (m : Mask) : (s.setMask m).savedBeds = s.savedBeds := rfl
@[simp] theorem State.setMask_beds (s : State) (m : Mask) : (s.setMask m).beds = s.beds := rfl
@[simp] theorem State.setMask_groups (s : State) (m : Mask) : (s.setMask m).groups = s.groups := rfl
@[simp] theorem State.setMask_mem (s : State) (m : Mask) : (s.setMask m).mem = s.mem := rfl
@[simp] theorem State.setMask_poison (s : State) (m : Mask) : (s.setMask m).poison = s.poison := rfl
@[simp] theorem State.setMask_msgs (s : State) (m : Mask) : (s.setMask m).msgs = s.msgs := rfl
@[simp] theorem State.setMask_copies (s : State) (m : Mask) : (s.setMask m).copies = s.copies := rfl
@[simp] theorem State.setMask_tlb (s : State) (m : Mask) : (s.setMask m).tlb = s.tlb := rfl
@[simp] theorem State.setMask_pageGroups (s : State) (m : Mask) : (s.setMask m).pageGroups = s.pageGroups := rfl
@[simp] theorem State.setMask_pageWaits (s : State) (m : Mask) : (s.setMask m).pageWaits = s.pageWaits := rfl
@[simp] theorem State.setMask_answered (s : State) (m : Mask) : (s.setMask m).answered = s.answered := rfl
@[simp] theorem State.setMask_denied (s : State) (m : Mask) : (s.setMask m).denied = s.denied := rfl
@[simp] theorem State.setMask_pasidSeen (s : State) (m : Mask) : (s.setMask m).pasidSeen = s.pasidSeen := rfl
@[simp] theorem State.setMask_atsAsked (s : State) (m : Mask) : (s.setMask m).atsAsked = s.atsAsked := rfl
@[simp] theorem State.setMask_atsDenied (s : State) (m : Mask) : (s.setMask m).atsDenied = s.atsDenied := rfl
@[simp] theorem State.setMask_walks (s : State) (m : Mask) : (s.setMask m).walks = s.walks := rfl
@[simp] theorem State.setMask_rakes (s : State) (m : Mask) : (s.setMask m).rakes = s.rakes := rfl
@[simp] theorem State.setMask_chams (s : State) (m : Mask) : (s.setMask m).chams = s.chams := rfl
@[simp] theorem State.setMask_homes (s : State) (m : Mask) : (s.setMask m).homes = s.homes := rfl
@[simp] theorem State.setMask_rays (s : State) (m : Mask) : (s.setMask m).rays = s.rays := rfl
@[simp] theorem State.setMask_pageIns (s : State) (m : Mask) : (s.setMask m).pageIns = s.pageIns := rfl
@[simp] theorem State.setMask_launches (s : State) (m : Mask) : (s.setMask m).launches = s.launches := rfl
@[simp] theorem State.setMask_seqs (s : State) (m : Mask) : (s.setMask m).seqs = s.seqs := rfl
@[simp] theorem State.setMask_channels (s : State) (m : Mask) : (s.setMask m).channels = s.channels := rfl
@[simp] theorem State.setMask_lastSrc (s : State) (m : Mask) : (s.setMask m).lastSrc = s.lastSrc := rfl
@[simp] theorem State.setMask_selected (s : State) (m : Mask) : (s.setMask m).selected = s.selected := rfl
@[simp] theorem State.setMask_grants (s : State) (m : Mask) : (s.setMask m).grants = s.grants := rfl
@[simp] theorem State.setMask_serials (s : State) (m : Mask) : (s.setMask m).serials = s.serials := rfl
@[simp] theorem State.setMask_saves (s : State) (m : Mask) : (s.setMask m).saves = s.saves := rfl
@[simp] theorem State.setMask_hostRegs (s : State) (m : Mask) : (s.setMask m).hostRegs = s.hostRegs := rfl
@[simp] theorem State.setMask_invals (s : State) (m : Mask) : (s.setMask m).invals = s.invals := rfl
@[simp] theorem State.setMask_msix (s : State) (m : Mask) : (s.setMask m).msix = s.msix := rfl
@[simp] theorem State.setMask_lenbo (s : State) (m : Mask) : (s.setMask m).lenbo = s.lenbo := rfl
@[simp] theorem State.setMask_mgmt (s : State) (m : Mask) : (s.setMask m).mgmt = s.mgmt := rfl
@[simp] theorem State.setMask_spdm (s : State) (m : Mask) : (s.setMask m).spdm = s.spdm := rfl
@[simp] theorem State.setMask_power (s : State) (m : Mask) : (s.setMask m).power = s.power := rfl
@[simp] theorem State.setMask_deviceKey (s : State) (m : Mask) : (s.setMask m).deviceKey = s.deviceKey := rfl
@[simp] theorem State.setMask_attestKey (s : State) (m : Mask) : (s.setMask m).attestKey = s.attestKey := rfl
@[simp] theorem State.setMask_poweredAt (s : State) (m : Mask) : (s.setMask m).poweredAt = s.poweredAt := rfl
@[simp] theorem State.setMask_flash (s : State) (m : Mask) : (s.setMask m).flash = s.flash := rfl
@[simp] theorem State.setMask_flashNext (s : State) (m : Mask) : (s.setMask m).flashNext = s.flashNext := rfl
@[simp] theorem State.setMask_retries (s : State) (m : Mask) : (s.setMask m).retries = s.retries := rfl
@[simp] theorem State.setMask_alerts (s : State) (m : Mask) : (s.setMask m).alerts = s.alerts := rfl

@[simp] theorem State.setFlow_cur (s : State) (f : Flow) : (s.setFlow f).cur = s.cur := rfl
@[simp] theorem State.setFlow_ev (s : State) (f : Flow) : (s.setFlow f).ev = s.ev := rfl
@[simp] theorem State.setFlow_agenda (s : State) (f : Flow) : (s.setFlow f).agenda = s.agenda := rfl
@[simp] theorem State.setFlow_timed (s : State) (f : Flow) : (s.setFlow f).timed = s.timed := rfl
@[simp] theorem State.setFlow_ticks (s : State) (f : Flow) : (s.setFlow f).ticks = s.ticks := rfl
@[simp] theorem State.setFlow_turn (s : State) (f : Flow) : (s.setFlow f).turn = s.turn := rfl
@[simp] theorem State.setFlow_fresh (s : State) (f : Flow) : (s.setFlow f).fresh = s.fresh := rfl
@[simp] theorem State.setFlow_nextId (s : State) (f : Flow) : (s.setFlow f).nextId = s.nextId := rfl
@[simp] theorem State.setFlow_saved (s : State) (f : Flow) : (s.setFlow f).saved = s.saved := rfl
@[simp] theorem State.setFlow_savedBeds (s : State) (f : Flow) : (s.setFlow f).savedBeds = s.savedBeds := rfl
@[simp] theorem State.setFlow_beds (s : State) (f : Flow) : (s.setFlow f).beds = s.beds := rfl
@[simp] theorem State.setFlow_groups (s : State) (f : Flow) : (s.setFlow f).groups = s.groups := rfl
@[simp] theorem State.setFlow_mem (s : State) (f : Flow) : (s.setFlow f).mem = s.mem := rfl
@[simp] theorem State.setFlow_poison (s : State) (f : Flow) : (s.setFlow f).poison = s.poison := rfl
@[simp] theorem State.setFlow_msgs (s : State) (f : Flow) : (s.setFlow f).msgs = s.msgs := rfl
@[simp] theorem State.setFlow_copies (s : State) (f : Flow) : (s.setFlow f).copies = s.copies := rfl
@[simp] theorem State.setFlow_tlb (s : State) (f : Flow) : (s.setFlow f).tlb = s.tlb := rfl
@[simp] theorem State.setFlow_pageGroups (s : State) (f : Flow) : (s.setFlow f).pageGroups = s.pageGroups := rfl
@[simp] theorem State.setFlow_pageWaits (s : State) (f : Flow) : (s.setFlow f).pageWaits = s.pageWaits := rfl
@[simp] theorem State.setFlow_answered (s : State) (f : Flow) : (s.setFlow f).answered = s.answered := rfl
@[simp] theorem State.setFlow_denied (s : State) (f : Flow) : (s.setFlow f).denied = s.denied := rfl
@[simp] theorem State.setFlow_pasidSeen (s : State) (f : Flow) : (s.setFlow f).pasidSeen = s.pasidSeen := rfl
@[simp] theorem State.setFlow_atsAsked (s : State) (f : Flow) : (s.setFlow f).atsAsked = s.atsAsked := rfl
@[simp] theorem State.setFlow_atsDenied (s : State) (f : Flow) : (s.setFlow f).atsDenied = s.atsDenied := rfl
@[simp] theorem State.setFlow_walks (s : State) (f : Flow) : (s.setFlow f).walks = s.walks := rfl
@[simp] theorem State.setFlow_rakes (s : State) (f : Flow) : (s.setFlow f).rakes = s.rakes := rfl
@[simp] theorem State.setFlow_chams (s : State) (f : Flow) : (s.setFlow f).chams = s.chams := rfl
@[simp] theorem State.setFlow_homes (s : State) (f : Flow) : (s.setFlow f).homes = s.homes := rfl
@[simp] theorem State.setFlow_rays (s : State) (f : Flow) : (s.setFlow f).rays = s.rays := rfl
@[simp] theorem State.setFlow_pageIns (s : State) (f : Flow) : (s.setFlow f).pageIns = s.pageIns := rfl
@[simp] theorem State.setFlow_launches (s : State) (f : Flow) : (s.setFlow f).launches = s.launches := rfl
@[simp] theorem State.setFlow_seqs (s : State) (f : Flow) : (s.setFlow f).seqs = s.seqs := rfl
@[simp] theorem State.setFlow_channels (s : State) (f : Flow) : (s.setFlow f).channels = s.channels := rfl
@[simp] theorem State.setFlow_lastSrc (s : State) (f : Flow) : (s.setFlow f).lastSrc = s.lastSrc := rfl
@[simp] theorem State.setFlow_selected (s : State) (f : Flow) : (s.setFlow f).selected = s.selected := rfl
@[simp] theorem State.setFlow_grants (s : State) (f : Flow) : (s.setFlow f).grants = s.grants := rfl
@[simp] theorem State.setFlow_serials (s : State) (f : Flow) : (s.setFlow f).serials = s.serials := rfl
@[simp] theorem State.setFlow_saves (s : State) (f : Flow) : (s.setFlow f).saves = s.saves := rfl
@[simp] theorem State.setFlow_hostRegs (s : State) (f : Flow) : (s.setFlow f).hostRegs = s.hostRegs := rfl
@[simp] theorem State.setFlow_invals (s : State) (f : Flow) : (s.setFlow f).invals = s.invals := rfl
@[simp] theorem State.setFlow_msix (s : State) (f : Flow) : (s.setFlow f).msix = s.msix := rfl
@[simp] theorem State.setFlow_lenbo (s : State) (f : Flow) : (s.setFlow f).lenbo = s.lenbo := rfl
@[simp] theorem State.setFlow_mgmt (s : State) (f : Flow) : (s.setFlow f).mgmt = s.mgmt := rfl
@[simp] theorem State.setFlow_spdm (s : State) (f : Flow) : (s.setFlow f).spdm = s.spdm := rfl
@[simp] theorem State.setFlow_power (s : State) (f : Flow) : (s.setFlow f).power = s.power := rfl
@[simp] theorem State.setFlow_deviceKey (s : State) (f : Flow) : (s.setFlow f).deviceKey = s.deviceKey := rfl
@[simp] theorem State.setFlow_attestKey (s : State) (f : Flow) : (s.setFlow f).attestKey = s.attestKey := rfl
@[simp] theorem State.setFlow_poweredAt (s : State) (f : Flow) : (s.setFlow f).poweredAt = s.poweredAt := rfl
@[simp] theorem State.setFlow_flash (s : State) (f : Flow) : (s.setFlow f).flash = s.flash := rfl
@[simp] theorem State.setFlow_flashNext (s : State) (f : Flow) : (s.setFlow f).flashNext = s.flashNext := rfl
@[simp] theorem State.setFlow_retries (s : State) (f : Flow) : (s.setFlow f).retries = s.retries := rfl
@[simp] theorem State.setFlow_alerts (s : State) (f : Flow) : (s.setFlow f).alerts = s.alerts := rfl

@[simp] theorem State.post_cur (s : State) (op : Instr) (a : EvArg) (l : Nat) : (s.post op a l).cur = s.cur := rfl
@[simp] theorem State.post_ev (s : State) (op : Instr) (a : EvArg) (l : Nat) : (s.post op a l).ev = s.ev := rfl
@[simp] theorem State.post_timed (s : State) (op : Instr) (a : EvArg) (l : Nat) : (s.post op a l).timed = s.timed := rfl
@[simp] theorem State.post_ticks (s : State) (op : Instr) (a : EvArg) (l : Nat) : (s.post op a l).ticks = s.ticks := rfl
@[simp] theorem State.post_turn (s : State) (op : Instr) (a : EvArg) (l : Nat) : (s.post op a l).turn = s.turn := rfl
@[simp] theorem State.post_fresh (s : State) (op : Instr) (a : EvArg) (l : Nat) : (s.post op a l).fresh = s.fresh := rfl
@[simp] theorem State.post_nextId (s : State) (op : Instr) (a : EvArg) (l : Nat) : (s.post op a l).nextId = s.nextId := rfl
@[simp] theorem State.post_cores (s : State) (op : Instr) (a : EvArg) (l : Nat) : (s.post op a l).cores = s.cores := rfl
@[simp] theorem State.post_saved (s : State) (op : Instr) (a : EvArg) (l : Nat) : (s.post op a l).saved = s.saved := rfl
@[simp] theorem State.post_savedBeds (s : State) (op : Instr) (a : EvArg) (l : Nat) : (s.post op a l).savedBeds = s.savedBeds := rfl
@[simp] theorem State.post_beds (s : State) (op : Instr) (a : EvArg) (l : Nat) : (s.post op a l).beds = s.beds := rfl
@[simp] theorem State.post_groups (s : State) (op : Instr) (a : EvArg) (l : Nat) : (s.post op a l).groups = s.groups := rfl
@[simp] theorem State.post_mem (s : State) (op : Instr) (a : EvArg) (l : Nat) : (s.post op a l).mem = s.mem := rfl
@[simp] theorem State.post_poison (s : State) (op : Instr) (a : EvArg) (l : Nat) : (s.post op a l).poison = s.poison := rfl
@[simp] theorem State.post_msgs (s : State) (op : Instr) (a : EvArg) (l : Nat) : (s.post op a l).msgs = s.msgs := rfl
@[simp] theorem State.post_copies (s : State) (op : Instr) (a : EvArg) (l : Nat) : (s.post op a l).copies = s.copies := rfl
@[simp] theorem State.post_tlb (s : State) (op : Instr) (a : EvArg) (l : Nat) : (s.post op a l).tlb = s.tlb := rfl
@[simp] theorem State.post_pageGroups (s : State) (op : Instr) (a : EvArg) (l : Nat) : (s.post op a l).pageGroups = s.pageGroups := rfl
@[simp] theorem State.post_pageWaits (s : State) (op : Instr) (a : EvArg) (l : Nat) : (s.post op a l).pageWaits = s.pageWaits := rfl
@[simp] theorem State.post_answered (s : State) (op : Instr) (a : EvArg) (l : Nat) : (s.post op a l).answered = s.answered := rfl
@[simp] theorem State.post_denied (s : State) (op : Instr) (a : EvArg) (l : Nat) : (s.post op a l).denied = s.denied := rfl
@[simp] theorem State.post_pasidSeen (s : State) (op : Instr) (a : EvArg) (l : Nat) : (s.post op a l).pasidSeen = s.pasidSeen := rfl
@[simp] theorem State.post_atsAsked (s : State) (op : Instr) (a : EvArg) (l : Nat) : (s.post op a l).atsAsked = s.atsAsked := rfl
@[simp] theorem State.post_atsDenied (s : State) (op : Instr) (a : EvArg) (l : Nat) : (s.post op a l).atsDenied = s.atsDenied := rfl
@[simp] theorem State.post_walks (s : State) (op : Instr) (a : EvArg) (l : Nat) : (s.post op a l).walks = s.walks := rfl
@[simp] theorem State.post_rakes (s : State) (op : Instr) (a : EvArg) (l : Nat) : (s.post op a l).rakes = s.rakes := rfl
@[simp] theorem State.post_chams (s : State) (op : Instr) (a : EvArg) (l : Nat) : (s.post op a l).chams = s.chams := rfl
@[simp] theorem State.post_homes (s : State) (op : Instr) (a : EvArg) (l : Nat) : (s.post op a l).homes = s.homes := rfl
@[simp] theorem State.post_rays (s : State) (op : Instr) (a : EvArg) (l : Nat) : (s.post op a l).rays = s.rays := rfl
@[simp] theorem State.post_pageIns (s : State) (op : Instr) (a : EvArg) (l : Nat) : (s.post op a l).pageIns = s.pageIns := rfl
@[simp] theorem State.post_launches (s : State) (op : Instr) (a : EvArg) (l : Nat) : (s.post op a l).launches = s.launches := rfl
@[simp] theorem State.post_seqs (s : State) (op : Instr) (a : EvArg) (l : Nat) : (s.post op a l).seqs = s.seqs := rfl
@[simp] theorem State.post_channels (s : State) (op : Instr) (a : EvArg) (l : Nat) : (s.post op a l).channels = s.channels := rfl
@[simp] theorem State.post_lastSrc (s : State) (op : Instr) (a : EvArg) (l : Nat) : (s.post op a l).lastSrc = s.lastSrc := rfl
@[simp] theorem State.post_selected (s : State) (op : Instr) (a : EvArg) (l : Nat) : (s.post op a l).selected = s.selected := rfl
@[simp] theorem State.post_grants (s : State) (op : Instr) (a : EvArg) (l : Nat) : (s.post op a l).grants = s.grants := rfl
@[simp] theorem State.post_serials (s : State) (op : Instr) (a : EvArg) (l : Nat) : (s.post op a l).serials = s.serials := rfl
@[simp] theorem State.post_saves (s : State) (op : Instr) (a : EvArg) (l : Nat) : (s.post op a l).saves = s.saves := rfl
@[simp] theorem State.post_hostRegs (s : State) (op : Instr) (a : EvArg) (l : Nat) : (s.post op a l).hostRegs = s.hostRegs := rfl
@[simp] theorem State.post_invals (s : State) (op : Instr) (a : EvArg) (l : Nat) : (s.post op a l).invals = s.invals := rfl
@[simp] theorem State.post_msix (s : State) (op : Instr) (a : EvArg) (l : Nat) : (s.post op a l).msix = s.msix := rfl
@[simp] theorem State.post_lenbo (s : State) (op : Instr) (a : EvArg) (l : Nat) : (s.post op a l).lenbo = s.lenbo := rfl
@[simp] theorem State.post_mgmt (s : State) (op : Instr) (a : EvArg) (l : Nat) : (s.post op a l).mgmt = s.mgmt := rfl
@[simp] theorem State.post_spdm (s : State) (op : Instr) (a : EvArg) (l : Nat) : (s.post op a l).spdm = s.spdm := rfl
@[simp] theorem State.post_power (s : State) (op : Instr) (a : EvArg) (l : Nat) : (s.post op a l).power = s.power := rfl
@[simp] theorem State.post_deviceKey (s : State) (op : Instr) (a : EvArg) (l : Nat) : (s.post op a l).deviceKey = s.deviceKey := rfl
@[simp] theorem State.post_attestKey (s : State) (op : Instr) (a : EvArg) (l : Nat) : (s.post op a l).attestKey = s.attestKey := rfl
@[simp] theorem State.post_poweredAt (s : State) (op : Instr) (a : EvArg) (l : Nat) : (s.post op a l).poweredAt = s.poweredAt := rfl
@[simp] theorem State.post_flash (s : State) (op : Instr) (a : EvArg) (l : Nat) : (s.post op a l).flash = s.flash := rfl
@[simp] theorem State.post_flashNext (s : State) (op : Instr) (a : EvArg) (l : Nat) : (s.post op a l).flashNext = s.flashNext := rfl
@[simp] theorem State.post_retries (s : State) (op : Instr) (a : EvArg) (l : Nat) : (s.post op a l).retries = s.retries := rfl
@[simp] theorem State.post_alerts (s : State) (op : Instr) (a : EvArg) (l : Nat) : (s.post op a l).alerts = s.alerts := rfl

@[simp] theorem State.postAt_cur (s : State) (t : Nat) (op : Instr) (a : EvArg) : (s.postAt t op a).cur = s.cur := rfl
@[simp] theorem State.postAt_ev (s : State) (t : Nat) (op : Instr) (a : EvArg) : (s.postAt t op a).ev = s.ev := rfl
@[simp] theorem State.postAt_agenda (s : State) (t : Nat) (op : Instr) (a : EvArg) : (s.postAt t op a).agenda = s.agenda := rfl
@[simp] theorem State.postAt_ticks (s : State) (t : Nat) (op : Instr) (a : EvArg) : (s.postAt t op a).ticks = s.ticks := rfl
@[simp] theorem State.postAt_turn (s : State) (t : Nat) (op : Instr) (a : EvArg) : (s.postAt t op a).turn = s.turn := rfl
@[simp] theorem State.postAt_fresh (s : State) (t : Nat) (op : Instr) (a : EvArg) : (s.postAt t op a).fresh = s.fresh := rfl
@[simp] theorem State.postAt_nextId (s : State) (t : Nat) (op : Instr) (a : EvArg) : (s.postAt t op a).nextId = s.nextId := rfl
@[simp] theorem State.postAt_cores (s : State) (t : Nat) (op : Instr) (a : EvArg) : (s.postAt t op a).cores = s.cores := rfl
@[simp] theorem State.postAt_saved (s : State) (t : Nat) (op : Instr) (a : EvArg) : (s.postAt t op a).saved = s.saved := rfl
@[simp] theorem State.postAt_savedBeds (s : State) (t : Nat) (op : Instr) (a : EvArg) : (s.postAt t op a).savedBeds = s.savedBeds := rfl
@[simp] theorem State.postAt_beds (s : State) (t : Nat) (op : Instr) (a : EvArg) : (s.postAt t op a).beds = s.beds := rfl
@[simp] theorem State.postAt_groups (s : State) (t : Nat) (op : Instr) (a : EvArg) : (s.postAt t op a).groups = s.groups := rfl
@[simp] theorem State.postAt_mem (s : State) (t : Nat) (op : Instr) (a : EvArg) : (s.postAt t op a).mem = s.mem := rfl
@[simp] theorem State.postAt_poison (s : State) (t : Nat) (op : Instr) (a : EvArg) : (s.postAt t op a).poison = s.poison := rfl
@[simp] theorem State.postAt_msgs (s : State) (t : Nat) (op : Instr) (a : EvArg) : (s.postAt t op a).msgs = s.msgs := rfl
@[simp] theorem State.postAt_copies (s : State) (t : Nat) (op : Instr) (a : EvArg) : (s.postAt t op a).copies = s.copies := rfl
@[simp] theorem State.postAt_tlb (s : State) (t : Nat) (op : Instr) (a : EvArg) : (s.postAt t op a).tlb = s.tlb := rfl
@[simp] theorem State.postAt_pageGroups (s : State) (t : Nat) (op : Instr) (a : EvArg) : (s.postAt t op a).pageGroups = s.pageGroups := rfl
@[simp] theorem State.postAt_pageWaits (s : State) (t : Nat) (op : Instr) (a : EvArg) : (s.postAt t op a).pageWaits = s.pageWaits := rfl
@[simp] theorem State.postAt_answered (s : State) (t : Nat) (op : Instr) (a : EvArg) : (s.postAt t op a).answered = s.answered := rfl
@[simp] theorem State.postAt_denied (s : State) (t : Nat) (op : Instr) (a : EvArg) : (s.postAt t op a).denied = s.denied := rfl
@[simp] theorem State.postAt_pasidSeen (s : State) (t : Nat) (op : Instr) (a : EvArg) : (s.postAt t op a).pasidSeen = s.pasidSeen := rfl
@[simp] theorem State.postAt_atsAsked (s : State) (t : Nat) (op : Instr) (a : EvArg) : (s.postAt t op a).atsAsked = s.atsAsked := rfl
@[simp] theorem State.postAt_atsDenied (s : State) (t : Nat) (op : Instr) (a : EvArg) : (s.postAt t op a).atsDenied = s.atsDenied := rfl
@[simp] theorem State.postAt_walks (s : State) (t : Nat) (op : Instr) (a : EvArg) : (s.postAt t op a).walks = s.walks := rfl
@[simp] theorem State.postAt_rakes (s : State) (t : Nat) (op : Instr) (a : EvArg) : (s.postAt t op a).rakes = s.rakes := rfl
@[simp] theorem State.postAt_chams (s : State) (t : Nat) (op : Instr) (a : EvArg) : (s.postAt t op a).chams = s.chams := rfl
@[simp] theorem State.postAt_homes (s : State) (t : Nat) (op : Instr) (a : EvArg) : (s.postAt t op a).homes = s.homes := rfl
@[simp] theorem State.postAt_rays (s : State) (t : Nat) (op : Instr) (a : EvArg) : (s.postAt t op a).rays = s.rays := rfl
@[simp] theorem State.postAt_pageIns (s : State) (t : Nat) (op : Instr) (a : EvArg) : (s.postAt t op a).pageIns = s.pageIns := rfl
@[simp] theorem State.postAt_launches (s : State) (t : Nat) (op : Instr) (a : EvArg) : (s.postAt t op a).launches = s.launches := rfl
@[simp] theorem State.postAt_seqs (s : State) (t : Nat) (op : Instr) (a : EvArg) : (s.postAt t op a).seqs = s.seqs := rfl
@[simp] theorem State.postAt_channels (s : State) (t : Nat) (op : Instr) (a : EvArg) : (s.postAt t op a).channels = s.channels := rfl
@[simp] theorem State.postAt_lastSrc (s : State) (t : Nat) (op : Instr) (a : EvArg) : (s.postAt t op a).lastSrc = s.lastSrc := rfl
@[simp] theorem State.postAt_selected (s : State) (t : Nat) (op : Instr) (a : EvArg) : (s.postAt t op a).selected = s.selected := rfl
@[simp] theorem State.postAt_grants (s : State) (t : Nat) (op : Instr) (a : EvArg) : (s.postAt t op a).grants = s.grants := rfl
@[simp] theorem State.postAt_serials (s : State) (t : Nat) (op : Instr) (a : EvArg) : (s.postAt t op a).serials = s.serials := rfl
@[simp] theorem State.postAt_saves (s : State) (t : Nat) (op : Instr) (a : EvArg) : (s.postAt t op a).saves = s.saves := rfl
@[simp] theorem State.postAt_hostRegs (s : State) (t : Nat) (op : Instr) (a : EvArg) : (s.postAt t op a).hostRegs = s.hostRegs := rfl
@[simp] theorem State.postAt_invals (s : State) (t : Nat) (op : Instr) (a : EvArg) : (s.postAt t op a).invals = s.invals := rfl
@[simp] theorem State.postAt_msix (s : State) (t : Nat) (op : Instr) (a : EvArg) : (s.postAt t op a).msix = s.msix := rfl
@[simp] theorem State.postAt_lenbo (s : State) (t : Nat) (op : Instr) (a : EvArg) : (s.postAt t op a).lenbo = s.lenbo := rfl
@[simp] theorem State.postAt_mgmt (s : State) (t : Nat) (op : Instr) (a : EvArg) : (s.postAt t op a).mgmt = s.mgmt := rfl
@[simp] theorem State.postAt_spdm (s : State) (t : Nat) (op : Instr) (a : EvArg) : (s.postAt t op a).spdm = s.spdm := rfl
@[simp] theorem State.postAt_power (s : State) (t : Nat) (op : Instr) (a : EvArg) : (s.postAt t op a).power = s.power := rfl
@[simp] theorem State.postAt_deviceKey (s : State) (t : Nat) (op : Instr) (a : EvArg) : (s.postAt t op a).deviceKey = s.deviceKey := rfl
@[simp] theorem State.postAt_attestKey (s : State) (t : Nat) (op : Instr) (a : EvArg) : (s.postAt t op a).attestKey = s.attestKey := rfl
@[simp] theorem State.postAt_poweredAt (s : State) (t : Nat) (op : Instr) (a : EvArg) : (s.postAt t op a).poweredAt = s.poweredAt := rfl
@[simp] theorem State.postAt_flash (s : State) (t : Nat) (op : Instr) (a : EvArg) : (s.postAt t op a).flash = s.flash := rfl
@[simp] theorem State.postAt_flashNext (s : State) (t : Nat) (op : Instr) (a : EvArg) : (s.postAt t op a).flashNext = s.flashNext := rfl
@[simp] theorem State.postAt_retries (s : State) (t : Nat) (op : Instr) (a : EvArg) : (s.postAt t op a).retries = s.retries := rfl
@[simp] theorem State.postAt_alerts (s : State) (t : Nat) (op : Instr) (a : EvArg) : (s.postAt t op a).alerts = s.alerts := rfl

@[simp] theorem State.modGroup_cur (s : State) (g : Nat) (f : Group → Group) : (s.modGroup g f).cur = s.cur := rfl
@[simp] theorem State.modGroup_ev (s : State) (g : Nat) (f : Group → Group) : (s.modGroup g f).ev = s.ev := rfl
@[simp] theorem State.modGroup_agenda (s : State) (g : Nat) (f : Group → Group) : (s.modGroup g f).agenda = s.agenda := rfl
@[simp] theorem State.modGroup_timed (s : State) (g : Nat) (f : Group → Group) : (s.modGroup g f).timed = s.timed := rfl
@[simp] theorem State.modGroup_ticks (s : State) (g : Nat) (f : Group → Group) : (s.modGroup g f).ticks = s.ticks := rfl
@[simp] theorem State.modGroup_turn (s : State) (g : Nat) (f : Group → Group) : (s.modGroup g f).turn = s.turn := rfl
@[simp] theorem State.modGroup_fresh (s : State) (g : Nat) (f : Group → Group) : (s.modGroup g f).fresh = s.fresh := rfl
@[simp] theorem State.modGroup_nextId (s : State) (g : Nat) (f : Group → Group) : (s.modGroup g f).nextId = s.nextId := rfl
@[simp] theorem State.modGroup_cores (s : State) (g : Nat) (f : Group → Group) : (s.modGroup g f).cores = s.cores := rfl
@[simp] theorem State.modGroup_saved (s : State) (g : Nat) (f : Group → Group) : (s.modGroup g f).saved = s.saved := rfl
@[simp] theorem State.modGroup_savedBeds (s : State) (g : Nat) (f : Group → Group) : (s.modGroup g f).savedBeds = s.savedBeds := rfl
@[simp] theorem State.modGroup_beds (s : State) (g : Nat) (f : Group → Group) : (s.modGroup g f).beds = s.beds := rfl
@[simp] theorem State.modGroup_mem (s : State) (g : Nat) (f : Group → Group) : (s.modGroup g f).mem = s.mem := rfl
@[simp] theorem State.modGroup_poison (s : State) (g : Nat) (f : Group → Group) : (s.modGroup g f).poison = s.poison := rfl
@[simp] theorem State.modGroup_msgs (s : State) (g : Nat) (f : Group → Group) : (s.modGroup g f).msgs = s.msgs := rfl
@[simp] theorem State.modGroup_copies (s : State) (g : Nat) (f : Group → Group) : (s.modGroup g f).copies = s.copies := rfl
@[simp] theorem State.modGroup_tlb (s : State) (g : Nat) (f : Group → Group) : (s.modGroup g f).tlb = s.tlb := rfl
@[simp] theorem State.modGroup_pageGroups (s : State) (g : Nat) (f : Group → Group) : (s.modGroup g f).pageGroups = s.pageGroups := rfl
@[simp] theorem State.modGroup_pageWaits (s : State) (g : Nat) (f : Group → Group) : (s.modGroup g f).pageWaits = s.pageWaits := rfl
@[simp] theorem State.modGroup_answered (s : State) (g : Nat) (f : Group → Group) : (s.modGroup g f).answered = s.answered := rfl
@[simp] theorem State.modGroup_denied (s : State) (g : Nat) (f : Group → Group) : (s.modGroup g f).denied = s.denied := rfl
@[simp] theorem State.modGroup_pasidSeen (s : State) (g : Nat) (f : Group → Group) : (s.modGroup g f).pasidSeen = s.pasidSeen := rfl
@[simp] theorem State.modGroup_atsAsked (s : State) (g : Nat) (f : Group → Group) : (s.modGroup g f).atsAsked = s.atsAsked := rfl
@[simp] theorem State.modGroup_atsDenied (s : State) (g : Nat) (f : Group → Group) : (s.modGroup g f).atsDenied = s.atsDenied := rfl
@[simp] theorem State.modGroup_walks (s : State) (g : Nat) (f : Group → Group) : (s.modGroup g f).walks = s.walks := rfl
@[simp] theorem State.modGroup_rakes (s : State) (g : Nat) (f : Group → Group) : (s.modGroup g f).rakes = s.rakes := rfl
@[simp] theorem State.modGroup_chams (s : State) (g : Nat) (f : Group → Group) : (s.modGroup g f).chams = s.chams := rfl
@[simp] theorem State.modGroup_homes (s : State) (g : Nat) (f : Group → Group) : (s.modGroup g f).homes = s.homes := rfl
@[simp] theorem State.modGroup_rays (s : State) (g : Nat) (f : Group → Group) : (s.modGroup g f).rays = s.rays := rfl
@[simp] theorem State.modGroup_pageIns (s : State) (g : Nat) (f : Group → Group) : (s.modGroup g f).pageIns = s.pageIns := rfl
@[simp] theorem State.modGroup_launches (s : State) (g : Nat) (f : Group → Group) : (s.modGroup g f).launches = s.launches := rfl
@[simp] theorem State.modGroup_seqs (s : State) (g : Nat) (f : Group → Group) : (s.modGroup g f).seqs = s.seqs := rfl
@[simp] theorem State.modGroup_channels (s : State) (g : Nat) (f : Group → Group) : (s.modGroup g f).channels = s.channels := rfl
@[simp] theorem State.modGroup_lastSrc (s : State) (g : Nat) (f : Group → Group) : (s.modGroup g f).lastSrc = s.lastSrc := rfl
@[simp] theorem State.modGroup_selected (s : State) (g : Nat) (f : Group → Group) : (s.modGroup g f).selected = s.selected := rfl
@[simp] theorem State.modGroup_grants (s : State) (g : Nat) (f : Group → Group) : (s.modGroup g f).grants = s.grants := rfl
@[simp] theorem State.modGroup_serials (s : State) (g : Nat) (f : Group → Group) : (s.modGroup g f).serials = s.serials := rfl
@[simp] theorem State.modGroup_saves (s : State) (g : Nat) (f : Group → Group) : (s.modGroup g f).saves = s.saves := rfl
@[simp] theorem State.modGroup_hostRegs (s : State) (g : Nat) (f : Group → Group) : (s.modGroup g f).hostRegs = s.hostRegs := rfl
@[simp] theorem State.modGroup_invals (s : State) (g : Nat) (f : Group → Group) : (s.modGroup g f).invals = s.invals := rfl
@[simp] theorem State.modGroup_msix (s : State) (g : Nat) (f : Group → Group) : (s.modGroup g f).msix = s.msix := rfl
@[simp] theorem State.modGroup_lenbo (s : State) (g : Nat) (f : Group → Group) : (s.modGroup g f).lenbo = s.lenbo := rfl
@[simp] theorem State.modGroup_mgmt (s : State) (g : Nat) (f : Group → Group) : (s.modGroup g f).mgmt = s.mgmt := rfl
@[simp] theorem State.modGroup_spdm (s : State) (g : Nat) (f : Group → Group) : (s.modGroup g f).spdm = s.spdm := rfl
@[simp] theorem State.modGroup_power (s : State) (g : Nat) (f : Group → Group) : (s.modGroup g f).power = s.power := rfl
@[simp] theorem State.modGroup_deviceKey (s : State) (g : Nat) (f : Group → Group) : (s.modGroup g f).deviceKey = s.deviceKey := rfl
@[simp] theorem State.modGroup_attestKey (s : State) (g : Nat) (f : Group → Group) : (s.modGroup g f).attestKey = s.attestKey := rfl
@[simp] theorem State.modGroup_poweredAt (s : State) (g : Nat) (f : Group → Group) : (s.modGroup g f).poweredAt = s.poweredAt := rfl
@[simp] theorem State.modGroup_flash (s : State) (g : Nat) (f : Group → Group) : (s.modGroup g f).flash = s.flash := rfl
@[simp] theorem State.modGroup_flashNext (s : State) (g : Nat) (f : Group → Group) : (s.modGroup g f).flashNext = s.flashNext := rfl
@[simp] theorem State.modGroup_retries (s : State) (g : Nat) (f : Group → Group) : (s.modGroup g f).retries = s.retries := rfl
@[simp] theorem State.modGroup_alerts (s : State) (g : Nat) (f : Group → Group) : (s.modGroup g f).alerts = s.alerts := rfl

@[simp] theorem State.modBed_cur (s : State) (b : Nat) (f : Bed → Bed) : (s.modBed b f).cur = s.cur := rfl
@[simp] theorem State.modBed_ev (s : State) (b : Nat) (f : Bed → Bed) : (s.modBed b f).ev = s.ev := rfl
@[simp] theorem State.modBed_agenda (s : State) (b : Nat) (f : Bed → Bed) : (s.modBed b f).agenda = s.agenda := rfl
@[simp] theorem State.modBed_timed (s : State) (b : Nat) (f : Bed → Bed) : (s.modBed b f).timed = s.timed := rfl
@[simp] theorem State.modBed_ticks (s : State) (b : Nat) (f : Bed → Bed) : (s.modBed b f).ticks = s.ticks := rfl
@[simp] theorem State.modBed_turn (s : State) (b : Nat) (f : Bed → Bed) : (s.modBed b f).turn = s.turn := rfl
@[simp] theorem State.modBed_fresh (s : State) (b : Nat) (f : Bed → Bed) : (s.modBed b f).fresh = s.fresh := rfl
@[simp] theorem State.modBed_nextId (s : State) (b : Nat) (f : Bed → Bed) : (s.modBed b f).nextId = s.nextId := rfl
@[simp] theorem State.modBed_cores (s : State) (b : Nat) (f : Bed → Bed) : (s.modBed b f).cores = s.cores := rfl
@[simp] theorem State.modBed_saved (s : State) (b : Nat) (f : Bed → Bed) : (s.modBed b f).saved = s.saved := rfl
@[simp] theorem State.modBed_savedBeds (s : State) (b : Nat) (f : Bed → Bed) : (s.modBed b f).savedBeds = s.savedBeds := rfl
@[simp] theorem State.modBed_groups (s : State) (b : Nat) (f : Bed → Bed) : (s.modBed b f).groups = s.groups := rfl
@[simp] theorem State.modBed_mem (s : State) (b : Nat) (f : Bed → Bed) : (s.modBed b f).mem = s.mem := rfl
@[simp] theorem State.modBed_poison (s : State) (b : Nat) (f : Bed → Bed) : (s.modBed b f).poison = s.poison := rfl
@[simp] theorem State.modBed_msgs (s : State) (b : Nat) (f : Bed → Bed) : (s.modBed b f).msgs = s.msgs := rfl
@[simp] theorem State.modBed_copies (s : State) (b : Nat) (f : Bed → Bed) : (s.modBed b f).copies = s.copies := rfl
@[simp] theorem State.modBed_tlb (s : State) (b : Nat) (f : Bed → Bed) : (s.modBed b f).tlb = s.tlb := rfl
@[simp] theorem State.modBed_pageGroups (s : State) (b : Nat) (f : Bed → Bed) : (s.modBed b f).pageGroups = s.pageGroups := rfl
@[simp] theorem State.modBed_pageWaits (s : State) (b : Nat) (f : Bed → Bed) : (s.modBed b f).pageWaits = s.pageWaits := rfl
@[simp] theorem State.modBed_answered (s : State) (b : Nat) (f : Bed → Bed) : (s.modBed b f).answered = s.answered := rfl
@[simp] theorem State.modBed_denied (s : State) (b : Nat) (f : Bed → Bed) : (s.modBed b f).denied = s.denied := rfl
@[simp] theorem State.modBed_pasidSeen (s : State) (b : Nat) (f : Bed → Bed) : (s.modBed b f).pasidSeen = s.pasidSeen := rfl
@[simp] theorem State.modBed_atsAsked (s : State) (b : Nat) (f : Bed → Bed) : (s.modBed b f).atsAsked = s.atsAsked := rfl
@[simp] theorem State.modBed_atsDenied (s : State) (b : Nat) (f : Bed → Bed) : (s.modBed b f).atsDenied = s.atsDenied := rfl
@[simp] theorem State.modBed_walks (s : State) (b : Nat) (f : Bed → Bed) : (s.modBed b f).walks = s.walks := rfl
@[simp] theorem State.modBed_rakes (s : State) (b : Nat) (f : Bed → Bed) : (s.modBed b f).rakes = s.rakes := rfl
@[simp] theorem State.modBed_chams (s : State) (b : Nat) (f : Bed → Bed) : (s.modBed b f).chams = s.chams := rfl
@[simp] theorem State.modBed_homes (s : State) (b : Nat) (f : Bed → Bed) : (s.modBed b f).homes = s.homes := rfl
@[simp] theorem State.modBed_rays (s : State) (b : Nat) (f : Bed → Bed) : (s.modBed b f).rays = s.rays := rfl
@[simp] theorem State.modBed_pageIns (s : State) (b : Nat) (f : Bed → Bed) : (s.modBed b f).pageIns = s.pageIns := rfl
@[simp] theorem State.modBed_launches (s : State) (b : Nat) (f : Bed → Bed) : (s.modBed b f).launches = s.launches := rfl
@[simp] theorem State.modBed_seqs (s : State) (b : Nat) (f : Bed → Bed) : (s.modBed b f).seqs = s.seqs := rfl
@[simp] theorem State.modBed_channels (s : State) (b : Nat) (f : Bed → Bed) : (s.modBed b f).channels = s.channels := rfl
@[simp] theorem State.modBed_lastSrc (s : State) (b : Nat) (f : Bed → Bed) : (s.modBed b f).lastSrc = s.lastSrc := rfl
@[simp] theorem State.modBed_selected (s : State) (b : Nat) (f : Bed → Bed) : (s.modBed b f).selected = s.selected := rfl
@[simp] theorem State.modBed_grants (s : State) (b : Nat) (f : Bed → Bed) : (s.modBed b f).grants = s.grants := rfl
@[simp] theorem State.modBed_serials (s : State) (b : Nat) (f : Bed → Bed) : (s.modBed b f).serials = s.serials := rfl
@[simp] theorem State.modBed_saves (s : State) (b : Nat) (f : Bed → Bed) : (s.modBed b f).saves = s.saves := rfl
@[simp] theorem State.modBed_hostRegs (s : State) (b : Nat) (f : Bed → Bed) : (s.modBed b f).hostRegs = s.hostRegs := rfl
@[simp] theorem State.modBed_invals (s : State) (b : Nat) (f : Bed → Bed) : (s.modBed b f).invals = s.invals := rfl
@[simp] theorem State.modBed_msix (s : State) (b : Nat) (f : Bed → Bed) : (s.modBed b f).msix = s.msix := rfl
@[simp] theorem State.modBed_lenbo (s : State) (b : Nat) (f : Bed → Bed) : (s.modBed b f).lenbo = s.lenbo := rfl
@[simp] theorem State.modBed_mgmt (s : State) (b : Nat) (f : Bed → Bed) : (s.modBed b f).mgmt = s.mgmt := rfl
@[simp] theorem State.modBed_spdm (s : State) (b : Nat) (f : Bed → Bed) : (s.modBed b f).spdm = s.spdm := rfl
@[simp] theorem State.modBed_power (s : State) (b : Nat) (f : Bed → Bed) : (s.modBed b f).power = s.power := rfl
@[simp] theorem State.modBed_deviceKey (s : State) (b : Nat) (f : Bed → Bed) : (s.modBed b f).deviceKey = s.deviceKey := rfl
@[simp] theorem State.modBed_attestKey (s : State) (b : Nat) (f : Bed → Bed) : (s.modBed b f).attestKey = s.attestKey := rfl
@[simp] theorem State.modBed_poweredAt (s : State) (b : Nat) (f : Bed → Bed) : (s.modBed b f).poweredAt = s.poweredAt := rfl
@[simp] theorem State.modBed_flash (s : State) (b : Nat) (f : Bed → Bed) : (s.modBed b f).flash = s.flash := rfl
@[simp] theorem State.modBed_flashNext (s : State) (b : Nat) (f : Bed → Bed) : (s.modBed b f).flashNext = s.flashNext := rfl
@[simp] theorem State.modBed_retries (s : State) (b : Nat) (f : Bed → Bed) : (s.modBed b f).retries = s.retries := rfl
@[simp] theorem State.modBed_alerts (s : State) (b : Nat) (f : Bed → Bed) : (s.modBed b f).alerts = s.alerts := rfl

@[simp] theorem State.modLaunch_cur (s : State) (n : Nat) (f : Launch → Launch) : (s.modLaunch n f).cur = s.cur := rfl
@[simp] theorem State.modLaunch_ev (s : State) (n : Nat) (f : Launch → Launch) : (s.modLaunch n f).ev = s.ev := rfl
@[simp] theorem State.modLaunch_agenda (s : State) (n : Nat) (f : Launch → Launch) : (s.modLaunch n f).agenda = s.agenda := rfl
@[simp] theorem State.modLaunch_timed (s : State) (n : Nat) (f : Launch → Launch) : (s.modLaunch n f).timed = s.timed := rfl
@[simp] theorem State.modLaunch_ticks (s : State) (n : Nat) (f : Launch → Launch) : (s.modLaunch n f).ticks = s.ticks := rfl
@[simp] theorem State.modLaunch_turn (s : State) (n : Nat) (f : Launch → Launch) : (s.modLaunch n f).turn = s.turn := rfl
@[simp] theorem State.modLaunch_fresh (s : State) (n : Nat) (f : Launch → Launch) : (s.modLaunch n f).fresh = s.fresh := rfl
@[simp] theorem State.modLaunch_nextId (s : State) (n : Nat) (f : Launch → Launch) : (s.modLaunch n f).nextId = s.nextId := rfl
@[simp] theorem State.modLaunch_cores (s : State) (n : Nat) (f : Launch → Launch) : (s.modLaunch n f).cores = s.cores := rfl
@[simp] theorem State.modLaunch_saved (s : State) (n : Nat) (f : Launch → Launch) : (s.modLaunch n f).saved = s.saved := rfl
@[simp] theorem State.modLaunch_savedBeds (s : State) (n : Nat) (f : Launch → Launch) : (s.modLaunch n f).savedBeds = s.savedBeds := rfl
@[simp] theorem State.modLaunch_beds (s : State) (n : Nat) (f : Launch → Launch) : (s.modLaunch n f).beds = s.beds := rfl
@[simp] theorem State.modLaunch_groups (s : State) (n : Nat) (f : Launch → Launch) : (s.modLaunch n f).groups = s.groups := rfl
@[simp] theorem State.modLaunch_mem (s : State) (n : Nat) (f : Launch → Launch) : (s.modLaunch n f).mem = s.mem := rfl
@[simp] theorem State.modLaunch_poison (s : State) (n : Nat) (f : Launch → Launch) : (s.modLaunch n f).poison = s.poison := rfl
@[simp] theorem State.modLaunch_msgs (s : State) (n : Nat) (f : Launch → Launch) : (s.modLaunch n f).msgs = s.msgs := rfl
@[simp] theorem State.modLaunch_copies (s : State) (n : Nat) (f : Launch → Launch) : (s.modLaunch n f).copies = s.copies := rfl
@[simp] theorem State.modLaunch_tlb (s : State) (n : Nat) (f : Launch → Launch) : (s.modLaunch n f).tlb = s.tlb := rfl
@[simp] theorem State.modLaunch_pageGroups (s : State) (n : Nat) (f : Launch → Launch) : (s.modLaunch n f).pageGroups = s.pageGroups := rfl
@[simp] theorem State.modLaunch_pageWaits (s : State) (n : Nat) (f : Launch → Launch) : (s.modLaunch n f).pageWaits = s.pageWaits := rfl
@[simp] theorem State.modLaunch_answered (s : State) (n : Nat) (f : Launch → Launch) : (s.modLaunch n f).answered = s.answered := rfl
@[simp] theorem State.modLaunch_denied (s : State) (n : Nat) (f : Launch → Launch) : (s.modLaunch n f).denied = s.denied := rfl
@[simp] theorem State.modLaunch_pasidSeen (s : State) (n : Nat) (f : Launch → Launch) : (s.modLaunch n f).pasidSeen = s.pasidSeen := rfl
@[simp] theorem State.modLaunch_atsAsked (s : State) (n : Nat) (f : Launch → Launch) : (s.modLaunch n f).atsAsked = s.atsAsked := rfl
@[simp] theorem State.modLaunch_atsDenied (s : State) (n : Nat) (f : Launch → Launch) : (s.modLaunch n f).atsDenied = s.atsDenied := rfl
@[simp] theorem State.modLaunch_walks (s : State) (n : Nat) (f : Launch → Launch) : (s.modLaunch n f).walks = s.walks := rfl
@[simp] theorem State.modLaunch_rakes (s : State) (n : Nat) (f : Launch → Launch) : (s.modLaunch n f).rakes = s.rakes := rfl
@[simp] theorem State.modLaunch_chams (s : State) (n : Nat) (f : Launch → Launch) : (s.modLaunch n f).chams = s.chams := rfl
@[simp] theorem State.modLaunch_homes (s : State) (n : Nat) (f : Launch → Launch) : (s.modLaunch n f).homes = s.homes := rfl
@[simp] theorem State.modLaunch_rays (s : State) (n : Nat) (f : Launch → Launch) : (s.modLaunch n f).rays = s.rays := rfl
@[simp] theorem State.modLaunch_pageIns (s : State) (n : Nat) (f : Launch → Launch) : (s.modLaunch n f).pageIns = s.pageIns := rfl
@[simp] theorem State.modLaunch_seqs (s : State) (n : Nat) (f : Launch → Launch) : (s.modLaunch n f).seqs = s.seqs := rfl
@[simp] theorem State.modLaunch_channels (s : State) (n : Nat) (f : Launch → Launch) : (s.modLaunch n f).channels = s.channels := rfl
@[simp] theorem State.modLaunch_lastSrc (s : State) (n : Nat) (f : Launch → Launch) : (s.modLaunch n f).lastSrc = s.lastSrc := rfl
@[simp] theorem State.modLaunch_selected (s : State) (n : Nat) (f : Launch → Launch) : (s.modLaunch n f).selected = s.selected := rfl
@[simp] theorem State.modLaunch_grants (s : State) (n : Nat) (f : Launch → Launch) : (s.modLaunch n f).grants = s.grants := rfl
@[simp] theorem State.modLaunch_serials (s : State) (n : Nat) (f : Launch → Launch) : (s.modLaunch n f).serials = s.serials := rfl
@[simp] theorem State.modLaunch_saves (s : State) (n : Nat) (f : Launch → Launch) : (s.modLaunch n f).saves = s.saves := rfl
@[simp] theorem State.modLaunch_hostRegs (s : State) (n : Nat) (f : Launch → Launch) : (s.modLaunch n f).hostRegs = s.hostRegs := rfl
@[simp] theorem State.modLaunch_invals (s : State) (n : Nat) (f : Launch → Launch) : (s.modLaunch n f).invals = s.invals := rfl
@[simp] theorem State.modLaunch_msix (s : State) (n : Nat) (f : Launch → Launch) : (s.modLaunch n f).msix = s.msix := rfl
@[simp] theorem State.modLaunch_lenbo (s : State) (n : Nat) (f : Launch → Launch) : (s.modLaunch n f).lenbo = s.lenbo := rfl
@[simp] theorem State.modLaunch_mgmt (s : State) (n : Nat) (f : Launch → Launch) : (s.modLaunch n f).mgmt = s.mgmt := rfl
@[simp] theorem State.modLaunch_spdm (s : State) (n : Nat) (f : Launch → Launch) : (s.modLaunch n f).spdm = s.spdm := rfl
@[simp] theorem State.modLaunch_power (s : State) (n : Nat) (f : Launch → Launch) : (s.modLaunch n f).power = s.power := rfl
@[simp] theorem State.modLaunch_deviceKey (s : State) (n : Nat) (f : Launch → Launch) : (s.modLaunch n f).deviceKey = s.deviceKey := rfl
@[simp] theorem State.modLaunch_attestKey (s : State) (n : Nat) (f : Launch → Launch) : (s.modLaunch n f).attestKey = s.attestKey := rfl
@[simp] theorem State.modLaunch_poweredAt (s : State) (n : Nat) (f : Launch → Launch) : (s.modLaunch n f).poweredAt = s.poweredAt := rfl
@[simp] theorem State.modLaunch_flash (s : State) (n : Nat) (f : Launch → Launch) : (s.modLaunch n f).flash = s.flash := rfl
@[simp] theorem State.modLaunch_flashNext (s : State) (n : Nat) (f : Launch → Launch) : (s.modLaunch n f).flashNext = s.flashNext := rfl
@[simp] theorem State.modLaunch_retries (s : State) (n : Nat) (f : Launch → Launch) : (s.modLaunch n f).retries = s.retries := rfl
@[simp] theorem State.modLaunch_alerts (s : State) (n : Nat) (f : Launch → Launch) : (s.modLaunch n f).alerts = s.alerts := rfl

@[simp] theorem State.modChannel_cur (s : State) (n : Nat) (f : Channel → Channel) : (s.modChannel n f).cur = s.cur := rfl
@[simp] theorem State.modChannel_ev (s : State) (n : Nat) (f : Channel → Channel) : (s.modChannel n f).ev = s.ev := rfl
@[simp] theorem State.modChannel_agenda (s : State) (n : Nat) (f : Channel → Channel) : (s.modChannel n f).agenda = s.agenda := rfl
@[simp] theorem State.modChannel_timed (s : State) (n : Nat) (f : Channel → Channel) : (s.modChannel n f).timed = s.timed := rfl
@[simp] theorem State.modChannel_ticks (s : State) (n : Nat) (f : Channel → Channel) : (s.modChannel n f).ticks = s.ticks := rfl
@[simp] theorem State.modChannel_turn (s : State) (n : Nat) (f : Channel → Channel) : (s.modChannel n f).turn = s.turn := rfl
@[simp] theorem State.modChannel_fresh (s : State) (n : Nat) (f : Channel → Channel) : (s.modChannel n f).fresh = s.fresh := rfl
@[simp] theorem State.modChannel_nextId (s : State) (n : Nat) (f : Channel → Channel) : (s.modChannel n f).nextId = s.nextId := rfl
@[simp] theorem State.modChannel_cores (s : State) (n : Nat) (f : Channel → Channel) : (s.modChannel n f).cores = s.cores := rfl
@[simp] theorem State.modChannel_saved (s : State) (n : Nat) (f : Channel → Channel) : (s.modChannel n f).saved = s.saved := rfl
@[simp] theorem State.modChannel_savedBeds (s : State) (n : Nat) (f : Channel → Channel) : (s.modChannel n f).savedBeds = s.savedBeds := rfl
@[simp] theorem State.modChannel_beds (s : State) (n : Nat) (f : Channel → Channel) : (s.modChannel n f).beds = s.beds := rfl
@[simp] theorem State.modChannel_groups (s : State) (n : Nat) (f : Channel → Channel) : (s.modChannel n f).groups = s.groups := rfl
@[simp] theorem State.modChannel_mem (s : State) (n : Nat) (f : Channel → Channel) : (s.modChannel n f).mem = s.mem := rfl
@[simp] theorem State.modChannel_poison (s : State) (n : Nat) (f : Channel → Channel) : (s.modChannel n f).poison = s.poison := rfl
@[simp] theorem State.modChannel_msgs (s : State) (n : Nat) (f : Channel → Channel) : (s.modChannel n f).msgs = s.msgs := rfl
@[simp] theorem State.modChannel_copies (s : State) (n : Nat) (f : Channel → Channel) : (s.modChannel n f).copies = s.copies := rfl
@[simp] theorem State.modChannel_tlb (s : State) (n : Nat) (f : Channel → Channel) : (s.modChannel n f).tlb = s.tlb := rfl
@[simp] theorem State.modChannel_pageGroups (s : State) (n : Nat) (f : Channel → Channel) : (s.modChannel n f).pageGroups = s.pageGroups := rfl
@[simp] theorem State.modChannel_pageWaits (s : State) (n : Nat) (f : Channel → Channel) : (s.modChannel n f).pageWaits = s.pageWaits := rfl
@[simp] theorem State.modChannel_answered (s : State) (n : Nat) (f : Channel → Channel) : (s.modChannel n f).answered = s.answered := rfl
@[simp] theorem State.modChannel_denied (s : State) (n : Nat) (f : Channel → Channel) : (s.modChannel n f).denied = s.denied := rfl
@[simp] theorem State.modChannel_pasidSeen (s : State) (n : Nat) (f : Channel → Channel) : (s.modChannel n f).pasidSeen = s.pasidSeen := rfl
@[simp] theorem State.modChannel_atsAsked (s : State) (n : Nat) (f : Channel → Channel) : (s.modChannel n f).atsAsked = s.atsAsked := rfl
@[simp] theorem State.modChannel_atsDenied (s : State) (n : Nat) (f : Channel → Channel) : (s.modChannel n f).atsDenied = s.atsDenied := rfl
@[simp] theorem State.modChannel_walks (s : State) (n : Nat) (f : Channel → Channel) : (s.modChannel n f).walks = s.walks := rfl
@[simp] theorem State.modChannel_rakes (s : State) (n : Nat) (f : Channel → Channel) : (s.modChannel n f).rakes = s.rakes := rfl
@[simp] theorem State.modChannel_chams (s : State) (n : Nat) (f : Channel → Channel) : (s.modChannel n f).chams = s.chams := rfl
@[simp] theorem State.modChannel_homes (s : State) (n : Nat) (f : Channel → Channel) : (s.modChannel n f).homes = s.homes := rfl
@[simp] theorem State.modChannel_rays (s : State) (n : Nat) (f : Channel → Channel) : (s.modChannel n f).rays = s.rays := rfl
@[simp] theorem State.modChannel_pageIns (s : State) (n : Nat) (f : Channel → Channel) : (s.modChannel n f).pageIns = s.pageIns := rfl
@[simp] theorem State.modChannel_launches (s : State) (n : Nat) (f : Channel → Channel) : (s.modChannel n f).launches = s.launches := rfl
@[simp] theorem State.modChannel_seqs (s : State) (n : Nat) (f : Channel → Channel) : (s.modChannel n f).seqs = s.seqs := rfl
@[simp] theorem State.modChannel_lastSrc (s : State) (n : Nat) (f : Channel → Channel) : (s.modChannel n f).lastSrc = s.lastSrc := rfl
@[simp] theorem State.modChannel_selected (s : State) (n : Nat) (f : Channel → Channel) : (s.modChannel n f).selected = s.selected := rfl
@[simp] theorem State.modChannel_grants (s : State) (n : Nat) (f : Channel → Channel) : (s.modChannel n f).grants = s.grants := rfl
@[simp] theorem State.modChannel_serials (s : State) (n : Nat) (f : Channel → Channel) : (s.modChannel n f).serials = s.serials := rfl
@[simp] theorem State.modChannel_saves (s : State) (n : Nat) (f : Channel → Channel) : (s.modChannel n f).saves = s.saves := rfl
@[simp] theorem State.modChannel_hostRegs (s : State) (n : Nat) (f : Channel → Channel) : (s.modChannel n f).hostRegs = s.hostRegs := rfl
@[simp] theorem State.modChannel_invals (s : State) (n : Nat) (f : Channel → Channel) : (s.modChannel n f).invals = s.invals := rfl
@[simp] theorem State.modChannel_msix (s : State) (n : Nat) (f : Channel → Channel) : (s.modChannel n f).msix = s.msix := rfl
@[simp] theorem State.modChannel_lenbo (s : State) (n : Nat) (f : Channel → Channel) : (s.modChannel n f).lenbo = s.lenbo := rfl
@[simp] theorem State.modChannel_mgmt (s : State) (n : Nat) (f : Channel → Channel) : (s.modChannel n f).mgmt = s.mgmt := rfl
@[simp] theorem State.modChannel_spdm (s : State) (n : Nat) (f : Channel → Channel) : (s.modChannel n f).spdm = s.spdm := rfl
@[simp] theorem State.modChannel_power (s : State) (n : Nat) (f : Channel → Channel) : (s.modChannel n f).power = s.power := rfl
@[simp] theorem State.modChannel_deviceKey (s : State) (n : Nat) (f : Channel → Channel) : (s.modChannel n f).deviceKey = s.deviceKey := rfl
@[simp] theorem State.modChannel_attestKey (s : State) (n : Nat) (f : Channel → Channel) : (s.modChannel n f).attestKey = s.attestKey := rfl
@[simp] theorem State.modChannel_poweredAt (s : State) (n : Nat) (f : Channel → Channel) : (s.modChannel n f).poweredAt = s.poweredAt := rfl
@[simp] theorem State.modChannel_flash (s : State) (n : Nat) (f : Channel → Channel) : (s.modChannel n f).flash = s.flash := rfl
@[simp] theorem State.modChannel_flashNext (s : State) (n : Nat) (f : Channel → Channel) : (s.modChannel n f).flashNext = s.flashNext := rfl
@[simp] theorem State.modChannel_retries (s : State) (n : Nat) (f : Channel → Channel) : (s.modChannel n f).retries = s.retries := rfl
@[simp] theorem State.modChannel_alerts (s : State) (n : Nat) (f : Channel → Channel) : (s.modChannel n f).alerts = s.alerts := rfl

@[simp] theorem State.storeNat_cur (s : State) (a n x : Nat) : (s.storeNat a n x).cur = s.cur := rfl
@[simp] theorem State.storeNat_ev (s : State) (a n x : Nat) : (s.storeNat a n x).ev = s.ev := rfl
@[simp] theorem State.storeNat_agenda (s : State) (a n x : Nat) : (s.storeNat a n x).agenda = s.agenda := rfl
@[simp] theorem State.storeNat_timed (s : State) (a n x : Nat) : (s.storeNat a n x).timed = s.timed := rfl
@[simp] theorem State.storeNat_ticks (s : State) (a n x : Nat) : (s.storeNat a n x).ticks = s.ticks := rfl
@[simp] theorem State.storeNat_turn (s : State) (a n x : Nat) : (s.storeNat a n x).turn = s.turn := rfl
@[simp] theorem State.storeNat_fresh (s : State) (a n x : Nat) : (s.storeNat a n x).fresh = s.fresh := rfl
@[simp] theorem State.storeNat_nextId (s : State) (a n x : Nat) : (s.storeNat a n x).nextId = s.nextId := rfl
@[simp] theorem State.storeNat_cores (s : State) (a n x : Nat) : (s.storeNat a n x).cores = s.cores := rfl
@[simp] theorem State.storeNat_saved (s : State) (a n x : Nat) : (s.storeNat a n x).saved = s.saved := rfl
@[simp] theorem State.storeNat_savedBeds (s : State) (a n x : Nat) : (s.storeNat a n x).savedBeds = s.savedBeds := rfl
@[simp] theorem State.storeNat_beds (s : State) (a n x : Nat) : (s.storeNat a n x).beds = s.beds := rfl
@[simp] theorem State.storeNat_groups (s : State) (a n x : Nat) : (s.storeNat a n x).groups = s.groups := rfl
@[simp] theorem State.storeNat_poison (s : State) (a n x : Nat) : (s.storeNat a n x).poison = s.poison := rfl
@[simp] theorem State.storeNat_msgs (s : State) (a n x : Nat) : (s.storeNat a n x).msgs = s.msgs := rfl
@[simp] theorem State.storeNat_copies (s : State) (a n x : Nat) : (s.storeNat a n x).copies = s.copies := rfl
@[simp] theorem State.storeNat_tlb (s : State) (a n x : Nat) : (s.storeNat a n x).tlb = s.tlb := rfl
@[simp] theorem State.storeNat_pageGroups (s : State) (a n x : Nat) : (s.storeNat a n x).pageGroups = s.pageGroups := rfl
@[simp] theorem State.storeNat_pageWaits (s : State) (a n x : Nat) : (s.storeNat a n x).pageWaits = s.pageWaits := rfl
@[simp] theorem State.storeNat_answered (s : State) (a n x : Nat) : (s.storeNat a n x).answered = s.answered := rfl
@[simp] theorem State.storeNat_denied (s : State) (a n x : Nat) : (s.storeNat a n x).denied = s.denied := rfl
@[simp] theorem State.storeNat_pasidSeen (s : State) (a n x : Nat) : (s.storeNat a n x).pasidSeen = s.pasidSeen := rfl
@[simp] theorem State.storeNat_atsAsked (s : State) (a n x : Nat) : (s.storeNat a n x).atsAsked = s.atsAsked := rfl
@[simp] theorem State.storeNat_atsDenied (s : State) (a n x : Nat) : (s.storeNat a n x).atsDenied = s.atsDenied := rfl
@[simp] theorem State.storeNat_walks (s : State) (a n x : Nat) : (s.storeNat a n x).walks = s.walks := rfl
@[simp] theorem State.storeNat_rakes (s : State) (a n x : Nat) : (s.storeNat a n x).rakes = s.rakes := rfl
@[simp] theorem State.storeNat_chams (s : State) (a n x : Nat) : (s.storeNat a n x).chams = s.chams := rfl
@[simp] theorem State.storeNat_homes (s : State) (a n x : Nat) : (s.storeNat a n x).homes = s.homes := rfl
@[simp] theorem State.storeNat_rays (s : State) (a n x : Nat) : (s.storeNat a n x).rays = s.rays := rfl
@[simp] theorem State.storeNat_pageIns (s : State) (a n x : Nat) : (s.storeNat a n x).pageIns = s.pageIns := rfl
@[simp] theorem State.storeNat_launches (s : State) (a n x : Nat) : (s.storeNat a n x).launches = s.launches := rfl
@[simp] theorem State.storeNat_seqs (s : State) (a n x : Nat) : (s.storeNat a n x).seqs = s.seqs := rfl
@[simp] theorem State.storeNat_channels (s : State) (a n x : Nat) : (s.storeNat a n x).channels = s.channels := rfl
@[simp] theorem State.storeNat_lastSrc (s : State) (a n x : Nat) : (s.storeNat a n x).lastSrc = s.lastSrc := rfl
@[simp] theorem State.storeNat_selected (s : State) (a n x : Nat) : (s.storeNat a n x).selected = s.selected := rfl
@[simp] theorem State.storeNat_grants (s : State) (a n x : Nat) : (s.storeNat a n x).grants = s.grants := rfl
@[simp] theorem State.storeNat_serials (s : State) (a n x : Nat) : (s.storeNat a n x).serials = s.serials := rfl
@[simp] theorem State.storeNat_saves (s : State) (a n x : Nat) : (s.storeNat a n x).saves = s.saves := rfl
@[simp] theorem State.storeNat_hostRegs (s : State) (a n x : Nat) : (s.storeNat a n x).hostRegs = s.hostRegs := rfl
@[simp] theorem State.storeNat_invals (s : State) (a n x : Nat) : (s.storeNat a n x).invals = s.invals := rfl
@[simp] theorem State.storeNat_msix (s : State) (a n x : Nat) : (s.storeNat a n x).msix = s.msix := rfl
@[simp] theorem State.storeNat_lenbo (s : State) (a n x : Nat) : (s.storeNat a n x).lenbo = s.lenbo := rfl
@[simp] theorem State.storeNat_mgmt (s : State) (a n x : Nat) : (s.storeNat a n x).mgmt = s.mgmt := rfl
@[simp] theorem State.storeNat_spdm (s : State) (a n x : Nat) : (s.storeNat a n x).spdm = s.spdm := rfl
@[simp] theorem State.storeNat_power (s : State) (a n x : Nat) : (s.storeNat a n x).power = s.power := rfl
@[simp] theorem State.storeNat_deviceKey (s : State) (a n x : Nat) : (s.storeNat a n x).deviceKey = s.deviceKey := rfl
@[simp] theorem State.storeNat_attestKey (s : State) (a n x : Nat) : (s.storeNat a n x).attestKey = s.attestKey := rfl
@[simp] theorem State.storeNat_poweredAt (s : State) (a n x : Nat) : (s.storeNat a n x).poweredAt = s.poweredAt := rfl
@[simp] theorem State.storeNat_flash (s : State) (a n x : Nat) : (s.storeNat a n x).flash = s.flash := rfl
@[simp] theorem State.storeNat_flashNext (s : State) (a n x : Nat) : (s.storeNat a n x).flashNext = s.flashNext := rfl
@[simp] theorem State.storeNat_retries (s : State) (a n x : Nat) : (s.storeNat a n x).retries = s.retries := rfl
@[simp] theorem State.storeNat_alerts (s : State) (a n x : Nat) : (s.storeNat a n x).alerts = s.alerts := rfl

@[simp] theorem State.storeBytes_cur (s : State) (a : Nat) (b : List Byte) : (s.storeBytes a b).cur = s.cur := rfl
@[simp] theorem State.storeBytes_ev (s : State) (a : Nat) (b : List Byte) : (s.storeBytes a b).ev = s.ev := rfl
@[simp] theorem State.storeBytes_agenda (s : State) (a : Nat) (b : List Byte) : (s.storeBytes a b).agenda = s.agenda := rfl
@[simp] theorem State.storeBytes_timed (s : State) (a : Nat) (b : List Byte) : (s.storeBytes a b).timed = s.timed := rfl
@[simp] theorem State.storeBytes_ticks (s : State) (a : Nat) (b : List Byte) : (s.storeBytes a b).ticks = s.ticks := rfl
@[simp] theorem State.storeBytes_turn (s : State) (a : Nat) (b : List Byte) : (s.storeBytes a b).turn = s.turn := rfl
@[simp] theorem State.storeBytes_fresh (s : State) (a : Nat) (b : List Byte) : (s.storeBytes a b).fresh = s.fresh := rfl
@[simp] theorem State.storeBytes_nextId (s : State) (a : Nat) (b : List Byte) : (s.storeBytes a b).nextId = s.nextId := rfl
@[simp] theorem State.storeBytes_cores (s : State) (a : Nat) (b : List Byte) : (s.storeBytes a b).cores = s.cores := rfl
@[simp] theorem State.storeBytes_saved (s : State) (a : Nat) (b : List Byte) : (s.storeBytes a b).saved = s.saved := rfl
@[simp] theorem State.storeBytes_savedBeds (s : State) (a : Nat) (b : List Byte) : (s.storeBytes a b).savedBeds = s.savedBeds := rfl
@[simp] theorem State.storeBytes_beds (s : State) (a : Nat) (b : List Byte) : (s.storeBytes a b).beds = s.beds := rfl
@[simp] theorem State.storeBytes_groups (s : State) (a : Nat) (b : List Byte) : (s.storeBytes a b).groups = s.groups := rfl
@[simp] theorem State.storeBytes_poison (s : State) (a : Nat) (b : List Byte) : (s.storeBytes a b).poison = s.poison := rfl
@[simp] theorem State.storeBytes_msgs (s : State) (a : Nat) (b : List Byte) : (s.storeBytes a b).msgs = s.msgs := rfl
@[simp] theorem State.storeBytes_copies (s : State) (a : Nat) (b : List Byte) : (s.storeBytes a b).copies = s.copies := rfl
@[simp] theorem State.storeBytes_tlb (s : State) (a : Nat) (b : List Byte) : (s.storeBytes a b).tlb = s.tlb := rfl
@[simp] theorem State.storeBytes_pageGroups (s : State) (a : Nat) (b : List Byte) : (s.storeBytes a b).pageGroups = s.pageGroups := rfl
@[simp] theorem State.storeBytes_pageWaits (s : State) (a : Nat) (b : List Byte) : (s.storeBytes a b).pageWaits = s.pageWaits := rfl
@[simp] theorem State.storeBytes_answered (s : State) (a : Nat) (b : List Byte) : (s.storeBytes a b).answered = s.answered := rfl
@[simp] theorem State.storeBytes_denied (s : State) (a : Nat) (b : List Byte) : (s.storeBytes a b).denied = s.denied := rfl
@[simp] theorem State.storeBytes_pasidSeen (s : State) (a : Nat) (b : List Byte) : (s.storeBytes a b).pasidSeen = s.pasidSeen := rfl
@[simp] theorem State.storeBytes_atsAsked (s : State) (a : Nat) (b : List Byte) : (s.storeBytes a b).atsAsked = s.atsAsked := rfl
@[simp] theorem State.storeBytes_atsDenied (s : State) (a : Nat) (b : List Byte) : (s.storeBytes a b).atsDenied = s.atsDenied := rfl
@[simp] theorem State.storeBytes_walks (s : State) (a : Nat) (b : List Byte) : (s.storeBytes a b).walks = s.walks := rfl
@[simp] theorem State.storeBytes_rakes (s : State) (a : Nat) (b : List Byte) : (s.storeBytes a b).rakes = s.rakes := rfl
@[simp] theorem State.storeBytes_chams (s : State) (a : Nat) (b : List Byte) : (s.storeBytes a b).chams = s.chams := rfl
@[simp] theorem State.storeBytes_homes (s : State) (a : Nat) (b : List Byte) : (s.storeBytes a b).homes = s.homes := rfl
@[simp] theorem State.storeBytes_rays (s : State) (a : Nat) (b : List Byte) : (s.storeBytes a b).rays = s.rays := rfl
@[simp] theorem State.storeBytes_pageIns (s : State) (a : Nat) (b : List Byte) : (s.storeBytes a b).pageIns = s.pageIns := rfl
@[simp] theorem State.storeBytes_launches (s : State) (a : Nat) (b : List Byte) : (s.storeBytes a b).launches = s.launches := rfl
@[simp] theorem State.storeBytes_seqs (s : State) (a : Nat) (b : List Byte) : (s.storeBytes a b).seqs = s.seqs := rfl
@[simp] theorem State.storeBytes_channels (s : State) (a : Nat) (b : List Byte) : (s.storeBytes a b).channels = s.channels := rfl
@[simp] theorem State.storeBytes_lastSrc (s : State) (a : Nat) (b : List Byte) : (s.storeBytes a b).lastSrc = s.lastSrc := rfl
@[simp] theorem State.storeBytes_selected (s : State) (a : Nat) (b : List Byte) : (s.storeBytes a b).selected = s.selected := rfl
@[simp] theorem State.storeBytes_grants (s : State) (a : Nat) (b : List Byte) : (s.storeBytes a b).grants = s.grants := rfl
@[simp] theorem State.storeBytes_serials (s : State) (a : Nat) (b : List Byte) : (s.storeBytes a b).serials = s.serials := rfl
@[simp] theorem State.storeBytes_saves (s : State) (a : Nat) (b : List Byte) : (s.storeBytes a b).saves = s.saves := rfl
@[simp] theorem State.storeBytes_hostRegs (s : State) (a : Nat) (b : List Byte) : (s.storeBytes a b).hostRegs = s.hostRegs := rfl
@[simp] theorem State.storeBytes_invals (s : State) (a : Nat) (b : List Byte) : (s.storeBytes a b).invals = s.invals := rfl
@[simp] theorem State.storeBytes_msix (s : State) (a : Nat) (b : List Byte) : (s.storeBytes a b).msix = s.msix := rfl
@[simp] theorem State.storeBytes_lenbo (s : State) (a : Nat) (b : List Byte) : (s.storeBytes a b).lenbo = s.lenbo := rfl
@[simp] theorem State.storeBytes_mgmt (s : State) (a : Nat) (b : List Byte) : (s.storeBytes a b).mgmt = s.mgmt := rfl
@[simp] theorem State.storeBytes_spdm (s : State) (a : Nat) (b : List Byte) : (s.storeBytes a b).spdm = s.spdm := rfl
@[simp] theorem State.storeBytes_power (s : State) (a : Nat) (b : List Byte) : (s.storeBytes a b).power = s.power := rfl
@[simp] theorem State.storeBytes_deviceKey (s : State) (a : Nat) (b : List Byte) : (s.storeBytes a b).deviceKey = s.deviceKey := rfl
@[simp] theorem State.storeBytes_attestKey (s : State) (a : Nat) (b : List Byte) : (s.storeBytes a b).attestKey = s.attestKey := rfl
@[simp] theorem State.storeBytes_poweredAt (s : State) (a : Nat) (b : List Byte) : (s.storeBytes a b).poweredAt = s.poweredAt := rfl
@[simp] theorem State.storeBytes_flash (s : State) (a : Nat) (b : List Byte) : (s.storeBytes a b).flash = s.flash := rfl
@[simp] theorem State.storeBytes_flashNext (s : State) (a : Nat) (b : List Byte) : (s.storeBytes a b).flashNext = s.flashNext := rfl
@[simp] theorem State.storeBytes_retries (s : State) (a : Nat) (b : List Byte) : (s.storeBytes a b).retries = s.retries := rfl
@[simp] theorem State.storeBytes_alerts (s : State) (a : Nat) (b : List Byte) : (s.storeBytes a b).alerts = s.alerts := rfl

@[simp] theorem State.setPoison_cur (s : State) (a : Nat) : (s.setPoison a).cur = s.cur := rfl
@[simp] theorem State.setPoison_ev (s : State) (a : Nat) : (s.setPoison a).ev = s.ev := rfl
@[simp] theorem State.setPoison_agenda (s : State) (a : Nat) : (s.setPoison a).agenda = s.agenda := rfl
@[simp] theorem State.setPoison_timed (s : State) (a : Nat) : (s.setPoison a).timed = s.timed := rfl
@[simp] theorem State.setPoison_ticks (s : State) (a : Nat) : (s.setPoison a).ticks = s.ticks := rfl
@[simp] theorem State.setPoison_turn (s : State) (a : Nat) : (s.setPoison a).turn = s.turn := rfl
@[simp] theorem State.setPoison_fresh (s : State) (a : Nat) : (s.setPoison a).fresh = s.fresh := rfl
@[simp] theorem State.setPoison_nextId (s : State) (a : Nat) : (s.setPoison a).nextId = s.nextId := rfl
@[simp] theorem State.setPoison_cores (s : State) (a : Nat) : (s.setPoison a).cores = s.cores := rfl
@[simp] theorem State.setPoison_saved (s : State) (a : Nat) : (s.setPoison a).saved = s.saved := rfl
@[simp] theorem State.setPoison_savedBeds (s : State) (a : Nat) : (s.setPoison a).savedBeds = s.savedBeds := rfl
@[simp] theorem State.setPoison_beds (s : State) (a : Nat) : (s.setPoison a).beds = s.beds := rfl
@[simp] theorem State.setPoison_groups (s : State) (a : Nat) : (s.setPoison a).groups = s.groups := rfl
@[simp] theorem State.setPoison_mem (s : State) (a : Nat) : (s.setPoison a).mem = s.mem := rfl
@[simp] theorem State.setPoison_msgs (s : State) (a : Nat) : (s.setPoison a).msgs = s.msgs := rfl
@[simp] theorem State.setPoison_copies (s : State) (a : Nat) : (s.setPoison a).copies = s.copies := rfl
@[simp] theorem State.setPoison_tlb (s : State) (a : Nat) : (s.setPoison a).tlb = s.tlb := rfl
@[simp] theorem State.setPoison_pageGroups (s : State) (a : Nat) : (s.setPoison a).pageGroups = s.pageGroups := rfl
@[simp] theorem State.setPoison_pageWaits (s : State) (a : Nat) : (s.setPoison a).pageWaits = s.pageWaits := rfl
@[simp] theorem State.setPoison_answered (s : State) (a : Nat) : (s.setPoison a).answered = s.answered := rfl
@[simp] theorem State.setPoison_denied (s : State) (a : Nat) : (s.setPoison a).denied = s.denied := rfl
@[simp] theorem State.setPoison_pasidSeen (s : State) (a : Nat) : (s.setPoison a).pasidSeen = s.pasidSeen := rfl
@[simp] theorem State.setPoison_atsAsked (s : State) (a : Nat) : (s.setPoison a).atsAsked = s.atsAsked := rfl
@[simp] theorem State.setPoison_atsDenied (s : State) (a : Nat) : (s.setPoison a).atsDenied = s.atsDenied := rfl
@[simp] theorem State.setPoison_walks (s : State) (a : Nat) : (s.setPoison a).walks = s.walks := rfl
@[simp] theorem State.setPoison_rakes (s : State) (a : Nat) : (s.setPoison a).rakes = s.rakes := rfl
@[simp] theorem State.setPoison_chams (s : State) (a : Nat) : (s.setPoison a).chams = s.chams := rfl
@[simp] theorem State.setPoison_homes (s : State) (a : Nat) : (s.setPoison a).homes = s.homes := rfl
@[simp] theorem State.setPoison_rays (s : State) (a : Nat) : (s.setPoison a).rays = s.rays := rfl
@[simp] theorem State.setPoison_pageIns (s : State) (a : Nat) : (s.setPoison a).pageIns = s.pageIns := rfl
@[simp] theorem State.setPoison_launches (s : State) (a : Nat) : (s.setPoison a).launches = s.launches := rfl
@[simp] theorem State.setPoison_seqs (s : State) (a : Nat) : (s.setPoison a).seqs = s.seqs := rfl
@[simp] theorem State.setPoison_channels (s : State) (a : Nat) : (s.setPoison a).channels = s.channels := rfl
@[simp] theorem State.setPoison_lastSrc (s : State) (a : Nat) : (s.setPoison a).lastSrc = s.lastSrc := rfl
@[simp] theorem State.setPoison_selected (s : State) (a : Nat) : (s.setPoison a).selected = s.selected := rfl
@[simp] theorem State.setPoison_grants (s : State) (a : Nat) : (s.setPoison a).grants = s.grants := rfl
@[simp] theorem State.setPoison_serials (s : State) (a : Nat) : (s.setPoison a).serials = s.serials := rfl
@[simp] theorem State.setPoison_saves (s : State) (a : Nat) : (s.setPoison a).saves = s.saves := rfl
@[simp] theorem State.setPoison_hostRegs (s : State) (a : Nat) : (s.setPoison a).hostRegs = s.hostRegs := rfl
@[simp] theorem State.setPoison_invals (s : State) (a : Nat) : (s.setPoison a).invals = s.invals := rfl
@[simp] theorem State.setPoison_msix (s : State) (a : Nat) : (s.setPoison a).msix = s.msix := rfl
@[simp] theorem State.setPoison_lenbo (s : State) (a : Nat) : (s.setPoison a).lenbo = s.lenbo := rfl
@[simp] theorem State.setPoison_mgmt (s : State) (a : Nat) : (s.setPoison a).mgmt = s.mgmt := rfl
@[simp] theorem State.setPoison_spdm (s : State) (a : Nat) : (s.setPoison a).spdm = s.spdm := rfl
@[simp] theorem State.setPoison_power (s : State) (a : Nat) : (s.setPoison a).power = s.power := rfl
@[simp] theorem State.setPoison_deviceKey (s : State) (a : Nat) : (s.setPoison a).deviceKey = s.deviceKey := rfl
@[simp] theorem State.setPoison_attestKey (s : State) (a : Nat) : (s.setPoison a).attestKey = s.attestKey := rfl
@[simp] theorem State.setPoison_poweredAt (s : State) (a : Nat) : (s.setPoison a).poweredAt = s.poweredAt := rfl
@[simp] theorem State.setPoison_flash (s : State) (a : Nat) : (s.setPoison a).flash = s.flash := rfl
@[simp] theorem State.setPoison_flashNext (s : State) (a : Nat) : (s.setPoison a).flashNext = s.flashNext := rfl
@[simp] theorem State.setPoison_retries (s : State) (a : Nat) : (s.setPoison a).retries = s.retries := rfl
@[simp] theorem State.setPoison_alerts (s : State) (a : Nat) : (s.setPoison a).alerts = s.alerts := rfl

@[simp] theorem State.clearPoison_cur (s : State) (a : Nat) : (s.clearPoison a).cur = s.cur := rfl
@[simp] theorem State.clearPoison_ev (s : State) (a : Nat) : (s.clearPoison a).ev = s.ev := rfl
@[simp] theorem State.clearPoison_agenda (s : State) (a : Nat) : (s.clearPoison a).agenda = s.agenda := rfl
@[simp] theorem State.clearPoison_timed (s : State) (a : Nat) : (s.clearPoison a).timed = s.timed := rfl
@[simp] theorem State.clearPoison_ticks (s : State) (a : Nat) : (s.clearPoison a).ticks = s.ticks := rfl
@[simp] theorem State.clearPoison_turn (s : State) (a : Nat) : (s.clearPoison a).turn = s.turn := rfl
@[simp] theorem State.clearPoison_fresh (s : State) (a : Nat) : (s.clearPoison a).fresh = s.fresh := rfl
@[simp] theorem State.clearPoison_nextId (s : State) (a : Nat) : (s.clearPoison a).nextId = s.nextId := rfl
@[simp] theorem State.clearPoison_cores (s : State) (a : Nat) : (s.clearPoison a).cores = s.cores := rfl
@[simp] theorem State.clearPoison_saved (s : State) (a : Nat) : (s.clearPoison a).saved = s.saved := rfl
@[simp] theorem State.clearPoison_savedBeds (s : State) (a : Nat) : (s.clearPoison a).savedBeds = s.savedBeds := rfl
@[simp] theorem State.clearPoison_beds (s : State) (a : Nat) : (s.clearPoison a).beds = s.beds := rfl
@[simp] theorem State.clearPoison_groups (s : State) (a : Nat) : (s.clearPoison a).groups = s.groups := rfl
@[simp] theorem State.clearPoison_mem (s : State) (a : Nat) : (s.clearPoison a).mem = s.mem := rfl
@[simp] theorem State.clearPoison_msgs (s : State) (a : Nat) : (s.clearPoison a).msgs = s.msgs := rfl
@[simp] theorem State.clearPoison_copies (s : State) (a : Nat) : (s.clearPoison a).copies = s.copies := rfl
@[simp] theorem State.clearPoison_tlb (s : State) (a : Nat) : (s.clearPoison a).tlb = s.tlb := rfl
@[simp] theorem State.clearPoison_pageGroups (s : State) (a : Nat) : (s.clearPoison a).pageGroups = s.pageGroups := rfl
@[simp] theorem State.clearPoison_pageWaits (s : State) (a : Nat) : (s.clearPoison a).pageWaits = s.pageWaits := rfl
@[simp] theorem State.clearPoison_answered (s : State) (a : Nat) : (s.clearPoison a).answered = s.answered := rfl
@[simp] theorem State.clearPoison_denied (s : State) (a : Nat) : (s.clearPoison a).denied = s.denied := rfl
@[simp] theorem State.clearPoison_pasidSeen (s : State) (a : Nat) : (s.clearPoison a).pasidSeen = s.pasidSeen := rfl
@[simp] theorem State.clearPoison_atsAsked (s : State) (a : Nat) : (s.clearPoison a).atsAsked = s.atsAsked := rfl
@[simp] theorem State.clearPoison_atsDenied (s : State) (a : Nat) : (s.clearPoison a).atsDenied = s.atsDenied := rfl
@[simp] theorem State.clearPoison_walks (s : State) (a : Nat) : (s.clearPoison a).walks = s.walks := rfl
@[simp] theorem State.clearPoison_rakes (s : State) (a : Nat) : (s.clearPoison a).rakes = s.rakes := rfl
@[simp] theorem State.clearPoison_chams (s : State) (a : Nat) : (s.clearPoison a).chams = s.chams := rfl
@[simp] theorem State.clearPoison_homes (s : State) (a : Nat) : (s.clearPoison a).homes = s.homes := rfl
@[simp] theorem State.clearPoison_rays (s : State) (a : Nat) : (s.clearPoison a).rays = s.rays := rfl
@[simp] theorem State.clearPoison_pageIns (s : State) (a : Nat) : (s.clearPoison a).pageIns = s.pageIns := rfl
@[simp] theorem State.clearPoison_launches (s : State) (a : Nat) : (s.clearPoison a).launches = s.launches := rfl
@[simp] theorem State.clearPoison_seqs (s : State) (a : Nat) : (s.clearPoison a).seqs = s.seqs := rfl
@[simp] theorem State.clearPoison_channels (s : State) (a : Nat) : (s.clearPoison a).channels = s.channels := rfl
@[simp] theorem State.clearPoison_lastSrc (s : State) (a : Nat) : (s.clearPoison a).lastSrc = s.lastSrc := rfl
@[simp] theorem State.clearPoison_selected (s : State) (a : Nat) : (s.clearPoison a).selected = s.selected := rfl
@[simp] theorem State.clearPoison_grants (s : State) (a : Nat) : (s.clearPoison a).grants = s.grants := rfl
@[simp] theorem State.clearPoison_serials (s : State) (a : Nat) : (s.clearPoison a).serials = s.serials := rfl
@[simp] theorem State.clearPoison_saves (s : State) (a : Nat) : (s.clearPoison a).saves = s.saves := rfl
@[simp] theorem State.clearPoison_hostRegs (s : State) (a : Nat) : (s.clearPoison a).hostRegs = s.hostRegs := rfl
@[simp] theorem State.clearPoison_invals (s : State) (a : Nat) : (s.clearPoison a).invals = s.invals := rfl
@[simp] theorem State.clearPoison_msix (s : State) (a : Nat) : (s.clearPoison a).msix = s.msix := rfl
@[simp] theorem State.clearPoison_lenbo (s : State) (a : Nat) : (s.clearPoison a).lenbo = s.lenbo := rfl
@[simp] theorem State.clearPoison_mgmt (s : State) (a : Nat) : (s.clearPoison a).mgmt = s.mgmt := rfl
@[simp] theorem State.clearPoison_spdm (s : State) (a : Nat) : (s.clearPoison a).spdm = s.spdm := rfl
@[simp] theorem State.clearPoison_power (s : State) (a : Nat) : (s.clearPoison a).power = s.power := rfl
@[simp] theorem State.clearPoison_deviceKey (s : State) (a : Nat) : (s.clearPoison a).deviceKey = s.deviceKey := rfl
@[simp] theorem State.clearPoison_attestKey (s : State) (a : Nat) : (s.clearPoison a).attestKey = s.attestKey := rfl
@[simp] theorem State.clearPoison_poweredAt (s : State) (a : Nat) : (s.clearPoison a).poweredAt = s.poweredAt := rfl
@[simp] theorem State.clearPoison_flash (s : State) (a : Nat) : (s.clearPoison a).flash = s.flash := rfl
@[simp] theorem State.clearPoison_flashNext (s : State) (a : Nat) : (s.clearPoison a).flashNext = s.flashNext := rfl
@[simp] theorem State.clearPoison_retries (s : State) (a : Nat) : (s.clearPoison a).retries = s.retries := rfl
@[simp] theorem State.clearPoison_alerts (s : State) (a : Nat) : (s.clearPoison a).alerts = s.alerts := rfl

@[simp] theorem State.sendMsix_cur (s : State) (v : Nat) : (s.sendMsix v).cur = s.cur := rfl
@[simp] theorem State.sendMsix_ev (s : State) (v : Nat) : (s.sendMsix v).ev = s.ev := rfl
@[simp] theorem State.sendMsix_agenda (s : State) (v : Nat) : (s.sendMsix v).agenda = s.agenda := rfl
@[simp] theorem State.sendMsix_timed (s : State) (v : Nat) : (s.sendMsix v).timed = s.timed := rfl
@[simp] theorem State.sendMsix_ticks (s : State) (v : Nat) : (s.sendMsix v).ticks = s.ticks := rfl
@[simp] theorem State.sendMsix_turn (s : State) (v : Nat) : (s.sendMsix v).turn = s.turn := rfl
@[simp] theorem State.sendMsix_fresh (s : State) (v : Nat) : (s.sendMsix v).fresh = s.fresh := rfl
@[simp] theorem State.sendMsix_nextId (s : State) (v : Nat) : (s.sendMsix v).nextId = s.nextId := rfl
@[simp] theorem State.sendMsix_cores (s : State) (v : Nat) : (s.sendMsix v).cores = s.cores := rfl
@[simp] theorem State.sendMsix_saved (s : State) (v : Nat) : (s.sendMsix v).saved = s.saved := rfl
@[simp] theorem State.sendMsix_savedBeds (s : State) (v : Nat) : (s.sendMsix v).savedBeds = s.savedBeds := rfl
@[simp] theorem State.sendMsix_beds (s : State) (v : Nat) : (s.sendMsix v).beds = s.beds := rfl
@[simp] theorem State.sendMsix_groups (s : State) (v : Nat) : (s.sendMsix v).groups = s.groups := rfl
@[simp] theorem State.sendMsix_mem (s : State) (v : Nat) : (s.sendMsix v).mem = s.mem := rfl
@[simp] theorem State.sendMsix_poison (s : State) (v : Nat) : (s.sendMsix v).poison = s.poison := rfl
@[simp] theorem State.sendMsix_msgs (s : State) (v : Nat) : (s.sendMsix v).msgs = s.msgs := rfl
@[simp] theorem State.sendMsix_copies (s : State) (v : Nat) : (s.sendMsix v).copies = s.copies := rfl
@[simp] theorem State.sendMsix_tlb (s : State) (v : Nat) : (s.sendMsix v).tlb = s.tlb := rfl
@[simp] theorem State.sendMsix_pageGroups (s : State) (v : Nat) : (s.sendMsix v).pageGroups = s.pageGroups := rfl
@[simp] theorem State.sendMsix_pageWaits (s : State) (v : Nat) : (s.sendMsix v).pageWaits = s.pageWaits := rfl
@[simp] theorem State.sendMsix_answered (s : State) (v : Nat) : (s.sendMsix v).answered = s.answered := rfl
@[simp] theorem State.sendMsix_denied (s : State) (v : Nat) : (s.sendMsix v).denied = s.denied := rfl
@[simp] theorem State.sendMsix_pasidSeen (s : State) (v : Nat) : (s.sendMsix v).pasidSeen = s.pasidSeen := rfl
@[simp] theorem State.sendMsix_atsAsked (s : State) (v : Nat) : (s.sendMsix v).atsAsked = s.atsAsked := rfl
@[simp] theorem State.sendMsix_atsDenied (s : State) (v : Nat) : (s.sendMsix v).atsDenied = s.atsDenied := rfl
@[simp] theorem State.sendMsix_walks (s : State) (v : Nat) : (s.sendMsix v).walks = s.walks := rfl
@[simp] theorem State.sendMsix_rakes (s : State) (v : Nat) : (s.sendMsix v).rakes = s.rakes := rfl
@[simp] theorem State.sendMsix_chams (s : State) (v : Nat) : (s.sendMsix v).chams = s.chams := rfl
@[simp] theorem State.sendMsix_homes (s : State) (v : Nat) : (s.sendMsix v).homes = s.homes := rfl
@[simp] theorem State.sendMsix_rays (s : State) (v : Nat) : (s.sendMsix v).rays = s.rays := rfl
@[simp] theorem State.sendMsix_pageIns (s : State) (v : Nat) : (s.sendMsix v).pageIns = s.pageIns := rfl
@[simp] theorem State.sendMsix_launches (s : State) (v : Nat) : (s.sendMsix v).launches = s.launches := rfl
@[simp] theorem State.sendMsix_seqs (s : State) (v : Nat) : (s.sendMsix v).seqs = s.seqs := rfl
@[simp] theorem State.sendMsix_channels (s : State) (v : Nat) : (s.sendMsix v).channels = s.channels := rfl
@[simp] theorem State.sendMsix_lastSrc (s : State) (v : Nat) : (s.sendMsix v).lastSrc = s.lastSrc := rfl
@[simp] theorem State.sendMsix_selected (s : State) (v : Nat) : (s.sendMsix v).selected = s.selected := rfl
@[simp] theorem State.sendMsix_grants (s : State) (v : Nat) : (s.sendMsix v).grants = s.grants := rfl
@[simp] theorem State.sendMsix_serials (s : State) (v : Nat) : (s.sendMsix v).serials = s.serials := rfl
@[simp] theorem State.sendMsix_saves (s : State) (v : Nat) : (s.sendMsix v).saves = s.saves := rfl
@[simp] theorem State.sendMsix_hostRegs (s : State) (v : Nat) : (s.sendMsix v).hostRegs = s.hostRegs := rfl
@[simp] theorem State.sendMsix_invals (s : State) (v : Nat) : (s.sendMsix v).invals = s.invals := rfl
@[simp] theorem State.sendMsix_lenbo (s : State) (v : Nat) : (s.sendMsix v).lenbo = s.lenbo := rfl
@[simp] theorem State.sendMsix_mgmt (s : State) (v : Nat) : (s.sendMsix v).mgmt = s.mgmt := rfl
@[simp] theorem State.sendMsix_spdm (s : State) (v : Nat) : (s.sendMsix v).spdm = s.spdm := rfl
@[simp] theorem State.sendMsix_power (s : State) (v : Nat) : (s.sendMsix v).power = s.power := rfl
@[simp] theorem State.sendMsix_deviceKey (s : State) (v : Nat) : (s.sendMsix v).deviceKey = s.deviceKey := rfl
@[simp] theorem State.sendMsix_attestKey (s : State) (v : Nat) : (s.sendMsix v).attestKey = s.attestKey := rfl
@[simp] theorem State.sendMsix_poweredAt (s : State) (v : Nat) : (s.sendMsix v).poweredAt = s.poweredAt := rfl
@[simp] theorem State.sendMsix_flash (s : State) (v : Nat) : (s.sendMsix v).flash = s.flash := rfl
@[simp] theorem State.sendMsix_flashNext (s : State) (v : Nat) : (s.sendMsix v).flashNext = s.flashNext := rfl
@[simp] theorem State.sendMsix_retries (s : State) (v : Nat) : (s.sendMsix v).retries = s.retries := rfl
@[simp] theorem State.sendMsix_alerts (s : State) (v : Nat) : (s.sendMsix v).alerts = s.alerts := rfl

/-! ### Fields of a core and of a context that an update leaves alone -/

@[simp] theorem Core.modCtx_run (k : Core) (c : Fin 11) (g : Context → Context) : (k.modCtx c g).run = k.run := rfl
@[simp] theorem Core.modCtx_launch (k : Core) (c : Fin 11) (g : Context → Context) : (k.modCtx c g).launch = k.launch := rfl
@[simp] theorem Core.modCtx_group (k : Core) (c : Fin 11) (g : Context → Context) : (k.modCtx c g).group = k.group := rfl
@[simp] theorem Core.modCtx_helpers (k : Core) (c : Fin 11) (g : Context → Context) : (k.modCtx c g).helpers = k.helpers := rfl
@[simp] theorem Core.modCtx_rr (k : Core) (c : Fin 11) (g : Context → Context) : (k.modCtx c g).rr = k.rr := rfl
@[simp] theorem Core.modCtx_tried (k : Core) (c : Fin 11) (g : Context → Context) : (k.modCtx c g).tried = k.tried := rfl
@[simp] theorem Core.modCtx_kseg (k : Core) (c : Fin 11) (g : Context → Context) : (k.modCtx c g).kseg = k.kseg := rfl
@[simp] theorem Core.modCtx_kxph (k : Core) (c : Fin 11) (g : Context → Context) : (k.modCtx c g).kxph = k.kxph := rfl
@[simp] theorem Core.modCtx_kwtmo (k : Core) (c : Fin 11) (g : Context → Context) : (k.modCtx c g).kwtmo = k.kwtmo := rfl
@[simp] theorem Core.modCtx_kstvec (k : Core) (c : Fin 11) (g : Context → Context) : (k.modCtx c g).kstvec = k.kstvec := rfl
@[simp] theorem Core.modCtx_kbrine (k : Core) (c : Fin 11) (g : Context → Context) : (k.modCtx c g).kbrine = k.kbrine := rfl
@[simp] theorem Core.modCtx_kerr (k : Core) (c : Fin 11) (g : Context → Context) : (k.modCtx c g).kerr = k.kerr := rfl
@[simp] theorem Core.modCtx_klatent (k : Core) (c : Fin 11) (g : Context → Context) : (k.modCtx c g).klatent = k.klatent := rfl
@[simp] theorem Core.modCtx_kMark (k : Core) (c : Fin 11) (g : Context → Context) : (k.modCtx c g).kMark = k.kMark := rfl
@[simp] theorem Core.modCtx_claim (k : Core) (c : Fin 11) (g : Context → Context) : (k.modCtx c g).claim = k.claim := rfl
@[simp] theorem Core.modCtx_acc (k : Core) (c : Fin 11) (g : Context → Context) : (k.modCtx c g).acc = k.acc := rfl
@[simp] theorem Core.modCtx_accMark (k : Core) (c : Fin 11) (g : Context → Context) : (k.modCtx c g).accMark = k.accMark := rfl
@[simp] theorem Core.modCtx_fifo (k : Core) (c : Fin 11) (g : Context → Context) : (k.modCtx c g).fifo = k.fifo := rfl
@[simp] theorem Core.modCtx_fifoBad (k : Core) (c : Fin 11) (g : Context → Context) : (k.modCtx c g).fifoBad = k.fifoBad := rfl
@[simp] theorem Core.modCtx_latch (k : Core) (c : Fin 11) (g : Context → Context) : (k.modCtx c g).latch = k.latch := rfl
@[simp] theorem Core.modCtx_desync (k : Core) (c : Fin 11) (g : Context → Context) : (k.modCtx c g).desync = k.desync := rfl
@[simp] theorem Core.modCtx_arrival (k : Core) (c : Fin 11) (g : Context → Context) : (k.modCtx c g).arrival = k.arrival := rfl
@[simp] theorem Core.modCtx_matOp (k : Core) (c : Fin 11) (g : Context → Context) : (k.modCtx c g).matOp = k.matOp := rfl
@[simp] theorem Core.modCtx_rep (k : Core) (c : Fin 11) (g : Context → Context) : (k.modCtx c g).rep = k.rep := rfl
@[simp] theorem Core.modCtx_sfu (k : Core) (c : Fin 11) (g : Context → Context) : (k.modCtx c g).sfu = k.sfu := rfl
@[simp] theorem Core.modCtx_q0 (k : Core) (c : Fin 11) (g : Context → Context) : (k.modCtx c g).q0 = k.q0 := rfl
@[simp] theorem Core.modCtx_q2 (k : Core) (c : Fin 11) (g : Context → Context) : (k.modCtx c g).q2 = k.q2 := rfl
@[simp] theorem Core.modCtx_q3 (k : Core) (c : Fin 11) (g : Context → Context) : (k.modCtx c g).q3 = k.q3 := rfl
@[simp] theorem Core.modCtx_ov0 (k : Core) (c : Fin 11) (g : Context → Context) : (k.modCtx c g).ov0 = k.ov0 := rfl
@[simp] theorem Core.modCtx_ov2 (k : Core) (c : Fin 11) (g : Context → Context) : (k.modCtx c g).ov2 = k.ov2 := rfl
@[simp] theorem Core.modCtx_ov3 (k : Core) (c : Fin 11) (g : Context → Context) : (k.modCtx c g).ov3 = k.ov3 := rfl
@[simp] theorem Core.modCtx_ovIdx (k : Core) (c : Fin 11) (g : Context → Context) : (k.modCtx c g).ovIdx = k.ovIdx := rfl
@[simp] theorem Core.modCtx_tags (k : Core) (c : Fin 11) (g : Context → Context) : (k.modCtx c g).tags = k.tags := rfl
@[simp] theorem Core.modCtx_win (k : Core) (c : Fin 11) (g : Context → Context) : (k.modCtx c g).win = k.win := rfl
@[simp] theorem Core.modCtx_past (k : Core) (c : Fin 11) (g : Context → Context) : (k.modCtx c g).past = k.past := rfl
@[simp] theorem Core.modCtx_epoch (k : Core) (c : Fin 11) (g : Context → Context) : (k.modCtx c g).epoch = k.epoch := rfl
@[simp] theorem Core.modCtx_sends (k : Core) (c : Fin 11) (g : Context → Context) : (k.modCtx c g).sends = k.sends := rfl
@[simp] theorem Core.modCtx_slots (k : Core) (c : Fin 11) (g : Context → Context) : (k.modCtx c g).slots = k.slots := rfl
@[simp] theorem Core.modCtx_fptrs (k : Core) (c : Fin 11) (g : Context → Context) : (k.modCtx c g).fptrs = k.fptrs := rfl
@[simp] theorem Core.modCtx_scache (k : Core) (c : Fin 11) (g : Context → Context) : (k.modCtx c g).scache = k.scache := rfl
@[simp] theorem Core.modCtx_dbgWord (k : Core) (c : Fin 11) (g : Context → Context) : (k.modCtx c g).dbgWord = k.dbgWord := rfl
@[simp] theorem Core.modCtx_dbgHalt (k : Core) (c : Fin 11) (g : Context → Context) : (k.modCtx c g).dbgHalt = k.dbgHalt := rfl
@[simp] theorem Core.modCtx_xlongDue (k : Core) (c : Fin 11) (g : Context → Context) : (k.modCtx c g).xlongDue = k.xlongDue := rfl
@[simp] theorem Core.modCtx_owed (k : Core) (c : Fin 11) (g : Context → Context) : (k.modCtx c g).owed = k.owed := rfl
@[simp] theorem Core.modCtx_barrier (k : Core) (c : Fin 11) (g : Context → Context) : (k.modCtx c g).barrier = k.barrier := rfl
@[simp] theorem Core.modCtx_barEnd (k : Core) (c : Fin 11) (g : Context → Context) : (k.modCtx c g).barEnd = k.barEnd := rfl
@[simp] theorem Core.modCtx_faulted (k : Core) (c : Fin 11) (g : Context → Context) : (k.modCtx c g).faulted = k.faulted := rfl
@[simp] theorem Core.modCtx_sup (k : Core) (c : Fin 11) (g : Context → Context) : (k.modCtx c g).sup = k.sup := rfl
@[simp] theorem Core.modCtx_boot (k : Core) (c : Fin 11) (g : Context → Context) : (k.modCtx c g).boot = k.boot := rfl
@[simp] theorem Core.modCtx_brkHeld (k : Core) (c : Fin 11) (g : Context → Context) : (k.modCtx c g).brkHeld = k.brkHeld := rfl
@[simp] theorem Core.modCtx_scaleBad (k : Core) (c : Fin 11) (g : Context → Context) : (k.modCtx c g).scaleBad = k.scaleBad := rfl

@[simp] theorem Core.latent_ctxs (k : Core) (n : Nat) : (k.latent n).ctxs = k.ctxs := rfl
@[simp] theorem Core.latent_run (k : Core) (n : Nat) : (k.latent n).run = k.run := rfl
@[simp] theorem Core.latent_launch (k : Core) (n : Nat) : (k.latent n).launch = k.launch := rfl
@[simp] theorem Core.latent_group (k : Core) (n : Nat) : (k.latent n).group = k.group := rfl
@[simp] theorem Core.latent_helpers (k : Core) (n : Nat) : (k.latent n).helpers = k.helpers := rfl
@[simp] theorem Core.latent_rr (k : Core) (n : Nat) : (k.latent n).rr = k.rr := rfl
@[simp] theorem Core.latent_tried (k : Core) (n : Nat) : (k.latent n).tried = k.tried := rfl
@[simp] theorem Core.latent_kseg (k : Core) (n : Nat) : (k.latent n).kseg = k.kseg := rfl
@[simp] theorem Core.latent_kxph (k : Core) (n : Nat) : (k.latent n).kxph = k.kxph := rfl
@[simp] theorem Core.latent_kwtmo (k : Core) (n : Nat) : (k.latent n).kwtmo = k.kwtmo := rfl
@[simp] theorem Core.latent_kstvec (k : Core) (n : Nat) : (k.latent n).kstvec = k.kstvec := rfl
@[simp] theorem Core.latent_kbrine (k : Core) (n : Nat) : (k.latent n).kbrine = k.kbrine := rfl
@[simp] theorem Core.latent_kerr (k : Core) (n : Nat) : (k.latent n).kerr = k.kerr := rfl
@[simp] theorem Core.latent_kMark (k : Core) (n : Nat) : (k.latent n).kMark = k.kMark := rfl
@[simp] theorem Core.latent_claim (k : Core) (n : Nat) : (k.latent n).claim = k.claim := rfl
@[simp] theorem Core.latent_acc (k : Core) (n : Nat) : (k.latent n).acc = k.acc := rfl
@[simp] theorem Core.latent_accMark (k : Core) (n : Nat) : (k.latent n).accMark = k.accMark := rfl
@[simp] theorem Core.latent_fifo (k : Core) (n : Nat) : (k.latent n).fifo = k.fifo := rfl
@[simp] theorem Core.latent_fifoBad (k : Core) (n : Nat) : (k.latent n).fifoBad = k.fifoBad := rfl
@[simp] theorem Core.latent_latch (k : Core) (n : Nat) : (k.latent n).latch = k.latch := rfl
@[simp] theorem Core.latent_desync (k : Core) (n : Nat) : (k.latent n).desync = k.desync := rfl
@[simp] theorem Core.latent_arrival (k : Core) (n : Nat) : (k.latent n).arrival = k.arrival := rfl
@[simp] theorem Core.latent_matOp (k : Core) (n : Nat) : (k.latent n).matOp = k.matOp := rfl
@[simp] theorem Core.latent_rep (k : Core) (n : Nat) : (k.latent n).rep = k.rep := rfl
@[simp] theorem Core.latent_sfu (k : Core) (n : Nat) : (k.latent n).sfu = k.sfu := rfl
@[simp] theorem Core.latent_q0 (k : Core) (n : Nat) : (k.latent n).q0 = k.q0 := rfl
@[simp] theorem Core.latent_q2 (k : Core) (n : Nat) : (k.latent n).q2 = k.q2 := rfl
@[simp] theorem Core.latent_q3 (k : Core) (n : Nat) : (k.latent n).q3 = k.q3 := rfl
@[simp] theorem Core.latent_ov0 (k : Core) (n : Nat) : (k.latent n).ov0 = k.ov0 := rfl
@[simp] theorem Core.latent_ov2 (k : Core) (n : Nat) : (k.latent n).ov2 = k.ov2 := rfl
@[simp] theorem Core.latent_ov3 (k : Core) (n : Nat) : (k.latent n).ov3 = k.ov3 := rfl
@[simp] theorem Core.latent_ovIdx (k : Core) (n : Nat) : (k.latent n).ovIdx = k.ovIdx := rfl
@[simp] theorem Core.latent_tags (k : Core) (n : Nat) : (k.latent n).tags = k.tags := rfl
@[simp] theorem Core.latent_win (k : Core) (n : Nat) : (k.latent n).win = k.win := rfl
@[simp] theorem Core.latent_past (k : Core) (n : Nat) : (k.latent n).past = k.past := rfl
@[simp] theorem Core.latent_epoch (k : Core) (n : Nat) : (k.latent n).epoch = k.epoch := rfl
@[simp] theorem Core.latent_sends (k : Core) (n : Nat) : (k.latent n).sends = k.sends := rfl
@[simp] theorem Core.latent_slots (k : Core) (n : Nat) : (k.latent n).slots = k.slots := rfl
@[simp] theorem Core.latent_fptrs (k : Core) (n : Nat) : (k.latent n).fptrs = k.fptrs := rfl
@[simp] theorem Core.latent_scache (k : Core) (n : Nat) : (k.latent n).scache = k.scache := rfl
@[simp] theorem Core.latent_dbgWord (k : Core) (n : Nat) : (k.latent n).dbgWord = k.dbgWord := rfl
@[simp] theorem Core.latent_dbgHalt (k : Core) (n : Nat) : (k.latent n).dbgHalt = k.dbgHalt := rfl
@[simp] theorem Core.latent_xlongDue (k : Core) (n : Nat) : (k.latent n).xlongDue = k.xlongDue := rfl
@[simp] theorem Core.latent_owed (k : Core) (n : Nat) : (k.latent n).owed = k.owed := rfl
@[simp] theorem Core.latent_barrier (k : Core) (n : Nat) : (k.latent n).barrier = k.barrier := rfl
@[simp] theorem Core.latent_barEnd (k : Core) (n : Nat) : (k.latent n).barEnd = k.barEnd := rfl
@[simp] theorem Core.latent_faulted (k : Core) (n : Nat) : (k.latent n).faulted = k.faulted := rfl
@[simp] theorem Core.latent_sup (k : Core) (n : Nat) : (k.latent n).sup = k.sup := rfl
@[simp] theorem Core.latent_boot (k : Core) (n : Nat) : (k.latent n).boot = k.boot := rfl
@[simp] theorem Core.latent_brkHeld (k : Core) (n : Nat) : (k.latent n).brkHeld = k.brkHeld := rfl
@[simp] theorem Core.latent_scaleBad (k : Core) (n : Nat) : (k.latent n).scaleBad = k.scaleBad := rfl
/-! ### Reading back -/

theorem assoc_assocSet_same {α : Type} (d : α) (k : Nat) (x : α) (l : List (Nat × α)) : assoc d k (assocSet k x l) = x := by
  induction l with
  | nil => simp [assocSet, assoc]
  | cons h l ih =>
    obtain ⟨j, a⟩ := h
    by_cases h1 : j = k
    · simp [assocSet, assoc, h1]
    · by_cases h2 : k < j <;> simp [assocSet, assoc, h1, h2, ih]

theorem assoc_assocSet_other {α : Type} (d : α) (k n : Nat) (x : α) (l : List (Nat × α)) (h : n ≠ k) :
    assoc d n (assocSet k x l) = assoc d n l := by
  induction l with
  | nil => simp [assocSet, assoc, Ne.symm h]
  | cons e l ih =>
    obtain ⟨j, a⟩ := e
    by_cases h1 : j = k
    · subst h1; simp [assocSet, assoc, Ne.symm h]
    · by_cases h2 : k < j
      · simp [assocSet, assoc, h1, h2, Ne.symm h]
      · simp only [assocSet, h1, h2, if_false, assoc, ih]

@[simp] theorem State.core_setCore (s : State) (n : Nat) (k : Core) : (s.setCore n k).core n = k :=
  assoc_assocSet_same _ _ _ _

theorem State.core_setCore_other (s : State) (n m : Nat) (k : Core) (h : m ≠ n) : (s.setCore n k).core m = s.core m :=
  assoc_assocSet_other _ _ _ _ _ h

@[simp] theorem State.core_modCore (s : State) (n : Nat) (f : Core → Core) : (s.modCore n f).core n = f (s.core n) :=
  s.core_setCore n _

theorem State.core_modCore_other (s : State) (n m : Nat) (f : Core → Core) (h : m ≠ n) :
    (s.modCore n f).core m = s.core m := s.core_setCore_other n m _ h

@[simp] theorem State.here_modHere (s : State) (f : Core → Core) : (s.modHere f).here = f s.here :=
  s.core_modCore s.cur.core f

@[simp] theorem Core.ctxs_modCtx (k : Core) (c : Fin 11) (f : Context → Context) :
    (k.modCtx c f).ctxs[c] = f k.ctxs[c] := by simp [Core.modCtx]

theorem Core.ctxs_modCtx_other (k : Core) (c d : Fin 11) (f : Context → Context) (h : d ≠ c) :
    (k.modCtx c f).ctxs[d] = k.ctxs[d] := by
  have h' : c.val ≠ d.val := fun e => h (Fin.ext e.symm)
  simp [Core.modCtx, Vector.getElem_set, h']

@[simp] theorem State.ctx_modCtx (s : State) (n : Nat) (c : Fin 11) (f : Context → Context) :
    (s.modCtx n c f).ctx n c = f (s.ctx n c) := by
  simp only [State.ctx, State.modCtx, State.core_modCore, Core.ctxs_modCtx]

@[simp] theorem State.cx_modHere (s : State) (f : Core → Core) : (s.modHere f).cx = (f s.here).ctxs[s.cur.ctx] := by
  simp only [State.cx, State.here_modHere, State.modHere_cur]

@[simp] theorem State.cx_modCx (s : State) (f : Context → Context) : (s.modCx f).cx = f s.cx := by
  show (s.modHere fun k => k.modCtx s.cur.ctx f).cx = _
  simp only [State.cx_modHere, Core.ctxs_modCtx]; rfl

@[simp] theorem State.here_modCx (s : State) (f : Context → Context) : (s.modCx f).here = s.here.modCtx s.cur.ctx f :=
  s.here_modHere _

@[simp] theorem Core.ctxs_latent (k : Core) (n : Nat) : (k.latent n).ctxs = k.ctxs := rfl

/-- The bytes and poison bits of memory are those of the two lists. -/
theorem State.byteAt_congr {s t : State} (h : t.mem = s.mem) (a : Nat) : t.byteAt a = s.byteAt a := by
  simp [State.byteAt, h]

end Sys2Proof.Machine
end

