-- ==== Sys2Proof/Laws/Ops.lean ====
section
/-! SUPPORT. One lemma for each operation that writes registers of the issuing context: all it can do. -/

namespace Sys2Proof.Machine

/-- A change of the issuing core that touches only its issuing context and KLATENT. -/
theorem State.modHere_ctxOnly (s : State) (f : Core → Core)
    (hk : f s.here = { s.here with ctxs := (f s.here).ctxs, klatent := (f s.here).klatent })
    (hc : ∀ c : Fin 11, c ≠ s.cur.ctx → (f s.here).ctxs[c] = s.here.ctxs[c]) : s.ctxOnly (s.modHere f) where
  rest := rfl
  mem _ := rfl
  cores n h := s.core_modCore_other _ n _ h
  core := by rw [State.here_modHere]; exact hk
  ctxs c h := by rw [State.here_modHere]; exact hc c h

/-- A change of the issuing context alone. -/
theorem State.modCx_ctxOnly (s : State) (f : Context → Context) : s.ctxOnly (s.modCx f) :=
  s.modHere_ctxOnly _ rfl fun c h => Core.ctxs_modCtx_other _ _ c f h

/-- A change of the issuing context and of nothing else. -/
theorem State.modCx_became (s : State) (f : Context → Context) : s.became (s.modCx f) (f s.cx) where
  toctxOnly := s.modCx_ctxOnly f
  cx := s.cx_modCx f
  count := by simp

/-- A jump moves the PC and nothing else. -/
theorem State.setPc_wentTo (s : State) (a : Off) : s.wentTo (s.setPc a) a := s.modCx_became _

theorem bitOf_withBit_same {n : Nat} (x : BitVec n) (i : Nat) (b : Bool) (h : i < n) : bitOf (withBit x i b) i = b := by
  cases b <;> simp [bitOf, withBit, h]

theorem bitOf_withBit_other {n : Nat} (x : BitVec n) (i j : Nat) (b : Bool) (h : j ≠ i) :
    bitOf (withBit x i b) j = bitOf x j := by
  cases b
  · simp only [bitOf, withBit, Bool.false_eq_true, if_false, BitVec.getLsbD_and, BitVec.getLsbD_not,
      BitVec.getLsbD_shiftLeft, BitVec.getLsbD_one]
    by_cases hj : j < n
    · have : j < i ∨ 0 < j - i := by omega
      rcases this with h' | h'
      · simp [h', hj]
      · have : ¬ j - i = 0 := by omega
        simp [this, hj]
    · simp [BitVec.getLsbD_of_ge _ _ (Nat.le_of_not_lt hj)]
  · simp only [bitOf, withBit, if_true, BitVec.getLsbD_or, BitVec.getLsbD_shiftLeft, BitVec.getLsbD_one]
    have : j < i ∨ ¬ j - i = 0 := by omega
    rcases this with h' | h' <;> simp [h']

theorem Vector.get_set_same {α : Type} {n : Nat} (v : Vector α n) (i : Fin n) (x : α) : (v.set i x)[i] = x := by simp

theorem Vector.get_set_other {α : Type} {n : Nat} (v : Vector α n) (i j : Fin n) (x : α) (h : j ≠ i) :
    (v.set i x)[j] = v[j] := by
  have h' : i.val ≠ j.val := fun e => h (Fin.ext e.symm)
  simp [h']

/-- Writing gD: the register holds the value and the mark, g0 stays 0, and nothing else changes. -/
theorem State.setG_gotG (s : State) (d : Fin 32) (x : Word) (m : Bool) : s.gotG (s.setG d x m) d x m := by
  by_cases hd : d = 0
  · subst hd
    have e : s.setG 0 x m = s.modHere id := by
      simp only [State.setG, State.modHere, State.modCore, Core.writeG, if_true, id]
    rw [e]
    refine ⟨⟨s.modHere_ctxOnly _ rfl fun _ _ => rfl, ?_⟩, ?_, ?_, ?_, ?_, ?_⟩ <;>
      simp [Context.g, Context.gBad, State.cx]
  · have e : s.setG d x m = s.modHere fun k => (k.modCtx s.cur.ctx fun y =>
        { y with r.g := y.r.g.set d x, r.gMark := withBit y.r.gMark d m, r.gAt := y.r.gAt.set d k.epoch }).latent
        (if bitOf k.ctxs[s.cur.ctx].r.gMark d && !m then 1 else 0) := by
      simp only [State.setG, State.modHere, State.modCore, Core.writeG, hd, if_false]
    have c : (s.setG d x m).cx = { s.cx with
        r.g := s.cx.r.g.set d x, r.gMark := withBit s.cx.r.gMark d m, r.gAt := s.cx.r.gAt.set d s.here.epoch } := by
      rw [e, State.cx_modHere, Core.ctxs_latent, Core.ctxs_modCtx]; rfl
    refine ⟨⟨?_, ?_⟩, ?_, ?_, ?_, ?_, ?_⟩
    · rw [e]
      exact s.modHere_ctxOnly _ rfl fun c h => by
        rw [Core.ctxs_latent]; exact Core.ctxs_modCtx_other _ _ c _ h
    · rw [c]
    · rw [c]; simp [Context.g, hd]
    · rw [c]; simp [Context.gBad, hd, bitOf_withBit_same]
    · intro r hr
      have hv : r.val ≠ d.val := fun h => hr (Fin.ext h)
      rw [c]
      refine ⟨?_, ?_⟩
      · show (if r = 0 then 0 else (s.cx.r.g.set d x)[r]) = _
        rw [Vector.get_set_other _ _ _ _ hr]; rfl
      · show (decide (r ≠ 0) && bitOf (withBit s.cx.r.gMark d m) r) = _
        rw [bitOf_withBit_other _ _ _ _ hv]; rfl
    · rw [c]; exact ⟨rfl, rfl⟩
    · rw [c]; exact ⟨rfl, rfl⟩

theorem laneAt_bit (l i : Nat) (hi : i < 256) :
    (laneBits.laneAt l).getLsbD i = decide (64 * l ≤ i ∧ i < 64 * l + 64) := by
  simp only [laneBits.laneAt, BitVec.getLsbD_shiftLeft, BitVec.getLsbD_setWidth, BitVec.getLsbD_allOnes]
  by_cases h : i < 64 * l
  · have : ¬ (64 * l ≤ i ∧ i < 64 * l + 64) := by omega
    simp [h, this]
  · by_cases h2 : i - 64 * l < 64
    · have : 64 * l ≤ i ∧ i < 64 * l + 64 := by omega
      have h3 : i - 64 * l < 256 := by omega
      simp [h, h2, hi, this]; omega
    · have : ¬ (64 * l ≤ i ∧ i < 64 * l + 64) := by omega
      simp [h2, this]

/-- A bit of a lane's bits is the mask's bit of its lane. -/
theorem laneBits_bit (m : Mask) (l j : Nat) (hl : l < 4) (hj : j < 64) :
    (laneBits m).getLsbD (64 * l + j) = bitOf m l := by
  have a (k : Nat) : (laneBits.laneAt k).getLsbD (64 * l + j) = decide (k = l) := by
    rw [laneAt_bit _ _ (by omega)]
    by_cases h : k = l
    · subst h; simp [hj]
    · simp [h]; omega
  have z (b : Bool) (k : Nat) : (if b = true then laneBits.laneAt k else 0).getLsbD (64 * l + j) = (b && decide (k = l)) := by
    cases b <;> simp [a]
  simp only [laneBits, BitVec.getLsbD_or, z]
  have : l = 0 ∨ l = 1 ∨ l = 2 ∨ l = 3 := by omega
  rcases this with h | h | h | h <;> subst h <;> simp

/-- A lane of a partly written vector register. -/
theorem lane_mix (old x : VReg) (m : Mask) (l : Nat) (hl : l < 4) :
    lane l ((old &&& ~~~laneBits m) ||| (x &&& laneBits m)) = if bitOf m l then lane l x else lane l old := by
  apply BitVec.eq_of_getLsbD_eq
  intro j hj
  have h := laneBits_bit m l j hl hj
  have h2 : 64 * l + j < 256 := by omega
  rw [BitVec.getLsbD_eq_getElem h2] at h
  cases hb : bitOf m l <;> simp [lane, elem, hj, h, hb, h2]

/-- An element written reads back. -/
theorem elem_setElem_same {n w i : Nat} (x : BitVec n) (e : BitVec w) (h : w * i + w ≤ n) :
    elem w i (setElem w i x e) = e := by
  apply BitVec.eq_of_getLsbD_eq
  intro j hj
  have h1 : w * i + j < n := by omega
  have h2 : j < n := by omega
  have h3 : ¬ w * i + j < w * i := by omega
  have h4 : w * i + j - w * i = j := by omega
  simp only [elem, setElem, BitVec.getLsbD_extractLsb', hj, decide_true, Bool.true_and, BitVec.getLsbD_or,
    BitVec.getLsbD_and, BitVec.getLsbD_not, BitVec.getLsbD_shiftLeft, BitVec.getLsbD_setWidth, BitVec.getLsbD_allOnes,
    h1, h2, h3, h4, decide_false, Bool.not_false, Bool.not_true, Bool.and_false, Bool.false_or]

/-- The other elements stay. -/
theorem elem_setElem_other {n w i j : Nat} (x : BitVec n) (e : BitVec w) (h : w * j + w ≤ n) (hij : j ≠ i) :
    elem w j (setElem w i x e) = elem w j x := by
  apply BitVec.eq_of_getLsbD_eq
  intro k hk
  have h1 : w * j + k < n := by omega
  have hd : w * j + k < w * i ∨ w ≤ w * j + k - w * i := by
    rcases Nat.lt_or_gt_of_ne hij with h | h
    · left
      have := Nat.mul_le_mul_left w (Nat.succ_le_of_lt h)
      rw [Nat.mul_succ] at this
      omega
    · right
      have := Nat.mul_le_mul_left w (Nat.succ_le_of_lt h)
      rw [Nat.mul_succ] at this
      omega
  simp only [elem, setElem, BitVec.getLsbD_extractLsb', hk, decide_true, Bool.true_and, BitVec.getLsbD_or,
    BitVec.getLsbD_and, BitVec.getLsbD_not, BitVec.getLsbD_shiftLeft, BitVec.getLsbD_setWidth, BitVec.getLsbD_allOnes, h1]
  rcases hd with hd | hd
  · simp [hd]
  · have h5 : ¬ w * j + k - w * i < w := by omega
    have h6 : e.getLsbD (w * j + k - w * i) = false := BitVec.getLsbD_of_ge _ _ hd
    simp [h5, h6]

/-- Writing lanes of vD: they hold the value and the marks; its other lanes and everything else stay. -/
theorem State.setV_gotV (s : State) (d : Fin 32) (m : Mask) (x : VReg) (marks : Mask) :
    s.gotV (s.setV d m x marks) d m (fun l => lane l x) marks := by
  have c : (s.setV d m x marks).cx = { s.cx with
      r.v := s.cx.r.v.set d ((s.cx.v d &&& ~~~laneBits m) ||| (x &&& laneBits m))
      r.vMark := setElem 4 d.val s.cx.r.vMark ((s.cx.vBad d &&& ~~~m) ||| (marks &&& m)) } := by
    rw [State.setV, State.cx_modHere, Core.writeV, Core.ctxs_latent, Core.ctxs_modCtx]; rfl
  refine ⟨⟨?_, ?_⟩, ?_, ?_, ?_, ?_, ?_⟩
  · exact s.modHere_ctxOnly _ rfl fun c h => by
      rw [Core.writeV, Core.ctxs_latent]; exact Core.ctxs_modCtx_other _ _ c _ h
  · rw [c]
  · intro l hl
    rw [c, ← lane_mix _ _ _ _ hl]
    simp [Context.v]
  · rw [c]
    exact elem_setElem_same _ _ (by omega)
  · intro r hr
    rw [c]
    refine ⟨?_, ?_⟩
    · exact Vector.get_set_other _ _ _ _ hr
    · exact elem_setElem_other _ _ (by omega) fun h => hr (Fin.ext h)
  · rw [c]; exact ⟨rfl, rfl⟩
  · rw [c]; exact ⟨rfl, rfl⟩

/-- Writing bits of pD: they hold the value, p0 stays 0xF; its other bits and everything else stay. -/
theorem State.setP_gotP (s : State) (d : Fin 8) (m x : Mask) :
    s.gotP (s.setP d m x) d m (fun l => bitOf x l) := by
  by_cases hd : d = 0
  · subst hd
    have e : s.setP 0 m x = s.modHere id := by
      simp only [State.setP, State.modHere, State.modCore, Core.writeP, if_true, id]
    rw [e]
    refine ⟨⟨s.modHere_ctxOnly _ rfl fun _ _ => rfl, ?_⟩, ?_, ?_, ?_, ?_⟩ <;>
      simp [State.cx]
  · have e : s.setP d m x = s.modHere fun k => (k.modCtx s.cur.ctx fun y =>
        { y with r.p := y.r.p.set d ((y.r.p[d] &&& ~~~m) ||| (x &&& m)),
                 r.pMark := if m = 0xF then withBit y.r.pMark d false else y.r.pMark }).latent
        (if decide (m = 0xF) && bitOf k.ctxs[s.cur.ctx].r.pMark d then 1 else 0) := by
      simp only [State.setP, State.modHere, State.modCore, Core.writeP, hd, if_false]
    have c : (s.setP d m x).cx = { s.cx with
        r.p := s.cx.r.p.set d ((s.cx.r.p[d] &&& ~~~m) ||| (x &&& m))
        r.pMark := if m = 0xF then withBit s.cx.r.pMark d false else s.cx.r.pMark } := by
      rw [e, State.cx_modHere, Core.ctxs_latent, Core.ctxs_modCtx]; rfl
    refine ⟨⟨?_, ?_⟩, ?_, ?_, ?_, ?_⟩
    · rw [e]
      exact s.modHere_ctxOnly _ rfl fun c h => by
        rw [Core.ctxs_latent]; exact Core.ctxs_modCtx_other _ _ c _ h
    · rw [c]
    · intro l hl
      rw [c]
      cases hb : bitOf m l <;> simp_all [Context.p, bitOf]
    · intro r hr
      have hv : r.val ≠ d.val := fun h => hr (Fin.ext h)
      rw [c]
      refine ⟨?_, ?_⟩
      · show (if r = 0 then 0xF else (s.cx.r.p.set d _)[r]) = _
        rw [Vector.get_set_other _ _ _ _ hr]; rfl
      · simp only [Context.pBad]
        split
        · rw [bitOf_withBit_other _ _ _ _ hv]
        · rfl
    · rw [c]; exact ⟨rfl, rfl⟩
    · rw [c]; exact ⟨rfl, rfl⟩

theorem Core.ctxs_suspendRep (k : Core) (c : Fin 11) : (k.suspendRep c).ctxs = k.ctxs := rfl

theorem Core.ctxs_deferTrap (k : Core) (c : Fin 11) : (k.deferTrap c).ctxs = k.ctxs := by
  unfold Core.deferTrap; split <;> rfl

/-- What taking a trap leaves of a core's contexts. -/
theorem Core.ctxs_taken (k : Core) (c : Fin 11) (f : Context → Context) :
    (((k.modCtx c f).suspendRep c).deferTrap c).ctxs = (k.modCtx c f).ctxs := by
  rw [Core.ctxs_deferTrap, Core.ctxs_suspendRep]

/-- The trap of a bundle that is not the one at the trap entry. -/
theorem State.trapOf_next (s : State) (n : Nat) (c : Fin 11) (p : Off) (t : TrapRec)
    (h : ¬ ((s.ctx n c).mode = true ∧ p = trapEntry (s.core n).kstvec)) :
    s.trapOf n c p t = s.modCore n fun k => ((k.modCtx c fun x => x.enter t k.kstvec).suspendRep c).deferTrap c := by
  simp only [State.trapOf]
  exact if_neg h

/-- Taking a trap: all it can do, unless it stops the core (R110, R221). -/
theorem State.trap_tookTrap (s : State) (r : TrapRec) (h : ¬ s.doubleFault) (hl : r.lres = none) (hf : r.lf = none) :
    s.tookTrap (s.trap r) r.kcause r.epc (r.addr &&& 0x00FFFFFFFFFFFFFF) := by
  have e : s.trap r = { s.modHere fun k => ((k.modCtx s.cur.ctx fun x => x.enter r k.kstvec).suspendRep s.cur.ctx).deferTrap
      s.cur.ctx with cur.trapped := true } := by
    rw [State.trap, State.trapOf_next _ _ _ _ _ h]; rfl
  have c : (s.trap r).cx = s.cx.enter r s.here.kstvec := by
    rw [e]
    show State.cx (s.modHere _) = _
    rw [State.cx_modHere, Core.ctxs_taken, Core.ctxs_modCtx]; rfl
  have k (n : Nat) : (s.trap r).core n = (s.modHere fun k =>
      ((k.modCtx s.cur.ctx fun x => x.enter r k.kstvec).suspendRep s.cur.ctx).deferTrap s.cur.ctx).core n := by rw [e]; rfl
  refine ⟨?_, ?_, ?_, ?_, ?_, ?_, ?_, ?_, ?_, ?_, ?_⟩
  · rw [c]; rfl
  · rw [c]; rfl
  · rw [c]; rfl
  · rw [c]; rfl
  · rw [c]; rfl
  · rw [c]; rfl
  · rw [c]; simp [Context.enter, Context.record, hl, hf]
  · intro x hx
    have : (s.trap r).here = (s.modHere fun k =>
      ((k.modCtx s.cur.ctx fun x => x.enter r k.kstvec).suspendRep s.cur.ctx).deferTrap s.cur.ctx).here := by rw [e]; rfl
    rw [this, State.here_modHere, Core.ctxs_taken]
    exact Core.ctxs_modCtx_other _ _ x _ hx
  · intro n hn
    rw [k]
    exact State.core_modCore_other _ _ _ _ hn
  · intro a; rw [e]; rfl
  · rw [e]

/-- The record of an execution fault outside a replay. -/
theorem State.faultRec_plain (s : State) (c : Cause) (a : Word) (h : s.cur.replay = none) :
    s.faultRec c a = { code := c, epc := s.cur.at_, addr := a, pair := s.cur.pair && s.cur.isA } := by
  simp [State.faultRec, h]

/-- An execution fault: all it can do (R35, R110). -/
theorem State.fault_tookTrap (s : State) (c : Cause) (a : Word) (h : ¬ s.doubleFault) (hr : s.cur.replay = none) :
    s.tookTrap (s.fault c a) (s.faultCause c) s.cur.at_ (a &&& 0x00FFFFFFFFFFFFFF) := by
  have e : s.fault c a = s.trap (s.faultRec c a) := by simp [State.fault, hr]
  rw [e, State.faultRec_plain _ _ _ hr]
  have := s.trap_tookTrap { code := c, epc := s.cur.at_, addr := a, pair := s.cur.pair && s.cur.isA } h rfl rfl
  have k : TrapRec.kcause { code := c, epc := s.cur.at_, addr := a, pair := s.cur.pair && s.cur.isA } = s.faultCause c := by
    simp [TrapRec.kcause, State.faultCause, ofBool]
  rw [k] at this
  exact this
theorem assocSet_assocSet {α : Type} (k : Nat) (x y : α) (l : List (Nat × α)) :
    assocSet k x (assocSet k y l) = assocSet k x l := by
  induction l with
  | nil => simp [assocSet]
  | cons c r ih =>
    obtain ⟨j, a⟩ := c
    simp only [assocSet]
    by_cases h1 : j = k
    · simp [h1, assocSet]
    · by_cases h2 : k < j
      · simp [h1, h2, assocSet]
      · simp [h1, h2, assocSet, ih]

/-- Two changes of one core are one. -/
theorem State.modCore_modCore (s : State) (n : Nat) (f g : Core → Core) :
    (s.modCore n f).modCore n g = s.modCore n fun k => g (f k) := by
  have h : (s.modCore n f).core n = f (s.core n) := s.core_modCore n f
  show State.setCore (s.modCore n f) n (g ((s.modCore n f).core n)) = _
  rw [h]
  show { s.modCore n f with cores := assocSet n (g (f (s.core n))) (assocSet n (f (s.core n)) s.cores) } = _
  rw [assocSet_assocSet]
  rfl

theorem State.modHere_modHere (s : State) (f g : Core → Core) :
    (s.modHere f).modHere g = s.modHere fun k => g (f k) := s.modCore_modCore _ f g

theorem Core.modCtx_modCtx (k : Core) (c : Fin 11) (f g : Context → Context) :
    (k.modCtx c f).modCtx c g = k.modCtx c fun x => g (f x) := by
  simp [Core.modCtx]

theorem State.modCx_modCx (s : State) (f g : Context → Context) :
    (s.modCx f).modCx g = s.modCx fun x => g (f x) := by
  have h := s.modHere_modHere (fun k => k.modCtx s.cur.ctx f) (fun k => k.modCtx s.cur.ctx g)
  simp only [Core.modCtx_modCtx] at h
  exact h
end Sys2Proof.Machine
end

