-- ==== Sys2Proof/Laws/Instr.lean ====
section
/-! SUPPORT. One lemma for each shared form of instruction: what it answers when nothing stands in its way, and when its
sources are poisoned. -/

namespace Sys2Proof.Machine

/-! ### Scalar forms -/

/-- With no poisoned source a scalar instruction has its effect. -/
theorem State.scalar_clean (s e : State) (l : List (Fin 32)) (h : s.cleanG l) : s.scalar l e = .next e := by
  have : l.any s.src.gBad = false := by
    rw [List.any_eq_false]
    intro r hr
    simp [h r hr]
  simp [State.scalar, this]

/-- With a poisoned source it raises POISON (R85). -/
theorem State.scalar_poisoned (s e : State) (l : List (Fin 32)) (r : Fin 32) (hr : r ∈ l) (h : s.src.gBad r = true) :
    s.scalar l e = .next s.faultPoison := by
  have : l.any s.src.gBad = true := List.any_eq_true.mpr ⟨r, hr, h⟩
  simp [State.scalar, this]

theorem State.alu3_writes {s : State} {i : Instr} {f : Word → Word → Word} {d a b : Fin 32}
    (hi : exec i s = s.alu3 f d a b) (h : s.cleanG [a, b]) : s.writesG i d (f (s.src.g a) (s.src.g b)) :=
  ⟨_, by rw [hi, State.alu3, s.scalar_clean _ _ h]; rfl, s.setG_gotG d _ false⟩

theorem State.alu2_writes {s : State} {i : Instr} {f : Word → Word} {d a : Fin 32}
    (hi : exec i s = s.alu2 f d a) (h : s.cleanG [a]) : s.writesG i d (f (s.src.g a)) :=
  ⟨_, by rw [hi, State.alu2, s.scalar_clean _ _ h]; rfl, s.setG_gotG d _ false⟩

theorem State.scalar_writes (s : State) (i : Instr) (l : List (Fin 32)) (d : Fin 32) (x : Word)
    (hi : exec i s = s.scalar l (s.setG d x)) (h : s.cleanG l) : s.writesG i d x :=
  ⟨_, by rw [hi, s.scalar_clean _ _ h], s.setG_gotG d x false⟩

/-- A scalar instruction with a poisoned source traps with POISON, KADDR 0 (R85). -/
theorem State.scalar_faults (s : State) (i : Instr) (l : List (Fin 32)) (e : State) (hi : exec i s = s.scalar l e)
    (hp : s.plain) (r : Fin 32) (hr : r ∈ l) (h : s.src.gBad r = true) : s.faults i Cause.poison 0 := by
  refine ⟨s.faultPoison, ?_, ?_⟩
  · rw [hi, s.scalar_poisoned e l r hr h]
  · exact s.fault_tookTrap _ _ hp.1 hp.2

end Sys2Proof.Machine
end

