-- ==== Sys2Proof/Laws/Mem.lean ====
section
/-! SUPPORT. The laws of memory: a byte read after a write, and that every operation on memory keeps its canonical
form. -/

namespace Sys2Proof.Machine

theorem memAbove_mono {lo hi : Nat} {m : List Host.Cell} (h : memAbove hi m = true) (hl : lo ≤ hi) :
    memAbove lo m = true := by
  cases m with
  | nil => rfl
  | cons c r =>
    simp only [memAbove, Bool.and_eq_true, decide_eq_true_eq] at h ⊢
    exact ⟨⟨Nat.le_trans hl h.1.1, h.1.2⟩, h.2⟩

/-- Below everything listed a byte reads zero. -/
theorem memGet_below {lo a : Nat} {m : List Host.Cell} (h : memAbove lo m = true) (ha : a < lo) : memGet m a = 0 := by
  cases m with
  | nil => rfl
  | cons c r =>
    simp only [memAbove, Bool.and_eq_true, decide_eq_true_eq] at h
    have h1 : a ≠ c.1 := by omega
    have h2 : a < c.1 := by omega
    simp [memGet, h1, h2]

/-- A byte stored at or above `lo` keeps the canonical form above `lo`. -/
theorem memAbove_memSet {lo a : Nat} (m : List Host.Cell) (v : Byte) (h : memAbove lo m = true) (ha : lo ≤ a) :
    memAbove lo (memSet m a v) = true := by
  induction m generalizing lo with
  | nil =>
    by_cases hv : v = 0#8 <;> simp [memSet, memAbove, hv, ha]
  | cons c r ih =>
    have h0 := h
    simp only [memAbove, Bool.and_eq_true, decide_eq_true_eq] at h
    obtain ⟨⟨h1, h2⟩, h3⟩ := h
    simp only [memSet]
    split
    · rename_i hlt
      split
      · exact h0
      · rename_i hv
        simp only [memAbove, Bool.and_eq_true, decide_eq_true_eq]
        exact ⟨⟨ha, hv⟩, ⟨Nat.succ_le_of_lt hlt, h2⟩, h3⟩
    · split
      · rename_i heq
        split
        · exact memAbove_mono h3 (by omega)
        · rename_i hv
          simp only [memAbove, Bool.and_eq_true, decide_eq_true_eq]
          exact ⟨⟨ha, hv⟩, heq ▸ h3⟩
      · simp only [memAbove, Bool.and_eq_true, decide_eq_true_eq]
        exact ⟨⟨h1, h2⟩, ih h3 (by omega)⟩

/-- A byte read after a byte is stored. -/
theorem memGet_memSet {lo : Nat} (m : List Host.Cell) (a b : Nat) (v : Byte) (h : memAbove lo m = true) :
    memGet (memSet m a v) b = if b = a then v else memGet m b := by
  induction m generalizing lo with
  | nil =>
    by_cases hv : v = 0#8 <;> by_cases hb : b = a <;> simp [memSet, memGet, hv, hb]
  | cons c r ih =>
    simp only [memAbove, Bool.and_eq_true, decide_eq_true_eq] at h
    obtain ⟨⟨h1, h2⟩, h3⟩ := h
    obtain ⟨k, x⟩ := c
    simp only [memSet]
    by_cases hlt : a < k
    · by_cases hv : v = 0#8
      · by_cases hb : b = a
        · subst hb
          have : b ≠ k := by omega
          simp [hlt, hv, memGet, this]
        · simp [hlt, hv, hb]
      · by_cases hb : b = a
        · simp [hlt, hv, hb, memGet]
        · by_cases hb2 : b < a
          · have e1 : b ≠ k := by omega
            have e2 : b < k := by omega
            simp [hlt, hv, hb, memGet, hb2, e1, e2]
          · simp [hlt, hv, hb, memGet, hb2]
    · by_cases heq : a = k
      · subst heq
        by_cases hv : v = 0#8
        · by_cases hb : b = a
          · subst hb
            simp [hv, memGet_below h3 (Nat.lt_succ_self b)]
          · by_cases hb2 : b < a
            · simp [hv, hb, memGet, hb2, memGet_below h3 (show b < a + 1 by omega)]
            · simp [hv, hb, memGet, hb2]
        · by_cases hb : b = a
          · simp [hv, hb, memGet]
          · simp [hv, hb, memGet]
      · simp only [hlt, heq, if_false, memGet]
        rw [ih h3]
        by_cases hb : b = a
        · subst hb
          simp [hlt, heq]
        · simp [hb]

/-- Storing one byte keeps the canonical form. -/
theorem memSet_wf (m : List Host.Cell) (a : Nat) (v : Byte) (h : Memory.wf m = true) :
    Memory.wf (memSet m a v) = true := memAbove_memSet m v h (Nat.zero_le _)

/-- Storing bytes keeps the canonical form. -/
theorem memPut_wf (m : List Host.Cell) (a : Nat) (bs : List Byte) (h : Memory.wf m = true) :
    Memory.wf (memPut m a bs) = true := by
  induction bs generalizing m a with
  | nil => exact h
  | cons b bs ih => exact ih _ _ (memSet_wf m a b h)

/-- A byte read after bytes are stored: the stored byte inside, the old byte outside. -/
theorem memGet_memPut (m : List Host.Cell) (a b : Nat) (bs : List Byte) (h : Memory.wf m = true) :
    memGet (memPut m a bs) b = if a ≤ b ∧ b < a + bs.length then bs[b - a]?.getD 0 else memGet m b := by
  induction bs generalizing m a with
  | nil =>
    have : ¬ (a ≤ b ∧ b < a + 0) := by omega
    simp [memPut, this]
  | cons x bs ih =>
    rw [memPut, ih _ _ (memSet_wf m a x h), memGet_memSet m a b x h]
    by_cases h1 : a + 1 ≤ b ∧ b < a + 1 + bs.length
    · have h2 : a ≤ b ∧ b < a + (bs.length + 1) := by omega
      obtain ⟨k, hk⟩ : ∃ k, b - a = k + 1 := ⟨b - a - 1, by omega⟩
      have hk' : b - (a + 1) = k := by omega
      simp [h1, h2, hk, hk']
    · by_cases h3 : b = a
      · subst h3; simp
      · have h2 : ¬ (a ≤ b ∧ b < a + (x :: bs).length) := by simp only [List.length_cons]; omega
        rw [if_neg h1, if_neg h2, if_neg h3]

/-- Dropping bytes keeps the canonical form. -/
theorem memAbove_filter {lo : Nat} (m : List Host.Cell) (p : Host.Cell → Bool) (h : memAbove lo m = true) :
    memAbove lo (m.filter p) = true := by
  induction m generalizing lo with
  | nil => rfl
  | cons c r ih =>
    simp only [memAbove, Bool.and_eq_true, decide_eq_true_eq] at h
    by_cases hp : p c = true
    · rw [List.filter_cons_of_pos hp]
      simp only [memAbove, Bool.and_eq_true, decide_eq_true_eq]
      exact ⟨h.1, ih h.2⟩
    · rw [List.filter_cons_of_neg hp]
      exact memAbove_mono (ih h.2) (by omega)

theorem memDrop_wf (m : List Host.Cell) (a n : Nat) (h : Memory.wf m = true) : Memory.wf (memDrop m a n) = true :=
  memAbove_filter m _ h

/-- Copying bytes keeps the canonical form. -/
theorem memCopy_wf (m : List Host.Cell) (src dst n : Nat) (h : Memory.wf m = true) :
    Memory.wf (memCopy m src dst n) = true := by
  unfold memCopy
  generalize m.filter (cellIn src n) = l
  have h0 := memDrop_wf m dst n h
  generalize memDrop m dst n = m' at h0 ⊢
  induction l generalizing m' with
  | nil => exact h0
  | cons c r ih => exact ih _ (memSet_wf _ _ _ h0)

theorem natBytes_length (x n : Nat) : (natBytes x n).length = n := by
  induction n generalizing x with
  | zero => rfl
  | succ n ih => simp [natBytes, ih]

theorem memBytes_length (m : List Host.Cell) (a n : Nat) : (memBytes m a n).length = n := by
  induction n generalizing a with
  | zero => rfl
  | succ n ih => simp [memBytes, ih]

/-- The bytes of a number hold it, cut to their width (R7). -/
theorem leNat_natBytes (x n : Nat) : leNat (natBytes x n) = x % 256 ^ n := by
  induction n generalizing x with
  | zero => simp [natBytes, leNat, Nat.mod_one]
  | succ n ih =>
    have e : (BitVec.ofNat 8 x).toNat = x % 256 := BitVec.toNat_ofNat x 8
    rw [natBytes, leNat, ih, e, Nat.pow_succ, Nat.mul_comm (256 ^ n) 256, Nat.mod_mul]

/-- Bytes read where they were stored. -/
theorem memBytes_memPut (m : List Host.Cell) (a : Nat) (bs : List Byte) (h : Memory.wf m = true) :
    memBytes (memPut m a bs) a bs.length = bs := by
  suffices ∀ (k : Nat) (cs : List Byte), (∀ i, i < cs.length → memGet (memPut m a bs) (k + i) = cs[i]?.getD 0) →
      memBytes (memPut m a bs) k cs.length = cs by
    refine this a bs fun i hi => ?_
    rw [memGet_memPut m a _ bs h]
    have : a ≤ a + i ∧ a + i < a + bs.length := by omega
    simp [this]
  intro k cs
  induction cs generalizing k with
  | nil => intro _; rfl
  | cons c cs ih =>
    intro hc
    have h0 := hc 0 (by simp)
    simp only [Nat.add_zero, List.getElem?_cons_zero, Option.getD_some] at h0
    rw [List.length_cons, memBytes, h0, ih (k + 1)]
    intro i hi
    have := hc (i + 1) (by simpa using hi)
    simpa [Nat.add_assoc, Nat.add_comm 1 i] using this

/-- Two memories in canonical form that read alike are equal. -/
theorem mem_ext {lo : Nat} (m n : List Host.Cell) (hm : memAbove lo m = true) (hn : memAbove lo n = true)
    (h : ∀ a, memGet m a = memGet n a) : m = n := by
  induction m generalizing lo n with
  | nil =>
    cases n with
    | nil => rfl
    | cons c r =>
      simp only [memAbove, Bool.and_eq_true, decide_eq_true_eq] at hn
      have := h c.1
      simp [memGet] at this
      exact absurd this.symm hn.1.2
  | cons c r ih =>
    simp only [memAbove, Bool.and_eq_true, decide_eq_true_eq] at hm
    cases n with
    | nil =>
      have := h c.1
      simp [memGet] at this
      exact absurd this hm.1.2
    | cons d q =>
      simp only [memAbove, Bool.and_eq_true, decide_eq_true_eq] at hn
      obtain ⟨k, x⟩ := c
      obtain ⟨j, y⟩ := d
      have hk := h k
      have hj := h j
      simp only [memGet, if_true] at hk hj
      have e : k = j := by
        by_contra hne
        rcases Nat.lt_or_gt_of_ne hne with hlt | hlt
        · have : ¬ k = j := hne
          simp [this, hlt] at hk
          exact hm.1.2 hk
        · have : ¬ j = k := fun e => hne e.symm
          simp [this, hlt] at hj
          exact hn.1.2 hj.symm
      subst e
      simp only [if_true] at hk
      subst hk
      congr 1
      refine ih q hm.2 hn.2 fun a => ?_
      have ha := h a
      simp only [memGet] at ha
      by_cases e : a = k
      · subst e
        rw [memGet_below hm.2 (Nat.lt_succ_self a), memGet_below hn.2 (Nat.lt_succ_self a)]
      · by_cases l : a < k
        · rw [memGet_below hm.2 (by omega), memGet_below hn.2 (by omega)]
        · simpa [e, l] using ha

end Sys2Proof.Machine
end

