-- ==== Sys2Proof/Tests/Slice0.lean ====
section
/-! SUPPORT. The model's own tests. Words are written from the manual's encodings and results from its worked examples
and tables, or by hand from its rules. For each obligation with hypotheses, a `witness` shows a state that meets them,
clause by clause, at the edge of a range where there is one. -/

open Sys2Proof Sys2Proof.Machine

namespace Sys2Proof.Tests

set_option Elab.async false

/-- Core 0 with its c0 in supervisor mode, at the bundle of offset 8, its context changed by `f`. -/
def base (f : Context → Context := id) : State := { State.reset.placed.modCx f with cur := { p := 8, at_ := 8, next := 12 } }

/-- What an instruction leaves, seen through `g`; nothing when it does not answer a next state. -/
def after {α : Type} (i : Instr) (s : State) (g : State → α) : Option α :=
  match exec i s with
  | .next t => some (g t)
  | _ => none

/-- Registers of a context, set. -/
def gs (l : List (Fin 32 × Word)) (x : Context) : Context :=
  { x with r.g := l.foldl (fun v p => v.set p.1 p.2) x.r.g }
def vs (l : List (Fin 32 × VReg)) (x : Context) : Context :=
  { x with r.v := l.foldl (fun v p => v.set p.1 p.2) x.r.v }
def ps (l : List (Fin 8 × Mask)) (x : Context) : Context :=
  { x with r.p := l.foldl (fun v p => v.set p.1 p.2) x.r.p }

/-- The same word in each of the four lanes. -/
def four (x : Word) : VReg := x ++ x ++ x ++ x

/-- The state with an event's operands. -/
def evd (e : EvArg) (s : State) : State := { s with ev := e }

/-- Own ULM through its window. -/
def own : Word := 0x00FFE00000000000

/-- Core 0 with KSEG0 open to remote reads and writes too. -/
def opened : State := base.modHere fun k => { k with kseg := k.kseg.set 0 0x00000F8040000000 }

/-- Main memory from address 0 up to 2^30 mapped for PASID 0 (R335, R336, R411): the PASID entry stands at 0, and tables at
0x1000, 0x2000 and 0x3000. -/
def mapped (s : State) : State :=
  (((s.storeNat 0 8 0x1001).storeNat 0x1000 8 0x2001).storeNat 0x2000 8 0x3001).storeNat 0x3000 8 0x4000005B

def aMsg : Msg :=
  { id := 7, kind := .msend, sender := 0, ctx := 0, launch := 0, target := 0, key := 3, off := 8, va := own,
    words := [1, 2, 3, 4, 5, 6, 7, 8], marks := List.replicate 8 false }

/-- The group of core 0 narrowed to one core, changed by `f`. -/
def grouped (f : Group → Group) (s : State := base) : State := s.modGroup 0 fun g => f { g with w := 1 }

/-- Memory that lists nothing holds an image that is accepted. -/
theorem memBytes_zero (a n : Nat) : memBytes [] a n = List.replicate n 0 := by
  induction n generalizing a with
  | zero => rfl
  | succ n ih => simp [memBytes, ih, memGet, List.replicate_succ]
theorem zero_image : imageBad (List.replicate 0x1000 0) = false ∧ imageMat (List.replicate 0x1000 0) = false := by
  decide +kernel

/-! ### Words -/

def readsAs (w : Nat) (lone : Bool) (i : Instr) : Bool := decide (decodeWord (BitVec.ofNat 32 w) = some (lone, i))

theorem test_words_scalar :
    (readsAs 0xC4268ACF true (.lui 4 0x68ACF) && readsAs 0xC321009A true (.addi 4 4 0x9A) &&
      readsAs 0xC5200048 true (.lhi 4 0x48) && readsAs 0xC3383FFD true (.li 7 0x7FD) && readsAs 0x80000000 true .nopC &&
      readsAs 0x40000000 false .nopA) = true := by decide
theorem test_words_control :
    (readsAs 0x8343FFFC true (.bany 2 0x3FFFC) && readsAs 0x84A7FFDE true (.bnz 9 0x3FFDE) && readsAs 0x86000020 true .ret &&
      readsAs 0x86004030 true (.jv 1) && readsAs 0x87000020 true .fim && readsAs 0x87001400 true (.ifm 0xA 0)) = true := by
  decide
theorem test_words_system :
    (readsAs 0x80194000 true (.kget 5 0) && readsAs 0x8021C00D true (.kset 7 0xD) &&
      readsAs 0x884A0000 true (.cstart 9 8 0) && readsAs 0x88000030 true .cyield && readsAs 0x88000040 true .cexit) = true := by
  decide
theorem test_words_vector :
    (readsAs 0x48190A12 false (.vadd 3 4 5 .w 2) && readsAs 0xD02A9240 true (.vput 5 10 9 .b 0) &&
      readsAs 0xC90886D0 true (.vcmplt 1 2 3 .w 0) && readsAs 0xD23190F8 true (.wsum 6 6 8 .d 0)) = true := by decide
theorem test_words_float :
    (readsAs 0xCC204435 true (.ffma 4 1 2 3 .w 1) && readsAs 0xCA0883A8 true (.fround 1 2 .rtz .w 0) &&
      readsAs 0xCB299808 true (.cvtf 5 6 .e4m3 .w 0)) = true := by decide
theorem test_words_memory :
    (readsAs 0x0929B002 false (.ld64 5 6 2) && readsAs 0x8A299802 true (.st64 5 6 2) && readsAs 0x8B418800 true (.vst 8 6 0) &&
      readsAs 0x8D21D109 true (.aadd 4 7 8 .d .rel .gr) && readsAs 0x8D031BB9 true (.adecz 0 12 13 .d .rel .gr)) = true := by
  decide
theorem test_words_copies :
    (readsAs 0x8F10C903 true (.cpy 2 3 4 true false 3) && readsAs 0x8F280063 true (.ctw 5 3) &&
      readsAs 0x8F018152 true (.ired 6 true 2)) = true := by decide
theorem test_words_queues :
    (readsAs 0x90400003 true (.qpop 8 0 .q3) && readsAs 0x90400412 true (.qpopl 8 0 2 .q2) && readsAs 0x90000480 true (.rsend 2) &&
      readsAs 0x90001490 true (.bsend 10) && readsAs 0x90014870 true (.hsend 5 4)) = true := by decide
theorem test_words_exchange :
    (readsAs 0x91000020 true .xsync && readsAs 0x91008610 true (.xred 2 3 false) &&
      readsAs 0x91018801 true (.xsend 6 4 .row) && readsAs 0x92198001 true (.launchNb 3 6) &&
      readsAs 0x92018010 true (.ekickGecko 6)) = true := by decide
theorem test_words_matrix :
    (readsAs 0xD3440A88 true (.mgo 8 16 5 true) && readsAs 0xD34400C0 true (.mrd 8 16) && readsAs 0xD301C300 true (.rep 0 7 1) &&
      readsAs 0xD3000120 true .repe && readsAs 0xD30100A0 true (.msc 4) && readsAs 0xD3400060 true (.mzero 8) &&
      readsAs 0xD3400020 true (.mclaim 8) && readsAs 0xD331C000 true (.mshape 6 7)) = true := by decide
theorem test_words_geometry :
    (readsAs 0xD4508800 true (.bxt 10 2 4 0) && readsAs 0xD4608C28 true (.trix 12 2 6 .back 0) &&
      readsAs 0xD4A31480 true (.cov 20 12 10 .off 0) && readsAs 0x93518000 true (.ztst 10 6 0)) = true := by decide

/-- Words that are no instruction: a reserved field not zero, an unassigned code (R39, R43). -/
theorem test_words_refused :
    ([0x80000001, 0x40000001, 0xBF000000].all fun w => (decodeWord (BitVec.ofNat 32 w)).isNone) = true := by decide

/-! ### Ill-formed terms, one for each check (R44, R121, R167, R171, R198) -/

theorem test_ill_formed_types :
    ([.cvtf 1 2 .n64 .w 0, .cvtf 1 2 .i8 .w 0, .cvtfi 1 2 .e4m3 .w 0, .cvtif 1 2 .e4m3 .w 0, .cvtq 1 2 .bf16 .w 0, .cvtsr 1 2 .f64 .w 0,
      .vext 1 2 3 .b 0, .vins 1 2 3 .d 0].all fun i => !wellFormed i) = true := by decide
theorem test_ill_formed_registers :
    ([.qpop 8 1 .q3, .qpop 9 0 .q0, .qpeek 8 1 2 .q3, .qpeek 9 0 2 .q0, .qpopl 8 1 2 .q3, .qpopl 25 0 2 .q0, .qpopl 29 0 2 .q1,
      .qpopl 31 0 2 .q2, .qcnt 8 1 .q2, .msend 4 3, .rsend 3, .bsend 3, .bxt 10 31 4 0, .bxt 10 2 30 0, .trix 12 31 6 .back 0,
      .trix 12 2 31 .back 0, .cdec 31 2 3 0, .cov 20 12 31 .off 0, .hcmp 4 2 4 0].all fun i => !wellFormed i) = true := by
  decide
theorem test_well_formed_edges :
    ([.qpop 8 1 .q1, .qpop 30 0 .q0, .qpopl 24 0 2 .q0, .qpopl 28 0 2 .q1, .qpopl 30 0 2 .q2, .qpopl 31 0 2 .q3, .rsend 30,
      .bxt 10 30 29 0, .trix 12 30 30 .back 0, .cdec 30 2 3 0, .cov 20 12 30 .off 0, .hcmp 4 2 5 0].all wellFormed) = true := by
  decide

/-! ### Scalar and control instructions: witnesses, and the worked examples of R88, R92 and R90 -/

theorem witness_clean : base.cleanG [0, 1, 31] ∧ (base (gs [(2, 1)])).cleanG [2] := by unfold State.cleanG; decide
theorem witness_PoisonedSourceTraps : let s := base fun x => { x with r.gMark := 0x80000004 }
    s.plain ∧ s.src.gBad 2 = true ∧ s.src.gBad 31 = true := by
  unfold State.plain State.doubleFault; decide
theorem witness_Branches : base.src.pBad 0 = false ∧ base.src.pBad 7 = false ∧ base.cleanG [1, 2] := by
  unfold State.cleanG; decide
theorem witness_CallsAndReturns_call :
    (base fun x => { x with f.depth := 7 }).cx.f.depth.toNat < 8 ∧
    (let s := base (gs [(2, 0x1FFFC), (3, 2)])
     s.cleanG [2] ∧ (s.src.g 2).toNat % 4 = 0 ∧ s.cleanG [3] ∧ (s.src.g 3).toNat % 4 ≠ 0 ∧ s.plain) ∧
    (let s := base fun x => { x with f.depth := 8, k.spill := 0xFF8 }
     s.wf ∧ s.cx.f.depth = 8 ∧ s.cx.f.retBad.getLsbD 0 = false ∧ s.kBad 0x00B = false ∧
       s.localCheck 0xFF8 8 { w := true } = .ok) := by
  unfold State.cleanG State.plain State.doubleFault State.wf; decide
theorem witness_CallsAndReturns_ret :
    (let s := base fun x => { x with f.depth := 1 }
     0 < s.cx.f.depth.toNat ∧ s.cx.f.depth.toNat ≤ 8 ∧ s.cx.f.retBad.getLsbD 0 = false) ∧
    (let s := base fun x => { x with f.spilled := 1, k.spill := 0xFF8 }
     s.cx.f.depth = 0 ∧ s.cx.f.spilled ≠ 0 ∧ s.kBad 0x00B = false ∧ s.localCheck 0xFF8 8 { r := true } = .ok ∧
       s.poisoned (s.hereKey 0xFF8) = false ∧ s.cx.f.depth.toNat ≤ 8) ∧
    (let s := base fun x => { x with f.spilled := 1, k.mark := 0x800 }
     s.cx.f.spilled ≠ 0 ∧ s.kBad 0x00B = true ∧ s.plain) ∧
    (base.cx.f.depth = 0 ∧ base.cx.f.spilled = 0 ∧ base.plain) := by
  unfold State.plain State.doubleFault; decide
theorem witness_EntriesAndExitsCancel :
    (∃ t, (base fun x => { x with f.depth := 7 }).cx.f.depth.toNat < 8 ∧
      exec (.call 2) (base fun x => { x with f.depth := 7 }) = .next t) ∧
    (∃ t, base.first ∧ base.cx.pBad 1 = false ∧ base.cx.f.kmsd.toNat < 32 ∧ base.cx.f.kmask ≠ 0 ∧
      exec (.ifm 2 1) base = .next t ∧ t.first) ∧
    (∃ t, ¬ base.doubleFault ∧ base.cur.p.toNat % 4 = 0 ∧ base.kBad 0x000 = false ∧ base.kBad 0x001 = false ∧
      exec (.trap 5) base = .next t) := by
  unfold State.first State.doubleFault
  exact ⟨⟨_, by decide, rfl⟩, ⟨_, by decide, by decide, by decide, by decide, rfl, by decide⟩,
    _, by decide, by decide, by decide, by decide, rfl⟩
theorem witness_JumpByLanes :
    let s := base fun x => { vs [(1, four 0x100)] x with f.kmsd := 31 }
    let u := base fun x => { vs [(1, 0x200#64 ++ (0x200 : Word) ++ (0x100 : Word) ++ (0x100 : Word))] x with f.kmsd := 32 }
    let v := base (vs [(1, four 0x102)])
    s.first ∧ s.cx.vBad 1 &&& s.cx.f.kmask = 0 ∧ s.cx.f.kmask.getLsbD 0 = true ∧
    (∀ l, l < 4 → (lane l (s.cx.v 1)).toNat % 4 = 0 ∧ (lane l (s.cx.v 1)) = lane 0 (s.cx.v 1)) ∧
    (u.plain ∧ 32 ≤ u.cx.f.kmsd.toNat ∧ ∀ l, l < 4 → ((3#4).getLsbD l = decide (lane l (u.cx.v 1) = lane 0 (u.cx.v 1)))) ∧
    (v.plain ∧ (lane 0 (v.cx.v 1)).toNat % 4 ≠ 0) := by
  unfold State.first State.plain State.doubleFault; decide
def slot (x : Context) (k : Nat) : MaskEntry := (x.f.stack.toList[k]?).getD {}
def entry (k : MaskKind) : MaskEntry := { mask := 0xF, kind := k, resume := 0x20 }
theorem witness_IfElse :
    let s := base fun x => { ps [(1, 3)] x with f.kmsd := 31, f.stack := x.f.stack.set 30 (entry .ifKind), f.kmask := 3 }
    let u := base fun x => { x with f.kmsd := 32, f.stack := x.f.stack.set 31 (entry .loopKind) }
    let top := slot s.cx 30
    s.first ∧ s.cx.pBad 1 = false ∧ s.cx.f.kmsd.toNat < 32 ∧ s.cx.f.kmask &&& s.cx.p 1 ≠ 0 ∧ s.cx.f.kmask &&& s.cx.p 2 = 0 ∧
    top.kind = .ifKind ∧ top.bad = false ∧ top.mask &&& ~~~s.cx.f.kmask ≠ 0 ∧
    top.mask &&& ~~~(0xF : Mask) = 0 ∧ u.plain ∧ 32 ≤ u.cx.f.kmsd.toNat ∧
    (slot u.cx 31).kind = .loopKind ∧ base.cx.f.kmsd = 0 := by
  unfold State.first State.plain State.doubleFault; decide
theorem witness_Loops :
    let s := base fun x => { ps [(1, 3), (2, 0xF)] x with
      f.kmsd := 32, f.stack := (x.f.stack.set 30 (entry .ifKind)).set 31 (entry .loopKind) }
    let top := slot s.cx 31
    let m := s.cx.f.kmask
    base.first ∧ (base fun x => { x with f.kmsd := 30 }).cx.f.kmsd.toNat ≤ 30 ∧
    30 < (base fun x => { x with f.kmsd := 31 }).cx.f.kmsd.toNat ∧ s.plain ∧
    s.cx.pBad 1 = false ∧ 2 ≤ s.cx.f.kmsd.toNat ∧ s.cx.f.kmsd.toNat ≤ 32 ∧ top.kind = .loopKind ∧ top.bad = false ∧
    (slot s.cx 30).bad = false ∧
    m &&& ~~~(m &&& s.cx.p 1) ≠ 0 ∧ m &&& ~~~(m &&& s.cx.p 2) = 0 ∧ m &&& ~~~s.cx.p 2 = 0 ∧ m &&& ~~~s.cx.p 1 ≠ 0 ∧
    top.mask &&& ~~~(m &&& ~~~s.cx.p 1) ≠ 0 ∧ top.mask &&& ~~~(m &&& ~~~s.cx.p 3) = 0 ∧ base.cx.f.kmsd = 0 := by
  unfold State.first State.plain State.doubleFault; decide
/-- A LOOP entry with nothing below it, whose lanes are all in the loop, or two of the three. -/
def loneLoop (m : Mask) : State := base fun x => { ps [(1, 3), (2, 0xF), (4, m)] x with
  f.kmsd := 1, f.kmask := m, f.stack := x.f.stack.set 0 (entry .loopKind) }
theorem witness_Loops_alone :
    let s := loneLoop 0xF
    let u := loneLoop 3
    s.first ∧ s.plain ∧ u.plain ∧ s.cx.pBad 1 = false ∧ s.cx.f.kmsd.toNat = 1 ∧ (slot s.cx 0).kind = .loopKind ∧
    (slot s.cx 0).bad = false ∧ s.cx.f.kmask &&& ~~~(s.cx.f.kmask &&& s.cx.p 1) ≠ 0 ∧
    (let b := u.cx.f.kmask &&& u.cx.p 2
     u.cx.f.kmask &&& ~~~b = 0 ∧ (slot u.cx 0).mask &&& ~~~b ≠ 0) ∧
    (let b := s.cx.f.kmask &&& s.cx.p 2
     s.cx.f.kmask &&& ~~~b = 0 ∧ (slot s.cx 0).mask &&& ~~~b = 0) ∧
    s.cx.f.kmask &&& ~~~s.cx.p 1 ≠ 0 ∧ s.cx.f.kmask &&& ~~~s.cx.p 2 = 0 ∧
    (slot s.cx 0).mask &&& ~~~(s.cx.f.kmask &&& ~~~s.cx.p 1) ≠ 0 ∧
    (slot s.cx 0).mask &&& ~~~(s.cx.f.kmask &&& ~~~s.cx.p 3) = 0 := by
  unfold State.first State.plain State.doubleFault; decide

theorem test_div_truncates :
    after (.div 1 2 3) (base (gs [(2, 0xFFFFFFFFFFFFFFF9), (3, 2)])) (fun t => t.cx.g 1) = some 0xFFFFFFFFFFFFFFFD := by decide
theorem test_rem_of_negative :
    after (.rem 1 2 3) (base (gs [(2, 0xFFFFFFFFFFFFFFF9), (3, 2)])) (fun t => t.cx.g 1) = some 0xFFFFFFFFFFFFFFFF := by decide
theorem test_div_overflow :
    after (.div 1 2 3) (base (gs [(2, 0x8000000000000000), (3, 0xFFFFFFFFFFFFFFFF)])) (fun t => t.cx.g 1) =
      some 0x8000000000000000 := by decide
theorem test_divu_example :
    after (.divu 1 2 3) (base (gs [(2, 0xFFFFFFFFFFFFFFF9), (3, 2)])) (fun t => t.cx.g 1) = some 0x7FFFFFFFFFFFFFFC := by decide
theorem test_long_constant :
    after (.lui 4 0x68ACF) base (fun t => t.cx.g 4) = some 0xFFFFFFFFF4567800 ∧
    after (.addi 4 4 0x9A) (base (gs [(4, 0xFFFFFFFFF4567800)])) (fun t => t.cx.g 4) = some 0xFFFFFFFFF456789A ∧
    after (.lhi 4 0x48) (base (gs [(4, 0xFFFFFFFFF456789A)])) (fun t => t.cx.g 4) = some 0x000000123456789A := by decide
theorem test_wadr_example :
    after (.wadr 1 2 3) (base (gs [(2, 0x000003FF000082C8), (3, 0x1100)])) (fun t => t.cx.g 1) = some 0x00FFF05900001100 := by
  decide
theorem test_g0_stays_zero : after (.addi 0 0 5) base (fun t => t.cx.g 0) = some 0 := by decide
theorem test_poison_traps :
    after (.add 1 2 3) (base fun x => { x with r.gMark := 4 }) (fun t => (t.cx.k.cause, t.cx.k.epc, t.cx.mode)) =
      some (Cause.poison.setWidth 64, 8, true) := by decide
theorem test_branch_back : after (.br 0xFFFFFE) base (fun t => t.cx.pc) = some 0 := by decide

/-! ### Contexts and traps -/

theorem witness_ContextInstructions_cstart :
    (base.cleanG [2, 3] ∧ (base.src.g 2).toNat % 4 = 0 ∧ (base.src.g 2).toNat / 4294967296 % 32 = 0 ∧
      base.here.ctxs[1].live = false ∧ base.here.ctxs[1].susp = false ∧ 1 ≤ base.here.helpers ∧ 1 ≠ base.cur.ctx) ∧
    (base.modHere fun k => { k with helpers := 0 }).here.helpers = 0 ∧
    (2 : Word).toNat % 4 ≠ 0 ∧ (0x100000000 : Word).toNat / 4294967296 % 32 ≠ 0 ∧ base.plain := by
  unfold State.cleanG State.plain State.doubleFault; decide
theorem witness_ContextInstructions_status :
    (10 < (11 : Word).toNat % 16 ∧ (0 : Word).toNat % 16 = base.cur.ctx.val ∧ base.here.ctxs[10].live = false) ∧
    (base.here.ctxs[0].live = true ∧ base.here.ctxs[0].susp = false ∧ base.here.ctxs[0].block = none ∧
      base.here.ctxs[0].waveOp = none ∧ base.here.ctxs[0].wake = none ∧ base.here.ctxs[1].susp = false) ∧
    (base fun x => { x with susp := true }).here.ctxs[0].susp = true ∧
    ((base fun x => { x with block := some ⟨.cwait 1, 0, 8⟩ }).here.ctxs[0].block = some ⟨.cwait 1, 0, 8⟩) ∧
    (base fun x => { x with wake := some .released }).cx.wake = some .released ∧ base.cx.wake ≠ some .released ∧
    (base.drained = true ∧ base.cx.reports = [] ∧ base.here.desync = none) := by decide
theorem witness_TrapsTaken : ¬ base.doubleFault ∧
    (let s := { base.modHere (fun k => { k with kerr := 0x80 }) with cur := {} }
     s.doubleFault ∧ s.here.kerr.getLsbD 7 = true) := by unfold State.doubleFault; decide
def caused (c : Word) (mode pmode : Bool) : State := base fun x => { x with k.cause := c, mode := mode, pmode := pmode }
theorem witness_TrapReturn :
    (caused 0x4003 true false).cx.mode = true ∧ (caused 0x11 true false).cx.pmode = false ∧ (caused 0x8003 true false).cx.k.cause.getLsbD 15 = true ∧
    (caused 0x4003 true false).cx.k.cause.getLsbD 15 = false ∧ (caused 0x4003 true false).cx.k.cause.getLsbD 14 = true ∧
    (caused 3 false false).cx.k.cause.toNat % 256 ≠ 0 ∧ (caused 3 false false).cx.pmode = false ∧
    (caused 0 false false).plain ∧ (caused 3 true true).plain ∧ (caused 3 true false).kBad 0x00C = false ∧
    (caused 3 true false).kBad 0x000 = false ∧ (caused 3 true false).kBad 0x001 = false ∧
    (let s := base fun x => { x with k.mark := 0x1002 }
     s.kBad 0x00C = true ∧ s.kBad 0x001 = true ∧ s.cx.mode = true ∧ s.cx.pmode = false ∧ s.plain) := by
  unfold State.plain State.doubleFault; decide

theorem test_trap_saves :
    after (.trap 0x123) base (fun t => (t.cx.k.cause, t.cx.k.epc, t.cx.k.addr, t.cx.pc)) =
      some (Cause.swtrap.setWidth 64, 12, 0x123, 0) := by decide
theorem test_tret_skips : after (.tret false 0) (caused 0x8003 true false) (fun t => (t.cx.pc, t.cx.mode)) = some (4, false) := by
  decide
theorem test_user_may_not_kset :
    after (.kset 7 0x81) (base fun x => { x with mode := false }) (fun t => t.cx.k.cause) = some (Cause.priv.setWidth 64) := by decide
theorem test_cstart_helper :
    after (.cstart 9 8 5) (base (gs [(8, 0x100), (5, 7)])) (fun t => (t.cx.g 9, (t.here.ctxs[1]).live, (t.here.ctxs[1]).g 1,
      (t.here.ctxs[1]).pc)) = some (1, true, 7, 0x100) := by decide
theorem test_cquery_idle : after (.cquery 1 2) (base (gs [(2, 11)])) (fun t => t.cx.g 1) = some 0 := by decide

/-! ### Vector integers -/

theorem witness_vectors : base.cleanV 0 [1, 2, 3] ∧ base.src.vBad 1 &&& base.kmask = 0 ∧ base.cleanV 7 [31] ∧
    (base fun x => { x with r.vMark := 0xF0 }).cleanV 0 [2, 3] := by unfold State.cleanV; decide
theorem witness_ComparesAndSelect : let s := base fun x => { ps [(1, 3)] x with r.vMark := 0xC30 }
    s.src.pBad 1 = false ∧ s.src.vBad 2 &&& (s.kmask &&& s.src.p 1) = 0 ∧ s.src.vBad 3 = 0 ∧
      s.src.vBad 1 &&& (s.kmask &&& ~~~s.src.p 1) = 0 := by decide

def vin : Context → Context := vs [(1, four 0x7FF080000001FFFF), (2, four 0x0020FFFF7FFF0001)]
theorem test_vadd_h : after (.vadd 3 1 2 .h 0) (base vin) (fun t => t.cx.v 3) = some (four 0x80107FFF80000000) := by decide
theorem test_vadds_h : after (.vadds 3 1 2 .h 0) (base vin) (fun t => t.cx.v 3) = some (four 0x7FFF80007FFF0000) := by decide
theorem test_vaddsu_h : after (.vaddsu 3 1 2 .h 0) (base vin) (fun t => t.cx.v 3) = some (four 0x8010FFFF8000FFFF) := by decide
theorem test_vadd_masked :
    after (.vadd 3 1 2 .d 1) (base fun x => vin (ps [(1, 2)] x)) (fun t => lane 0 (t.cx.v 3)) = some 0 := by decide
theorem test_vli : after (.vli 3 0x7FF) (base fun x => { x with f.kmask := 8 }) (fun t => t.cx.v 3) =
    some ((0xFFFFFFFFFFFFFFFF : Word) ++ (0 : Word) ++ (0 : Word) ++ (0 : Word)) := by decide
theorem test_vext_w :
    after (.vext 1 2 3 .w 0) (base fun x => gs [(3, 2)] (vs [(2, four 0x80000001FFFF0002)] x)) (fun t => lane 0 (t.cx.v 1)) =
      some 0xFFFFFFFF00000002 := by decide
theorem test_vdot4_b :
    after (.vdot4 1 2 3 false 0) (base (vs [(1, four 0x0000000100000000), (2, four 0x01010101FF020304), (3, four 0x0202020201020304)]))
      (fun t => lane 0 (t.cx.v 1)) = some 0x000000090000001C := by decide
theorem test_vcmplt : after (.vcmplt 1 2 3 .w 0)
    (base (vs [(2, four 0xFFFFFFFF00000001), (3, four 0x0000000000000002)])) (fun t => t.cx.p 1) = some 0xF := by decide

theorem witness_LaneMoves :
    let s := base fun x => gs [(3, 31)] (ps [(1, 7)] x)
    s.src.pBad 1 = false ∧ s.cleanG [1, 3] ∧ s.src.vBad 2 &&& s.active 1 = 0 ∧
    bitOf (s.active 1) ((s.src.g 3).toNat % 32 / 8) = false ∧ bitOf (s.active 0) ((s.src.g 3).toNat % 32 / 8) = true ∧
    (∀ l, l < 4 → ∀ e, e < 8 → bitOf (s.src.vBad 1) (el 8 e (lane l (s.src.v 4)) % 32 / 8) = false) := by
  unfold State.cleanG; decide
theorem test_vget_last : after (.vget 1 2 3 .b 0)
    (base fun x => gs [(3, 31)] (vs [(2, (0xAB00000000000000 : Word) ++ (0 : Word) ++ (0 : Word) ++ (0 : Word))] x))
    (fun t => t.cx.g 1) = some 0xAB := by decide

/-! ### Floating point: the examples of R74, R75 and R127, and by hand from R70, R71, R134 -/

theorem witness_floats : base.cleanV 0 [1, 2, 3] ∧ fmtF64 ∈ [fmtF64, fmtF32, fmtF16, fmtBf16] ∧ (FVal.nan true).isNan = true ∧
    TyCode.float? .e4m3 = some fmtE4m3 ∧ (TyCode.int? .i8).isSome = true := by unfold State.cleanV; decide
theorem witness_SpecialFunctions : let s := { base.modHere (fun k => { k with sfu := [⟨0, 3, 5, 0xF, 1⟩] }) with ev := { core := 0 } }
    s.ev.core = 0 ∧ (s.core 0).sfu = ⟨0, 3, 5, 0xF, 1⟩ :: [] := by decide
theorem witness_RoundingIsCorrect :
    fmtE2m1 ∈ [fmtF64, fmtF32, fmtF16, fmtBf16, fmtE5m2, fmtE4m3, fmtE2m1] ∧ 5 ≠ 0 ∧
    bitOf (fmtE2m1.round { rm := .rtz } true 5 (-1)).flags 2 = false ∧
    bitOf (fmtE2m1.round { rm := .rne } true 5 (-1)).flags 2 = false ∧
    bitOf (fmtF64.round { rm := .rne } false 1 (-1080)).flags 2 = false := by decide

theorem test_f32_to_e4m3 : after (.cvtf 1 2 .e4m3 .w 0) (base (vs [(2, 0x0000000043960000)]))
    (fun t => (lane 0 (t.cx.v 1), t.cx.k.fpc)) = some (0x79, 0x100) := by decide
theorem test_f64_to_f16_overflow : after (.cvtf 1 2 .f16 .d 0) (base fun x => { vs [(2, 0x40EFFE0000000000)] x with f.kmask := 1 })
    (fun t => (lane 0 (t.cx.v 1))) = some 0x7C00 := by decide
theorem test_fround_rtz : after (.fround 1 2 .rtz .w 0) (base (vs [(2, 0x00000000C0300000)]))
    (fun t => (lane 0 (t.cx.v 1), t.cx.k.fpc)) = some (0x00000000C0000000, 0x100) := by decide
theorem test_fadd_tie_to_even : after (.fadd 1 2 3 .w 0) (base (vs [(2, 0x3F800000), (3, 0x33800000)]))
    (fun t => (lane 0 (t.cx.v 1), t.cx.k.fpc)) = some (0x3F800000, 0x100) := by decide
theorem test_ffma_one_rounding : after (.ffma 1 2 3 4 .w 0) (base (vs [(2, 0x3F800001), (3, 0x3F800001), (4, 0xBF800002)]))
    (fun t => (lane 0 (t.cx.v 1))) = some 0x28800000 := by decide
theorem test_fcmplt_nan : after (.fcmplt 1 2 3 .w 0) (base (vs [(2, 0x7FC00000), (3, 0x3F800000)]))
    (fun t => (t.cx.p 1, t.cx.k.fpc)) = some (0, 0x1000) := by decide

/-! ### Memory -/

theorem witness_LocalLoadsAndStores :
    (let s := base (gs [(2, 0xFF8)])
     s.wf ∧ s.cleanG [2, 1] ∧ s.localCheck 0xFF8 8 { r := true } = .ok ∧ s.localCheck 0xFF8 8 { w := true } = .ok ∧ s.plain ∧
      s.here.past = [] ∧ 0xFF8 % 8 = 0 ∧ segLimit s.here.kseg[0] = 0x1000 ∧ s.here.kseg[0].getLsbD 39 = true ∧ s.here.kseg[0].getLsbD 40 = true) ∧
    (let u := base fun x => { x with mode := false }
     u.plain ∧ u.here.kseg[0].getLsbD 36 = false) ∧ 0x1001 % 2 ≠ 0 ∧ ¬ 0x1000 + 8 ≤ 0x1000 := by
  unfold State.cleanG State.plain State.doubleFault State.wf; decide
theorem witness_LocalLoadsAndStores_past :
    let e : Overwritten := { off := 0xFF8, old := List.replicate 8 7, bad := true, at_ := 1, open_ := 1 }
    let s := (base (gs [(2, 0xFF8)])).modHere fun k => { k with past := [e] }
    s.wf ∧ s.cleanG [2] ∧ s.localCheck 0xFF8 8 { r := true } = .ok ∧ s.here.past = [e] ∧ e.off ≤ 0xFF8 ∧
      0xFF8 + 8 ≤ e.off + e.old.length := by unfold State.cleanG State.wf; decide
theorem witness_calm : base.calm := by unfold State.calm; decide
theorem witness_VectorLoadsAndStores :
    (let s := base (gs [(2, 0xFE0)])
     s.wf ∧ s.cleanG [2] ∧ s.src.vBad 3 &&& s.kmask = 0 ∧ (∀ l, l < 4 → s.localCheck (0xFE0 + 8 * l) 8 { r := true } = .ok) ∧
       ∀ l, l < 4 → s.localCheck (0xFE0 + 8 * l) 8 { w := true } = .ok) ∧
    (let s := base (vs [(3, four 0x1000)])
     s.cleanG [2] ∧ s.plain ∧ (s.laneCheck (bitOf (s.src.vBad 3) 0) (s.src.g 2 + lane 0 (s.src.v 3)) 8 { r := true }).fault? =
       some (Cause.ulmbound, 0x1000)) := by
  unfold State.cleanG State.plain State.doubleFault State.wf; decide
/-- A page that has not come covers the second of four rows; user mode may read and write ULM too. -/
def waitingPage (a : Word) : State := (base (gs [(2, a)])).modHere fun k => { k with
  kseg := k.kseg.set 0 (k.kseg[0] ||| 0x3000000000),
  tags := k.tags.set 0 { count := 1, parked := [({ lo := 0xFE8, hi := 0xFF0 }, 0x5000)] } }
theorem witness_VectorLoadsAndStores_lanes :
    (let s := waitingPage 0xFE8
     let chk (l : Nat) : Check := s.laneCheck false (s.src.g 2 + BitVec.ofNat 64 (8 * l)) 8 { r := true }
     s.cleanG [2] ∧ s.cur.replay = none ∧ ¬ s.doubleFault ∧ s.kmask = 0xF ∧ (∀ l, l < 4 → chk l ≠ .wait) ∧
     (∀ l, l < 4 → bitOf (9#4) l = (bitOf s.kmask l && (chk l).fault?.isSome)) ∧
     (chk 3).fault? = some (Cause.ulmbound, 0x1000) ∧ Cause.ulmbound ≠ Cause.pagewait ∧
     (chk 0).fault? = some (Cause.pagewait, 0x5000) ∧ (chk 1).fault? = none ∧ (chk 2).fault? = none) ∧
    (let s := waitingPage 0xFE0
     let chk (need : Perm) (l : Nat) : Check := s.laneCheck false (s.src.g 2 + BitVec.ofNat 64 (8 * l)) 8 need
     s.src.mode = true ∧ (∀ l, l < 4 → bitOf (2#4) l = (bitOf s.kmask l && (chk { r := true } l).fault?.isSome)) ∧
     (∀ l, l < 4 → bitOf (2#4) l = (bitOf s.kmask l && (chk { w := true } l).fault?.isSome)) ∧
     (chk { r := true } 1).fault? = some (Cause.pagewait, 0x5000)) ∧
    (let s := (waitingPage 0xFE0).modCx fun x => { x with mode := false }
     let chk (l : Nat) : Check := s.laneCheck false (s.src.g 2 + BitVec.ofNat 64 (8 * l)) 8 { r := true }
     s.src.mode = false ∧ (∀ l, l < 4 → bitOf (2#4) l = (bitOf s.kmask l && (chk l).fault?.isSome)) ∧
     (chk 1).fault? = some (Cause.pagewait, 0x5000)) := by
  unfold State.cleanG State.doubleFault; decide
def windowLoad (op : WinOp) (off : Word) (resp : Option WinResp) : WinEntry :=
  { id := 5, ctx := 0, off := 8, op := op, va := own + off, data := four 7, cmp := 0, dst := .g 4, acq := false, resp := resp,
    remote := none }
def withEntry (e : WinEntry) : State := evd { core := 0, id := 5 } (opened.modHere fun k => { k with win := [e] })
theorem witness_WindowAccesses_sent :
    let s := base (gs [(2, own), (3, 0x1FFE0)])
    let va := s.src.g 2 + s.src.g 3
    s.cleanG [2, 3] ∧ va.toNat / 0x80000000000000 = 1 ∧ va.toNat / 0x20000 % 2048 = 0 ∧ va.toNat % 32 = 0 ∧
      s.here.win.length < 48 ∧ s.acquiring = false ∧ s.plain ∧ (own + 4).toNat % 8 ≠ 0 ∧ (own - 8).toNat / 0x80000000000000 = 1 := by
  unfold State.cleanG State.plain State.doubleFault; decide
theorem witness_WindowAccesses_performed :
    let s := withEntry (windowLoad (.ld 8) 0xFF8 none)
    let e := windowLoad (.ld 8) 0xFF8 none
    s.wf ∧ (s.core 0).entry? 5 = some e ∧ (s.core 0).winBefore 0 e = false ∧ s.remote e.va = false ∧
      s.copyHeld 0 e.ctx e.id (winOff e.va) e.op.bytes e.op.writes = false ∧ e.segs = none ∧
      s.live 0 (winCore e.va) = true ∧ winPermitted (s.core 0).kseg (.ld 8) 0xFF8 = true ∧
      winPermitted (s.core 0).kseg (.st 8) 0xFF8 = true ∧ winPermitted (s.core 0).kseg (.ld 8) 0x1000 = false ∧
      s.portTaken 0 = false := by
  unfold State.wf; decide
theorem witness_WindowAccesses_answered :
    let e := windowLoad (.ld 8) 8 (some ⟨0, four 7, 0⟩)
    let r := windowLoad (.ld 8) 8 (some ⟨Cause.window, 0, 0⟩)
    ((withEntry e).core 0).entry? 5 = some e ∧ e.op ≠ .mwait ∧ e.dst = .g 4 ∧
      ((withEntry r).core 0).entry? 5 = some r ∧ Cause.window ≠ 0 := by decide
def atomState (x : Nat) : State := (base (gs [(2, 0xFF8), (3, 7)])).storeNat (ulmKey 0 0xFF8) 8 x
theorem witness_Atomics_local :
    (atomState 1).wf ∧ (atomState 1).cleanG [2, 3, 1] ∧ bitOf ((atomState 1).src.g 2) 55 = false ∧
    (atomState 1).localCheck 0xFF8 8 { r := true, w := true } = .ok ∧ (atomState 1).released = true ∧
    (atomState 1).here.brineLevel < 2 ∧ (atomState 1).here.run.up = true ∧ (atomState 1).poisoned ((atomState 1).hereKey 0xFF8) = false ∧
    (atomState 1).loadNat ((atomState 1).hereKey 0xFF8) 8 = 1 := by
  unfold State.wf State.cleanG; decide
theorem witness_Atomics_window :
    (let s := base (gs [(2, own)])
     bitOf (s.src.g 2) 55 = true ∧ winForm (s.src.g 2) = true ∧ (s.src.g 2).toNat % 8 = 0 ∧ s.here.win.length < 48 ∧
       s.acquiring = false ∧ s.here.run.up = true ∧ s.here.over .q3 = [] ∧ (s.here.queue .q3).length < portCap .q3) := by decide
def reported : State := base fun x => { x with reports := [{ cause := Cause.window, va := own, off := 4, dst := .none }] }
theorem witness_FencesAndWaits :
    base.here.desync = none ∧ base.here.win = [] ∧ base.cx.reports = [] ∧ reported.cx.reports.length = 1 ∧
    ¬ reported.doubleFault ∧ 0x80000000000000 ≤ own.toNat ∧ (mapped base).walkNow 0 0x8000 = .leaf 0x4000005B 0x3000 0x40000000 ∧
    base.walkNow 0 0x8000 = .inv ∧ (atomState 7).cleanG [2, 3] ∧ bitOf ((atomState 7).src.g 2) 55 = false ∧
    (atomState 7).localCheck 0xFF8 8 { r := true } = .ok ∧
    ((atomState 7).src.g 3).toNat ≤ (atomState 7).loadNat ((atomState 7).hereKey 0xFF8) 8 ∧
    (atomState 7).cx.mwaitVal = none ∧
    (atomState 6).loadNat ((atomState 6).hereKey 0xFF8) 8 < ((atomState 6).src.g 3).toNat ∧
    (atomState 6).poisoned ((atomState 6).hereKey 0xFF8) = false ∧ (atomState 6).cx.reports = [] := by
  unfold State.doubleFault State.cleanG; decide
theorem witness_FencesAndWaits_kept :
    (let s := base fun x => { gs [(2, 0xFF8), (3, 7)] x with mwaitVal := some (7, false) }
     s.cleanG [2, 3] ∧ s.cx.reports = [] ∧ s.cx.mwaitVal = some (7, false) ∧ (s.src.g 3).toNat ≤ 7) ∧
    (let s := (base fun x => { x with block := some ⟨.mwait false 0xFF8 7, 0, 8⟩ }).storeNat (ulmKey 0 0xFF8) 8 7
     (∃ q ∈ s.cores, q.1 = 0) ∧ (s.ctx 0 0).block.map Block.kind = some (.mwait false 0xFF8 7) ∧ (s.ctx 0 0).mwaitVal = none ∧
       (s.ctx 0 0).susp = false ∧ s.mwaitKey 0 0xFF8 = some (ulmKey 0 0xFF8) ∧ 7 ≤ s.loadNat (ulmKey 0 0xFF8) 8) := by
  unfold State.cleanG; decide

theorem test_ld_st_little_endian :
    after (.st64 1 2 0) (base (gs [(1, 0x0102030405060708), (2, 0x100)])) (fun t => (t.byteAt (ulmKey 0 0x100), t.byteAt (ulmKey 0 0x107))) =
      some (8, 1) := by decide +kernel
theorem test_ld8_signed : after (.ld8 1 2 0x7FF) ((base (gs [(2, 0x101)])).storeNat (ulmKey 0 0x100) 1 0x80) (fun t => t.cx.g 1) =
    some 0xFFFFFFFFFFFFFF80 := by decide
theorem test_ld_misaligned : after (.ld64 1 2 0) (base (gs [(2, 4)])) (fun t => (t.cx.k.cause, t.cx.k.addr)) =
    some (Cause.align.setWidth 64, 4) := by decide
theorem test_vst_lanes : after (.vst 1 2 0) (base fun x => { gs [(2, 0x100)] (vs [(1, four 5)] x) with f.kmask := 4 })
    (fun t => (t.byteAt (ulmKey 0 0x108), t.byteAt (ulmKey 0 0x110), t.cx.k.lres)) = some (0, 5, 4) := by
  decide +kernel
theorem test_acas_misses : after (.acas 1 2 3 .d .rlx .gr) (atomState 9) (fun t => (t.cx.g 1, t.loadNat (ulmKey 0 0xFF8) 8)) =
    some (9, 9) := by decide
theorem test_adecz_pushes : after (.adecz 1 2 3 .d .rlx .gr) (atomState 1)
    (fun t => (t.cx.g 1, t.here.q3.map QEntry.words, t.loadNat (ulmKey 0 0xFF8) 8)) = some (1, [[7]], 0) := by
  decide +kernel
theorem test_stw_pends : after (.ldw64 4 2 3) (base (gs [(2, own), (3, 8)])) (fun t => (t.here.win.length, t.cx.gPend)) =
    some (1, 0x10) := by decide

/-! ### Copies, queues, messages -/

def aCopy : Copy :=
  { id := 7, kind := .cpy, core := 0, ctx := 0, tag := 3, launch := 0, pasid := 0, dst := own + 0x200, src := own + 0x100,
    shape := 64, lanes := [], nf := false, mb := false, pd := none, pdBits := 0, dstR := none, srcR := none, next := 0,
    started := true, status := 0, poisoned := 0, zeroed := 0, addr := none, park := [], parts := [], idx := [], marked := [],
    got := none, out := false, refused := none }
def copying (c : Copy) (e : EvArg := {}) (s : State := opened) : State := evd { e with id := 7 } { s with copies := [c] }
def slotFree (s : State) (g : Fin 16) : Bool :=
  decide ((s.here.tags.toList.map Tag.count).sum < 64) && decide (s.here.tags[g].count < 64) && s.released && s.here.run.up &&
    !s.isSaved s.here.launch s.cur.core
theorem witness_CopyInstructions :
    let s := base (gs [(1, own + 0xFC0), (2, own + 0x100), (3, 0x40)])
    slotFree s 15 = true ∧ s.cleanG [1, 2, 3] ∧ (0x40 : Word).toNat < 0x1000000 ∧ (own + 0xFC0).toNat % 32 = 0 ∧
    s.rowFault (own + 0xFC0) (own + 0x100) [{ dst := own + 0xFC0, src := own + 0x100, n := 0x40, lane := none }] = none ∧
    s.rowFault own own [{ dst := own, src := own, n := 0, lane := none }] = none ∧
    shLen 0x0000000100000040 = 0x40 ∧ shLen 0x40 % 8 = 0 ∧
    s.rowFault own (own + 0x100) ((List.range (shRows 0x40)).map fun r =>
      { dst := own + BitVec.ofNat 64 (r * shDst 0x40), src := own + 0x100 + BitVec.ofNat 64 (r * shSrc 0x40), n := 0x40,
        lane := none }) = none ∧
    bitOf (0x5000 : Word) 55 = false ∧ s.badEnd (own + 0x100) 0x40 = false ∧ s.ownCheck (own + 0x100) 0x40 { r := true } = none := by
  unfold State.cleanG; decide
theorem witness_CopyInstructions_lanes :
    let s := base fun x => gs [(3, 0xFC0)] (vs [(2, four 0x5000)] x)
    slotFree s 0 = true ∧ s.kmask ≠ 0 ∧ s.src.gBad 3 = false ∧ s.src.vBad 2 &&& s.kmask = 0 ∧
    (∀ l, l < 4 → (lane l (s.src.v 2)).toNat % 16 = 0 ∧ (0xFC0 + 16 * l) % 16 = 0 ∧ s.badEnd (lane l (s.src.v 2)) 16 = false ∧
      0xFC0 + 16 * l + 16 ≤ 0x20000 ∧ segCheck s.here.kseg s.src.mode (0xFC0 + 16 * l) 16 { w := true } = none ∧
      segCheck s.here.kseg s.src.mode (0xFC0 + 16 * l) 16 { r := true } = none ∧
      s.ownCheck (lane l (s.src.v 2)) 16 { r := true } = none) := by decide
def iredState : State :=
  ((((base (gs [(2, 0x100)])).storeNat (ulmKey 0 0x10C) 4 0x200).storeNat (ulmKey 0 0x110) 4 1).storeNat (ulmKey 0 0x114) 4
    0x300).storeNat (ulmKey 0 0x118) 2 8
theorem witness_CopyInstructions_ired :
    let s := iredState
    let bs := memBytes s.mem (s.hereKey 0x100) 64
    let q := iredOf bs
    slotFree s 2 = true ∧ s.alsoHeld (s.here.scoreboard 0x100 64 false) 0x100 64 false = .ok ∧ s.poisonedRange (s.hereKey 0x100) 64 = false ∧
    q.illegal bs = false ∧ q.table.toNat % q.rowBytes = 0 ∧ q.stride % q.rowBytes = 0 ∧ q.idxOff = 0x200 ∧ q.nidx = 1 ∧
    q.dOff = 0x300 ∧ q.destBytes = 32 ∧ segCheck s.here.kseg s.src.mode 0x100 64 { r := true } = none ∧
    segCheck s.here.kseg s.src.mode 0x200 4 { r := true } = none ∧ segCheck s.here.kseg s.src.mode 0x300 32 { w := true } = none ∧
    s.here.tags[2].count = 0 := by decide
theorem witness_CopyEngine :
    let s := copying aCopy
    s.wf ∧ s.copy? s.ev.id = some aCopy ∧ aCopy.core = 0 ∧ s.live 0 0 = true ∧ s.isSaved 0 0 = false ∧ aCopy.park = [] ∧
    ({ aCopy with next := 2 }).piece 2 = none ∧ aCopy.piece 1 = some ⟨own + 0x220, own + 0x120, 32, none⟩ ∧
    s.ownEnd 0 (own + 0x220) = true ∧ s.ownEnd 0 (own + 0x120) = true ∧ aCopy.out = false ∧ aCopy.got = none ∧ aCopy.refused = none ∧
    aCopy.marked = [] ∧ aCopy.read = [] ∧ winCore aCopy.src = 0 ∧ winCore aCopy.dst = 0 ∧ s.portBusy 0 0 = false ∧
    winForm (own + 0x220) = true ∧ winForm (own + 0x120) = true ∧ winOff (own + 0x120) + 32 ≤ 0x20000 ∧
    s.poisonedRange (ulmKey 0 0x120) 32 = false ∧ s.poisoned (ulmKey 0 0x220) = false ∧
    (let c := { aCopy with read := [((own + 0x120).toNat, List.replicate 32 7, false, false)] }
     (own + 0x120).toNat % 32 + 32 ≤ 32 ∧ c.cached (own + 0x120).toNat 32 = some (List.replicate 32 7, false, false)) := by
  unfold State.wf; decide
theorem witness_NearMemorySums_rdc :
    let c := { aCopy with kind := .rdc, dst := 0x5000, src := own + 0x1FFE0, shape := 0x40 }
    let s := copying c {} (mapped opened)
    s.wf ∧ s.copy? s.ev.id = some c ∧ s.live 0 0 = true ∧ s.isSaved 0 0 = false ∧ c.park = [] ∧ c.read = [] ∧
    s.portBusy 0 0 = false ∧ s.ownEnd 0 c.src = true ∧ winForm c.src = true ∧
    winOff c.src + 8 * 4 ≤ 0x20000 ∧ c.refused = none ∧ s.poisonedRange (ulmKey 0 0x1FFE0) 32 = false ∧
    s.poisoned 0x40005000 = false ∧ s.levelOf 0 < 2 ∧
    (s.need 7 ⟨.rdcSectorUpdate, s.ev, 0⟩ 0 0 0x5000 true).1 = .at_ 0x40005000 := by
  unfold State.wf; and_intros <;> decide
def folding : State :=
  let c : Copy := { aCopy with kind := .ired, src := 0x8000, idx := [0], shape := 0x800000000 }
  copying c { die := colour (c.ired.rowAt 0) } (mapped opened)
theorem witness_NearMemorySums_fold :
    let c : Copy := { aCopy with kind := .ired, src := 0x8000, idx := [0], shape := 0x800000000 }
    folding.wf ∧ (folding.live 0 0 = true ∧ folding.isSaved 0 0 = false ∧ c.read = [] ∧ folding.portBusy 0 0 = false) ∧
    folding.copy? 7 = some c ∧ c.idx.find? (fun x => decide (colour (c.ired.rowAt x) = folding.ev.die)) = some 0 ∧
    c.parts = [] ∧ (∃ pa, (folding.need 7 ⟨.iredFold, folding.ev, 0⟩ 0 0 (c.ired.rowAt 0) false).1 = .at_ pa) ∧
    (∀ x ∈ [0], colour (c.ired.rowAt x) ≠ colour (c.ired.rowAt 0) + 1) := by
  unfold State.wf
  refine ⟨by decide, by decide, by decide, by decide, rfl, ⟨0x40000000 + 0x8000, by decide⟩, by decide⟩
theorem witness_NearMemorySums_combine :
    let part : Nat × List (BitVec 32) × List Bool := (3, List.replicate 8 0, List.replicate 8 false)
    let c : Copy := { aCopy with kind := .ired, src := 0x8000, parts := [part], shape := 0x800000000 }
    let s := copying c
    s.wf ∧ s.copy? 7 = some c ∧ c.idx = [] ∧ c.dies.head? = some 3 ∧ c.parts.find? (fun p => decide (p.1 = 3)) = some part ∧
    (∀ b ∈ part.2.2, b = false) ∧ 8 * c.next + 8 ≤ part.2.1.length ∧ c.out = false ∧ aCopy.idx = [] ∧ aCopy.parts = [] := by
  unfold State.wf; and_intros <;> decide
theorem test_ired_folds_a_row : after .iredFold (folding.storeNat 0x40008004 4 0x3F800000)
    (fun t => ((t.copy? 7).map fun c => (c.idx, c.parts.map fun p => (p.1, p.2.1.take 2)))) =
      some (some ([], [(colour 0x8000, [0, 0x3F800000])])) := by decide +kernel
theorem test_rdc_adds : after .rdcSectorUpdate
    ((copying { aCopy with kind := .rdc, dst := 0x5000, shape := 0x40 } {} (mapped opened)).storeNat (ulmKey 0 0x104) 4 0x3F800000)
    (fun t => t.loadNat 0x40005004 4) = some 0x3F800000 := by decide +kernel

def queued (n : Nat) : State := base.modHere fun k =>
  { k with q0 := List.replicate n { words := List.replicate 8 9, marks := List.replicate 8 false },
           q3 := List.replicate n { words := [5], marks := [false] } }
def aHit : HitEntry := { key := 3, resume := none, words := [1], marks := [false], stamp := 0 }
def sorted (e : HitEntry) : State := (base (gs [(2, 0x103)])).modBed 0 fun b => { b with sorter := [e] }
theorem witness_QueueInstructions :
    (queued 1).waitersBefore .q0 = [] ∧
    (queued 1).here.queue .q0 = [{ words := List.replicate 8 9, marks := List.replicate 8 false }] ∧
    base.waitersBefore .q2 = [] ∧ base.here.queue .q2 = [] ∧ (queued 64).here.over .q3 = [] ∧
    (sorted aHit).bed 0 = { sorter := [aHit] } ∧ bitOf ((sorted aHit).src.g 2) 8 = true ∧ (queued 0).cleanG [2] ∧
    max 1 1 ≤ (queued 1).portCount 0 .q3 0x100 ∧ 64 < (65 : Word).toNat % 512 ∧ base.plain ∧ base.released = true ∧
    base.here.brineLevel < 2 ∧ base.here.run.up = true ∧ ((queued 63).here.queue .q3).length < 64 := by
  unfold State.cleanG State.plain State.doubleFault; and_intros <;> decide
/-- Core 0 with a full q3, and an overflow area in the pages that are mapped. -/
def overflowing : State :=
  let s := mapped (queued 64)
  { s with launches := s.launches.map fun l => { l with r.ovfl := 0x1000E } }
theorem witness_QueueInstructions_more :
    let s := (queued 2).modCx fun x => { x with wake := some .released, f.kmask := 7 }
    s.cleanG [2] ∧ s.cx.wake = some .released ∧ (queued 1).cx.wake ≠ some .released ∧ s.waitersBefore .q0 = [] ∧
    s.waitersBefore .q3 = [] ∧ (s.here.queue .q0).length < (lanesOf s.kmask).length ∧
    (sorted aHit).waitersBefore .q1 = [] ∧ (sorted aHit).cleanG [2] := by unfold State.cleanG; and_intros <;> decide
theorem witness_QueueInstructions_ring :
    let s := overflowing
    s.wf ∧ s.released = true ∧ s.here.brineLevel < 2 ∧ s.here.run.up = true ∧ 64 ≤ (s.here.queue .q3).length ∧
    (s.here.over .q3).length < s.ringRoom s.here.launch s.cur.core .q3 ∧
    (s.ringPlace s.here.launch s.cur.core .q3 s.here.ovIdx[7].toNat true).isSome = true := by
  unfold State.wf; and_intros <;> decide +kernel
def messaged (m : Msg) : State := evd { id := 7, core := 0, qport := .q3 } { base (gs [(2, own)]) with msgs := [m] }
theorem witness_SendsAndArrivals :
    let s := messaged aMsg
    s.src.gBad 2 = false ∧ winForm (s.src.g 2) = true ∧ s.acquiring = false ∧ s.released = true ∧ s.here.sends.length < 8 ∧
    s.src.vBad 4 = 0 ∧ s.src.vBad 5 = 0 ∧ s.msg? 7 = some aMsg ∧ s.live 0 0 = true ∧ (s.core 0).brineLevel < 2 ∧
    s.remote own = false ∧ (s.core 0).over .q0 = [] ∧ ((s.core 0).queue .q0).length < 32 ∧ (s.bed 0).spill = [] ∧
    sorterPlaces (s.bed 0).sorter < 256 ∧ s.reordWaits 0 = false ∧ (s.core 0).over .q2 = [] ∧
    (s.modHere fun k => { k with ov3 := [{ words := [1], marks := [false] }] }).here.over .q3 =
      [{ words := [1], marks := [false] }] ∧
    (overflowing.ringPlace 0 0 .q3 (overflowing.core 0).ovIdx[6].toNat false).isSome = true := by and_intros <;> decide +kernel

theorem test_cpy_counts : after (.cpy 1 2 3 false false 5) (base (gs [(1, own + 0x200), (2, own + 0x100), (3, 0x40)]))
    (fun t => (t.here.tags[5].count, t.copies.length)) = some (1, 1) := by decide
theorem test_cpy_misaligned : after (.cpy 1 2 3 false false 5) (base (gs [(1, own + 0x204), (2, own + 0x100), (3, 0x40)]))
    (fun t => t.cx.k.cause) = some (Cause.align.setWidth 64) := by decide
theorem test_sector_moves : after .copySectorWrite ((copying aCopy).storeNat (ulmKey 0 0x11F) 1 0xAB)
    (fun t => (t.byteAt (ulmKey 0 0x21F), t.byteAt (ulmKey 0 0x220))) = some (0xAB, 0) := by decide +kernel
theorem test_qpop_q3 : after (.qpop 8 0 .q3) (queued 2) (fun t => (t.cx.g 8, t.here.q3.length)) = some (5, 1) := by decide
theorem test_qpop_waits : after (.qpop 8 0 .q3) base (fun t => (t.cur.stalled, t.cx.g 8)) = some (true, 0) := by decide
theorem test_qwait_illegal : after (.qwait 2 .q3) (base (gs [(2, 65)])) (fun t => t.cx.k.cause) =
    some (Cause.illop.setWidth 64) := by decide
theorem test_msend_leaves : after (.msend 2 4) (base (gs [(2, own)])) (fun t => (t.msgs.length, t.here.sends.length)) =
    some (1, 1) := by decide

/-! ### Phased exchange, launches, waves -/

def aSend : Xsend :=
  { id := 7, core := 0, mode := .uc, s := 0, f := 2, tgt := 0, doff := 0x100, soff := 0x200, base := 0, done := 1 }
def aContrib : Contrib := { core := 0, row := true, s := 0, f := 1, tgt := 0, doff := 0x100, soff := 0x200, base := 0, done := 0 }
def aFlit : Flit :=
  { id := 7, target := 0, doff := 0xFE0, tick := 0, data := four 5, mark := false, met := false,
    segs := Vector.replicate 4 0x00000F8040000000 }
theorem witness_PhasedExchange_sends :
    let s := base (gs [(2, 0x0000010000000200), (3, 0x0000000000700000)])
    let y := s.src.g 3
    s.cleanG [2, 3] ∧ s.cur.ctx = 0 ∧ (s.src.g 2).toNat / 0x100000000 % 32 = 0 ∧ (s.src.g 2).toNat % 32 = 0 ∧
    y.toNat / 0x10000 % 0x10000 = 112 ∧ y.toNat / 0x100000000 % 0x10000 = (s.group 0).kxslot ∧
    s.sourceCheck 0x200 112 = none ∧ s.sourceHeld 0x200 (32 * 112) = false ∧ s.sourceCheck 0x200 113 = some (Cause.ulmbound, 0x1000) ∧
    (s.group 0).outside .uc 0 = false ∧ ¬ (s.group 0).w ≤ 7 ∧ ¬ (s.group 0).h ≤ 0 := by unfold State.cleanG; decide
theorem witness_PhasedExchange_barrier :
    let s := (grouped fun g => { g with kxslot := 999, exch := true, ready := some 0 }).modHere fun k =>
      { k with barrier := some (.gvote true 3) }
    let g := s.group 0
    (base.modHere fun k => { k with barEnd := some (.done 5) }).here.barEnd = some (.done 5) ∧ base.here.barEnd = none ∧
    base.here.owed = [] ∧ base.src.gBad 2 = false ∧ base.released = true ∧ s.barrierReady g = true ∧ g.ready = some s.ev.n ∧ g.kxslot < 1000 ∧ g.xcolls = [] ∧
    g.cores.filterMap (fun c => (s.core c).barrier) = [.gvote true 3] ∧
    (let u := grouped fun g => { g with kxslot := 1000, exch := true }
     (u.group 0).exch = true ∧ (u.group 0).st = .resident ∧ 1000 ≤ (u.group 0).kxslot ∧
       ∀ c ∈ (u.group 0).cores, (u.core c).barrier = none) ∧
    (let u := (grouped fun g => { g with kxslot := 1000, exch := true }).modHere fun k =>
       { k with barrier := some .xsync, owed := [true, false] }
     (u.group 0).cores.Nodup ∧ 0 ∈ (u.group 0).cores ∧ (u.core 0).barrier = some .xsync ∧ (u.core 0).barEnd = none ∧
       u.here.owed = true :: [false]) := by decide
theorem witness_PhasedExchange_flits :
    let s := evd { id := 7, n := 1, flag := true } (grouped fun g => { g with xsends := [aSend], contribs := [aContrib] })
    let u := evd { id := 7, core := 0 } (grouped (fun g => { g with flits := [aFlit] }) opened)
    (s.group 0).xsends.find? (fun q => decide (q.id = s.ev.id)) = some aSend ∧ aSend.done = s.ev.n ∧
    u.wf ∧
    (u.group 0).flits.find? (fun f => decide (f.id = u.ev.id) && decide (f.target = u.ev.core)) = some aFlit ∧
    u.live 0 0 = true ∧ segCheck aFlit.segs false 0xFE0 32 { rwr := true } = none ∧
    segCheck ({ aFlit with segs := Vector.replicate 4 0 } : Flit).segs false 0xFE0 32 { rwr := true } ≠ none := by
  unfold State.wf; decide
theorem witness_PhasedExchange_chain :
    ((grouped fun g => { g with contribs := [aContrib] }).group 0).chain 0 true 0 = [aContrib] :=
  show List.mergeSort [aContrib] _ = _ from List.mergeSort_singleton _
def pend : PendRec := { va := 0, bytes := [], core := 0, ctx := 0 }
theorem witness_LaunchesAndKicks :
    let s := (base (gs [(2, 0xF80)])).storeNat (ulmKey 0 0xF80) 8 0x8000
    let bs := (List.range 128).map fun k => s.byteAt (s.hereKey 0xF80 + k)
    s.cleanG [2] ∧ (s.src.g 2).toNat % 0x20000 % 128 = 0 ∧ s.localCheck 0xF80 128 { r := true } = .ok ∧
    s.poisonedRange (s.hereKey 0xF80) 128 = false ∧ s.released = true ∧ ¬ 4 ≤ (s.group 0).pending.length ∧
    4 ≤ ((s.modGroup 0 fun g => { g with pending := List.replicate 4 pend }).group 0).pending.length ∧
    (geckoOf bs).dest = 0 ∧ s.kicksAt (colour (geckoOf bs).start.toNat) < 64 ∧ (s.rakeQueue 0).length < 4 ∧
    (s.chamQueue 0).length < 8 := by unfold State.cleanG; and_intros <;> decide
def former (kind : BlockKind) (x : Context) : Context :=
  { x with block := some ⟨kind, 3, 8⟩, req := some 0x205, k.wave := 0x80000004, k.lane := 0x03020100 }
/-- Eight cores like core 0. -/
def eight (s : State) : State := { s with cores := (List.range 8).map fun n => (n, s.core 0) }
theorem witness_Waves_issue :
    let f : Formed := { gd := 0xF, wave := some (0x80000004, 0x03020100), regs := 8, entries := [aHit], resume := some 0x40 }
    let s := base fun x => { x with wake := some (.formed f) }
    let z := base fun x => { x with wake := some .synced }
    let w := base (former .other)
    s.cleanG [2] ∧ s.cx.wake = some (.formed f) ∧ f.regs ≤ 8 ∧ ({ gd := 0xF } : Formed).regs = 0 ∧
    ({ gd := 0xF } : Formed).resume = none ∧ z.cx.wake = some .synced ∧ base.cx.wake = none ∧ base.cx.f.kmsd = 0 ∧
    base.cx.inWave = false ∧ w.cx.inWave = true ∧ w.cx.waveLanes 0xF &&& ~~~(0xF : BitVec 32) = 0 ∧ w.released = true ∧
    (let r := { base with cur := { base.cur with ctx := 1 } }
     r.cleanG [2, 3] ∧ r.cx.f.kmsd = 0 ∧ r.cur.ctx ≠ 0 ∧ r.drained = true ∧ r.here.desync = none ∧ r.cx.reports = [] ∧
      sorterPlaces (r.bed 0).sorter + sorterPlaces ((lanesOf r.src.f.kmask).map (r.reorderEntry 0 0)) ≤ 256 ∧
      (r.coreOf r.here.launch 0).brineLevel < 2) := by
  unfold State.cleanG; and_intros <;> decide
theorem witness_Waves_formation :
    let s := eight (base (former .wform))
    let reqs := (bedCores 0).filterMap fun n => oldest (s.bedWaiters [n] Context.forming)
    reqs = (List.range 8).map (fun n => (3, n, 0)) ∧ (s.ctx 7 0).req = some 0x205 ∧ bitOf (0x205 : Word) 9 = true ∧
    (s.ctx 7 0).f.kmask ≠ 0 ∧ (s.core 0).brineLevel < 2 := by decide
theorem witness_Waves_mismatch :
    let s := (eight (base (former .wform))).modCtx 7 0 fun x => { x with req := some 0x204 }
    let reqs := (bedCores 0).filterMap fun n => oldest (s.bedWaiters [n] Context.forming)
    reqs = (List.range 8).map (fun n => (3, n, 0)) ∧
    (s.ctx 0 0).req.getD 0 &&& 0x3FF ≠ (s.ctx 7 0).req.getD 0 &&& 0x3FF := by decide
theorem witness_Waves_binned :
    let s := (eight (base fun x => { former .wform x with req := some 3 })).modBed 0 fun b =>
      { b with sorter := List.replicate 33 aHit }
    let reqs := (bedCores 0).filterMap fun n => oldest (s.bedWaiters [n] Context.forming)
    let bin := (s.bed 0).sorter.filter fun h => decide (h.key = 3)
    reqs.length = 8 ∧ (∀ w ∈ reqs, (s.ctx w.2.1 w.2.2).req.getD 0 &&& 0x3FF = (3 : Byte).setWidth 64) ∧
    (s.core 0).brineLevel < 2 ∧ 32 ≤ bin.length ∧ (∀ h ∈ bin, h.resume = none) := by and_intros <;> decide
theorem witness_Waves_sync :
    let s := evd { group := 0, id := 4 } (base (former .wsync))
    let x := s.ctx 0 0
    s.members 0 4 = [(0, 0)] ∧ (s.core 0).run = .running ∧ x.block.map Block.kind = some .wsync ∧ x.req = some 0x205 ∧
    x.wake = none ∧ x.susp = false ∧ x.waveLanes 0xF &&& (0x205 : Word).setWidth 32 ≠ 0 := by decide
def waveOp (fn : WaveFn) : WaveOp :=
  { fn := fn, view := .d, dst := 3, src := four 5, old := 0, pred := 0xF, bad := 0, members := 0xF, arg := 0xF, active := 0xF,
    since := 3, next := 12, replayed := false }
def waving (fn : WaveFn) : State :=
  evd { core := 0, id := 4, group := 0 } (base fun x => { former .wave x with req := none, waveOp := some (waveOp fn) })
theorem witness_WaveOperations :
    (let s := base fun x => gs [(3, 0xF)] (former .other x)
     s.src.pBad 0 = false ∧ s.src.gBad 3 = false ∧ s.cx.inWave = true ∧ s.cx.waveLanes (s.active 0) &&& ~~~(0xF : BitVec 32) = 0 ∧
       s.cx.waveLanes 0xF &&& 0xF ≠ 0 ∧ waveIllegal .scan .d 0xF = false ∧ (s.src.vBad 1 ||| s.src.vBad 2) &&& s.active 0 = 0 ∧
       s.src.pBad 3 = false ∧ s.cur.replay = none ∧ s.src.waveLanes 0xF &&& (0xF0 : BitVec 32) = 0 ∧ s.src.waveLanes 0 = 0) ∧
    (let s := waving .sum
     s.members 0 4 = [(0, 0)] ∧ (s.ctx 0 0).waveFaults = [] ∧ (s.ctx 0 0).waveOp = some (waveOp .sum) ∧
       (waveOp .sum).replayed = false ∧
       (∀ l, l < 4 → elem 8 l (s.ctx 0 0).k.lane = BitVec.ofNat 8 l ∧ bitOf (waveOp .sum).members l = true) ∧
       waveKind (waveOp .sum).arg = 0) := by decide

theorem witness_WaveOperations_all (fn : WaveFn) :
    let s := waving fn
    let x := s.ctx 0 0
    let c (i : Nat) : Option (Word × Bool) := if i < 4 then some (5, true) else none
    s.members s.ev.group s.ev.id = [(0, 0)] ∧ x.wake = none ∧ x.waveFaults = [] ∧ x.waveOp = some (waveOp fn) ∧
    (waveOp fn).replayed = false ∧ x.waveLanes 0xF &&& (waveOp fn).members ≠ 0 ∧
    (∀ l, l < 4 → ∀ j, j < 4 → (elem 8 l x.k.lane).toNat = (elem 8 j x.k.lane).toNat → l = j) ∧
    (∀ l, l < 4 → c (elem 8 l x.k.lane).toNat = some (lane l (waveOp fn).src, bitOf (waveOp fn).pred l)) ∧
    (∀ i, i < 32 → 4 ≤ i → c i = none ∧ ∀ l, l < 4 → (elem 8 l x.k.lane).toNat ≠ i) := by
  cases fn <;> decide

theorem test_xsend_flits : after (.xsend 2 3 .uc) (base (gs [(2, 0x0000010000000200), (3, 0x0000000000020001)]))
    (fun t => ((t.group 0).exch, t.timed.length)) = some (true, 2) := by decide
theorem test_gbar_waits : after .gbar base (fun t => (t.cur.stalled, t.here.barrier)) = some (true, some .gbar) := by decide
theorem test_votes_counted : after .xsyncComplete
    ((grouped fun g => { g with ready := some 0 }).modHere fun k => { k with barrier := some (.gvote true 3) }) (fun t => (t.core 0).barEnd) =
      some (some (.done 0x0000000100000003)) := by decide
theorem test_wave_sum : after .waveInstancePerform (waving .sum) (fun t => lane 3 (t.cx.v 3)) = some 20 := by decide
theorem test_wave_ballot : after .waveInstancePerform (waving .ballot) (fun t => t.cx.g 3) = some 0xF := by decide

/-! ### Matrix unit and geometry -/

/-- Core 0 with the claim, in a launch of its own, its core changed by `f`. -/
def matrix (f : Core → Core := id) (shape : Word := 0x89200804) : State :=
  evd { core := 0, launch := 1, id := 9 } ((base fun x => { x with k.mshape := shape }).modHere fun k =>
    f { k with claim := some 0, launch := 1 })
theorem witness_MatrixUnit :
    let s := matrix
    s.captured = false ∧ s.here.desync = none ∧ s.src.gBad 2 = false ∧ base.here.claim = none ∧ s.here.claim = some s.cur.ctx ∧
    s.here.rep = none ∧ s.here.matOp = none ∧ s.here.accBusy 3 = false ∧ s.cx.k.mshape.toNat / 0x80000000 % 2 = 1 ∧
    s.cx.k.mshape.toNat / 0x1000000 % 16 = 9 ∧ s.cx.k.mshape.toNat / 0x10000 % 256 = 32 ∧ s.cx.k.mshape.toNat % 256 = 4 ∧
    s.src.vBad 28 = 0 ∧ s.here.fifo.length < 8 ∧ 28 + 4 ≤ 32 ∧ s.here.badScale s.cx.k.mshape = false ∧
    (s.src.g 3).toNat % 32 = 0 ∧ s.cur.replay = none ∧ base.plain ∧ base.here.claim ≠ some base.cur.ctx := by
  unfold State.plain State.doubleFault; and_intros <;> decide
theorem witness_MatrixUnit_full :
    let s := matrix fun k => { k with fifo := List.replicate 8 0 }
    8 ≤ s.here.fifo.length ∧ s.here.scaledOp = false ∧ s.plain ∧
    (let u := matrix id 0
     u.plain ∧ u.cx.k.mshape.toNat / 0x80000000 % 2 ≠ 1) := by unfold State.plain State.doubleFault; decide
def aRep : Rep :=
  { owner := 0, words := [0x48190A12], offs := [4], n := 1, stride := 0, count := 2, iter := 0, next := 0, capturing := false,
    suspended := 0, ended := false }
theorem witness_MatrixUnit_rep : (matrix fun k => { k with rep := some aRep }).here.rep = some aRep ∧ aRep.owner = 0 ∧
    aRep.capturing = false ∧ aRep.ended = false ∧ ({ aRep with ended := true } : Rep).ended = true := by decide
theorem witness_MatrixEngine_replay :
    let s := matrix fun k => { k with rep := some aRep }
    s.here.rep = some aRep ∧ bitOf aRep.bad aRep.next = false ∧ bitOf ({ aRep with bad := 1 } : Rep).bad aRep.next = true ∧ aRep.words[aRep.next]? = some 0x48190A12 ∧
    (decodeNat 0x48190A12).map (advanced (0 * 0)) = some (.vadd 3 4 5 .w 2) ∧ wellFormed (.vadd 3 4 5 .w 2) = true ∧
    s.src.held (s.here.rowsRead s.src) (.lone (.vadd 3 4 5 .w 2) true) = false ∧
    s.src.readsRefused (s.here.rowsRead s.src) (.lone (.vadd 3 4 5 .w 2) true) = false ∧ s.cur.stalled = false ∧ s.cur.trapped = false ∧ s.cur.joined = false ∧
    s.src.pBad 2 = false ∧ (s.src.vBad 4 ||| s.src.vBad 5) &&& s.active 2 = 0 ∧ ¬ s.doubleFault := by
  unfold State.doubleFault; decide
def arrived (read : Option Nat) : Arrival :=
  { ctx := 0, off := 8, next := 12, d5 := 8, a5 := 16, gB := 0x100, keep := false, shape := 0x87200804, super := true,
    replayed := false, read := read }
theorem witness_MatrixEngine_gang :
    (let s := matrix fun k => { k with arrival := some (arrived none) }
     s.gang 1 0 = [0] ∧ s.ev.n = 0 ∧ 16 * s.ev.group + (arrived none).gB.toNat / 0x100000000 % 16 = 0 ∧
       (s.core 0).arrival = some (arrived none) ∧ s.live 1 0 = true ∧ s.bCheck 0 (arrived none) = .ok ∧ s.portTaken 0 = false) ∧
    (let s := matrix fun k => { k with arrival := some { arrived (some 9) with port := some 0 } }
     s.live 1 0 = true ∧ s.portTaken 0 = true) ∧
    (let s := matrix fun k => { k with arrival := some (arrived (some 9)) }
     s.live 1 0 = true ∧ (s.core 0).matOp = none ∧ s.ev.addr ≠ 1 ∧ (s.core 0).arrival = some (arrived (some 9)) ∧
      (arrived (some 9)).read = some s.ev.id) := by decide
def running (desync : Bool) (ty : Word) : MatOp :=
  { id := 9, ctx := 0, off := 8, d5 := 24, shape := 0x80080808 ||| (ty <<< 24), rows := List.replicate 8 (four 0x0302010003020100),
    marks := [], b := List.replicate 64 2, bMark := [], scales := [], blocks := 0, endTick := 0, desync := desync }
theorem witness_MatrixEngine_end :
    let s := matrix fun k => { k with matOp := some (running false 7), fifo := [four 1] }
    (s.core 0).matOp = some (running false 7) ∧ (running false 7).id = s.ev.id ∧ (s.core 0).fifo = four 1 :: [] ∧
    (running true 7).desync = true ∧ (running false 7).d5 % 8 = 0 ∧ (running false 7).d5 < 32 ∧
    (running false 7).shape.toNat % 256 ≤ 8 ∧ (running false 7).shape.toNat / 0x1000000 % 16 = 7 ∧
    (running false 1).shape.toNat / 0x1000000 % 16 = 1 ∧ ({ running false 1 with residue := true } : MatOp).residue = true := by decide
theorem witness_MatrixEngine_traps :
    (let s := matrix fun k => { k with rep := some { aRep with bad := 1 } }
     s.here.rep = some { aRep with bad := 1 } ∧ aRep.owner = s.cur.ctx ∧ bitOf ({ aRep with bad := 1 } : Rep).bad 0 = true ∧
       aRep.words[0]? = some 0x48190A12 ∧ ¬ s.doubleFault) ∧
    (let s := matrix fun k => { k with desync := some 8 }
     s.here.desync = some 8 ∧ s.here.scaleBad = false ∧ s.here.claim = some s.cur.ctx ∧ s.here.rep = none ∧ s.plain) := by
  unfold State.plain State.doubleFault; decide
/-- A participant that names core 1, which is not there, for B; and one whose B runs past the segment. -/
theorem witness_MatrixEngine_mismatch :
    let a := { arrived none with gB := 0x100000100 }
    let b := { arrived none with gB := 0xFE0 }
    let s := matrix fun k => { k with arrival := some a }
    let u := matrix fun k => { k with arrival := some b }
    s.ev.n = 0 ∧ s.gang 1 0 = [0] ∧ s.live 1 0 = true ∧ (s.core 0).arrival = some a ∧ a.read = none ∧
    16 * s.ev.group + a.gB.toNat / 0x100000000 % 16 = 1 ∧ (u.core 0).arrival = some b ∧
    u.bCheck 0 b = .bad Cause.ulmbound 0xFE0 := by decide
theorem witness_MatrixEngine_latch :
    let a := { arrived (some 9) with keep := true }
    let l : Latch := { a5 := 16, rows := [four 1], marks := [0] }
    let s := matrix fun k => { k with arrival := some a, latch := some l }
    let u := matrix fun k => { k with arrival := some a, latch := some { l with a5 := 8 } }
    let v := { matrix fun k => { k with arrival := some a } with ev := { addr := 1 } }
    a.keep = true ∧ (s.core 0).arrival = some a ∧ (s.core 0).latch = some l ∧ l.a5 = a.a5 ∧ (u.core 0).latch = some { l with a5 := 8 } ∧
    ({ l with a5 := 8 } : Latch).a5 ≠ a.a5 ∧ v.ev.addr = 1 := by decide
theorem witness_MatrixEngine_scales :
    let s := matrix fun k => { k with matOp := some (running false 9) }
    let u := matrix fun k => { k with matOp := some (running false 9), fifo := [four 1], fifoBad := [true] }
    (s.core 0).matOp = some (running false 9) ∧ (running false 9).id = s.ev.id ∧ (s.core 0).fifo = [] ∧
    (s.core 0).fifoBad.headD false = false ∧ (u.core 0).fifo ≠ [] ∧ (u.core 0).fifoBad.headD false = true := by decide
theorem witness_Geometry :
    base.src.pBad 0 = false ∧ base.active 0 ≠ 0 ∧ (∀ r : Fin 32, base.src.vBad r = 0) ∧
    (∀ r : Fin 32, ∀ l, l < 4 → lane l (base.src.v r) = 0) ∧ base.src.gBad 3 = false ∧
    ((base.src.g 3).setWidth 8).toInt.natAbs ≤ 100 ∧ 100 < ((101#64).setWidth 8 : BitVec 8).toInt.natAbs ∧
    base.plain ∧ base.wf ∧ base.first ∧ base.cleanG [2] ∧
    ∀ l, l < 4 → base.localCheck (4 * l) 4 { r := true, w := true } = .ok ∧ base.poisoned (base.hereKey (4 * l)) = false := by
  unfold State.plain State.doubleFault State.wf State.first State.cleanG; and_intros <;> decide +kernel
theorem witness_Geometry_finite : finite32 0 ∧ ∃ n m e, fmtF64.value 0 = .num n m e := ⟨⟨_, _, _, rfl⟩, _, _, _, rfl⟩

theorem test_mshape_example : after (.mshape 1 2) (base (gs [(2, 0x09200804)])) (fun t => (t.cx.g 1, t.cx.k.mshape)) =
    some (0x89200804, 0x89200804) := by decide
theorem test_mshape_small_k : after (.mshape 1 2) (base (gs [(2, 0x09100808)])) (fun t => t.cx.g 1) = some 0 := by decide
theorem test_unclaimed : after (.mzero 0) base (fun t => t.cx.k.cause) = some (Cause.claim.setWidth 64) := by decide
theorem test_i8_products : after .matrixOpEnd (matrix fun k => { k with matOp := some (running false 7) })
    (fun t => elem 32 7 ((t.core 0).acc[31])) = some 24 := by decide +kernel
def rayBoxes : Context → Context := vs
  [(2, (0x3E800000 : Word) ++ (0x3F0000003F800000 : Word) ++ (0 : Word) ++ (0 : Word)),
   (3, (0 : Word) ++ (0 : Word) ++ (0x42C8000040800000 : Word) ++ (0x400000003F800000 : Word)),
   (4, (0x40A000003F000000 : Word) ++ (0x4080000040400000 : Word) ++ (0xBF800000C0000000 : Word) ++ (0x400000003F800000 : Word)),
   (5, (0x404000003E800000 : Word) ++ (0x3F80000000000000 : Word) ++ (0x3F80000000000000 : Word) ++ (0x3F80000000000000 : Word)),
   (6, four 0x3F80000000000000)]
theorem test_bxt_example : after (.bxt 10 2 4 0) (base rayBoxes) (fun t => (lane 0 (t.cx.v 10), lane 1 (t.cx.v 10),
    lane 3 (t.cx.v 10))) = some (0x000000013F800000, 0xFFFFFFFF7F800000, 0x000000003F000000) := by decide
/-- Triangle (−1, −1), (1, −1), (0, 2) in the plane z = 4, and the ray along z: t 4, and a hit. -/
def rayTriangle : Context → Context := vs
  [(2, (0x3F800000 : Word) ++ (0 : Word) ++ (0 : Word) ++ (0 : Word)),
   (3, (0 : Word) ++ (0 : Word) ++ (0x42C800003F800000 : Word) ++ (0 : Word)),
   (4, (0 : Word) ++ (0x4000000000000000 : Word) ++ (0xBF8000003F800000 : Word) ++ (0xBF800000BF800000 : Word)),
   (5, (0 : Word) ++ (0x40800000 : Word) ++ (0x40800000 : Word) ++ (0x40800000 : Word))]
theorem test_trix_hits : after (.trix 10 2 4 .off 0) (base rayTriangle)
    (fun t => ((lane 0 (t.cx.v 10)).setWidth 32, (lane 1 (t.cx.v 10)) &&& 0x100000000)) = some (0x40800000#32, 0x100000000) := by
  decide +kernel

/-! ### K-registers and images -/

theorem witness_KRegisters :
    let u := base fun x => { x with mode := false }
    base.src.mode = true ∧ u.src.mode = false ∧ base.flagsDue = false ∧ base.kBad 0x17 = false ∧ base.kBad 0x86 = false ∧
    base.src.gBad 1 = false ∧ base.cx.gBad 1 = false ∧ base.plain ∧ u.plain ∧ 0x18 ∉ [0x03, 0x0B] ∧ base.mgmt.attach = false := by
  unfold State.plain State.doubleFault; and_intros <;> decide
theorem witness_KRegisters_cycle :
    let s := ({ base with launches := base.launches.map fun l => { l with startTick := some 0 } } : State)
    s.kBad 0x16 = false ∧ s.here.brineLevel = 0 ∧ (s.launch? s.here.launch).map Launch.startTick = some (some 0) ∧
    s.src.mode = true := by decide
theorem witness_ContextImages :
    let s := base (gs [(2, 0x100000000)])
    s.wf ∧ s.src.gBad 2 = false ∧ (1 : Fin 11) ≠ s.cur.ctx ∧ (s.src.g 2).toNat / 0x100000000 % 16 = 1 ∧
    (s.src.g 2).toNat % 0x20000 % 64 = 0 ∧ s.here.ctxs[1].live = false ∧ s.here.midIssue 1 = false ∧ s.here.settled 1 = true ∧
    s.imageRefused 0 { w := true } = none ∧ s.imageCheck 0 true = .ok ∧ s.imageRefused 0 { r := true } = none ∧
    s.imageCheck 0 false = .ok ∧ s.poisonedRange (s.hereKey 0) 4096 = false ∧
    s.here.claim = none := by unfold State.wf; and_intros <;> decide +kernel
theorem witness_ContextImages_image : imageBad (memBytes (base (gs [(2, 0x100000000)])).mem (ulmKey 0 0) 4096) = false := by
  rw [show (base (gs [(2, 0x100000000)])).mem = [] from rfl, memBytes_zero]
  exact zero_image.1
theorem witness_ContextImages_live :
    let x := base.ctx 0 0
    x.f.depth ≤ 8 ∧ x.f.kmsd ≤ 32 ∧ x.f.kmask ≠ 0 ∧ x.f.retBad = 0 ∧ ∀ e ∈ x.f.stack.toList, e.bad = false := by
  decide +kernel
theorem test_kset_fpc_keeps_rm : after (.kset 7 0xD) (base fun x => { gs [(7, 0x1F37)] x with k.fpc := 3 }) (fun t => t.cx.k.fpc) =
    some 0x1F33 := by decide
theorem test_kget_unassigned : after (.kget 5 0x18) base (fun t => t.cx.k.cause) = some (Cause.illop.setWidth 64) := by decide
theorem test_kswp : after (.kswp 7 0x84) (base fun x => { gs [(7, 9)] x with k.sscr0 := 4 }) (fun t => (t.cx.g 7, t.cx.k.sscr0)) =
    some (4, 9) := by decide

/-! ### Engines -/

def geckoCmd : List Byte :=
  natBytes 0 8 ++ natBytes 4 2 ++ natBytes 10 2 ++ [0, 3] ++ List.replicate 50 0 ++ natBytes (own.toNat + 0x100) 8 ++
    List.replicate 56 0
def aWalk : Walk :=
  { id := 7, core := 0, ctx := 0, launch := 0, pasid := 0, die := 0, cmd := geckoCmd, counted := false, running := true,
    migrated := false, words := [3240184832, 0x80080001, 0x81000001, 0x8929B002], g := Vector.replicate 32 0, pc := 0, steps := 0,
    n := 0, migr := 0 }
def walking (f : Walk → Walk) (die : Nat := 5) : State :=
  evd { id := 7, die := die, addr := 0 } { mapped base with walks := [f aWalk] }
theorem witness_GeckoWalks :
    (walking id).walk? 7 = some aWalk ∧ aWalk.ended = none ∧ aWalk.gMark = 0 ∧ ({ aWalk with gMark := 64 } : Walk).gMark.getLsbD 6 = true ∧ aWalk.running = true ∧ aWalk.words ≠ [] ∧
    aWalk.fields.len = 4 ∧ aWalk.fields.limit = 10 ∧ (walkWord 4 0 3240184832 = some (.add 4 5 6)) ∧ walkWord 4 1 0x80080001 = some (.trap 1) ∧
    walkWord 4 2 0x81000001 = some (.br 1) ∧ walkWord 4 3 0x81000001 = none ∧ walkWord 4 3 0x8929B002 = some (.ld64 5 6 2) ∧
    colour 0x10 = aWalk.die ∧ aWalk.steps ≠ 10 ∧ (mapped base).launch? 0 ≠ none := by and_intros <;> decide
theorem witness_GeckoWalks_load :
    let s := walking id
    let u := s.modWalk 7 fun w => { w with n := w.n + 1 }
    let r := u.walkFetch { aWalk with n := 1 } 0x10
    r.1 = .value 0x40000010 ∧ r.2.poisoned 0x40000010 = false ∧ r.2.walk? 7 = some { aWalk with n := 1 } := by decide +kernel
theorem witness_GeckoWalks_moves :
    let w : Walk := { aWalk with migrated := true, running := false }
    w.die ≠ (walking fun _ => w).ev.die ∧ (walking (fun _ => w) 0).nextWalk 0 = some 7 ∧
    aWalk.fields.dest = own + 0x100 ∧ bitOf aWalk.fields.dest 55 = true ∧
    base.remote aWalk.fields.dest = false ∧ base.portBusy 0 0 = false ∧
    winCore aWalk.fields.dest = aWalk.core ∧ base.ulmBase 0 0 = some (ulmKey 0 0) ∧ aWalk.counted = false := by and_intros <;> decide

def rakeCmd : List Byte :=
  natBytes 0 8 ++ natBytes 0x100000 8 ++ natBytes 0x200000 8 ++ natBytes 1 4 ++ natBytes 1 4 ++ List.replicate 24 0 ++
    natBytes 0x3F800000 4 ++ natBytes 0x3F800000 4 ++ natBytes 0x3F800000 4 ++ natBytes 0 4 ++ natBytes 0x300000 8 ++
    natBytes 1 4 ++ natBytes 1 4 ++ natBytes 0x400000 8 ++ natBytes 0x500000 8 ++ natBytes 0x600000 8 ++ List.replicate 16 0
def aRake : RakeCmd := { id := 7, core := 0, ctx := 0, launch := 0, pasid := 0, cmd := rakeCmd }
def raking (c : RakeCmd) (dag : Nat) : State :=
  evd { id := 7 } { (mapped base).storeNat 0x40101000 8 dag with rakes := [(0, c)] }
theorem witness_RakeCuts_table :
    dagFault 2 [0x1FFFFFF, 0x100000000] = none ∧ [0, posInf].length = 2 ∧ ∀ x ∈ [0, posInf], x ≤ posInf := by
  and_intros <;> decide +kernel
theorem witness_RakeCuts_command :
    let s := raking aRake 0x1FFFFFF
    let a : Asker := ⟨7, ⟨.rakeCommand, s.ev, 0⟩, 0, 0⟩
    let r := rakeOf rakeCmd
    s.rake? 7 = some (0, aRake) ∧ (s.rakeQueue 0).head?.map RakeCmd.id = some 7 ∧ r.bad = false ∧ r.pagein = false ∧
    (rakeOf (List.replicate 128 0)).bad = true ∧ (s.engineRead a r.dag 8).1 = .data (natBytes 0x1FFFFFF 8) false ∧
    dagFault 1 [0x1FFFFFF] = none ∧ dagFault 1 [0] = some (3, 0) ∧
    ((raking aRake 0).engineRead a r.dag 8).1 = .data (natBytes 0 8) false ∧
    (s.collapse aRake [dagEntry 0x1FFFFFF] [0] 2 [] []).1.isSome = true := by and_intros <;> decide +kernel
theorem witness_RakeCuts_outputs :
    let c : RakeCmd := { aRake with result := some ([(0x300000, [1])], []) }
    let s := raking c 0
    s.rake? 7 = some (0, c) ∧ (rakeOf rakeCmd).done = 0 ∧
    ∃ l u, s.outPlaces ⟨7, ⟨.rakeCompletion, s.ev, 0⟩, 0, 0⟩ [(0x300000, [1])] = (.at_ l, u) :=
  ⟨by decide +kernel, by decide +kernel, _, _, rfl⟩

/-- A group at the eye, of no size and no error; and one whose error is a NaN. -/
theorem witness_RakeCuts_projected :
    let r := rakeOf rakeCmd
    let g : List Byte := List.replicate 32 0
    let b : List Byte := List.replicate 28 0 ++ natBytes 0x7FC00000 4
    let zero : FVal := .num false 0 (-1074)
    let d := (fmtF64.add {} (fmtF64.value (getN g 0 8)) (fmtF64.value ((r.eye[0]?).getD 0)).flip).code
    fmtF32.value (getN g 28 4) = .num false 0 (-149) ∧ fmtF32.value (getN g 24 4) = .num false 0 (-149) ∧
    fmtF64.value d = zero ∧ (r.eye[1]?).getD 0 = (r.eye[0]?).getD 0 ∧ (r.eye[2]?).getD 0 = (r.eye[0]?).getD 0 ∧
    fmtF64.value (fmtF64.add {} (fmtF64.value (fmtF64.sqrt {} 0).code) (fmtF64.value (toD (getN g 24 4))).flip).code = zero ∧
    zero.rat = 0 ∧ 0 < rat32 r.kfact ∧ 0 < rat32 r.dnear ∧ 0 ≤ rat32 0x7F7FFFFF ∧
    (fmtF32.value (getN b 28 4)).isNan = true := by and_intros <;> decide +kernel
theorem witness_RakeCuts_finite : finite32 (rakeOf rakeCmd).kfact ∧ finite32 (rakeOf rakeCmd).dnear :=
  ⟨⟨_, _, _, rfl⟩, _, _, _, rfl⟩

def aLayout (base : Word) : Layout := { ty := 0, dims := [{ extent := 4, grid := 1, cyclic := none }], shards := [(base, none)] }
def aCham : ChamCmd :=
  { id := 7, core := 0, ctx := 0, launch := 0, pasid := 0, cmd := List.replicate 128 0, started := true, src := aLayout 0x8000,
    dst := aLayout 0x9000 }
def chamming (c : ChamCmd) : State := evd { id := 7, flag := true, n := 0 } { mapped base with chams := [(0, c)] }
theorem witness_ChameleonMoves :
    let done : ChamCmd := { aCham with issued := 2, open_ := [0, 1] }
    (chamming aCham).cham? 7 = some (0, aCham) ∧ aCham.issued < (planOf aCham.src aCham.dst).length ∧ aCham.due = none ∧
    aCham.failed = [] ∧ (chamming aCham).chamHome aCham = true ∧
    ({ done with open_ := done.open_.erase 0, status := topCause 0 0 } : ChamCmd).windowDone = false ∧
    ({ aCham with ending := true } : ChamCmd).at_ 24 = 0 := by and_intros <;> decide +kernel
theorem witness_ChameleonMoves_dim : 6 < 7 ∧ 0 < ({ extent := 7, grid := 3, cyclic := some 2 } : Dim).grid := by decide

/-! ### Rays and treelets -/

theorem test_replica_table : replicaOf 1 3 = 1 ∧ replicaOf 1 4 = 2 ∧ replicaOf 3 3 = 2 ∧ replicaOf 3 4 = 3 ∧ replicaOf 7 4 = 1 := by
  decide
theorem test_saltern_hash : salternHash 0x1F3 0 = 0x66223403 := by decide
def rayRegs (id last : Word) : Context → Context := vs [(5, last ++ id ++ (0x100000000 : Word) ++ (0 : Word))]
def aHome : Home := { id := 2, pan := 0, launch := 0, reps := [(0, 0)] }
theorem witness_TreeletRays_send :
    let s := (base (rayRegs 2 0)).modHere fun k => { k with scache := [aHome] }
    s.src.vBad 4 = 0 ∧ s.src.vBad 5 = 0 ∧ s.acquiring = false ∧ s.released = true ∧ s.here.sends.length < 8 ∧
    s.here.scache.find? (fun h => decide (h.id = 2)) = some aHome ∧ (base (rayRegs 2 0)).here.scache = [] ∧
    bitOf (lane 3 ((base (rayRegs 2 0x0100000000000000)).src.v 5)) 56 = true ∧ base.plain ∧ base.panOf 0 ≠ none ∧
    base.msgs = [] ∧ base.here.sends = [] := by unfold State.plain State.doubleFault; and_intros <;> decide
def aRay (flag : Word) : Msg :=
  { aMsg with kind := .rsend, words := [0, 0, 0, 0, 0, 0x100000000, 2, flag] }
def raying (m : Msg) (f : State → State := id) : State := evd { id := 7 } { f base with msgs := [m] }
def withCat (s : State) : State := s.modLaunch 0 fun l => { l with cat := some (0x8000, 3, 5), r.treelets := 6 }
theorem witness_TreeletRays_arrival :
    let s := raying (aRay 0) fun s => (withCat s).modHere fun k => { k with slots := k.slots.set 5 { id := 2, state := .resident } }
    let u := raying (aRay 0x0100000000000000) fun s => (withCat s).modHere fun k => { k with fptrs := [(2, 3)] }
    s.msg? 7 = some (aRay 0) ∧ (s.launch? 0).map Launch.id = some 0 ∧ s.live 0 0 = true ∧ s.pageOf 0 0 = none ∧
    (s.core 0).brineLevel < 2 ∧ ((s.launch? 0).map fun l => l.r.treelets) = some 6 ∧ (s.core 0).slots[5].state = .resident ∧
    (s.core 0).slots[5].id = 2 ∧ (s.core 0).slots[4].state ≠ .resident ∧ (s.core 0).over .q0 = [] ∧
    ((s.core 0).queue .q0).length < 32 ∧ u.msg? 7 = some (aRay 0x0100000000000000) ∧
    (u.core 0).fptrs.find? (fun p => decide (p.1 = 2)) = some (2, 3) ∧
    bitOf ((aRay 0x0100000000000000).words[7]?.getD 0) 56 = true := by and_intros <;> decide
theorem witness_TreeletRays_home :
    let h : Home := { aHome with reps := [(0, 0)] }
    let s := raying (aRay 0) fun s => { s with homes := [(homeDie 2 0, h)] }
    let u := raying (aRay 0) withCat
    s.home? 0 2 = some h ∧ h.leaving = [] ∧ u.home? 0 2 = none ∧ (u.launch? 0).map Launch.cat = some (some (0x8000, 3, 5)) ∧
    s.pageOf 0 0 = none ∧ (0, 0) ∉ h.leaving ∧ (0, 0) ∈ ({ h with leaving := [(0, 0)] } : Home).leaving ∧
    2 < 3 ∧ ¬ 3 ≤ 2 ∧ u.rays = [] ∧ 0 < u.agentRoom ∧ u.pageIn? 0 2 = none := by and_intros <;> decide
def anIn : PageIn := { id := 7, launch := 0, treelet := 2, replica := false, initial := false }
theorem witness_TreeletRays_slots :
    let s := evd { id := 7, home := some aHome } { withCat base with pageIns := [{ anIn with place := some (0, 5) }] }
    let u := evd { id := 9, core := 0, n := 5, m := 2 } { base with homes := [(homeDie 2 0, { aHome with reps := [(0, 5)] })] }
    s.ev.home = some aHome ∧ s.live 0 0 = true ∧ s.pageOf 0 0 = none ∧
    s.pageIns.find? (fun p => decide (p.id = 7)) = some { anIn with place := some (0, 5) } ∧
    u.home? 0 2 = some { aHome with reps := [(0, 5)] } ∧ u.levelOf 0 = 0 ∧ u.ev.n < 6 ∧ u.pageIns = [] ∧ u.pageOf 0 0 = none ∧
    u.ev.flag = false ∧ u.live 0 0 = true ∧ ((u.core 0).slot 5).id ≠ 2 ∧ (withCat base).launch? 0 ≠ none ∧
    (let w := u.modHere fun k => { k with slots := k.slots.set 5 { id := 2, state := .resident } }
     w.live 0 0 = true ∧ (w.core 0).idle 5 = true ∧ ((w.core 0).slot 5).id = 2) := by and_intros <;> decide

def aLaunch : Launch := { id := 3, va := 0x80, src := .channel 2, st := .head }
/-- A page-in of treelet 2, whose catalogue entry names an image and one replica. -/
def paging : State :=
  evd { id := 7 } { (withCat ((mapped base).storeNat 0x40008040 8 0x10000)).storeNat 0x4000804B 1 1 with pageIns := [anIn] }
theorem witness_TreeletRays_pageIn :
    let l : Launch := (paging.launch? 0).getD aLaunch
    let r := paging.readCat (anIn.asker l) l 2 2 false
    paging.pageIns.find? (fun p => decide (p.id = 7)) = some anIn ∧ paging.launch? anIn.launch = some l ∧ anIn.place = none ∧
    anIn.evicting = false ∧ anIn.replica = false ∧ anIn.counted = false ∧ l.r.treelets ≠ 0 ∧
    r.1 = .entry (catEntry (natBytes 0x10000 8 ++ List.replicate 3 0 ++ [1] ++ List.replicate 20 0) 6) ∧
    (r.2.dieHomes (homeDie 2 l.corner)).length < 65536 ∧ r.2.levelOf l.id = 0 ∧ r.2.chooseSlot l anIn = some (0, 0) ∧
    (r.2.core 0).slots[0].state = .free := by and_intros <;> decide +kernel
theorem witness_TreeletRays_pins :
    let s := evd { launch := 0, n := 1 } (withCat (mapped base))
    let l : Launch := (s.launch? 0).getD aLaunch
    (s.readCat ⟨l.id, ⟨.initialPin, s.ev, 0⟩, l.id, l.pasid⟩ l 1 (l.catVa 1) true).1 = .entry (catEntry (List.replicate 32 0) 6) ∧
    (catEntry (List.replicate 32 0) 6).init = false ∧ s.ev.n < 3 ∧ ¬ 3 ≤ s.ev.n ∧ l.width ≤ 256 ∧ l.r.treelets ≤ 6 := by
  and_intros <;> decide +kernel

/-- As `mapped`, in pages of 2 MiB: the first two. -/
def mapped2 (s : State) : State :=
  (((((s.storeNat 0 8 0x1001).storeNat 0x1000 8 0x2001).storeNat 0x2000 8 0x3001).storeNat 0x3000 8 0x4001).storeNat 0x4000 8
    0x4000005B).storeNat 0x4008 8 0x4020005B
def rakeAsks : Asker := ⟨7, ⟨.rakeCommand, { id := 7 }, 0⟩, 0, 0⟩
def raking2 : State := evd { id := 7 } { (mapped2 base).storeNat 0x40101000 8 0x1FFFFFF with rakes := [(0, aRake)] }
/-- After the DAG table has been read, and the walks have used an entry of the PASID table. -/
def readDag : State := (raking2.engineRead rakeAsks 0x100000 8).2
def walked : State := { readDag with fresh := 1 }
/-- Whichever entry of the PASID table the walk uses, it is the same one. -/
theorem walk_second : readDag.walk 0 0x200000 = (.leaf 0x4020005B 0x4008 0x200000, walked) := by
  have h : readDag.pasidSeen.find? (fun e => decide (e.1 = 0)) = some (0, 0x1001, 0) := by decide +kernel
  unfold State.walk
  rw [h]
  show (if _ then (walked.walkUnder 0x200000 (some (0x1001, 0)), walked) else (walked.walkNow 0 0x200000, walked)) = _
  split
  · exact Prod.ext (by decide +kernel) rfl
  · exact Prod.ext (by decide +kernel) rfl
def filled : State := (walked.fill 2 0 0x200000 false 0x4020005B 0x4008 0x200000).2
theorem translate_second : readDag.translate 0 0x200000 false = (.at_ 0x40202000, filled) := by
  have h : readDag.tlbHit (colour 0x200000) 0 0x200000 false = none := by decide +kernel
  unfold State.translate
  dsimp only
  rw [h]
  show (match readDag.walk 0 0x200000 with
    | (.leaf pte at_ size, s) => s.fill (colour 0x200000) 0 0x200000 false pte at_ size
    | (.unmapped, s) => (.missing, s)
    | (.inv, s) => (.inv, s)
    | (.poison, s) => (.poison, s)) = _
  rw [walk_second]
  exact Prod.ext (by decide +kernel) rfl
def needed : State := { filled with
  answered := filled.answered.filter fun a => !(decide (a.1 = 7) && decide (a.2.1 = granuleOf 0x200000)) }
theorem need_second : readDag.need rakeAsks.req rakeAsks.task rakeAsks.launch rakeAsks.pasid 0x200000 false =
    (.at_ 0x40202000, needed) := by
  unfold State.need
  rw [show rakeAsks.pasid = 0 from rfl, translate_second]
  rfl
theorem witness_RakeCuts_groups :
    (raking2.engineRead rakeAsks 0x100000 8).1 = .data (natBytes 0x1FFFFFF 8) false ∧
    (∃ v, readDag.engineRead rakeAsks 0x200000 32 = (.data (List.replicate 32 0) false, v) ∧
      (v.collapse aRake [dagEntry 0x1FFFFFF] [0] 2 [] []).1 = some ([], [0], [])) := by
  refine ⟨by decide +kernel, needed, ?_, ?_⟩
  · have p : granuleParts 0x200000 32 = [(0x200000, 32)] := by decide +kernel
    have q : readDag.placesOf rakeAsks false [(0x200000, 32)] = (.at_ [(0x40202000, 32)], needed) := by
      unfold State.placesOf
      rw [need_second]
      rfl
    unfold State.engineRead
    rw [p, q]
    exact Prod.ext (by decide +kernel) rfl
  · decide +kernel

/-! ### Launches -/

def onPort (n : Nat) (va : Word) : State :=
  evd { port := 2, value := va } { base with channels := base.channels.set 2 { fifo := List.replicate n 0 } }
theorem witness_LaunchLife_port :
    base.power = .service ∧ (0x00FFFFFFFFFFFF80 : Word) &&& 0xFF0000000000007F = 0 ∧
    ((onPort 255 0).channel 2).fifo.length < 256 ∧ 256 ≤ ((onPort 256 0).channel 2).fifo.length ∧
    (0x40 : Word) &&& 0xFF0000000000007F ≠ 0 := by and_intros <;> decide +kernel
/-- A launch at the head of channel 2, by itself in an idle package. -/
def heading (l : Launch) : State :=
  evd { source := .channel 2, launch := 3 } { State.reset with
    launches := [l], channels := State.reset.channels.set 2 { fifo := [0x80], head := some 3 }, nextId := 9 }
theorem witness_LaunchLife_check :
    let l : Launch := { aLaunch with stage := 3, r := { imglen := 4096 } }
    let b : Launch := { aLaunch with stage := 1, r := { panw := 6 } }
    (heading l).headOf (.channel 2) = some l ∧ l.validated = false ∧ 2 ≤ l.stage ∧ l.r.imglen ≤ 4096 * (l.stage - 2) ∧
    l.bad = false ∧ (heading b).headOf (.channel 2) = some b ∧ b.parent = none ∧ b.r.bad = true ∧ b.r.compl = 0 := by
  and_intros <;> decide +kernel
theorem witness_LaunchLife_wait :
    let l : Launch := { aLaunch with validated := true, r := { waitva := [0, 0x8000], waittg := [0, 5] } }
    (mapped (heading l)).launch? 3 = some l ∧ l.eligible = false ∧
    ((heading { l with r := {} }).waitWords { l with r := {} } []).1 = .ready ∧
    ((mapped (heading l)).waitWords l (l.r.waitva.zip l.r.waittg)).1 = .no := by and_intros <;> decide +kernel
theorem witness_LaunchLife_selection :
    let l : Launch := { aLaunch with validated := true, eligible := true }
    let s := heading l
    l ∈ s.launches ∧ s.mgmt.replay = false ∧ s.mgmt.noGrant = false ∧ s.mgmt.hold = false ∧
    (∀ x ∈ s.launches, x.st ≠ .granted) ∧ s.selected = none ∧ s.aboveDue (s.effOf l) = true ∧ (s.launches.map Launch.id).Nodup ∧
    s.fitFor l = some 0 := by and_intros <;> decide +kernel
theorem witness_LaunchLife_grant :
    let l : Launch := { aLaunch with st := .selected, pblock := List.replicate 256 0 }
    let s := { heading l with selected := some 3 }
    let g : Launch := { aLaunch with st := .granted, groups := [4] }
    s.wf ∧ s.launch? 3 = some l ∧ s.aboveDue l.prio = true ∧ s.candidates = [] ∧ s.brineFor l = 0 ∧ l.r.gang = false ∧ s.fitFor l = some 0 ∧ l.r.grpw < 256 ∧
    (heading g).launch? 3 = some g := by unfold State.wf; and_intros <;> decide +kernel
theorem test_lport_enters : after .lport (onPort 0 0x80) (fun t => ((t.channel 2).fifo, t.agenda.length)) = some ([0x80], 1) := by
  decide
theorem test_granted_kseg : after .panGrant
    { heading { aLaunch with st := .selected, pblock := List.replicate 256 7, r.kseg := Vector.replicate 4 5 } with
      selected := some 3 } (fun t => ((t.core 7).run, (t.core 7).kseg[0])) = some (.setup, 5) := by decide +kernel

/-- Launch 0 with its one group of one core, changed by `f`, and a save pool of sixteen slots. -/
def alone (f : Group → Group) (k : Core → Core := id) : State :=
  let s := grouped f (base.modHere k)
  { evd { launch := 0, group := 0, core := 0 } s with
    hostRegs := { s.hostRegs with spbase := 0x100000, spcnt := 16 },
    launches := s.launches.map fun l => { l with r := { panw := 0, grpw := 0 } } }
def swapping (x : Context) : Context := { x with block := some ⟨.mwait true 0x100 5, 0, 8⟩ }
theorem witness_SavesAndEnds_preempt :
    let s := alone id
    let d := alone fun g => { g with exch := true, deferred := true }
    (s.launch? 0).map Launch.st = some .started ∧ (s.launch? 0).map Launch.brine = some 0 ∧
    (s.launch? 0).map (fun l => (s.liveGroups l).filter fun g => decide (g.2.st = .resident) && !g.2.deferred) =
      some [(0, s.group 0)] ∧
    s.groupsAtBoundary [(0, s.group 0)] = true ∧ d.groupsAtBoundary [(0, d.group 0)] = true ∧
    (s.reserve [(0, s.group 0)]).isSome = true ∧ (s.group 0).exch = false ∧ (d.group 0).deferred = true := by
  and_intros <;> decide +kernel
theorem witness_SavesAndEnds_swap :
    let s0 := alone id fun k => k.modCtx 0 swapping
    let n : Launch := { aLaunch with st := .selected, r := { panw := 256, prio := 0 } }
    let s := { s0 with launches := s0.launches ++ [n], selected := some 3 }
    (s.launch? 0).map s.swapVictims = some [(0, s.group 0)] ∧ (s.launch? 0).map s.replays = some false ∧
    s.selected.bind s.launch? = some n ∧ s.groupsAtBoundary [(0, s.group 0)] = true ∧ 0 ≤ s.effOf n ∧ s.fitFor n = none ∧ (s.reserve [(0, s.group 0)]).isSome = true := by
  and_intros <;> decide +kernel
theorem witness_SavesAndEnds_save :
    let s := { alone (fun g => { g with st := .preempted }) (fun k => { k with run := .halted }) with saves := [(0, 15)] }
    s.wf ∧ s.saves.find? (fun x => decide (x.1 = (s.core 0).group)) = some (0, 15) ∧ (s.core 0).run = .halted ∧
    (s.group 0).st = .preempted ∧ (s.group 0).flits = [] ∧ (∀ i, (s.core 0).settled i = true) ∧ (s.core 0).matOp = none ∧ s.flushFull 0 = none ∧
    (∀ p ∈ [Port.q0, .q1, .q2, .q3], (s.core 0).queue p = []) ∧ (s.bed 0).sorter = [] ∧
    s.poolBase + 262144 * (15 + ((s.group 0).cores.idxOf? 0).getD 0) + 262144 ≤ 36028797018963968 := by
  unfold State.wf; and_intros <;> decide +kernel
/-- The group saved, its one core in the pool. -/
def savedAlone : State :=
  let s := { alone (fun g => { g with st := .preempted }) with saves := [(0, 15)] }
  { s with saved := [(savedKey 0 0, s.core 0)], cores := [] }
theorem witness_SavesAndEnds_restore :
    let s := savedAlone
    (s.launch? 0).map s.restorable = some [(0, s.group 0)] ∧ s.selected = none ∧
    (s.slotOf 0 0).isSome = true := by and_intros <;> decide +kernel
theorem installs (img : Nat → List Byte) (old : Core) (l : List Nat) (k : Core)
    (h : ∀ i ∈ l, imageBad (img i) = false ∧ imageMat (img i) = false) : ∃ x, installImages img old l k = .ok x := by
  induction l generalizing k with
  | nil => exact ⟨k, rfl⟩
  | cons i rest ih =>
    obtain ⟨hb, hm⟩ := h i (by simp)
    simp only [installImages, hb, hm, Bool.false_eq_true, false_and, if_false]
    exact ih _ fun j hj => h j (by simp [hj])
theorem restores (s : State) (l c a : Nat) (hs : s.slotOf l c = some a) (hm : s.mem = [])
    (hz : imageBad (List.replicate 0x1000 0) = false ∧ imageMat (List.replicate 0x1000 0) = false) :
    (s.restoreCore l c).2 = none := by
  unfold State.restoreCore
  rw [hs]
  dsimp only
  obtain ⟨x, h⟩ := installs (fun i => memBytes s.mem (a + 0x20000 + 0x1000 * i) 0x1000) (s.coreOf l c) (List.range 11)
    (s.reloaded (s.coreOf l c) (memBytes s.mem (a + 0x2B000) 0x1000)) fun i _ => by rw [hm, memBytes_zero]; exact hz
  rw [h]
theorem witness_SavesAndEnds_images : (savedAlone.restoreCore 0 0).2 = none :=
  restores savedAlone 0 0 (0x100000 + 262144 * 15) (by decide +kernel) rfl zero_image
theorem witness_SavesAndEnds_end :
    let s := alone id fun k => k.modCtx 0 fun x => { x with ending := true }
    let u : State := { s with launches := s.launches.map fun l => { l with st := .ending } }
    (s.core 0).ctxs[0].ending = true ∧ (∀ c : Fin 11, c ≠ 0 → (s.core 0).ctxs[c].live = false ∧ (s.core 0).ctxs[c].susp = false) ∧
    (∀ i : Fin 16, (s.core 0).tags[i].count = 0) ∧ (s.group 0).st = .resident ∧ (s.group 0).deferred = false ∧
    (s.group 0).pending = [] ∧ (s.group 0).cores = [0] ∧ (s.core 0).run.up = true ∧
    (s.launch? 0).map (fun l => (s.liveGroups l).map fun g => g.2.pending) = some [[]] ∧
    (u.cores.map Prod.fst).Nodup ∧ (∀ w ∈ u.pageWaits, w.launch ≠ 0) ∧ (u.dropParked 0).quiet 0 0 = true ∧ (u.launch? 0).map Launch.st = some .ending := by
  and_intros <;> decide +kernel
theorem witness_SavesAndEnds_completion :
    let l : Launch := { aLaunch with st := .retired, r := { compl := 0x8000 } }
    let s := mapped (heading l)
    s.wf ∧ s.launch? 3 = some l ∧ l.notice = none ∧ l.told = none ∧ (∀ x ∈ s.agenda, x.op ≠ .heatPeriodEnd) ∧
    (s.channel l.root).waiting.contains (reportBytes (l.first.getD endNormal) l.va) = false ∧
    s.poisonedRange 0x40008000 8 = false ∧ (s.need 3 ⟨.launchEnd, { launch := 3 }, 0⟩ 3 l.pasid 0x8000 true).1 = .at_ 0x40008000 := by
  unfold State.wf; and_intros <;> decide +kernel

/-! ### Translation, host, links, integrity -/

theorem witness_PagesAndTranslation_heat :
    let s := evd { addr := 0x3000, value := 0x4000005B } (mapped base)
    s.wf ∧ BitVec.ofNat 64 (s.loadNat 0x3000 8) = s.ev.value ∧ BitVec.ofNat 64 (base.loadNat 0x3000 8) ≠ s.ev.value := by
  unfold State.wf; and_intros <;> decide +kernel
/-- The sweeper is told of PASID 0 (R339, R411). -/
def swept : State := evd { pasid := 0, die := 3 } ((mapped base).storeNat 8 8 1)
theorem witness_PagesAndTranslation_sweep :
    swept.wf ∧ swept.pasidEntry 0 = some (0x1001, 1) ∧ bitOf (0x1001 : Word) 0 = true ∧
    (1 : Word).setWidth 32 ≠ (0 : BitVec 32) ∧ 0x3000 / 4096 % 16 = swept.ev.die ∧
    (swept.leavesUnder walkLevels 0x1000).filter (fun p => decide (p / 4096 % 16 = swept.ev.die)) = [0x3000] := by
  unfold State.wf; and_intros <;> decide +kernel
def aGroup (sent : Bool) : PageGroup := { id := 4, pasid := 1, prg := 2, pages := [(0x8000, true)], sent := sent }
def aWait : PageWait := { req := 7, task := ⟨.copyRequestReceipt, {}, 0⟩, launch := 0, pasid := 1, granule := 0x8000, write := true }
theorem witness_PagesAndTranslation_requests :
    let s := evd { die := colour 0x8000 } { base with pageGroups := [aGroup false], hostRegs := { base.hostRegs with alloc := 1 } }
    let u := evd { pasid := 1, id := 2, n := 1 } { base with pageGroups := [aGroup true], pageWaits := [aWait] }
    s.pageGroups.find? (fun x => !x.sent && decide ((x.pages.head?.map fun p => colour p.1) = some s.ev.die)) =
      some (aGroup false) ∧ s.hostRegs.priStopped = false ∧
    ((s.pageGroups.filter PageGroup.sent).map fun x => x.pages.length).sum + 1 ≤ min 2048 s.hostRegs.alloc ∧
    u.pageGroups.find? (fun x => x.sent && decide (x.pasid = u.ev.pasid) && decide (x.prg = u.ev.id)) = some (aGroup true) ∧
    u.pageWaits = [aWait] ∧ aWait.pasid = 1 ∧ (0x8000, true) ∈ (aGroup true).pages := by and_intros <;> decide +kernel
def ring : State :=
  { base with hostRegs := { base.hostRegs with iqbase := 0x100004, iqtail := 1 }, atsAsked := [(0, 0, 0x8000)] }
def anInval : Inval := { id := 7, pasid := 0, va := 0, log := 56, word := 0x5008, value := 9, bad := false }
theorem witness_PagesAndTranslation_rings :
    let s := evd { value := 16 } ring
    let m := { mapped base with invals := [anInval] }
    let r := m.need 7 ⟨.invalidationComplete, {}, 0⟩ 0 0 (0x5008 / 8 * 8) true
    s.power = .service ∧ (s.ev.value.setWidth 32 - s.hostRegs.iqhead).toNat ≤ 16 ∧ s.iqRing = some (0x100000, 16) ∧
    s.invals = [] ∧ s.hostRegs.iqhead ≠ s.hostRegs.iqtail ∧ m.invals = [anInval] ∧ m.wf ∧ r.1 = .at_ 0x40005008 ∧
    r.2.mem = m.mem ∧ (0, 0, granuleOf 0x8FFF) ∈ ring.atsAsked := by unfold State.wf; and_intros <;> decide +kernel
def parked (cause : Word) : State := evd { core := 0, ctx := 0 } (base fun x => { x with parked := true, k.cause := cause })
theorem witness_PagesAndTranslation_parked :
    let x := (parked 0x4507).ctx 0 0
    x.parked = true ∧ (∀ i : Fin 16, ((parked 0x4507).core 0).tags[i].parked = []) ∧
    (∀ i : Fin 16, ((parked 0x4507).core 0).tags[i].landing = []) ∧ x.susp = false ∧ ((parked 0x4507).core 0).run = .running ∧ x.k.cause.toNat % 256 ≠ 0 ∧
    x.k.cause.toNat % 256 ≠ 0x11 ∧ x.k.cause.toNat % 256 ≠ 0x14 ∧ x.k.cause.getLsbD 15 = false ∧
    x.k.cause.getLsbD 14 = true ∧ x.k.cause.toNat / 256 % 16 ≠ 0 ∧ ((parked 7).ctx 0 0).k.cause.getLsbD 14 = false := by
  and_intros <;> decide

theorem witness_PagesAndTranslation_waits :
    (let s := ((parked 7).modCx fun x => { x with waitVA := [0x5000] }).modHere fun k =>
       { k with tags := k.tags.set 3 { count := 1, landing := [({ lo := 0, hi := 32 }, 0x5000)] } }
     (({ lo := 0, hi := 32 } : Range), 0x5000) ∈ (s.core 0).tags[3].parked ++ (s.core 0).tags[3].landing ∧
       0x5000 ∈ (s.ctx 0 0).waitVA) ∧
    ((parked 7).modCx fun x => { x with susp := true }).cx.susp = true ∧
    (((parked 7).modHere fun k => { k with run := .halted }).core 0).run = .halted ∧
    ({ base with power := .booting } : State).power = .booting ∧ base.power ≠ .booting := by and_intros <;> decide
theorem witness_HostSide :
    base.power = .service ∧ base.power ≠ .off ∧ base.saves = [] ∧ (base.rays.any base.atAgent) = false ∧ base.wf ∧
    (∀ x : Fin 11, (base.core 0).midIssue x = false) ∧
    0xFFFFFFFFFF + [(7 : Byte)].length ≤ 1099511627776 ∧ (base.core 0).run.up = true ∧
    (let s := { base.modHere (fun k => { k with dbgHalt := true }) with mgmt := { base.mgmt with attach := true } }
     s.mgmt.attach = true ∧ (s.core s.mgmt.dbgcore.toNat).dbgHalt = true ∧
      s.poolBase + 262144 * (s.hostRegs.spcnt.toNat + s.mgmt.dbgslot.toNat) + 262144 ≤ 36028797018963968) ∧
    ({ version := true, caps := true, algs := true } : Spdm).algs = true ∧ base.spdm.algs = false ∧
    ({ base with attestKey := some [1] } : State).attestKey = some [1] ∧ ({ base with attestKey := none } : State).attestKey = none := by
  unfold State.wf; and_intros <;> decide
theorem witness_HostSide_images (i : Nat) : let bs := memBytes [] (0x20000 + 0x1000 * i) 0x1000
    imageBad bs = false ∧ imageMat bs = false := by
  simpa only [memBytes_zero] using zero_image

def aPacket (kind : Byte) (epoch : Nat) : LenboPacket := ⟨kind, 5, 0, epoch, 9, 0, 0, 0, [], true⟩
def aReq : LenboReq := { target := 5, seq := 9, packet := aPacket 1 0, plane := 0, core := 0, win := none, copy := none }
def linked (q : LenboPort) (e : EvArg) : State :=
  evd { e with port := 2 } { base with lenbo := { base.lenbo with
    ports := base.lenbo.ports.set 2 q, reqs := [aReq], done := [⟨5, 9, some (aPacket 6 0)⟩] } }
theorem witness_LenboLinks :
    let f : LenboFlit := sealedFlit { data := 0, seq := 0xFFF, shared := false, vc := 1 }
    let q : LenboPort := { up := true, expect := 0xFFF, replay := [{ f with seq := 1 }, f] }
    let s := linked q { flit := f, n := 8, packet := aPacket 1 0, id := 5 }
    (s.lenbo.port 2).up = true ∧ s.ev.flag = false ∧ s.ev.flit.seq = q.expect ∧ s.ev.flit.vc ≠ 0 ∧ assoc [] 1 q.rx = [] ∧
    flitsOf s.ev.flit.data = 0 ∧ (1 : BitVec 12) ≠ BitVec.ofNat 12 0xFFF ∧ s.ev.n ∈ [1, 2, 4, 8] ∧ q.rx = [] ∧ q.queue = [] ∧
    s.mgmt.fatal = false ∧ ({ s with mgmt := { s.mgmt with fatal := true } } : State).mgmt.fatal = true ∧ s.ev.packet.e2eOk = true ∧ s.ev.packet.dst = s.mgmt.pkgnum.toNat ∧
    s.ev.packet.epoch = s.lenbo.epoch.toNat ∧ (aPacket 1 1).epoch ≠ s.lenbo.epoch.toNat ∧
    s.lenbo.done.find? (fun d => decide (d.src = 5) && decide (d.seq = 9)) = some ⟨5, 9, some (aPacket 6 0)⟩ ∧
    s.reqTo 5 9 = some aReq ∧ aReq.win = none ∧ aReq.copy = none ∧ s.reqTo 5 8 = none := by and_intros <;> decide +kernel

/-- A flit sealed has its CRC right. -/
theorem witness_LenboLinks_sealed (f : LenboFlit) : (sealedFlit f).crc = Config.linkCrc (sealedFlit f).data (sealedFlit f).side := rfl
/-- A packet is one flit, and eight more at most: it fits the pool, the reserve, or neither. -/
theorem witness_LenboLinks_credits :
    let p := aPacket 1 0
    let n := (packetFlits p).length
    n = 1 ∧ 0 + n ≤ 512 ∧ n ≤ ({} : LenboPort).pool ∧ ({ pool := 0 } : LenboPort).pool < n ∧
    n ≤ ({ pool := 0 } : LenboPort).vcCredits[Fin.ofNat 6 3] ∧
    (let q : LenboPort := { pool := 0, vcCredits := Vector.replicate 6 0 }
     q.pool < n ∧ q.vcCredits[Fin.ofNat 6 3] < n) ∧ (∀ y ∈ ({} : LenboPort).queue, y.2 ≠ 3) := by
  refine ⟨rfl, ?_, ?_, ?_, ?_, ⟨?_, ?_⟩, ?_⟩ <;> decide +kernel

theorem witness_IntegrityAndPower :
    let s := { base with mgmt := { base.mgmt with errbase := 0x100004, corrections := [(.hbm 0, 16)] } }
    s.corrected (.hbm 0) = 16 ∧ base.corrected (.hbm 0) = 0 ∧ s.wf ∧ ringSlot s.mgmt.errbase 16 0 0 32 = some 0x100000 ∧
    ringSlot base.mgmt.errbase 16 0 0 32 = none ∧ (5 : Fin 32) ≠ 0 ∧ 0x1FFFF < 0x20000 ∧ (94 : BitVec 8) < base.mgmt.twarn ∧
    base.mgmt.twarn ≤ (95 : BitVec 8) ∧ base.mgmt.therm.getLsbD 0 = false ∧ base.mgmt.ttrip ≤ (105 : BitVec 8) ∧
    89 + 5 < base.mgmt.twarn.toNat ∧ base.mgmt.twarn.toNat ≤ 90 + 5 ∧ base.mgmt.ttrip.toNat + 10 ≤ 115 ∧
    base.power ≠ .off := by unfold State.wf; and_intros <;> decide +kernel
theorem witness_IntegrityAndPower_places :
    let s := matrix fun k => { k with rep := some aRep, matOp := some (running false 7), kerr := 2 }
    (s.core 0).kerr.getLsbD 1 = true ∧ (s.core 0).matOp = some (running false 7) ∧ (s.core 0).rep = some aRep ∧
    0 < aRep.words.length ∧ (walking id).walk? 7 = some aWalk ∧ (6 : Fin 32) ≠ 0 ∧
    Place.residue 0 0 (.v 3 0xF) ≠ .residue 0 0 .acc ∧ Place.distributor 0 ≠ .control 0 := by and_intros <;> decide
theorem witness_IntegrityAndPower_scrub :
    let t : Task := ⟨.repeatedCorrection, { place := .ulm 0 0 }, 0⟩
    let s := { base with agenda := [t] }
    t ∈ s.agenda ∧ t.op = .repeatedCorrection ∧ t.arg.place = .ulm 0 0 ∧ base.agenda = [] := by and_intros <;> decide
theorem witness_IntegrityAndPower_key :
    let s := { base with power := .booting, deviceKey := some 5, mgmt := { base.mgmt with stage := 3 } }
    s.power = .booting ∧ s.mgmt.stage = 3 ∧ s.deviceKey = some 5 := by decide
theorem witness_IntegrityAndPower_boot (k : Fin 5) :
    let s := { base with power := .booting, mgmt := { base.mgmt with stage := BitVec.ofNat 4 (k.val + 1) } }
    s.power = .booting ∧ s.mgmt.stage.toNat = k.val + 1 ∧ base.power ≠ .booting := by
  revert k; decide
theorem witness_IntegrityAndPower_replay :
    let s := evd { launch := 0, n := 4 } { base with
      mgmt := { base.mgmt with replay := true, brhead := 4 }, launches := base.launches.map fun l => { l with brine := 1 } }
    (s.launch? 0).map (fun l => (l.brine, l.st)) = some (1, .started) ∧ s.mgmt.replay = true ∧ s.ev.n = s.mgmt.brhead.toNat := by
  decide

theorem test_heat_saturates : after .heatRaise (evd { addr := 0x3000, value := 0x030000004000005B }
    (base.storeNat 0x3000 8 0x030000004000005B)) (fun t => t.loadNat 0x3000 8) = some 0x030000004000005B := by decide +kernel
theorem test_ptab_mask : after .registerWrite (evd { addr := 0x1000, value := 0xFFFFFFFFFFFFFFFF } base)
    (fun t => t.hostRegs.ptab) = some 0x000FFFFFFFFFF014 := by decide
theorem test_warning_holds_grants : after .thermalWarning (evd { n := 95 } base) (fun t => (t.mgmt.noGrant, t.msix)) =
    some (true, [64]) := by decide
theorem test_page_colour : colour 0x0000123456789000 = 1 := by decide

/-! ### Steps and memory -/

/-- The state with a word stored where the next step fetches, after the step, seen through `g`. -/
def stepped {α : Type} (w : Nat) (g : State → α) : Option α :=
  match step (State.reset.withFetchWord 32 w) with
  | .next t => some (g t)
  | _ => none
theorem test_step_li : stepped 0xC3383FFD (fun t => ((t.ctx 0 0).g 7, (t.ctx 0 0).pc)) = some (0xFFFFFFFFFFFFFFFD, 4) := by
  decide +kernel
theorem test_step_pair : stepped 0x0929B002 (fun t => (t.ctx 0 0).pc) = some 8 := by decide +kernel
theorem test_illegal_bundle : after .illegalBundle (evd { cause := Cause.illop, addr := 8 } base)
    (fun t => (t.cx.k.cause, t.cx.k.epc)) = some (Cause.illop.setWidth 64, 8) := by decide
theorem witness_StepRunsDecoded :
    let s := State.reset.withFetchWord 32 0xC3383FFD
    let t := State.reset.withFetchWord 32 0x0929B002
    segCheck (s.core 0).kseg true 0 4 { x := true } = none ∧ s.poisoned (ulmKey 0 0) = false ∧ isLone (s.codeWord 0 0) = true ∧
    decodeNat (s.codeWord 0 0) = some (.li 7 0x7FD) ∧ t.poisonedWord 0 0 8 = none ∧ isLone (t.codeWord 0 0) = false ∧
    isAClass (t.codeWord 0 0) = false ∧ isAClass (t.codeWord 0 4) = true ∧ decodeNat (t.codeWord 0 0) = some (.ld64 5 6 2) ∧
    decodeNat (t.codeWord 0 4) = some .nopA ∧ loneOnly (.ld64 5 6 2) = false ∧ (writes (.ld64 5 6 2)).meets (writes .nopA) = false := by
  and_intros <;> decide +kernel
theorem witness_StepRunsDecoded_step :
    let s := State.reset.withFetchWord 32 0xC3383FFD
    s.agenda = [] ∧ s.timed = [] ∧ s.power = .service ∧ (s.nextCore.map Prod.fst) = some 0 ∧
    ((s.nextCore.bind fun k => k.2.nextCtx).map Prod.snd) = some 0 ∧ (s.core 0).xlongDue = false ∧
    (s.core 0).atSupervisor 0 = false ∧ (s.core 0).replaying 0 = false ∧ (s.ctx 0 0).aword = false ∧
    s.fetch 0 true 0 (s.ctx 0 0).fbuf = .ok (.lone (.li 7 0x7FD) true) ∧
    (s.ctx 0 0).readsRefused ((s.core 0).rowsRead (s.ctx 0 0)) (.lone (.li 7 0x7FD) true) = false ∧
    (s.ctx 0 0).held ((s.core 0).rowsRead (s.ctx 0 0)) (.lone (.li 7 0x7FD) true) = false ∧
    ((s.core 0).run = .halting → (Bundle.lone (.li 7 0x7FD) true).deferHeld = false) := by and_intros <;> decide +kernel
theorem witness_MemoryLaws : State.reset.wf ∧ 8 + 8 ≤ 16 ∧ (State.reset.storeNat 8 8 0x0102).wf := by unfold State.wf; decide
theorem witness_DecodeUndoesEncode : wellFormed (.qpop 8 0 .q3) = true ∧
    encode true (.qpop 8 0 .q3) = some 0x90400003 := by decide
theorem witness_StepKeepsMemory : State.reset.wf ∧ (stepped 0xC3383FFD fun _ => ()) = some () := by
  unfold State.wf; decide +kernel
theorem test_last_write_of_zero_unlists : ((State.reset.storeNat 8 1 5).storeNat 8 1 0).mem = [] := by decide

end Sys2Proof.Tests
end

section
/-! PROOFS. Memory laws and reset values (O58, O55): a byte read after bytes are stored or copied, and the core of a core reset. -/
namespace Sys2Proof.Machine

theorem memBytes_memPut_at (m : List Host.Cell) (a b n : Nat) (bs : List Byte) (h : Memory.wf m = true)
    (ha : a ≤ b) (hb : b + n ≤ a + bs.length) : memBytes (memPut m a bs) b n = (bs.drop (b - a)).take n := by
  induction n generalizing b with
  | zero => simp [memBytes]
  | succ n ih =>
    have hlt : b - a < bs.length := by omega
    have hin : a ≤ b ∧ b < a + bs.length := by omega
    have hs : b + 1 - a = b - a + 1 := by omega
    rw [memBytes, ih (b + 1) (by omega) (by omega), memGet_memPut m a b bs h, if_pos hin, hs,
      List.drop_eq_getElem_cons hlt, List.take_succ_cons]
    simp [hlt]

theorem natBytes_drop (x n k : Nat) : (natBytes x n).drop k = natBytes (x / 256 ^ k) (n - k) := by
  induction k generalizing x n with
  | zero => simp
  | succ k ih =>
    cases n with
    | zero => simp [natBytes]
    | succ n => rw [natBytes, List.drop_succ_cons, ih, Nat.div_div_eq_div_mul, Nat.pow_succ', Nat.add_sub_add_right]

theorem natBytes_take (x n k : Nat) (h : k ≤ n) : (natBytes x n).take k = natBytes x k := by
  induction k generalizing x n with
  | zero => simp [natBytes]
  | succ k ih =>
    obtain ⟨n, rfl⟩ : ∃ m, n = m + 1 := ⟨n - 1, by omega⟩
    rw [natBytes, List.take_succ_cons, ih _ _ (by omega), natBytes]

theorem natBytes_getElem? (x n k : Nat) (h : k < n) : (natBytes x n)[k]? = some (byteOf x k) := by
  have hd : (natBytes x n).drop k = natBytes (x / 256 ^ k) (n - k) := natBytes_drop x n k
  obtain ⟨j, hj⟩ : ∃ j, n - k = j + 1 := ⟨n - k - 1, by omega⟩
  rw [hj, natBytes] at hd
  have h0 : ((natBytes x n).drop k)[0]? = some (byteOf x k) := by rw [hd]; rfl
  simpa using h0

/-- Bytes stored in two places that do not meet may be stored in either order. -/
theorem memPut_comm (m : List Host.Cell) (a b : Nat) (xs ys : List Byte) (h : Memory.wf m = true)
    (hd : b + ys.length ≤ a ∨ a + xs.length ≤ b) :
    memPut (memPut m a xs) b ys = memPut (memPut m b ys) a xs := by
  have hx := memPut_wf m a xs h
  have hy := memPut_wf m b ys h
  refine mem_ext _ _ (memPut_wf _ b ys hx) (memPut_wf _ a xs hy) fun k => ?_
  rw [memGet_memPut _ b k ys hx, memGet_memPut m a k xs h, memGet_memPut _ a k xs hy, memGet_memPut m b k ys h]
  by_cases h1 : b ≤ k ∧ k < b + ys.length
  · have h2 : ¬ (a ≤ k ∧ k < a + xs.length) := by omega
    rw [if_pos h1, if_neg h2, if_pos h1]
  · rw [if_neg h1, if_neg h1]

/-! ### Bytes kept, and bytes copied -/

/-- A byte read after the cells of some addresses alone are kept. -/
theorem memGet_filter {lo : Nat} (m : List Host.Cell) (p : Host.Cell → Bool) (q : Nat → Bool) (hq : ∀ c, p c = q c.1) (a : Nat)
    (h : memAbove lo m = true) : memGet (m.filter p) a = if q a then memGet m a else 0 := by
  induction m generalizing lo with
  | nil => simp [memGet]
  | cons c r ih =>
    obtain ⟨b, x⟩ := c
    simp only [memAbove, Bool.and_eq_true, decide_eq_true_eq] at h
    have hr := ih h.2
    by_cases hb : p (b, x) = true
    · rw [List.filter_cons_of_pos hb]
      rw [hq] at hb
      by_cases e : a = b
      · simp [memGet, e, hb]
      · by_cases l : a < b <;> simp [memGet, hr, e, l]
    · rw [List.filter_cons_of_neg hb, hr]
      rw [hq] at hb
      by_cases e : a = b
      · simp [e, hb]
      · by_cases l : a < b
        · simp [memGet, e, l, memGet_below h.2 (show a < b + 1 by omega)]
        · simp [memGet, e, l]

/-- A byte read after the cells of a list, all at or above `src`, are stored as far from `dst` as they lie from `src`: that of
the list where it holds one, and else the old byte. -/
theorem memGet_foldl_memSet {lo : Nat} (l m : List Host.Cell) (src dst k : Nat) (hl : memAbove lo l = true)
    (hs : ∀ c ∈ l, src ≤ c.1) (hm : Memory.wf m = true) :
    memGet (l.foldl (fun m c => memSet m (c.1 - src + dst) c.2) m) k =
      if dst ≤ k ∧ memGet l (k - dst + src) ≠ 0 then memGet l (k - dst + src) else memGet m k := by
  induction l generalizing lo m with
  | nil => simp [memGet]
  | cons c r ih =>
    obtain ⟨b, x⟩ := c
    simp only [memAbove, Bool.and_eq_true, decide_eq_true_eq] at hl
    obtain ⟨⟨-, hx⟩, hr⟩ := hl
    have hb : src ≤ b := hs (b, x) List.mem_cons_self
    rw [List.foldl_cons, ih _ hr (fun c hc => hs c (List.mem_cons_of_mem _ hc)) (memSet_wf m _ x hm), memGet_memSet m _ k x hm]
    by_cases hk : dst ≤ k ∧ k - dst + src ≤ b
    · have h0 : memGet r (k - dst + src) = 0 := memGet_below hr (by omega)
      by_cases e : k = b - src + dst
      · have e' : k - dst + src = b := by omega
        rw [if_neg (by simp [h0]), if_pos e, if_pos (by simpa [memGet, e', hk.1] using hx)]
        simp [memGet, e']
      · have e' : ¬ k - dst + src = b := by omega
        have l : k - dst + src < b := by omega
        simp [memGet, h0, e, e', l]
    · have e : ¬ k = b - src + dst := by omega
      by_cases hd : dst ≤ k
      · have e' : ¬ k - dst + src = b := by omega
        have l : ¬ k - dst + src < b := by omega
        simp [memGet, e, e', l]
      · simp [hd, e]

/-- A byte read after `n` bytes are copied: that of the source inside, the old one outside. -/
theorem memGet_memCopy (m : List Host.Cell) (src dst n k : Nat) (h : Memory.wf m = true) :
    memGet (memCopy m src dst n) k = if dst ≤ k ∧ k < dst + n then memGet m (k - dst + src) else memGet m k := by
  have hin := memGet_filter m (cellIn src n) (fun a => decide (src ≤ a) && decide (a < src + n)) (fun _ => rfl) (k - dst + src) h
  have hout := memGet_filter m (fun c => !cellIn dst n c) (fun a => !(decide (dst ≤ a) && decide (a < dst + n))) (fun _ => rfl) k h
  have hs : ∀ c ∈ m.filter (cellIn src n), src ≤ c.1 := fun c hc => by
    have := List.of_mem_filter hc
    simp only [cellIn, Bool.and_eq_true, decide_eq_true_eq] at this
    exact this.1
  rw [memCopy, memGet_foldl_memSet _ _ src dst k (memAbove_filter m _ h) hs (memDrop_wf m dst n h), hin, memDrop, hout]
  by_cases hk : dst ≤ k ∧ k < dst + n
  · have hi : src ≤ k - dst + src ∧ k - dst + src < src + n := by omega
    by_cases h0 : memGet m (k - dst + src) = 0#8 <;> simp [hk, hi, h0]
  · have hi : dst ≤ k → ¬ k - dst + src < src + n := by omega
    by_cases hd : dst ≤ k
    · have hn : ¬ k < dst + n := by omega
      simp [hd, hn, hi]
    · simp [hd]
/-! ### Memory as loads and stores see it (R7, R9) -/

/-- A byte after a store of a number: the number's byte inside, the old one outside. -/
theorem State.byteAt_storeNat {s : State} (h : s.wf) (a n x b : Nat) :
    (s.storeNat a n x).byteAt b = if a ≤ b ∧ b < a + n then byteOf x (b - a) else s.byteAt b := by
  rw [State.byteAt, State.storeNat, memGet_memPut s.mem a b _ h, natBytes_length]
  split
  · next hb => rw [natBytes_getElem? x n _ (by omega)]; rfl
  · rfl

/-- A number loaded from within the bytes of a store. -/
theorem State.loadNat_storeNat {s : State} (h : s.wf) (a n x b m : Nat) (ha : a ≤ b) (hb : b + m ≤ a + n) :
    (s.storeNat a n x).loadNat b m = x / 256 ^ (b - a) % 256 ^ m := by
  have hlen : (natBytes x n).length = n := natBytes_length x n
  rw [State.loadNat, State.storeNat, memBytes_memPut_at _ _ _ _ _ h ha (by omega), natBytes_drop,
    natBytes_take _ _ _ (by omega), leNat_natBytes]

/-- A byte after a copy: that of the source inside, the old one outside. -/
theorem State.byteAt_copyBytes {s : State} (h : s.wf) (a b n k : Nat) :
    (s.copyBytes a b n).byteAt k = if b ≤ k ∧ k < b + n then s.byteAt (k - b + a) else s.byteAt k :=
  memGet_memCopy s.mem a b n k h

/-- Settles O58: every claim is what a byte reads as after `memPut` or `memCopy`; two memories in canonical form that read alike
are the same list. -/
theorem memoryLaws : Obligations.MemoryLaws := by
  unfold Obligations.MemoryLaws
  refine ⟨fun s a n x hs => ?_, fun s a b n hs _ => ?_, fun s t => mem_ext s.mem t.mem⟩
  · refine ⟨memPut_wf _ _ _ hs, ?_, fun k hk => ?_, fun b hb => ?_, s.loadNat_storeNat hs a n x, fun b m y hb => ?_⟩
    · simpa using s.loadNat_storeNat hs a n x a n (Nat.le_refl _) (Nat.le_refl _)
    · rw [s.byteAt_storeNat hs, if_pos (by omega), Nat.add_sub_cancel_left]
    · rw [s.byteAt_storeNat hs, if_neg (by omega)]
    · exact memPut_comm s.mem a b _ _ hs (by simpa only [natBytes_length] using hb)
  · refine ⟨memCopy_wf s.mem a b n hs, fun k hk => ?_, fun k hk => ?_⟩
    · rw [s.byteAt_copyBytes hs, if_pos (by omega), Nat.add_sub_cancel_left, Nat.add_comm]
    · rw [s.byteAt_copyBytes hs, if_neg (by omega)]

/-! ### What reset leaves -/

/-- Every core at reset is the core of a core reset: no core is listed. -/
theorem State.reset_core (n : Nat) : State.reset.core n = Core.reset := rfl

/-- A context at reset: only the mode tells c0 from the others (R13, R21). -/
theorem Core.reset_ctxs (c : Fin 11) : Core.reset.ctxs[c] = { Context.reset with mode := decide (c = 0) } := by
  revert c; decide

/-- The registers of a context at reset are zero and unmarked, and p0 reads 0xF (R13). -/
theorem Context.reset_regs :
    (∀ r, Context.reset.g r = 0 ∧ Context.reset.v r = 0 ∧ Context.reset.gBad r = false ∧ Context.reset.vBad r = 0) ∧
      ∀ r, Context.reset.p r = if r = 0 then 0xF else 0 := by
  decide

/-- Settles O55: no core is listed at reset, so every core reads as `Core.reset`, and no byte is listed. -/
theorem resetValues : Obligations.ResetValues := by
  unfold Obligations.ResetValues
  refine ⟨rfl, fun a => ⟨rfl, rfl⟩, fun n => ?_, rfl, rfl⟩
  rw [State.reset_core]
  refine ⟨fun c => ?_, rfl, rfl, rfl, rfl, by decide, rfl, rfl, rfl, rfl, rfl, rfl, rfl, rfl, by decide⟩
  have hx : State.reset.ctx n c = { Context.reset with mode := decide (c = 0) } := Core.reset_ctxs c
  rw [hx]
  exact ⟨Context.reset_regs.1, Context.reset_regs.2, rfl, rfl, rfl, rfl, rfl, rfl, rfl, rfl, rfl, rfl⟩

end Sys2Proof.Machine
end

section
/-! PROOFS. Every operation of the model keeps memory in its canonical form (R9). First the rules by which a choice, a fold and
an answer keep it; then, in the order of the model's files, one lemma for each operation: `f_mem` where `f` leaves memory alone,
and `f_wf` where it stores to it through the operations of Machine/Mem.lean. -/

namespace Sys2Proof.Machine

/-- Every next state that a result answers has its memory in canonical form. -/
def Result.wf (r : Result) : Prop := ∀ t, r = .next t → Memory.wf t.mem

@[simp] theorem Result.wf_next (t : State) : Result.wf (.next t) ↔ Memory.wf t.mem :=
  ⟨fun h => h t rfl, fun h _ e => Host.Outcome.next.inj e ▸ h⟩

@[simp] theorem Result.wf_fault (e : Fault) : Result.wf (.fault e) := fun _ h => nomatch h

@[simp] theorem Result.wf_refused (e : Refusal) : Result.wf (.refused e) := fun _ h => nomatch h

@[simp] theorem Result.wf_ite {c : Prop} {_ : Decidable c} {r q : Result} :
    Result.wf (if c then r else q) ↔ (c → Result.wf r) ∧ (¬ c → Result.wf q) := by
  split <;> simp [*]

@[simp] theorem State.mem_ite {c : Prop} {_ : Decidable c} (s t : State) :
    (if c then s else t).mem = if c then s.mem else t.mem := by
  split <;> rfl

@[simp] theorem Memory.wf_ite {c : Prop} {_ : Decidable c} {m n : List Host.Cell} :
    Memory.wf (if c then m else n) ↔ (c → Memory.wf m) ∧ (¬ c → Memory.wf n) := by
  split <;> simp [*]

@[simp] theorem State.mem_getD (o : Option State) (s : State) (h : ∀ t, o = some t → t.mem = s.mem) :
    (o.getD s).mem = s.mem := by
  cases o with
  | none => rfl
  | some t => exact h t rfl

/-- Steps that each leave memory alone, one after the other. -/
@[simp] theorem State.mem_foldl {α : Type} {f : State → α → State} (hf : ∀ t x, (f t x).mem = t.mem) (l : List α) (s : State) :
    (l.foldl f s).mem = s.mem := by
  induction l generalizing s with
  | nil => rfl
  | cons x l ih => exact (ih (f s x)).trans (hf s x)

/-- Steps that each keep the canonical form, one after the other. -/
@[simp] theorem State.wf_foldl {α : Type} {f : State → α → State} (hf : ∀ t x, Memory.wf t.mem → Memory.wf (f t x).mem)
    (l : List α) {s : State} (h : Memory.wf s.mem) : Memory.wf (l.foldl f s).mem := by
  induction l generalizing s with
  | nil => exact h
  | cons x l ih => exact ih (hf s x h)

/-- Steps that each keep the canonical form and collect something beside. -/
@[simp] theorem State.wf_foldl_fst {α β : Type} {f : State × β → α → State × β}
    (hf : ∀ r x, Memory.wf r.1.mem → Memory.wf (f r x).1.mem) (l : List α) {r : State × β} (h : Memory.wf r.1.mem) :
    Memory.wf (l.foldl f r).1.mem := by
  induction l generalizing r with
  | nil => exact h
  | cons x l ih => exact ih (hf r x h)

/-- The state beside an answer, by what is known of the pair. -/
theorem State.mem_of_snd {α : Type} {p : α × State} {a : α} {t : State} {m : List Host.Cell} (e : p = (a, t))
    (h : p.2.mem = m) : t.mem = m := by
  subst e
  exact h

theorem State.wf_of_snd {α : Type} {p : α × State} {a : α} {t : State} (e : p = (a, t)) (h : Memory.wf p.2.mem) :
    Memory.wf t.mem := by
  subst e
  exact h

end Sys2Proof.Machine
end

section
/-! The operations of Machine/Mem.lean keep memory in its canonical form (R9). -/

namespace Sys2Proof.Machine

@[simp] theorem State.storeNat_wf {s : State} (a n x : Nat) (h : Memory.wf s.mem) : Memory.wf (s.storeNat a n x).mem :=
  memPut_wf _ _ _ h

@[simp] theorem State.storeBytes_wf {s : State} (a : Nat) (bs : List Byte) (h : Memory.wf s.mem) :
    Memory.wf (s.storeBytes a bs).mem := memPut_wf _ _ _ h

@[simp] theorem State.storeClean_wf {s : State} (a : Nat) (bs : List Byte) (h : Memory.wf s.mem) :
    Memory.wf (s.storeClean a bs).mem := memPut_wf _ _ _ h

@[simp] theorem State.wipe_wf {s : State} (a n : Nat) (h : Memory.wf s.mem) : Memory.wf (s.wipe a n).mem :=
  memDrop_wf _ _ _ h

@[simp] theorem State.copyBytes_wf {s : State} (src dst n : Nat) (h : Memory.wf s.mem) :
    Memory.wf (s.copyBytes src dst n).mem := memCopy_wf _ _ _ _ h

end Sys2Proof.Machine
end

section
/-! The operations of Machine/Ops.lean keep memory in its canonical form (R9). -/

namespace Sys2Proof.Machine

@[simp] theorem State.wrote_mem (s : State) (key n : Nat) : (s.wrote key n).mem = s.mem := by
  simp [State.wrote]

@[simp] theorem State.repost_mem (s : State) (op : Instr) (arg : EvArg) (lane : Nat) :
    (s.repost op arg lane).mem = s.mem := rfl

@[simp] theorem State.postStart_mem (s : State) (t : Nat) (op : Instr) (arg : EvArg) :
    (s.postStart t op arg).mem = s.mem := rfl

@[simp] theorem State.postNext_mem (s : State) (op : Instr) (arg : EvArg) : (s.postNext op arg).mem = s.mem := by
  simp [State.postNext]

@[simp] theorem State.newId_mem (s : State) : (s.newId).2.mem = s.mem := rfl

@[simp] theorem State.freeNat_mem (s : State) : (s.freeNat).2.mem = s.mem := rfl

@[simp] theorem State.freeBytes_mem (s : State) (n : Nat) : (s.freeBytes n).2.mem = s.mem := rfl

@[simp] theorem State.retry_mem (s : State) : (s.retry).mem = s.mem := rfl

@[simp] theorem State.errRecord_wf {s : State} (cls src index : Nat) (addr detail : Word) (h : Memory.wf s.mem) :
    Memory.wf (s.errRecord cls src index addr detail).mem := by
  simp only [State.errRecord]
  split <;> simp [h]

@[simp] theorem State.countError_mem (s : State) (cls : Nat) : (s.countError cls).mem = s.mem := rfl

@[simp] theorem State.setKerr_wf {s : State} (c bit cls : Nat) (addr detail : Word) (h : Memory.wf s.mem) :
    Memory.wf (s.setKerr c bit cls addr detail).mem := by
  simp [State.setKerr, h]

@[simp] theorem State.trapOf_wf {s : State} (n : Nat) (c : Fin 11) (p : Off) (t : TrapRec) (h : Memory.wf s.mem) :
    Memory.wf (s.trapOf n c p t).mem := by
  simp [State.trapOf, h]

@[simp] theorem State.trap_wf {s : State} (t : TrapRec) (h : Memory.wf s.mem) : Memory.wf (s.trap t).mem := by
  simp [State.trap, h]

@[simp] theorem State.fault_wf {s : State} (c : Cause) (a : Word) (h : Memory.wf s.mem) : Memory.wf (s.fault c a).mem := by
  simp [State.fault, h]

@[simp] theorem State.faultOpen_wf {s : State} (c : Cause) (h : Memory.wf s.mem) : Memory.wf (s.faultOpen c).mem := by
  simp [State.faultOpen, h]

@[simp] theorem State.faultPoison_wf {s : State} (h : Memory.wf s.mem) : Memory.wf s.faultPoison.mem := by
  simp [State.faultPoison, h]

@[simp] theorem State.stall_mem (s : State) (k : BlockKind) : (s.stall k).mem = s.mem := rfl

@[simp] theorem State.breakStep_wf {s : State} (n : Nat) (c : Fin 11) (h : Memory.wf s.mem) :
    Memory.wf (s.breakStep n c).mem := by
  simp [State.breakStep, h]

@[simp] theorem State.joinUp_mem (s : State) : s.joinUp.mem = s.mem := by
  simp [State.joinUp]

@[simp] theorem State.joinDone_wf {s : State} (n : Nat) (c : Fin 11) (next : Off) (replayed : Bool) (h : Memory.wf s.mem) :
    Memory.wf (s.joinDone n c next replayed).mem := by
  simp [State.joinDone, h]

@[simp] theorem State.joinFault_wf {s : State} (n : Nat) (c : Fin 11) (cause : Cause) (addr : Word) (replayed : Bool)
    (h : Memory.wf s.mem) :
    Memory.wf (s.joinFault n c cause addr replayed).mem := by
  simp [State.joinFault, h]

@[simp] theorem State.resumeAt_mem (s : State) (n : Nat) (c : Fin 11) (back : Redo) (m : Mask) :
    (s.resumeAt n c back m).mem = s.mem := rfl

@[simp] theorem State.trapReturn_mem (s : State) (m : Mask) : (s.trapReturn m).mem = s.mem := rfl

@[simp] theorem State.afterRelease_wf {s : State} (body : State) (h : Memory.wf s.mem) (hbody : Memory.wf body.mem) :
    Memory.wf (s.afterRelease body).mem := by
  simp [State.afterRelease, h, hbody]

@[simp] theorem State.report_mem (s : State) (n : Nat) (c : Fin 11) (r : Report) : (s.report n c r).mem = s.mem := rfl

@[simp] theorem State.deliver_wf {s : State} (r : Report) (h : Memory.wf s.mem) : Memory.wf (s.deliver r).mem := by
  simp [State.deliver, h]

end Sys2Proof.Machine
end

section
/-! The operations of Machine/Scalar.lean keep memory in its canonical form (R9). -/

namespace Sys2Proof.Machine

@[simp] theorem State.scalar_wf {s : State} (srcs : List (Fin 32)) (effect : State) (h : Memory.wf s.mem)
    (heffect : Memory.wf effect.mem) :
    Result.wf (s.scalar srcs effect) := by
  simp [State.scalar, h, heffect]

@[simp] theorem State.alu3_wf {s : State} (f : Word → Word → Word) (d a b : Fin 32) (h : Memory.wf s.mem) :
    Result.wf (s.alu3 f d a b) := by
  simp [State.alu3, h]

@[simp] theorem State.alu2_wf {s : State} (f : Word → Word) (d a : Fin 32) (h : Memory.wf s.mem) :
    Result.wf (s.alu2 f d a) := by
  simp [State.alu2, h]

@[simp] theorem State.aluI_wf {s : State} (f : Word → Word → Word) (d a : Fin 32) (i : BitVec 11) (h : Memory.wf s.mem) :
    Result.wf (s.aluI f d a i) := by
  simp [State.aluI, h]

end Sys2Proof.Machine
end

section
/-! The operations of Machine/Flags.lean keep memory in its canonical form (R9). -/

namespace Sys2Proof.Machine

@[simp] theorem State.raise_mem (s : State) (fl : Flags) : (s.raise fl).mem = s.mem := rfl

@[simp] theorem State.vector_wf {s : State} (pr : Fin 8) (vs : List (Fin 32)) (effect : State) (h : Memory.wf s.mem)
    (heffect : Memory.wf effect.mem) :
    Result.wf (s.vector pr vs effect) := by
  simp [State.vector, h, heffect]

@[simp] theorem State.lanes1_wf {s : State} (f : Word → Word) (d a : Fin 32) (pr : Fin 8) (h : Memory.wf s.mem) :
    Result.wf (s.lanes1 f d a pr) := by
  simp [State.lanes1, h]

@[simp] theorem State.lanes2_wf {s : State} (f : Word → Word → Word) (d a b : Fin 32) (pr : Fin 8) (h : Memory.wf s.mem) :
    Result.wf (s.lanes2 f d a b pr) := by
  simp [State.lanes2, h]

@[simp] theorem State.floats_mem (s : State) (w : Nat) (d : Fin 32) (m : Mask) (res : Nat → List FRes) :
    (s.floats w d m res).mem = s.mem := rfl

end Sys2Proof.Machine
end

section
/-! The operations of Machine/Place.lean keep memory in its canonical form (R9). -/

namespace Sys2Proof.Machine

@[simp] theorem State.keepPage_wf {s : State} (l c : Nat) (h : Memory.wf s.mem) : Memory.wf (s.keepPage l c).mem := by
  grind [State.keepPage, State.storeBytes_wf]

@[simp] theorem State.modCoreOf_wf {s : State} (l c : Nat) (f : Core → Core) (h : Memory.wf s.mem) :
    Memory.wf (s.modCoreOf l c f).mem := by
  simp [State.modCoreOf, h]

@[simp] theorem State.modBedFor_wf {s : State} (l b : Nat) (f : Bed → Bed) (h : Memory.wf s.mem) :
    Memory.wf (s.modBedFor l b f).mem := by
  simp only [State.modBedFor]
  repeat' split
  all_goals simp [h]

end Sys2Proof.Machine
end

section
/-! The operations of Machine/Brine.lean keep memory in its canonical form (R9). -/

namespace Sys2Proof.Machine

@[simp] theorem State.brineWrite_wf {s : State} (l core : Nat) (bytes : List Byte) (h : Memory.wf s.mem) :
    Memory.wf (s.brineWrite l core bytes).mem := by
  simp only [State.brineWrite]
  split <;> simp [h]

@[simp] theorem State.brineRecord_wf {s : State} (level l core ctx ty : Nat) (v1 v2 : Word) (h : Memory.wf s.mem) :
    Memory.wf (s.brineRecord level l core ctx ty v1 v2).mem := by
  simp [State.brineRecord, h]

@[simp] theorem State.brineTake_wf {s : State} (l core : Nat) (h : Memory.wf s.mem) :
    Memory.wf (s.brineTake l core).mem := by
  simp [State.brineTake, h]

@[simp] theorem State.brineSource_mem (s : State) (dst : Nat) (w : Sender) : (s.brineSource dst w).2.mem = s.mem := rfl

theorem State.brineFrom_wf {s : State} (ty l dst : Nat) (w : Sender) (what : Word) {t : State} (h : Memory.wf s.mem) :
    s.brineFrom ty l dst w what = some t → Memory.wf t.mem := by
  grind [State.brineFrom, Option.map_eq_some_iff, Option.bind_eq_some_iff, State.brineSource_mem, State.brineTake_wf,
    State.brineRecord_wf]

theorem State.brineOrder_wf {s : State} (ty l dst src ctx : Nat) (what : Word) {t : State} (h : Memory.wf s.mem) :
    s.brineOrder ty l dst src ctx what = some t → Memory.wf t.mem := by
  grind [State.brineOrder, Option.map_eq_some_iff, Option.bind_eq_some_iff, State.brineFrom_wf]

@[simp] theorem State.diverge_mem (s : State) (l : Nat) : (s.diverge l).mem = s.mem := rfl

theorem State.brineAnswer_wf {s : State} (l ty : Nat) (what answer : Word) {x : Word} {t : State} (h : Memory.wf s.mem) :
    s.brineAnswer l ty what answer = some (x, t) → Memory.wf t.mem := by
  grind [State.brineAnswer, Option.map_eq_some_iff, Option.bind_eq_some_iff, State.brineTake_wf, State.brineWrite_wf]

theorem State.brineUpdate_wf {s : State} (l sector src ctx : Nat) {t : State} (h : Memory.wf s.mem) :
    s.brineUpdate l sector src ctx = some t → Memory.wf t.mem := by
  grind [State.brineUpdate, Option.map_eq_some_iff, Option.bind_eq_some_iff, State.brineSource_mem, State.brineTake_wf,
    State.brineWrite_wf]

end Sys2Proof.Machine
end

section
/-! The operations of Machine/Local.lean keep memory in its canonical form (R9). -/

namespace Sys2Proof.Machine

@[simp] theorem State.park_mem (s : State) (t : TrapRec) (vas : List Nat) : (s.park t vas).mem = s.mem := rfl

@[simp] theorem State.access_wf {s : State} (c : Check) (perform : State) (h : Memory.wf s.mem)
    (hperform : Memory.wf perform.mem) :
    Memory.wf (s.access c perform).mem := by
  simp only [State.access]
  split <;> simp [h, hperform]

@[simp] theorem State.localAccess_wf {s : State} (a n : Nat) (need : Perm) (perform : State) (h : Memory.wf s.mem)
    (hperform : Memory.wf perform.mem) :
    Memory.wf (s.localAccess a n need perform).mem := by
  simp [State.localAccess, h, hperform]

@[simp] theorem State.sawOwn_mem (s : State) (n : Nat) (c : Fin 11) (a size : Nat) : (s.sawOwn n c a size).mem = s.mem := by
  simp [State.sawOwn]

@[simp] theorem State.landUlm_wf {s : State} (c a : Nat) (bs : List Byte) (mark : Bool) (h : Memory.wf s.mem) :
    Memory.wf (s.landUlm c a bs mark).mem := by
  unfold State.landUlm
  simp -implicitDefEqProofs [h]

@[simp] theorem State.lanewise_wf {s : State} (lanes : Mask) (chk : Nat → Check) (perform : Mask → State)
    (h : Memory.wf s.mem) (hperform : ∀ m, Memory.wf (perform m).mem) :
    Memory.wf (s.lanewise lanes chk perform).mem := by
  simp [State.lanewise, h, hperform]

end Sys2Proof.Machine
end

section
/-! The operations of Machine/KRegs.lean keep memory in its canonical form (R9). -/

namespace Sys2Proof.Machine

@[simp] theorem State.kwrite_mem (s : State) (k : Nat) (v : Word) : (s.kwrite k v).mem = s.mem := by
  simp [State.kwrite]

@[simp] theorem State.kAccess_wf {s : State} (k : BitVec 14) (write : Bool) (body : Nat → State) (h : Memory.wf s.mem)
    (hbody : ∀ n, Memory.wf (body n).mem) :
    Result.wf (s.kAccess k write body) := by
  simp [State.kAccess, h, hbody]

theorem State.kval_wf {s : State} (n : Nat) {x : Word} {t : State} (h : Memory.wf s.mem) :
    s.kval n = some (x, t) → Memory.wf t.mem := by
  grind [State.kval, Option.map_eq_some_iff, Option.bind_eq_some_iff, State.brineTake_wf, State.brineRecord_wf]

@[simp] theorem execKget_wf {s : State} (d : Fin 32) (k : BitVec 14) (h : Memory.wf s.mem) :
    Result.wf (execKget d k s) := by
  refine State.kAccess_wf k false _ h fun n => ?_
  split
  · simp [h]
  · split
    · next e => simpa using State.kval_wf n h e
    · simp [h]

@[simp] theorem State.keepFetched_mem (s : State) : s.keepFetched.mem = s.mem := by
  simp -implicitDefEqProofs [State.keepFetched]

@[simp] theorem State.kwriteAs_mem (s : State) (n : Nat) (v : Word) : (s.kwriteAs n v).mem = s.mem := by
  simp [State.kwriteAs]

@[simp] theorem execKswp_wf {s : State} (g : Fin 32) (k : BitVec 14) (h : Memory.wf s.mem) :
    Result.wf (execKswp g k s) := by
  refine State.kAccess_wf k true _ h fun n => ?_
  split
  · simp [h]
  · split
    · next e => simpa using State.kval_wf n h e
    · simp [h]

end Sys2Proof.Machine
end

section
/-! The operations of Machine/Link.lean keep memory in its canonical form (R9). -/

namespace Sys2Proof.Machine

@[simp] theorem State.linkSend_mem (s : State) (plane : Nat) (p : LenboPacket) : (s.linkSend plane p).mem = s.mem := by
  simp [State.linkSend]

theorem State.lenboRequest_mem {s : State} (kind : BitVec 8) (dst : Nat) (op : BitVec 16) (addr : Word) (aux : BitVec 32)
    (data : List (BitVec 256)) (core : Nat) (win : Option Nat) (copy : Option Nat) {t : State}
    (e : s.lenboRequest kind dst op addr aux data core win copy = some t) :
    t.mem = s.mem := by
  grind [State.lenboRequest, Option.map_eq_some_iff, Option.bind_eq_some_iff, State.post_mem, State.linkSend_mem]

end Sys2Proof.Machine
end

section
/-! The operations of Machine/Control.lean keep memory in its canonical form (R9). -/

namespace Sys2Proof.Machine

@[simp] theorem State.jump_mem {n : Nat} (s : State) (o : BitVec n) : (State.jump s o).mem = s.mem := rfl

@[simp] theorem State.branchG_wf {n : Nat} {s : State} (srcs : List (Fin 32)) (c : Bool) (o : BitVec n)
    (h : Memory.wf s.mem) :
    Result.wf (State.branchG s srcs c o) := by
  simp [State.branchG, h]

@[simp] theorem State.branchP_wf {s : State} (pr : Fin 8) (c : Mask → Mask → Bool) (o : BitVec 18) (h : Memory.wf s.mem) :
    Result.wf (s.branchP pr c o) := by
  simp [State.branchP, h]

@[simp] theorem State.pushReturn_wf {s : State} (a : Off) (after : State → State) (h : Memory.wf s.mem)
    (hafter : ∀ t, Memory.wf t.mem → Memory.wf (after t).mem) :
    Memory.wf (s.pushReturn a after).mem := by
  grind [State.pushReturn, State.faultPoison_wf, State.localAccess_wf, State.modCx_mem, State.wrote_mem, State.storeNat_wf]

@[simp] theorem execCall_wf {s : State} (o : BitVec 24) (h : Memory.wf s.mem) : Result.wf (execCall o s) :=
  (Result.wf_next _).2 (State.pushReturn_wf _ _ h fun _ ht => by simpa using ht)

@[simp] theorem State.indirect_wf {s : State} (a : Fin 32) (k : Off → State) (h : Memory.wf s.mem)
    (hk : ∀ o, Memory.wf (k o).mem) :
    Result.wf (s.indirect a k) := by
  simp [State.indirect, h, hk]

@[simp] theorem execCallr_wf {s : State} (a : Fin 32) (h : Memory.wf s.mem) : Result.wf (execCallr a s) :=
  State.indirect_wf _ _ h fun _ => State.pushReturn_wf _ _ h fun _ ht => by simpa using ht

@[simp] theorem execRet_wf {s : State} (h : Memory.wf s.mem) : Result.wf (execRet s) := by
  simp [execRet, h]

@[simp] theorem State.faultMstack_wf {s : State} (h : Memory.wf s.mem) : Memory.wf s.faultMstack.mem := by
  simp [State.faultMstack, h]

@[simp] theorem execJv_wf (a : Fin 32) {s : State} (h : Memory.wf s.mem) : Result.wf (execJv a s) := by
  simp only [execJv]
  repeat' split
  all_goals simp [h]

@[simp] theorem execIfm_wf (o : BitVec 15) (pr : Fin 8) {s : State} (h : Memory.wf s.mem) : Result.wf (execIfm o pr s) := by
  simp [execIfm, h]

@[simp] theorem execElm_wf (o : BitVec 15) {s : State} (h : Memory.wf s.mem) : Result.wf (execElm o s) := by
  simp [execElm, h]

@[simp] theorem execFim_wf {s : State} (h : Memory.wf s.mem) : Result.wf (execFim s) := by
  simp [execFim, h]

@[simp] theorem execLpm_wf (o : BitVec 15) {s : State} (h : Memory.wf s.mem) : Result.wf (execLpm o s) := by
  simp [execLpm, h]

@[simp] theorem State.leaveLoop_wf {s : State} (orig : State) (h : Memory.wf s.mem) (horig : Memory.wf orig.mem) :
    Memory.wf (s.leaveLoop orig).mem := by
  simp [State.leaveLoop, h, horig]

@[simp] theorem State.inLoop_wf {s : State} (pr : Fin 8) (k : State) (h : Memory.wf s.mem) (hk : Memory.wf k.mem) :
    Result.wf (s.inLoop pr k) := by
  simp [State.inLoop, h, hk]

@[simp] theorem execBrk_wf (pr : Fin 8) {s : State} (h : Memory.wf s.mem) : Result.wf (execBrk pr s) := by
  simp [execBrk, h]

@[simp] theorem execCnt_wf (pr : Fin 8) {s : State} (h : Memory.wf s.mem) : Result.wf (execCnt pr s) := by
  simp [execCnt, h]

@[simp] theorem execLpe_wf (pr : Fin 8) {s : State} (h : Memory.wf s.mem) : Result.wf (execLpe pr s) := by
  simp [execLpe, h]

end Sys2Proof.Machine
end

section
/-! The operations of Machine/Contexts.lean keep memory in its canonical form (R9). -/

namespace Sys2Proof.Machine

@[simp] theorem execCstart_wf (d a b : Fin 32) {s : State} (h : Memory.wf s.mem) : Result.wf (execCstart d a b s) := by
  simp only [execCstart]
  repeat' split
  all_goals simp [h]

@[simp] theorem State.unlessReleased_wf {s : State} (look : State) (h : Memory.wf s.mem) (hlook : Memory.wf look.mem) :
    Memory.wf (s.unlessReleased look).mem := by
  simp [State.unlessReleased, h, hlook]

@[simp] theorem execCwait_wf (a : Fin 32) {s : State} (h : Memory.wf s.mem) : Result.wf (execCwait a s) := by
  simp only [execCwait]
  split <;> simp [h]

@[simp] theorem State.leaveWave_mem (s : State) (n : Nat) (c : Fin 11) : (s.leaveWave n c).mem = s.mem := by
  simp [State.leaveWave]

@[simp] theorem State.endContext_mem (s : State) : s.endContext.mem = s.mem := by
  simp [State.endContext]

@[simp] theorem State.desyncFirst_wf {s : State} (k : State) (h : Memory.wf s.mem) (hk : Memory.wf k.mem) :
    Memory.wf (s.desyncFirst k).mem := by
  simp only [State.desyncFirst]
  split <;> simp [h, hk]

@[simp] theorem State.reportsFirst_wf {s : State} (k : State) (h : Memory.wf s.mem) (hk : Memory.wf k.mem) :
    Memory.wf (s.reportsFirst k).mem := by
  simp only [State.reportsFirst]
  split <;> simp [h, hk]

@[simp] theorem execC0CompletionReport_wf {s : State} (h : Memory.wf s.mem) : Result.wf (execC0CompletionReport s) := by
  simp [execC0CompletionReport, h]

end Sys2Proof.Machine
end

section
/-! The operations of Machine/Waves.lean keep memory in its canonical form (R9). -/

namespace Sys2Proof.Machine

@[simp] theorem State.numbered_mem (s : State) (e : HitEntry) : (s.numbered e).2.mem = s.mem := rfl

@[simp] theorem execWform_wf (d a : Fin 32) {s : State} (h : Memory.wf s.mem) : Result.wf (execWform d a s) := by
  simp only [execWform]
  repeat' split
  all_goals simp [h]

@[simp] theorem State.join_mem (s : State) (n : Nat) (x : Fin 11) (plain : Bool) (num : Nat) (es : List HitEntry)
    (members : BitVec 32) (key : Byte) : (s.join n x plain num es members key).mem = s.mem := rfl

@[simp] theorem execWaveFormation_wf {s : State} (h : Memory.wf s.mem) : Result.wf (execWaveFormation s) := by
  simp only [execWaveFormation, Result.wf_next]
  split
  · exact h
  split
  · exact h
  split
  · simp -implicitDefEqProofs [h]
  split
  · split
    · split <;> simp -implicitDefEqProofs [h]
    · simp -implicitDefEqProofs [h]
  · split
    · split
      · split <;> simp -implicitDefEqProofs [h]
      · simp -implicitDefEqProofs [h]
    · split <;> simp -implicitDefEqProofs [h]

@[simp] theorem execWsync_wf (a : Fin 32) {s : State} (h : Memory.wf s.mem) : Result.wf (execWsync a s) := by
  simp only [execWsync]
  split <;> simp [h]

@[simp] theorem execWsyncComplete_wf {s : State} (h : Memory.wf s.mem) : Result.wf (execWsyncComplete s) := by
  simp only [execWsyncComplete]
  repeat' split
  all_goals simp +contextual [h]

theorem State.sorterTakes_wf {s t : State} (l b : Nat) (w : Sender) (es : List HitEntry) (h : Memory.wf s.mem)
    (e : s.sorterTakes l b w es = some t) :
    Memory.wf t.mem := by
  induction es generalizing s with
  | nil => exact Option.some.inj e ▸ h
  | cons x es ih =>
    obtain ⟨u, hu, hr⟩ := Option.bind_eq_some_iff.mp e
    exact ih (s := (u.numbered x).2.modBed _ _) (by simpa using State.brineFrom_wf _ _ _ _ _ h hu) hr

@[simp] theorem execReord_wf (a b : Fin 32) {s : State} (h : Memory.wf s.mem) : Result.wf (execReord a b s) := by
  grind [execReord, Result.wf, State.faultMstack_wf, State.faultOpen_wf, State.faultPoison_wf, State.fault_wf,
    State.stall_mem, State.desyncFirst_wf, State.reportsFirst_wf, State.sorterTakes_wf, State.endContext_mem,
    State.post_mem]

end Sys2Proof.Machine
end

section
/-! The operations of Machine/Queues.lean keep memory in its canonical form (R9). -/

namespace Sys2Proof.Machine

@[simp] theorem State.ringFull_mem (s : State) (l c : Nat) (p : Port) : (s.ringFull l c p).mem = s.mem := rfl

@[simp] theorem State.putRing_wf {s : State} (l c : Nat) (p : Port) (i : Nat) (words : List Word) (marks : List Bool)
    (h : Memory.wf s.mem) :
    Memory.wf (s.putRing l c p i words marks).1.mem := by
  simp only [State.putRing]
  split <;> simp [h]

@[simp] theorem State.pushRing_wf {s : State} (l c : Nat) (p : Port) (e : QEntry) (h : Memory.wf s.mem) :
    Memory.wf (s.pushRing l c p e).mem := by
  simp [State.pushRing, h]

@[simp] theorem State.pushPort_wf {s : State} (l c : Nat) (p : Port) (e : QEntry) (h : Memory.wf s.mem) :
    Memory.wf (s.pushPort l c p e).mem := by
  simp [State.pushPort, h]

@[simp] theorem State.refillPort_mem (s : State) (c : Nat) (p : Port) (n : Nat) : (s.refillPort c p n).mem = s.mem := by
  induction n generalizing s with
  | zero => rfl
  | succ n ih =>
    simp only [State.refillPort]
    repeat' split
    all_goals simp [ih]

@[simp] theorem State.flushPort_wf {s : State} (c : Nat) (p : Port) (h : Memory.wf s.mem) :
    Memory.wf (s.flushPort c p).mem := by
  simp +contextual [State.flushPort, h]

@[simp] theorem State.putHit_wf {s : State} (l b i : Nat) (e : HitEntry) (h : Memory.wf s.mem) :
    Memory.wf (s.putHit l b i e).1.mem := by
  simp +contextual [State.putHit, h]

@[simp] theorem State.pushHit_wf {s : State} (l b : Nat) (e : HitEntry) (h : Memory.wf s.mem) :
    Memory.wf (s.pushHit l b e).mem := by
  simp [State.pushHit, h]

@[simp] theorem State.refillBed_mem (s : State) (b n : Nat) : (s.refillBed b n).mem = s.mem := by
  induction n generalizing s with
  | zero => rfl
  | succ n ih =>
    simp only [State.refillBed]
    repeat' split
    all_goals simp [ih]

@[simp] theorem State.flushBed_wf {s : State} (b : Nat) (h : Memory.wf s.mem) : Memory.wf (s.flushBed b).mem := by
  simp +contextual [State.flushBed, h]

@[simp] theorem State.readyPush_wf {s : State} (l c : Nat) (w : Sender) (b : Word) (h : Memory.wf s.mem) :
    Memory.wf (s.readyPush l c w b).mem := by
  grind [State.readyPush, State.brineFrom_wf, State.pushPort_wf, State.post_mem]

@[simp] theorem execOverflowReturn_wf {s : State} (h : Memory.wf s.mem) : Result.wf (execOverflowReturn s) := by
  simp only [execOverflowReturn]
  repeat' split
  all_goals simp [h]

theorem State.takeEntry_mem {s : State} (p : Port) (sel : BitVec 9) {x : QEntry} {t : State}
    (e : s.takeEntry p sel = some (x, t)) :
    t.mem = s.mem := by
  grind [State.takeEntry, Option.map_eq_some_iff, Option.bind_eq_some_iff, State.post_mem, State.modBed_mem,
    State.modHere_mem]

@[simp] theorem State.putEntry_mem (s : State) (p : Port) (d : Fin 32) (e : QEntry) : (s.putEntry p d e).mem = s.mem := by
  simp only [State.putEntry]
  split <;> simp

@[simp] theorem State.holdFor_mem (s : State) (p : Port) (e : QEntry) : (s.holdFor p e).mem = s.mem := by
  simp only [State.holdFor]
  repeat' split
  all_goals simp

@[simp] theorem State.unhold_mem (s : State) (p : Port) : (s.unhold p).mem = s.mem := by
  simp [State.unhold]

@[simp] theorem execQpop_wf {s : State} (d a : Fin 32) (q : Port) (h : Memory.wf s.mem) : Result.wf (execQpop d a q s) := by
  refine State.scalar_wf _ _ h ?_
  split
  · next e => simpa [State.takeEntry_mem _ _ e] using h
  · simp [h]

@[simp] theorem State.popLane_mem (s : State) (q : Port) (sel : BitVec 9) (d : Fin 32) (b : Fin 8) (l : Nat) :
    (s.popLane q sel d b l).mem = s.mem := by
  simp only [State.popLane]
  split
  · next e => simp -implicitDefEqProofs [State.takeEntry_mem _ _ e]
  · simp -implicitDefEqProofs

@[simp] theorem execQpopl_wf (d a : Fin 32) (pr : Fin 8) (q : Port) {s : State} (h : Memory.wf s.mem) :
    Result.wf (execQpopl d a pr q s) := by
  simp [execQpopl, h]

@[simp] theorem execQpeek_wf (d a : Fin 32) (pr : Fin 8) (q : Port) {s : State} (h : Memory.wf s.mem) :
    Result.wf (execQpeek d a pr q s) := by
  simp only [execQpeek]
  repeat' split
  all_goals simp [h]

@[simp] theorem execQwait_wf (a : Fin 32) (q : Port) {s : State} (h : Memory.wf s.mem) : Result.wf (execQwait a q s) := by
  grind [execQwait, Result.wf, State.scalar_wf, State.unlessReleased_wf, State.faultOpen_wf, State.stall_mem]

@[simp] theorem execQpush_wf (a : Fin 32) {s : State} (h : Memory.wf s.mem) : Result.wf (execQpush a s) := by
  grind [execQpush, Result.wf, State.scalar_wf, State.afterRelease_wf, State.brineOrder_wf, State.stall_mem,
    State.pushPort_wf]

@[simp] theorem State.sendMsg_wf {s : State} (kind : SendKind) (va : Word) (target : Nat) (key : Byte) (words : List Word)
    (after : State → Msg → State) (h : Memory.wf s.mem) (hafter : ∀ t m, Memory.wf t.mem → Memory.wf (after t m).mem) :
    Memory.wf (s.sendMsg kind va target key words after).mem := by
  simp [State.sendMsg, h, hafter]

@[simp] theorem execMsend_wf (a b : Fin 32) {s : State} (h : Memory.wf s.mem) : Result.wf (execMsend a b s) := by
  simp +contextual [execMsend, h]

@[simp] theorem execHsend_wf (a b : Fin 32) {s : State} (h : Memory.wf s.mem) : Result.wf (execHsend a b s) := by
  simp +contextual [execHsend, h]

@[simp] theorem State.unbuffer_mem (s : State) (m : Msg) : (s.unbuffer m).mem = s.mem := rfl

@[simp] theorem State.dropMsg_mem (s : State) (m : Msg) : (s.dropMsg m).mem = s.mem := rfl

@[simp] theorem State.refuseMsg_mem (s : State) (m : Msg) : (s.refuseMsg m).mem = s.mem := by
  simp [State.refuseMsg]

@[simp] theorem execInboxArrival_wf {s : State} (h : Memory.wf s.mem) : Result.wf (execInboxArrival s) := by
  grind [execInboxArrival, Result.wf, State.lenboRequest_mem, State.repost_mem, State.unbuffer_mem, State.refuseMsg_mem,
    State.brineOrder_wf, State.pushPort_wf, State.dropMsg_mem]

@[simp] theorem execHitSorterArrival_wf {s : State} (h : Memory.wf s.mem) : Result.wf (execHitSorterArrival s) := by
  grind [execHitSorterArrival, Result.wf, State.lenboRequest_mem, State.repost_mem, State.unbuffer_mem,
    State.refuseMsg_mem, State.brineOrder_wf, State.pushHit_wf, State.dropMsg_mem]

@[simp] theorem State.complete_mem (s : State) (l c : Nat) (bytes : List Byte) : (s.complete l c bytes).mem = s.mem := rfl

@[simp] theorem execMailboxArrival_wf {s : State} (h : Memory.wf s.mem) : Result.wf (execMailboxArrival s) := by
  grind [execMailboxArrival, Result.wf, State.brineOrder_wf, State.repost_mem, State.pushPort_wf]

end Sys2Proof.Machine
end

section
/-! The operations of Machine/Saved.lean keep memory in its canonical form (R9). -/

namespace Sys2Proof.Machine

@[simp] theorem State.modTag_wf {s : State} (l c : Nat) (t : Fin 16) (f : Tag → Tag) (h : Memory.wf s.mem) :
    Memory.wf (s.modTag l c t f).mem := by
  simp only [State.modTag]
  split <;> simp [h]

@[simp] theorem State.landKey_wf {s : State} (l c key : Nat) (bs : List Byte) (bad : Bool) (h : Memory.wf s.mem) :
    Memory.wf (s.landKey l c key bs bad).mem := by
  simp [State.landKey, h]

end Sys2Proof.Machine
end

section
/-! The operations of Machine/Translate.lean keep memory in its canonical form (R9). -/

namespace Sys2Proof.Machine

@[simp] theorem State.walk_mem (s : State) (pasid va : Nat) : (s.walk pasid va).2.mem = s.mem := by
  simp only [State.walk]
  repeat' split
  all_goals simp

@[simp] theorem State.askRaise_mem (s : State) (die : Nat) (e : TlbEntry) (write : Bool) :
    (s.askRaise die e write).mem = s.mem := rfl

@[simp] theorem State.tlbServe_mem (s : State) (die : Nat) (e : TlbEntry) (write : Bool) :
    (s.tlbServe die e write).mem = s.mem := by
  simp [State.tlbServe]

@[simp] theorem State.hostPage_mem (s : State) (die pasid ha : Nat) (write : Bool) :
    (s.hostPage die pasid ha write).2.mem = s.mem := by
  simp only [State.hostPage]
  repeat' split
  all_goals simp

@[simp] theorem State.quietWrite_mem (s : State) (pasid va : Nat) : (s.quietWrite pasid va).2.mem = s.mem := by
  simp only [State.quietWrite]
  repeat' split
  all_goals simp

@[simp] theorem State.fill_mem (s : State) (die pasid va : Nat) (write : Bool) (pte : Word) (at_ size : Nat) :
    (s.fill die pasid va write pte at_ size).2.mem = s.mem := by
  simp only [State.fill]
  repeat' split
  all_goals simp

@[simp] theorem State.translate_mem (s : State) (pasid va : Nat) (write : Bool) :
    (s.translate pasid va write).2.mem = s.mem := by
  grind [State.translate, State.walk_mem, State.fill_mem, State.freeNat_mem, State.tlbServe_mem, State.hostPage_mem]

@[simp] theorem State.refill_mem (s : State) (x : Nat × TlbEntry) (write : Bool) : (s.refill x write).mem = s.mem := by
  simp only [State.refill]
  split <;> simp

@[simp] theorem execHeatRaise_wf {s : State} (h : Memory.wf s.mem) : Result.wf (execHeatRaise s) := by
  simp [execHeatRaise, h]

@[simp] theorem execSweeperHalving_wf {s : State} (h : Memory.wf s.mem) : Result.wf (execSweeperHalving s) := by
  simp only [execSweeperHalving]
  repeat' split
  all_goals simp +contextual [h]

@[simp] theorem State.newGroup_mem (s : State) (pasid g : Nat) (write : Bool) (ahead : List (Nat × Bool)) :
    (s.newGroup pasid g write ahead).mem = s.mem := rfl

@[simp] theorem State.need_mem (s : State) (req : Nat) (task : Task) (l pasid va : Nat) (write : Bool)
    (ahead : List (Nat × Bool)) :
    (s.need req task l pasid va write ahead).2.mem = s.mem := by
  grind [State.need, State.translate_mem, State.newGroup_mem]

@[simp] theorem execPageRequestGroup_wf {s : State} (h : Memory.wf s.mem) : Result.wf (execPageRequestGroup s) := by
  simp only [execPageRequestGroup]
  split <;> simp [h]

@[simp] theorem State.retryGroups_mem (s : State) : s.retryGroups.mem = s.mem := by
  simp -implicitDefEqProofs [State.retryGroups]

@[simp] theorem State.release_mem (s : State) (ws : List PageWait) (deny : Bool) : (s.release ws deny).mem = s.mem := by
  simp [State.release]

@[simp] theorem execPageRequestResponse_wf {s : State} (h : Memory.wf s.mem) : Result.wf (execPageRequestResponse s) := by
  simp only [execPageRequestResponse]
  split <;> simp [h]

@[simp] theorem execRprobe_wf (d a : Fin 32) {s : State} (h : Memory.wf s.mem) : Result.wf (execRprobe d a s) := by
  simp [execRprobe, h]

@[simp] theorem execInvalidationStart_wf {s : State} (h : Memory.wf s.mem) : Result.wf (execInvalidationStart s) := by
  simp only [execInvalidationStart]
  split <;> simp [h]

@[simp] theorem execInvalidationComplete_wf {s : State} (h : Memory.wf s.mem) : Result.wf (execInvalidationComplete s) := by
  grind [execInvalidationComplete, Result.wf, State.post_mem, State.need_mem, State.storeNat_wf]

@[simp] theorem execAtsInvalidateRequest_wf {s : State} (h : Memory.wf s.mem) : Result.wf (execAtsInvalidateRequest s) := by
  simp [execAtsInvalidateRequest, h]

@[simp] theorem execAtsTranslationResponse_wf {s : State} (h : Memory.wf s.mem) :
    Result.wf (execAtsTranslationResponse s) := by
  simp only [execAtsTranslationResponse]
  repeat' split
  all_goals simp [h]

end Sys2Proof.Machine
end

section
/-! The operations of Machine/Copies.lean keep memory in its canonical form (R9). -/

namespace Sys2Proof.Machine

@[simp] theorem State.copySlot_wf {s : State} (t : Fin 16) (body : State) (h : Memory.wf s.mem)
    (hbody : Memory.wf body.mem) :
    Memory.wf (s.copySlot t body).mem := by
  simp [State.copySlot, h, hbody]

@[simp] theorem State.sendCopy_wf {s : State} (c : Copy) (h : Memory.wf s.mem) : Memory.wf (s.sendCopy c).mem := by
  simp [State.sendCopy, h]

@[simp] theorem State.sendRows_wf {s : State} (c : Copy) (h : Memory.wf s.mem) : Memory.wf (s.sendRows c).mem := by
  simp only [State.sendRows]
  split <;> simp [h]

@[simp] theorem execCpy_wf (d a b : Fin 32) (m n : Bool) (t : Fin 16) {s : State} (h : Memory.wf s.mem) :
    Result.wf (execCpy d a b m n t s) := by
  grind [execCpy, Result.wf, State.scalar_wf, State.copySlot_wf, State.faultOpen_wf, State.fault_wf, State.complete_mem,
    State.newId_mem, State.sendRows_wf]

@[simp] theorem execCpy2d_wf (d a b : Fin 32) (m n : Bool) (t : Fin 16) {s : State} (h : Memory.wf s.mem) :
    Result.wf (execCpy2d d a b m n t s) := by
  grind [execCpy2d, Result.wf, State.scalar_wf, State.copySlot_wf, State.faultOpen_wf, State.fault_wf, State.newId_mem,
    State.sendRows_wf]

@[simp] theorem State.laneCopy_wf {s : State} (kind : CopyKind) (a b : Fin 32) (nf mb : Bool) (pd : Option (Fin 8))
    (t : Fin 16) (h : Memory.wf s.mem) :
    Result.wf (s.laneCopy kind a b nf mb pd t) := by
  grind [State.laneCopy, Result.wf, State.faultPoison_wf, State.copySlot_wf, State.lanewise_wf, State.newId_mem,
    State.sendCopy_wf, State.modCx_mem]

@[simp] theorem execRdc_wf (d a b : Fin 32) (m : Bool) (t : Fin 16) {s : State} (h : Memory.wf s.mem) :
    Result.wf (execRdc d a b m t s) := by
  grind [execRdc, Result.wf, State.scalar_wf, State.copySlot_wf, State.faultOpen_wf, State.fault_wf, State.newId_mem,
    State.sendCopy_wf]

@[simp] theorem execIred_wf (a : Fin 32) (m : Bool) (t : Fin 16) {s : State} (h : Memory.wf s.mem) :
    Result.wf (execIred a m t s) := by
  grind [execIred, Result.wf, State.scalar_wf, State.copySlot_wf, State.access_wf, State.faultPoison_wf,
    State.faultOpen_wf, State.fault_wf, State.newId_mem, State.sendCopy_wf]

@[simp] theorem execCtw_wf (d : Fin 32) (t : Fin 16) {s : State} (h : Memory.wf s.mem) : Result.wf (execCtw d t s) := by
  simp [execCtw, h]

@[simp] theorem execCtq_wf (d : Fin 32) (t : Fin 16) {s : State} (h : Memory.wf s.mem) : Result.wf (execCtq d t s) := by
  simp [execCtq, h]

@[simp] theorem State.modCopy_mem (s : State) (id : Nat) (f : Copy → Copy) : (s.modCopy id f).mem = s.mem := rfl

@[simp] theorem State.recheckParked_mem (s : State) (c : Nat) : (s.recheckParked c).mem = s.mem := by
  simp -implicitDefEqProofs [State.recheckParked]

@[simp] theorem State.unpark_wf {s : State} (c : Copy) (at_ : Nat → Bool) (h : Memory.wf s.mem) :
    Memory.wf (s.unpark c at_).mem := by
  simp [State.unpark, h]

@[simp] theorem State.pageCame_wf {s : State} (c : Copy) (at_ : Nat → Bool) (h : Memory.wf s.mem) :
    Memory.wf (s.pageCame c at_).mem := by
  simp [State.pageCame, h]

@[simp] theorem State.endCopy_wf {s : State} (c : Copy) (failed : List Range) (h : Memory.wf s.mem) :
    Memory.wf (s.endCopy c failed).mem := by
  grind [State.endCopy, State.post_mem, State.unpark_wf, State.modTag_wf, State.modCoreOf_wf, State.complete_mem,
    State.recheckParked_mem]

@[simp] theorem State.parkCopy_wf {s : State} (c : Copy) (va : Nat) (rs : List Range) (h : Memory.wf s.mem) :
    Memory.wf (s.parkCopy c va rs).mem := by
  simp [State.parkCopy, h]

@[simp] theorem State.readPart_mem (s : State) (c : Copy) (task : Task) (va n : Nat) (ahead : List (Nat × Bool)) :
    (s.readPart c task va n ahead).2.mem = s.mem := by
  grind [State.readPart, State.translate_mem, State.need_mem]

theorem State.copyRemote_mem {s t : State} (c : Copy) (pkg : Nat) (va : Word) (n : Nat) (data : Option (List Byte × Bool))
    (e : s.copyRemote c pkg va n data = some t) :
    t.mem = s.mem := by
  obtain ⟨u, hu, rfl⟩ := Option.map_eq_some_iff.mp e
  show u.mem = s.mem
  exact State.lenboRequest_mem _ _ _ _ _ _ _ _ _ hu

@[simp] theorem State.readSource_mem (s : State) (c : Copy) (task : Task) (va : Word) (n : Nat) (ahead : List (Nat × Bool))
    :
    (s.readSource c task va n ahead).2.mem = s.mem := by
  grind [State.readSource, State.copyRemote_mem, State.postStart_mem, State.readPart_mem]

@[simp] theorem State.gather_mem (s : State) (id : Nat) (task : Task) (ahead : List (Nat × Bool)) (fuel a n : Nat) :
    (s.gather id task ahead fuel a n).2.mem = s.mem := by
  induction fuel generalizing s a n with
  | zero => rfl
  | succ fuel ih => grind [State.gather, State.readSource_mem, State.modCopy_mem]

@[simp] theorem State.gatherRun_mem (s : State) (c : Copy) (task : Task) (ps : List Row) :
    (s.gatherRun c task ps).2.2.mem = s.mem := by
  induction ps generalizing s with
  | nil => rfl
  | cons p ps ih => grind [State.gatherRun, State.gather_mem]

@[simp] theorem State.piecesDone_wf {s : State} (c : Copy) (k : Nat) (f : Copy → Copy) (h : Memory.wf s.mem) :
    Memory.wf (s.piecesDone c k f).mem := by
  simp [State.piecesDone, h]

@[simp] theorem State.writeSector_wf {s : State} (c : Copy) (task : Task) (a : Word) (k : Nat) (bs : List Byte)
    (bad zero : Bool) (lanes : List Nat) (h : Memory.wf s.mem) :
    Memory.wf (s.writeSector c task a k bs bad zero lanes).mem := by
  grind [State.writeSector, State.piecesDone_wf, State.copyRemote_mem, State.modCopy_mem, State.postStart_mem,
    State.landKey_wf, State.need_mem, State.endCopy_wf, State.parkCopy_wf]

@[simp] theorem execCopySectorWrite_wf {s : State} (h : Memory.wf s.mem) : Result.wf (execCopySectorWrite s) := by
  simp only [execCopySectorWrite]
  repeat' split
  all_goals simp [h]

@[simp] theorem execCopyComplete_wf {s : State} (h : Memory.wf s.mem) : Result.wf (execCopyComplete s) := by
  simp only [execCopyComplete]
  split <;> simp [h]

@[simp] theorem State.rdcNext_mem (s : State) (c : Copy) (c' : Copy) : (s.rdcNext c c').mem = s.mem := by
  simp [State.rdcNext]

@[simp] theorem execRdcSectorUpdate_wf {s : State} (h : Memory.wf s.mem) : Result.wf (execRdcSectorUpdate s) := by
  simp only [execRdcSectorUpdate, Result.wf_next]
  split
  · exact h
  split
  · exact h
  split
  · next hg => simpa using State.wf_of_snd hg (by simpa using h)
  · next hg => simpa using State.wf_of_snd hg (by simpa using h)
  · next hg =>
    have hs := State.wf_of_snd hg (by simpa using h)
    split <;> simp [hs]
  next hg =>
  have hs := State.wf_of_snd hg (by simpa using h)
  split
  · next hn => simpa using State.wf_of_snd hn (by simpa using hs)
  · next hn => simpa using State.wf_of_snd hn (by simpa using hs)
  · next hn => simp [State.wf_of_snd hn (by simpa using hs)]
  next hn =>
  have hs := State.wf_of_snd hn (by simpa using hs)
  split
  · exact hs
  · next hb =>
    have hs := State.brineUpdate_wf _ _ _ _ hs hb
    split <;> simp [hs]

@[simp] theorem execCopyRequestReceipt_wf {s : State} (h : Memory.wf s.mem) : Result.wf (execCopyRequestReceipt s) := by
  simp only [execCopyRequestReceipt]
  repeat' split
  all_goals simp +contextual [h]

@[simp] theorem State.failIred_wf {s : State} (c : Copy) (cause : Cause) (h : Memory.wf s.mem) :
    Memory.wf (s.failIred c cause).mem := by
  simp [State.failIred, h]

@[simp] theorem execIredFold_wf {s : State} (h : Memory.wf s.mem) : Result.wf (execIredFold s) := by
  grind [execIredFold, Result.wf, State.post_mem, State.need_mem, State.failIred_wf, State.parkCopy_wf, State.pageCame_wf,
    State.modCopy_mem]

@[simp] theorem execIredCombine_wf {s : State} (h : Memory.wf s.mem) : Result.wf (execIredCombine s) := by
  simp only [execIredCombine]
  repeat' split
  all_goals simp [h]

end Sys2Proof.Machine
end

section
/-! The operations of Machine/Exchange.lean keep memory in its canonical form (R9). -/

namespace Sys2Proof.Machine

@[simp] theorem State.launchFlit_mem (s : State) (g id doff : Nat) (data : VReg) (mark : Bool) (hops : List Hop)
    (segs : List (Nat × Vector Word 4)) :
    (s.launchFlit g id doff data mark hops segs).mem = s.mem := by
  simp -implicitDefEqProofs [State.launchFlit]

@[simp] theorem State.onlyC0_wf {s : State} (body : State) (h : Memory.wf s.mem) (hbody : Memory.wf body.mem) :
    Result.wf (s.onlyC0 body) := by
  simp [State.onlyC0, h, hbody]

@[simp] theorem State.xIssue_wf {s : State} (a b : Fin 32) (out : Bool) (send : State → State) (h : Memory.wf s.mem)
    (hsend : ∀ t, Memory.wf t.mem → Memory.wf (send t).mem) :
    Result.wf (s.xIssue a b out send) := by
  simp only [State.xIssue]
  repeat' split
  all_goals simp [h, hsend]

@[simp] theorem execXsend_wf (a b : Fin 32) (xm : XMode) {s : State} (h : Memory.wf s.mem) :
    Result.wf (execXsend a b xm s) := by
  simp +contextual [execXsend, h]

@[simp] theorem execXred_wf (a b : Fin 32) (xm : Bool) {s : State} (h : Memory.wf s.mem) :
    Result.wf (execXred a b xm s) := by
  simp +contextual [execXred, h]

@[simp] theorem State.lookBarrier_mem (s : State) (g : Nat) : (s.lookBarrier g).mem = s.mem := by
  simp [State.lookBarrier]

@[simp] theorem State.barrierIssue_wf {s : State} (kind : BarKind) (put : Word → State → State) (h : Memory.wf s.mem)
    (hput : ∀ w t, Memory.wf t.mem → Memory.wf (put w t).mem) :
    Result.wf (s.barrierIssue kind put) := by
  refine State.onlyC0_wf _ h ?_
  split
  · next e _ =>
    cases e with
    | done v => exact hput _ _ h
    | trap c a v => cases v <;> simp [h, hput]
  · split_ifs <;> simp [h, hput]

@[simp] theorem execGvote_wf {s : State} (d a : Fin 32) (h : Memory.wf s.mem) : Result.wf (execGvote d a s) := by
  simp only [execGvote]
  split
  · simp [h]
  · exact State.barrierIssue_wf _ _ h fun _ _ ht => by simpa using ht

@[simp] theorem State.endBarrier_mem (s : State) (g : Group) (e : BarEnd) : (s.endBarrier g e).mem = s.mem := by
  simp -implicitDefEqProofs [State.endBarrier]

@[simp] theorem State.endDeferral_mem (s : State) (gid : Nat) : (s.endDeferral gid).mem = s.mem := by
  simp -implicitDefEqProofs [State.endDeferral]

@[simp] theorem execXsyncComplete_wf {s : State} (h : Memory.wf s.mem) : Result.wf (execXsyncComplete s) := by
  simp +contextual [execXsyncComplete, h]

@[simp] theorem State.xlongAt_mem (s : State) (closing : Bool) (c : Nat) : (s.xlongAt closing c).mem = s.mem := by
  simp [State.xlongAt]

@[simp] theorem execXlongPhaseEnd_wf {s : State} (h : Memory.wf s.mem) : Result.wf (execXlongPhaseEnd s) := by
  simp [execXlongPhaseEnd, h]

@[simp] theorem execFlitInject_wf {s : State} (h : Memory.wf s.mem) : Result.wf (execFlitInject s) := by
  simp only [execFlitInject]
  split <;> simp [h]

@[simp] theorem execXredChainAdd_wf {s : State} (h : Memory.wf s.mem) : Result.wf (execXredChainAdd s) := by
  simp only [execXredChainAdd]
  split <;> simp [h]

@[simp] theorem execFlitLanding_wf {s : State} (h : Memory.wf s.mem) : Result.wf (execFlitLanding s) := by
  simp only [execFlitLanding]
  split <;> simp [h]

end Sys2Proof.Machine
end

section
/-! The operations of Machine/Status.lean keep memory in its canonical form (R9). -/

namespace Sys2Proof.Machine

@[simp] theorem execCquery_wf (d a : Fin 32) {s : State} (h : Memory.wf s.mem) : Result.wf (execCquery d a s) := by
  simp only [execCquery]
  split <;> simp [h]

end Sys2Proof.Machine
end

section
/-! The operations of Machine/Launches.lean keep memory in its canonical form (R9). -/

namespace Sys2Proof.Machine

@[simp] theorem State.postOnce_mem (s : State) (op : Instr) (arg : EvArg) : (s.postOnce op arg).mem = s.mem := by
  simp [State.postOnce]

@[simp] theorem State.addReport_mem (s : State) (ch : Nat) (i : EndInfo) (va : Nat) :
    (s.addReport ch i va).mem = s.mem := by
  simp [State.addReport]

@[simp] theorem State.nextReport_mem (s : State) (ch : Nat) : (s.nextReport ch).mem = s.mem := by
  simp [State.nextReport]

@[simp] theorem State.writeReport_wf {s : State} (ch : Nat) (h : Memory.wf s.mem) : Memory.wf (s.writeReport ch).mem := by
  grind [State.writeReport, State.nextReport_mem, State.modChannel_mem, State.need_mem, State.sendMsix_mem,
    State.storeBytes_wf]

@[simp] theorem execLport_wf {s : State} (h : Memory.wf s.mem) : Result.wf (execLport s) := by
  simp [execLport, h]

@[simp] theorem State.lookAgain_mem (s : State) : s.lookAgain.mem = s.mem := by
  simp [State.lookAgain]

@[simp] theorem State.forget_mem (s : State) (id : Nat) : (s.forget id).mem = s.mem := by
  simp [State.forget]

@[simp] theorem State.retireLaunch_mem (s : State) (l : Launch) (rejected : Bool) :
    (s.retireLaunch l rejected).mem = s.mem := by
  simp [State.retireLaunch]

@[simp] theorem State.countCompletion_wf {s : State} (l : Launch) (h : Memory.wf s.mem) :
    Memory.wf (s.countCompletion l).mem := by
  grind [State.countCompletion, State.forget_mem, State.addReport_mem, State.need_mem, State.storeNat_wf]

@[simp] theorem State.retireOn_wf {s : State} (l : Launch) (h : Memory.wf s.mem) : Memory.wf (s.retireOn l).mem := by
  simp only [State.retireOn]
  repeat' split
  all_goals simp [h]

@[simp] theorem State.unhead_mem (s : State) (l : Launch) : (s.unhead l).mem = s.mem := by
  simp only [State.unhead]
  split <;> simp

@[simp] theorem State.reject_mem (s : State) (l : Launch) (c : Cause) : (s.reject l c).mem = s.mem := by
  simp [State.reject]

theorem State.takeHead_mem {s t : State} {l : Launch} (src : Source) (e : s.takeHead src = some (l, t)) :
    t.mem = s.mem := by
  simp only [State.takeHead] at e
  repeat' split at e
  all_goals cases e
  all_goals rfl

@[simp] theorem State.checkStage_mem (s : State) (l : Launch) : (s.checkStage l).2.mem = s.mem := by
  grind [State.checkStage, State.need_mem]

@[simp] theorem execLaunchValidate_wf {s : State} (h : Memory.wf s.mem) : Result.wf (execLaunchValidate s) := by
  grind [execLaunchValidate, Result.wf, State.checkStage_mem, State.reject_mem, State.modLaunch_mem, State.postOnce_mem,
    State.takeHead_mem]

@[simp] theorem State.waitWords_mem (s : State) (l : Launch) (ws : List (Nat × Nat)) :
    (s.waitWords l ws).2.mem = s.mem := by
  induction ws generalizing s with
  | nil => rfl
  | cons w ws ih => grind [State.waitWords, State.need_mem]

@[simp] theorem execWaitWordCheck_wf {s : State} (h : Memory.wf s.mem) : Result.wf (execWaitWordCheck s) := by
  grind [execWaitWordCheck, Result.wf, State.waitWords_mem, State.postOnce_mem, State.modLaunch_mem, State.reject_mem]

theorem State.reserve_mem {s t : State} (gs : List (Nat × Group)) (e : s.reserve gs = some t) : t.mem = s.mem := by
  induction gs generalizing s with
  | nil => cases e; rfl
  | cons g gs ih =>
    rw [State.reserve] at e
    split at e
    · have ht := ih e
      exact ht
    · exact nomatch e

@[simp] theorem State.makeRoom_mem (s : State) (eff : Nat) : (s.makeRoom eff).mem = s.mem := by
  simp only [State.makeRoom]
  repeat' split
  all_goals simp

@[simp] theorem execLaunchSelection_wf {s : State} (h : Memory.wf s.mem) : Result.wf (execLaunchSelection s) := by
  simp only [execLaunchSelection]
  repeat' split
  all_goals simp [h]

@[simp] theorem State.setupUlm_wf {s : State} (c : Nat) (params : List Byte) (h : Memory.wf s.mem) :
    Memory.wf (s.setupUlm c params).mem := by
  grind [State.setupUlm, State.storeBytes_wf, State.wipe_wf]

@[simp] theorem State.placeGroup_wf {s : State} (l : Launch) (k : Nat) (h : Memory.wf s.mem) :
    Memory.wf (s.placeGroup l k).mem := by
  simp +contextual [State.placeGroup, h]

@[simp] theorem State.brineLaunch_wf {s : State} (l : Launch) (ty : Nat) (h : Memory.wf s.mem) :
    Memory.wf (s.brineLaunch l ty).mem := by
  simp [State.brineLaunch, h]

@[simp] theorem execPanGrant_wf {s : State} (h : Memory.wf s.mem) : Result.wf (execPanGrant s) := by
  simp only [execPanGrant]
  repeat' split
  all_goals simp +contextual [h]

@[simp] theorem execC0Start_wf {s : State} (h : Memory.wf s.mem) : Result.wf (execC0Start s) := by
  rw [execC0Start, Result.wf_next]
  split
  · exact h
  split
  · exact h
  extract_lets first t done t₁ t₂ t₃ t₄
  have ht₁ : t₁.mem = s.mem := by
    refine State.mem_foldl (fun t g => ?_) _ s
    exact State.mem_foldl (fun t c => t.modCore_mem c _) g.2.cores t
  have ht₂ : t₂.mem = s.mem := by simp [t₂, ht₁]
  have ht₃ : t₃.mem = s.mem := by simp [t₃, ht₂]
  have ht₄ : t₄.mem = s.mem := by simp [t₄, ht₃]
  simp [ht₄, h]

@[simp] theorem State.queueLaunch_mem (s : State) (off : Nat) : (s.queueLaunch off).mem = s.mem := by
  simp [State.queueLaunch]

@[simp] theorem State.recordRead_wf {s : State} (a : Fin 32) (body : Nat → State) (h : Memory.wf s.mem)
    (hbody : ∀ n, Memory.wf (body n).mem) :
    Result.wf (s.recordRead a body) := by
  grind [State.recordRead, Result.wf, State.scalar_wf, State.fault_wf, State.localAccess_wf, State.faultPoison_wf]

@[simp] theorem execLaunch_wf (a : Fin 32) {s : State} (h : Memory.wf s.mem) : Result.wf (execLaunch a s) := by
  simp [execLaunch, h]

@[simp] theorem execLaunchNb_wf (d : Fin 8) (a : Fin 32) {s : State} (h : Memory.wf s.mem) :
    Result.wf (execLaunchNb d a s) := by
  simp [execLaunchNb, h]

end Sys2Proof.Machine
end

section
/-! The operations of Machine/Engines.lean keep memory in its canonical form (R9). -/

namespace Sys2Proof.Machine

@[simp] theorem State.placesOf_mem (s : State) (a : Asker) (write : Bool) (ws : List (Nat × Nat)) :
    (s.placesOf a write ws).2.mem = s.mem := by
  induction ws generalizing s with
  | nil => rfl
  | cons w ws ih => grind [State.placesOf, State.need_mem]

@[simp] theorem State.engineRead_mem (s : State) (a : Asker) (va : Nat) (n : Nat) : (s.engineRead a va n).2.mem = s.mem := by
  grind [State.engineRead, State.placesOf_mem]

/-- A read by an engine as a closed box: a proof that keeps it in sight makes the kernel compute its granules. -/
theorem State.engineRead_closed : ∃ f, State.engineRead = f ∧ ∀ s a va n, (f s a va n).2.mem = s.mem :=
  ⟨_, rfl, State.engineRead_mem⟩

@[simp] theorem State.putPlaces_wf {s : State} (ps : List (Nat × Nat)) (bs : List Byte) (h : Memory.wf s.mem) :
    Memory.wf (s.putPlaces ps bs).mem := by
  induction ps generalizing s bs with
  | nil => exact h
  | cons p ps ih => exact ih _ (State.storeClean_wf _ _ h)

@[simp] theorem State.engineWrite_wf {s : State} (a : Asker) (va : Nat) (bs : List Byte) (h : Memory.wf s.mem) :
    Memory.wf (s.engineWrite a va bs).2.mem := by
  grind [State.engineWrite, State.placesOf_mem, State.putPlaces_wf]

theorem State.landAt_wf {s t : State} (l c off : Nat) (bs : List Byte) (marks : Nat → Bool) (h : Memory.wf s.mem)
    (e : s.landAt l c off bs marks = some t) :
    Memory.wf t.mem := by
  obtain ⟨base, -, rfl⟩ := Option.map_eq_some_iff.mp e
  exact State.wf_foldl (fun _ _ ht => State.landKey_wf _ _ _ _ _ ht) _ h

@[simp] theorem State.endLaunchWith_mem (s : State) (l : Nat) (c : Cause) (kaddr : Word) :
    (s.endLaunchWith l c kaddr).mem = s.mem := rfl

end Sys2Proof.Machine
end

section
/-! The operations of Machine/Memory.lean keep memory in its canonical form (R9). -/

namespace Sys2Proof.Machine

@[simp] theorem State.readNow_mem (s : State) (a n : Nat) : (s.readNow a n).mem = s.mem := rfl

@[simp] theorem State.loadHere_mem (s : State) (base a n : Nat) : (s.loadHere base a n).2.2.mem = s.mem := by
  simp only [State.loadHere]
  repeat' split
  all_goals simp

@[simp] theorem State.load_wf {s : State} (signed : Bool) (n : Nat) (d a : Fin 32) (o : BitVec 11) (h : Memory.wf s.mem) :
    Result.wf (s.load signed n d a o) := by
  simp [State.load, h]

@[simp] theorem State.store_wf {s : State} (n : Nat) (g a : Fin 32) (o : BitVec 11) (h : Memory.wf s.mem) :
    Result.wf (s.store n g a o) := by
  grind [State.store, Result.wf, State.scalar_wf, State.localAccess_wf, State.landUlm_wf]

@[simp] theorem State.loadLanes_wf {s : State} (lanes : Mask) (d : Fin 32) (chk : Nat → Check) (addr : Nat → Word)
    (h : Memory.wf s.mem) :
    Memory.wf (s.loadLanes lanes d chk addr).mem := by
  simp [State.loadLanes, h]

@[simp] theorem State.storeLanes_wf {s : State} (lanes : Mask) (v : Fin 32) (chk : Nat → Check) (addr : Nat → Word)
    (row : Bool) (h : Memory.wf s.mem) :
    Memory.wf (s.storeLanes lanes v chk addr row).mem := by
  refine State.lanewise_wf _ _ _ h fun m => ?_
  split
  · exact State.landUlm_wf _ _ _ _ h
  · exact State.wf_foldl (fun _ _ ht => State.landUlm_wf _ _ _ _ ht) _ h

@[simp] theorem execVstx_wf (v a b : Fin 32) {s : State} (h : Memory.wf s.mem) : Result.wf (execVstx v a b s) := by
  simp [execVstx, h]

@[simp] theorem State.windowIssue_mem (s : State) (op : WinOp) (va : Word) (data : VReg) (cmp : Word) (dst : Dest)
    (rel acq : Bool) :
    (s.windowIssue op va data cmp dst rel acq).mem = s.mem := by
  simp [State.windowIssue]

@[simp] theorem State.windowChecked_wf {s : State} (va : Word) (n : Nat) (body : State) (h : Memory.wf s.mem)
    (hbody : Memory.wf body.mem) :
    Memory.wf (s.windowChecked va n body).mem := by
  simp [State.windowChecked, h, hbody]

@[simp] theorem State.windowLoad_wf {s : State} (n : Nat) (d a b : Fin 32) (h : Memory.wf s.mem) :
    Result.wf (s.windowLoad n d a b) := by
  simp [State.windowLoad, h]

@[simp] theorem State.windowStore_wf {s : State} (n : Nat) (g a b : Fin 32) (h : Memory.wf s.mem) :
    Result.wf (s.windowStore n g a b) := by
  simp [State.windowStore, h]

@[simp] theorem execVstw_wf (v a b : Fin 32) {s : State} (h : Memory.wf s.mem) : Result.wf (execVstw v a b s) := by
  simp [execVstw, h]

@[simp] theorem State.atomAt_wf {s : State} (l c a : Nat) (fn : AtomFn) (width : AWidth) (b cmp : Word) (who : Sender)
    (h : Memory.wf s.mem) :
    Memory.wf (s.atomAt l c a fn width b cmp who).2.2.mem := by
  grind [State.atomAt, State.wrote_mem, State.storeNat_wf, State.readyPush_wf]

@[simp] theorem State.atomLocal_wf {s : State} (fn : AtomFn) (d : Fin 32) (va b cmp : Word) (width : AWidth) (r : Order)
    (h : Memory.wf s.mem) :
    Memory.wf (s.atomLocal fn d va b cmp width r).mem := by
  grind [State.atomLocal, State.localAccess_wf, State.stall_mem, State.brineOrder_wf, State.atomAt_wf, State.setG_mem]

@[simp] theorem State.atomic_wf {s : State} (fn : AtomFn) (d a b : Fin 32) (width : AWidth) (r : Order) (h : Memory.wf s.mem) :
    Result.wf (s.atomic fn d a b width r) := by
  simp [State.atomic, h]

@[simp] theorem State.winPerform_wf {s : State} (l c off : Nat) (op : WinOp) (data : VReg) (cmp : Word) (bad : Mask)
    (who : Sender) (h : Memory.wf s.mem) :
    Memory.wf (s.winPerform l c off op data cmp bad who).2.mem := by
  cases op with
  | st n => exact State.landUlm_wf _ _ _ _ h
  | vst m =>
    simp only [State.winPerform]
    split
    · exact State.landUlm_wf _ _ _ _ h
    · exact State.wf_foldl (fun _ _ ht => State.landUlm_wf _ _ _ _ ht) _ h
  | atom fn width =>
    simp only [State.winPerform]
    split
    · exact h
    · exact State.atomAt_wf _ _ _ _ _ _ _ _ h
  | _ => exact h

@[simp] theorem State.winAnswer_mem (s : State) (c id : Nat) (r : WinResp) : (s.winAnswer c id r).mem = s.mem := rfl

@[simp] theorem State.winRefuse_mem (s : State) (c id : Nat) (cause : Cause) : (s.winRefuse c id cause).mem = s.mem := rfl

@[simp] theorem State.notePast_mem (s old : State) (t off n : Nat) : (s.notePast old t off n).mem = s.mem := rfl

@[simp] theorem execWindowRequest_wf {s : State} (h : Memory.wf s.mem) : Result.wf (execWindowRequest s) := by
  simp only [execWindowRequest, Result.wf_next]
  split
  · exact h
  next entry _ =>
  split
  · exact h
  split
  · simpa using h
  split
  · split
    · simpa using h
    · next e => simpa [State.lenboRequest_mem _ _ _ _ _ _ _ _ _ e] using h
  split
  · simpa using h
  split
  · simpa using h
  split
  · simpa using h
  split
  · simpa using h
  next u e =>
  have hu : Memory.wf u.mem := by
    split at e
    · exact State.brineOrder_wf _ _ _ _ _ _ h e
    · exact Option.some.inj e ▸ h
  split_ifs <;> simp [hu]

@[simp] theorem execWindowResponse_wf {s : State} (h : Memory.wf s.mem) : Result.wf (execWindowResponse s) := by
  simp only [execWindowResponse]
  repeat' split
  all_goals simp [h]

@[simp] theorem execIfence_wf {s : State} (h : Memory.wf s.mem) : Result.wf (execIfence s) := by
  simp [execIfence, h]

@[simp] theorem State.mwaitRead_mem (s : State) (d : Fin 32) (swap : Bool) (va bound v : Word) (mark : Bool) :
    (s.mwaitRead d swap va bound v mark).mem = s.mem := by
  simp [State.mwaitRead]

@[simp] theorem State.mwaitRemote_mem (s : State) (swap : Bool) (va bound : Word) :
    (s.mwaitRemote swap va bound).mem = s.mem := by
  simp [State.mwaitRemote]

@[simp] theorem State.watch_mem (s : State) : (s.watch).mem = s.mem := rfl

@[simp] theorem execMwait_wf (d a b : Fin 32) (width : Bool) (_sc : Scope) {s : State} (h : Memory.wf s.mem) :
    Result.wf (execMwait d a b width _sc s) := by
  grind [execMwait, Result.wf, State.scalar_wf, State.reportsFirst_wf, State.mwaitRead_mem, State.windowChecked_wf,
    State.mwaitRemote_mem, State.stall_mem, State.deliver_wf, State.localAccess_wf]

@[simp] theorem execParkedResume_wf {s : State} (h : Memory.wf s.mem) : Result.wf (execParkedResume s) := by
  simp [execParkedResume, h]

end Sys2Proof.Machine
end

section
/-! The operations of Machine/Gecko.lean keep memory in its canonical form (R9). -/

namespace Sys2Proof.Machine

@[simp] theorem State.modWalk_mem (s : State) (id : Nat) (f : Walk → Walk) : (s.modWalk id f).mem = s.mem := rfl

@[simp] theorem execEkickGecko_wf (a : Fin 32) {s : State} (h : Memory.wf s.mem) : Result.wf (execEkickGecko a s) := by
  grind [execEkickGecko, Result.wf, State.recordRead_wf, State.stall_mem, State.afterRelease_wf, State.newId_mem,
    State.modTag_wf, State.post_mem, State.fault_wf, State.copySlot_wf]

@[simp] theorem State.endWalk_mem (s : State) (id o : Nat) (c : Cause) (a : Word) : (s.endWalk id o c a).mem = s.mem := rfl

@[simp] theorem State.walkFetch_mem (s : State) (w : Walk) (ea : Nat) : (s.walkFetch w ea).2.mem = s.mem := by
  grind [State.walkFetch, State.need_mem, State.translate_mem, State.newGroup_mem]

@[simp] theorem State.walkStepLoad_mem (s : State) (w : Walk) (d a : Fin 32) (o : BitVec 11) (n : Nat) (signed : Bool) :
    (s.walkStepLoad w d a o n signed).mem = s.mem := by
  grind [State.walkStepLoad, State.endWalk_mem, State.post_mem, State.modWalk_mem, State.walkFetch_mem]

@[simp] theorem State.walkStep_wf {s : State} (w : Walk) (h : Memory.wf s.mem) : Memory.wf (s.walkStep w).mem := by
  simp only [State.walkStep]
  repeat' split
  all_goals simp [h]

@[simp] theorem State.walkBegin_wf {s : State} (w : Walk) (h : Memory.wf s.mem) : Memory.wf (s.walkBegin w).mem := by
  grind [State.walkBegin, State.endWalk_mem, State.placesOf_mem, State.post_mem, State.modWalk_mem]

@[simp] theorem execGeckoWalkStart_wf {s : State} (h : Memory.wf s.mem) : Result.wf (execGeckoWalkStart s) := by
  simp only [execGeckoWalkStart]
  split <;> simp [h]

@[simp] theorem execGeckoMigration_wf {s : State} (h : Memory.wf s.mem) : Result.wf (execGeckoMigration s) := by
  simp only [execGeckoMigration]
  split <;> simp [h]

@[simp] theorem execGeckoStepLimit_wf {s : State} (h : Memory.wf s.mem) : Result.wf (execGeckoStepLimit s) := by
  simp only [execGeckoStepLimit]
  split <;> simp [h]

@[simp] theorem State.closeTag_wf {s : State} (l c : Nat) (t : Fin 16) (st : Cause) (h : Memory.wf s.mem) :
    Memory.wf (s.closeTag l c t st).mem := by
  simp [State.closeTag, h]

@[simp] theorem State.finishWalk_wf {s : State} (w : Walk) (o : Nat) (st : Cause) (a : Word) (h : Memory.wf s.mem) :
    Memory.wf (s.finishWalk w o st a).mem := by
  simp [State.finishWalk, h]

@[simp] theorem execGeckoWalkEnd_wf {s : State} (h : Memory.wf s.mem) : Result.wf (execGeckoWalkEnd s) := by
  simp only [execGeckoWalkEnd, Result.wf_next]
  split
  · exact h
  split
  · exact h
  split
  · exact h
  split
  · simp [h]
  split
  · split
    · split
      · simp [h]
      split
      · exact h
      split
      · next e => simpa [State.lenboRequest_mem _ _ _ _ _ _ _ _ _ e] using h
      · simpa using h
    · split
      · simp [h]
      split
      · simpa using h
      split
      · next e => exact State.finishWalk_wf _ _ _ _ (State.landAt_wf _ _ _ _ _ h e)
      · simp [h]
  · split
    · next e =>
      have ht := State.wf_of_snd e (by simpa using h)
      exact State.finishWalk_wf _ _ _ _ (State.landKey_wf _ _ _ _ _ (State.landKey_wf _ _ _ _ _ ht))
    · next e => simp [State.wf_of_snd e (by simpa using h)]
    · next e => exact State.wf_of_snd e (by simpa using h)

end Sys2Proof.Machine
end

section
/-! The operations of Machine/Geometry.lean keep memory in its canonical form (R9). -/

namespace Sys2Proof.Machine

@[simp] theorem State.onceActive_wf {s : State} (pr : Fin 8) (vs : List (Fin 32)) (effect : State) (h : Memory.wf s.mem)
    (heffect : Memory.wf effect.mem) :
    Result.wf (s.onceActive pr vs effect) := by
  simp [State.onceActive, h, heffect]

@[simp] theorem execBxt_wf (d a b : Fin 32) (pr : Fin 8) {s : State} (h : Memory.wf s.mem) :
    Result.wf (execBxt d a b pr s) := by
  simp [execBxt, h]

@[simp] theorem execTrix_wf (d a b : Fin 32) (c : Cull) (pr : Fin 8) {s : State} (h : Memory.wf s.mem) :
    Result.wf (execTrix d a b c pr s) := by
  simp [execTrix, h]

@[simp] theorem execCdec_wf (d a b : Fin 32) (pr : Fin 8) {s : State} (h : Memory.wf s.mem) :
    Result.wf (execCdec d a b pr s) := by
  simp [execCdec, h]

@[simp] theorem execRbase_wf (d a b : Fin 32) (pr : Fin 8) {s : State} (h : Memory.wf s.mem) :
    Result.wf (execRbase d a b pr s) := by
  simp [execRbase, h]

@[simp] theorem execHcmp_wf (d a b : Fin 32) (pr : Fin 8) {s : State} (h : Memory.wf s.mem) :
    Result.wf (execHcmp d a b pr s) := by
  simp [execHcmp, h]

@[simp] theorem execCov_wf (d a b : Fin 32) (c : Cull) (pr : Fin 8) {s : State} (h : Memory.wf s.mem) :
    Result.wf (execCov d a b c pr s) := by
  simp [execCov, h]

@[simp] theorem State.depthTest_wf (s : State) {t : State} (r : Fin 32) (l a : Nat) (ht : Memory.wf t.mem) :
    Memory.wf (s.depthTest t r l a).mem := by
  simp only [State.depthTest]
  repeat' split
  all_goals simp -implicitDefEqProofs [ht]

@[simp] theorem execZtst_wf {s : State} (v a : Fin 32) (o : BitVec 11) (h : Memory.wf s.mem) : Result.wf (execZtst v a o s) :=
  State.scalar_wf _ _ h <| State.lanewise_wf _ _ _ h fun _ => State.wf_foldl (fun _ _ ht => s.depthTest_wf _ _ _ ht) _ h

end Sys2Proof.Machine
end

section
/-! The operations of Machine/Vector.lean keep memory in its canonical form (R9). -/

namespace Sys2Proof.Machine

@[simp] theorem State.vInt_wf {s : State} (f : Nat → Nat → Nat → Nat) (d a b : Fin 32) (t : View) (pr : Fin 8)
    (h : Memory.wf s.mem) :
    Result.wf (s.vInt f d a b t pr) := by
  simp [State.vInt, h]

@[simp] theorem State.vCmp_wf {s : State} (f : Nat → Nat → Nat → Bool) (d : Fin 8) (a b : Fin 32) (t : View) (pr : Fin 8)
    (h : Memory.wf s.mem) :
    Result.wf (s.vCmp f d a b t pr) := by
  simp [State.vCmp, h]

@[simp] theorem execVsel_wf (d a b : Fin 32) (pr : Fin 8) {s : State} (h : Memory.wf s.mem) :
    Result.wf (execVsel d a b pr s) := by
  simp [execVsel, h]

@[simp] theorem State.vDot_wf {s : State} (signed : Bool) (d a b : Fin 32) (hh : Bool) (pr : Fin 8) (h : Memory.wf s.mem) :
    Result.wf (s.vDot signed d a b hh pr) := by
  simp [State.vDot, h]

@[simp] theorem State.vImm_wf {s : State} (f : Word → Word) (d a : Fin 32) (h : Memory.wf s.mem) :
    Result.wf (s.vImm f d a) := by
  simp [State.vImm, h]

@[simp] theorem execVbcast_wf (d a : Fin 32) (t : View) (pr : Fin 8) {s : State} (h : Memory.wf s.mem) :
    Result.wf (execVbcast d a t pr s) := by
  simp [execVbcast, h]

@[simp] theorem execVget_wf (d a b : Fin 32) (t : View) (pr : Fin 8) {s : State} (h : Memory.wf s.mem) :
    Result.wf (execVget d a b t pr s) := by
  simp [execVget, h]

@[simp] theorem execVput_wf (d a b : Fin 32) (t : View) (pr : Fin 8) {s : State} (h : Memory.wf s.mem) :
    Result.wf (execVput d a b t pr s) := by
  simp [execVput, h]

@[simp] theorem execVperm_wf (d a b : Fin 32) (t : View) (pr : Fin 8) {s : State} (h : Memory.wf s.mem) :
    Result.wf (execVperm d a b t pr s) := by
  simp [execVperm, h]

@[simp] theorem execVins_wf (d a b : Fin 32) (t : View) (pr : Fin 8) {s : State} (h : Memory.wf s.mem) :
    Result.wf (execVins d a b t pr s) := by
  simp [execVins, h]

end Sys2Proof.Machine
end

section
/-! The operations of Machine/Float.lean keep memory in its canonical form (R9). -/

namespace Sys2Proof.Machine

@[simp] theorem State.floatOp_wf {s : State} (f : FloatFmt) (d : Fin 32) (vs : List (Fin 32)) (pr : Fin 8)
    (res : Nat → Nat → FRes) (h : Memory.wf s.mem) :
    Result.wf (s.floatOp f d vs pr res) := by
  simp [State.floatOp, h]

@[simp] theorem State.floatCmp_wf {s : State} (c : FCmp) (d : Fin 8) (a b : Fin 32) (t : FFmt) (pr : Fin 8)
    (h : Memory.wf s.mem) :
    Result.wf (s.floatCmp c d a b t pr) := by
  simp [State.floatCmp, h]

@[simp] theorem State.fused_wf {s : State} (negP negC : Bool) (d a b c : Fin 32) (t : FFmt) (pr : Fin 4)
    (h : Memory.wf s.mem) :
    Result.wf (s.fused negP negC d a b c t pr) := by
  simp [State.fused, h]

end Sys2Proof.Machine
end

section
/-! The operations of Machine/Sfu.lean keep memory in its canonical form (R9). -/

namespace Sys2Proof.Machine

@[simp] theorem State.sfuIssue_wf {s : State} (f : FloatFmt) (d : Fin 32) (vs : List (Fin 32)) (pr : Fin 8)
    (res : Nat → Nat → FRes) (h : Memory.wf s.mem) :
    Result.wf (s.sfuIssue f d vs pr res) := by
  simp [State.sfuIssue, h]

@[simp] theorem State.sfu1_wf {s : State} (fn : FloatFmt → FloatEnv → Nat → FRes) (d a : Fin 32) (t : SFmt) (pr : Fin 8)
    (h : Memory.wf s.mem) :
    Result.wf (s.sfu1 fn d a t pr) := by
  simp [State.sfu1, h]

@[simp] theorem execSfuResultRetire_wf {s : State} (h : Memory.wf s.mem) : Result.wf (execSfuResultRetire s) := by
  simp only [execSfuResultRetire]
  split <;> simp [h]

end Sys2Proof.Machine
end

section
/-! The operations of Machine/Rake.lean keep memory in its canonical form (R9). -/

namespace Sys2Proof.Machine

@[simp] theorem State.probeAll_wf {s : State} (c : RakeCmd) (ks : List Nat) (known : List (Nat × Bool))
    (h : Memory.wf s.mem) :
    Memory.wf (s.probeAll c ks known).2.2.mem := by
  induction ks generalizing s known with
  | nil => exact h
  | cons k ks ih =>
    simp only [State.probeAll]
    split
    · exact ih _ h
    · split
      · next e => exact ih _ (State.brineAnswer_wf _ _ _ _ h e)
      · exact h

@[simp] theorem State.collapse_wf {s : State} (c : RakeCmd) (es : List DagEntry) (e : List Nat) (n : Nat) (coll : List Nat)
    (known : List (Nat × Bool)) (h : Memory.wf s.mem) :
    Memory.wf (s.collapse c es e n coll known).2.2.mem := by
  induction n generalizing s coll known with
  | zero => exact h
  | succ n ih => grind [State.collapse, State.probeAll_wf]

@[simp] theorem State.modRake_mem (s : State) (id : Nat) (f : RakeCmd → RakeCmd) : (s.modRake id f).mem = s.mem := rfl

@[simp] theorem execEkickRake_wf (a : Fin 32) {s : State} (h : Memory.wf s.mem) : Result.wf (execEkickRake a s) := by
  simp [execEkickRake, h]

@[simp] theorem State.rakeResult_mem (s : State) (c : RakeCmd) (outs : List (Nat × List Byte)) (bytes : List Byte) :
    (s.rakeResult c outs bytes).mem = s.mem := rfl

@[simp] theorem State.askPages_mem (s : State) (pasid : Nat) (vas : List Nat) : (s.askPages pasid vas).mem = s.mem := by
  simp [State.askPages]

@[simp] theorem State.rakePasses_wf {s : State} (c : RakeCmd) (es : List DagEntry) (groups : List (List Byte))
    (h : Memory.wf s.mem) :
    Memory.wf (s.rakePasses c es groups).mem := by
  grind [State.rakePasses, State.collapse_wf, State.post_mem, State.modRake_mem, State.askPages_mem, State.rakeResult_mem]

@[simp] theorem State.outPlaces_mem (s : State) (a : Asker) (ws : List (Nat × List Byte)) :
    (s.outPlaces a ws).2.mem = s.mem := by
  induction ws generalizing s with
  | nil => rfl
  | cons w ws ih => grind [State.outPlaces, State.placesOf_mem]

@[simp] theorem State.rakePoisoned_mem (s : State) (a : Asker) (c : RakeCmd) : (s.rakePoisoned a c).mem = s.mem := by
  grind [State.rakePoisoned, State.outPlaces_mem, State.rakeResult_mem]

@[simp] theorem execRakeCommand_wf {s : State} (h : Memory.wf s.mem) : Result.wf (execRakeCommand s) := by
  simp only [execRakeCommand, Result.wf_next]
  split
  · exact h
  split_ifs
  · exact h
  · simpa using h
  · simpa using h
  split
  · next hr => exact State.wf_of_snd hr (by simpa using h)
  · next hr => simpa using State.wf_of_snd hr (by simpa using h)
  next hr =>
  have hs := State.wf_of_snd hr (by simpa using h)
  split
  · simpa using hs
  split
  · next hg => exact State.wf_of_snd hg (by simpa using hs)
  · next hg => simpa using State.wf_of_snd hg (by simpa using hs)
  next hg =>
  have hs := State.wf_of_snd hg (by simpa using hs)
  split <;> simp [hs]

@[simp] theorem State.rakeNext_mem (s : State) (c : RakeCmd) (bytes : List Byte) : (s.rakeNext c bytes).mem = s.mem := rfl

@[simp] theorem execRakeCompletion_wf {s : State} (h : Memory.wf s.mem) : Result.wf (execRakeCompletion s) := by
  simp only [execRakeCompletion, Result.wf_next]
  split
  · exact h
  split
  · exact h
  split
  · simpa using h
  split
  · next e => exact State.wf_of_snd e (by simpa using h)
  · next e => simpa using State.wf_of_snd e (by simpa using h)
  next e =>
  have hs := State.wf_of_snd e (by simpa using h)
  split
  · simp [hs]
  split
  · next e => simp [State.wf_of_snd e (by simpa using hs)]
  · next e => simp [State.wf_of_snd e (by simpa using hs)]
  · next e => exact State.wf_of_snd e (by simpa using hs)

end Sys2Proof.Machine
end

section
/-! The operations of Machine/Chameleon.lean keep memory in its canonical form (R9). -/

namespace Sys2Proof.Machine

@[simp] theorem State.modCham_mem (s : State) (id : Nat) (f : ChamCmd → ChamCmd) : (s.modCham id f).mem = s.mem := rfl

@[simp] theorem execEkickCham_wf (a : Fin 32) {s : State} (h : Memory.wf s.mem) : Result.wf (execEkickCham a s) := by
  simp [execEkickCham, h]

@[simp] theorem State.readLayout_mem (s : State) (a : Asker) (va : Nat) : (s.readLayout a va).2.mem = s.mem := by
  rw [State.readLayout]
  split
  · next e => exact State.mem_of_snd e (State.engineRead_mem ..)
  · next e => exact State.mem_of_snd e (State.engineRead_mem ..)
  next e =>
  have hs := State.mem_of_snd e (State.engineRead_mem ..)
  split
  dsimp only
  split
  · exact hs
  · split <;> next e => exact (State.mem_of_snd e (State.engineRead_mem ..)).trans hs

@[simp] theorem State.readCursor_mem (s : State) (a : Asker) (c : ChamCmd) : (s.readCursor a c).2.mem = s.mem := by
  obtain ⟨read, er, hr⟩ := State.engineRead_closed
  simp only [State.readCursor, er]
  split
  · split <;> next e => exact State.mem_of_snd e (hr ..)
  · split <;> next e => exact State.mem_of_snd e (State.placesOf_mem ..)

@[simp] theorem State.chamDone_mem (s : State) (c : ChamCmd) : (s.chamDone c).mem = s.mem := by
  simp [State.chamDone]

@[simp] theorem State.issueWindow_mem (s : State) (c : ChamCmd) : (s.issueWindow c).mem = s.mem := by
  simp -implicitDefEqProofs [State.issueWindow]

@[simp] theorem State.chamStep_mem (s : State) (c : ChamCmd) : (s.chamStep c).mem = s.mem := by
  simp [State.chamStep]

@[simp] theorem State.chamStart_mem (s : State) (c : ChamCmd) (k : Nat) (cursor : List Byte) :
    (s.chamStart c k cursor).mem = s.mem := rfl

@[simp] theorem execChameleonCommand_wf {s : State} (h : Memory.wf s.mem) : Result.wf (execChameleonCommand s) := by
  -- The accesses stay closed: when they are in sight, the kernel computes their granules.
  obtain ⟨layout, el, hl⟩ : ∃ f, State.readLayout = f ∧ ∀ s a va, (f s a va).2.mem = s.mem :=
    ⟨_, rfl, State.readLayout_mem⟩
  obtain ⟨cursor, ec, hc⟩ : ∃ f, State.readCursor = f ∧ ∀ s a c, (f s a c).2.mem = s.mem :=
    ⟨_, rfl, State.readCursor_mem⟩
  obtain ⟨write, ew, hw⟩ : ∃ f, State.engineWrite = f ∧ ∀ s a va bs, Memory.wf s.mem → Memory.wf (f s a va bs).2.mem :=
    ⟨_, rfl, fun _ => State.engineWrite_wf⟩
  simp only [execChameleonCommand, Result.wf_next, el, ec, ew]
  split
  · exact h
  split_ifs
  · exact h
  · simp [h]
  · simpa using h
  · simpa using h
  split
  · next hr => exact State.wf_of_snd hr (by simpa [hl] using h)
  next hr =>
  have hs := State.wf_of_snd hr (by simpa [hl] using h)
  split
  · next hd => exact State.wf_of_snd hd (by simpa [hl] using hs)
  next hd =>
  have hs := State.wf_of_snd hd (by simpa [hl] using hs)
  split
  · next hr => exact State.wf_of_snd hr (by simpa [hc] using hs)
  next hr =>
  have hs := State.wf_of_snd hr (by simpa [hc] using hs)
  split
  · simpa using hs
  split_ifs
  · simpa using hs
  · simp [hs]
  · split <;> next he => simpa using State.wf_of_snd he (hw _ _ _ _ hs)

@[simp] theorem State.chamCursor_wf {s : State} (c : ChamCmd) (bs : List Byte) (h : Memory.wf s.mem) :
    Memory.wf (s.chamCursor c bs).mem := by
  grind [State.chamCursor, State.engineWrite_wf, State.post_mem, State.modCham_mem]

@[simp] theorem execChameleonWindowAck_wf {s : State} (h : Memory.wf s.mem) : Result.wf (execChameleonWindowAck s) := by
  simp only [execChameleonWindowAck]
  repeat' split
  all_goals simp [h]

@[simp] theorem execChameleonEnd_wf {s : State} (h : Memory.wf s.mem) : Result.wf (execChameleonEnd s) := by
  grind [execChameleonEnd, Result.wf, State.chamDone_mem, State.need_mem, State.storeNat_wf, State.engineWrite_wf,
    State.post_mem, State.modCham_mem]

end Sys2Proof.Machine
end

section
/-! The operations of Machine/Convert.lean keep memory in its canonical form (R9). -/

namespace Sys2Proof.Machine

@[simp] theorem State.convert_wf {s : State} (ws wd : Nat) (d a : Fin 32) (pr : Fin 8) (f : Nat → Nat → Nat → FRes)
    (h : Memory.wf s.mem) :
    Result.wf (s.convert ws wd d a pr f) := by
  simp [State.convert, h]

@[simp] theorem State.badType_wf {s : State} (h : Memory.wf s.mem) : Result.wf (s.badType) := by
  simp [State.badType, h]

@[simp] theorem execCvtf_wf (d a : Fin 32) (y : TyCode) (t : FFmt) (pr : Fin 8) {s : State} (h : Memory.wf s.mem) :
    Result.wf (execCvtf d a y t pr s) := by
  simp only [execCvtf]
  split <;> simp [h]

@[simp] theorem execCvtfi_wf (d a : Fin 32) (y : TyCode) (t : FFmt) (pr : Fin 8) {s : State} (h : Memory.wf s.mem) :
    Result.wf (execCvtfi d a y t pr s) := by
  simp only [execCvtfi]
  split <;> simp [h]

@[simp] theorem execCvtif_wf (d a : Fin 32) (y : TyCode) (t : FFmt) (pr : Fin 8) {s : State} (h : Memory.wf s.mem) :
    Result.wf (execCvtif d a y t pr s) := by
  simp only [execCvtif]
  split <;> simp [h]

@[simp] theorem execCvtq_wf (d a : Fin 32) (y : TyCode) (t : FFmt) (pr : Fin 8) {s : State} (h : Memory.wf s.mem) :
    Result.wf (execCvtq d a y t pr s) := by
  simp only [execCvtq]
  split <;> simp [h]

@[simp] theorem execCvtsr_wf (d a : Fin 32) (y : TyCode) (t : FFmt) (pr : Fin 8) {s : State} (h : Memory.wf s.mem) :
    Result.wf (execCvtsr d a y t pr s) := by
  simp only [execCvtsr]
  split <;> simp [h]

end Sys2Proof.Machine
end

section
/-! The operations of Machine/Fabric.lean keep memory in its canonical form (R9). -/

namespace Sys2Proof.Machine

@[simp] theorem execLenboFlitReceive_wf {s : State} (h : Memory.wf s.mem) : Result.wf (execLenboFlitReceive s) := by
  simp only [execLenboFlitReceive]
  repeat' split
  all_goals simp [h]

@[simp] theorem execLenboNak_wf {s : State} (h : Memory.wf s.mem) : Result.wf (execLenboNak s) := by
  simp [execLenboNak, h]

@[simp] theorem State.linkDown_wf {s : State} (j : Nat) (h : Memory.wf s.mem) : Memory.wf (s.linkDown j).mem := by
  simp [State.linkDown, h]

@[simp] theorem execLenboLaneLoss_wf {s : State} (h : Memory.wf s.mem) : Result.wf (execLenboLaneLoss s) := by
  simp [execLenboLaneLoss, h]

@[simp] theorem execWidthreq_wf {s : State} (h : Memory.wf s.mem) : Result.wf (execWidthreq s) := by
  simp [execWidthreq, h]

@[simp] theorem execLenboCreditReturn_wf {s : State} (h : Memory.wf s.mem) : Result.wf (execLenboCreditReturn s) := by
  simp [execLenboCreditReturn, h]

@[simp] theorem State.serveCore_wf {s : State} (p : LenboPacket) (h : Memory.wf s.mem) :
    Memory.wf (s.serveCore p).2.mem := by
  grind [State.serveCore, State.brineFrom_wf, State.pushPort_wf, State.pushHit_wf, State.winPerform_wf]

@[simp] theorem State.poisonFlits_mem (s : State) (p : LenboPacket) (l : List (Nat × Nat)) (n : Nat) :
    (s.poisonFlits p l n).mem = s.mem := by
  simp [State.poisonFlits]

@[simp] theorem State.serveBytes_wf {s : State} (p : LenboPacket) (task : Task) (h : Memory.wf s.mem) :
    Memory.wf (s.serveBytes p task).2.mem := by
  grind [State.serveBytes, State.postStart_mem, State.landAt_wf, State.placesOf_mem, State.putPlaces_wf,
    State.poisonFlits_mem, State.engineRead_mem]

@[simp] theorem State.answer_mem (s : State) (p : LenboPacket) : (s.answer p).mem = s.mem := by
  simp [State.answer]

@[simp] theorem State.serve_wf {s : State} (p : LenboPacket) (h : Memory.wf s.mem) : Memory.wf (s.serve p).mem := by
  unfold State.serve
  split
  · next d _ => cases d.answer <;> simp [h]
  · extract_lets arg task bytes
    have hp : Memory.wf (if bytes then s.serveBytes p task else s.serveCore p).2.mem := by split <;> simp [h]
    split
    · next e =>
      have ht := State.wf_of_snd e hp
      split <;> exact ht
    · next e => simpa using State.wf_of_snd e hp

@[simp] theorem State.concluded_mem (s : State) (r : LenboReq) (c : Cause) (data : Option (BitVec 256)) (bad : Bool) :
    (s.concluded r c data bad).mem = s.mem := by
  simp only [State.concluded]
  repeat' split
  all_goals simp

@[simp] theorem execLenboPacketReceive_wf {s : State} (h : Memory.wf s.mem) : Result.wf (execLenboPacketReceive s) := by
  simp only [execLenboPacketReceive]
  repeat' split
  all_goals simp [h]

@[simp] theorem execEpochRefusal_wf {s : State} (h : Memory.wf s.mem) : Result.wf (execEpochRefusal s) := by
  simp only [execEpochRefusal]
  split <;> simp [h]

@[simp] theorem execLenboRetransmitTimeout_wf {s : State} (h : Memory.wf s.mem) :
    Result.wf (execLenboRetransmitTimeout s) := by
  simp only [execLenboRetransmitTimeout]
  split <;> simp [h]

@[simp] theorem execLenboRequestGiveUp_wf {s : State} (h : Memory.wf s.mem) : Result.wf (execLenboRequestGiveUp s) := by
  simp only [execLenboRequestGiveUp]
  split <;> simp [h]

end Sys2Proof.Machine
end

section
/-! The operations of Machine/Preempt.lean keep memory in its canonical form (R9). -/

namespace Sys2Proof.Machine

@[simp] theorem State.takeXlong_wf {s : State} (c : Nat) (h : Memory.wf s.mem) : Memory.wf (s.takeXlong c).mem := by
  simp [State.takeXlong, h]

@[simp] theorem State.haltCore_wf {s : State} (c : Nat) (h : Memory.wf s.mem) : Memory.wf (s.haltCore c).mem := by
  simp [State.haltCore, h]

@[simp] theorem State.haltGroup_wf {s : State} (id : Nat) (st : GroupState) (h : Memory.wf s.mem) :
    Memory.wf (s.haltGroup id st).mem := by
  simp +contextual [State.haltGroup, h]

@[simp] theorem State.deferGroup_mem (s : State) (id : Nat) : (s.deferGroup id).mem = s.mem := by
  simp -implicitDefEqProofs [State.deferGroup]

@[simp] theorem execPreemptDelivery_wf {s : State} (h : Memory.wf s.mem) : Result.wf (execPreemptDelivery s) := by
  rw [execPreemptDelivery, Result.wf_next]
  split
  · exact h
  extract_lets gs starting
  split
  · simpa using h
  split
  · exact h
  split
  · exact h
  next e =>
  have ht := State.reserve_mem _ e ▸ h
  refine State.wf_foldl (fun _ _ ht => ?_) _ (State.brineLaunch_wf _ _ ht)
  split <;> simp [ht]

@[simp] theorem execDeferredHalt_wf {s : State} (h : Memory.wf s.mem) : Result.wf (execDeferredHalt s) := by
  simp [execDeferredHalt, h]

@[simp] theorem execSwapOut_wf {s : State} (h : Memory.wf s.mem) : Result.wf (execSwapOut s) := by
  rw [execSwapOut, Result.wf_next]
  split
  · exact h
  extract_lets gs wanted
  split_ifs
  · exact h
  · simpa using h
  split
  · exact h
  · next e =>
    have ht := State.reserve_mem _ e ▸ h
    exact State.wf_foldl (fun _ _ ht => State.haltGroup_wf _ _ ht) _ (State.brineLaunch_wf _ _ ht)

@[simp] theorem State.flushCore_wf {s : State} (c : Nat) (h : Memory.wf s.mem) : Memory.wf (s.flushCore c).mem := by
  grind [State.flushCore, State.flushPort_wf, State.flushBed_wf]

@[simp] theorem State.freeCore_mem (s : State) (c : Nat) : (s.freeCore c).mem = s.mem := by
  simp [State.freeCore]

@[simp] theorem State.writeSlot_wf {s : State} (c a : Nat) (h : Memory.wf s.mem) : Memory.wf (s.writeSlot c a).mem :=
  State.storeClean_wf _ _ <| State.wf_foldl (fun _ _ ht => State.storeClean_wf _ _ ht) _ (State.copyBytes_wf _ _ _ h)

@[simp] theorem execCoreSave_wf {s : State} (h : Memory.wf s.mem) : Result.wf (execCoreSave s) := by
  simp only [execCoreSave]
  repeat' split
  all_goals simp [h]

@[simp] theorem State.pageInstalled_mem (s : State) (c : Nat) (page : List Byte) :
    (s.pageInstalled c page).mem = s.mem := by
  simp [State.pageInstalled]

@[simp] theorem State.restoreCore_wf {s : State} (l c : Nat) (h : Memory.wf s.mem) :
    Memory.wf (s.restoreCore l c).1.mem := by
  simp only [State.restoreCore]
  repeat' split
  all_goals simp [h]

@[simp] theorem State.wakeCore_mem (s : State) (c : Nat) : (s.wakeCore c).mem = s.mem := by
  simp -implicitDefEqProofs [State.wakeCore]

@[simp] theorem execGroupRestore_wf {s : State} (h : Memory.wf s.mem) : Result.wf (execGroupRestore s) := by
  rw [execGroupRestore, Result.wf_next]
  split
  · exact h
  extract_lets gs held left cores r t u v
  have hr : Memory.wf r.1.mem := by
    refine State.wf_foldl_fst (fun r c hr => ?_) _ h
    exact State.restoreCore_wf _ _ hr
  have hv : v.mem = r.1.mem := by
    refine State.mem_foldl (fun t g => ?_) _ u
    exact t.modGroup_mem ..
  split
  · exact h
  split
  · split <;> simp [h]
  split
  · simpa using h
  · have hw : (cores.foldl State.wakeCore v).mem = v.mem := State.mem_foldl State.wakeCore_mem _ _
    simp [hw, hv, hr]

@[simp] theorem execGroupRetirement_wf {s : State} (h : Memory.wf s.mem) : Result.wf (execGroupRetirement s) := by
  simp only [execGroupRetirement]
  split <;> simp [h]

@[simp] theorem State.dropPart_wf {s : State} (w : PageWait) (h : Memory.wf s.mem) : Memory.wf (s.dropPart w).mem := by
  simp only [State.dropPart]
  repeat' split
  all_goals simp [h]

@[simp] theorem State.dropParked_wf {s : State} (l : Nat) (h : Memory.wf s.mem) : Memory.wf (s.dropParked l).mem := by
  simp +contextual [State.dropParked, h]

@[simp] theorem State.rejectPending_mem (s : State) (g : Nat) : (s.rejectPending g).mem = s.mem := by
  refine State.mem_foldl (fun t _ => ?_) _ s
  split
  · simp
  split
  · next e => simp [State.takeHead_mem _ e]
  · rfl

@[simp] theorem State.beginEnd_mem (s : State) (l : Launch) (info : EndInfo) : (s.beginEnd l info).mem = s.mem := by
  simp -implicitDefEqProofs [State.beginEnd]

@[simp] theorem execLaunchEnd_wf {s : State} (h : Memory.wf s.mem) : Result.wf (execLaunchEnd s) := by
  simp only [execLaunchEnd]
  repeat' split
  all_goals simp +contextual [h]

end Sys2Proof.Machine
end

section
/-! The operations of Machine/Rays.lean keep memory in its canonical form (R9). -/

namespace Sys2Proof.Machine

@[simp] theorem State.modMsg_mem (s : State) (id : Nat) (f : Msg → Msg) : (s.modMsg id f).mem = s.mem := rfl

@[simp] theorem State.leaveBuffer_wf {s : State} (m : Msg) (h : Memory.wf s.mem) : Memory.wf (s.leaveBuffer m).mem := by
  simp [State.leaveBuffer, h]

@[simp] theorem State.modHome_mem (s : State) (l id : Nat) (f : Home → Home) : (s.modHome l id f).mem = s.mem := rfl

@[simp] theorem execSalternCacheFill_wf {s : State} (h : Memory.wf s.mem) : Result.wf (execSalternCacheFill s) := by
  simp only [execSalternCacheFill]
  split <;> simp [h]

@[simp] theorem execRsend_wf (b : Fin 32) {s : State} (h : Memory.wf s.mem) : Result.wf (execRsend b s) := by
  simp only [execRsend]
  repeat' split
  all_goals simp +contextual [h]

@[simp] theorem execBsend_wf (b : Fin 32) {s : State} (h : Memory.wf s.mem) : Result.wf (execBsend b s) := by
  simp only [execBsend]
  repeat' split
  all_goals simp +contextual [h]

@[simp] theorem State.modSlot_wf {s : State} (l c i : Nat) (f : Slot → Slot) (h : Memory.wf s.mem) :
    Memory.wf (s.modSlot l c i f).mem := by
  simp only [State.modSlot]
  split <;> simp [h]

@[simp] theorem State.uncache_mem (s : State) (m : Msg) : (s.uncache m).mem = s.mem := by
  simp [State.uncache]

@[simp] theorem execRayArrival_wf {s : State} (h : Memory.wf s.mem) : Result.wf (execRayArrival s) := by
  simp only [execRayArrival, Result.wf_next]
  split
  · exact h
  split_ifs
  · simp [h]
  split
  · split
    · simpa using h
    · next e => simp [State.brineOrder_wf _ _ _ _ _ _ h e]
  · split <;> simp [h]

@[simp] theorem State.holdRay_mem (s : State) (die : Nat) (m : Msg) : (s.holdRay die m).mem = s.mem := rfl

@[simp] theorem State.modPageIn_mem (s : State) (id : Nat) (f : PageIn → PageIn) : (s.modPageIn id f).mem = s.mem := rfl

@[simp] theorem State.startPageIn_mem (s : State) (p : PageIn) : (s.startPageIn p).mem = s.mem := rfl

@[simp] theorem execRayAtHome_wf {s : State} (h : Memory.wf s.mem) : Result.wf (execRayAtHome s) := by
  simp only [execRayAtHome]
  repeat' split
  all_goals simp [h]

@[simp] theorem State.releaseRays_mem (s : State) (l id : Nat) : (s.releaseRays l id).mem = s.mem := by
  simp -implicitDefEqProofs [State.releaseRays]

@[simp] theorem State.readCat_mem (s : State) (a : Asker) (l : Launch) (id noImage : Nat) (init : Bool) :
    (s.readCat a l id noImage init).2.mem = s.mem := by
  rw [State.readCat]
  split
  · next e => exact State.mem_of_snd e (State.engineRead_mem ..)
  · next e => dsimp only; split_ifs <;> exact State.mem_of_snd e (State.engineRead_mem ..)
  · next e => exact State.mem_of_snd e (State.engineRead_mem ..)
  · next e => exact State.mem_of_snd e (State.engineRead_mem ..)

/-- A reading of the catalogue as a closed box, as for `State.engineRead_closed`. -/
theorem State.readCat_closed : ∃ f, State.readCat = f ∧ ∀ s a l id noImage init, (f s a l id noImage init).2.mem = s.mem :=
  ⟨_, rfl, State.readCat_mem⟩

@[simp] theorem State.beginEviction_mem (s : State) (l c i page : Nat) : (s.beginEviction l c i page).mem = s.mem := rfl

@[simp] theorem State.evictColdest_mem (s : State) (table : List Home) : (s.evictColdest table).mem = s.mem := by
  simp only [State.evictColdest]
  repeat' split
  all_goals simp -implicitDefEqProofs

@[simp] theorem State.failPageIn_mem (s : State) (p : PageIn) (c : Cause) (kaddr : Nat) :
    (s.failPageIn p c kaddr).mem = s.mem := rfl

@[simp] theorem State.pagePlace_wf {s : State} (l : Launch) (p : PageIn) (h : Memory.wf s.mem) :
    Memory.wf (s.pagePlace l p).mem := by
  obtain ⟨cat, ec, hc⟩ := State.readCat_closed
  simp only [State.pagePlace, ec]
  split_ifs
  · simpa using h
  · exact h
  split
  · next e => simpa using State.wf_of_snd e (by simpa [hc] using h)
  · next e => exact State.wf_of_snd e (by simpa [hc] using h)
  next e =>
  have hs := State.wf_of_snd e (by simpa [hc] using h)
  split_ifs
  · exact hs
  · simpa using hs
  split
  · simpa using hs
  next e =>
  have hs := State.brineAnswer_wf _ _ _ _ hs e
  split
  · exact hs
  · split <;> simpa using hs

@[simp] theorem State.fillPart_wf {s : State} (l : Launch) (p : PageIn) (c i va n off : Nat) (check : List Byte → Bool)
    (h : Memory.wf s.mem) :
    Memory.wf (s.fillPart l p c i va n off check).mem := by
  unfold State.fillPart
  split
  · next e =>
    have hs := State.wf_of_snd e (by simpa using h)
    extract_lets bs sectorBad
    split_ifs
    · simpa using hs
    · simpa using hs
    split
    · next e => simpa using State.landAt_wf _ _ _ _ _ hs e
    · simpa using hs
  · next e => simpa using State.wf_of_snd e (by simpa using h)
  · next e => exact State.wf_of_snd e (by simpa using h)

@[simp] theorem State.countCat_wf {s : State} (l : Launch) (id off n : Nat) (h : Memory.wf s.mem) :
    Memory.wf (s.countCat l id off n).2.mem := by
  grind [State.countCat, State.quietWrite_mem, State.storeNat_wf]

@[simp] theorem State.countRays_wf {s : State} (l : Launch) (id n : Nat) (h : Memory.wf s.mem) :
    Memory.wf (s.countRays l id n).mem := by
  grind [State.countRays, State.countCat_wf, State.post_mem]

@[simp] theorem State.pageFill_wf {s : State} (l : Launch) (p : PageIn) (c i : Nat) (h : Memory.wf s.mem) :
    Memory.wf (s.pageFill l p c i).mem := by
  obtain ⟨cat, ec, hc⟩ := State.readCat_closed
  rw [State.pageFill, ec]
  split
  · next e => simpa using State.wf_of_snd e (by simpa [hc] using h)
  · next e => exact State.wf_of_snd e (by simpa [hc] using h)
  next e =>
  have hs := State.wf_of_snd e (by simpa [hc] using h)
  split_ifs
  · simp [hs]
  · simp [hs]
  · simpa using hs
  · split <;> next e => simpa using State.wf_of_snd e (State.countCat_wf _ _ _ _ hs)

@[simp] theorem execPageIn_wf {s : State} (h : Memory.wf s.mem) : Result.wf (execPageIn s) := by
  simp only [execPageIn]
  repeat' split
  all_goals simp [h]

@[simp] theorem State.pageGoesOn_mem (s : State) (page : Nat) (f : PageIn → PageIn) :
    (s.pageGoesOn page f).mem = s.mem := by
  simp only [State.pageGoesOn]
  split <;> simp

@[simp] theorem State.unmarkLeaving_mem (s : State) (l id : Nat) (at_ : Nat × Nat) :
    (s.unmarkLeaving l id at_).mem = s.mem := rfl

@[simp] theorem State.removeReplica_wf {s : State} (l id : Nat) (at_ : Nat × Nat) (page : Nat) (h : Memory.wf s.mem) :
    Memory.wf (s.removeReplica l id at_ page).mem := by
  simp [State.removeReplica, h]

@[simp] theorem execEvictionIdleCheck_wf {s : State} (h : Memory.wf s.mem) : Result.wf (execEvictionIdleCheck s) := by
  grind [execEvictionIdleCheck, Result.wf, State.removeReplica_wf, State.brineAnswer_wf, State.post_mem, State.modCore_mem,
    State.modSlot_wf, State.releaseRays_mem, State.pageGoesOn_mem, State.unmarkLeaving_mem]

@[simp] theorem execTreeletFillComplete_wf {s : State} (h : Memory.wf s.mem) : Result.wf (execTreeletFillComplete s) := by
  simp only [execTreeletFillComplete]
  repeat' split
  all_goals simp [h]

@[simp] theorem execInitialPin_wf {s : State} (h : Memory.wf s.mem) : Result.wf (execInitialPin s) := by
  obtain ⟨cat, ec, hc⟩ := State.readCat_closed
  simp only [execInitialPin, Result.wf_next, ec]
  split
  · exact h
  split
  · exact h
  split_ifs
  · simpa using h
  split
  · next e => exact State.wf_of_snd e (by simpa [hc] using h)
  · next e => simpa using State.wf_of_snd e (by simpa [hc] using h)
  next e =>
  have hs := State.wf_of_snd e (by simpa [hc] using h)
  split_ifs <;> simpa using hs

@[simp] theorem execHeatPeriodEnd_wf {s : State} (h : Memory.wf s.mem) : Result.wf (execHeatPeriodEnd s) := by
  rw [execHeatPeriodEnd, Result.wf_next]
  split
  · exact h
  split
  · simp [h]
  extract_lets rows t mine thr u v
  have ht : Memory.wf t.mem := State.wf_foldl (fun _ _ ht => State.modSlot_wf _ _ _ _ ht) _ h
  have hu : Memory.wf u.mem := by
    refine State.wf_foldl (fun _ x hx => ?_) _ ht
    dsimp only
    split <;> simp [hx]
  have hv : v.mem = u.mem := by
    refine State.mem_foldl (fun w p => ?_) _ u
    simp
  simp [hv, hu]

end Sys2Proof.Machine
end

section
/-! The operations of Machine/HostSide.lean keep memory in its canonical form (R9). -/

namespace Sys2Proof.Machine

@[simp] theorem State.wakeSweepers_mem (s : State) : s.wakeSweepers.mem = s.mem :=
  State.mem_foldl (fun _ _ => State.postOnce_mem ..) _ s

@[simp] theorem State.writeChannel_mem (s : State) (ch o : Nat) (v : Word) : (s.writeChannel ch o v).mem = s.mem := by
  simp only [State.writeChannel]
  split <;> simp

@[simp] theorem State.writeBar0_mem (s : State) (a : Nat) (v : Word) : (s.writeBar0 a v).mem = s.mem := by
  simp only [State.writeBar0]
  repeat' split
  all_goals simp

@[simp] theorem State.writeBrctl_mem (s : State) (v : Word) : (s.writeBrctl v).mem = s.mem := rfl

@[simp] theorem State.writeDbgctl_mem (s : State) (v : Word) : (s.writeDbgctl v).mem = s.mem := by
  simp [State.writeDbgctl]

@[simp] theorem State.writeMgmt_mem (s : State) (a : Nat) (v : Word) : (s.writeMgmt a v).mem = s.mem := by
  simp only [State.writeMgmt]
  split <;> simp

@[simp] theorem execRegisterWrite_wf {s : State} (h : Memory.wf s.mem) : Result.wf (execRegisterWrite s) := by
  simp only [execRegisterWrite]
  split <;> simp [h]

@[simp] theorem execIqtail_wf {s : State} (h : Memory.wf s.mem) : Result.wf (execIqtail s) := by
  simp [execIqtail, h]

@[simp] theorem execHostBar2Access_wf {s : State} (h : Memory.wf s.mem) : Result.wf (execHostBar2Access s) := by
  simp +contextual [execHostBar2Access, h]

@[simp] theorem execPriReset_wf {s : State} (h : Memory.wf s.mem) : Result.wf (execPriReset s) := by
  simp [execPriReset, h]

end Sys2Proof.Machine
end

section
/-! The operations of Machine/Integrity.lean keep memory in its canonical form (R9). -/

namespace Sys2Proof.Machine

@[simp] theorem State.setCorrected_mem (s : State) (p : Place) (n : Nat) : (s.setCorrected p n).mem = s.mem := rfl

@[simp] theorem State.correct_wf {s : State} (p : Place) (h : Memory.wf s.mem) : Memory.wf (s.correct p).mem := by
  simp only [State.correct]
  split <;> simp [h]

@[simp] theorem State.markPlace_mem (s : State) (x1 : Place) : (s.markPlace x1).mem = s.mem := by
  simp only [State.markPlace]
  repeat' split
  all_goals simp

@[simp] theorem State.packageStop_wf {s : State} (intact : Bool) (where_ : Nat) (h : Memory.wf s.mem) :
    Memory.wf (s.packageStop intact where_).mem := by
  simp +contextual [State.packageStop, h]

@[simp] theorem State.uncorrectable_wf {s : State} (p : Place) (h : Memory.wf s.mem) :
    Memory.wf (s.uncorrectable p).mem := by
  simp only [State.uncorrectable]
  repeat' split
  all_goals simp [h]

@[simp] theorem State.newPeriod_mem (s : State) (p : Place) : (s.newPeriod p).mem = s.mem := by
  simp [State.newPeriod]

@[simp] theorem execScrub_wf {s : State} (h : Memory.wf s.mem) : Result.wf (execScrub s) := by
  simp only [execScrub]
  split <;> simp [h]

@[simp] theorem execRepeatedCorrection_wf {s : State} (h : Memory.wf s.mem) : Result.wf (execRepeatedCorrection s) := by
  simp [execRepeatedCorrection, h]

@[simp] theorem execBrineDivergence_wf {s : State} (h : Memory.wf s.mem) : Result.wf (execBrineDivergence s) := by
  simp only [execBrineDivergence]
  split <;> simp [h]

end Sys2Proof.Machine
end

section
/-! The operations of Machine/Debug.lean keep memory in its canonical form (R9). -/

namespace Sys2Proof.Machine

@[simp] theorem execDbgctlStop_wf {s : State} (h : Memory.wf s.mem) : Result.wf (execDbgctlStop s) := by
  simp [execDbgctlStop, h]

@[simp] theorem execDbgctlLoad_wf {s : State} (h : Memory.wf s.mem) : Result.wf (execDbgctlLoad s) := by
  simp only [execDbgctlLoad]
  repeat' split
  all_goals simp [h]

end Sys2Proof.Machine
end

section
/-! The operations of Machine/Power.lean keep memory in its canonical form (R9). -/

namespace Sys2Proof.Machine

@[simp] theorem State.heated_mem (s : State) (t : Nat) : (s.heated t).mem = s.mem := rfl

@[simp] theorem execThermalWarning_wf {s : State} (h : Memory.wf s.mem) : Result.wf (execThermalWarning s) := by
  simp [execThermalWarning, h]

@[simp] theorem execThermalTrip_wf {s : State} (h : Memory.wf s.mem) : Result.wf (execThermalTrip s) := by
  simp +contextual [execThermalTrip, h]

@[simp] theorem execThermalRecover_wf {s : State} (h : Memory.wf s.mem) : Result.wf (execThermalRecover s) := by
  simp [execThermalRecover, h]

@[simp] theorem State.dark_wf {s : State} (h : Memory.wf s.mem) : Memory.wf s.dark.mem :=
  memAbove_filter _ _ h

@[simp] theorem execThermalPowerOff_wf {s : State} (h : Memory.wf s.mem) : Result.wf (execThermalPowerOff s) := by
  simp [execThermalPowerOff, h]

@[simp] theorem State.boot_wf {s : State} (epoch : BitVec 16) (h : Memory.wf s.mem) : Memory.wf (s.boot epoch).mem := by
  simp [State.boot, h]

@[simp] theorem State.bootNext_mem (s : State) : s.bootNext.mem = s.mem := by
  simp only [State.bootNext]
  repeat' split
  all_goals simp

end Sys2Proof.Machine
end

section
/-! The operations of Machine/Identity.lean keep memory in its canonical form (R9). -/

namespace Sys2Proof.Machine

@[simp] theorem State.respond_wf {s : State} (ready : Bool) (answer : List Byte) (next : Spdm → Spdm) (h : Memory.wf s.mem)
    :
    Result.wf (s.respond ready answer next) := by
  simp [State.respond, h]

end Sys2Proof.Machine
end

section
/-! The operations of Machine/Matrix.lean keep memory in its canonical form (R9). -/

namespace Sys2Proof.Machine

@[simp] theorem State.notCaptured_wf {s : State} (body : State) (h : Memory.wf s.mem) (hbody : Memory.wf body.mem) :
    Result.wf (s.notCaptured body) := by
  simp [State.notCaptured, h, hbody]

@[simp] theorem State.claimedBody_wf {s : State} (body : State) (h : Memory.wf s.mem) (hbody : Memory.wf body.mem) :
    Result.wf (s.claimedBody body) := by
  simp [State.claimedBody, h, hbody]

@[simp] theorem execMshape_wf (d a : Fin 32) {s : State} (h : Memory.wf s.mem) : Result.wf (execMshape d a s) := by
  simp [execMshape, h]

@[simp] theorem execMclaim_wf (d : Fin 32) {s : State} (h : Memory.wf s.mem) : Result.wf (execMclaim d s) := by
  simp only [execMclaim]
  split <;> simp [h]

@[simp] theorem execMrel_wf {s : State} (h : Memory.wf s.mem) : Result.wf (execMrel s) := by
  simp [execMrel, h]

@[simp] theorem execMzero_wf (n : Fin 32) {s : State} (h : Memory.wf s.mem) : Result.wf (execMzero n s) := by
  simp [execMzero, h]

@[simp] theorem execMrd_wf (d n : Fin 32) {s : State} (h : Memory.wf s.mem) : Result.wf (execMrd d n s) := by
  simp [execMrd, h]

@[simp] theorem execMwr_wf (n a : Fin 32) {s : State} (h : Memory.wf s.mem) : Result.wf (execMwr n a s) := by
  simp [execMwr, h]

@[simp] theorem execMsc_wf (a : Fin 32) {s : State} (h : Memory.wf s.mem) : Result.wf (execMsc a s) := by
  simp [execMsc, h]

@[simp] theorem execMgo_wf (n a b : Fin 32) (r : Bool) {s : State} (h : Memory.wf s.mem) :
    Result.wf (execMgo n a b r s) := by
  simp [execMgo, h]

@[simp] theorem State.markBarrier_mem (s : State) (l g id : Nat) : (s.markBarrier l g id).mem = s.mem := by
  simp -implicitDefEqProofs [State.markBarrier]

@[simp] theorem State.bindStart_mem (s : State) (bad : Bool) : (s.bindStart bad).mem = s.mem := rfl

@[simp] theorem State.readSector_mem (s : State) (src : Nat) (a : Arrival) : (s.readSector src a).mem = s.mem := by
  simp [State.readSector]

@[simp] theorem execGangBarrierComplete_wf {s : State} (h : Memory.wf s.mem) : Result.wf (execGangBarrierComplete s) := by
  simp only [execGangBarrierComplete]
  repeat' split
  all_goals simp [h]

@[simp] theorem State.startOn_wf {s : State} (c : Nat) (h : Memory.wf s.mem) : Memory.wf (s.startOn c).mem := by
  simp only [State.startOn]
  repeat' split
  all_goals simp +contextual [h]

@[simp] theorem execMatrixOpStart_wf {s : State} (h : Memory.wf s.mem) : Result.wf (execMatrixOpStart s) := by
  simp +contextual [execMatrixOpStart, h]

@[simp] theorem State.desyncAll_mem (s : State) (id : Nat) : (s.desyncAll id).mem = s.mem := by
  simp -implicitDefEqProofs [State.desyncAll]

@[simp] theorem execScaleFifoConsume_wf {s : State} (h : Memory.wf s.mem) : Result.wf (execScaleFifoConsume s) := by
  simp only [execScaleFifoConsume]
  repeat' split
  all_goals simp [h]

@[simp] theorem execMatrixOpEnd_wf {s : State} (h : Memory.wf s.mem) : Result.wf (execMatrixOpEnd s) := by
  simp only [execMatrixOpEnd]
  split <;> simp [h]

@[simp] theorem execRep_wf (n : BitVec 4) (c : BitVec 5) (w : BitVec 5) {s : State} (h : Memory.wf s.mem) :
    Result.wf (execRep n c w s) := by
  simp only [execRep]
  split <;> simp [h]

@[simp] theorem execRepe_wf {s : State} (h : Memory.wf s.mem) : Result.wf (execRepe s) := by
  simp only [execRepe]
  split <;> simp [h]

end Sys2Proof.Machine
end

section
/-! The operations of Machine/WaveOps.lean keep memory in its canonical form (R9). -/

namespace Sys2Proof.Machine

@[simp] theorem State.waveFail_wf {s : State} (w : WaveOp) (cause : Cause) (h : Memory.wf s.mem) :
    Memory.wf (s.waveFail w cause).mem := by
  simp [State.waveFail, h]

@[simp] theorem State.waveIssue_wf {s : State} (w : WaveOp) (b : Fin 32) (pr : Fin 8) (h : Memory.wf s.mem) :
    Result.wf (s.waveIssue w b pr) := by
  simp [State.waveIssue, h]

@[simp] theorem State.waveP_wf {s : State} (fn : WaveFn) (d : Fin 32) (a : Fin 8) (b : Fin 32) (pr : Fin 8)
    (h : Memory.wf s.mem) :
    Result.wf (s.waveP fn d a b pr) := by
  simp [State.waveP, h]

@[simp] theorem State.waveV_wf {s : State} (fn : WaveFn) (t : View) (d a b : Fin 32) (pr : Fin 8) (h : Memory.wf s.mem) :
    Result.wf (s.waveV fn t d a b pr) := by
  simp [State.waveV, h]

@[simp] theorem State.waveDeliver_wf {s t : State} (ps : List Part) (p : Part) (ht : Memory.wf t.mem) :
    Memory.wf (s.waveDeliver t ps p).mem := by
  simp only [State.waveDeliver]
  split <;> simp [ht]

@[simp] theorem State.waveConsume_mem (s : State) (p : Part) : (s.waveConsume p).mem = s.mem := rfl

@[simp] theorem State.wavePerform_wf {s : State} (ps : List Part) (h : Memory.wf s.mem) :
    Memory.wf (s.wavePerform ps).mem := by
  have hc : Memory.wf (ps.foldl State.waveConsume s).mem := State.wf_foldl (fun _ _ ht => by simpa using ht) _ h
  simp only [State.wavePerform]
  split
  · exact hc
  split_ifs
  · exact State.wf_foldl (fun _ _ ht => State.joinDone_wf _ _ _ _ (State.waveDeliver_wf _ _ ht)) _ hc
  · exact State.wf_foldl (fun _ _ ht => State.joinFault_wf _ _ _ _ _ ht) _ hc

@[simp] theorem execWaveInstancePerform_wf {s : State} (h : Memory.wf s.mem) : Result.wf (execWaveInstancePerform s) := by
  simp only [execWaveInstancePerform]
  split <;> simp [h]

end Sys2Proof.Machine
end

section
/-! The operations of Machine/System.lean keep memory in its canonical form (R9). -/

namespace Sys2Proof.Machine

@[simp] theorem execTret_wf (d : Bool) (m : BitVec 4) {s : State} (h : Memory.wf s.mem) : Result.wf (execTret d m s) := by
  simp [execTret, h]

@[simp] theorem execCsave_wf (g : Fin 32) {s : State} (h : Memory.wf s.mem) : Result.wf (execCsave g s) := by
  grind [execCsave, Result.wf, State.faultPoison_wf, State.faultOpen_wf, State.fault_wf, State.stall_mem,
    State.modHere_mem, State.freeBytes_mem, State.wrote_mem, State.storeBytes_wf]

@[simp] theorem execCrest_wf (g : Fin 32) {s : State} (h : Memory.wf s.mem) : Result.wf (execCrest g s) := by
  simp only [execCrest]
  repeat' split
  all_goals simp [h]

@[simp] theorem execDbg_wf (g : Fin 32) {s : State} (h : Memory.wf s.mem) : Result.wf (execDbg g s) := by
  simp only [execDbg]
  split <;> simp [h]

end Sys2Proof.Machine
end

section
/-! The operations of Machine/Dispatch.lean keep memory in its canonical form (R9). -/

namespace Sys2Proof.Machine

/-- Every word of an A slot is executed as it is alone, or is refused. -/
theorem runAWord_eq_exec (i : Instr) (s : State) :
    i ≠ .replayIssue ∧ runAWord i s = exec i s ∨ runAWord i s = .next (s.faultOpen Cause.illop) := by
  cases i <;> simp [runAWord, exec]

/-- Each operation keeps the canonical form when the replay does: by its lemma above, or by the one line that it is. -/
theorem exec_wf_of_replayIssue (i : Instr) {s : State} (h : Memory.wf s.mem)
    (hr : i = .replayIssue → Result.wf (execReplayIssue s)) : Result.wf (exec i s) := by
  unfold exec
  split
  all_goals simp [h, hr,
    execAdd, execSub, execAnd, execOr, execXor, execAndn, execShl, execShr, execSar, execRol, execMin, execMax,
    execMinu, execMaxu, execSlt, execSltu, execMul, execMulh, execMulhu, execDiv, execDivu, execRem, execRemu,
    execSel, execClz, execCtz, execPopc, execBfx, execBfi, execMov, execLea, execWadr, execAddi, execAndi, execOri,
    execXori, execShli, execShri, execSari, execLi, execLui, execLhi, execNopC, execNopA, execKset, execBr, execBany,
    execBall, execBnone, execBnall, execBz, execBnz, execBlt, execBge, execBltu, execBgeu, execJr, execCexit,
    execPartialWaveTimeout, execQcnt, execAtsInvalidateCompletion, execLcp, execLcpNf, execLcs, execXsync, execGbar,
    execCyield, execLd8, execLd8z, execLd16, execLd16z, execLd32, execLd32z, execLd64, execSt8, execSt16, execSt32,
    execSt64, execVld, execVst, execVldx, execLdw32, execLdw64, execStw32, execStw64, execVldw, execAadd, execAand,
    execAor, execAxor, execAmin, execAmax, execAminu, execAmaxu, execAswp, execAcas, execAfadd, execAdecz, execFence,
    execVadd, execVsub, execVmul, execVmulh, execVmin, execVmax, execVminu, execVmaxu, execVand, execVor, execVxor,
    execVshl, execVshr, execVsar, execVadds, execVsubs, execVaddsu, execVsubsu, execVabs, execVneg, execVcmpeq,
    execVcmpne, execVcmplt, execVcmple, execVcmpltu, execVcmpleu, execVdot4, execVdot4u, execVli, execVaddi,
    execVshli, execVshri, execVmov, execVext, execFadd, execFsub, execFmul, execFmin, execFmax, execFabs, execFneg,
    execFcpsgn, execFcmpeq, execFcmplt, execFcmple, execFcmpun, execFclass, execFround, execFfma, execFfms, execFfnma,
    execFrcp, execFrsq, execFsqrt, execFexp2, execFlog2, execFsin, execFcos, execFdiv, execCvtdq, execLenboLinkDown,
    execPmap, execDbgctlDump, execDbgctlResume, execPowerOff, execPowerUp, execFundamentalReset,
    execFunctionLevelReset, execGetVersion, execGetCapabilities, execNegotiateAlgorithms, execGetDigests,
    execGetCertificate, execChallenge, execGetMeasurements, execWballot, execWany, execWall, execWshfl, execWshup,
    execWshdn, execWbfly, execWsum, execWmin, execWmax, execWscan, execTrap, execIllegalBundle]

theorem runAWord_wf (i : Instr) {s : State} (h : Memory.wf s.mem) : Result.wf (runAWord i s) := by
  obtain ⟨hi, e⟩ | e := runAWord_eq_exec i s
  · exact e ▸ exec_wf_of_replayIssue i h fun hr => absurd hr hi
  · simp [e, h]

theorem execReplayIssue_wf {s : State} (h : Memory.wf s.mem) : Result.wf (execReplayIssue s) := by
  simp only [execReplayIssue]
  split
  · exact (Result.wf_next s).2 h
  split
  · exact (Result.wf_next s).2 h
  split
  · simp [h]
  split
  · simp [h]
  next i _ =>
  split_ifs
  · simp [h]
  · simp [h]
  · simp [h]
  · simp [h]
  split
  · next e =>
    have ht := runAWord_wf i (by exact h) _ e
    split <;> simpa using ht
  · exact runAWord_wf i h

@[simp] theorem exec_wf (i : Instr) {s : State} (h : Memory.wf s.mem) : Result.wf (exec i s) :=
  exec_wf_of_replayIssue i h fun _ => execReplayIssue_wf h

end Sys2Proof.Machine
end

section
/-! The operations of Machine/Supervisor.lean keep memory in its canonical form (R9). -/

namespace Sys2Proof.Machine

@[simp] theorem State.scratch_mem (s : State) : (s.scratch).mem = s.mem := rfl

@[simp] theorem State.supervisorReport_mem (s : State) (status : Cause) : (s.supervisorReport status).mem = s.mem := by
  simp [State.supervisorReport]

@[simp] theorem State.bootCopy_wf {s : State} (l : Launch) (h : Memory.wf s.mem) : Memory.wf (s.bootCopy l).mem := by
  simp [State.bootCopy, h]

@[simp] theorem State.supervisorStart_wf {s : State} (h : Memory.wf s.mem) : Memory.wf s.supervisorStart.mem := by
  simp only [State.supervisorStart]
  split <;> simp [h]

@[simp] theorem State.supervise_wf {s : State} (h : Memory.wf s.mem) : Memory.wf s.supervise.mem := by
  simp [State.supervise, h]

end Sys2Proof.Machine
end

section
/-! The operations of Machine/Sched.lean keep memory in its canonical form (R9). -/

namespace Sys2Proof.Machine

@[simp] theorem State.pick_mem (s : State) : s.pick.2.mem = s.mem := by
  simp only [State.pick]
  repeat' split
  all_goals simp

@[simp] theorem State.atAWord_mem (s : State) (x : Context) : (s.atAWord x).mem = s.mem := rfl

@[simp] theorem State.runPair_wf {s : State} (c : Instr) (a : Instr) (h : Memory.wf s.mem) : Result.wf (s.runPair c a) := by
  grind [State.runPair, Result.wf, exec_wf, State.atAWord_mem, State.stall_mem]

@[simp] theorem State.runBundle_wf {s : State} (b : Bundle) (h : Memory.wf s.mem) : Result.wf (s.runBundle b) := by
  simp only [State.runBundle]
  split <;> simp [h]

@[simp] theorem State.runBad_wf {s : State} (b : BadBundle) (h : Memory.wf s.mem) : Result.wf (s.runBad b) := by
  simp only [State.runBad]
  split <;> simp [h]

@[simp] theorem State.latch_mem (s : State) (n : Nat) (c : Fin 11) (size : Off) : (s.latch n c size).mem = s.mem := rfl

@[simp] theorem State.tryBundle_wf {s : State} (n : Nat) (c : Fin 11) (b : Bundle) (h : Memory.wf s.mem) :
    Result.wf (s.tryBundle n c b) := by
  simp only [State.tryBundle]
  repeat' split
  all_goals simp [h]

@[simp] theorem State.replayAlone_wf {s : State} (n : Nat) (c : Fin 11) (h : Memory.wf s.mem) :
    Result.wf (s.replayAlone n c) := by
  simp [State.replayAlone, h]

@[simp] theorem State.replayStep_wf {s : State} (n : Nat) (c : Fin 11) (h : Memory.wf s.mem) :
    Result.wf (s.replayStep n c) := by
  have ha : Result.wf (s.replayAlone n c) := State.replayAlone_wf n c h
  simp only [State.replayStep]
  split
  · exact ha
  split
  · split <;> simp [h, ha]
  split
  · split <;> simp [h, ha]
  next i _ _ =>
  have hi : Result.wf (exec i (s.latch n c 4)) := exec_wf i (by simpa using h)
  split
  · split <;> simp [h, ha]
  split
  next t e =>
    have ht := hi t e
    split_ifs
    · simpa using ht
    · exact ha
    · simpa using ht
    · have hr := exec_wf .replayIssue (s := { t with cur.snap := some (s.core n).ctxs[c] }) ht
      split
      next e => split <;> simp [ht, hr _ e]
      · exact hr
  · exact hi

@[simp] theorem State.finish_wf {s : State} (captured : Option (BitVec 32)) (step : Bool) (old : Context) (quiet : Bool)
    (h : Memory.wf s.mem) :
    Memory.wf (s.finish captured step old quiet).mem := by
  simp [State.finish, h]

@[simp] theorem State.attempt_wf {s : State} (n : Nat) (c : Fin 11) (h : Memory.wf s.mem) : Result.wf (s.attempt n c) := by
  grind [State.attempt, Result.wf, State.finish_wf, State.modCore_mem, State.latch_mem, State.faultOpen_wf,
    State.supervise_wf, State.replayStep_wf, State.runBad_wf, State.tryBundle_wf]

@[simp] theorem watched_wf {r : Result} (h : Result.wf r) : Result.wf (watched r) := by
  cases r with
  | next t => simpa [watched] using h
  | fault e => simp [watched]
  | refused e => simp [watched]

@[simp] theorem State.tick_mem (s : State) : (s.tick).mem = s.mem := rfl

@[simp] theorem State.atTime_wf {s : State} (now : Nat) {other : Result} (h : Memory.wf s.mem) (ho : Result.wf other) :
    Result.wf (s.atTime now other) := by
  simp only [State.atTime]
  split
  · exact ho
  · split
    · exact exec_wf _ h
    · exact ho

@[simp] theorem State.endTick_wf {s : State} (h : Memory.wf s.mem) : Result.wf (s.endTick) := by
  simp [State.endTick, h]

@[simp] theorem State.issue_wf {s : State} (h : Memory.wf s.mem) : Result.wf s.issue := by
  refine State.atTime_wf _ h ?_
  split
  · simp [h]
  · split <;> simp [h]

end Sys2Proof.Machine
end

section
/-! The operations of Machine/Step.lean keep memory in its canonical form (R9). -/

namespace Sys2Proof.Machine

@[simp] theorem step_wf {s : State} (h : Memory.wf s.mem) : Result.wf (step s) := by
  grind [step, Result.wf, State.pick_mem, watched_wf, exec_wf, State.issue_wf, State.tick_mem]

end Sys2Proof.Machine
end

section
namespace Sys2Proof.Machine

/-- Settles O60: a step is one operation or one issue, and each keeps the canonical form. -/
theorem stepKeepsMemory : Obligations.StepKeepsMemory := by
  unfold Obligations.StepKeepsMemory
  intro s t h e
  exact step_wf h t e

end Sys2Proof.Machine
end

section
/-! PROOFS. Reading, writing and exchanging K-registers (R21 to R29). A write of a register of the core or of a context as one
equation over its fields; what the contexts read ahead before a segment changes; what a write leaves; the value it writes; and
then the accesses and their refusals. -/

namespace Sys2Proof.Machine
set_option Elab.async false

theorem Core.kwrite_eq (e : Core) (n : Nat) (v : Word) : e.kwrite n v = { e with
    kseg := (((e.kseg.set 0 (if n = 0x41 then v &&& ksegMask else e.kseg[0])).set
      1 (if n = 0x42 then v &&& ksegMask else e.kseg[1])).set 2 (if n = 0x43 then v &&& ksegMask else e.kseg[2])).set
      3 (if n = 0x44 then v &&& ksegMask else e.kseg[3])
    kwtmo := if n = 0x46 then v.setWidth 16 else e.kwtmo
    kstvec := if n = 0x80 then v &&& 0xFFC else e.kstvec
    kbrine := if n = 0x82 then (e.kbrine &&& ~~~0xFF00) ||| (v &&& 0xFF00) else e.kbrine
    kerr := if n = 0x83 then kerrWrite e.kerr v else e.kerr
    klatent := if n = 0x86 ∧ v &&& 0xFFFFFFFF ≠ 0 then 0 else e.klatent } := by
  unfold Core.kwrite
  split
  case h_1 | h_2 | h_3 => simp; ext i _; grind
  case h_9 => split <;> simp_all
  all_goals simp_all

theorem Context.kwrite_eq (x : Context) (n : Nat) (v : Word) : x.kwrite n v = { x with
    k := { x.k with
      cause := if n = 0 then v &&& 0xCFFF else x.k.cause
      epc := if n = 1 then v &&& 0x1FFFF else x.k.epc
      addr := if n = 2 then v &&& 0x00FFFFFFFFFFFFFF else x.k.addr
      lres := if n = 3 then v &&& 0xF else x.k.lres
      lf := (((x.k.lf.set 0 (if n = 4 then v else x.k.lf[0])).set 1 (if n = 5 then v else x.k.lf[1])).set
        2 (if n = 6 then v else x.k.lf[2])).set 3 (if n = 7 then v else x.k.lf[3])
      spill := if n = 0xB then v &&& 0x1FFF8 else x.k.spill
      utvec := if n = 0xC then v &&& 0x1FFFC else x.k.utvec
      fpc := if n = 0xD then kfpcWrite x.k.fpc v else x.k.fpc
      seed := if n = 0xE then v else x.k.seed
      mshape := if n = 0xF then v &&& 0x8FFFFFFF else x.k.mshape
      sscr0 := if n = 0x84 then v else x.k.sscr0
      sscr1 := if n = 0x85 then v else x.k.sscr1 }
    f := { x.f with
      kmask := if n = 8 ∧ v &&& 0xF ≠ 0 then v.setWidth 4 else x.f.kmask
      kmsd := if n = 9 then BitVec.ofNat 6 (min 32 (v.extractLsb' 0 6).toNat) else x.f.kmsd
      spilled := if n = 0xA then v.extractLsb' 16 16 else x.f.spilled
      depth := if n = 0xA then BitVec.ofNat 4 (min 8 (v.extractLsb' 0 4).toNat) else x.f.depth }
    sstep := if n = 0x81 then bitOf v 3 else x.sstep
    pmode := if n = 0x81 then bitOf v 1 else x.pmode } := by
  unfold Context.kwrite
  split
  case h_5 | h_6 | h_7 => simp; ext i _; grind
  case h_9 => split <;> simp_all
  all_goals simp_all

theorem Core.latent_zero (e : Core) : e.latent 0 = e := by
  have h : min (2 ^ 32 - 1) (e.klatent.toNat + 0) = e.klatent.toNat := by omega
  rw [Core.latent, h, BitVec.ofNat_toNat, BitVec.setWidth_eq]

theorem State.kcycle_modCore (s : State) (N : Nat) (f : Core → Core) (h : (f (s.core N)).launch = (s.core N).launch) :
    (s.modCore N f).kcycle N = s.kcycle N := by
  simp only [State.kcycle, State.core_modCore, h]
  rfl

theorem State.kxslot_modCore (s : State) (N : Nat) (f : Core → Core) (h : (f (s.core N)).group = (s.core N).group) :
    (s.modCore N f).kxslot N = s.kxslot N := by
  simp only [State.kxslot, State.core_modCore, h]
  rfl

/-- A write of a core's K-register leaves every other one. -/
theorem State.kread_kwrite_core (s : State) (N : Nat) (c : Fin 11) {n m : Nat} (v : Word) (h : m ≠ n) :
    (s.modCore N fun e => e.kwrite n v).kread N c m = s.kread N c m := by
  have hc := s.kcycle_modCore N (fun e => e.kwrite n v) (by simp [Core.kwrite_eq])
  have hx := s.kxslot_modCore N (fun e => e.kwrite n v) (by simp [Core.kwrite_eq])
  simp only [State.kread, State.ctx, State.core_modCore, hc, hx]
  split <;> simp [h.symm, State.kcore, Core.kwrite_eq]

/-- A write of a context's K-register leaves every other one. -/
theorem State.kread_kwrite_ctx (s : State) (N : Nat) (c : Fin 11) {n m : Nat} (v : Word) (h : m ≠ n) :
    (s.modCtx N c fun x => x.kwrite n v).kread N c m = s.kread N c m := by
  have hc : (s.modCtx N c fun x => x.kwrite n v).kcycle N = s.kcycle N := s.kcycle_modCore N _ rfl
  have hx : (s.modCtx N c fun x => x.kwrite n v).kxslot N = s.kxslot N := s.kxslot_modCore N _ rfl
  have he : (s.modCtx N c fun x => x.kwrite n v).core N = (s.core N).modCtx c fun x => x.kwrite n v :=
    s.core_modCore N _
  simp only [State.kread, State.ctx_modCtx, he, hc, hx, Core.modCtx]
  split <;> simp [h.symm, State.kcore, Context.kmode, Context.krsd, Context.kwrite_eq]

theorem withBit_false_self {n : Nat} {x : BitVec n} {i : Nat} (h : bitOf x i = false) : withBit x i false = x := by
  refine BitVec.eq_of_getLsbD_eq fun j hj => ?_
  by_cases e : j = i
  · subst e
    exact (bitOf_withBit_same x j false hj).trans h.symm
  · exact bitOf_withBit_other x i j false e

/-- A write of an unmarked K-register of the core. -/
theorem State.kwrite_core {s : State} {n : Nat} (v : Word) (hb : s.kBad n = false) (hr : kReadOnly n = false)
    (hp : kPerCore n = true) : s.kwrite n v = s.modHere fun e => e.kwrite n v := by
  have hm : bitOf s.here.kMark n = false := by simpa [State.kBad, hp] using hb
  rw [State.kwrite, if_neg (by simp [hr]), if_pos hp]
  refine congrArg (s.setCore _) ?_
  change Core.latent { s.here.kwrite n v with kMark := withBit s.here.kMark n false } (if bitOf s.here.kMark n then 1 else 0) =
    s.here.kwrite n v
  rw [withBit_false_self hm, hm, Core.kwrite_eq]
  exact Core.latent_zero _

/-- A write of an unmarked K-register of the issuing context. -/
theorem State.kwrite_ctx {s : State} {n : Nat} (v : Word) (hb : s.kBad n = false) (hr : kReadOnly n = false)
    (hp : kPerCore n = false) : s.kwrite n v = s.modCx fun x => x.kwrite n v := by
  have hm : bitOf s.cx.k.mark n = false := by simpa [State.kBad, hp] using hb
  rw [State.kwrite, if_neg (by simp [hr]), if_neg (by simp [hp])]
  refine congrArg (s.setCore _) ?_
  change (s.here.modCtx s.cur.ctx fun x => { x.kwrite n v with k.mark := withBit (x.kwrite n v).k.mark n false }).latent
    (if bitOf s.cx.k.mark n then 1 else 0) = _
  rw [hm]
  refine (Core.latent_zero _).trans ?_
  have hx : ({ s.cx.kwrite n v with k.mark := withBit (s.cx.kwrite n v).k.mark n false } : Context) = s.cx.kwrite n v := by
    rw [Context.kwrite_eq, withBit_false_self hm]
  exact congrArg (fun x => s.here.modCtx s.cur.ctx fun _ => x) hx

/-- What a context that held `buf` in mode `super` may hold once it has read ahead (R29, R225). -/
def heldAhead (segs : Vector Word 4) (super : Bool) (buf new : List (Off × Nat × Nat)) : Prop :=
  new.length ≤ max 4 buf.length ∧
  ∀ b ∈ new, b ∈ buf ∨ segCheck segs super b.1.toNat (if isLone b.2.1 then 4 else 8) { x := true } = none

theorem heldAhead_refl (segs : Vector Word 4) (super : Bool) (buf : List (Off × Nat × Nat)) : heldAhead segs super buf buf :=
  ⟨le_max_right _ _, fun _ h => .inl h⟩

theorem State.readAhead_length (s : State) (n : Nat) (super : Bool) (buf : List (Off × Nat × Nat)) (i : Nat) (p : Off) :
    (s.readAhead n super buf i p).length ≤ i := by
  induction i generalizing p with
  | zero => exact Nat.le_refl 0
  | succ i ih =>
    rw [State.readAhead]
    exact iteInduction (motive := fun l : List (Off × Nat × Nat) => l.length ≤ i + 1)
      (fun _ => Nat.succ_le_succ (ih _)) fun _ => Nat.zero_le _

theorem State.readAhead_mem (s : State) (n : Nat) (super : Bool) (buf : List (Off × Nat × Nat)) (i : Nat) (p : Off) :
    ∀ b ∈ s.readAhead n super buf i p,
      b ∈ buf ∨ segCheck (s.core n).kseg super b.1.toNat (if isLone b.2.1 then 4 else 8) { x := true } = none := by
  induction i generalizing p with
  | zero => exact fun _ h => nomatch h
  | succ i ih =>
    rw [State.readAhead]
    refine iteInduction (motive := fun l : List (Off × Nat × Nat) => ∀ b ∈ l, b ∈ buf ∨
      segCheck (s.core n).kseg super b.1.toNat (if isLone b.2.1 then 4 else 8) { x := true } = none)
      (fun h => List.forall_mem_cons.2 ⟨?_, ih _⟩) fun _ _ h => nomatch h
    simpa using h

/-- Nothing changes but what the contexts of the issuing core hold fetched. -/
structure State.readOn (s t : State) : Prop where
  rest : t = { s with fresh := t.fresh, cores := t.cores }
  cores : ∀ n, n ≠ s.cur.core → t.core n = s.core n
  here : t.here = { s.here with ctxs := t.here.ctxs }
  ctxs : ∀ c : Fin 11, ∃ buf, t.here.ctxs[c] = { s.here.ctxs[c] with fbuf := buf } ∧
    heldAhead s.here.kseg s.here.ctxs[c].mode s.here.ctxs[c].fbuf buf

theorem State.readOn_refl (s : State) : s.readOn s :=
  ⟨rfl, fun _ _ => rfl, rfl, fun _ => ⟨_, rfl, heldAhead_refl ..⟩⟩

theorem heldAhead_trans {segs : Vector Word 4} {super : Bool} {a b c : List (Off × Nat × Nat)} (h : heldAhead segs super a b)
    (h' : heldAhead segs super b c) : heldAhead segs super a c := by
  refine ⟨h'.1.trans (max_le (le_max_left _ _) h.1), fun x hx => ?_⟩
  obtain hb | hs := h'.2 x hx
  · exact h.2 x hb
  · exact .inr hs

/-- One context more reads ahead. -/
theorem State.readOn_modCtx {s t : State} (h : s.readOn t) (c : Fin 11) (new : Context → List (Off × Nat × Nat)) (f : Nat)
    (hn : heldAhead t.here.kseg t.here.ctxs[c].mode t.here.ctxs[c].fbuf (new t.here.ctxs[c])) :
    s.readOn ({ t with fresh := f }.modCtx s.cur.core c fun x => { x with fbuf := new x }) := by
  obtain ⟨rest, cores, here, ctxs⟩ := h
  have hcur : t.cur = s.cur := by rw [rest]
  have hh : t.here = t.core s.cur.core := by rw [State.here, hcur]
  have hu : (({ t with fresh := f } : State).modCtx s.cur.core c fun x => { x with fbuf := new x }).here =
      t.here.modCtx c fun x => { x with fbuf := new x } := by
    change State.core _ t.cur.core = _
    rw [hcur, hh]
    exact State.core_modCore _ _ _
  refine ⟨?_, fun n hn => ?_, ?_, fun d => ?_⟩
  · rw [rest]; rfl
  · rw [← cores n hn]
    exact State.core_modCore_other _ _ _ _ hn
  · rw [hu, Core.modCtx, here]
  · rw [hu]
    obtain ⟨buf, hx, hb⟩ := ctxs d
    by_cases e : d = c
    · subst e
      rw [Core.ctxs_modCtx]
      rw [hx, here] at hn
      rw [hx]
      exact ⟨_, rfl, heldAhead_trans hb hn⟩
    · rw [Core.ctxs_modCtx_other _ _ _ _ e]
      exact ⟨buf, hx, hb⟩

theorem State.keepFetched_readOn (s : State) : s.readOn s.keepFetched := by
  refine List.foldlRecOn (motive := s.readOn) _ _ s.readOn_refl fun t h c _ => ?_
  have hh : t.here = t.core s.cur.core := by rw [State.here, h.rest]
  dsimp only
  split
  · refine State.readOn_modCtx h c _ (t.fresh + 1) ⟨?_, ?_⟩
    · refine (State.readAhead_length ..).trans (max_le (le_max_right _ _) (le_max_of_le_left ?_))
      have : Config.freeTurn t.fresh % 5 < 5 := Nat.mod_lt _ (by decide)
      exact Nat.le_of_lt_succ this
    · rw [hh]
      exact State.readAhead_mem t.freeNat.2 s.cur.core _ _ _ _
  · exact h

theorem State.kread_readOn {s t : State} (h : s.readOn t) (m : Nat) :
    t.kread s.cur.core s.cur.ctx m = s.kread s.cur.core s.cur.ctx m := by
  obtain ⟨rest, -, here, ctxs⟩ := h
  obtain ⟨buf, hx, -⟩ := ctxs s.cur.ctx
  have hh : t.core s.cur.core = t.here := by rw [State.here, rest]
  have hx : t.ctx s.cur.core s.cur.ctx = { s.here.ctxs[s.cur.ctx] with fbuf := buf } := by rw [State.ctx, hh]; exact hx
  have he : t.core s.cur.core = { s.here with ctxs := t.here.ctxs } := hh.trans here
  have hc : t.kcycle s.cur.core = s.kcycle s.cur.core := by
    rw [State.kcycle, he, rest]; rfl
  have hs : t.kxslot s.cur.core = s.kxslot s.cur.core := by
    rw [State.kxslot, he, rest]; rfl
  have hk : t.kcore s.cur.core = s.kcore s.cur.core := by rw [rest]; rfl
  simp only [State.kread, hx, he, hc, hs, hk]
  rfl

/-- What a write of K-register `n` leaves: every other K-register, memory, the PC, the vector and predicate registers, the
other cores, and of the other contexts of the core all but what they hold fetched. -/
structure State.wroteK (s t : State) (n : Nat) : Prop where
  cur : t.cur.core = s.cur.core ∧ t.cur.ctx = s.cur.ctx
  value : ∀ m, m ≠ n → t.kread s.cur.core s.cur.ctx m = s.kread s.cur.core s.cur.ctx m
  mem : t.mem = s.mem
  pc : t.cx.pc = s.cx.pc
  regs : t.cx.r = s.cx.r
  cores : ∀ c, c ≠ s.cur.core → t.core c = s.core c
  ctxs : ∀ c : Fin 11, c ≠ s.cur.ctx → ∃ buf, t.here.ctxs[c] = { s.here.ctxs[c] with fbuf := buf }
  fbuf : ∀ c : Fin 11, (n < 0x41 ∨ 0x44 < n → t.here.ctxs[c].fbuf = s.here.ctxs[c].fbuf) ∧
    heldAhead s.here.kseg s.here.ctxs[c].mode s.here.ctxs[c].fbuf t.here.ctxs[c].fbuf

theorem State.wroteK_refl (s : State) (n : Nat) : s.wroteK s n :=
  ⟨⟨rfl, rfl⟩, fun _ _ => rfl, rfl, rfl, rfl, fun _ _ => rfl, fun _ _ => ⟨_, rfl⟩,
    fun _ => ⟨fun _ => rfl, heldAhead_refl ..⟩⟩

/-- A write of a K-register of the core, after the contexts have read ahead where the register is a segment. -/
theorem State.wroteK_core {s u : State} (h : s.readOn u) {n : Nat} (hn : n < 0x41 ∨ 0x44 < n → u = s) (v : Word) :
    s.wroteK (u.modHere fun e => e.kwrite n v) n := by
  obtain ⟨f, cs, hu⟩ : ∃ f cs, u = { s with fresh := f, cores := cs } := ⟨_, _, h.rest⟩
  have hcur : u.cur = s.cur := by rw [hu]
  have hctx : (u.modHere fun e => e.kwrite n v).here.ctxs = u.here.ctxs := by rw [State.here_modHere, Core.kwrite_eq]
  have hcx : ∃ buf, (u.modHere fun e => e.kwrite n v).cx = { s.here.ctxs[s.cur.ctx] with fbuf := buf } := by
    obtain ⟨buf, hx, -⟩ := h.ctxs s.cur.ctx
    refine ⟨buf, hx ▸ ?_⟩
    rw [State.cx_modHere, Core.kwrite_eq]
    subst hu
    rfl
  obtain ⟨buf, hcx⟩ := hcx
  refine ⟨?_, fun m hm => ?_, ?_, ?_, ?_, fun c hc => ?_, fun c _ => ?_, fun c => ⟨fun hs => ?_, ?_⟩⟩
  · exact ⟨congrArg Cur.core hcur, congrArg Cur.ctx hcur⟩
  · rw [← State.kread_readOn h m, ← hcur]
    exact u.kread_kwrite_core _ _ _ hm
  · subst hu; rfl
  · rw [hcx]; rfl
  · rw [hcx]; rfl
  · rw [← h.cores c hc]
    exact State.core_modCore_other _ _ _ _ (hcur ▸ hc)
  · rw [hctx]
    exact (h.ctxs c).imp fun _ hb => hb.1
  · rw [hctx, hn hs]
  · rw [hctx]
    obtain ⟨buf, hb, ha⟩ := h.ctxs c
    rw [hb]; exact ha

/-- A write of a K-register of the issuing context. -/
theorem State.wroteK_ctx (s : State) (n : Nat) (v : Word) : s.wroteK (s.modCx fun x => x.kwrite n v) n := by
  have hother (c : Fin 11) (hc : c ≠ s.cur.ctx) : (s.modCx fun x => x.kwrite n v).here.ctxs[c] = s.here.ctxs[c] := by
    rw [State.here_modCx, Core.ctxs_modCtx_other _ _ _ _ hc]
  have hfbuf (c : Fin 11) : (s.modCx fun x => x.kwrite n v).here.ctxs[c].fbuf = s.here.ctxs[c].fbuf := by
    by_cases hc : c = s.cur.ctx
    · rw [hc, State.here_modCx, Core.ctxs_modCtx, Context.kwrite_eq]
    · rw [hother c hc]
  refine ⟨⟨rfl, rfl⟩, fun m hm => s.kread_kwrite_ctx _ _ _ hm, rfl, ?_, ?_, fun c hc => ?_,
    fun c hc => ⟨_, hother c hc⟩,
    fun c => ⟨fun _ => hfbuf c, ?_⟩⟩
  · rw [State.cx_modCx, Context.kwrite_eq]
  · rw [State.cx_modCx, Context.kwrite_eq]
  · exact State.core_modCore_other _ _ _ _ hc
  · rw [hfbuf]
    exact heldAhead_refl ..

/-- A mask of the `k` bits from `j` up. -/
theorem getLsbD_mask (k j i : Nat) (h : i < 64) :
    (BitVec.ofNat 64 ((2 ^ k - 1) * 2 ^ j)).getLsbD i = (decide (j ≤ i) && decide (i - j < k)) := by
  rw [BitVec.getLsbD_ofNat, Nat.testBit_mul_two_pow, Nat.testBit_two_pow_sub_one]
  simp [h]

theorem setWidth_setWidth_eq_and (v : Word) (k : Nat) :
    (v.setWidth k).setWidth 64 = v &&& BitVec.ofNat 64 ((2 ^ k - 1) * 2 ^ 0) := by
  refine BitVec.eq_of_getLsbD_eq fun i hi => ?_
  rw [BitVec.getLsbD_and, getLsbD_mask k 0 i hi]
  simp [hi, Bool.and_comm]

theorem and_mask_eq_zero (v : Word) (k j : Nat) (h : j + k ≤ 64) :
    v &&& BitVec.ofNat 64 ((2 ^ k - 1) * 2 ^ j) = 0 ↔ v.toNat / 2 ^ j % 2 ^ k = 0 := by
  have hx : (v.extractLsb' j k).toNat = v.toNat / 2 ^ j % 2 ^ k := by
    rw [BitVec.extractLsb'_toNat, Nat.shiftRight_eq_div_pow]
  rw [← hx]
  constructor
  · intro e
    have : v.extractLsb' j k = 0 := by
      refine BitVec.eq_of_getLsbD_eq fun i hi => ?_
      have := congrArg (BitVec.getLsbD · (j + i)) e
      simp only [BitVec.getLsbD_and, getLsbD_mask k j (j + i) (by omega)] at this
      simpa [hi] using this
    rw [this]; rfl
  · intro e
    have e : v.extractLsb' j k = 0 := BitVec.eq_of_toNat_eq e
    refine BitVec.eq_of_getLsbD_eq fun i hi => ?_
    rw [BitVec.getLsbD_and, getLsbD_mask k j i hi]
    by_cases hj : j ≤ i ∧ i - j < k
    · have := congrArg (BitVec.getLsbD · (i - j)) e
      simpa [hj, Nat.add_sub_cancel' hj.1] using this
    · simp; omega

theorem Context.krsd_eq (x : Context) : x.krsd = BitVec.ofNat 64 (x.f.depth.toNat + 2 ^ 16 * x.f.spilled.toNat) := by
  have hd := x.f.depth.isLt
  have hs := x.f.spilled.isLt
  refine BitVec.eq_of_toNat_eq ?_
  rw [Context.krsd, BitVec.toNat_or, BitVec.toNat_shiftLeft, BitVec.toNat_setWidth, BitVec.toNat_setWidth, BitVec.toNat_ofNat,
    Nat.add_comm, Nat.two_pow_add_eq_or_of_lt (by omega), Nat.shiftLeft_eq,
    Nat.or_mod_two_pow, Nat.mod_eq_of_lt (a := x.f.spilled.toNat) (by omega), Nat.mul_comm (2 ^ 16)]

theorem Context.kmode_eq (x : Context) : x.kmode = BitVec.ofNat 64 (x.mode.toNat + 2 * x.pmode.toNat + 8 * x.sstep.toNat) := by
  rw [Context.kmode]
  cases x.mode <;> cases x.pmode <;> cases x.sstep <;> rfl

theorem kfpcWrite_eq (old v : Word) :
    kfpcWrite old v = if v.toNat % 8 ≤ 4 then v &&& 0x1F37 else (v &&& 0x1F30) ||| (old &&& 7) := by
  have h : (v.extractLsb' 0 3).toNat = v.toNat % 8 := by simp
  rw [kfpcWrite, h]
  split <;> split <;> first | rfl | omega

theorem kerrWrite_eq (old v : Word) : kerrWrite old v = (old &&& ~~~(v &&& 0xFF)) &&&
    (if v.toNat / 2 ^ 32 % 2 ^ 16 = 0 then BitVec.allOnes 64 else ~~~0x0000FFFF00000000) := by
  have h := and_mask_eq_zero v 16 32 (by decide)
  rw [kerrWrite]
  by_cases e : v.toNat / 2 ^ 32 % 2 ^ 16 = 0
  · rw [if_pos e, BitVec.and_allOnes]
    exact if_pos (h.2 e)
  · rw [if_neg e]
    exact if_neg fun hz => e (h.1 hz)

/-- What a write of `v` leaves in a K-register that held `old` (R21, R24, R27, R432). -/
def kWritten (v old : Word) : List (Nat × Word) :=
  [(0x00, v &&& 0xCFFF), (0x01, v &&& 0x1FFFF), (0x02, v &&& 0x00FFFFFFFFFFFFFF),
   (0x03, v &&& 0xF), (0x04, v), (0x05, v), (0x06, v), (0x07, v), (0x08, if v &&& 0xF = 0 then old else v &&& 0xF),
   (0x09, BitVec.ofNat 64 (min 32 (v.toNat % 64))),
   (0x0A, BitVec.ofNat 64 (min 8 (v.toNat % 16) + 2 ^ 16 * (v.toNat / 2 ^ 16 % 2 ^ 16))),
   (0x0B, v &&& 0x1FFF8), (0x0C, v &&& 0x1FFFC),
   (0x0D, if v.toNat % 8 ≤ 4 then v &&& 0x1F37 else (v &&& 0x1F30 : Word) ||| (old &&& 7 : Word)), (0x0E, v),
   (0x0F, v &&& 0x8FFFFFFF), (0x41, v &&& 0x00000FFFFFFDFFFF), (0x42, v &&& 0x00000FFFFFFDFFFF),
   (0x43, v &&& 0x00000FFFFFFDFFFF), (0x44, v &&& 0x00000FFFFFFDFFFF), (0x46, v &&& 0xFFFF), (0x80, v &&& 0xFFC),
   (0x81, (v &&& 0xA : Word) ||| (old &&& 1 : Word)),
   (0x82, (old &&& ~~~0xFF00 : Word) ||| (v &&& 0xFF00 : Word)),
   (0x83, (old &&& ~~~(v &&& 0xFF) : Word) &&&
     (if v.toNat / 2 ^ 32 % 2 ^ 16 = 0 then BitVec.allOnes 64 else ~~~0x0000FFFF00000000)), (0x84, v), (0x85, v),
   (0x86, if v.toNat % 2 ^ 32 = 0 then old else 0)]

/-- KMODE after its write: MODE stays. -/
theorem Context.kmode_kwrite (x : Context) (v : Word) :
    (x.kwrite 0x81 v).kmode = (v &&& (0xA : Word)) ||| (x.kmode &&& (1 : Word)) := by
  have h : v &&& (0xA : Word) = (ofBool 64 (bitOf v 1) <<< 1) ||| (ofBool 64 (bitOf v 3) <<< 3) := by
    have hA : (0xA : Word) = BitVec.twoPow 64 1 ||| BitVec.twoPow 64 3 := by decide
    rw [hA, BitVec.and_or_distrib_left, BitVec.and_twoPow, BitVec.and_twoPow]
    unfold ofBool bitOf
    split <;> split <;> rfl
  rw [h]
  simp only [Context.kmode, Context.kwrite]
  cases x.mode <;> cases x.pmode <;> cases x.sstep <;> cases bitOf v 1 <;> cases bitOf v 3 <;> rfl

theorem State.kread_kwrite_same (s : State) (n : Nat) (v old : Word) (hb : s.kBad n = false)
    (ho : old = s.kread s.cur.core s.cur.ctx n) :
    ∀ p ∈ kWritten v old, p.1 = n → (s.kwrite n v).kread s.cur.core s.cur.ctx n = p.2 := by
  have ctx {k : Nat} {w : Word} (f : Context → Word)
      (hf : ∀ t : State, t.kread s.cur.core s.cur.ctx k = f (t.ctx s.cur.core s.cur.ctx))
      (hr : kReadOnly k = false) (hp : kPerCore k = false) (hw : old = f s.cx → f (s.cx.kwrite k v) = w) :
      k = n → (s.kwrite n v).kread s.cur.core s.cur.ctx n = w := by
    rintro rfl
    rw [State.kwrite_ctx v hb hr hp, hf]
    exact (congrArg f (State.ctx_modCtx ..)).trans (hw (ho.trans (hf s)))
  have core {k : Nat} {w : Word} (f : Core → Word) (hf : ∀ t : State, t.kread s.cur.core s.cur.ctx k = f (t.core s.cur.core))
      (hr : kReadOnly k = false) (hp : kPerCore k = true) (hw : old = f s.here → f (s.here.kwrite k v) = w) :
      k = n → (s.kwrite n v).kread s.cur.core s.cur.ctx n = w := by
    rintro rfl
    rw [State.kwrite_core v hb hr hp, hf]
    exact (congrArg f (State.core_modCore ..)).trans (hw (ho.trans (hf s)))
  simp only [kWritten, List.forall_mem_cons]
  refine ⟨ctx (·.k.cause) (fun _ => rfl) rfl rfl fun _ => rfl,
    ctx (·.k.epc) (fun _ => rfl) rfl rfl fun _ => rfl,
    ctx (·.k.addr) (fun _ => rfl) rfl rfl fun _ => rfl,
    ctx (·.k.lres) (fun _ => rfl) rfl rfl fun _ => rfl,
    ctx (·.k.lf[0]) (fun _ => rfl) rfl rfl fun _ => by simp [Context.kwrite],
    ctx (·.k.lf[1]) (fun _ => rfl) rfl rfl fun _ => by simp [Context.kwrite],
    ctx (·.k.lf[2]) (fun _ => rfl) rfl rfl fun _ => by simp [Context.kwrite],
    ctx (·.k.lf[3]) (fun _ => rfl) rfl rfl fun _ => by simp [Context.kwrite],
    ctx (·.f.kmask.setWidth 64) (fun _ => rfl) rfl rfl fun e => ?kmask,
    ctx (·.f.kmsd.setWidth 64) (fun _ => rfl) rfl rfl fun _ => ?kmsd,
    ctx Context.krsd (fun _ => rfl) rfl rfl fun _ => ?krsd,
    ctx (·.k.spill) (fun _ => rfl) rfl rfl fun _ => rfl,
    ctx (·.k.utvec) (fun _ => rfl) rfl rfl fun _ => rfl,
    ctx (·.k.fpc) (fun _ => rfl) rfl rfl fun e => e ▸ kfpcWrite_eq _ _,
    ctx (·.k.seed) (fun _ => rfl) rfl rfl fun _ => rfl,
    ctx (·.k.mshape) (fun _ => rfl) rfl rfl fun _ => rfl,
    core (·.kseg[0]) (fun _ => rfl) rfl rfl fun _ => by simp [Core.kwrite, ksegMask],
    core (·.kseg[1]) (fun _ => rfl) rfl rfl fun _ => by simp [Core.kwrite, ksegMask],
    core (·.kseg[2]) (fun _ => rfl) rfl rfl fun _ => by simp [Core.kwrite, ksegMask],
    core (·.kseg[3]) (fun _ => rfl) rfl rfl fun _ => by simp [Core.kwrite, ksegMask],
    core (·.kwtmo.setWidth 64) (fun _ => rfl) rfl rfl fun _ => setWidth_setWidth_eq_and v 16,
    core (·.kstvec) (fun _ => rfl) rfl rfl fun _ => rfl,
    ctx Context.kmode (fun _ => rfl) rfl rfl fun e => e ▸ s.cx.kmode_kwrite v,
    core (·.kbrine) (fun _ => rfl) rfl rfl fun e => e ▸ rfl,
    core (·.kerr) (fun _ => rfl) rfl rfl fun e => e ▸ kerrWrite_eq _ _,
    ctx (·.k.sscr0) (fun _ => rfl) rfl rfl fun _ => rfl,
    ctx (·.k.sscr1) (fun _ => rfl) rfl rfl fun _ => rfl,
    core (·.klatent.setWidth 64) (fun _ => rfl) rfl rfl fun e => ?klatent, fun _ h => nomatch h⟩
  case kmask =>
    have h := setWidth_setWidth_eq_and v 4
    simp only [Context.kwrite]
    split
    · exact e.symm
    · exact h
  case kmsd =>
    have h : min 32 (v.toNat % 64) < 2 ^ 6 := by omega
    refine BitVec.eq_of_toNat_eq ?_
    simp only [Context.kwrite, BitVec.toNat_setWidth, BitVec.toNat_ofNat, BitVec.extractLsb'_toNat, Nat.shiftRight_zero]
    omega
  case krsd =>
    rw [Context.krsd_eq]
    simp only [Context.kwrite, BitVec.toNat_ofNat, BitVec.extractLsb'_toNat, Nat.shiftRight_eq_div_pow]
    congr 2
    omega
  case klatent =>
    have h : v &&& (0xFFFFFFFF : Word) = 0 ↔ v.toNat % 2 ^ 32 = 0 := by
      simpa using and_mask_eq_zero v 32 0 (by decide)
    simp only [Core.kwrite]
    by_cases hz : v.toNat % 2 ^ 32 = 0
    · rw [if_pos hz, if_pos (h.2 hz), e]
    · rw [if_neg hz, if_neg fun hv => hz (h.1 hv)]
      rfl

theorem State.kBad_readOn {s t : State} (h : s.readOn t) (n : Nat) : t.kBad n = s.kBad n := by
  obtain ⟨f, cs, ht⟩ : ∃ f cs, t = { s with fresh := f, cores := cs } := ⟨_, _, h.rest⟩
  obtain ⟨buf, hx, -⟩ := h.ctxs s.cur.ctx
  have hm : t.here.kMark = s.here.kMark := by rw [h.here]
  have hk : t.cx.k.mark = s.cx.k.mark := by
    have hc : t.cx = t.here.ctxs[s.cur.ctx] := by subst ht; rfl
    rw [hc, hx]; rfl
  rw [State.kBad, State.kBad, hm, hk]

/-- The state a write of K-register `n` starts from: the contexts have read ahead where it is a segment (R29). -/
def State.beforeK (s : State) (n : Nat) : State := if 0x41 ≤ n ∧ n ≤ 0x44 then s.keepFetched else s

theorem State.beforeK_readOn (s : State) (n : Nat) : s.readOn (s.beforeK n) := by
  rw [State.beforeK]
  split
  · exact s.keepFetched_readOn
  · exact s.readOn_refl

theorem State.beforeK_eq {s : State} {n : Nat} (h : n < 0x41 ∨ 0x44 < n) : s.beforeK n = s := if_neg (by omega)

theorem State.kwriteAs_user {s : State} {n : Nat} (v : Word) (hm : s.src.mode = false) (hp : kPerCore n = true) :
    s.kwriteAs n v = s := if_pos (by simp [hm, hp])

theorem State.kwriteAs_eq {s : State} {n : Nat} (v : Word) (h : s.src.mode = true ∨ kPerCore n = false) :
    s.kwriteAs n v = { (s.beforeK n).kwrite n v with cur.seedSet := (s.beforeK n).cur.seedSet || decide (n = 0x00E) } :=
  if_neg (by obtain h | h := h <;> simp [h])

theorem State.kwriteAs_wroteK {s : State} {n : Nat} (v : Word) (hb : s.kBad n = false) : s.wroteK (s.kwriteAs n v) n := by
  by_cases hu : s.src.mode = true ∨ kPerCore n = false
  · rw [State.kwriteAs_eq v hu]
    have hb' : (s.beforeK n).kBad n = false := (State.kBad_readOn (s.beforeK_readOn n) n).trans hb
    have hw : s.wroteK ((s.beforeK n).kwrite n v) n := by
      by_cases hr : kReadOnly n = true
      · have hn : n < 0x41 ∨ 0x44 < n := by simp [kReadOnly] at hr; omega
        rw [State.beforeK_eq hn, State.kwrite, if_pos hr]
        exact s.wroteK_refl n
      · by_cases hp : kPerCore n = true
        · rw [State.kwrite_core v hb' (by simpa using hr) hp]
          exact State.wroteK_core (s.beforeK_readOn n) State.beforeK_eq v
        · have hn : n < 0x41 ∨ 0x44 < n := by simp [kPerCore] at hp; omega
          rw [State.beforeK_eq hn, State.kwrite_ctx v hb (by simpa using hr) (by simpa using hp)]
          exact s.wroteK_ctx n v
    obtain ⟨cur, value, mem, pc, regs, cores, ctxs, fbuf⟩ := hw
    exact ⟨cur, value, mem, pc, regs, cores, ctxs, fbuf⟩
  · rw [State.kwriteAs_user v (by simpa using fun h => hu (.inl h)) (by simpa using fun h => hu (.inr h))]
    exact s.wroteK_refl n

theorem State.kread_kwriteAs_kept {s : State} {n : Nat} (v : Word)
    (hk : kReadOnly n = true ∨ (s.src.mode = false ∧ kPerCore n = true)) (m : Nat) :
    (s.kwriteAs n v).kread s.cur.core s.cur.ctx m = s.kread s.cur.core s.cur.ctx m := by
  obtain hr | ⟨hm, hp⟩ := hk
  · by_cases hu : s.src.mode = true ∨ kPerCore n = false
    · rw [State.kwriteAs_eq v hu, State.kwrite, if_pos hr]
      exact State.kread_readOn (s.beforeK_readOn n) m
    · rw [State.kwriteAs_user v (by simpa using fun h => hu (.inl h)) (by simpa using fun h => hu (.inr h))]
  · rw [State.kwriteAs_user v hm hp]

theorem State.kread_kwriteAs_written {s : State} {n : Nat} (v : Word) (hb : s.kBad n = false)
    (hu : s.src.mode = true ∨ kPerCore n = false) :
    ∀ p ∈ kWritten v (s.kread s.cur.core s.cur.ctx n), p.1 = n → (s.kwriteAs n v).kread s.cur.core s.cur.ctx n = p.2 := by
  have h := s.beforeK_readOn n
  have hcur : (s.beforeK n).cur = s.cur := by rw [h.rest]
  have hb' : (s.beforeK n).kBad n = false := (State.kBad_readOn h n).trans hb
  have ho := (State.kread_readOn h n).symm
  rw [State.kwriteAs_eq v hu]
  rw [← hcur] at ho ⊢
  exact State.kread_kwrite_same _ n v _ hb' ho

/-- A general register that carries no mark is written with nothing counted. -/
theorem Core.writeG_clean (e : Core) (c : Fin 11) (r : Fin 32) (x : Word) (h : e.ctxs[c].gBad r = false) :
    ∃ f : Regs → Regs, e.writeG c r x = e.modCtx c fun y => { y with r := f y.r } := by
  by_cases hr : r = 0
  · refine ⟨id, ?_⟩
    rw [Core.writeG, if_pos hr]
    change e = { e with ctxs := e.ctxs.set c e.ctxs[c] }
    rw [Fin.getElem_fin, Vector.set_getElem_self]
  · have hm : bitOf e.ctxs[c].r.gMark r = false := by simpa [Context.gBad, hr] using h
    refine ⟨fun y => { y with g := y.g.set r x, gMark := withBit y.gMark r false, gAt := y.gAt.set r e.epoch }, ?_⟩
    rw [Core.writeG, if_neg hr, hm]
    exact Core.latent_zero _

theorem State.kread_setG {t : State} {d : Fin 32} (x : Word) (h : t.cx.gBad d = false) (m : Nat) :
    (t.setG d x).kread t.cur.core t.cur.ctx m = t.kread t.cur.core t.cur.ctx m := by
  obtain ⟨f, hf⟩ := t.here.writeG_clean t.cur.ctx d x h
  have he : (t.setG d x).core t.cur.core = t.here.modCtx t.cur.ctx fun y => { y with r := f y.r } :=
    (State.core_modCore ..).trans hf
  have hx : (t.setG d x).ctx t.cur.core t.cur.ctx = { t.cx with r := f t.cx.r } := by
    rw [State.ctx, he]
    exact Core.ctxs_modCtx ..
  have hc : (t.setG d x).kcycle t.cur.core = t.kcycle t.cur.core := by rw [State.kcycle, he]; rfl
  have hs : (t.setG d x).kxslot t.cur.core = t.kxslot t.cur.core := by rw [State.kxslot, he]; rfl
  simp only [State.kread, hx, he, hc, hs, Core.modCtx]
  rfl

/-- What an access of K-register `n` leaves of everything else. -/
def State.kOthers (s : State) (n : Nat) (t : State) : Prop :=
  (∀ m, m ≠ n → t.kread s.cur.core s.cur.ctx m = s.kread s.cur.core s.cur.ctx m) ∧ t.mem = s.mem ∧ t.cx.pc = s.cx.pc ∧
  t.cx.r.v = s.cx.r.v ∧ t.cx.r.p = s.cx.r.p ∧ (∀ c, c ≠ s.cur.core → t.core c = s.core c) ∧
  (∀ c : Fin 11, c ≠ s.cur.ctx → ∃ buf, t.here.ctxs[c] = { s.here.ctxs[c] with fbuf := buf }) ∧
  ∀ c : Fin 11, (n < 0x41 ∨ 0x44 < n → t.here.ctxs[c].fbuf = s.here.ctxs[c].fbuf) ∧
    heldAhead s.here.kseg s.here.ctxs[c].mode s.here.ctxs[c].fbuf t.here.ctxs[c].fbuf

theorem State.kOthers_of_wroteK {s t : State} {n : Nat} (h : s.wroteK t n) : s.kOthers n t :=
  ⟨h.value, h.mem, h.pc, congrArg Regs.v h.regs, congrArg Regs.p h.regs, h.cores, h.ctxs, h.fbuf⟩

/-- The exchange: after the write, the general register takes the old value. -/
theorem State.kOthers_setG {s t : State} {n : Nat} (h : s.wroteK t n) {d : Fin 32} (x : Word) (hd : s.cx.gBad d = false) :
    s.kOthers n (t.setG d x) ∧ (∀ r, (t.setG d x).cx.g r = if r ≠ 0 ∧ r = d then x else s.cx.g r) ∧
    (t.setG d x).kread s.cur.core s.cur.ctx n = t.kread s.cur.core s.cur.ctx n := by
  obtain ⟨⟨hcore, hctx⟩, value, mem, pc, regs, cores, ctxs, fbuf⟩ := h
  have hd : t.cx.gBad d = false := by rw [Context.gBad, regs]; exact hd
  have hk (m : Nat) : (t.setG d x).kread s.cur.core s.cur.ctx m = t.kread s.cur.core s.cur.ctx m := by
    rw [← hcore, ← hctx]
    exact State.kread_setG x hd m
  have hg := t.setG_gotG d x false
  have hr : (t.setG d x).cx.pc = t.cx.pc := by rw [hg.regs]
  have hf (c : Fin 11) : (t.setG d x).here.ctxs[c].fbuf = t.here.ctxs[c].fbuf := by
    by_cases hc : c = t.cur.ctx
    · subst hc
      have hx : (t.setG d x).cx.fbuf = t.cx.fbuf := by rw [hg.regs]
      exact hx
    · rw [hg.ctxs c hc]
  refine ⟨⟨fun m hm => (hk m).trans (value m hm), ?_, hr.trans pc, ?_, ?_, fun c hc => ?_, fun c hc => ?_, fun c => ?_⟩,
    fun r => ?_, hk n⟩
  · exact (congrArg State.mem hg.rest).trans mem
  · rw [hg.vregs.1, regs]
  · rw [hg.pregs.1, regs]
  · rw [hg.cores c (hcore ▸ hc), cores c hc]
  · rw [hg.ctxs c (hctx ▸ hc)]
    exact ctxs c hc
  · rw [hf]
    exact fbuf c
  · by_cases e : r = d
    · subst e
      rw [hg.value]
      by_cases hz : r = 0 <;> simp [hz, Context.g]
    · rw [(hg.other r e).1, if_neg fun h => e h.2, Context.g, Context.g, regs]

theorem kAssigned_iff (n : Nat) :
    kAssigned n = true ↔ n ≤ 0x17 ∨ (0x40 ≤ n ∧ n ≤ 0x46) ∨ (0x80 ≤ n ∧ n ≤ 0x86) := by
  simp [kAssigned, or_assoc]

theorem kPerCore_iff (n : Nat) : kPerCore n = true ↔ (0x40 ≤ n ∧ n ≤ 0x46) ∨ n ∈ [0x80, 0x82, 0x83, 0x86] := by
  simp [kPerCore]

theorem kUserWrites_iff (n : Nat) : kUserWrites n = true ↔ n ∈ [0x03, 0x0B, 0x0C, 0x0D, 0x0E] := by
  simp [kUserWrites]

/-- An access that nothing refuses and that waits for no flags. -/
theorem State.kAccess_body {s : State} {k : BitVec 14} {write : Bool} {body : Nat → State} (ha : kAssigned k.toNat = true)
    (hp : s.src.mode = true ∨ (k.toNat < 0x80 ∧ (write = true → kPerCore k.toNat = true ∨ kUserWrites k.toNat = true)))
    (hf : k.toNat = 0x0D → s.flagsDue = false) : s.kAccess k write body = .next (body k.toNat) := by
  have hp : (!s.src.mode && (kSuper k.toNat || (write && !kPerCore k.toNat && !kUserWrites k.toNat))) = false := by
    obtain h | ⟨hn, hw⟩ := hp
    · simp [h]
    · cases write
      · simp [kSuper, Nat.not_le.2 hn]
      · obtain h | h := hw rfl <;> simp [kSuper, Nat.not_le.2 hn, h]
  rw [State.kAccess, ha, hp]
  refine congrArg Host.Outcome.next ?_
  rw [if_neg (by simp), if_neg (by simp), if_neg]
  rintro ⟨h, h'⟩
  rw [hf h] at h'
  cases h'

theorem State.faultOpen_tookTrap {s : State} (h : s.plain) (c : Cause) :
    s.tookTrap (s.faultOpen c) (s.faultCause c) s.cur.at_ (Config.freeAddr s.fresh &&& 0x00FFFFFFFFFFFFFF) := by
  obtain ⟨h1, h2, h3, h4, h5, h6, h7, h8, h9, h10, h11⟩ :=
    State.fault_tookTrap { s with fresh := s.fresh + 1 } c (Config.freeAddr s.fresh) h.1 h.2
  exact ⟨h1, h2, h3, h4, h5, h6, h7, h8, h9, h10, h11⟩

theorem State.kval_of_ne {s : State} {n : Nat} (h : n ≠ 0x16) : s.kval n = some (s.kread s.cur.core s.cur.ctx n, s) :=
  if_neg fun e => h e.1

/-- Without Brine, the clock is read as any other K-register. -/
theorem State.kval_of_level {s : State} {n : Nat} (h : s.here.brineLevel = 0) :
    s.kval n = some (s.kread s.cur.core s.cur.ctx n, s) :=
  if_neg fun e => by simp [h] at e

/-- Each K-register reads what the table of R21 says. -/
theorem State.kread_table (s : State) : ∀ p ∈ [((0x00 : Nat), s.cx.k.cause), (0x01, s.cx.k.epc), (0x02, s.cx.k.addr),
      (0x03, s.cx.k.lres), (0x04, s.cx.k.lf[0]), (0x05, s.cx.k.lf[1]), (0x06, s.cx.k.lf[2]), (0x07, s.cx.k.lf[3]),
      (0x08, s.cx.f.kmask.setWidth 64), (0x09, s.cx.f.kmsd.setWidth 64),
      (0x0A, BitVec.ofNat 64 (s.cx.f.depth.toNat + 2 ^ 16 * s.cx.f.spilled.toNat)), (0x0B, s.cx.k.spill),
      (0x0C, s.cx.k.utvec), (0x0D, s.cx.k.fpc), (0x0E, s.cx.k.seed), (0x0F, s.cx.k.mshape),
      (0x10, BitVec.ofNat 64 s.cur.ctx.val), (0x11, s.cx.k.lane), (0x12, s.cx.k.wave), (0x13, s.cx.k.group),
      (0x14, s.cx.k.pan), (0x15, s.cx.k.launch), (0x17, BitVec.ofNat 64 (s.group s.here.group).kxslot),
      (0x40, BitVec.ofNat 64 (s.mgmt.pkgnum.toNat * 2 ^ 32 +
        (s.cur.core / 256 / 64 * 2 + s.cur.core % 256 / 128) * 2 ^ 16 + s.cur.core)), (0x41, s.here.kseg[0]),
      (0x42, s.here.kseg[1]), (0x43, s.here.kseg[2]), (0x44, s.here.kseg[3]), (0x45, s.here.kxph.setWidth 64),
      (0x46, s.here.kwtmo.setWidth 64), (0x80, s.here.kstvec),
      (0x81, BitVec.ofNat 64 (s.cx.mode.toNat + 2 * s.cx.pmode.toNat + 8 * s.cx.sstep.toNat)), (0x82, s.here.kbrine),
      (0x83, s.here.kerr), (0x84, s.cx.k.sscr0), (0x85, s.cx.k.sscr1), (0x86, s.here.klatent.setWidth 64)],
    s.kread s.cur.core s.cur.ctx p.1 = p.2 := by
  simp only [List.forall_mem_cons]
  refine ⟨rfl, rfl, rfl, rfl, rfl, rfl, rfl, rfl, rfl, rfl, s.cx.krsd_eq, rfl, rfl, rfl, rfl, rfl, rfl, rfl, rfl, rfl, rfl, rfl,
    rfl, rfl, rfl, rfl, rfl, rfl, rfl, rfl, rfl, s.cx.kmode_eq, rfl, rfl, rfl, rfl, rfl, fun _ h => nomatch h⟩

theorem execKget_writesG {s : State} {d : Fin 32} {k : BitVec 14} (ha : kAssigned k.toNat = true)
    (hp : s.src.mode = true ∨ k.toNat < 0x80) (hf : k.toNat = 0x0D → s.flagsDue = false) (hb : s.kBad k.toNat = false)
    (hv : k.toNat ≠ 0x16 ∨ s.here.brineLevel = 0) :
    s.writesG (.kget d k) d (s.kread s.cur.core s.cur.ctx k.toNat) := by
  have hv : s.kval k.toNat = some (s.kread s.cur.core s.cur.ctx k.toNat, s) := hv.elim State.kval_of_ne State.kval_of_level
  have e : exec (.kget d k) s = execKget d k s := rfl
  refine ⟨_, ?_, s.setG_gotG d _ false⟩
  rw [e, execKget, State.kAccess_body ha (hp.imp_right fun h => ⟨h, by simp⟩) hf, hb, hv]
  rfl

theorem execKset_next {s : State} {d : Fin 32} {k : BitVec 14} (ha : kAssigned k.toNat = true)
    (hp : s.src.mode = true ∨ (k.toNat < 0x80 ∧ (kPerCore k.toNat = true ∨ kUserWrites k.toNat = true)))
    (hf : k.toNat = 0x0D → s.flagsDue = false) (hd : s.src.gBad d = false) :
    exec (.kset d k) s = .next (s.kwriteAs k.toNat (s.src.g d)) := by
  have e : exec (.kset d k) s = execKset d k s := rfl
  rw [e, execKset, State.kAccess_body ha (hp.imp_right fun h => ⟨h.1, fun _ => h.2⟩) hf, hd]
  rfl

theorem execKswp_next {s : State} {d : Fin 32} {k : BitVec 14} (ha : kAssigned k.toNat = true)
    (hp : s.src.mode = true ∨ (k.toNat < 0x80 ∧ (kPerCore k.toNat = true ∨ kUserWrites k.toNat = true)))
    (hf : k.toNat = 0x0D → s.flagsDue = false) (hn : k.toNat ≠ 0x16) (hb : s.kBad k.toNat = false)
    (hd : s.src.gBad d = false) :
    exec (.kswp d k) s =
      .next ((s.kwriteAs k.toNat (s.src.g d)).setG d (s.kread s.cur.core s.cur.ctx k.toNat)) := by
  have e : exec (.kswp d k) s = execKswp d k s := rfl
  rw [e, execKswp, State.kAccess_body ha (hp.imp_right fun h => ⟨h.1, fun _ => h.2⟩) hf, hd, hb, State.kval_of_ne hn]
  rfl

/-- A refused access traps, whatever it would have done. -/
theorem State.kAccess_faults {s : State} (h : s.plain) {i : Instr} {k : BitVec 14} {write : Bool} {body : Nat → State}
    (hi : exec i s = s.kAccess k write body) {c : Cause}
    (hc : s.kAccess k write body = .next (s.faultOpen c)) : ∃ addr, s.faults i c addr :=
  ⟨_, _, hi.trans hc, State.faultOpen_tookTrap h c⟩

theorem State.kAccess_unassigned {s : State} {k : BitVec 14} {write : Bool} {body : Nat → State}
    (h : kAssigned k.toNat = false) : s.kAccess k write body = .next (s.faultOpen Cause.illop) := by
  rw [State.kAccess, h]; rfl

theorem State.kAccess_denied {s : State} {k : BitVec 14} {write : Bool} {body : Nat → State} (ha : kAssigned k.toNat = true)
    (hm : s.src.mode = false)
    (hn : 0x80 ≤ k.toNat ∨ (write = true ∧ kPerCore k.toNat = false ∧ kUserWrites k.toNat = false)) :
    s.kAccess k write body = .next (s.faultOpen Cause.priv) := by
  have hp : (!s.src.mode && (kSuper k.toNat || (write && !kPerCore k.toNat && !kUserWrites k.toNat))) = true := by
    obtain h | ⟨hw, hc, hu⟩ := hn
    · simp [hm, kSuper, h]
    · simp [hm, hw, hc, hu]
  rw [State.kAccess, ha, hp]; rfl

theorem kReadOnly_of_fixed : ∀ n ∈ [(0x10 : Nat), 0x11, 0x12, 0x13, 0x14, 0x15, 0x17, 0x40, 0x45],
    kReadOnly n = true := by
  decide

/-- The debug word, noted on the core and in the management registers. -/
def State.withDbgWord (s : State) (w : Word) : State :=
  { s.modHere fun k => { k with dbgWord := w } with mgmt.dbgword := w }

theorem State.here_withDbgWord (s : State) (w : Word) : (s.withDbgWord w).here = { s.here with dbgWord := w } :=
  s.here_modHere fun k => { k with dbgWord := w }

theorem State.cx_withDbgWord (s : State) (w : Word) : (s.withDbgWord w).cx = s.cx :=
  s.cx_modHere fun k => { k with dbgWord := w }

theorem State.core_withDbgWord_other (s : State) (w : Word) {n : Nat} (h : n ≠ s.cur.core) :
    (s.withDbgWord w).core n = s.core n :=
  s.core_modCore_other _ _ (fun k => { k with dbgWord := w }) h

/-- The core is stopped for the debugger. -/
def State.withDbgHalt (s : State) : State :=
  { s.modHere fun k => { k with dbgHalt := true } with mgmt.dbghalted := true }

theorem State.here_withDbgHalt (s : State) : s.withDbgHalt.here = { s.here with dbgHalt := true } :=
  s.here_modHere fun k => { k with dbgHalt := true }

theorem State.cx_withDbgHalt (s : State) : s.withDbgHalt.cx = s.cx :=
  s.cx_modHere fun k => { k with dbgHalt := true }

theorem State.core_withDbgHalt_other (s : State) {n : Nat} (h : n ≠ s.cur.core) : s.withDbgHalt.core n = s.core n :=
  s.core_modCore_other _ _ (fun k => { k with dbgHalt := true }) h

theorem execDbg_next {s : State} {d : Fin 32} (hd : s.src.gBad d = false) : s.does (.dbg d) fun t =>
    t.here.dbgWord = s.src.g d ∧ t.mgmt.dbgword = s.src.g d ∧ t.mem = s.mem ∧ t.cx = s.cx ∧
    (s.mgmt.attach = true ∧ s.mgmt.dbgcore.toNat = s.cur.core → t.here.dbgHalt = true) ∧
    (¬ (s.mgmt.attach = true ∧ s.mgmt.dbgcore.toNat = s.cur.core) → t.here.dbgHalt = s.here.dbgHalt) ∧
    ∀ c, c ≠ s.cur.core → t.core c = s.core c := by
  have e : exec (.dbg d) s = .next (if s.mgmt.attach ∧ s.mgmt.dbgcore.toNat = s.cur.core then
      (s.withDbgWord (s.g d)).withDbgHalt else s.withDbgWord (s.g d)) :=
    s.scalar_clean _ [d] (by simpa [State.cleanG] using hd)
  have hh := s.here_withDbgWord (s.g d)
  have hx := s.cx_withDbgWord (s.g d)
  have ho (c : Nat) (hc : c ≠ s.cur.core) := s.core_withDbgWord_other (s.g d) hc
  by_cases h : s.mgmt.attach = true ∧ s.mgmt.dbgcore.toNat = s.cur.core
  · rw [if_pos h] at e
    have ht := (s.withDbgWord (s.g d)).here_withDbgHalt
    have hw : (s.withDbgWord (s.g d)).withDbgHalt.here.dbgWord = s.g d := by rw [ht, hh]
    have hs : (s.withDbgWord (s.g d)).withDbgHalt.here.dbgHalt = true := by rw [ht]
    exact ⟨_, e, hw, rfl, rfl, (State.cx_withDbgHalt _).trans hx, fun _ => hs, fun hn => absurd h hn,
      fun c hc => ((s.withDbgWord (s.g d)).core_withDbgHalt_other hc).trans (ho c hc)⟩
  · rw [if_neg h] at e
    have hw : (s.withDbgWord (s.g d)).here.dbgWord = s.g d := by rw [hh]
    have hs : (s.withDbgWord (s.g d)).here.dbgHalt = s.here.dbgHalt := by rw [hh]
    exact ⟨_, e, hw, rfl, rfl, hx, fun hy => absurd hy h, fun _ => hs, ho⟩

/-- Settles O43: a write is the equation of its register, the reads of all others stay, and what a context holds fetched it held
before or may fetch under the old segments. -/
theorem kRegisters : Obligations.KRegisters := by
  unfold Obligations.KRegisters
  intro s d k n v value old x assigned perCore userWrites mayRead mayWrite ready table written fixed others
  have ha : kAssigned n = true ↔ assigned := kAssigned_iff n
  have hc : kPerCore n = true ↔ perCore := kPerCore_iff n
  have hu : kUserWrites n = true ↔ userWrites := kUserWrites_iff n
  have hwrite (h : mayWrite) : s.src.mode = true ∨ (n < 0x80 ∧ (kPerCore n = true ∨ kUserWrites n = true)) := by
    rw [hc, hu]; exact h.2
  have hget : exec (.kget d k) s = execKget d k s := rfl
  have hset : exec (.kset d k) s = execKset d k s := rfl
  have hswp : exec (.kswp d k) s = execKswp d k s := rfl
  refine ⟨fun hr hy hb => ⟨?_, ?_⟩, fun l start hn hb hl hs ht => ?_, fun hw hy hb hd => ?_, fun hp hn => ?_,
    fun hp has hn => ?_, fun hp has hn => ?_, fun hd => execDbg_next hd⟩
  · exact execKget_writesG (ha.2 hr.1) hr.2 hy.2 hb (.inl hy.1)
  · intro p hp e
    change s.kread s.cur.core s.cur.ctx n = p.2
    rw [← e]
    exact s.kread_table p hp
  · have hk : s.kread s.cur.core s.cur.ctx k.toNat = Config.cyclesOf s.ticks - Config.cyclesOf start := by
      have h : k.toNat = 0x16 := hn
      rw [h]
      change Config.cyclesOf s.ticks - Config.cyclesOf (((s.launch? s.here.launch).bind Launch.startTick).getD 0) = _
      rw [hs, Option.bind_some, ht]; rfl
    rw [← hk]
    have hn : k.toNat = 0x16 := hn
    exact execKget_writesG (by rw [hn]; rfl) (.inr (by omega)) (fun h => by omega) hb (.inr hl)
  · intro keeps
    have hkeep : keeps → kReadOnly n = true ∨ (s.src.mode = false ∧ kPerCore n = true) :=
      Or.imp (kReadOnly_of_fixed n) fun h => ⟨h.1, hc.2 h.2⟩
    have hkeep' : ¬ keeps → s.src.mode = true ∨ kPerCore n = false := fun h =>
      (Bool.eq_false_or_eq_true s.src.mode).imp_right fun hm =>
        Bool.eq_false_iff.2 fun hp => h (.inr ⟨hm, hc.1 hp⟩)
    have hr := State.kwriteAs_wroteK v hb
    constructor
    · exact ⟨_, execKset_next (ha.2 hw.1) (hwrite hw) hy.2 hd, State.kOthers_of_wroteK hr, hr.regs,
        fun h => State.kread_kwriteAs_kept v (hkeep h) n, fun h => State.kread_kwriteAs_written v hb (hkeep' h)⟩
    · intro hg
      obtain ⟨ho, hgs, hval⟩ := State.kOthers_setG hr old hg
      exact ⟨_, execKswp_next (ha.2 hw.1) (hwrite hw) hy.2 hy.1 hb hd, ho, hgs,
        fun h => hval.trans (State.kread_kwriteAs_kept v (hkeep h) n),
        fun h p hp e => hval.trans (State.kread_kwriteAs_written v hb (hkeep' h) p hp e)⟩
  · have hn : kAssigned n = false := by simpa using fun h => hn (ha.1 h)
    simp only [List.forall_mem_cons]
    exact ⟨State.kAccess_faults hp hget (State.kAccess_unassigned hn),
      State.kAccess_faults hp hset (State.kAccess_unassigned hn),
      State.kAccess_faults hp hswp (State.kAccess_unassigned hn), fun _ h => nomatch h⟩
  · have hm : s.src.mode = false := by simpa using fun h => hn ⟨has, .inl h⟩
    have hs : 0x80 ≤ n := Nat.le_of_not_lt fun h => hn ⟨has, .inr h⟩
    have h {write : Bool} {body : Nat → State} := State.kAccess_denied (body := body) (write := write) (ha.2 has) hm (.inl hs)
    simp only [List.forall_mem_cons]
    exact ⟨State.kAccess_faults hp hget h, State.kAccess_faults hp hset h, State.kAccess_faults hp hswp h,
      fun _ h => nomatch h⟩
  · have hm : s.src.mode = false := by simpa using fun h => hn ⟨has, .inl h⟩
    have hs : 0x80 ≤ n ∨ (kPerCore n = false ∧ kUserWrites n = false) := by
      refine or_iff_not_imp_left.2 fun hs => ?_
      have hno (h : perCore ∨ userWrites) : False := hn ⟨has, .inr ⟨Nat.lt_of_not_le hs, h⟩⟩
      exact ⟨Bool.eq_false_iff.2 fun h => hno (.inl (hc.1 h)), Bool.eq_false_iff.2 fun h => hno (.inr (hu.1 h))⟩
    have h {body : Nat → State} := State.kAccess_denied (body := body) (write := true) (ha.2 has) hm
      (hs.imp_right fun h => ⟨rfl, h⟩)
    simp only [List.forall_mem_cons]
    exact ⟨State.kAccess_faults hp hset h, State.kAccess_faults hp hswp h, fun _ h => nomatch h⟩

end Sys2Proof.Machine
end

section
/-! PROOFS. What the host and the board do (R9, R308, R406 to R410, R446 to R452): registers by the fields their words are made
of; writes of device memory and the sectors they mark; the debugger, whose dumps and loads are stores of known length; and the
responder. -/

namespace Sys2Proof.Machine
set_option Elab.async false

/-! ### Registers -/

theorem bitsAt_eq_and (hi lo : Nat) (v : Word) :
    bitsAt hi lo v = v &&& BitVec.ofNat 64 ((2 ^ (hi + 1 - lo) - 1) * 2 ^ lo) := by
  refine BitVec.eq_of_getLsbD_eq fun i hi => ?_
  rw [bitsAt, BitVec.getLsbD_and, getLsbD_mask _ _ _ hi]
  by_cases h1 : i < lo
  · simp [hi, h1]
  · simp [hi, h1, Nat.add_sub_cancel' (Nat.le_of_not_lt h1)]
    grind

/-- A register with a base and a log has the bits of both. -/
theorem baseLog_eq_and (hi lo : Nat) (v : Word) :
    baseLog hi lo v = v &&& (BitVec.ofNat 64 ((2 ^ (hi + 1 - lo) - 1) * 2 ^ lo) ||| 0x1F) := by
  rw [baseLog, bitsAt_eq_and hi lo v, bitsAt_eq_and 4 0 v, BitVec.and_or_distrib_left]
  rfl

/-- An event posted once changes what waits, and nothing else. -/
theorem State.postOnce_eq (s : State) (op : Instr) (arg : EvArg) : ∃ l, s.postOnce op arg = { s with agenda := l } := by
  rw [State.postOnce]
  split
  · exact ⟨s.agenda, rfl⟩
  · exact ⟨_, rfl⟩

theorem State.wakeSweepers_eq (s : State) : ∃ l, s.wakeSweepers = { s with agenda := l } := by
  refine List.foldlRecOn (motive := fun t : State => ∃ l, t = { s with agenda := l }) _ _ ⟨s.agenda, rfl⟩ fun t h j _ => ?_
  obtain ⟨l, rfl⟩ := h
  obtain ⟨l', h'⟩ := State.postOnce_eq { s with agenda := l } .sweeperHalving { die := j }
  exact ⟨l', h'⟩

theorem State.channel_modChannel (s : State) (ch : Nat) (f : Channel → Channel) :
    (s.modChannel ch f).channel ch = f (s.channel ch) := by
  simp [State.modChannel, State.channel]

theorem execRegisterWrite_bar0 {s : State} (hp : s.power = .service) (h : s.ev.space = .bar0) :
    exec .registerWrite s = .next (s.writeBar0 s.ev.addr s.ev.value) := by
  have e : exec .registerWrite s = execRegisterWrite s := rfl
  have hs : s.serving = true := by simp [State.serving, hp]
  rw [e, execRegisterWrite, h]
  exact congrArg Host.Outcome.next (if_pos hs)

theorem execRegisterWrite_management {s : State} (hp : s.power ≠ .off) (h : s.ev.space = .management) :
    exec .registerWrite s = .next (s.writeMgmt s.ev.addr s.ev.value) := by
  have e : exec .registerWrite s = execRegisterWrite s := rfl
  rw [e, execRegisterWrite, h]
  exact congrArg Host.Outcome.next (if_neg hp)

theorem execRegisterWrite_flash {s : State} (hp : s.power ≠ .off) (h : s.ev.space = .flash) :
    exec .registerWrite s = .next { s with flashNext := some s.ev.flash } := by
  have e : exec .registerWrite s = execRegisterWrite s := rfl
  rw [e, execRegisterWrite, h]
  exact congrArg Host.Outcome.next (if_neg hp)

/-- The offset of a channel's register, taken apart. -/
theorem channel_offset {ch o : Nat} (hc : ch < 64) (ho : o < 4096) :
    (0x100000 ≤ 0x100000 + 4096 * ch + o ∧ 0x100000 + 4096 * ch + o < 0x140000) ∧
    (0x100000 + 4096 * ch + o - 0x100000) / 4096 = ch ∧ (0x100000 + 4096 * ch + o) % 4096 = o := by
  omega

theorem State.writeBar0_channel (s : State) {ch o : Nat} (hc : ch < 64) (ho : o < 4096) (v : Word) :
    s.writeBar0 (0x100000 + 4096 * ch + o) v = s.writeChannel ch o v := by
  obtain ⟨h, hd, hm⟩ := channel_offset hc ho
  exact (if_pos h).trans (by rw [hd, hm])

theorem State.readBar0_channel {s : State} (hp : s.power = .service) {ch o : Nat} (hc : ch < 64) (ho : o < 4096) :
    s.readBar0 (0x100000 + 4096 * ch + o) = (s.channel ch).read o := by
  obtain ⟨h, hd, hm⟩ := channel_offset hc ho
  have hs : s.serving = true := by simp [State.serving, hp]
  exact (if_neg (by simp [hs])).trans ((if_pos h).trans (by rw [hd, hm]))

theorem State.writePtab (s : State) (v : Word) : ∃ l, s.writeBar0 0x1000 v = { s with
    agenda := l
    hostRegs := { s.hostRegs with
      ptab := (v &&& 0x000FFFFFFFFFF000 : Word) ||| BitVec.ofNat 64 (min 20 (v.toNat % 32)) } } := by
  obtain ⟨l, h⟩ := State.wakeSweepers_eq { s with
    hostRegs.ptab := bitsAt 51 12 v ||| BitVec.ofNat 64 (min 20 (v.extractLsb' 0 5).toNat) }
  refine ⟨l, h.trans ?_⟩
  rw [bitsAt_eq_and 51 12 v, BitVec.extractLsb'_toNat, Nat.shiftRight_zero]
  rfl

theorem State.writeSpbase {s : State} (h : s.saves = []) (v : Word) :
    s.writeBar0 0x1008 v = { s with hostRegs := { s.hostRegs with spbase := v &&& 0x000FFFFFFFFC0000 } } := by
  refine (if_pos h).trans ?_
  rw [bitsAt_eq_and 51 18 v]
  rfl

theorem State.writePagbase {s : State} (h : (s.rays.any s.atAgent) = false) (v : Word) :
    s.writeBar0 0x1030 v = { s with hostRegs := { s.hostRegs with pagbase := v &&& 0x000FFFFFFFF0001F } } := by
  refine (if_pos (show (!s.rays.any s.atAgent) = true by rw [h]; rfl)).trans ?_
  rw [baseLog_eq_and 51 20 v]
  rfl

theorem State.writeChannel_cfg (s : State) (ch : Nat) (v : Word) : ∃ l, s.writeChannel ch 0x08 v = { s with
    agenda := l, channels := (s.modChannel ch fun c => { c with cfg := v &&& 0x037FFFFF }).channels } := by
  rw [State.writeChannel]
  split
  · obtain ⟨l, h⟩ := (s.modChannel ch fun c => { c with cfg := v &&& 0x037FFFFF }).postOnce_eq .launchValidate
      { source := .channel ch }
    exact ⟨l, h⟩
  · exact ⟨s.agenda, rfl⟩

theorem State.writeChannel_rrbase (s : State) (ch : Nat) (v : Word) :
    s.writeChannel ch 0x18 v = s.modChannel ch fun c => { c with rrbase := v &&& 0x00FFFFFFFFFFF01F } := by
  change (s.modChannel ch fun c => { c with rrbase := baseLog 55 12 v }) = _
  rw [baseLog_eq_and 55 12 v]
  rfl

theorem hostWritesBar0 {s : State} (hp : s.power = .service) (h : s.ev.space = .bar0) :
    (s.ev.addr = 0x1000 → s.does .registerWrite fun t => (t.mem = s.mem ∧ t.cores = s.cores) ∧
      t.hostRegs = { s.hostRegs with
        ptab := (s.ev.value &&& 0x000FFFFFFFFFF000 : Word) ||| BitVec.ofNat 64 (min 20 (s.ev.value.toNat % 32)) }) ∧
    (∀ ch, ch < 64 → s.ev.addr = 0x100000 + 4096 * ch + 0x08 → s.does .registerWrite fun t =>
      (t.mem = s.mem ∧ t.cores = s.cores) ∧ t.channel ch = { s.channel ch with cfg := s.ev.value &&& 0x037FFFFF }) := by
  have e := execRegisterWrite_bar0 hp h
  refine ⟨fun ha => ?_, fun ch hc ha => ?_⟩
  · obtain ⟨l, hw⟩ := s.writePtab s.ev.value
    rw [ha, hw] at e
    exact ⟨_, e, ⟨rfl, rfl⟩, rfl⟩
  · obtain ⟨l, hw⟩ := s.writeChannel_cfg ch s.ev.value
    rw [ha, s.writeBar0_channel hc (by omega), hw] at e
    exact ⟨_, e, ⟨rfl, rfl⟩, s.channel_modChannel ch fun c => { c with cfg := s.ev.value &&& 0x037FFFFF }⟩

theorem State.readBar0_off {s : State} (h : s.power ≠ .service) (a : Nat) : s.readBar0 a = 0 :=
  if_pos (by simp [State.serving, h])

theorem State.readBar0_unlisted (s : State) {a : Nat} (h : a < 0x1000 ∨ 0x1040 ≤ a ∧ a < 0x100000 ∨ 0x140000 ≤ a) :
    s.readBar0 a = 0 := by
  unfold State.readBar0
  split
  · rfl
  · rw [if_neg (by omega)]
    split
    case h_9 => rfl
    all_goals omega

@[simp] theorem ofBool_getElem (b : Bool) (i : Nat) (h : i < 64) : (ofBool 64 b)[i] = (b && decide (i = 0)) := by
  cases b <;> simp [ofBool, BitVec.getElem_one]

/-- A word below `2 ^ n` under a field at bit `n` leaves the field. -/
theorem extractLsb'_shiftLeft_or {k n : Nat} (x : BitVec k) (y : Word) (h : n + k ≤ 64) (hy : y.toNat < 2 ^ n) :
    ((x.setWidth 64 <<< n) ||| y).extractLsb' n k = x := by
  refine BitVec.eq_of_getLsbD_eq fun i hi => ?_
  have hy : y.getLsbD (n + i) = false := Nat.testBit_lt_two_pow (hy.trans_le (Nat.pow_le_pow_right (by omega) (by omega)))
  have hn : n + i < 64 := by omega
  have hi' : i < 64 := by omega
  rw [BitVec.getLsbD_extractLsb', BitVec.getLsbD_or, hy, BitVec.getLsbD_shiftLeft]
  simp [hi, hn, hi']

/-- A field at bit `n` leaves the word under it. -/
theorem setWidth_shiftLeft_or {w n : Nat} (x y : Word) (h : w ≤ n) : ((x <<< n) ||| y).setWidth w = y.setWidth w := by
  refine BitVec.eq_of_getLsbD_eq fun i hi => ?_
  have hn : i < n := by omega
  simp [hi, hn]

theorem or_toNat_lt {n : Nat} {x y : Word} (hx : x.toNat < 2 ^ n) (hy : y.toNat < 2 ^ n) : (x ||| y).toNat < 2 ^ n := by
  rw [BitVec.toNat_or]
  exact Nat.or_lt_two_pow hx hy

/-- A field at bit `n`, a flag at bit `a` and a number under it, read back. -/
theorem packed_fields {k n a : Nat} (x : BitVec k) (b : Bool) (c : Nat) (hn : n + k ≤ 64) (ha : a < n) (hc : c < 2 ^ a) :
    let w : Word := (x.setWidth 64 <<< n) ||| (ofBool 64 b <<< a) ||| BitVec.ofNat 64 c
    w.extractLsb' n k = x ∧ w.getLsbD a = b ∧ ∀ m, m ≤ a → (w.setWidth m).toNat = c % 2 ^ m := by
  intro w
  have hw : w = (x.setWidth 64 <<< n) ||| ((ofBool 64 b <<< a) ||| BitVec.ofNat 64 c) := BitVec.or_assoc ..
  have h64 : (2 : Nat) ^ n ≤ 2 ^ 64 := Nat.pow_le_pow_right (by omega) (by omega)
  have han : (2 : Nat) ^ (a + 1) ≤ 2 ^ n := Nat.pow_le_pow_right (by omega) ha
  have hcn : (BitVec.ofNat 64 c).toNat = c := by
    rw [BitVec.toNat_ofNat]
    omega
  have hb : (ofBool 64 b <<< a).toNat < 2 ^ n := by
    cases b
    · simp [ofBool]
    · rw [ofBool, if_pos rfl, BitVec.toNat_shiftLeft, Nat.shiftLeft_eq]
      exact (Nat.mod_le _ _).trans_lt (by simpa using (show 2 ^ a < 2 ^ n by omega))
  rw [hw]
  refine ⟨extractLsb'_shiftLeft_or _ _ hn (or_toNat_lt hb (by omega)), ?_, fun m hm => ?_⟩
  · have hca : (BitVec.ofNat 64 c).getLsbD a = false := Nat.testBit_lt_two_pow (by rwa [hcn])
    have ha64 : a < 64 := by omega
    rw [BitVec.getLsbD_or, BitVec.getLsbD_or, hca]
    simp [ha, ha64]
  · rw [setWidth_shiftLeft_or _ _ (by omega), setWidth_shiftLeft_or _ _ hm, BitVec.toNat_setWidth, hcn]

/-- The status word of a channel holds the lost reports, the overflow and the count of its FIFO. -/
theorem Channel.read_status (c : Channel) :
    (c.read 0x10).extractLsb' 32 16 = c.rlost ∧ (c.read 0x10).getLsbD 16 = c.ovf ∧
      ((c.read 0x10).extractLsb' 0 16).toNat = min 256 c.fifo.length := by
  obtain ⟨hl, ho, hc⟩ := packed_fields (n := 32) (a := 16) c.rlost c.ovf (min 256 c.fifo.length) (by omega)
    (by omega) (by omega)
  refine ⟨hl, ho, ?_⟩
  rw [← BitVec.setWidth_eq_extractLsb' (by omega)]
  exact (hc 16 (by omega)).trans (Nat.mod_eq_of_lt (by omega))

theorem State.readMgmt_status (s : State) :
    (s.readMgmt 0).getLsbD 0 = s.mgmt.ready ∧ (s.readMgmt 0).getLsbD 1 = s.mgmt.bootFail ∧
    (s.readMgmt 0).getLsbD 8 = s.mgmt.repairFail ∧ (s.readMgmt 0).getLsbD 20 = s.mgmt.fatal := by
  have h : s.readMgmt 0 = (ofBool 64 s.mgmt.fatal <<< 20) ||| (s.mgmt.therm.setWidth 64 <<< 16) |||
    (ofBool 64 s.mgmt.repairFail <<< 8) ||| (s.mgmt.stage.setWidth 64 <<< 4) ||| (ofBool 64 s.mgmt.bootFail <<< 1) |||
    ofBool 64 s.mgmt.ready := rfl
  rw [h]
  simp

theorem State.readMgmt_errtail (s : State) :
    (s.readMgmt 0x18).setWidth 32 = s.mgmt.errtail ∧ (s.readMgmt 0x18).extractLsb' 48 16 = s.mgmt.lost := by
  have h : s.readMgmt 0x18 = (s.mgmt.lost.setWidth 64 <<< 48) ||| s.mgmt.errtail.setWidth 64 := rfl
  have hlt : (s.mgmt.errtail.setWidth 64).toNat < 2 ^ 48 := by
    rw [BitVec.toNat_setWidth]
    omega
  rw [h]
  exact ⟨(setWidth_shiftLeft_or _ _ (by omega)).trans (by simp), extractLsb'_shiftLeft_or _ _ (by omega) hlt⟩

theorem State.readMgmt_dbgctl (s : State) :
    (s.readMgmt 0x50).getLsbD 3 = s.mgmt.dbghalted ∧ ((s.readMgmt 0x50).setWidth 3 : BitVec 3) = 0 ∧
      (s.readMgmt 0x50).getLsbD 4 = false := by
  have h : s.readMgmt 0x50 = (s.mgmt.dbgslot.setWidth 64 <<< 16) ||| (ofBool 64 s.mgmt.dbghalted <<< 3) := rfl
  rw [h]
  refine ⟨by simp, (setWidth_shiftLeft_or _ _ (by omega)).trans ?_, by simp⟩
  cases s.mgmt.dbghalted <;> rfl

theorem State.readMgmt_tmax (s : State) : (s.readMgmt 0x60).setWidth 8 = s.mgmt.tmax := by
  have h : s.readMgmt 0x60 = (s.mgmt.ttrip.setWidth 64 <<< 16) ||| (s.mgmt.twarn.setWidth 64 <<< 8) |||
    s.mgmt.tmax.setWidth 64 := rfl
  rw [h, BitVec.or_assoc, setWidth_shiftLeft_or _ _ (by omega), setWidth_shiftLeft_or _ _ (by omega)]
  simp

theorem State.readMgmt_unlisted (s : State) {a : Nat} (h : 0x180 ≤ a) : s.readMgmt a = 0 := by
  unfold State.readMgmt
  rw [if_neg (by omega), if_neg (by omega)]
  split
  case h_14 => rfl
  all_goals omega

theorem State.readMgmt_port (s : State) {j : Nat} (hj : j < 16) : s.readMgmt (0x100 + 8 * j) = (s.lenbo.port j).lnk := by
  have e : (0x100 + 8 * j - 0x100) / 8 = j := by omega
  refine (if_neg (by omega)).trans ((if_pos (by omega)).trans ?_)
  rw [e]

theorem LenboPort.lnk_fields (q : LenboPort) :
    q.lnk.extractLsb' 16 16 = q.retrain ∧ q.lnk.getLsbD 8 = q.up ∧
      (q.width < 16 → (q.lnk.setWidth 4 : BitVec 4).toNat = q.width) := by
  obtain ⟨hr, hu, hw⟩ := packed_fields (n := 16) (a := 8) q.retrain q.up (q.req % 16 * 16 + q.width % 16)
    (by omega) (by omega) (by omega)
  exact ⟨hr, hu, fun h => (hw 4 (by omega)).trans (by omega)⟩

/-! ### Device memory -/

theorem mem_addSector {k x : Nat} (l : List Nat) : x ∈ addSector k l ↔ x = k ∨ x ∈ l := by
  induction l with
  | nil => simp [addSector]
  | cons a l ih =>
    rw [addSector]
    split
    · simp
    · split <;> simp_all; tauto

theorem State.poisoned_setPoison (s : State) (a b : Nat) :
    (s.setPoison a).poisoned b = (decide (sectorOf b = sectorOf a) || s.poisoned b) := by
  simp [State.poisoned, State.setPoison, mem_addSector]

/-- Marking sectors one after the other marks the data of each, and leaves memory and the cores. -/
theorem State.foldl_setPoison (f : Nat → Nat) (l : List Nat) (s : State) :
    let t := l.foldl (fun (s : State) i => s.setPoison (f i)) s
    t.mem = s.mem ∧ t.cores = s.cores ∧ (∀ i ∈ l, ∀ b, sectorOf b = sectorOf (f i) → t.poisoned b = true) ∧
      ∀ b, s.poisoned b = true → t.poisoned b = true := by
  induction l generalizing s with
  | nil => exact ⟨rfl, rfl, by simp, fun _ h => h⟩
  | cons i l ih =>
    obtain ⟨hm, hc, hi, hk⟩ := ih (s.setPoison (f i))
    refine ⟨hm, hc, List.forall_mem_cons.2 ⟨fun b hb => hk b ?_, hi⟩, fun b hb => hk b ?_⟩
    · simp [State.poisoned_setPoison, hb]
    · simp [State.poisoned_setPoison, hb]

theorem State.byteAt_storeClean {s : State} (h : s.wf) (a : Nat) (bs : List Byte) (b : Nat) :
    (s.storeClean a bs).byteAt b = if a ≤ b ∧ b < a + bs.length then (bs[b - a]?).getD 0 else s.byteAt b :=
  memGet_memPut s.mem a b bs h

theorem State.gotMem_storeClean {s : State} (h : s.wf) (a : Nat) (bs : List Byte) :
    s.gotMem (s.storeClean a bs) a bs.length fun i => (bs[i]?).getD 0 := by
  refine ⟨fun k hk => ?_, fun b hb => ?_⟩
  · rw [State.byteAt_storeClean h, if_pos (by omega), Nat.add_sub_cancel_left]
  · rw [State.byteAt_storeClean h, if_neg (by omega)]

theorem State.poisoned_storeClean (s : State) (a : Nat) (bs : List Byte) (k : Nat) :
    (s.storeClean a bs).poisoned k = (s.poisoned k && !decide (a ≤ k / 32 * 32 ∧ k / 32 * 32 + 32 ≤ a + bs.length)) := by
  rw [Nat.mul_comm (k / 32), Bool.eq_iff_iff]
  simp [State.storeClean, State.poisoned, sectorOf]

/-- The sectors of the bytes from an address up are those that a poisoned write marks. -/
theorem sector_of_write {a n k : Nat} (h : k < n) : ∃ i ∈ List.range ((a % 32 + n + 31) / 32),
    sectorOf (a + k) = sectorOf (a / 32 * 32 + 32 * i) :=
  ⟨(a + k) / 32 - a / 32, List.mem_range.2 (by omega), by simp only [sectorOf]; omega⟩

theorem execHostBar2Access_write {s : State} (h : s.wf) (hp : s.power = .service) (hf : s.ev.flag = true)
    (ha : s.ev.addr + s.ev.bytes.length ≤ 2 ^ 40) : s.does .hostBar2Access fun t =>
      s.gotMem t s.ev.addr s.ev.bytes.length (fun i => (s.ev.bytes[i]?).getD 0) ∧ t.cores = s.cores ∧
      (s.ev.m = 1 → ∀ k, k < s.ev.bytes.length → t.poisoned (s.ev.addr + k) = true) ∧
      (s.ev.m ≠ 1 → ∀ k, t.poisoned k = (s.poisoned k &&
        !decide (s.ev.addr ≤ k / 32 * 32 ∧ k / 32 * 32 + 32 ≤ s.ev.addr + s.ev.bytes.length))) := by
  have e : exec .hostBar2Access s = execHostBar2Access s := rfl
  have hr : ¬ ((!s.serving) = true ∨ (!s.ev.flag) = true ∨ 2 ^ 40 < s.ev.addr + s.ev.bytes.length) := by
    simp [State.serving, hp, hf]
    omega
  have hg := s.gotMem_storeClean h s.ev.addr s.ev.bytes
  replace e := e.trans (congrArg Host.Outcome.next (if_neg hr))
  by_cases hm : s.ev.m = 1
  · obtain ⟨hmem, hcores, hmark, -⟩ := (s.storeBytes s.ev.addr s.ev.bytes).foldl_setPoison
      (fun i => s.ev.addr / 32 * 32 + 32 * i) (List.range ((s.ev.addr % 32 + s.ev.bytes.length + 31) / 32))
    replace e := e.trans (congrArg Host.Outcome.next (if_pos hm))
    refine ⟨_, e, ⟨fun k hk => ?_, fun b hb => ?_⟩, hcores, fun _ k hk => ?_, fun hn => absurd hm hn⟩
    · exact (State.byteAt_congr hmem _).trans (hg.1 k hk)
    · exact (State.byteAt_congr hmem _).trans (hg.2 b hb)
    · obtain ⟨i, hi, hs⟩ := sector_of_write (a := s.ev.addr) hk
      exact hmark i hi _ hs
  · replace e := e.trans (congrArg Host.Outcome.next (if_neg hm))
    exact ⟨_, e, hg, rfl, fun hy => absurd hy hm, fun _ => s.poisoned_storeClean _ _⟩

theorem execHostBar2Access_read {s : State} (h : s.ev.flag = false) : exec .hostBar2Access s = .next s := by
  have e : exec .hostBar2Access s = execHostBar2Access s := rfl
  exact e.trans (congrArg Host.Outcome.next (if_pos (by simp [h])))

/-! ### The debugger -/

theorem Core.atBoundary_of {k : Core} (h : k.run = .stopped ∨ ∀ x : Fin 11, k.midIssue x = false) : k.atBoundary = true := by
  obtain h | h := h
  · simp [Core.atBoundary, h]
  · simp [Core.atBoundary, h]

theorem execDbgctlStop_stops {s : State} (ha : s.mgmt.attach = true) (hu : (s.core s.dbgCore).run.up = true)
    (hb : (s.core s.dbgCore).run = .stopped ∨ ∀ x : Fin 11, (s.core s.dbgCore).midIssue x = false) :
    exec .dbgctlStop s =
      .next { s.modCore s.dbgCore fun k => { k with dbgHalt := true } with mgmt.dbghalted := true } := by
  have e : exec .dbgctlStop s = execDbgctlStop s := rfl
  rw [e, execDbgctlStop, ha, hu, Core.atBoundary_of hb]
  rfl

theorem State.dbgStopped_of {s : State} (ha : s.mgmt.attach = true) (hh : (s.core s.dbgCore).dbgHalt = true) :
    s.dbgStopped = true := by
  rw [State.dbgStopped, ha, hh]; rfl

theorem execDbgctlResume_goes {s : State} (ha : s.mgmt.attach = true) (hh : (s.core s.dbgCore).dbgHalt = true) :
    exec .dbgctlResume s =
      .next { s.modCore s.dbgCore fun k => { k with dbgHalt := false } with mgmt.dbghalted := false } := by
  have e : exec .dbgctlResume s = execDbgctlResume s := rfl
  exact e.trans (congrArg Host.Outcome.next (if_pos (State.dbgStopped_of ha hh)))

theorem length_flatMap_const {α β : Type} (l : List α) (f : α → List β) (n : Nat) (h : ∀ a, (f a).length = n) :
    (l.flatMap f).length = l.length * n := by
  simp [List.length_flatMap, h]

theorem refusalBytes_length (l : List Report) : (refusalBytes l).length = 16 := by
  cases l <;> simp [refusalBytes, natBytes_length]

theorem Rep.bytes_length (r : Rep) : r.bytes.length = 0xC0 := by
  have hw := length_flatMap_const ((r.words ++ List.replicate 16 (0 : BitVec 32)).take 16) (fun w => natBytes w.toNat 4) 4
    fun _ => natBytes_length ..
  have ho := length_flatMap_const ((r.offs ++ List.replicate 16 (0 : Off)).take 16) (fun o => natBytes o.toNat 4) 4
    fun _ => natBytes_length ..
  simp only [Rep.bytes, List.length_append, natBytes_length, hw, ho, List.length_take, List.length_replicate]
  omega

theorem Core.matBytes_length (k : Core) : k.matBytes.length = 0x528 := by
  have hv (l : List VReg) := length_flatMap_const l vBytes 32 fun _ => natBytes_length ..
  have h1 : (vBytes k.accMark).length = 32 := natBytes_length ..
  simp only [Core.matBytes, List.length_append, natBytes_length, hv, h1, List.length_take, List.length_replicate,
    Vector.length_toList]
  omega

/-- An image has 4,096 bytes (R330). -/
theorem State.image_length (s : State) (n : Nat) (c : Fin 11) (live : Bool) : (s.image n c live).length = 4096 := by
  have hmat (b : Bool) (k : Core) : (if b = true then k.matBytes else natBytes 0 0x528).length = 0x528 := by
    cases b
    · exact natBytes_length 0 0x528
    · exact k.matBytes_length
  have hrep (b : Bool) (r : Rep) : (if b = true then r.bytes else natBytes 0 0xC0).length = 0xC0 := by
    cases b
    · exact natBytes_length 0 0xC0
    · exact r.bytes_length
  have hw {α : Type} (l : List α) (f : α → Word) :=
    length_flatMap_const l (fun a => wordBytes8 (f a)) 8 fun _ => natBytes_length ..
  have hn {α : Type} (l : List α) (f : α → Nat) (k : Nat) :=
    length_flatMap_const l (fun a => natBytes (f a) k) k fun _ => natBytes_length ..
  have hv (l : List VReg) := length_flatMap_const l vBytes 32 fun _ => natBytes_length ..
  have hx (x : Word) : (wordBytes8 x).length = 8 := natBytes_length ..
  unfold State.image
  simp only [List.length_append, refusalBytes_length, natBytes_length, hmat, hw, hn, hv, hx, List.length_range,
    Vector.length_toList]
  split
  · rw [hrep]
  · rw [natBytes_length]

theorem Tag.row_length (t : Tag) : t.row.length = 32 := by
  simp [Tag.row, natBytes_length]

theorem Slot.row_length (x : Slot) : x.row.length = 16 := by
  simp [Slot.row, natBytes_length]

theorem State.pageBytes_length (s : State) (c : Nat) : (s.pageBytes c).length = 4096 := by
  have hw (l : List Word) := length_flatMap_const l wordBytes8 8 fun _ => natBytes_length ..
  have ht (l : List Tag) := length_flatMap_const l Tag.row 32 Tag.row_length
  have hs (l : List Slot) := length_flatMap_const l Slot.row 16 Slot.row_length
  have hx (x : Word) : (wordBytes8 x).length = 8 := natBytes_length ..
  simp only [State.pageBytes, List.length_append, natBytes_length, hw, ht, hs, hx, Vector.length_toList]
  rw [length_flatMap_const _ _ 8]
  · rfl
  · intro i
    split <;> simp only [List.length_append, natBytes_length]

/-- Of memory and cores, only the bytes of `[lo, hi)` change. -/
structure State.storesIn (s t : State) (lo hi : Nat) : Prop where
  wf : t.wf
  cores : t.cores = s.cores
  kept : ∀ o, o < lo ∨ hi ≤ o → t.byteAt o = s.byteAt o

theorem State.storesIn_refl {s : State} (h : s.wf) (lo hi : Nat) : s.storesIn s lo hi := ⟨h, rfl, fun _ _ => rfl⟩

theorem State.storesIn_storeClean {s t : State} {lo hi : Nat} (h : s.storesIn t lo hi) {a : Nat} {bs : List Byte} (ha : lo ≤ a)
    (hb : a + bs.length ≤ hi) : s.storesIn (t.storeClean a bs) lo hi := by
  refine ⟨State.storeClean_wf a bs h.wf, h.cores, fun o ho => ?_⟩
  rw [State.byteAt_storeClean h.wf, if_neg (by omega), h.kept o ho]

/-- A slot holds the ULM of its core first; past that, it lies in 256 KiB (R329). -/
theorem State.writeSlot_stores {s : State} (h : s.wf) (c a : Nat) : (s.writeSlot c a).cores = s.cores ∧
    (∀ o, o < 0x20000 → (s.writeSlot c a).byteAt (a + o) = s.byteAt (ulmKey c o)) ∧
    ∀ o, o < a ∨ a + 2 ^ 18 ≤ o → (s.writeSlot c a).byteAt o = s.byteAt o := by
  let u := s.copyBytes (ulmKey c 0) a 0x20000
  have hu : u.storesIn (s.writeSlot c a) (a + 0x20000) (a + 2 ^ 18) := by
    refine State.storesIn_storeClean (List.foldlRecOn (motive := fun t => u.storesIn t (a + 0x20000) (a + 2 ^ 18)) _ _
      (State.storesIn_refl (State.copyBytes_wf _ _ _ h) _ _) fun t ht i hi => ?_) (by omega) ?_
    · have hi : i < 11 := List.mem_range.1 hi
      exact State.storesIn_storeClean ht (by omega) (by rw [State.image_length]; omega)
    · rw [State.pageBytes_length]; omega
  refine ⟨hu.cores, fun o ho => ?_, fun o ho => ?_⟩
  · rw [hu.kept _ (by omega), State.byteAt_copyBytes h, if_pos (by omega), Nat.add_sub_cancel_left]
    exact congrArg s.byteAt (by simp only [ulmKey]; omega)
  · rw [hu.kept _ (by omega), State.byteAt_copyBytes h, if_neg (by omega)]

theorem execDbgctlDump_dumps {s : State} (ha : s.mgmt.attach = true) (hh : (s.core s.dbgCore).dbgHalt = true) :
    exec .dbgctlDump s = .next (s.writeSlot s.dbgCore s.dbgSlot) := by
  have e : exec .dbgctlDump s = execDbgctlDump s := rfl
  exact e.trans (congrArg Host.Outcome.next (if_pos (State.dbgStopped_of ha hh)))

/-- What the installing of a context leaves of its core. -/
structure Core.installed (k e : Core) : Prop where
  kseg : e.kseg = k.kseg
  dbgHalt : e.dbgHalt = k.dbgHalt
  claim : e.claim = k.claim

theorem Core.install_installed (k : Core) (c : Fin 11) {bs : List Byte} (h : imageMat bs = false) :
    k.installed (k.install c bs) := by
  have h : ¬ (getN bs 0x528 8).testBit 3 = true := by rw [← imageMat, h]; simp
  rw [Core.install, if_neg h]
  split <;> exact ⟨rfl, rfl, rfl⟩

/-- Images of contexts that hold no claim, and that nothing in their bytes refuses, are installed. -/
theorem installImages_ok (img : Nat → List Byte) (old : Core) (l : List Nat) (k : Core) (hk : k.claim = none)
    (h : ∀ i ∈ l, imageBad (img i) = false ∧ imageMat (img i) = false) :
    ∃ e, installImages img old l k = .ok e ∧ k.installed e := by
  induction l generalizing k with
  | nil => exact ⟨k, rfl, rfl, rfl, rfl⟩
  | cons i l ih =>
    obtain ⟨⟨hb, hm⟩, hl⟩ := List.forall_mem_cons.1 h
    have hi := k.install_installed (Fin.ofNat 11 i) hm
    obtain ⟨e, he, hseg, hhalt, hclaim⟩ := ih (((k.install (Fin.ofNat 11 i) (img i)).modCtx (Fin.ofNat 11 i)
      fun x => restoredCtx x old.ctxs[Fin.ofNat 11 i]).keepMarks old (Fin.ofNat 11 i)) (hi.claim.trans hk) hl
    refine ⟨e, ?_, hseg.trans hi.kseg, hhalt.trans hi.dbgHalt, hclaim.trans hi.claim⟩
    rw [installImages, if_neg (by simp [hm]), if_neg (by simp [hb])]
    exact he

theorem State.pageInstalled_cores (s : State) (c : Nat) (page : List Byte) : (s.pageInstalled c page).cores = s.cores := by
  rw [State.pageInstalled]
  split <;> rfl

theorem State.recheckParked_cores (s : State) (c : Nat) : (s.recheckParked c).cores = s.cores := by
  refine List.foldlRecOn (motive := fun t : State => t.cores = s.cores) _ _ rfl fun t h i _ => ?_
  split <;> exact h

theorem State.core_congr {s t : State} (h : t.cores = s.cores) (n : Nat) : t.core n = s.core n := by
  rw [State.core, h]; rfl

theorem memBytes_drop (m : List Host.Cell) (a n k : Nat) : (memBytes m a n).drop k = memBytes m (a + k) (n - k) := by
  induction k generalizing a n with
  | zero => rfl
  | succ k ih =>
    cases n with
    | zero => simp [memBytes]
    | succ n => rw [memBytes, List.drop_succ_cons, ih, Nat.add_sub_add_right, Nat.add_right_comm, Nat.add_assoc]

theorem memBytes_take (m : List Host.Cell) (a n k : Nat) (h : k ≤ n) : (memBytes m a n).take k = memBytes m a k := by
  induction k generalizing a n with
  | zero => simp [memBytes]
  | succ k ih =>
    obtain ⟨n, rfl⟩ : ∃ m, n = m + 1 := ⟨n - 1, by omega⟩
    rw [memBytes, List.take_succ_cons, ih _ _ (by omega), memBytes]

theorem State.getWord_memBytes (s : State) (a n k : Nat) (h : k + 8 ≤ n) :
    getWord (memBytes s.mem a n) k = BitVec.ofNat 64 (s.loadNat (a + k) 8) := by
  rw [getWord, getN, memBytes_drop, memBytes_take _ _ _ _ (by omega), State.loadNat]

theorem execDbgctlLoad_loads {s : State} (h : s.wf) (ha : s.mgmt.attach = true) (hh : (s.core s.dbgCore).dbgHalt = true)
    (himg : ∀ i, i < 11 → imageBad (memBytes s.mem (s.dbgSlot + 0x20000 + 0x1000 * i) 0x1000) = false ∧
      imageMat (memBytes s.mem (s.dbgSlot + 0x20000 + 0x1000 * i) 0x1000) = false) : s.does .dbgctlLoad fun t =>
    (∀ o, o < 0x20000 → t.byteAt (ulmKey s.dbgCore o) = s.byteAt (s.dbgSlot + o)) ∧
    (∀ n, n ≠ s.dbgCore → t.core n = s.core n) ∧ (t.core s.dbgCore).dbgHalt = true ∧
    ∀ i : Fin 4, (t.core s.dbgCore).kseg[i] =
      BitVec.ofNat 64 (s.loadNat (s.dbgSlot + 0x2B000 + 8 * i.val) 8) &&& 0x00000FFFFFFDFFFF := by
  have e : exec .dbgctlLoad s = execDbgctlLoad s := rfl
  obtain ⟨k, hk, hseg, hhalt, -⟩ := installImages_ok
    (fun i => memBytes s.mem (s.dbgSlot + 0x20000 + 0x1000 * i) 0x1000) (s.core s.dbgCore) (List.range 11)
    { (s.core s.dbgCore).loaded (memBytes s.mem (s.dbgSlot + 0x2B000) 0x1000) (s.core s.dbgCore) with
      claim := none, rep := none, sup := (s.core s.dbgCore).sup &&
        decide (memBytes s.mem s.dbgSlot 0x1000 = memBytes s.mem (ulmKey s.dbgCore 0) 0x1000) }
    rfl fun i hi => himg i (List.mem_range.1 hi)
  rw [execDbgctlLoad] at e
  dsimp only at e
  rw [State.dbgStopped_of ha hh, hk] at e
  let u := (s.copyBytes s.dbgSlot (ulmKey s.dbgCore 0) 0x20000).setCore s.dbgCore k
  let t := (u.pageInstalled s.dbgCore (memBytes s.mem (s.dbgSlot + 0x2B000) 0x1000)).recheckParked s.dbgCore
  have hcore (n : Nat) : t.core n = u.core n :=
    State.core_congr ((State.recheckParked_cores _ _).trans (State.pageInstalled_cores _ _ _)) n
  have hmem : t.mem = (s.copyBytes s.dbgSlot (ulmKey s.dbgCore 0) 0x20000).mem :=
    (State.recheckParked_mem _ _).trans (State.pageInstalled_mem _ _ _)
  have hself : t.core s.dbgCore = k := (hcore _).trans (State.core_setCore ..)
  refine ⟨t, e, fun o ho => ?_, fun n hn => (hcore n).trans (State.core_setCore_other _ _ _ _ hn), ?_, fun i => ?_⟩
  · rw [State.byteAt_congr hmem, State.byteAt_copyBytes h, if_pos (by simp only [ulmKey]; omega)]
    exact congrArg s.byteAt (by simp only [ulmKey]; omega)
  · rw [hself, hhalt]
    exact hh
  · rw [hself, hseg, ← s.getWord_memBytes (s.dbgSlot + 0x2B000) 0x1000 (8 * i.val) (by omega)]
    simp [Core.loaded, ksegMask]

/-! ### The responder -/

/-- A request of an exchange that has come far enough is answered. -/
theorem State.respond_answers {s : State} (hp : s.power ≠ .off) (answer : List Byte) (next : Spdm → Spdm) :
    s.respond true answer next = .next { s with spdm := { next s.spdm with answer := answer } } :=
  congrArg Host.Outcome.next (if_neg hp)

/-- A request out of order is answered with the error response. -/
theorem State.respond_refuses {s : State} (hp : s.power ≠ .off) (answer : List Byte) (next : Spdm → Spdm) :
    s.respond false answer next = .next { s with spdm := { s.spdm with answer := [0x12, 0x7F] } } :=
  congrArg Host.Outcome.next (if_neg hp)

/-- The instruction leaves the exchange as `p` with the answer `bs`, and the rest of the state alone. -/
def State.answers (s : State) (i : Instr) (bs : List Byte) (p : Spdm) : Prop :=
  s.does i fun t => t = { s with spdm := { p with answer := bs } }

theorem State.respond_true {s : State} (hp : s.power ≠ .off) {i : Instr} {r : Bool} {answer : List Byte} {next : Spdm → Spdm}
    (hi : exec i s = s.respond r answer next) (hr : r = true) : s.answers i answer (next s.spdm) := by
  subst hr
  exact ⟨_, hi.trans (State.respond_answers hp answer next), rfl⟩

theorem State.respond_false {s : State} (hp : s.power ≠ .off) {i : Instr} {r : Bool} {answer : List Byte} {next : Spdm → Spdm}
    (hi : exec i s = s.respond r answer next) (hr : r = false) : s.answers i [0x12, 0x7F] s.spdm := by
  subst hr
  exact ⟨_, hi.trans (State.respond_refuses hp answer next), rfl⟩

theorem responderAnswers {s : State} (hp : s.power ≠ .off) :
    let p := s.spdm
    let refused (i : Instr) : Prop := s.answers i [0x12, 0x7F] p
    s.answers .getVersion [0x12, 0x04, 0x00, 0x12] { version := true } ∧
    (if p.version then s.answers .getCapabilities ([0x12, 0x61] ++ natBytes 0x16 4) { p with caps := true }
      else refused .getCapabilities) ∧
    (if p.caps then s.answers .negotiateAlgorithms ([0x12, 0x63] ++ (natBytes 4 4 ++ natBytes 1 4 ++ natBytes 2 4))
      { p with algs := true } else refused .negotiateAlgorithms) ∧
    (p.algs = true → s.answers .getDigests ([0x12, 0x01] ++ natBytes (Config.sha256 s.flash.record.cert).toNat 32) p ∧
      s.answers .getCertificate ([0x12, 0x02] ++ (s.flash.record.cert.drop s.ev.addr).take s.ev.n) p ∧
      (∀ key, s.attestKey = some key →
        s.answers .challenge ([0x12, 0x03] ++ (natBytes (Config.sha256 s.flash.record.cert).toNat 32 ++
          Config.sign key (Config.sha256 s.flash.record.cert) s.ev.value.toNat)) p) ∧
      (s.attestKey = none → refused .challenge) ∧
      s.answers .getMeasurements ([0x12, 0x60] ++
        (List.range 4).flatMap fun i => natBytes (i + 1) 1 ++ natBytes (s.measure (i + 1)).toNat 32) p) ∧
    (p.algs = false → ∀ i ∈ [Instr.getDigests, .getCertificate, .challenge, .getMeasurements], refused i) := by
  intro p refused
  have version : exec .getVersion s = execGetVersion s := rfl
  have capabilities : exec .getCapabilities s = execGetCapabilities s := rfl
  have algorithms : exec .negotiateAlgorithms s = execNegotiateAlgorithms s := rfl
  have digests : exec .getDigests s = execGetDigests s := rfl
  have certificate : exec .getCertificate s = execGetCertificate s := rfl
  have challenge : exec .challenge s = execChallenge s := rfl
  have measurements : exec .getMeasurements s = execGetMeasurements s := rfl
  refine ⟨State.respond_true hp version rfl, ?_, ?_, fun h => ⟨State.respond_true hp digests h,
    State.respond_true hp certificate h, fun key hk => ?_, fun hk => ?_, State.respond_true hp measurements h⟩, fun h => ?_⟩
  · split
    · next h => exact State.respond_true hp capabilities h
    · next h => exact State.respond_false hp capabilities (Bool.eq_false_iff.2 h)
  · split
    · next h => exact State.respond_true hp algorithms h
    · next h => exact State.respond_false hp algorithms (Bool.eq_false_iff.2 h)
  · have h' := State.respond_true hp challenge (by rw [hk, Option.isSome_some, Bool.and_true]; exact h)
    rw [hk] at h'
    exact h'
  · exact State.respond_false hp challenge (by rw [hk, Option.isSome_none, Bool.and_false])
  · have hc : (s.spdm.algs && s.attestKey.isSome) = false :=
      Bool.and_eq_false_imp.2 fun h' => absurd (h'.symm.trans h) (by decide)
    simp only [List.forall_mem_cons]
    exact ⟨State.respond_false hp digests h, State.respond_false hp certificate h, State.respond_false hp challenge hc,
      State.respond_false hp measurements h, fun _ h => nomatch h⟩

/-! ### The host side, put together -/

theorem debuggerControls {s : State} (ha : s.mgmt.attach = true) :
    ((s.core s.dbgCore).run.up = true →
      (s.core s.dbgCore).run = .stopped ∨ (∀ x : Fin 11, (s.core s.dbgCore).midIssue x = false) →
      s.does .dbgctlStop fun t => t.core s.dbgCore = { s.core s.dbgCore with dbgHalt := true } ∧ t.mgmt.dbghalted = true ∧
        (∀ n, n ≠ s.dbgCore → t.core n = s.core n) ∧ t.mem = s.mem) ∧
    ((s.core s.dbgCore).dbgHalt = true →
      s.does .dbgctlResume fun t => t.core s.dbgCore = { s.core s.dbgCore with dbgHalt := false } ∧
        t.mgmt.dbghalted = false ∧ (∀ n, n ≠ s.dbgCore → t.core n = s.core n) ∧ t.mem = s.mem) := by
  refine ⟨fun hu hb => ⟨_, execDbgctlStop_stops ha hu hb, ?_, rfl, fun n hn => ?_, rfl⟩,
    fun hh => ⟨_, execDbgctlResume_goes ha hh, ?_, rfl, fun n hn => ?_, rfl⟩⟩
  · exact s.core_modCore s.dbgCore fun k => { k with dbgHalt := true }
  · exact s.core_modCore_other s.dbgCore n (fun k => { k with dbgHalt := true }) hn
  · exact s.core_modCore s.dbgCore fun k => { k with dbgHalt := false }
  · exact s.core_modCore_other s.dbgCore n (fun k => { k with dbgHalt := false }) hn

theorem State.readMgmt_fields (s : State) :
    let at_ := s.readMgmt
    let m := s.mgmt
    (at_ 0).getLsbD 0 = m.ready ∧ (at_ 0).getLsbD 1 = m.bootFail ∧ (at_ 0).getLsbD 8 = m.repairFail ∧
    (at_ 0).getLsbD 20 = m.fatal ∧ (at_ 0x18).setWidth 32 = m.errtail ∧ (at_ 0x18).extractLsb' 48 16 = m.lost ∧
    at_ 0x20 = m.errhead.setWidth 64 ∧ (at_ 0x50).getLsbD 3 = m.dbghalted ∧ ((at_ 0x50).setWidth 3 : BitVec 3) = 0 ∧
    (at_ 0x50).getLsbD 4 = false ∧ at_ 0x58 = m.dbgword ∧ (at_ 0x60).setWidth 8 = m.tmax ∧
    (∀ a, 0x180 ≤ a → at_ a = 0) ∧
    ∀ j, j < 16 →
      let q := s.lenbo.port j
      (at_ (0x100 + 8 * j)).extractLsb' 16 16 = q.retrain ∧ (at_ (0x100 + 8 * j)).getLsbD 8 = q.up ∧
      (q.width < 16 → ((at_ (0x100 + 8 * j)).setWidth 4 : BitVec 4).toNat = q.width) := by
  obtain ⟨hready, hboot, hrepair, hfatal⟩ := s.readMgmt_status
  obtain ⟨htail, hlost⟩ := s.readMgmt_errtail
  obtain ⟨hhalt, hwritten, hstop⟩ := s.readMgmt_dbgctl
  refine ⟨hready, hboot, hrepair, hfatal, htail, hlost, rfl, hhalt, hwritten, hstop, rfl, s.readMgmt_tmax,
    fun a ha => s.readMgmt_unlisted ha, fun j hj => ?_⟩
  simp only [s.readMgmt_port hj]
  exact (s.lenbo.port j).lnk_fields

/-- Settles O52: the registers by the fields their words are made of, device memory and a debug slot by the bytes that are
stored, and the responder by how far its exchange has come. -/
theorem hostSide : Obligations.HostSide := by
  unfold Obligations.HostSide
  intro s e v quiet
  refine ⟨fun hp hs => ?_, fun hp hs => ?_, fun hp hs => ⟨_, execRegisterWrite_flash hp hs, rfl⟩,
    fun hp => State.readBar0_off hp, fun hp => ?_, s.readMgmt_fields, ⟨_, rfl, rfl⟩,
    fun hw hp hf ha => execHostBar2Access_write hw hp hf ha, execHostBar2Access_read,
    fun ha => ⟨?_, fun hh => ⟨?_, fun hw _ => ?_, fun hw _ himg => ?_⟩⟩, fun hp => responderAnswers hp⟩
  · obtain ⟨hptab, hcfg⟩ := hostWritesBar0 hp hs
    have hx := execRegisterWrite_bar0 hp hs
    refine ⟨hptab, fun hsaves => ⟨fun ha => ?_, fun ha => ?_⟩, fun hrays ha => ?_,
      fun ch hc => ⟨hcfg ch hc, fun ha => ?_, fun ha => ?_⟩⟩
    · exact ⟨_, hx, by rw [show s.ev.addr = 0x1008 from ha, State.writeSpbase hsaves]⟩
    · exact ⟨_, hx, by rw [show s.ev.addr = 0x1010 from ha]; exact if_pos hsaves⟩
    · exact ⟨_, hx, by rw [show s.ev.addr = 0x1030 from ha, State.writePagbase hrays]⟩
    · rw [show s.ev.addr = _ from ha, s.writeBar0_channel hc (by omega), s.writeChannel_rrbase] at hx
      exact ⟨_, hx, ⟨rfl, rfl⟩, rfl,
        s.channel_modChannel ch fun c => { c with rrbase := s.ev.value &&& 0x00FFFFFFFFFFF01F }⟩
    · rw [show s.ev.addr = _ from ha, s.writeBar0_channel hc (by omega)] at hx
      exact ⟨_, hx, ⟨rfl, rfl⟩, rfl, s.channel_modChannel ch fun c => { c with rrhead := s.ev.value.setWidth 32 }⟩
  · have hx := execRegisterWrite_management hp hs
    refine ⟨fun ha => ⟨_, hx, ?_⟩, fun ha => ⟨_, hx, ?_⟩, fun ha => ⟨_, hx, ?_⟩⟩
    · rw [show s.ev.addr = 0x010 from ha, State.writeMgmt, baseLog_eq_and 51 12]
      rfl
    · rw [show s.ev.addr = 0x048 from ha]; rfl
    · rw [show s.ev.addr = 0x060 from ha]; rfl
  · have hon : ¬ (!s.serving) = true := by simp [State.serving, hp]
    refine ⟨if_neg hon, if_neg hon, if_neg hon, if_neg hon, if_neg hon, fun a => s.readBar0_unlisted, fun ch hc => ?_⟩
    intro c at_
    have hat {o : Nat} (ho : o < 4096) : at_ o = c.read o := State.readBar0_channel hp hc ho
    obtain ⟨hlost, hovf, hcount⟩ := c.read_status
    rw [← hat (by omega)] at hlost hovf hcount
    exact ⟨hat (by omega), hat (by omega), hat (by omega), hat (by omega), hat (by omega), hlost, hovf, hcount⟩
  · exact (debuggerControls ha).1
  · exact (debuggerControls ha).2 hh
  · exact ⟨_, execDbgctlDump_dumps ha hh, State.writeSlot_stores hw s.dbgCore s.dbgSlot⟩
  · exact execDbgctlLoad_loads hw ha hh himg

end Sys2Proof.Machine
end

section
/-! PROOFS. A store to ULM as its core sees it: the bytes it writes, the fetched bundles it drops, and what it leaves alone
(R149, R225). -/

namespace Sys2Proof.Machine

/-- The core and the offset that a key of ULM stands for. -/
theorem ulmKey_core (c a : Nat) (h : a < 2 ^ 29) : (ulmKey c a - 2 ^ 55) / 2 ^ 29 = c := by
  simp only [ulmKey]; omega

theorem ulmKey_offset (c a : Nat) (h : a < 2 ^ 29) : (ulmKey c a - 2 ^ 55) % 2 ^ 29 = a := by
  simp only [ulmKey]; omega

/-- What a write leaves of a context: its fetch buffer loses the bundles of the sectors written. -/
theorem Core.ctxs_wrote (k : Core) (a n : Nat) (c : Fin 11) : (k.wrote a n).ctxs[c] =
    { k.ctxs[c] with fbuf := k.ctxs[c].fbuf.filter fun b => !inSectors a n b } := by
  simp [Core.wrote]

/-- A write changes its own core, or none where nothing stands to be dropped. -/
theorem State.wrote_cases (s : State) (key n : Nat) : s.wrote key n = s ∨
    s.wrote key n = s.modCore ((key - 2 ^ 55) / 2 ^ 29) fun k => k.wrote ((key - 2 ^ 55) % 2 ^ 29) n := by
  simp only [State.wrote]
  split
  · exact .inl rfl
  · exact .inr rfl

theorem State.memOnly_refl (s : State) : s.memOnly s :=
  ⟨rfl, fun _ => rfl, fun _ _ => rfl, fun _ _ => List.Sublist.refl _, fun _ => List.Sublist.refl _⟩

theorem State.memOnly_trans {s t u : State} (h : s.memOnly t) (h' : t.memOnly u) : s.memOnly u where
  rest := h'.rest.trans (congrArg (fun x : State => { x with mem := u.mem, cores := u.cores }) h.rest)
  core n := (h'.core n).trans (congrArg (fun x : Core => { x with past := (u.core n).past, ctxs := (u.core n).ctxs }) (h.core n))
  ctxs n c := (h'.ctxs n c).trans (congrArg (fun x : Context => { x with fbuf := (u.ctx n c).fbuf }) (h.ctxs n c))
  fbuf n c := (h'.fbuf n c).trans (h.fbuf n c)
  past n := (h'.past n).trans (h.past n)

/-- Bytes stored change memory alone. -/
theorem State.storeBytes_memOnly (s : State) (key : Nat) (bs : List Byte) : s.memOnly (s.storeBytes key bs) :=
  ⟨rfl, fun _ => rfl, fun _ _ => rfl, fun _ _ => List.Sublist.refl _, fun _ => List.Sublist.refl _⟩

/-- What a write drops. -/
theorem State.wrote_memOnly (s : State) (key n : Nat) : s.memOnly (s.wrote key n) := by
  rcases s.wrote_cases key n with h | h
  · rw [h]
    exact s.memOnly_refl
  · rw [h]
    generalize (key - 2 ^ 55) / 2 ^ 29 = m, (key - 2 ^ 55) % 2 ^ 29 = a
    have hk (i : Nat) : (s.modCore m fun k => k.wrote a n).core i = s.core i ∨
        (s.modCore m fun k => k.wrote a n).core i = (s.core i).wrote a n := by
      by_cases hi : i = m
      · subst hi; exact .inr (s.core_modCore i _)
      · exact .inl (s.core_modCore_other m i _ hi)
    refine ⟨rfl, fun i => ?_, fun i c => ?_, fun i c => ?_, fun i => ?_⟩
    · rcases hk i with e | e
      · rw [e]
      · rw [e]
        rfl
    · simp only [State.ctx]
      rcases hk i with e | e
      · rw [e]
      · rw [e, Core.ctxs_wrote]
    · simp only [State.ctx]
      rcases hk i with e | e
      · rw [e]
      · rw [e, Core.ctxs_wrote]
        exact List.filter_sublist
    · rcases hk i with e | e
      · rw [e]
      · rw [e]
        exact List.filter_sublist

/-- No fetch buffer of the core keeps a bundle of the sectors written. -/
theorem State.wrote_refetches (s : State) (c a n : Nat) (h : a < 2 ^ 29) : (s.wrote (ulmKey c a) n).refetches c a n := by
  have hlow : ¬ ulmKey c a < 2 ^ 55 := by simp only [ulmKey]; omega
  intro x b hb
  simp only [State.wrote, ulmKey_core c a h, ulmKey_offset c a h, hlow, false_or] at hb
  split at hb
  · next hempty =>
    have he : (s.ctx c x).fbuf = [] := by
      have := Vector.all_eq_true.1 hempty.2 x.val x.isLt
      exact List.isEmpty_iff.1 this
    rw [he] at hb
    cases hb
  · rw [State.ctx, State.core_modCore, Core.ctxs_wrote] at hb
    simpa using (List.mem_filter.1 hb).2

/-- The issuing core and context after a store. -/
theorem State.memOnly_cur {s t : State} (h : s.memOnly t) : t.cur = s.cur :=
  (congrArg State.cur h.rest).trans rfl

theorem State.memOnly_cx {s t : State} (h : s.memOnly t) : t.cx = { s.cx with fbuf := t.cx.fbuf } := by
  have hc : t.cx = t.ctx s.cur.core s.cur.ctx := by rw [← State.memOnly_cur h]; rfl
  rw [hc]
  exact h.ctxs _ _

/-- A store to ULM of bytes of a number: nothing else changes. -/
theorem State.storeUlm_memOnly (s : State) (key : Nat) (bs : List Byte) (n : Nat) :
    s.memOnly ((s.storeBytes key bs).wrote key n) :=
  State.memOnly_trans (s.storeBytes_memOnly key bs) (State.wrote_memOnly _ _ _)

end Sys2Proof.Machine
end

section
/-! PROOFS. Calls and returns (O8; R17, R95). -/

namespace Sys2Proof.Machine

/-- A branch target as a number: the bundle's offset plus four times the signed word offset, modulo 2^17 (R38). -/
theorem branchTarget_eq {n : Nat} (p : Off) (o : BitVec n) : branchTarget p o = BitVec.ofInt 17 (p.toNat + 4 * o.toInt) := by
  have ho : o.signExtend 64 = BitVec.ofInt 64 o.toInt := rfl
  apply BitVec.eq_of_toNat_eq
  rw [branchTarget, ho]
  simp only [BitVec.toNat_add, BitVec.toNat_setWidth, BitVec.toNat_shiftLeft, BitVec.toNat_ofInt, Nat.shiftLeft_eq]
  generalize o.toInt = z
  omega

/-- The bits of an offset above its two lowest ones. -/
theorem and_mask_eq_aligned (x : Nat) : BitVec.ofNat 17 x &&& 0x1FFFC = BitVec.ofNat 17 (x / 4 * 4) := by
  have hmask : (0x1FFFC : Off) = BitVec.ofNat 17 ((2 ^ 15 - 1) * 2 ^ 2) := rfl
  refine BitVec.eq_of_getLsbD_eq fun i hi => ?_
  rw [hmask, BitVec.getLsbD_and, BitVec.getLsbD_ofNat, BitVec.getLsbD_ofNat, BitVec.getLsbD_ofNat,
    Nat.testBit_mul_two_pow, Nat.testBit_two_pow_sub_one, show x / 4 * 4 = x / 2 ^ 2 * 2 ^ 2 from rfl,
    Nat.testBit_mul_two_pow, Nat.testBit_div_two_pow]
  by_cases h2 : 2 ≤ i
  · have hlt : i - 2 < 15 := by omega
    simp [hi, h2, hlt]
  · simp [h2]

theorem State.setPc_modCx (s : State) (f : Context → Context) (a : Off) :
    (s.modCx f).setPc a = s.modCx fun x => { f x with pc := a } := s.modCx_modCx f _

theorem State.localAccess_ok {s : State} {a n : Nat} {need : Perm} (h : s.localCheck a n need = .ok) (perform : State) :
    s.localAccess a n need perform = perform := by
  rw [State.localAccess, h, State.access]

/-- The slot of a spilled entry (R17). -/
theorem spillSlot_eq (x : Context) (n : Nat) : spillSlot x n = (x.k.spill.setWidth 17 : BitVec 17).toNat + 8 * n := by
  simp [spillSlot]

/-- With room on the on-chip stack the return address is pushed there. -/
theorem State.pushReturn_room {s : State} (h : s.cx.f.depth.toNat < 8) (a : Off) (after : State → State) :
    s.pushReturn a after = after (s.modCx fun x => { x with f := x.f.pushRet a }) := by
  have hd : ¬ s.cx.f.depth = 8 := fun e => by rw [e] at h; exact absurd h (by decide)
  rw [State.pushReturn, if_neg hd]

/-- With a full on-chip stack the oldest entry is stored at its slot, and the others move down. -/
theorem State.pushReturn_spill {s : State} (hd : s.cx.f.depth = 8) (hr : s.cx.f.retBad.getLsbD 0 = false)
    (hk : s.kBad 0x00B = false) {slot : Nat} (hs : slot = spillSlot s.cx s.cx.f.spilled.toNat)
    (hc : s.localCheck slot 8 { w := true } = .ok) (a : Off) (after : State → State) :
    s.pushReturn a after = after (((s.storeNat (s.hereKey slot) 8 s.cx.f.ret[0].toNat).wrote (s.hereKey slot) 8).modCx
      fun x => { x with f := x.f.dropOldest.pushRet a }) := by
  subst hs
  have hb : ¬ (bitOf s.cx.f.retBad 0 || s.kBad 0x00B) = true := by
    rw [bitOf, hr, hk]
    decide
  rw [State.pushReturn, if_pos hd, if_neg hb, State.localAccess_ok hc]

/-- The return stack after its oldest entry has left and a new one has come. -/
theorem Flow.pushRet_dropOldest {f : Flow} (h : f.depth = 8) (a : Off) :
    (f.dropOldest.pushRet a).depth = 8 ∧ (f.dropOldest.pushRet a).spilled = f.spilled + 1 ∧
      (f.dropOldest.pushRet a).ret[7] = a ∧ ∀ i : Fin 7, (f.dropOldest.pushRet a).ret[i.val] = f.ret[i.val + 1] := by
  have hd : f.dropOldest.depth = 7 := by simp [Flow.dropOldest, h]
  refine ⟨by simp [Flow.pushRet, hd], rfl, ?_, fun i => ?_⟩
  · simp [Flow.pushRet, hd]
  · have hi : f.dropOldest.depth.toNat ≠ i.val := by
      have h7 : f.dropOldest.depth.toNat = 7 := by rw [hd]; rfl
      omega
    have hr : (f.dropOldest.pushRet a).ret[i.val] = f.dropOldest.ret[i.val] :=
      Vector.getElem_setIfInBounds_ne _ hi
    rw [hr]
    simp [Flow.dropOldest]

/-- An indirect target that is aligned is taken; one that is not raises ALIGN (R95). -/
theorem State.indirect_aligned {s : State} {a : Fin 32} (hc : s.cleanG [a]) (h : (s.src.g a).toNat % 4 = 0) (k : Off → State) :
    s.indirect a k = .next (k ((s.src.g a).setWidth 17)) := by
  rw [State.indirect, s.scalar_clean _ _ hc, if_neg (by simpa [State.g] using h)]
  rfl

theorem State.indirect_misaligned {s : State} {a : Fin 32} (hc : s.cleanG [a]) (h : (s.src.g a).toNat % 4 ≠ 0) (hp : s.plain)
    {i : Instr} {k : Off → State} (hi : exec i s = s.indirect a k) : s.faults i Cause.align (s.src.g a) := by
  refine ⟨s.fault Cause.align (s.src.g a), ?_, s.fault_tookTrap _ _ hp.1 hp.2⟩
  rw [hi, State.indirect, s.scalar_clean _ _ hc, if_pos (by simpa [State.g] using h)]
  rfl

/-- A call with a full return stack (R17): the oldest entry stands in memory, and only memory, the return stack and the PC
have changed. -/
theorem execCall_spills {s : State} (o : BitVec 24) {slot : Nat} (hs : slot = spillSlot s.cx s.cx.f.spilled.toNat) (hw : s.wf)
    (hd : s.cx.f.depth = 8) (hr : s.cx.f.retBad.getLsbD 0 = false) (hk : s.kBad 0x00B = false)
    (hc : s.localCheck slot 8 { w := true } = .ok) : s.does (.call o) fun t =>
      t.loadNat (s.hereKey slot) 8 = s.cx.f.ret[0].toNat ∧
      (∀ k, k < s.hereKey slot ∨ s.hereKey slot + 8 ≤ k → t.byteAt k = s.byteAt k) ∧
      t.cx.f.depth = 8 ∧ t.cx.f.spilled = s.cx.f.spilled + 1 ∧ t.cx.f.ret[7] = s.cur.next ∧
      (∀ i : Fin 7, t.cx.f.ret[i.val] = s.cx.f.ret[i.val + 1]) ∧ t.cx.r = s.cx.r ∧ t.cx.k = s.cx.k ∧
      t.cx.pc = BitVec.ofInt 17 (s.cur.p.toNat + 4 * o.toInt) := by
  obtain ⟨u, hu⟩ : ∃ u, u = (s.storeNat (s.hereKey slot) 8 s.cx.f.ret[0].toNat).wrote (s.hereKey slot) 8 := ⟨_, rfl⟩
  have hm : u.mem = (s.storeNat (s.hereKey slot) 8 s.cx.f.ret[0].toNat).mem := by rw [hu, State.wrote_mem]
  have honly : s.memOnly u := hu ▸ s.storeUlm_memOnly _ _ _
  have hx : exec (.call o) s = .next (u.modCx fun x =>
      { x with f := x.f.dropOldest.pushRet s.cur.next, pc := branchTarget u.cur.p o }) := by
    rw [exec_call, execCall, State.pushReturn_spill hd hr hk hs hc, ← hu, State.jump, State.setPc_modCx]
    rfl
  obtain ⟨hdepth, hspilled, hlast, hothers⟩ := Flow.pushRet_dropOldest hd s.cur.next
  refine ⟨_, hx, ?_, fun k hout => ?_, ?_⟩
  · have hv : s.cx.f.ret[0].toNat < 256 ^ 8 := by have := s.cx.f.ret[0].isLt; omega
    have h := State.loadNat_storeNat hw (s.hereKey slot) 8 s.cx.f.ret[0].toNat (s.hereKey slot) 8 (Nat.le_refl _) (Nat.le_refl _)
    rw [Nat.sub_self, Nat.pow_zero, Nat.div_one, Nat.mod_eq_of_lt hv] at h
    exact (congrArg (fun m => leNat (memBytes m _ 8)) hm).trans h
  · refine (State.byteAt_congr hm k).trans ?_
    rw [State.byteAt_storeNat hw, if_neg (by omega)]
  · rw [State.cx_modCx, State.memOnly_cx honly, State.memOnly_cur honly, branchTarget_eq]
    exact ⟨hdepth, hspilled, hlast, hothers, rfl, rfl, rfl⟩

/-- A return with an entry on chip pops it (R95). -/
theorem execRet_pops {s : State} (h0 : 0 < s.cx.f.depth.toNat)
    (hb : s.cx.f.retBad.getLsbD (s.cx.f.depth.toNat - 1) = false) :
    s.does .ret fun t => s.became t { s.cx with
      f.depth := s.cx.f.depth - 1, pc := (s.cx.f.ret.toList[s.cx.f.depth.toNat - 1]?).getD 0 } := by
  have hd : s.cx.f.depth ≠ 0 := fun e => by simp [e] at h0
  have hbit : ¬ bitOf s.cx.f.retBad (s.cx.f.depth.toNat - 1) = true := by simpa [bitOf] using hb
  refine ⟨_, ?_, s.modCx_became fun x => { x with
    f.depth := s.cx.f.depth - 1, pc := (s.cx.f.ret.toList[s.cx.f.depth.toNat - 1]?).getD 0 }⟩
  simp only [exec_ret, execRet]
  rw [if_pos hd, if_neg hbit, State.setPc_modCx, Vector.getElem?_toList]

/-- A return with no entry on chip and one spilled reads it back (R17). -/
theorem execRet_reloads {s : State} (h0 : s.cx.f.depth = 0) (h1 : s.cx.f.spilled ≠ 0) (hk : s.kBad 0x00B = false) {slot : Nat}
    (hs : slot = spillSlot s.cx (s.cx.f.spilled.toNat - 1)) (hc : s.localCheck slot 8 { r := true } = .ok)
    (hp : s.poisoned (s.hereKey slot) = false) :
    s.does .ret fun t => s.became t { s.cx with
      f.spilled := s.cx.f.spilled - 1, pc := BitVec.ofNat 17 (s.loadNat (s.hereKey slot) 8 / 4 * 4) } := by
  subst hs
  refine ⟨_, ?_, s.modCx_became fun x => { x with f.spilled := s.cx.f.spilled - 1, pc := _ }⟩
  simp only [exec_ret, execRet]
  rw [if_neg (not_not.2 h0), if_pos h1, if_neg (by simp [hk]), State.localAccess_ok hc, if_neg (by simp [hp]),
    State.setPc_modCx, and_mask_eq_aligned]

/-- A return that would read KSPILL while it is marked raises POISON (R85). -/
theorem execRet_marked {s : State} (h0 : s.cx.f.depth = 0) (h1 : s.cx.f.spilled ≠ 0) (hk : s.kBad 0x00B = true) (hp : s.plain) :
    s.faults .ret Cause.poison 0 := by
  refine ⟨s.faultPoison, ?_, s.fault_tookTrap _ _ hp.1 hp.2⟩
  simp only [exec_ret, execRet]
  rw [if_neg (not_not.2 h0), if_pos h1, if_pos hk]

/-- A return with nothing left raises RSTACK (R95). -/
theorem execRet_empty {s : State} (h0 : s.cx.f.depth = 0) (h1 : s.cx.f.spilled = 0) (hp : s.plain) :
    ∃ t addr, exec .ret s = .next t ∧ s.tookTrap t (s.faultCause Cause.rstack) s.cur.at_ addr := by
  refine ⟨s.faultOpen Cause.rstack, _, ?_, State.faultOpen_tookTrap hp _⟩
  simp only [exec_ret, execRet]
  rw [if_neg (not_not.2 h0), if_neg (not_not.2 h1)]

/-- Settles O8: each form is a push or a pop on chip, or one access of the spill area. -/
theorem callsAndReturns : Obligations.CallsAndReturns := by
  unfold Obligations.CallsAndReturns
  refine ⟨fun s a o => ?_, fun s o => ?_, fun s _ => ?_⟩
  · intro x pushed
    refine ⟨fun hroom => ?_, fun hc ha => ⟨?_, fun hroom => ?_⟩, fun hc ha hp => ⟨?_, ?_⟩⟩
    · refine ⟨_, ?_, s.modCx_became fun x => { x with f := x.f.pushRet s.cur.next, pc := BitVec.ofInt 17 (s.cur.p.toNat + 4 * o.toInt) }⟩
      rw [exec_call, execCall, State.pushReturn_room hroom, State.jump, State.setPc_modCx, branchTarget_eq]
      rfl
    · exact ⟨_, by rw [exec_jr, execJr, State.indirect_aligned hc ha], s.setPc_wentTo _⟩
    · refine ⟨_, ?_, s.modCx_became fun x => { x with f := x.f.pushRet s.cur.next, pc := (s.src.g a).setWidth 17 }⟩
      rw [exec_callr, execCallr, State.indirect_aligned hc ha, State.pushReturn_room hroom, State.setPc_modCx]
    · exact State.indirect_misaligned hc ha hp (exec_jr a s)
    · exact State.indirect_misaligned hc ha hp (exec_callr a s)
  · intro f slot hw hd hr hk hc
    exact execCall_spills o (spillSlot_eq s.cx _).symm hw hd hr hk hc
  · intro f slot
    exact ⟨execRet_pops, fun h0 h1 hk hc hp => execRet_reloads h0 h1 hk (spillSlot_eq s.cx _).symm hc hp,
      execRet_marked, execRet_empty⟩

end Sys2Proof.Machine
end

section
/-! PROOFS. Loops (O12; R16, R84, R99, R100). -/

namespace Sys2Proof.Machine

/-- A word that reads the registers as they stand. -/
theorem State.src_of_first {s : State} (h : s.first) : s.src = s.cx := by
  rw [State.src, h.1, Option.getD_none]

/-- The lanes `x` taken out of the top entry. -/
def Flow.cut (f : Flow) (x : Mask) : Flow := f.setTop { f.top with mask := f.top.mask &&& ~~~x }

theorem Flow.top_setTop {f : Flow} (h0 : 0 < f.kmsd.toNat) (h : f.kmsd.toNat ≤ 32) (e : MaskEntry) : (f.setTop e).top = e := by
  have hi : f.kmsd.toNat - 1 < 32 := by omega
  simp [Flow.top, Flow.setTop, hi]

theorem Flow.kmsd_pop_toNat {f : Flow} (h0 : 0 < f.kmsd.toNat) : f.pop.kmsd.toNat = f.kmsd.toNat - 1 := by
  have h : f.pop.kmsd = f.kmsd - 1 := rfl
  have h1 : 1 ≤ f.kmsd := BitVec.le_def.2 h0
  rw [h, BitVec.toNat_sub_of_le h1]
  rfl

theorem Flow.top_pop_setTop {f : Flow} (h2 : 2 ≤ f.kmsd.toNat) (e : MaskEntry) : (f.setTop e).pop.top = f.pop.top := by
  have hk : f.pop.kmsd.toNat = f.kmsd.toNat - 1 := Flow.kmsd_pop_toNat (by omega)
  have hne : f.kmsd.toNat - 1 ≠ f.pop.kmsd.toNat - 1 := by omega
  show ((f.stack.setIfInBounds (f.kmsd.toNat - 1) e)[f.pop.kmsd.toNat - 1]?).getD {} = _
  rw [Vector.getElem?_setIfInBounds_ne hne]
  rfl

/-! ### The end of an iteration (R99) -/

section
variable {s : State} {x m : Mask}

/-- Lanes are left in the loop: they start the next iteration. -/
theorem State.leaveLoop_again (h0 : 0 < s.cx.f.kmsd.toNat) (h : s.cx.f.kmsd.toNat ≤ 32)
    (hx : s.cx.f.top.mask &&& ~~~x ≠ 0) : (s.setFlow { s.cx.f.cut x with kmask := m }).leaveLoop s = s.modCx fun y => { y with
      f := { s.cx.f.cut x with kmask := s.cx.f.top.mask &&& ~~~x }, pc := s.cx.f.top.resume } := by
  have hf : (s.setFlow { s.cx.f.cut x with kmask := m }).cx.f = { s.cx.f.cut x with kmask := m } :=
    congrArg Context.f (s.cx_modCx _)
  have ht : (Flow.top { s.cx.f.cut x with kmask := m }) = { s.cx.f.top with mask := s.cx.f.top.mask &&& ~~~x } :=
    Flow.top_setTop h0 h _
  simp only [State.leaveLoop, hf, ht]
  rw [if_neg hx, State.setMask, State.setPc_modCx, State.setFlow, State.modCx_modCx]

/-- No lane is left: both entries go, and the context leaves the loop. -/
theorem State.leaveLoop_leaves (h2 : 2 ≤ s.cx.f.kmsd.toNat) (h : s.cx.f.kmsd.toNat ≤ 32)
    (hx : s.cx.f.top.mask &&& ~~~x = 0) (hb : s.cx.f.pop.top.bad = false) :
    (s.setFlow { s.cx.f.cut x with kmask := m }).leaveLoop s = s.modCx fun y => { y with
      f := { (s.cx.f.cut x).pop.pop with kmask := keepMask s.cx.f.pop.top.mask s.cx.f.kmask }, pc := s.cx.f.pop.top.resume } := by
  have hf : (s.setFlow { s.cx.f.cut x with kmask := m }).cx.f = { s.cx.f.cut x with kmask := m } :=
    congrArg Context.f (s.cx_modCx _)
  have ht : (Flow.top { s.cx.f.cut x with kmask := m }) = { s.cx.f.top with mask := s.cx.f.top.mask &&& ~~~x } :=
    Flow.top_setTop (by omega) h _
  have hp : (Flow.pop { s.cx.f.cut x with kmask := m }).top = s.cx.f.pop.top := Flow.top_pop_setTop h2 _
  have hk : ¬ (s.cx.f.cut x).kmsd.toNat < 2 := Nat.not_lt.2 h2
  simp only [State.leaveLoop, hf, ht, hp]
  rw [if_pos hx, if_neg hk, if_neg (by simp [hb]), State.setFlow, State.setPc_modCx, State.setFlow, State.modCx_modCx]
  rfl

/-- No lane is left, and there is no entry below: MSTACK, and nothing has changed. -/
theorem State.leaveLoop_alone (h1 : s.cx.f.kmsd.toNat = 1) (hx : s.cx.f.top.mask &&& ~~~x = 0) :
    (s.setFlow { s.cx.f.cut x with kmask := m }).leaveLoop s = s.faultMstack := by
  have hf : (s.setFlow { s.cx.f.cut x with kmask := m }).cx.f = { s.cx.f.cut x with kmask := m } :=
    congrArg Context.f (s.cx_modCx _)
  have ht : (Flow.top { s.cx.f.cut x with kmask := m }) = { s.cx.f.top with mask := s.cx.f.top.mask &&& ~~~x } :=
    Flow.top_setTop (by omega) (by omega) _
  have hk : (s.cx.f.cut x).kmsd.toNat < 2 := Nat.lt_succ_of_le (Nat.le_of_eq h1)
  simp only [State.leaveLoop, hf, ht]
  rw [if_pos hx, if_pos hk]

end

/-! ### The instructions of a loop (R99) -/

theorem State.faultMstack_tookTrap {s : State} (h : s.plain) :
    s.tookTrap s.faultMstack (s.faultCause Cause.mstack) s.cur.at_ 0 := s.fault_tookTrap _ _ h.1 h.2

/-- The top entry is a loop that can be read, and the predicate is unmarked. -/
structure State.loops (s : State) (pr : Fin 8) : Prop where
  first : s.first
  pred : s.cx.pBad pr = false
  depth : 0 < s.cx.f.kmsd.toNat
  bound : s.cx.f.kmsd.toNat ≤ 32
  kind : s.cx.f.top.kind = .loopKind
  clean : s.cx.f.top.bad = false

theorem State.inLoop_enters {s : State} {pr : Fin 8} (h : s.loops pr) (k : State) : s.inLoop pr k = .next k := by
  have hd : ¬ (s.cx.f.kmsd = 0 ∨ s.cx.f.top.kind ≠ .loopKind) := by
    rintro (e | e)
    · exact absurd h.depth (by simp [e])
    · exact e h.kind
  rw [State.inLoop, if_neg hd, if_neg (by simp [State.src_of_first h.first, h.pred, h.clean])]

theorem State.inLoop_faults {s : State} (hp : s.plain) (h : s.cx.f.kmsd = 0 ∨ s.cx.f.top.kind ≠ .loopKind) {i : Instr}
    {pr : Fin 8} {k : State} (hi : exec i s = s.inLoop pr k) : s.faults i Cause.mstack 0 :=
  ⟨_, by rw [hi, State.inLoop, if_pos h], State.faultMstack_tookTrap hp⟩

section
variable {s : State} {pr : Fin 8}

theorem execBrk_eq (h : s.loops pr) : exec (.brk pr) s = .next
    (let b := s.cx.f.kmask &&& s.cx.p pr
     let t := s.setFlow { s.cx.f.cut b with kmask := s.cx.f.kmask &&& ~~~b }
     if s.cx.f.kmask &&& ~~~b = 0 then t.leaveLoop s else t) := by
  rw [exec_brk, execBrk, State.inLoop_enters h]
  simp only [State.p, State.src_of_first h.first, Flow.cut]

theorem execCnt_eq (h : s.loops pr) : exec (.cnt pr) s = .next
    (if s.cx.f.kmask &&& ~~~s.cx.p pr = 0 then (s.setMask (keepMask s.cx.f.top.mask s.cx.f.kmask)).setPc s.cx.f.top.resume
     else s.setMask (s.cx.f.kmask &&& ~~~s.cx.p pr)) := by
  rw [exec_cnt, execCnt, State.inLoop_enters h]
  simp only [State.p, State.src_of_first h.first]

theorem execLpe_eq (h : s.loops pr) : exec (.lpe pr) s = .next
    ((s.setFlow { s.cx.f.cut (s.cx.f.kmask &&& ~~~s.cx.p pr) with kmask := s.cx.f.kmask }).leaveLoop s) := by
  rw [exec_lpe, execLpe, State.inLoop_enters h]
  simp only [State.p, State.src_of_first h.first, Flow.cut]
  rfl

/-- The context goes on in the loop with the lanes that stay. -/
theorem State.again_became {i : Instr} {x m : Mask} (h : s.loops pr) (hx : s.cx.f.top.mask &&& ~~~x ≠ 0)
    (hi : exec i s = .next ((s.setFlow { s.cx.f.cut x with kmask := m }).leaveLoop s)) :
    s.does i fun t => s.became t { s.cx with
      f := { s.cx.f.cut x with kmask := s.cx.f.top.mask &&& ~~~x }, pc := s.cx.f.top.resume } :=
  ⟨_, by rw [hi, State.leaveLoop_again h.depth h.bound hx], s.modCx_became _⟩

/-- The context leaves the loop. -/
theorem State.leave_became {i : Instr} {x m : Mask} (h : s.loops pr) (h2 : 2 ≤ s.cx.f.kmsd.toNat) {below : MaskEntry}
    (hb : s.cx.f.pop.top = below) (hc : below.bad = false) (hx : s.cx.f.top.mask &&& ~~~x = 0)
    (hi : exec i s = .next ((s.setFlow { s.cx.f.cut x with kmask := m }).leaveLoop s)) :
    s.does i fun t => s.became t { s.cx with
      f := { (s.cx.f.cut x).pop.pop with kmask := keepMask below.mask s.cx.f.kmask }, pc := below.resume } := by
  subst hb
  exact ⟨_, by rw [hi, State.leaveLoop_leaves h2 h.bound hx hc], s.modCx_became _⟩

/-- The context would leave the loop, and no entry says where to. -/
theorem State.leave_faults {i : Instr} {x m : Mask} (hp : s.plain) (h1 : s.cx.f.kmsd.toNat = 1)
    (hx : s.cx.f.top.mask &&& ~~~x = 0)
    (hi : exec i s = .next ((s.setFlow { s.cx.f.cut x with kmask := m }).leaveLoop s)) : s.faults i Cause.mstack 0 :=
  ⟨_, by rw [hi, State.leaveLoop_alone h1 hx], State.faultMstack_tookTrap hp⟩

theorem execBrk_last (h : s.loops pr) (hm : s.cx.f.kmask &&& ~~~(s.cx.f.kmask &&& s.cx.p pr) = 0) : exec (.brk pr) s = .next
    ((s.setFlow { s.cx.f.cut (s.cx.f.kmask &&& s.cx.p pr) with
      kmask := s.cx.f.kmask &&& ~~~(s.cx.f.kmask &&& s.cx.p pr) }).leaveLoop s) :=
  (execBrk_eq h).trans (congrArg Host.Outcome.next (if_pos hm))

/-- Lanes break, and others stay in the iteration. -/
theorem execBrk_stays (h : s.loops pr) (hm : s.cx.f.kmask &&& ~~~(s.cx.f.kmask &&& s.cx.p pr) ≠ 0) :
    s.does (.brk pr) fun t => s.became t { s.cx with f := { s.cx.f.cut (s.cx.f.kmask &&& s.cx.p pr) with
      kmask := s.cx.f.kmask &&& ~~~(s.cx.f.kmask &&& s.cx.p pr) } } :=
  ⟨_, (execBrk_eq h).trans (congrArg Host.Outcome.next (if_neg hm)), s.modCx_became _⟩

/-- Lanes wait for the next iteration, and others stay in this one. -/
theorem execCnt_stays (h : s.loops pr) (hw : s.cx.f.kmask &&& ~~~s.cx.p pr ≠ 0) :
    s.does (.cnt pr) fun t => s.became t { s.cx with f.kmask := s.cx.f.kmask &&& ~~~s.cx.p pr } :=
  ⟨_, (execCnt_eq h).trans (congrArg Host.Outcome.next (if_neg hw)), s.modCx_became _⟩

/-- Every lane waits: the next iteration begins. -/
theorem execCnt_again (h : s.loops pr) (hw : s.cx.f.kmask &&& ~~~s.cx.p pr = 0) :
    s.does (.cnt pr) fun t => s.became t { s.cx with
      f.kmask := keepMask s.cx.f.top.mask s.cx.f.kmask, pc := s.cx.f.top.resume } :=
  ⟨_, ((execCnt_eq h).trans (congrArg Host.Outcome.next (if_pos hw))).trans
    (congrArg Host.Outcome.next (s.setPc_modCx _ _)), s.modCx_became _⟩

end

theorem Flow.push_push {f : Flow} (h : f.kmsd.toNat ≤ 30) (e e' : MaskEntry) : (f.push e).push e' = { f with
    kmsd := f.kmsd + 1 + 1
    stack := (f.stack.setIfInBounds f.kmsd.toNat e).setIfInBounds (f.kmsd.toNat + 1) e' } := by
  have hk : (f.kmsd + 1).toNat = f.kmsd.toNat + 1 := BitVec.toNat_add_of_lt (show f.kmsd.toNat + 1 < 64 by omega)
  simp only [Flow.push, hk]

/-- A loop is entered: the exit is pushed, then the head (R99). -/
theorem execLpm_enters {s : State} (o : BitVec 15) (h : s.cx.f.kmsd.toNat ≤ 30) : s.does (.lpm o) fun t => s.became t { s.cx with
      f.kmsd := s.cx.f.kmsd + 1 + 1
      f.stack := (s.cx.f.stack.setIfInBounds s.cx.f.kmsd.toNat
          { mask := s.cx.f.kmask, kind := .ifKind, resume := BitVec.ofInt 17 (s.cur.p.toNat + 4 * o.toInt) }).setIfInBounds
        (s.cx.f.kmsd.toNat + 1) { mask := s.cx.f.kmask, kind := .loopKind, resume := s.cur.next } } := by
  have hn : ¬ 30 < s.cx.f.kmsd.toNat := by omega
  refine ⟨_, congrArg Host.Outcome.next (if_neg hn), ?_⟩
  rw [Flow.push_push h, branchTarget_eq]
  exact s.modCx_became _

/-- Settles O12: the instructions of a loop differ in the lanes they cut from the top entry; what the end of an iteration does
with them is said once, by `State.leaveLoop`. -/
theorem loops : Obligations.Loops := by
  unfold Obligations.Loops
  simp -zeta only [Vector.getElem?_toList]
  intro s o pr hfirst f m d p at_ top below cut again leave
  have hbelow (h : 2 ≤ d) : s.cx.f.pop.top = below := by
    have hk : f.pop.kmsd.toNat = d - 1 := Flow.kmsd_pop_toNat (by omega)
    show (f.stack[f.pop.kmsd.toNat - 1]?).getD {} = _
    rw [hk]
    rfl
  refine ⟨fun h => execLpm_enters o h, fun hp h => ⟨_, ?_, State.faultMstack_tookTrap hp⟩, fun hpr h2 h32 hk hc hb => ?_,
    fun hp hpr h1 hk hc => ?_, fun hp _ h => ?_⟩
  · exact congrArg Host.Outcome.next (if_pos h)
  · have hl : s.loops pr := ⟨hfirst, hpr, Nat.lt_of_lt_of_le (by decide) h2, h32, hk, hc⟩
    exact ⟨execBrk_stays hl, fun hm hx => State.again_became hl hx (execBrk_last hl hm),
      fun hm hx => State.leave_became hl h2 (hbelow h2) hb hx (execBrk_last hl hm), execCnt_stays hl, execCnt_again hl,
      fun hx => State.again_became hl hx (execLpe_eq hl),
      fun hx => State.leave_became hl h2 (hbelow h2) hb hx (execLpe_eq hl)⟩
  · have hl : s.loops pr := ⟨hfirst, hpr, Nat.le_of_eq h1.symm, (Nat.le_of_eq h1).trans (by decide), hk, hc⟩
    exact ⟨execBrk_stays hl, fun hm hx => State.again_became hl hx (execBrk_last hl hm),
      fun hm hx => State.leave_faults hp h1 hx (execBrk_last hl hm), execCnt_stays hl, execCnt_again hl,
      fun hx => State.again_became hl hx (execLpe_eq hl), fun hx => State.leave_faults hp h1 hx (execLpe_eq hl)⟩
  · exact ⟨State.inLoop_faults hp h (exec_brk pr s), State.inLoop_faults hp h (exec_cnt pr s),
      State.inLoop_faults hp h (exec_lpe pr s)⟩

end Sys2Proof.Machine
end

section
/-! PROOFS. Scalar loads and stores of own ULM (O26; R27, R28, R147 to R149, R232). -/

namespace Sys2Proof.Machine

/-! ### Bytes and numbers (R7, R148) -/

theorem leNat_lt (l : List Byte) : leNat l < 2 ^ (8 * l.length) := by
  induction l with
  | nil => simp [leNat]
  | cons b l ih =>
    have hb := b.isLt
    have hp : 2 ^ (8 * (b :: l).length) = 256 * 2 ^ (8 * l.length) := by
      rw [List.length_cons, Nat.mul_succ, Nat.pow_add, Nat.mul_comm]
    rw [hp, leNat]
    omega

theorem memBytes_eq_map (m : List Host.Cell) (a n : Nat) : memBytes m a n = (List.range n).map fun k => memGet m (a + k) := by
  induction n generalizing a with
  | zero => rfl
  | succ n ih =>
    rw [memBytes, ih, List.range_succ_eq_map]
    simp [Nat.add_assoc, Nat.add_comm 1]

/-- A number loaded, byte by byte. -/
theorem State.loadNat_eq_map (s : State) (a n : Nat) : s.loadNat a n = leNat ((List.range n).map fun k => s.byteAt (a + k)) :=
  congrArg leNat (memBytes_eq_map s.mem a n)

/-- A loaded number with its sign extended, as a number (R148). -/
theorem extended_eq (signed : Bool) {n y : Nat} (h0 : 0 < n) (hy : y < 2 ^ (8 * n)) : extended signed n y =
    if signed ∧ 2 ^ (8 * n - 1) ≤ y then BitVec.ofInt 64 ((y : Int) - 2 ^ (8 * n)) else BitVec.ofNat 64 y := by
  cases signed with
  | false => simp [extended]
  | true =>
    have hp : 2 ^ (8 * n) = 2 * 2 ^ (8 * n - 1) := by rw [← Nat.pow_succ']; congr 1; omega
    have hs : (BitVec.ofNat (8 * n) y).signExtend 64 = BitVec.ofInt 64 (BitVec.ofNat (8 * n) y).toInt := rfl
    rw [extended, if_pos rfl, hs, BitVec.toInt_eq_toNat_cond, BitVec.toNat_ofNat, Nat.mod_eq_of_lt hy]
    by_cases h : 2 ^ (8 * n - 1) ≤ y
    · rw [if_neg (by omega), if_pos ⟨rfl, h⟩]
      push_cast
      rfl
    · rw [if_pos (by omega), if_neg (fun e => h e.2)]
      simp

/-! ### What a local load reads (R232) -/

/-- The bytes a store has overwritten, as a number. -/
theorem Overwritten.load_eq (e : Overwritten) {a n : Nat} (h : a + n ≤ e.off + e.old.length) (h' : e.off ≤ a) :
    e.load a n = leNat ((List.range n).map fun k => (e.old[a - e.off + k]?).getD 0) := by
  rw [Overwritten.load]
  congr 1
  refine List.ext_getElem (by simp; omega) fun k hk hk' => ?_
  have hlt : a - e.off + k < e.old.length := by simp at hk; omega
  simp [hlt]

theorem Core.pastFor_some {k : Core} {c : Fin 11} {base a n : Nat} {e : Overwritten} (h : k.pastFor c base a n = some e) :
    e ∈ k.past ∧ e.off ≤ a ∧ a + n ≤ e.off + e.old.length := by
  obtain ⟨hf, hp⟩ := Option.filter_eq_some_iff.1 h
  simp only [Overwritten.holds, Bool.and_eq_true, decide_eq_true_eq] at hp
  exact ⟨List.mem_of_find?_eq_some hf, hp.1.1⟩

/-- Nothing changes but the older bytes of recent window stores and the count of free choices: the model's own (log 30). -/
structure State.choseOnly (s t : State) : Prop where
  rest : t = { s with cores := t.cores, fresh := t.fresh }
  here : t.here = { s.here with past := t.here.past }
  cores : ∀ c, c ≠ s.cur.core → t.core c = s.core c

theorem State.choseOnly_refl (s : State) : s.choseOnly s := ⟨rfl, rfl, fun _ _ => rfl⟩

theorem State.choseOnly_fresh (s : State) (n : Nat) : s.choseOnly { s with fresh := n } := ⟨rfl, rfl, fun _ _ => rfl⟩

theorem State.choseOnly_readNow {s t : State} (h : s.choseOnly t) (a n : Nat) : s.choseOnly (t.readNow a n) := by
  have hcur : t.cur = s.cur := (congrArg State.cur h.rest).trans rfl
  have hh : (t.readNow a n).here = t.here.closePast t.cur.ctx fun e => e.meets a n := t.here_modHere _
  refine ⟨?_, ?_, fun c hc => ?_⟩
  · exact (congrArg (fun x : State => { x with cores := (t.readNow a n).cores }) h.rest).trans rfl
  · rw [hh]
    exact congrArg (fun x : Core => { x with past := (t.here.closePast t.cur.ctx fun e => e.meets a n).past }) h.here
  · exact (t.core_modCore_other _ c _ (hcur ▸ hc)).trans (h.cores c hc)

/-- A local read: what the bytes hold, or, where another core's window store came shortly before and wrote all of them, what
they held before it. -/
theorem State.loadHere_cases (s : State) (base a n : Nat) : s.choseOnly (s.loadHere base a n).2.2 ∧
    (((s.loadHere base a n).1 = s.loadNat (s.hereKey a) n ∧ (s.loadHere base a n).2.1 = s.poisoned (s.hereKey a)) ∨
      ∃ e ∈ s.here.past, e.off ≤ a ∧ a + n ≤ e.off + e.old.length ∧ (s.loadHere base a n).1 = e.load a n ∧
        (s.loadHere base a n).2.1 = e.bad) := by
  simp only [State.loadHere]
  split
  · exact ⟨s.choseOnly_refl, .inl ⟨rfl, rfl⟩⟩
  · split
    · exact ⟨State.choseOnly_readNow s.choseOnly_refl a n, .inl ⟨rfl, rfl⟩⟩
    · next e he =>
      obtain ⟨hm, hlo, hhi⟩ := Core.pastFor_some he
      split
      · exact ⟨s.choseOnly_fresh _, .inr ⟨e, hm, hlo, hhi, rfl, rfl⟩⟩
      · exact ⟨State.choseOnly_readNow (s.choseOnly_fresh _) a n, .inl ⟨rfl, rfl⟩⟩

/-- With no window store lately a read changes nothing. -/
theorem State.loadHere_present {s : State} (h : s.here.past = []) (base a n : Nat) :
    s.loadHere base a n = (s.loadNat (s.hereKey a) n, s.poisoned (s.hereKey a), s) := by
  simp only [State.loadHere]
  rw [if_pos h]

/-! ### Loads (R147 to R149) -/

section
variable {s : State} {i : Instr} {signed : Bool} {n : Nat} {d a : Fin 32} {o : BitVec 11}

theorem State.load_next (hi : exec i s = s.load signed n d a o) (hc : s.cleanG [a])
    (hchk : s.localCheck (s.ea a o n).toNat n { r := true } = .ok) :
    let r := s.loadHere s.src.r.gAt[a] (s.ea a o n).toNat n
    exec i s = .next (r.2.2.setG d (extended signed n r.1) r.2.1) := by
  rw [hi, State.load, s.scalar_clean _ _ hc, State.localAccess_ok hchk]

/-- With no window store lately gD gets what the bytes hold, and the mark of their sector. -/
theorem State.load_present (hi : exec i s = s.load signed n d a o) (hc : s.cleanG [a])
    (hchk : s.localCheck (s.ea a o n).toNat n { r := true } = .ok) (hp : s.here.past = []) :
    s.does i fun t => s.gotG t d (extended signed n (s.loadNat (s.hereKey (s.ea a o n).toNat) n))
      (s.poisoned (s.hereKey (s.ea a o n).toNat)) := by
  have hx := State.load_next hi hc hchk
  simp only [State.loadHere_present hp] at hx
  exact ⟨_, hx, s.setG_gotG d _ _⟩

/-- A write of gD after a read: what has changed since before the read. -/
theorem State.gotG_frame {u t : State} {x : Word} {bad : Bool} (h : s.choseOnly u) (hg : u.gotG t d x bad) :
    t.cx.g d = (if d = 0 then 0 else x) ∧ t.cx.gBad d = (decide (d ≠ 0) && bad) ∧
    (∀ r, r ≠ d → t.cx.g r = s.cx.g r ∧ t.cx.gBad r = s.cx.gBad r) ∧
    t.cx = { s.cx with r.g := t.cx.r.g, r.gMark := t.cx.r.gMark, r.gAt := t.cx.r.gAt } ∧
    t.here = { s.here with ctxs := t.here.ctxs, past := t.here.past, klatent := t.here.klatent } ∧
    (∀ c : Fin 11, c ≠ s.cur.ctx → t.here.ctxs[c] = s.here.ctxs[c]) ∧
    t = { s with cores := t.cores, fresh := t.fresh } ∧ ∀ c, c ≠ s.cur.core → t.core c = s.core c := by
  have hcur : u.cur = s.cur := (congrArg State.cur h.rest).trans rfl
  have hctxs : u.here.ctxs = s.here.ctxs := (congrArg Core.ctxs h.here).trans rfl
  have hcx : u.cx = s.cx := by simp only [State.cx, hctxs, hcur]
  obtain ⟨⟨⟨hrest, -, hcores, hhere, hother⟩, hregs⟩, hval, hmark, hr, ⟨hv, hvm⟩, hp, hpm⟩ := hg
  rw [hcx] at hregs hr hv hvm hp hpm
  refine ⟨hval, hmark, hr, ?_, ?_, fun c hc => ?_, ?_, fun c hc => ?_⟩
  · exact hregs.trans (by simp only [← hv, ← hvm, ← hp, ← hpm])
  · exact hhere.trans ((congrArg (fun x : Core => { x with ctxs := t.here.ctxs, klatent := t.here.klatent }) h.here).trans
      (by rw [hhere]))
  · rw [hother c (hcur ▸ hc), hctxs]
  · exact hrest.trans ((congrArg (fun x : State => { x with cores := t.cores }) h.rest).trans (by rw [hrest]))
  · exact (hcores c (hcur ▸ hc)).trans (h.cores c hc)

/-- A read's value is one of that many bytes. -/
theorem State.loadHere_lt (s : State) (base a n : Nat) : (s.loadHere base a n).1 < 2 ^ (8 * n) := by
  have hlt (f : Nat → Byte) : leNat ((List.range n).map f) < 2 ^ (8 * n) := by simpa using leNat_lt ((List.range n).map f)
  obtain ⟨-, ⟨h, -⟩ | ⟨e, -, hlo, hhi, h, -⟩⟩ := s.loadHere_cases base a n
  · rw [h, State.loadNat_eq_map]
    exact hlt _
  · rw [h, e.load_eq hhi hlo]
    exact hlt _

/-- A load gives what the bytes hold, or what a recent window store has overwritten; nothing but gD, and what the model keeps
of such stores, changes. -/
theorem State.load_either (hi : exec i s = s.load signed n d a o) (hc : s.cleanG [a])
    (hchk : s.localCheck (s.ea a o n).toNat n { r := true } = .ok) : s.does i fun t => ∃ u y bad,
      s.choseOnly u ∧ u.gotG t d (extended signed n y) bad ∧ y < 2 ^ (8 * n) ∧
      ((y = s.loadNat (s.hereKey (s.ea a o n).toNat) n ∧ bad = s.poisoned (s.hereKey (s.ea a o n).toNat)) ∨
        ∃ e ∈ s.here.past, e.off ≤ (s.ea a o n).toNat ∧ (s.ea a o n).toNat + n ≤ e.off + e.old.length ∧
          y = leNat ((List.range n).map fun k => (e.old[(s.ea a o n).toNat - e.off + k]?).getD 0) ∧ bad = e.bad) := by
  obtain ⟨hu, hy⟩ := s.loadHere_cases s.src.r.gAt[a] (s.ea a o n).toNat n
  refine ⟨_, State.load_next hi hc hchk, _, _, _, hu, State.setG_gotG _ _ _ _, s.loadHere_lt _ _ _, hy.imp_right ?_⟩
  rintro ⟨e, he, hlo, hhi, hv, hb⟩
  exact ⟨e, he, hlo, hhi, hv.trans (e.load_eq hhi hlo), hb⟩

end

/-! ### Stores (R149) -/

theorem State.gotMem_storeUlm {s : State} (h : s.wf) (key n x : Nat) :
    s.gotMem ((s.storeBytes key (natBytes x n)).wrote key n) key n (byteOf x) := by
  have hb (k : Nat) : ((s.storeBytes key (natBytes x n)).wrote key n).byteAt k = (s.storeNat key n x).byteAt k :=
    State.byteAt_congr (State.wrote_mem _ _ _) k
  refine ⟨fun k hk => ?_, fun k hk => ?_⟩
  · rw [hb, State.byteAt_storeNat h, if_pos (by omega), Nat.add_sub_cancel_left]
  · rw [hb, State.byteAt_storeNat h, if_neg (by omega)]

/-- Unmarked data that is no whole sector. -/
theorem State.landUlm_part (s : State) (c a : Nat) {bs : List Byte} (h : bs.length ≠ 32) :
    s.landUlm c a bs false = (s.storeBytes (ulmKey c a) bs).wrote (ulmKey c a) bs.length := by
  simp [State.landUlm, h]

/-! ### The checks (R28, R149) -/

theorem segCheck_none_bound {segs : Vector Word 4} {super : Bool} {a n : Nat} {need : Perm}
    (h : segCheck segs super a n need = none) : a + n ≤ 2 ^ 17 := by
  by_contra hlt
  rw [segCheck, if_pos (c := 0x20000 < a + n) (by omega)] at h
  split at h <;> cases h

theorem State.localCheck_ok_bound {s : State} {a n : Nat} {need : Perm} (h : s.localCheck a n need = .ok) : a + n ≤ 2 ^ 17 := by
  rcases hs : segCheck s.here.kseg s.src.mode a n need with _ | c
  · exact segCheck_none_bound hs
  · simp [State.localCheck, Core.localCheck, hs, State.alsoHeld] at h

theorem State.store_stores {s : State} {i : Instr} {n : Nat} {d a : Fin 32} {o : BitVec 11} (hi : exec i s = s.store n d a o)
    (hw : s.wf) (hc : s.cleanG [a, d]) (hn : n ≠ 32) (hchk : s.localCheck (s.ea a o n).toNat n { w := true } = .ok) :
    s.stores i (s.ea a o n).toNat n (s.src.g d).toNat := by
  have hlt := State.localCheck_ok_bound hchk
  have hlen : (natBytes (s.src.g d).toNat n).length = n := natBytes_length _ _
  refine ⟨_, ?_, s.storeUlm_memOnly (ulmKey s.cur.core (s.ea a o n).toNat) (natBytes (s.src.g d).toNat n) n,
    State.wrote_refetches _ _ _ _ (by omega), State.gotMem_storeUlm hw _ _ _⟩
  rw [hi, State.store, s.scalar_clean _ _ hc, State.localAccess_ok hchk, State.landUlm_part _ _ _ (by rw [State.g, hlen]; exact hn),
    State.g, hlen]

/-- The segment check fails: so does the access, with its address. -/
theorem State.localCheck_bad {s : State} {a n : Nat} {need : Perm} {c : Cause}
    (h : segCheck s.here.kseg s.src.mode a n need = some c) : s.localCheck a n need = .bad c (BitVec.ofNat 64 a) := by
  simp only [State.localCheck, Core.localCheck, h, State.alsoHeld]

/-- The sizes of a scalar access. -/
def scalarSize (n : Nat) : Prop := n = 1 ∨ n = 2 ∨ n = 4 ∨ n = 8

section
variable {segs : Vector Word 4} {super : Bool} {a n : Nat} {need : Perm}

theorem segCheck_align (hn : scalarSize n) (h : a % n ≠ 0) : segCheck segs super a n need = some Cause.align :=
  if_pos ⟨hn, h⟩

theorem segCheck_aligned (h : a % n = 0) : segCheck segs super a n need =
    if 0x20000 < a + n then some Cause.ulmbound
    else if segs.toList.filter (fun k => segCovers k a n) = [] then some Cause.ulmbound
    else if (segs.toList.filter fun k => segCovers k a n).any fun k => segGrants k super need then none else some Cause.priv :=
  if_neg fun e => e.2 h

theorem segCheck_uncovered (h : a % n = 0) (hc : ¬ ∃ j : Fin 4, segCovers segs[j] a n = true) :
    segCheck segs super a n need = some Cause.ulmbound := by
  have he : segs.toList.filter (fun k => segCovers k a n) = [] := by
    refine List.filter_eq_nil_iff.2 fun k hk hcov => ?_
    obtain ⟨j, hj, rfl⟩ := List.getElem_of_mem hk
    exact hc ⟨⟨j, by simpa using hj⟩, by simpa using hcov⟩
  rw [segCheck_aligned h, if_pos he, ite_self]

theorem segCheck_denied (h : a % n = 0) (hb : a + n ≤ 2 ^ 17) (hc : ∃ j : Fin 4, segCovers segs[j] a n = true)
    (hg : ¬ ∃ j : Fin 4, segCovers segs[j] a n = true ∧ segGrants segs[j] super need = true) :
    segCheck segs super a n need = some Cause.priv := by
  have he : segs.toList.filter (fun k => segCovers k a n) ≠ [] := by
    obtain ⟨j, hj⟩ := hc
    exact List.ne_nil_of_mem (List.mem_filter.2 ⟨by simp, hj⟩)
  have hd : ¬ ((segs.toList.filter fun k => segCovers k a n).any fun k => segGrants k super need) = true := by
    intro hany
    obtain ⟨k, hk, hgr⟩ := List.any_eq_true.1 hany
    obtain ⟨hk, hcov⟩ := List.mem_filter.1 hk
    obtain ⟨j, hj, rfl⟩ := List.getElem_of_mem hk
    exact hg ⟨⟨j, by simpa using hj⟩, by simpa using hcov, by simpa using hgr⟩
  rw [segCheck_aligned h, if_neg (by omega), if_neg he, if_neg hd]

theorem segCheck_granted (h : a % n = 0) (hb : a + n ≤ 2 ^ 17)
    (hg : ∃ j : Fin 4, segCovers segs[j] a n = true ∧ segGrants segs[j] super need = true) :
    segCheck segs super a n need = none := by
  obtain ⟨j, hcov, hgr⟩ := hg
  have hm : segs[j] ∈ segs.toList.filter fun k => segCovers k a n := List.mem_filter.2 ⟨by simp, hcov⟩
  rw [segCheck_aligned h, if_neg (by omega), if_neg (List.ne_nil_of_mem hm), if_pos (List.any_eq_true.2 ⟨_, hm, hgr⟩)]

end

/-- With nothing that holds it, an access whose segments agree may be made. -/
theorem State.localCheck_calm {s : State} {a n : Nat} {need : Perm} (h : s.calm)
    (hs : segCheck s.here.kseg s.src.mode a n need = none) : s.localCheck a n need = .ok := by
  obtain ⟨htags, hwin, hx, hr, hport⟩ := h
  have hall (t : Tag) (ht : t ∈ s.here.tags.toList) : t.dst = none ∧ t.src = none ∧ t.parked = [] ∧ t.failed = [] := by
    obtain ⟨j, hj, rfl⟩ := List.getElem_of_mem ht
    simpa using htags ⟨j, by simpa using hj⟩
  have hfailed : ¬ (s.here.tags.toList.any fun t => t.failed.any fun r => r.meets a n) = true := by
    simp only [Bool.not_eq_true, List.any_eq_false]
    intro t ht
    simp [(hall t ht).2.2.2]
  have hparked : s.here.tags.toList.flatMap Tag.parked = [] :=
    List.flatMap_eq_nil_iff.2 fun t ht => (hall t ht).2.2.1
  have hranges : ¬ (s.here.tags.toList.any fun t => rangeMeets t.dst a n || (need.w && rangeMeets t.src a n)) = true := by
    simp only [Bool.not_eq_true, List.any_eq_false]
    intro t ht
    simp [(hall t ht).1, (hall t ht).2.1, rangeMeets]
  have hboard : s.here.scoreboard a n need.w = .ok := by
    simp only [Core.scoreboard]
    rw [if_neg hfailed, hparked, List.find?_nil, if_neg hranges]
  have hheld : s.windowHeld a n = false := by simp [State.windowHeld, State.acquiring, State.windowMeets, hwin]
  have hflit : s.flitHeld s.cur.core a n = false := by
    simp only [State.flitHeld]
    rw [show (s.core s.cur.core).group = s.here.group from rfl, hx, hr]
    rfl
  simp only [State.localCheck, Core.localCheck, hs, hboard, State.alsoHeld]
  rw [hheld, hflit, hport]
  simp

theorem segCovers_iff (k : Word) (a n : Nat) :
    segCovers k a n = true ↔ k.toNat % 2 ^ 17 ≤ a ∧ a + n ≤ k.toNat / 2 ^ 18 % 2 ^ 18 := by
  simp [segCovers, segBase, segLimit, BitVec.extractLsb'_toNat, Nat.shiftRight_eq_div_pow]

theorem segGrants_iff (k : Word) (super store : Bool) : segGrants k super { r := !store, w := store } = true ↔
    k.getLsbD ((if super then 39 else 36) + if store then 1 else 0) = true := by
  cases store <;> simp [segGrants, bitOf]

/-- An instruction, a size and a direction are those of a scalar access of own ULM: once its checks are passed, it performs. -/
def State.accesses (s : State) (a : Fin 32) (o : BitVec 11) (q : Instr × Nat × Bool) : Prop :=
  scalarSize q.2.1 ∧ ∃ perform, exec q.1 s =
    .next (s.localAccess (s.ea a o q.2.1).toNat q.2.1 { r := !q.2.2, w := q.2.2 } perform)

theorem State.load_accesses {s : State} {d a : Fin 32} {o : BitVec 11} {i : Instr} {signed : Bool} {n : Nat}
    (hi : exec i s = s.load signed n d a o) (hn : scalarSize n) (hc : s.cleanG [a, d]) : s.accesses a o (i, n, false) :=
  ⟨hn, _, by rw [hi, State.load, s.scalar_clean _ _ fun r hr => hc r (by simp_all)]; rfl⟩

theorem State.store_accesses {s : State} {d a : Fin 32} {o : BitVec 11} {i : Instr} {n : Nat}
    (hi : exec i s = s.store n d a o) (hn : scalarSize n) (hc : s.cleanG [a, d]) : s.accesses a o (i, n, true) :=
  ⟨hn, _, by rw [hi, State.store, s.scalar_clean _ _ hc]; rfl⟩

theorem State.scalar_accesses {s : State} {d a : Fin 32} (o : BitVec 11) (hc : s.cleanG [a, d]) :
    ∀ q ∈ [(Instr.ld8 d a o, 1, false), (.ld8z d a o, 1, false), (.ld16 d a o, 2, false), (.ld16z d a o, 2, false),
      (.ld32 d a o, 4, false), (.ld32z d a o, 4, false), (.ld64 d a o, 8, false), (.st8 d a o, 1, true),
      (.st16 d a o, 2, true), (.st32 d a o, 4, true), (.st64 d a o, 8, true)], s.accesses a o q := by
  have h1 : scalarSize 1 := .inl rfl
  have h2 : scalarSize 2 := .inr (.inl rfl)
  have h4 : scalarSize 4 := .inr (.inr (.inl rfl))
  have h8 : scalarSize 8 := .inr (.inr (.inr rfl))
  simp only [List.forall_mem_cons]
  exact ⟨State.load_accesses (exec_ld8 d a o s) h1 hc, State.load_accesses (exec_ld8z d a o s) h1 hc,
    State.load_accesses (exec_ld16 d a o s) h2 hc, State.load_accesses (exec_ld16z d a o s) h2 hc,
    State.load_accesses (exec_ld32 d a o s) h4 hc, State.load_accesses (exec_ld32z d a o s) h4 hc,
    State.load_accesses (exec_ld64 d a o s) h8 hc, State.store_accesses (exec_st8 d a o s) h1 hc,
    State.store_accesses (exec_st16 d a o s) h2 hc, State.store_accesses (exec_st32 d a o s) h4 hc,
    State.store_accesses (exec_st64 d a o s) h8 hc, fun _ h => absurd h List.not_mem_nil⟩

/-- A failed segment check faults with its cause and the address (R149). -/
theorem State.access_faults {s : State} {i : Instr} {a : Word} {n : Nat} {need : Perm} {c : Cause} {perform : State}
    (hi : exec i s = .next (s.localAccess a.toNat n need perform)) (hp : s.plain) (hne : c ≠ Cause.pagewait)
    (h : segCheck s.here.kseg s.src.mode a.toNat n need = some c) : s.faults i c a := by
  refine ⟨s.fault c a, ?_, s.fault_tookTrap _ _ hp.1 hp.2⟩
  rw [hi, State.localAccess, State.localCheck_bad h, BitVec.ofNat_toNat, BitVec.setWidth_eq, State.access, if_neg hne]

/-- Settles O26: a load answers what `loadHere` reads, a store lands through `landUlm`, and the checks before both are those of
`segCheck` and, where nothing holds the access, no others. -/
theorem localLoadsAndStores : Obligations.LocalLoadsAndStores := by
  unfold Obligations.LocalLoadsAndStores
  refine ⟨fun s d a o hw => ?_, fun s d a o i n store hmem hclean => ?_⟩
  · intro ea key x ext load store
    have hx (n : Nat) : x n = s.loadNat (key n) n := (s.loadNat_eq_map _ _).symm
    have hload {i : Instr} {signed : Bool} {n : Nat} (hn : 0 < n) (hc : s.cleanG [a]) (hi : exec i s = s.load signed n d a o) :
        load i signed n := by
      intro hchk
      have hext {y : Nat} (hy : y < 2 ^ (8 * n)) : extended signed n y = ext signed n y := extended_eq signed hn hy
      refine ⟨fun hp => ?_, ?_⟩
      · have hlt : s.loadNat (key n) n < 2 ^ (8 * n) := by
          rw [s.loadNat_eq_map]
          simpa using leNat_lt ((List.range n).map fun k => s.byteAt (key n + k))
        rw [hx n, ← hext hlt]
        exact State.load_present hi hc hchk hp
      · obtain ⟨t, ht, u, y, bad, hu, hg, hy, hor⟩ := State.load_either hi hc hchk
        rw [hext hy] at hg
        obtain ⟨hval, hmark, hframe⟩ := State.gotG_frame hu hg
        exact ⟨t, ht, ⟨y, bad, hval, hmark, by rw [hx n]; exact hor⟩, hframe⟩
    exact ⟨fun hc => ⟨hload (by decide) hc (exec_ld8 d a o s), hload (by decide) hc (exec_ld8z d a o s),
        hload (by decide) hc (exec_ld16 d a o s), hload (by decide) hc (exec_ld16z d a o s),
        hload (by decide) hc (exec_ld32 d a o s), hload (by decide) hc (exec_ld32z d a o s),
        hload (by decide) hc (exec_ld64 d a o s)⟩,
      fun hc => ⟨State.store_stores (exec_st8 d a o s) hw hc (by decide), State.store_stores (exec_st16 d a o s) hw hc (by decide),
        State.store_stores (exec_st32 d a o s) hw hc (by decide), State.store_stores (exec_st64 d a o s) hw hc (by decide)⟩⟩
  · intro ea e covers grants some_
    obtain ⟨hn, perform, hx⟩ := State.scalar_accesses o hclean _ hmem
    have hcov : some_ covers ↔ ∃ j : Fin 4, segCovers s.here.kseg[j] e n = true :=
      exists_congr fun j => (segCovers_iff _ _ _).symm
    have hgr : some_ (fun k => covers k ∧ grants k) ↔ ∃ j : Fin 4, segCovers s.here.kseg[j] e n = true ∧
        segGrants s.here.kseg[j] s.src.mode { r := !store, w := store } = true :=
      exists_congr fun j => and_congr (segCovers_iff _ _ _).symm (segGrants_iff _ _ _).symm
    rw [hcov, hgr]
    exact ⟨fun hp h => State.access_faults hx hp (by decide) (segCheck_align hn h),
      fun hp h hc => State.access_faults hx hp (by decide) (segCheck_uncovered h hc),
      fun hp h hb hc hg => State.access_faults hx hp (by decide) (segCheck_denied h hb hc hg),
      fun h hb hg hcalm => State.localCheck_calm hcalm (segCheck_granted h hb hg)⟩

end Sys2Proof.Machine
end

section
/-! PROOFS. Groups, their cores, and events bound to a time: the rules the exchange is proved by (R173 to R176, R253). -/

namespace Sys2Proof.Machine

@[simp] theorem State.group_modGroup (s : State) (g : Nat) (f : Group → Group) : (s.modGroup g f).group g = f (s.group g) :=
  assoc_assocSet_same _ _ _ _

theorem State.group_congr {s t : State} (h : t.groups = s.groups) (g : Nat) : t.group g = s.group g := by
  rw [State.group, h]
  rfl

/-- Steps that each leave the groups alone, one after the other. -/
theorem State.groups_foldl {α : Type} {f : State → α → State} (hf : ∀ t x, (f t x).groups = t.groups) (l : List α) (s : State) :
    (l.foldl f s).groups = s.groups := by
  induction l generalizing s with
  | nil => rfl
  | cons x l ih => exact (ih (f s x)).trans (hf s x)

/-! ### Changes of some cores, one after the other -/

section
variable {P : Core → Prop} {f : Core → Core}

theorem State.modCore_keeps (hf : ∀ k, P k → P (f k)) (s : State) (n : Nat) {c : Nat} (h : P (s.core c)) :
    P ((s.modCore n f).core c) := by
  by_cases hc : c = n
  · subst hc
    rw [State.core_modCore]
    exact hf _ h
  · rw [State.core_modCore_other _ _ _ _ hc]
    exact h

theorem State.foldl_modCore_groups (f : Core → Core) (l : List Nat) (s : State) :
    (l.foldl (fun s n => s.modCore n f) s).groups = s.groups :=
  State.groups_foldl (f := fun s n => s.modCore n f) (fun _ _ => rfl) l s

theorem State.foldl_modCore_memory (f : Core → Core) (l : List Nat) (s : State) :
    (l.foldl (fun s n => s.modCore n f) s).mem = s.mem :=
  State.mem_foldl (f := fun s n => s.modCore n f) (fun _ _ => rfl) l s

theorem State.foldl_modCore_keeps (hf : ∀ k, P k → P (f k)) (l : List Nat) (s : State) {c : Nat} (h : P (s.core c)) :
    P ((l.foldl (fun s n => s.modCore n f) s).core c) := by
  induction l generalizing s with
  | nil => exact h
  | cons n l ih => exact ih _ (State.modCore_keeps hf s n h)

/-- What the change brings about holds of every core of the list. -/
theorem State.foldl_modCore_mem (hf : ∀ k, P (f k)) {l : List Nat} (s : State) {c : Nat} (h : c ∈ l) :
    P ((l.foldl (fun s n => s.modCore n f) s).core c) := by
  induction l generalizing s with
  | nil => cases h
  | cons n l ih =>
    rcases List.mem_cons.1 h with rfl | h
    · refine State.foldl_modCore_keeps (fun k _ => hf k) l _ ?_
      rw [State.core_modCore]
      exact hf _
    · exact ih _ h

/-- Steps that each change one core: a core listed once is changed once. -/
theorem State.foldl_core_of_nodup {step : State → Nat → State} (hother : ∀ t n c, c ≠ n → (step t n).core c = t.core c)
    {l : List Nat} (hl : l.Nodup) (s : State) {c : Nat} (hc : c ∈ l) :
    ∃ u, u.core c = s.core c ∧ (l.foldl step s).core c = (step u c).core c := by
  have hkeep (l : List Nat) (t : State) (h : c ∉ l) : (l.foldl step t).core c = t.core c := by
    induction l generalizing t with
    | nil => rfl
    | cons n l ih =>
      rw [List.mem_cons, not_or] at h
      exact (ih _ h.2).trans (hother t n c h.1)
  induction l generalizing s with
  | nil => cases hc
  | cons n l ih =>
    obtain ⟨hn, hl⟩ := List.nodup_cons.1 hl
    rcases List.mem_cons.1 hc with rfl | hc
    · exact ⟨s, rfl, hkeep l _ hn⟩
    · obtain ⟨u, hu, he⟩ := ih hl (step s n) hc
      exact ⟨u, hu.trans (hother s n c fun e => hn (e ▸ hc)), he⟩

end

/-! ### Events bound to a time -/

theorem mem_insertTimed (t : Nat) (x : Task) (l : List (Nat × Task)) (y : Nat × Task) :
    y ∈ insertTimed t x l ↔ y = (t, x) ∨ y ∈ l := by
  induction l with
  | nil => simp [insertTimed]
  | cons z l ih =>
    rw [insertTimed]
    split
    · rw [List.mem_cons]
    · rw [List.mem_cons, ih, List.mem_cons]
      exact or_left_comm

/-- Events bound to the ends of ticks from this one on: every one of them is due, and nothing else has changed. -/
theorem State.foldl_postAt (op : Instr) (arg : Nat → EvArg) (l : List Nat) (s : State) : ∃ timed,
    l.foldl (fun s j => s.postAt (s.ticks + j) op (arg j)) s = { s with timed := timed } ∧ (∀ x ∈ s.timed, x ∈ timed) ∧
      ∀ j ∈ l, (2 * (s.ticks + j) + 1, ({ op := op, arg := arg j, lane := 0 } : Task)) ∈ timed := by
  induction l generalizing s with
  | nil => exact ⟨s.timed, rfl, fun _ h => h, fun _ h => nomatch h⟩
  | cons j l ih =>
    obtain ⟨timed, he, hold, hnew⟩ := ih (s.postAt (s.ticks + j) op (arg j))
    refine ⟨timed, he, fun x hx => hold x ((mem_insertTimed ..).2 (.inr hx)), List.forall_mem_cons.2 ⟨?_, hnew⟩⟩
    exact hold _ ((mem_insertTimed ..).2 (.inl rfl))

/-! ### The end of a barrier, and of a phase -/

theorem State.lookBarrier_eq (s : State) (g : Nat) : ∃ timed ready, s.lookBarrier g =
    { s with timed := timed, groups := (s.lookBarrier g).groups } ∧
      (s.lookBarrier g).group g = { s.group g with ready := ready } := by
  rw [State.lookBarrier]
  split
  · exact ⟨_, some (s.ticks + 6), rfl, s.group_modGroup g fun x => { x with ready := some (s.ticks + 6) }⟩
  · exact ⟨_, _, rfl, rfl⟩

theorem State.endDeferral_groups (s : State) (g : Nat) : (s.endDeferral g).groups = s.groups := by
  simp only [State.endDeferral]
  split
  · exact State.foldl_modCore_groups Core.haltAfter (s.group g).cores s
  · rfl

/-- What a core keeps when it halts, it keeps when its phase ends. -/
theorem State.endDeferral_keeps {P : Core → Prop} (hP : ∀ k run, P k → P { k with run := run }) (s : State) (g : Nat) {c : Nat}
    (h : P (s.core c)) : P ((s.endDeferral g).core c) := by
  simp only [State.endDeferral]
  split
  · refine State.foldl_modCore_keeps (f := Core.haltAfter) (fun k hk => ?_) _ _ h
    rw [Core.haltAfter]
    split
    · exact hP k _ hk
    · exact hk
  · exact h

end Sys2Proof.Machine
end

section
/-! PROOFS. Phased exchange: sends and barriers (O36; R173 to R176, R253, R458). -/

namespace Sys2Proof.Machine

theorem extractLsb'_toNat_eq (x : Word) (i w : Nat) : (x.extractLsb' i w).toNat = x.toNat / 2 ^ i % 2 ^ w := by
  rw [BitVec.extractLsb'_toNat, Nat.shiftRight_eq_div_pow]

theorem State.onlyC0_main {s : State} (h : s.cur.ctx = 0) (body : State) : s.onlyC0 body = .next body := by
  rw [State.onlyC0, if_neg (by simp [h])]

/-! ### Sends (R173, R175) -/

/-- The operands of a send or a contribution pass the checks of R175, its slot is this one, and nothing holds its reads. -/
structure State.sendsNow (s : State) (a b : Fin 32) : Prop where
  clean : s.cleanG [a, b]
  main : s.cur.ctx = 0
  dst : xDoff (s.g a) % 32 = 0
  src : xSoff (s.g a) % 32 = 0
  fits : xSlot (s.g b) + xFlits (s.g b) ≤ 1000
  now : xSlot (s.g b) = s.myGroup.kxslot
  some : 0 < xFlits (s.g b)
  readable : s.sourceCheck (xSoff (s.g a)) (xFlits (s.g b)) = none
  free : s.sourceHeld (xSoff (s.g a)) (32 * xFlits (s.g b)) = false

/-- The group of the issuing core is in an exchange phase. -/
def State.exchanging (s : State) : State := s.modGroup s.here.group fun g => { g with exch := true }

theorem State.xIssue_sends {s : State} {a b : Fin 32} (h : s.sendsNow a b) {out : Bool} (hout : out = false)
    (send : State → State) : s.xIssue a b out send = .next (send s.exchanging) := by
  have hbad : ¬ (s.src.gBad a || s.src.gBad b) = true := by simp [h.clean a (by simp), h.clean b (by simp)]
  have hslot : ¬ (xSlot (s.g b) < s.myGroup.kxslot ∨ out = true) := by simp [h.now, hout]
  have hheld : s.exchanging.sourceHeld (xSoff (s.g a)) (32 * xFlits (s.g b)) = false := h.free
  have hwait : ¬ (decide (s.myGroup.kxslot < xSlot (s.g b)) ||
      s.exchanging.sourceHeld (xSoff (s.g a)) (32 * xFlits (s.g b))) = true := by simp [h.now, hheld]
  simp only [State.xIssue, State.onlyC0_main h.main, h.readable]
  rw [if_neg hbad, if_neg (not_not.2 h.dst), if_neg (not_not.2 h.src), if_neg (Nat.not_lt.2 h.fits), if_neg hslot,
    if_neg h.some.ne']
  exact congrArg Host.Outcome.next (if_neg hwait)

theorem State.exchanging_group (s : State) : s.exchanging.group s.here.group = { s.group s.here.group with exch := true } :=
  s.group_modGroup _ _

/-- In `t` an event is due at the end of the tick k after the present one of `s`. -/
def State.dueIn (s t : State) (k : Nat) (op : Instr) (arg : EvArg) : Prop :=
  (2 * (s.ticks + k) + 1, ({ op := op, arg := arg, lane := 0 } : Task)) ∈ t.timed

/-- A send and a contribution as they are listed, by the fields of their operands (R175). -/
def State.sendEntry (s : State) (a b : Fin 32) (m : XMode) : Xsend :=
  { id := s.nextId, core := s.cur.core, mode := m, s := xSlot (s.g b), f := xFlits (s.g b), tgt := xTgt (s.g b),
    doff := xDoff (s.g a), soff := xSoff (s.g a), base := s.ticks, done := 0,
    segs := s.segsNow ((s.group s.here.group).targets m s.cur.core (xTgt (s.g b))) }

def State.contribEntry (s : State) (a b : Fin 32) (row : Bool) : Contrib :=
  { core := s.cur.core, row := row, s := xSlot (s.g b), f := xFlits (s.g b), tgt := xTgt (s.g b), doff := xDoff (s.g a),
    soff := xSoff (s.g a), base := s.ticks, done := 0,
    segs := s.segsNow [(s.group s.here.group).chainDest row s.cur.core (xTgt (s.g b))] }

/-- A send in its slot: it is listed with the segments of its targets, and one injection is due for each of its slots. -/
theorem execXsend_sends {s : State} {a b : Fin 32} {m : XMode} (h : s.sendsNow a b)
    (hout : (s.group s.here.group).outside m (xTgt (s.g b)) = false) : s.does (.xsend a b m) fun t =>
      (t.group s.here.group).exch = true ∧
      (t.group s.here.group).xsends = (s.group s.here.group).xsends ++ [s.sendEntry a b m] ∧
      (∀ k, k < xFlits (s.g b) → s.dueIn t k .flitInject { group := s.here.group, id := s.nextId, n := k }) ∧
      t.cx = s.cx ∧ t.mem = s.mem := by
  have hg := s.exchanging_group
  have ht : (s.exchanging.group s.here.group).targets m s.cur.core (xTgt (s.g b)) =
      (s.group s.here.group).targets m s.cur.core (xTgt (s.g b)) := by
    rw [hg]
    cases m <;> rfl
  let u : State := s.exchanging.newId.2.modGroup s.here.group fun g =>
    { g with exch := true, xsends := g.xsends ++ [s.sendEntry a b m] }
  have hu : u.group s.here.group = { s.exchanging.group s.here.group with
      exch := true, xsends := (s.exchanging.group s.here.group).xsends ++ [s.sendEntry a b m] } := State.group_modGroup _ _ _
  rw [hg] at hu
  obtain ⟨timed, he, -, hdue⟩ := State.foldl_postAt .flitInject
    (fun j => { group := s.here.group, id := s.nextId, n := j }) (List.range (xFlits (s.g b))) u
  refine ⟨{ u with timed := timed }, ?_, congrArg Group.exch hu, congrArg Group.xsends hu,
    fun k hk => hdue k (List.mem_range.2 hk), rfl, rfl⟩
  rw [← he, exec_xsend, execXsend, State.xIssue_sends h (show s.myGroup.outside m (xTgt (s.g b)) = false from hout)]
  simp only [u, State.sendEntry, ← ht]
  rfl

/-- A contribution in its slot, likewise. -/
theorem execXred_contributes {s : State} {a b : Fin 32} {row : Bool} (h : s.sendsNow a b)
    (hout : ¬ if row then (s.group s.here.group).w ≤ xTgt (s.g b) % 256 else (s.group s.here.group).h ≤ xTgt (s.g b) % 256) :
    s.does (.xred a b row) fun t =>
      (t.group s.here.group).exch = true ∧
      (t.group s.here.group).contribs = (s.group s.here.group).contribs ++ [s.contribEntry a b row] ∧
      (∀ k, k < xFlits (s.g b) → s.dueIn t k .xredChainAdd
        { group := s.here.group, core := s.cur.core, m := xSlot (s.g b), flag := row, n := k }) ∧
      t.cx = s.cx ∧ t.mem = s.mem := by
  have hout' : (if row then decide (s.myGroup.w ≤ xTgt (s.g b) % 256) else decide (s.myGroup.h ≤ xTgt (s.g b) % 256)) = false := by
    cases row <;> exact decide_eq_false hout
  let u : State := s.exchanging.modGroup s.here.group fun g =>
    { g with exch := true, contribs := g.contribs ++ [s.contribEntry a b row] }
  have hu : u.group s.here.group = { s.exchanging.group s.here.group with
      exch := true, contribs := (s.exchanging.group s.here.group).contribs ++ [s.contribEntry a b row] } :=
    State.group_modGroup _ _ _
  rw [s.exchanging_group] at hu
  obtain ⟨timed, he, -, hdue⟩ := State.foldl_postAt .xredChainAdd
    (fun j => { group := s.here.group, core := s.cur.core, m := xSlot (s.g b), flag := row, n := j })
    (List.range (xFlits (s.g b))) u
  refine ⟨{ u with timed := timed }, ?_, congrArg Group.exch hu, congrArg Group.contribs hu,
    fun k hk => hdue k (List.mem_range.2 hk), rfl, rfl⟩
  rw [← he, exec_xred, execXred, State.xIssue_sends h hout']
  rfl

/-! ### Barriers (R176, R458) -/

section
variable {s : State}

/-- The core has left its barrier. -/
def State.barrierLeft (s : State) : State := s.modHere fun k => { k with barrier := none, barEnd := none }

/-- The core owes one barrier less. -/
def State.debtPaid (s : State) : State := s.modHere fun k => { k with owed := k.owed.drop 1 }

theorem State.here_barrierLeft (s : State) : s.barrierLeft.here = { s.here with barrier := none, barEnd := none } :=
  s.here_modHere _

theorem State.here_debtPaid (s : State) {any : Bool} {rest : List Bool} (h : s.here.owed = any :: rest) :
    s.debtPaid.here = { s.here with owed := rest } := by
  rw [State.debtPaid, State.here_modHere, h]
  rfl

theorem State.cx_barrierLeft (s : State) : s.barrierLeft.cx = s.cx := s.cx_modHere _

theorem State.cx_debtPaid (s : State) : s.debtPaid.cx = s.cx := s.cx_modHere _

variable {kind : BarKind} {put : Word → State → State} {i : Instr}

/-- The answer of a barrier that has ended, to the instruction that waited in it. -/
theorem State.barrierIssue_done (hm : s.cur.ctx = 0) {v : Word} (h : s.here.barEnd = some (.done v))
    (hi : exec i s = s.barrierIssue kind put) : exec i s = .next (put v s.barrierLeft) := by
  rw [hi]
  simp only [State.barrierIssue, State.onlyC0_main hm, h]
  rfl

/-- A barrier that an XLONG has ended before completes at once. -/
theorem State.barrierIssue_owed (hm : s.cur.ctx = 0) (h : s.here.barEnd = none) {any : Bool} {rest : List Bool}
    (ho : s.here.owed = any :: rest) (hk : any = true ∨ kind ≠ .gbar) (hi : exec i s = s.barrierIssue kind put) :
    exec i s = .next (put 0 s.debtPaid) := by
  have howes : s.owes kind = true := by simpa [State.owes, ho] using hk
  rw [hi]
  simp only [State.barrierIssue, State.onlyC0_main hm, h]
  rw [if_pos howes]
  rfl

/-- A wait leaves the barrier of its core alone. -/
theorem State.stall_barrier (s : State) (k : BlockKind) : (s.stall k).here.barrier = s.here.barrier :=
  (congrArg Core.barrier (s.here_modCx fun x => { x with block := some { kind := k, since := _, off := s.cur.at_ } })).trans rfl

/-- Otherwise c0 waits in it. -/
theorem State.barrierIssue_waits (hm : s.cur.ctx = 0) (h : s.here.barEnd = none) (ho : s.here.owed = []) (hr : s.released = true)
    (hi : exec i s = s.barrierIssue kind put) :
    s.does i fun t => t.cur.stalled = true ∧ t.here.barrier = some kind := by
  have hn : ¬ s.owes kind = true := by simp [State.owes, ho]
  let u := s.modHere fun k => { k with barrier := some kind }
  obtain ⟨timed, ready, he, -⟩ := u.lookBarrier_eq s.here.group
  have hh : (u.lookBarrier s.here.group).here = u.here := by rw [he]; rfl
  refine ⟨(u.lookBarrier s.here.group).stall .other, ?_, rfl, ?_⟩
  · rw [hi]
    simp only [State.barrierIssue, State.onlyC0_main hm, h]
    rw [if_neg hn, if_neg (by simp [hr])]
  · rw [State.stall_barrier, hh, State.here_modHere]

theorem execGvote_eq {d a : Fin 32} (h : s.src.gBad a = false ∨ s.here.barEnd ≠ none) :
    exec (.gvote d a) s = s.barrierIssue (.gvote (bitOf (s.g a) 0) d) fun v s => s.setG d v := by
  rw [exec_gvote, execGvote, if_neg]
  rcases h with h | h <;> simp [h]

/-- Writing gD leaves a core's barrier alone. -/
theorem State.setG_kept (u : State) (d : Fin 32) (v : Word) : (u.setG d v).cx.g d = (if d = 0 then 0 else v) ∧
    (u.setG d v).cx.pc = u.cx.pc ∧ (u.setG d v).mem = u.mem ∧
    (u.setG d v).here = { u.here with ctxs := (u.setG d v).here.ctxs, klatent := (u.setG d v).here.klatent } := by
  have h := u.setG_gotG d v false
  exact ⟨h.value, (congrArg Context.pc h.regs).trans rfl, rfl, h.core⟩

end

end Sys2Proof.Machine
end

section
/-! PROOFS. Phased exchange: the ends of barriers and phases (O36; R174, R176, R253, R458). -/

namespace Sys2Proof.Machine

/-- The phase of a group ends: a new one begins, and what its cores keep through a halt they have still. -/
theorem State.phaseEnd_keeps {P : Core → Prop} (hP : ∀ k run, P k → P { k with run := run }) {s t : State} {g c : Nat}
    {now : Nat} (h : P (s.core c)) (ht : t = (s.modGroup g fun x => x.newPhase now).endDeferral g) : P (t.core c) :=
  ht ▸ State.endDeferral_keeps hP _ g h

theorem State.phaseEnd_group (s : State) (g now : Nat) :
    ((s.modGroup g fun x => x.newPhase now).endDeferral g).group g = (s.group g).newPhase now :=
  (State.group_congr (State.endDeferral_groups _ g) g).trans (State.group_modGroup _ _ _)

/-! ### The end of a barrier (R176) -/

/-- What a vote delivers, by the number of cores that voted. -/
theorem voteWord_eq (kinds : List BarKind) : voteWord (kinds.map BarKind.vote) =
    let votes := (kinds.filter BarKind.vote).length
    BitVec.ofNat 64 (votes * 2 ^ 32 + (if 0 < votes then 2 else 0) + if votes = kinds.length then 1 else 0) := by
  have h : ((kinds.map BarKind.vote).filter id).length = (kinds.filter BarKind.vote).length := by
    rw [List.filter_map, List.length_map]
    rfl
  simp only [voteWord, h, List.length_map]

/-- The barriers the cores of a group wait in. -/
def State.kindsOf (s : State) (g : Group) : List BarKind := g.cores.filterMap fun c => (s.core c).barrier

/-- Every core of the group waits in `xsync` or `gvote`, and the phase is not too long: the barrier ends for all of them with
the count of the votes, and a new phase begins. -/
theorem execXsyncComplete_ends {s : State} {g : Group} {kinds : List BarKind} (hg : s.group s.ev.group = g)
    (hk : s.kindsOf g = kinds) (hready : s.barrierReady g = true) (hdue : g.ready = some s.ev.n)
    (hlong : g.exch = false ∨ g.kxslot < 1000) (hne : kinds ≠ []) (hall : ∀ k ∈ kinds, k ≠ .gbar) (hcoll : g.xcolls = []) :
    exec .xsyncComplete s = .next ((g.cores.foldl (fun s c => s.modCore c fun k => { k with kxph := k.kxph + 1 })
      ((s.endBarrier g (.done (voteWord (kinds.map BarKind.vote)))).modGroup s.ev.group fun x =>
        x.newPhase s.ticks)).endDeferral s.ev.group) := by
  have hgbar (k : BarKind) (h : k ∈ kinds) : decide (k = .gbar) = false := decide_eq_false (hall k h)
  have h1 : ¬ (!s.barrierReady g || kinds.isEmpty || decide (g.ready ≠ some s.ev.n)) = true := by
    simp [hready, hdue, hne]
  have h2 : ¬ (kinds.all fun k => decide (k = .gbar)) = true := by
    obtain ⟨k, hk⟩ := List.exists_mem_of_ne_nil _ hne
    exact fun h => by simpa [hgbar k hk] using List.all_eq_true.1 h k hk
  have h3 : ¬ (g.exch && decide (1000 ≤ g.kxslot)) = true := by
    rcases hlong with h | h
    · simp [h]
    · simp [Nat.not_le.2 h]
  have h4 : ¬ (kinds.any fun k => decide (k = .gbar)) = true := by
    intro h
    obtain ⟨k, hk, hd⟩ := List.any_eq_true.1 h
    rw [hgbar k hk] at hd
    cases hd
  rw [State.kindsOf] at hk
  simp only [exec_xsyncComplete, execXsyncComplete, hg, hk]
  rw [if_neg h1, if_neg h2, if_neg h3, if_neg h4, hcoll, firstColl]

theorem State.barEnd_endBarrier (s : State) (g : Group) (e : BarEnd) {c : Nat} (h : c ∈ g.cores) :
    ((s.endBarrier g e).core c).barEnd = some e :=
  State.foldl_modCore_mem (P := fun k => k.barEnd = some e) (f := fun k => { k with barEnd := some e }) (fun _ => rfl) s h

theorem execXsyncComplete_votes {s : State} {g : Group} {kinds : List BarKind} (hg : s.group s.ev.group = g)
    (hk : s.kindsOf g = kinds) (hready : s.barrierReady g = true) (hdue : g.ready = some s.ev.n)
    (hlong : g.exch = false ∨ g.kxslot < 1000) (hne : kinds ≠ []) (hall : ∀ k ∈ kinds, k ≠ .gbar) (hcoll : g.xcolls = []) :
    s.does .xsyncComplete fun t =>
      (∀ c ∈ g.cores, (t.core c).barEnd = some (.done (voteWord (kinds.map BarKind.vote)))) ∧
      (t.group s.ev.group).exch = false ∧ (t.group s.ev.group).kxslot = 0 ∧ t.mem = s.mem := by
  let e : BarEnd := .done (voteWord (kinds.map BarKind.vote))
  let u := (s.endBarrier g e).modGroup s.ev.group fun x => x.newPhase s.ticks
  let v := g.cores.foldl (fun s c => s.modCore c fun k => { k with kxph := k.kxph + 1 }) u
  have hv : v.groups = u.groups := State.foldl_modCore_groups (fun k => { k with kxph := k.kxph + 1 }) g.cores u
  have hgroup : (v.endDeferral s.ev.group).group s.ev.group = ((s.endBarrier g e).group s.ev.group).newPhase s.ticks :=
    (State.group_congr ((State.endDeferral_groups v _).trans hv) _).trans (State.group_modGroup _ _ _)
  refine ⟨_, execXsyncComplete_ends hg hk hready hdue hlong hne hall hcoll, fun c hc => ?_, congrArg Group.exch hgroup,
    congrArg Group.kxslot hgroup, ?_⟩
  · refine State.endDeferral_keeps (P := fun k => k.barEnd = some e) (fun _ _ h => h) v _ ?_
    refine State.foldl_modCore_keeps (P := fun k => k.barEnd = some e) (f := fun k => { k with kxph := k.kxph + 1 })
      (fun _ h => h) _ u ?_
    exact s.barEnd_endBarrier g e hc
  · rw [State.endDeferral_mem, State.foldl_modCore_memory]
    exact s.endBarrier_mem g e

/-! ### A phase too long (R174, R458) -/

/-- Some core waits in the barrier that would have closed the phase. -/
def State.closing (s : State) (g : Group) : Bool :=
  g.cores.any fun c => ((s.core c).waitsIn.map fun b => decide (b ≠ .gbar)).getD false

theorem execXlongPhaseEnd_ends {s : State} {g : Group} (hg : s.group s.ev.group = g) (hx : g.exch = true)
    (hr : g.st = .resident) (hlong : 1000 ≤ g.kxslot) : exec .xlongPhaseEnd s = .next
      (((g.cores.foldl (fun t c => t.xlongAt (s.closing g) c) s).modGroup s.ev.group fun x =>
        x.newPhase s.ticks).endDeferral s.ev.group) := by
  have h : ¬ ((!g.exch) = true ∨ g.st ≠ .resident ∨ g.kxslot < 1000) := by
    simp [hx, hr, Nat.not_lt.2 hlong]
  simp only [exec_xlongPhaseEnd, execXlongPhaseEnd, hg]
  rw [if_neg h]
  rfl

theorem State.xlongAt_other (s : State) (closing : Bool) {n c : Nat} (h : c ≠ n) : (s.xlongAt closing n).core c = s.core c := by
  rw [State.xlongAt]
  split
  · exact s.core_modCore_other n c (fun k => { k with barEnd := some (.trap Cause.xlong (Config.freeAddr s.fresh) none) }) h
  · exact s.core_modCore_other n c _ h

/-- A core that waits in the closing barrier traps there. -/
theorem State.xlongAt_waits {s : State} {c : Nat} (h : (s.core c).waitsIn.isSome = true) :
    ∃ ad, ((s.xlongAt true c).core c).barEnd = some (.trap Cause.xlong ad none) := by
  rw [State.xlongAt, if_pos ⟨rfl, h⟩]
  exact ⟨_, congrArg Core.barEnd (s.core_modCore c fun k =>
    { k with barEnd := some (.trap Cause.xlong (Config.freeAddr s.fresh) none) })⟩

/-- Any other traps at its next bundle, and owes the barrier. -/
theorem State.xlongAt_owes {s : State} {closing : Bool} {c : Nat} (h : ¬ (closing = true ∧ (s.core c).waitsIn.isSome = true)) :
    (s.xlongAt closing c).core c = { s.core c with xlongDue := true, owed := (s.core c).owed ++ [closing] } := by
  rw [State.xlongAt, if_neg h, State.core_modCore]

theorem State.xlongAt_groups (s : State) (closing : Bool) (c : Nat) : (s.xlongAt closing c).groups = s.groups := by
  rw [State.xlongAt]
  split <;> rfl

/-- Where no core waits in a barrier, every core traps at its next bundle, and a new phase begins. -/
theorem execXlongPhaseEnd_idle {s : State} {g : Group} (hg : s.group s.ev.group = g) (hx : g.exch = true)
    (hr : g.st = .resident) (hlong : 1000 ≤ g.kxslot) (hb : ∀ c ∈ g.cores, (s.core c).barrier = none) :
    s.does .xlongPhaseEnd fun t => (∀ c ∈ g.cores, (t.core c).xlongDue = true) ∧ (t.group s.ev.group).exch = false ∧
      (t.group s.ev.group).kxslot = 0 ∧ t.mem = s.mem := by
  have hclosing : s.closing g = false := by
    simp only [State.closing, List.any_eq_false]
    intro c hc
    simp [Core.waitsIn, hb c hc]
  have hstep : (fun (t : State) c => t.xlongAt false c) =
      fun t c => t.modCore c fun k => { k with xlongDue := true, owed := k.owed ++ [false] } := rfl
  have hend := execXlongPhaseEnd_ends hg hx hr hlong
  rw [hclosing, hstep] at hend
  have hgroup := State.phaseEnd_group
    (g.cores.foldl (fun t c => t.modCore c fun k => { k with xlongDue := true, owed := k.owed ++ [false] }) s) s.ev.group s.ticks
  refine ⟨_, hend, fun c hc => ?_, congrArg Group.exch hgroup, congrArg Group.kxslot hgroup, ?_⟩
  · refine State.phaseEnd_keeps (P := fun k => k.xlongDue = true) (fun _ _ h => h) ?_ rfl
    exact State.foldl_modCore_mem (P := fun k => k.xlongDue = true)
      (f := fun k => { k with xlongDue := true, owed := k.owed ++ [false] }) (fun _ => rfl) s hc
  · rw [State.endDeferral_mem, State.modGroup_mem, State.foldl_modCore_memory]

/-- Where some core waits in the barrier that would have closed the phase, each that waits traps there, and each other owes it. -/
theorem execXlongPhaseEnd_waited {s : State} {g : Group} (hg : s.group s.ev.group = g) (hx : g.exch = true)
    (hr : g.st = .resident) (hlong : 1000 ≤ g.kxslot) (hn : g.cores.Nodup)
    (hw : ∃ c ∈ g.cores, ∃ k, (s.core c).barrier = some k ∧ (s.core c).barEnd = none ∧ k ≠ .gbar) :
    s.does .xlongPhaseEnd fun t => ∀ c ∈ g.cores, (s.core c).barEnd = none →
      ((s.core c).barrier.isSome = true → ∃ ad, (t.core c).barEnd = some (.trap Cause.xlong ad none)) ∧
      ((s.core c).barrier = none → (t.core c).xlongDue = true ∧ (t.core c).owed = (s.core c).owed ++ [true]) := by
  have hclosing : s.closing g = true := by
    obtain ⟨c, hc, k, hk, he, hne⟩ := hw
    exact List.any_eq_true.2 ⟨c, hc, by simp [Core.waitsIn, hk, he, hne]⟩
  have hend := execXlongPhaseEnd_ends hg hx hr hlong
  rw [hclosing] at hend
  refine ⟨_, hend, fun c hc he => ?_⟩
  obtain ⟨u, hu, hcore⟩ := State.foldl_core_of_nodup (step := fun t c => t.xlongAt true c)
    (fun t n c h => t.xlongAt_other true h) hn s hc
  have hwait : (u.core c).waitsIn = (s.core c).barrier := by simp [hu, Core.waitsIn, he]
  refine ⟨fun hb => ?_, fun hb => ?_⟩
  · obtain ⟨ad, had⟩ := State.xlongAt_waits (s := u) (c := c) (by rw [hwait, hb])
    exact ⟨ad, State.phaseEnd_keeps (P := fun k => k.barEnd = some (.trap Cause.xlong ad none)) (fun _ _ h => h)
      (hcore ▸ had) rfl⟩
  · have hown := State.xlongAt_owes (s := u) (closing := true) (c := c) (by simp [hwait, hb])
    refine State.phaseEnd_keeps (P := fun k => k.xlongDue = true ∧ k.owed = (s.core c).owed ++ [true]) (fun _ _ h => h) ?_ rfl
    rw [hcore, hown, hu]
    exact ⟨rfl, rfl⟩

end Sys2Proof.Machine
end

section
/-! PROOFS. Phased exchange: the way of a flit (O36; R82, R175, R255 to R260). -/

namespace Sys2Proof.Machine

/-! ### Flits of a group, whether or not they meet others (R255, R260) -/

/-- Some flit of the group has a property. -/
def Group.carries (g : Group) (P : Flit → Prop) : Prop := ∃ f ∈ g.flits, P f

section
variable {P : Flit → Prop} (hP : ∀ f, P f → P { f with met := true })
include hP

theorem Group.carries_meet {g : Group} (h : g.carries P) (now : Nat) (x : Hop) (a b : Nat) : (g.meet now x a b).carries P := by
  obtain ⟨f, hf, hp⟩ := h
  refine ⟨_, List.mem_map_of_mem hf, ?_⟩
  split
  · exact hP f hp
  · exact hp

theorem Group.carries_use {g : Group} (h : g.carries P) (now id : Nat) (x : Hop) : (g.use now id x).carries P := by
  have hfold (l : List LinkUse) (g : Group) (h : g.carries P) :
      (l.foldl (fun g u => g.meet now x u.flit id) g).carries P := by
    induction l generalizing g with
    | nil => exact h
    | cons u l ih => exact ih _ (Group.carries_meet hP h now x u.flit id)
  exact hfold _ g h

theorem Group.carries_foldl_use {g : Group} (h : g.carries P) (now id : Nat) (hops : List Hop) :
    (hops.foldl (fun g x => g.use now id x) g).carries P := by
  induction hops generalizing g with
  | nil => exact h
  | cons x hops ih => exact ih (Group.carries_use hP h now id x)

/-- A flit that enters the network is on its way to every router whose eject output its path uses. -/
theorem State.carries_launchFlit (s : State) (g id doff : Nat) (data : VReg) (mark : Bool) {hops : List Hop}
    (segs : List (Nat × Vector Word 4)) {x : Hop} (hx : x ∈ hops) (ho : x.out = 5)
    (h : P { id := id, target := x.router, doff := doff, tick := x.tick + 1, data := data, mark := mark, met := false,
             segs := assoc (Vector.replicate 4 0) x.router segs }) :
    ((s.launchFlit g id doff data mark hops segs).group g).carries P := by
  have hg (l : List Hop) (t : State) : (l.foldl (fun t h => t.postStart (h.tick + 1) .flitLanding
      { group := g, id := id, core := h.router }) t).groups = t.groups :=
    State.groups_foldl (f := fun t (h : Hop) => t.postStart (h.tick + 1) .flitLanding
      { group := g, id := id, core := h.router }) (fun _ _ => rfl) l t
  simp only [State.launchFlit]
  rw [State.group_congr (hg _ _), State.group_modGroup]
  refine Group.carries_foldl_use hP ⟨_, List.mem_append_right _ (List.mem_map_of_mem (List.mem_filter.2 ⟨hx, ?_⟩)), h⟩ ..
  exact decide_eq_true ho

end

/-- A path ends at the eject output of its target. -/
theorem pathEject_ends (c d t : Nat) : ∃ x ∈ (pathEject c d t).1, x.out = 5 ∧ x.router = d :=
  ⟨_, List.mem_append_right _ (List.mem_singleton.2 rfl), rfl, rfl⟩

theorem State.carries_lookBarrier {s : State} {g : Nat} {P : Flit → Prop} (h : (s.group g).carries P) :
    ((s.lookBarrier g).group g).carries P := by
  obtain ⟨_, _, -, he⟩ := s.lookBarrier_eq g
  rw [he]
  exact h

theorem State.carries_modGroup {s : State} {g : Nat} {P : Flit → Prop} {f : Group → Group} (hf : ∀ x, (f x).flits = x.flits)
    (h : (s.group g).carries P) : ((s.modGroup g f).group g).carries P := by
  rw [State.group_modGroup]
  obtain ⟨x, hx, hp⟩ := h
  exact ⟨x, (hf _).symm ▸ hx, hp⟩

/-- A unicast flit is read in its slot and set on its way to the core its send names (R246, R255, R256). -/
theorem execFlitInject_unicast {s : State} {g : Group} (hg : s.group s.ev.group = g) {q : Xsend}
    (hq : g.xsends.find? (fun q => decide (q.id = s.ev.id)) = some q) (hn : q.done = s.ev.n) (hm : q.mode = .uc) :
    s.does .flitInject fun t => t.mem = s.mem ∧ (t.group s.ev.group).carries fun f =>
      f.target = g.corner + 256 * (q.tgt / 256) + q.tgt % 256 ∧ f.doff = q.doff + 32 * q.done ∧
      f.data = BitVec.ofNat 256 (s.loadNat (ulmKey q.core (q.soff + 32 * q.done)) 32) ∧
      f.mark = s.poisoned (ulmKey q.core (q.soff + 32 * q.done)) := by
  obtain ⟨x, hx, ho, hr⟩ := pathEject_ends q.core (g.corner + 256 * (q.tgt / 256) + q.tgt % 256) s.ticks
  have he : exec .flitInject s = execFlitInject s := rfl
  simp only [execFlitInject, hg, hq, hm] at he
  rw [if_neg (not_not.2 hn)] at he
  refine ⟨_, he, ?_, ?_⟩
  · simp
  · refine State.carries_lookBarrier (State.carries_modGroup (fun _ => rfl) ?_)
    exact State.carries_launchFlit (fun f hf => hf) _ _ _ _ _ _ _ (List.mem_cons_of_mem _ hx) ho ⟨hr, rfl, rfl, rfl⟩

/-! ### The sum at a router (R82) -/

theorem leNat_append (l m : List Byte) : leNat (l ++ m) = leNat l + 2 ^ (8 * l.length) * leNat m := by
  induction l with
  | nil => simp [leNat]
  | cons b l ih =>
    rw [List.cons_append, leNat, ih, leNat, List.length_cons, Nat.mul_succ, Nat.pow_add]
    ring

theorem leNat_drop (l : List Byte) (k : Nat) : leNat (l.drop k) = leNat l / 2 ^ (8 * k) := by
  induction k generalizing l with
  | zero => simp
  | succ k ih =>
    cases l with
    | nil => simp [leNat]
    | cons b l =>
      have hb : (b.toNat + 256 * leNat l) / 256 = leNat l := by have := b.isLt; omega
      have hp : 2 ^ (8 * (k + 1)) = 256 * 2 ^ (8 * k) := by rw [Nat.mul_succ, Nat.pow_add, Nat.mul_comm]
      rw [List.drop_succ_cons, ih, leNat, hp, ← Nat.div_div_eq_div_mul, hb]

theorem leNat_take (l : List Byte) {k : Nat} (h : k ≤ l.length) : leNat (l.take k) = leNat l % 2 ^ (8 * k) := by
  have hl := leNat_append (l.take k) (l.drop k)
  have hlt := leNat_lt (l.take k)
  rw [List.take_append_drop, List.length_take, Nat.min_eq_left h] at hl
  rw [List.length_take, Nat.min_eq_left h] at hlt
  rw [hl, Nat.add_mul_mod_self_left, Nat.mod_eq_of_lt hlt]

/-- A 32-bit element of 32 bytes in memory is the number that its four bytes hold. -/
theorem State.elem_loadNat (s : State) (a : Nat) {i : Nat} (h : i < 8) :
    (elem 32 i (BitVec.ofNat 256 (s.loadNat a 32))).toNat = s.loadNat (a + 4 * i) 4 := by
  have hlen : (memBytes s.mem a 32).length = 32 := memBytes_length _ _ _
  have hlt : leNat (memBytes s.mem a 32) < 2 ^ 256 := by simpa [hlen] using leNat_lt (memBytes s.mem a 32)
  have hb : memBytes s.mem (a + 4 * i) 4 = ((memBytes s.mem a 32).drop (4 * i)).take 4 := by
    rw [memBytes_drop, memBytes_take _ _ _ _ (by omega)]
  rw [State.loadNat, State.loadNat, hb, leNat_take _ (by simp [hlen]; omega), leNat_drop, elem, BitVec.extractLsb'_toNat,
    Nat.shiftRight_eq_div_pow, BitVec.toNat_ofNat, Nat.mod_eq_of_lt hlt, show 32 * i = 8 * (4 * i) by omega]

/-- The elements of a register made of a list of 32-bit numbers. -/
theorem elem_words {l : List Nat} (hl : l.length ≤ 8) {i : Nat} (h : i < l.length) :
    (elem 32 i (BitVec.ofNat 256 (leNat (l.flatMap fun e => natBytes e 4)))).toNat = l[i] % 2 ^ 32 := by
  have hlen (l : List Nat) : (l.flatMap fun e => natBytes e 4).length = 4 * l.length := by
    induction l with
    | nil => rfl
    | cons x l ih => simp [natBytes_length, ih]; omega
  have hdrop (l : List Nat) (i : Nat) : (l.flatMap fun e => natBytes e 4).drop (4 * i) = (l.drop i).flatMap fun e => natBytes e 4 := by
    induction i generalizing l with
    | zero => rfl
    | succ i ih =>
      cases l with
      | nil => simp
      | cons x l =>
        rw [List.flatMap_cons, List.drop_succ_cons, ← ih, Nat.mul_succ, Nat.add_comm, ← List.drop_drop,
          List.drop_left' (natBytes_length x 4)]
  have hlt : leNat (l.flatMap fun e => natBytes e 4) < 2 ^ 256 :=
    Nat.lt_of_lt_of_le (leNat_lt _) (Nat.pow_le_pow_right (by decide) (by rw [hlen]; omega))
  rw [elem, BitVec.extractLsb'_toNat, Nat.shiftRight_eq_div_pow, BitVec.toNat_ofNat, Nat.mod_eq_of_lt hlt,
    show 32 * i = 8 * (4 * i) by omega, ← leNat_drop, hdrop, List.drop_eq_getElem_cons h, List.flatMap_cons]
  rw [leNat_append, natBytes_length, Nat.add_mul_mod_self_left, leNat_natBytes]
  exact Nat.mod_mod _ _

theorem plainNan_lt {x : Nat} (h : x < 2 ^ 32) : plainNan x < 2 ^ 32 := by
  rw [plainNan]
  split
  · decide
  · exact h

/-- The sum of one contribution: its elements, with the default NaN for a NaN. -/
theorem routerSum_one (v : VReg) {i : Nat} (h : i < 8) : (elem 32 i (routerSum [v])).toNat = plainNan (elem 32 i v).toNat := by
  have hl : (((List.range 8).map fun i => (elem 32 i v).toNat).map plainNan).length = 8 := by simp
  have he := elem_words (Nat.le_of_eq hl) (i := i) (by omega)
  rw [List.getElem_map, List.getElem_map, List.getElem_range, Nat.mod_eq_of_lt (plainNan_lt (elem 32 i v).isLt)] at he
  exact he

theorem State.sawOwn_eq (s : State) (n : Nat) (c : Fin 11) (a size : Nat) :
    ∃ cores, s.sawOwn n c a size = { s with cores := cores } := by
  rw [State.sawOwn]
  split
  · exact ⟨_, rfl⟩
  · exact ⟨_, rfl⟩

/-- A reduction with one contributor: its flit sets out in its slot with what it contributes (R82, R258). -/
theorem execXredChainAdd_alone {s : State} {g : Group} (hg : s.group s.ev.group = g) {q : Contrib}
    (hq : g.chain s.ev.core s.ev.flag s.ev.m = [q]) (hc : q.core = s.ev.core) :
    s.does .xredChainAdd fun t => t.mem = s.mem ∧ (t.group s.ev.group).carries fun f =>
      f.target = g.chainDest s.ev.flag q.core q.tgt ∧ f.doff = q.doff + 32 * s.ev.n ∧
      f.data = routerSum [(s.flitAt q.core (q.soff + 32 * s.ev.n)).1] := by
  obtain ⟨x, hx, ho, hr⟩ := pathEject_ends q.core (g.chainDest s.ev.flag q.core q.tgt) s.ticks
  obtain ⟨cores, hsaw⟩ := s.sawOwn_eq q.core 0 (q.soff + 32 * s.ev.n) 32
  have he : exec .xredChainAdd s = execXredChainAdd s := rfl
  have hfind : [q].find? (fun x => decide (x.core = s.ev.core)) = some q := by simp [hc]
  have hmixed : ¬ chainMixed [q] = true := by simp [chainMixed]
  have hfirst : decide (([q].head?.map Contrib.core) = some s.ev.core) = true := by simp [hc]
  simp only [execXredChainAdd, hg, hq, hfind] at he
  rw [if_neg hmixed, if_pos hfirst, ← hc, hsaw] at he
  simp only [List.map_cons, List.map_nil] at he
  refine ⟨_, he, ?_, ?_⟩
  · rw [State.lookBarrier_mem, State.modGroup_mem, State.modGroup_mem, State.launchFlit_mem]
    rfl
  · refine State.carries_lookBarrier (State.carries_modGroup (fun y => ?_) (State.carries_modGroup (fun _ => rfl) ?_))
    · split <;> rfl
    · exact State.carries_launchFlit (fun f hf => hf) _ _ _ _ _ _ _ (List.mem_append_right _ hx) ho ⟨hr, rfl, rfl⟩

/-! ### Landings (R29, R175, R259) -/

/-- What lands is stored, and what the store invalidates is dropped; beside that only poison bits and KLATENT change. -/
theorem State.landUlm_cases (s : State) (c a : Nat) (bs : List Byte) (mark : Bool) :
    ∃ t, t = (s.storeBytes (ulmKey c a) bs).wrote (ulmKey c a) bs.length ∧
      (s.landUlm c a bs mark = t ∨ s.landUlm c a bs mark = t.setPoison (ulmKey c a) ∨
        s.landUlm c a bs mark = (t.clearPoison (ulmKey c a)).modCore c fun k => k.latent 1) := by
  refine ⟨_, rfl, ?_⟩
  simp only [State.landUlm]
  split
  · exact .inr (.inl rfl)
  · split
    · exact .inr (.inr rfl)
    · exact .inl rfl

theorem State.landUlm_memory (s : State) (c a : Nat) (bs : List Byte) (mark : Bool) :
    (s.landUlm c a bs mark).mem = ((s.storeBytes (ulmKey c a) bs).wrote (ulmKey c a) bs.length).mem := by
  obtain ⟨t, ht, h⟩ := s.landUlm_cases c a bs mark
  rw [← ht]
  rcases h with h | h | h <;> rw [h] <;> rfl

theorem State.wrote_groups (s : State) (key n : Nat) : (s.wrote key n).groups = s.groups := by
  rcases s.wrote_cases key n with h | h
  · rw [h]
  · rw [h]
    rfl

theorem State.landUlm_groups (s : State) (c a : Nat) (bs : List Byte) (mark : Bool) :
    (s.landUlm c a bs mark).groups = s.groups := by
  obtain ⟨t, ht, h⟩ := s.landUlm_cases c a bs mark
  have hw : t.groups = s.groups := ht ▸ State.wrote_groups _ _ _
  rcases h with h | h | h <;> rw [h] <;> exact hw

/-- Whatever becomes of the poison bits, a landing writes its bytes and no others. -/
theorem State.landUlm_gotMem {s : State} (h : s.wf) (c a n x : Nat) (mark : Bool) :
    s.gotMem (s.landUlm c a (natBytes x n) mark) (ulmKey c a) n (byteOf x) := by
  have hm := s.landUlm_memory c a (natBytes x n) mark
  rw [natBytes_length] at hm
  obtain ⟨hin, hout⟩ := State.gotMem_storeUlm h (ulmKey c a) n x
  exact ⟨fun k hk => (State.byteAt_congr hm _).trans (hin k hk), fun k hk => (State.byteAt_congr hm _).trans (hout k hk)⟩

section
variable {s : State} {g : Group} {f : Flit}

/-- The flit that has landed is no longer on its way. -/
def State.landing (s : State) (f : Flit) : State := s.modGroup s.ev.group fun g => { g with flits := g.flits.erase f }

theorem execFlitLanding_lands (hg : s.group s.ev.group = g) (hw : s.wf)
    (hf : g.flits.find? (fun f => decide (f.id = s.ev.id) && decide (f.target = s.ev.core)) = some f)
    (hl : s.live g.launch f.target = true) (hs : segCheck f.segs false f.doff 32 { rwr := true } = none) (hm : f.met = false) :
    s.does .flitLanding fun t => s.gotMem t (ulmKey f.target f.doff) 32 (byteOf f.data.toNat) ∧
      (t.group s.ev.group).flits = g.flits.erase f := by
  have hok : ¬ (!((s.landing f).live g.launch f.target && (segCheck f.segs false f.doff 32 { rwr := true }).isNone)) = true := by
    have hl' : (s.landing f).live g.launch f.target = true := hl
    simp [hl', hs]
  let u := (s.landing f).landUlm f.target f.doff (natBytes f.data.toNat 32) f.mark
  have he : exec .flitLanding s = .next (u.lookBarrier s.ev.group) := by
    simp only [exec_flitLanding, execFlitLanding, hg, hf]
    exact congrArg (fun t : State => Host.Outcome.next (t.lookBarrier s.ev.group))
      ((if_neg hok).trans (if_neg (by simp [hm])))
  obtain ⟨timed, ready, hb, hgr⟩ := u.lookBarrier_eq s.ev.group
  have hmem : (u.lookBarrier s.ev.group).mem = u.mem := u.lookBarrier_mem _
  obtain ⟨hin, hout⟩ := State.landUlm_gotMem (s := s.landing f) hw f.target f.doff 32 f.data.toNat f.mark
  refine ⟨_, he, ⟨fun k hk => (State.byteAt_congr hmem _).trans (hin k hk),
    fun k hk => (State.byteAt_congr hmem _).trans (hout k hk)⟩, ?_⟩
  have hu : u.group s.ev.group = { s.group s.ev.group with flits := (s.group s.ev.group).flits.erase f } :=
    (State.group_congr (State.landUlm_groups ..) _).trans (State.group_modGroup _ _ _)
  rw [hgr, hu, hg]

theorem execFlitLanding_refused (hg : s.group s.ev.group = g)
    (hf : g.flits.find? (fun f => decide (f.id = s.ev.id) && decide (f.target = s.ev.core)) = some f)
    (hs : segCheck f.segs false f.doff 32 { rwr := true } ≠ none) :
    s.does .flitLanding fun t => t.mem = s.mem ∧ (t.group s.ev.group).flits = g.flits.erase f ∧
      (t.group s.ev.group).xcolls = (if g.kxslot = 0 then 999 else g.kxslot - 1, f.target) :: g.xcolls := by
  have hok : (!((s.landing f).live g.launch f.target && (segCheck f.segs false f.doff 32 { rwr := true }).isNone)) = true := by
    simp [Option.isSome_iff_ne_none.2 hs]
  let u := (s.landing f).modGroup s.ev.group fun g => { g with xcolls := (g.lastSlot, f.target) :: g.xcolls }
  have he : exec .flitLanding s = .next (u.lookBarrier s.ev.group) := by
    simp only [exec_flitLanding, execFlitLanding, hg, hf]
    exact congrArg (fun t : State => Host.Outcome.next (t.lookBarrier s.ev.group)) (if_pos hok)
  obtain ⟨timed, ready, -, hgr⟩ := u.lookBarrier_eq s.ev.group
  have hl : (s.landing f).group s.ev.group = { g with flits := g.flits.erase f } := by
    rw [State.landing, State.group_modGroup, hg]
  have hu : u.group s.ev.group =
      { g with flits := g.flits.erase f, xcolls := (g.lastSlot, f.target) :: g.xcolls } := by
    rw [State.group_modGroup, hl]
    rfl
  rw [hu] at hgr
  exact ⟨_, he, u.lookBarrier_mem _, congrArg Group.flits hgr, congrArg Group.xcolls hgr⟩

end

end Sys2Proof.Machine
end

section
/-! PROOFS. Phased exchange, put together (O36). -/

namespace Sys2Proof.Machine

/-- Settles O36, clause by clause: sends and contributions by `xIssue`, the three ways of a barrier instruction by
`barrierIssue`, the ends of barriers and phases core by core, and a flit from its injection to its landing. -/
theorem phasedExchange : Obligations.PhasedExchange := by
  unfold Obligations.PhasedExchange
  intro s d a b m row x y gid now slot n tgt doff soff due lines outside e g kinds
  have hslot : xSlot y = slot := extractLsb'_toNat_eq y 32 16
  have hn : xFlits y = n := extractLsb'_toNat_eq y 16 16
  have htgt : xTgt y = tgt := (extractLsb'_toNat_eq y 0 16).trans (by rw [Nat.pow_zero, Nat.div_one])
  have hdoff : xDoff x = doff := extractLsb'_toNat_eq x 32 17
  have hsoff : xSoff x = soff := (extractLsb'_toNat_eq x 0 17).trans (by rw [Nat.pow_zero, Nat.div_one])
  refine ⟨fun hc hl hr hh => ?_, fun v hm hv => ?_, fun hm hbad he ho hrel => ?_, fun any rest hm hbad he ho => ?_,
    fun hready hdue hlong hne hall hcoll => ?_, fun hx hst hlong hb => execXlongPhaseEnd_idle rfl hx hst hlong hb,
    fun hx hst hlong hnd hw => execXlongPhaseEnd_waited rfl hx hst hlong hnd hw,
    fun q hq hd hmode => execFlitInject_unicast rfl hq hd hmode, fun q hq hc => ?_, fun f hw hf =>
      ⟨fun hl hs hm => execFlitLanding_lands rfl hw hf hl hs hm, fun hs => execFlitLanding_refused rfl hf hs⟩⟩
  · obtain ⟨hm, hdst, hsrc, hfits, hnow, hsome⟩ := hl
    have hs : s.sendsNow a b := ⟨hc, hm, hdoff ▸ hdst, hsoff ▸ hsrc, by rw [← hslot, ← hn] at hfits; exact hfits, hslot.trans hnow,
      hn ▸ hsome, by rw [← hsoff, ← hn] at hr; exact hr, by rw [← hsoff, ← hn] at hh; exact hh⟩
    refine ⟨fun hout => ?_, fun hout => ?_⟩
    · rw [← htgt] at hout
      obtain ⟨t, ht, hexch, hsends, htimed, hcx, hmem⟩ := execXsend_sends hs hout
      refine ⟨t, ht, hexch, ?_, fun k hk => htimed k (hn.symm ▸ hk), hcx, hmem⟩
      rw [← hslot, ← hn, ← htgt, ← hdoff, ← hsoff]
      exact hsends
    · have hout' : ¬ if row then (s.group gid).w ≤ xTgt (s.g b) % 256 else (s.group gid).h ≤ xTgt (s.g b) % 256 := by
        rw [show xTgt (s.g b) = tgt from htgt]
        exact hout
      obtain ⟨t, ht, hexch, hsends, htimed, hcx, hmem⟩ := execXred_contributes hs hout'
      refine ⟨t, ht, hexch, ?_, fun k hk => ?_, hcx, hmem⟩
      · rw [← hslot, ← hn, ← htgt, ← hdoff, ← hsoff]
        exact hsends
      · rw [← hslot]
        exact htimed k (hn.symm ▸ hk)
  · have hne : s.here.barEnd ≠ none := by simp [hv]
    obtain ⟨hg, hpc, hmem, hcore⟩ := s.barrierLeft.setG_kept d v
    rw [s.here_barrierLeft] at hcore
    exact ⟨⟨_, State.barrierIssue_done hm hv (exec_xsync s), s.here_barrierLeft, rfl⟩,
      ⟨_, State.barrierIssue_done hm hv (exec_gbar s), s.here_barrierLeft, rfl⟩,
      ⟨_, State.barrierIssue_done hm hv (execGvote_eq (.inr hne)), congrArg Core.barrier hcore, congrArg Core.barEnd hcore, hg,
        hpc.trans (congrArg Context.pc s.cx_barrierLeft), hmem⟩⟩
  · exact ⟨State.barrierIssue_waits hm he ho hrel (exec_xsync s), State.barrierIssue_waits hm he ho hrel (exec_gbar s),
      State.barrierIssue_waits hm he ho hrel (execGvote_eq (.inl hbad))⟩
  · obtain ⟨hg, hpc, hmem, hcore⟩ := s.debtPaid.setG_kept d 0
    rw [s.here_debtPaid ho] at hcore
    rw [ite_self] at hg
    have hx : BarKind.xsync ≠ .gbar := nofun
    have hv : BarKind.gvote (bitOf (s.g a) 0) d ≠ .gbar := nofun
    exact ⟨⟨_, State.barrierIssue_owed hm he ho (.inr hx) (exec_xsync s), s.here_debtPaid ho, rfl⟩,
      fun hany => ⟨_, State.barrierIssue_owed hm he ho (.inl hany) (exec_gbar s), s.here_debtPaid ho, rfl⟩,
      ⟨_, State.barrierIssue_owed hm he ho (.inr hv) (execGvote_eq (.inl hbad)), congrArg Core.owed hcore,
        (congrArg Core.barrier hcore).trans rfl, hg, hpc.trans (congrArg Context.pc s.cx_debtPaid), hmem⟩⟩
  · obtain ⟨t, ht, h⟩ := execXsyncComplete_votes rfl rfl hready hdue hlong hne hall hcoll
    exact ⟨t, ht, by rw [voteWord_eq] at h; exact h⟩
  · obtain ⟨t, ht, hmem, f, hf, htarget, hoff, hdata⟩ := execXredChainAdd_alone rfl hq hc
    refine ⟨t, ht, hmem, f, hf, htarget, hoff, fun i hi => ?_⟩
    rw [hdata, routerSum_one _ hi, State.flitAt, State.elem_loadNat _ _ hi]
    rfl

end Sys2Proof.Machine
end

section
/-! PROOFS. Decoding and encoding (O59, O57): the family of lemmas over every instruction, and words as what instructions are
encoded to. -/

namespace Sys2Proof.Laws.RoundTrip

/-- The lemmas of the family, one for each constructor, in the order of the constructors. -/
theorem roundTrip : ∀ i, Statement i :=
  Instr.rec (motive := Statement)
    trap tret kget kset kswp csave crest dbg br call bany ball bnone bnall bz bnz blt bge bltu bgeu callr jr jv ifm elm
    lpm brk cnt lpe cstart cquery cwait wform wsync reord ld8 ld8z ld16 ld16z ld32 ld32z ld64 st8 st16 st32 st64 vld vst
    vldx vstx ldw32 ldw64 stw32 stw64 vldw vstw aadd aand aor axor amin amax aminu amaxu aswp acas afadd adecz fence
    rprobe mwait cpy cpy2d lcp lcpNf lcs rdc ired ctw ctq qpop qpopl qpeek qcnt qwait qpush msend hsend rsend bsend xsend
    xred gvote launch launchNb ekickGecko ekickRake ekickCham ztst add sub and or xor andn shl shr sar rol min max minu
    maxu slt sltu mul mulh mulhu div divu rem remu sel clz ctz popc bfx bfi mov lea wadr addi andi ori xori shli shri sari
    li lui lhi vadd vsub vmul vmulh vmin vmax vminu vmaxu vand vor vxor vshl vshr vsar vabs vneg vadds vsubs vaddsu vsubsu
    vcmpeq vcmpne vcmplt vcmple vcmpltu vcmpleu vsel vdot4 vdot4u fadd fsub fmul fmin fmax fabs fneg fcpsgn fcmpeq fcmplt
    fcmple fcmpun fclass fround cvtf cvtfi cvtif cvtq cvtdq cvtsr ffma ffms ffnma frcp frsq fsqrt fexp2 flog2 fsin fcos
    fdiv vbcast vget vput vperm vext vins vmov vli vaddi vshli vshri wballot wany wall wshfl wshup wshdn wbfly wsum wmin
    wmax wscan mshape mclaim mzero mgo msc mrd mwr rep bxt trix cdec rbase cov hcmp nopC ret fim cyield cexit ifence xsync
    gbar nopA mrel repe illegalBundle sfuResultRetire windowRequest windowResponse parkedResume c0CompletionReport
    waveFormation partialWaveTimeout waveInstancePerform wsyncComplete gangBarrierComplete matrixOpStart scaleFifoConsume
    matrixOpEnd replayIssue flitInject xredChainAdd flitLanding xlongPhaseEnd xsyncComplete inboxArrival hitSorterArrival
    mailboxArrival overflowReturn copyRequestReceipt copySectorWrite copyComplete heatRaise sweeperHalving
    pageRequestGroup pageRequestResponse rdcSectorUpdate iredFold iredCombine geckoWalkStart geckoMigration geckoStepLimit
    geckoWalkEnd rakeCommand rakeCompletion chameleonCommand chameleonWindowAck chameleonEnd rayAtHome rayArrival
    salternCacheFill pageIn evictionIdleCheck treeletFillComplete initialPin heatPeriodEnd lport launchValidate
    waitWordCheck launchSelection panGrant c0Start swapOut groupRestore preemptDelivery deferredHalt coreSave
    groupRetirement launchEnd iqtail invalidationStart invalidationComplete atsInvalidateRequest atsInvalidateCompletion
    atsTranslationResponse pmap registerWrite hostBar2Access priReset lenboFlitReceive lenboNak lenboLaneLoss
    lenboLinkDown lenboPacketReceive lenboRetransmitTimeout epochRefusal lenboRequestGiveUp lenboCreditReturn widthreq
    scrub repeatedCorrection brineDivergence dbgctlStop dbgctlDump dbgctlLoad dbgctlResume thermalWarning thermalTrip
    thermalRecover thermalPowerOff powerUp fundamentalReset functionLevelReset getVersion getCapabilities
    negotiateAlgorithms getDigests getCertificate challenge getMeasurements powerOff

end Sys2Proof.Laws.RoundTrip

namespace Sys2Proof.Machine

/-- Settles O59: `Laws.RoundTrip.roundTrip`, which has a lemma for each instruction. -/
theorem decodeUndoesEncode : Obligations.DecodeUndoesEncode := by
  unfold Obligations.DecodeUndoesEncode
  intro i lone
  obtain ⟨hword, hdecode⟩ := Laws.RoundTrip.roundTrip i lone
  exact ⟨hword, fun w hf he => hdecode hf w he⟩

/-- A word is the instruction that encodes to it, with an L bit that the instruction may have. -/
theorem decodeWord_of_encode {w : BitVec 32} {lone : Bool} {i : Instr} (hf : wellFormed i = true)
    (hl : (lone || loneOnly i) = lone) (he : encode lone i = some w) : decodeWord w = some (lone, i) := by
  obtain ⟨-, hdecode⟩ := Laws.RoundTrip.roundTrip i lone
  rw [hdecode hf w he, hl]

/-- Settles O57: each word is what its instruction encodes to. -/
theorem decodedWords : Obligations.DecodedWords := by
  unfold Obligations.DecodedWords
  and_intros <;> exact decodeWord_of_encode rfl rfl rfl

end Sys2Proof.Machine
end

section
/-! PROOFS. What taking a trap saves and where it goes (O14): the trap of the bundle at the trap entry, beside those that
`State.trap_tookTrap` states. -/

namespace Sys2Proof.Machine

/-- An event under a bit of KERR that is set, other than bit 0, is only counted (R433). -/
theorem State.setKerr_set {s : State} {c bit : Nat} (cls : Nat) (addr detail : Word) (h : bitOf (s.core c).kerr bit = true)
    (hb : bit ≠ 0) : s.setKerr c bit cls addr detail = s.countError cls := by
  simp [State.setKerr, h, hb]

/-- What the launch is told of a trap of the bundle at the trap entry (R221). -/
def TrapRec.endInfo (t : TrapRec) (n : Nat) (c : Fin 11) : EndInfo :=
  { status := t.code, core := n, ctx := c, kepc := t.epc.setWidth 64, kcause := t.kcause, kaddr := t.addr }

/-- The trap of the bundle at the trap entry in supervisor mode, in a core that has recorded one before (R221). -/
theorem State.trapOf_again {s : State} {n : Nat} {c : Fin 11} {p : Off} (t : TrapRec)
    (h : (s.ctx n c).mode = true ∧ p = trapEntry (s.core n).kstvec) (hk : bitOf (s.core n).kerr 7 = true) :
    s.trapOf n c p t = ((s.modCore n fun k => { k with run := .stopped }).countError 10).post .launchEnd
      { launch := (s.core n).launch, info := t.endInfo n c } := by
  have hkerr : bitOf ((s.modCore n fun k => { k with run := .stopped }).core n).kerr 7 = true := by
    rwa [State.core_modCore]
  rw [← State.setKerr_set 10 0 t.kcause hkerr (by decide)]
  simp only [State.trapOf]
  exact if_pos h

/-- What such a trap leaves: the core stopped, its contexts and memory as they were, and the launch told. -/
theorem State.trap_again {s : State} (t : TrapRec) (h : s.doubleFault) (hk : bitOf s.here.kerr 7 = true) :
    (s.trap t).here = { s.here with run := .stopped } ∧ (s.trap t).cx = s.cx ∧ (s.trap t).mem = s.mem ∧
    (s.trap t).agenda = s.agenda ++
      [{ op := .launchEnd, arg := { launch := s.here.launch, info := t.endInfo s.cur.core s.cur.ctx }, lane := 0 }] := by
  rw [State.trap, State.trapOf_again t h hk]
  exact ⟨s.here_modHere fun k => { k with run := .stopped }, s.cx_modHere fun k => { k with run := .stopped }, rfl, rfl⟩

/-- KCAUSE of a trap that is not lane-precise: the code and PAIR (R22). -/
theorem TrapRec.kcause_whole (c : Cause) (p : Off) (a : Word) (b : Bool) :
    ({ code := c, epc := p, addr := a, pair := b } : TrapRec).kcause = c.setWidth 64 ||| (ofBool 64 b <<< 15) := by
  simp [TrapRec.kcause, ofBool]

/-- KADDR keeps the whole immediate of a `trap` (R22, R111). -/
theorem trapImm_kaddr (i : BitVec 14) : i.setWidth 64 &&& 0x00FFFFFFFFFFFFFF = i.setWidth 64 := by
  have hi : (i.setWidth 64 : Word).toNat < 2 ^ 56 := by rw [BitVec.toNat_setWidth]; omega
  apply BitVec.eq_of_toNat_eq
  rw [BitVec.toNat_and]
  exact Nat.and_two_pow_sub_one_of_lt_two_pow hi

/-- Settles O14: a software trap and a decode fault are traps with the record the rules give; a trap of the bundle at the trap
entry is `State.trap_again`. -/
theorem trapsTaken : Obligations.TrapsTaken := by
  unfold Obligations.TrapsTaken
  refine ⟨fun s i h => ⟨_, exec_trap i s, ?_⟩, fun s h => ⟨_, exec_illegalBundle s, ?_⟩,
    fun s i h hk => ⟨_, exec_trap i s, ?_⟩⟩
  · have ht := s.trap_tookTrap { code := Cause.swtrap, epc := s.cur.p + 4, addr := i.setWidth 64 } h rfl rfl
    rwa [trapImm_kaddr, TrapRec.kcause_whole] at ht
  · have ht := s.trap_tookTrap
      { code := s.ev.cause, epc := BitVec.ofNat 17 s.ev.addr, addr := s.ev.value, pair := s.ev.flag } h rfl rfl
    rwa [TrapRec.kcause_whole] at ht
  · obtain ⟨hcore, hcx, hmem, hagenda⟩ := State.trap_again _ h hk
    exact ⟨by rw [hcore], hcx, State.byteAt_congr hmem, _, hagenda, rfl, rfl, rfl⟩

end Sys2Proof.Machine
end

section
/-! PROOFS. A step runs the bundle it decoded (O56): the decoder under a part of its checks, fetching, and the attempt of a
context to issue. -/

namespace Sys2Proof

/-! ### What asks for the function code alone refuses no instruction (R46) -/

theorem decodeC0f_lax {w : Nat} {i : Instr} : decodeC0f 2 w = some i → decodeC0f 0 w = some i := by
  unfold decodeC0f
  split
  case h_3 => by_cases h : fld w 7 1 = 0 <;> simp +contextual [h]
  all_goals simp +contextual

theorem decodeC12_lax {w : Nat} {i : Instr} : decodeC12 2 w = some i → decodeC12 0 w = some i := by
  unfold decodeC12
  split
  case h_1 => by_cases h : fld w 0 1 = 0 <;> simp +contextual [h]
  case h_2 => split <;> simp +contextual
  case h_3 => exact id

/-- An instruction's word of class C names that instruction when only the function code is asked for: the reserved fields are
then not looked at, `whenLegal` refuses nothing, and `lax` gives the code that is there. Most majors are two matches on one
function code, arm for arm; those of `lcp` and `launch`, where a flag chooses the form, stand above. -/
theorem decodeC_lax {w : Nat} {i : Instr} : decodeC 2 w = some i → decodeC 0 w = some i := by
  unfold decodeC
  split
  case h_16 => exact decodeC0f_lax
  case h_19 => exact decodeC12_lax
  case h_1 | h_7 | h_8 | h_9 | h_13 | h_15 | h_17 | h_18 =>
    simp only [decodeC00, decodeC06, decodeC07, decodeC08, decodeC0c, decodeC0e, decodeC10, decodeC11]
    split <;> simp +contextual [whenLegal, Option.bind_eq_some_iff]
  all_goals exact id

/-- The same of class A. -/
theorem decodeA_lax {w : Nat} {i : Instr} : decodeA 2 w = some i → decodeA 0 w = some i := by
  unfold decodeA
  split
  case h_4 | h_5 | h_10 | h_11 | h_12 | h_20 => exact id
  all_goals
    simp only [decodeA00, decodeA01, decodeA02, decodeA03, decodeA08, decodeA09, decodeA0a, decodeA0b, decodeA0f, decodeA10,
      decodeA11, decodeA12, decodeA13, decodeA14]
    split <;> simp +contextual [whenLegal, lax, Option.bind_eq_some_iff]

/-- Asked for its function code only, an instruction's word names that instruction (step 2 of R46). -/
theorem decodeWith_zero {w : Nat} {i : Instr} : decodeNat w = some i → decodeWith 0 w = some i := by
  unfold decodeNat decodeWith
  split
  · exact decodeA_lax
  · exact decodeC_lax

namespace Machine

/-! ### Fetching -/

theorem State.fetchCheck_none {s : State} {n : Nat} {super : Bool} {p : Off} {size : Nat}
    (h : segCheck (s.core n).kseg super p.toNat size { x := true } = none) : s.fetchCheck n super p size = none := by
  simp [State.fetchCheck, h]

/-- A lone word that decodes, in a segment its mode may execute (R28, R46, R429). -/
theorem State.fetch_lone {s : State} {n : Nat} {super : Bool} {p : Off} {i : Instr} (buf : List (Off × Nat × Nat))
    (hseg : segCheck (s.core n).kseg super p.toNat 4 { x := true } = none) (hpois : s.poisoned (ulmKey n p.toNat) = false)
    (hL : isLone (s.codeWord n p) = true) (hdec : decodeNat (s.codeWord n p) = some i)
    (hpriv : superOnly i = true → super = true) :
    s.fetch n super p buf = .ok (.lone i (isAClass (s.codeWord n p))) := by
  have hp : ¬ (superOnly i = true ∧ super = false) := fun ⟨a, b⟩ => by simp [hpriv a] at b
  simp [State.fetch, State.fetchCheck_none hseg, hL, State.poisonedWord, hpois, checkLone, hdec, hp]

/-- Two words that decode and may stand together are a pair (R34, R36, R46). -/
theorem checkPair_ok {super : Bool} {p : Off} {w w2 : Nat} {c a : Instr} (hL : isLone w2 = false) (hC : isAClass w = false)
    (hA : isAClass w2 = true) (hc : decodeNat w = some c) (ha : decodeNat w2 = some a) (hlone : loneOnly c = false)
    (hdst : (writes c).meets (writes a) = false) (hpriv : superOnly c = true → super = true) :
    checkPair super p w w2 = .ok (.pair c a) := by
  have hp : ¬ (superOnly c = true ∧ super = false) := fun ⟨a, b⟩ => by simp [hpriv a] at b
  simp [checkPair, sameDestination, decodeWith_zero hc, decodeWith_zero ha, hL, hC, hA, hc, ha, hlone, hdst, hp]

/-- A pair that decodes, in a segment its mode may execute (R28, R33, R46, R429). -/
theorem State.fetch_pair {s : State} {n : Nat} {super : Bool} {p : Off} {b : Bundle} (buf : List (Off × Nat × Nat))
    (halign : p.toNat % 8 = 0) (hseg4 : segCheck (s.core n).kseg super p.toNat 4 { x := true } = none)
    (hseg8 : segCheck (s.core n).kseg super p.toNat 8 { x := true } = none) (hpois : s.poisonedWord n p 8 = none)
    (hL : isLone (s.codeWord n p) = false)
    (hpair : checkPair super p (s.codeWord n p) (s.codeWord n (p + 4)) = .ok b) : s.fetch n super p buf = .ok b := by
  have h4 : p.toNat % 8 ≠ 4 := by omega
  simpa [State.fetch, State.fetchCheck_none hseg4, State.fetchCheck_none hseg8, hL, h4, hpois] using hpair

/-! ### Running the bundle -/

/-- With no event pending the next core and context try to issue (R210). -/
theorem step_attempt {s : State} {n j : Nat} {k : Core} {c : Fin 11} (hag : s.agenda = []) (ht : s.timed = [])
    (hpow : s.power = .service) (hn : s.nextCore = some (n, k)) (hc : k.nextCtx = some (j, c)) :
    step s = watched ((s.modCore n fun k => { k with tried := j }).attempt n c) := by
  have hpick : s.pick = (none, s) := by simp [State.pick, hag]
  have hissue : s.issue = (s.modCore n fun k => { k with tried := j }).attempt n c := by
    simp [State.issue, State.atTime, ht, hn, hc]
  simp only [step, hpick, hpow, hissue]

/-- What has run of a bundle is wrapped up. -/
theorem State.attempt_of_tryBundle {s t : State} {n : Nat} {c : Fin 11} {b : Bundle} {x : Context}
    (hx : (s.core n).ctxs[c] = x) (hxlong : c = 0 → (s.core n).xlongDue = false) (hsup : (s.core n).atSupervisor c = false)
    (hrep : (s.core n).replaying c = false) (ha : x.aword = false) (hf : s.fetch n x.mode x.pc x.fbuf = .ok b)
    (hrun : s.tryBundle n c b = .next t) :
    s.attempt n c = .next { t.finish (s.captureWord n x.pc b) (x.sstep && !x.mode) x b.quiet with cur := {} } := by
  have hdue : ¬ (c = 0 ∧ (s.core n).xlongDue = true ∧ x.reLanes.isNone = true ∧ (s.core n).barEnd.isNone = true) :=
    fun ⟨h0, hd, _⟩ => by simp [hxlong h0] at hd
  subst hx
  simp only [State.attempt, ha, hf, hsup, hrep, hrun, if_neg hdue, Bool.false_eq_true, if_false]

theorem State.core_latch (s : State) (n : Nat) (c : Fin 11) (size : Off) :
    (s.latch n c size).core n = (s.core n).modCtx c fun x => { x with pc := x.pc + size } :=
  s.core_modCore n fun k => k.modCtx c fun x => { x with pc := x.pc + size }

theorem Core.rowsRead_modCtx (k : Core) (c : Fin 11) (f : Context → Context) (x : Context) :
    (k.modCtx c f).rowsRead x = k.rowsRead x := rfl

/-- A fetched bundle that nothing holds runs (R48, R153, R326). -/
theorem State.tryBundle_runs {s : State} {n : Nat} {c : Fin 11} {b : Bundle} {x : Context}
    (hx : (s.core n).ctxs[c] = x) (href : x.readsRefused ((s.core n).rowsRead x) b = false)
    (hheld : x.held ((s.core n).rowsRead x) b = false) (hdefer : (s.core n).run = .halting → b.deferHeld = false) :
    s.tryBundle n c b = (s.latch n c b.size).runBundle b := by
  have hd : ¬ ((s.core n).run = .halting ∧ b.deferHeld = true) := fun ⟨h, hb⟩ => by simp [hdefer h] at hb
  subst hx
  simp only [State.tryBundle, State.ctx, State.core_latch, Core.rowsRead_modCtx, Core.modCtx_run, href, hheld, if_neg hd,
    Bool.false_eq_true, if_false]

/-- Where the latch of a bundle stands, and where the PC (R38). -/
theorem State.latch_stands {s : State} {n : Nat} {c : Fin 11} (size : Off) (ha : (s.ctx n c).aword = false) :
    (s.latch n c size).cur.p = (s.ctx n c).pc ∧ (s.latch n c size).cx.pc = (s.ctx n c).pc + size := by
  constructor
  · simp [State.latch, ha]
  · show (((s.latch n c size).core n).ctxs[c]).pc = _
    rw [State.core_latch, Core.ctxs_modCtx]
    rfl

/-- Of a pair the C-word goes first, and the A-word reads the registers as they stood (R34). -/
theorem State.runPair_next {l r t v : State} {i a : Instr} (hr : exec a (State.atAWord { l with cur.pair := true } l.cx) = .next r)
    (hwait : r.cur.stalled = false) (ht : exec i { l with cur.pair := true } = .next t) (hstall : t.cur.stalled = false)
    (htrap : t.cur.trapped = false) (hv : exec a (t.atAWord l.cx) = .next v) : l.runPair i a = .next v := by
  have e : State.cx { l with cur.pair := true } = l.cx := rfl
  simp only [State.runPair, e, hr, hwait, ht, hstall, htrap, hv, Bool.false_eq_true, if_false, Bool.or_self]

/-- Settles O56: fetching by `State.fetch_lone` and `State.fetch_pair`; a step by `step_attempt`, whose bundle runs from its
latch (`State.tryBundle_runs`) and is wrapped up (`State.attempt_of_tryBundle`). -/
theorem stepRunsDecoded : Obligations.StepRunsDecoded := by
  unfold Obligations.StepRunsDecoded
  intro s
  refine ⟨?_, ?_, ?_, ?_⟩
  · intro n super p i w hseg hpois hL hdec hpriv buf
    exact State.fetch_lone buf hseg hpois hL hdec hpriv
  · intro n super p c a w w2 halign hseg4 hseg8 hpois hL hC hL2 hA hc ha hlone hdst hpriv buf
    exact State.fetch_pair buf halign hseg4 hseg8 hpois hL (checkPair_ok hL2 hC hA hc ha hlone hdst hpriv)
  · intro n k j c b hag ht hpow hn hc u x m hxlong hsup hrep ha hf href hheld hdefer l ends
    obtain ⟨hp, hpc⟩ := State.latch_stands b.size ha
    have hruns : u.tryBundle n c b = l.runBundle b := State.tryBundle_runs rfl href hheld hdefer
    have hends {t : State} (h : l.runBundle b = .next t) : step s = .next (ends t) := by
      rw [step_attempt hag ht hpow hn hc, State.attempt_of_tryBundle rfl hxlong hsup hrep ha hf (hruns.trans h)]
      rfl
    refine ⟨rfl, rfl, hp, hpc, ?_, ?_⟩
    · rintro i isA t rfl hi
      exact hends hi
    · rintro i a r t v rfl y hr hwait hi hstall htrap hv
      exact hends (State.runPair_next hr hwait hi hstall htrap hv)
  · intro task u hpick t ht
    simp only [step, hpick, ht, watched]

end Machine

end Sys2Proof
end

section
/-! PROOFS. An `rdc` step whose sector the copy does not have (O33, R388). -/

namespace Sys2Proof.Machine

/-- An `rdc` of no bytes, from offset 0x100 of its core's ULM to main memory. -/
def emptySum : Copy :=
  { id := 7, kind := .rdc, core := 0, ctx := 0, tag := 3, launch := 0, pasid := 0, dst := 0x5000, src := winOf 0 0x100,
    shape := 0, lanes := [], nf := false, mb := false, pd := none, pdBits := 0, dstR := none, srcR := none, next := 0,
    started := true, status := 0, poisoned := 0, zeroed := 0, addr := none, park := [], parts := [], idx := [], marked := [],
    got := none, out := false, refused := none }

/-- Main memory with the first GiB mapped for PASID 0 (R335, R336), and 1.0 in the first f32 of the source of `emptySum`: a step
names sector 0 of a copy that has none. -/
def stepPastEnd : State :=
  let s := ((((State.reset.placed.storeNat 0 8 0x1001).storeNat 0x1000 8 0x2001).storeNat 0x2000 8 0x3001).storeNat 0x3000 8
    0x4000005B).storeNat (ulmKey 0 0x100) 4 0x3F800000
  { s with copies := [emptySum], ev := { id := 7 } }

/-- The step leaves the destination as it was: it reads what the copy needs of the source sector (R241), which is nothing. -/
theorem stepPastEnd_adds_nothing : ∀ t, exec .rdcSectorUpdate stepPastEnd = .next t → t.loadNat 0x40005000 4 = 0 := by
  have h : (match exec .rdcSectorUpdate stepPastEnd with
      | .next t => t.loadNat 0x40005000 4
      | _ => 0) = 0 := by decide +kernel
  intro t ht
  rw [ht] at h
  exact h

/-- Refutes O33: the statement does not ask that the sector an `rdc` step names is one of the copy's. For the first sector of
an `rdc` of no bytes the destination would take 0.0 + 1.0; the step adds nothing. -/
theorem not_nearMemorySums : ¬ Obligations.NearMemorySums := by
  unfold Obligations.NearMemorySums
  intro h
  have hwf : stepPastEnd.wf := by unfold State.wf; decide +kernel
  obtain ⟨hrdc, -⟩ := h stepPastEnd emptySum 0x40005000 hwf (by decide +kernel) (by decide +kernel) (by decide +kernel) rfl rfl
    (by decide +kernel)
  obtain ⟨t, ht, hsum, -⟩ := hrdc rfl (by decide +kernel) (by decide +kernel) (by decide +kernel) rfl (by decide +kernel)
    (by decide +kernel) (by decide +kernel) (by decide +kernel)
  have hadded := (stepPastEnd_adds_nothing t ht).symm.trans (hsum 0 (by decide))
  exact absurd hadded (by decide +kernel)

end Sys2Proof.Machine
end

section
/-! PROOFS. An `mrel` while an operation of its core runs (O41, R184, R192). -/

namespace Sys2Proof.Machine

/-- An `mrel` of the claim holder waits for the end of the operation that runs, whether or not a report is pending (R184). -/
theorem execMrel_waits {s : State} (hrep : s.here.rep = none) (hclaim : s.here.claim = some s.cur.ctx)
    (hop : s.here.matOp.isSome = true) : exec .mrel s = .next (s.stall .gang) := by
  simp [exec_mrel, execMrel, State.notCaptured, State.captured, hrep, Core.ownsRep, State.claimed, Core.holds, hclaim, hop]

/-- An operation that c0 has running. -/
def runningOp : MatOp :=
  { id := 9, ctx := 0, off := 8, d5 := 0, shape := 0x87200804, rows := [], marks := [], b := [], bMark := [], scales := [],
    blocks := 0, endTick := 64, desync := false }

/-- Core 0 with the claim in c0, the report of an operation lost earlier pending, and a further operation running. -/
def reportPending : State :=
  { State.reset.placed.modHere (fun k => { k with claim := some 0, desync := some 4, matOp := some runningOp }) with
    cur := { p := 12, at_ := 12, next := 16 } }

/-- Refutes O41: of the instructions that take a pending MDESYNC report, `mrel` waits while an operation of the core runs, and
takes no trap before it ends; the statement does not ask that none runs. -/
theorem not_matrixEngine : ¬ Obligations.MatrixEngine := by
  unfold Obligations.MatrixEngine
  intro h
  obtain ⟨-, hreport, -⟩ := h reportPending
  have hplain : reportPending.plain := by unfold State.plain State.doubleFault; decide
  obtain ⟨⟨t, ht, htrap⟩, -⟩ := hreport 4 0 0 0 false .gr rfl rfl rfl rfl hplain .mrel (by simp)
  rw [execMrel_waits rfl rfl rfl] at ht
  cases ht
  exact absurd htrap.ended (by decide)

end Sys2Proof.Machine
end

section
/-! PROOFS. Vector registers by their lanes, lanes by their elements, and the shared forms of the vector instructions (R15, R120):
what a read gives of what was put together. -/

namespace Sys2Proof.Machine

/-! ### Lanes and masks -/

/-- A bit of a mask that is set bit by bit. -/
theorem bitOf_foldl_withBit {n i : Nat} (f : Nat → Bool) (h : i < n) (ls : List Nat) (m : BitVec n) :
    bitOf (ls.foldl (fun m l => withBit m l (f l)) m) i = if i ∈ ls then f i else bitOf m i := by
  induction ls generalizing m with
  | nil => simp
  | cons l ls ih =>
    rw [List.foldl_cons, ih]
    by_cases hl : i = l
    · subst hl
      simp [bitOf_withBit_same _ _ _ h]
    · simp [hl, bitOf_withBit_other _ _ _ _ hl]

@[simp] theorem bitOf_ofBits (f : Nat → Bool) {l : Nat} (h : l < 4) : bitOf (ofBits f) l = f l := by
  rw [ofBits, bitOf_foldl_withBit f h, if_pos (List.mem_range.2 h)]

@[simp] theorem mem_lanesOf {m : Mask} {l : Nat} : l ∈ lanesOf m ↔ l < 4 ∧ bitOf m l = true := by
  simp [lanesOf]

/-- A bit of a lane's word where it stands in the register. -/
theorem getLsbD_lane_placed (x : Word) {i j l : Nat} (hj : j < 64) (hl : l < 4) :
    ((x.setWidth 256) <<< (64 * i)).getLsbD (64 * l + j) = (decide (i = l) && x.getLsbD j) := by
  rw [BitVec.getLsbD_shiftLeft, BitVec.getLsbD_setWidth]
  rcases Nat.lt_trichotomy i l with h | h | h
  · have : 64 ≤ 64 * l + j - 64 * i := by omega
    simp [Nat.ne_of_lt h, BitVec.getLsbD_of_ge x _ this]
  · subst h
    have : 64 * i + j < 256 := by omega
    have h' : j < 256 := by omega
    simp [this, h']
  · have : 64 * l + j < 64 * i := by omega
    simp [Nat.ne_of_gt h, this]

@[simp] theorem lane_ofLanes (f : Nat → Word) {l : Nat} (h : l < 4) : lane l (ofLanes f) = f l := by
  apply BitVec.eq_of_getLsbD_eq
  intro j hj
  have h0 := getLsbD_lane_placed (f 0) (i := 0) hj h
  rw [Nat.mul_zero, BitVec.shiftLeft_zero] at h0
  have h1 := getLsbD_lane_placed (f 1) (i := 1) hj h
  have h2 := getLsbD_lane_placed (f 2) (i := 2) hj h
  have h3 := getLsbD_lane_placed (f 3) (i := 3) hj h
  simp only [Nat.mul_one, Nat.reduceMul] at h1 h2 h3
  rw [lane, elem, BitVec.getLsbD_extractLsb', ofLanes]
  simp only [BitVec.getLsbD_or, h0, h1, h2, h3, hj, decide_true, Bool.true_and]
  have hl : l = 0 ∨ l = 1 ∨ l = 2 ∨ l = 3 := by omega
  rcases hl with rfl | rfl | rfl | rfl <;> simp

/-- Registers with the same lanes are the same. -/
theorem vreg_ext {x y : VReg} (h : ∀ l, l < 4 → lane l x = lane l y) : x = y := by
  apply BitVec.eq_of_getLsbD_eq
  intro i hi
  have hb := congrArg (fun w : Word => w.getLsbD (i % 64)) (h (i / 64) (by omega))
  have hm : i % 64 < 64 := Nat.mod_lt _ (by decide)
  simpa only [lane, elem, BitVec.getLsbD_extractLsb', hm, decide_true, Bool.true_and, Nat.div_add_mod] using hb

/-! ### Elements of a lane -/

/-- An element inside a lane ends inside it. -/
theorem el_fits {w e : Nat} (h : e < 64 / w) : w * e + w ≤ 64 :=
  calc w * e + w = w * (e + 1) := (Nat.mul_succ w e).symm
    _ ≤ w * (64 / w) := Nat.mul_le_mul_left w h
    _ ≤ 64 := Nat.mul_div_le 64 w

theorem packEls_go_div (w : Nat) (l : List Nat) (e : Nat) :
    packEls.go w l / 2 ^ (w * e) % 2 ^ w = (l[e]?).getD 0 % 2 ^ w := by
  induction l generalizing e with
  | nil => simp [packEls.go]
  | cons x l ih =>
    cases e with
    | zero => simp [packEls.go]
    | succ e =>
      have hlt : x % 2 ^ w < 2 ^ w := Nat.mod_lt _ (Nat.two_pow_pos w)
      rw [packEls.go, Nat.mul_succ, Nat.add_comm (w * e), Nat.pow_add, ← Nat.div_div_eq_div_mul,
        Nat.add_mul_div_left _ _ (Nat.two_pow_pos w), Nat.div_eq_of_lt hlt, Nat.zero_add, ih]
      rfl

/-- An element of a lane made of elements. -/
theorem el_packEls {w e : Nat} (l : List Nat) (h : e < 64 / w) : el w e (packEls w l) = (l[e]?).getD 0 % 2 ^ w := by
  have hfit := el_fits h
  rw [el, packEls, BitVec.toNat_ofNat, Nat.shiftRight_eq_div_pow, show 64 = w * e + (64 - w * e) by omega, Nat.pow_add,
    Nat.mod_mul_right_div_self, Nat.mod_mod_of_dvd _ (Nat.pow_dvd_pow 2 (by omega)), packEls_go_div]

theorem el_lt (w e : Nat) (x : Word) : el w e x < 2 ^ w := Nat.mod_lt _ (Nat.two_pow_pos w)

@[simp] theorem el_perEl1 {w e : Nat} (f : Nat → Nat) (x : Word) (h : e < 64 / w) :
    el w e (perEl1 w f x) = f (el w e x) % 2 ^ w := by
  simp [perEl1, el_packEls _ h, h]

@[simp] theorem el_perEl2 {w e : Nat} (f : Nat → Nat → Nat) (x y : Word) (h : e < 64 / w) :
    el w e (perEl2 w f x y) = f (el w e x) (el w e y) % 2 ^ w := by
  simp [perEl2, el_packEls _ h, h]

/-! ### Vector instructions -/

/-- Lanes written with given words: they hold them. -/
theorem State.setV_ofLanes (s : State) (d : Fin 32) (m : Mask) (f : Nat → Word) (marks : Mask) :
    s.gotV (s.setV d m (ofLanes f) marks) d m f marks :=
  { s.setV_gotV d m (ofLanes f) marks with
    value := fun l hl => by rw [(s.setV_gotV d m (ofLanes f) marks).value l hl, lane_ofLanes f hl] }

theorem State.vMarked_eq_false {s : State} {m : Mask} {vs : List (Fin 32)} :
    s.vMarked m vs = false ↔ ∀ r ∈ vs, s.src.vBad r &&& m = 0 := by
  simp [State.vMarked]

/-- With no poisoned source a vector instruction has its effect (R120). -/
theorem State.vector_clean {s : State} {pr : Fin 8} {vs : List (Fin 32)} (h : s.cleanV pr vs) (effect : State) :
    s.vector pr vs effect = .next effect := by
  rw [State.vector, h.1, State.vMarked_eq_false.2 h.2]
  rfl

theorem State.lanes1_writes {s : State} {i : Instr} {f : Word → Word} {d a : Fin 32} {pr : Fin 8}
    (hi : exec i s = s.lanes1 f d a pr) (h : s.cleanV pr [a]) :
    s.writesV i d (s.active pr) fun l => f (lane l (s.src.v a)) :=
  ⟨_, hi.trans (State.vector_clean h _), s.setV_ofLanes d _ _ 0⟩

theorem State.lanes2_writes {s : State} {i : Instr} {f : Word → Word → Word} {d a b : Fin 32} {pr : Fin 8}
    (hi : exec i s = s.lanes2 f d a b pr) (h : s.cleanV pr [a, b]) :
    s.writesV i d (s.active pr) fun l => f (lane l (s.src.v a)) (lane l (s.src.v b)) :=
  ⟨_, hi.trans (State.vector_clean h _), s.setV_ofLanes d _ _ 0⟩

end Sys2Proof.Machine
end

section
/-! PROOFS. Floating comparisons, sign operations and classes (O22; R66, R67, R128, R129). -/

namespace Sys2Proof.Machine

/-! ### Comparisons into a predicate -/

theorem flagIf_or (a b : Bool) (f : Flags) : flagIf a f ||| flagIf b f = flagIf (a || b) f := by
  cases a <;> cases b <;> simp [flagIf]

/-- One flag raised by some elements of a list. -/
theorem foldl_flagIf {α : Type} (p : α → Bool) (f : Flags) (l : List α) (b : Bool) :
    l.foldl (fun fl x => fl ||| flagIf (p x) f) (flagIf b f) = flagIf (b || l.any p) f := by
  induction l generalizing b with
  | nil => simp
  | cons x l ih => rw [List.foldl_cons, flagIf_or, ih, List.any_cons, Bool.or_assoc]

theorem flagIf_cases (b : Bool) (f : Flags) : flagIf b f = f ∨ flagIf b f = 0 := by cases b <;> simp [flagIf]

theorem flagIf_eq_NV (b : Bool) : flagIf b flagNV = flagNV ↔ b = true := by cases b <;> decide

/-- NV of the signalling NaNs among two operands. -/
theorem sigFlags_pair (a b : FVal) : sigFlags [a, b] = flagIf (a.isSig || b.isSig) flagNV := by simp [sigFlags]

/-- A comparison holds of a lane when it holds of every element, and raises NV when an element of an active lane does. -/
theorem State.floatCmp_compares {s : State} {c : FCmp} {g : Fin 8} {a b : Fin 32} {t : FFmt} {pr : Fin 8} {i : Instr}
    (hi : exec i s = s.floatCmp c g a b t pr) (hc : s.cleanV pr [a, b]) {r nv : FVal → FVal → Bool}
    (heval : ∀ p q, c.eval p q = (r p q, flagIf (nv p q) flagNV)) {raises : Nat → Nat → Prop}
    (hnv : ∀ l e, nv (s.fval t.fmt a l e) (s.fval t.fmt b l e) = true ↔ raises l e) :
    ∃ u y fl, s.gotP u g (s.active pr) y ∧ exec i s = .next (u.raise fl) ∧
      (∀ l, l < 4 → (y l = true ↔ ∀ e, e < 64 / t.fmt.width → r (s.fval t.fmt a l e) (s.fval t.fmt b l e) = true)) ∧
      (fl = flagNV ∨ fl = 0) ∧
      (fl = flagNV ↔ ∃ l e, l < 4 ∧ bitOf (s.active pr) l ∧ e < 64 / t.fmt.width ∧ raises l e) := by
  have hflags (ls : List Nat) (z : Bool) :
      ls.foldl (fun fl l => ((List.range (64 / t.fmt.width)).map fun e =>
        c.eval (s.fval t.fmt a l e) (s.fval t.fmt b l e)).foldl (fun fl x => fl ||| x.2) fl) (flagIf z flagNV) =
      flagIf (z || ls.any fun l => (List.range (64 / t.fmt.width)).any fun e =>
        nv (s.fval t.fmt a l e) (s.fval t.fmt b l e)) flagNV := by
    induction ls generalizing z with
    | nil => simp
    | cons l ls ih =>
      rw [List.foldl_cons, List.foldl_map]
      simp only [heval] at ih ⊢
      rw [foldl_flagIf, ih, List.any_cons, Bool.or_assoc]
  refine ⟨_, _, _, s.setP_gotP g _ _, hi.trans (State.vector_clean hc _), fun l hl => ?_, ?_⟩
  · rw [bitOf_ofBits _ hl]
    simp [heval]
  · rw [show (0 : Flags) = flagIf false flagNV from rfl, hflags]
    refine ⟨flagIf_cases _ _, ?_⟩
    simp only [flagIf_eq_NV, Bool.false_or, List.any_eq_true, mem_lanesOf, List.mem_range, hnv]
    exact ⟨fun ⟨l, ⟨hl, ha⟩, e, he, h⟩ => ⟨l, e, hl, ha, he, h⟩, fun ⟨l, e, hl, ha, he, h⟩ => ⟨l, ⟨hl, ha⟩, e, he, h⟩⟩

/-! ### Sign bits (R66) -/

theorem fmt_width_pos (t : FFmt) : 0 < t.fmt.width := by cases t <;> decide

/-- The sign bit of an element. -/
theorem div_half_eq_testBit {w x : Nat} (hw : 0 < w) (hx : x < 2 ^ w) :
    x / 2 ^ (w - 1) = if x.testBit (w - 1) then 1 else 0 := by
  have hlt : x / 2 ^ (w - 1) < 2 := by
    rw [Nat.div_lt_iff_lt_mul (Nat.two_pow_pos _), ← Nat.pow_succ', Nat.succ_eq_add_one, Nat.sub_add_cancel hw]
    exact hx
  rw [Nat.testBit_eq_decide_div_mod_eq, Nat.mod_eq_of_lt hlt]
  generalize x / 2 ^ (w - 1) = q at hlt ⊢
  interval_cases q <;> rfl

/-- An element of a sign operation: the magnitude of the first operand with the sign that is given. -/
theorem el_signLane {w e : Nat} (hw : 0 < w) (f : Bool → Bool → Bool) (x y : Word) (h : e < 64 / w) :
    el w e (signLane w f x y) = el w e x % 2 ^ (w - 1) +
      if f ((el w e x).testBit (w - 1)) ((el w e y).testBit (w - 1)) then 2 ^ (w - 1) else 0 := by
  rw [signLane, el_perEl2 _ _ _ h, Nat.mod_eq_of_lt]
  have hlt : el w e x % 2 ^ (w - 1) < 2 ^ (w - 1) := Nat.mod_lt _ (Nat.two_pow_pos _)
  have h2 : 2 ^ w = 2 ^ (w - 1) + 2 ^ (w - 1) := by rw [← Nat.two_mul, ← Nat.pow_succ', Nat.succ_eq_add_one, Nat.sub_add_cancel hw]
  split <;> omega

/-- Half the range added modulo the range turns the top bit over. -/
theorem add_half_mod {w x : Nat} (hw : 0 < w) (hx : x < 2 ^ w) :
    (x + 2 ^ (w - 1)) % 2 ^ w = x % 2 ^ (w - 1) + if !x.testBit (w - 1) then 2 ^ (w - 1) else 0 := by
  have h2 : 2 ^ w = 2 ^ (w - 1) + 2 ^ (w - 1) := by rw [← Nat.two_mul, ← Nat.pow_succ', Nat.succ_eq_add_one, Nat.sub_add_cancel hw]
  have hdiv := div_half_eq_testBit hw hx
  have hmod := Nat.div_add_mod x (2 ^ (w - 1))
  rw [hdiv] at hmod
  have hlt := Nat.mod_lt x (Nat.two_pow_pos (w - 1))
  cases hb : x.testBit (w - 1) <;> simp only [hb, Bool.false_eq_true, if_false, if_true, Bool.not_true, Bool.not_false,
    Nat.mul_zero, Nat.mul_one, Nat.zero_add] at hmod ⊢
  · rw [Nat.mod_eq_of_lt (by omega)]; omega
  · rw [Nat.mod_eq_sub_mod (by omega), Nat.mod_eq_of_lt (by omega)]; omega

/-! ### Classes (R129) -/

/-- The ten classes are ten low bits, which every format of the four holds. -/
theorem FloatFmt.classOf_lt (f : FloatFmt) (x : Nat) : f.classOf x < 2 ^ 10 := by
  rw [FloatFmt.classOf]
  split <;> repeat' split
  all_goals decide

theorem fmt_width_ge (t : FFmt) : 10 ≤ t.fmt.width := by cases t <;> decide

/-! ### Comparisons, sign operations and classes, put together -/

section
variable {s : State} {d a b : Fin 32} {t : FFmt} {pr : Fin 8}

theorem execFcpsgn_writes (hc : s.cleanV pr [a, b]) : s.writesEls (.fcpsgn d a b t pr) d (s.active pr) t.fmt.width fun l e =>
    el t.fmt.width e (lane l (s.src.v a)) % 2 ^ (t.fmt.width - 1) +
      el t.fmt.width e (lane l (s.src.v b)) / 2 ^ (t.fmt.width - 1) * 2 ^ (t.fmt.width - 1) := by
  refine ⟨_, State.lanes2_writes (exec_fcpsgn d a b t pr s) hc, fun l e _ _ he => ?_⟩
  beta_reduce
  rw [el_signLane (fmt_width_pos t) _ _ _ he, div_half_eq_testBit (fmt_width_pos t) (el_lt _ _ _), ite_mul, Nat.one_mul,
    Nat.zero_mul]

theorem execFabs_writes (hc : s.cleanV pr [a]) : s.writesEls (.fabs d a t pr) d (s.active pr) t.fmt.width fun l e =>
    el t.fmt.width e (lane l (s.src.v a)) % 2 ^ (t.fmt.width - 1) := by
  refine ⟨_, State.lanes1_writes (exec_fabs d a t pr s) hc, fun l e _ _ he => ?_⟩
  rw [el_signLane (fmt_width_pos t) _ _ _ he]
  rfl

theorem execFneg_writes (hc : s.cleanV pr [a]) : s.writesEls (.fneg d a t pr) d (s.active pr) t.fmt.width fun l e =>
    (el t.fmt.width e (lane l (s.src.v a)) + 2 ^ (t.fmt.width - 1)) % 2 ^ t.fmt.width := by
  refine ⟨_, State.lanes1_writes (exec_fneg d a t pr s) hc, fun l e _ _ he => ?_⟩
  beta_reduce
  rw [el_signLane (fmt_width_pos t) _ _ _ he, add_half_mod (fmt_width_pos t) (el_lt _ _ _)]

theorem execFclass_writes (hc : s.cleanV pr [a]) : s.writesEls (.fclass d a t pr) d (s.active pr) t.fmt.width fun l e =>
    t.fmt.classOf (el t.fmt.width e (lane l (s.src.v a))) := by
  refine ⟨_, State.lanes1_writes (exec_fclass d a t pr s) hc, fun l e _ _ he => ?_⟩
  rw [el_perEl1 _ _ he, Nat.mod_eq_of_lt]
  exact Nat.lt_of_lt_of_le (t.fmt.classOf_lt _) (Nat.pow_le_pow_right (by decide) (fmt_width_ge t))

end

/-- Settles O22: each comparison by `State.floatCmp_compares` with the flag it raises, each sign operation by `el_signLane`, and
classes by their definition. -/
theorem floatComparesAndSigns : Obligations.FloatComparesAndSigns := by
  unfold Obligations.FloatComparesAndSigns
  intro s d a b g t pr f w n ftz act raw x nan op sig
  refine ⟨fun hc => ⟨?_, ?_, ?_, ?_, execFcpsgn_writes hc⟩, fun hc => ⟨execFabs_writes hc, execFneg_writes hc,
    execFclass_writes hc⟩⟩
  · exact State.floatCmp_compares (exec_fcmpeq g a b t pr s) hc (nv := fun p q => p.isSig || q.isSig) (fun p q => Prod.ext rfl (sigFlags_pair p q))
      fun _ _ => Bool.or_eq_true_iff
  · exact State.floatCmp_compares (exec_fcmplt g a b t pr s) hc (nv := fun p q => p.isNan || q.isNan) (fun _ _ => rfl)
      fun _ _ => Bool.or_eq_true_iff
  · exact State.floatCmp_compares (exec_fcmple g a b t pr s) hc (nv := fun p q => p.isNan || q.isNan)
      (fun p q => Prod.ext (congrArg (· && _) (Bool.not_or _ _)) rfl) fun _ _ => Bool.or_eq_true_iff
  · exact State.floatCmp_compares (exec_fcmpun g a b t pr s) hc (nv := fun p q => p.isSig || q.isSig) (fun p q => Prod.ext rfl (sigFlags_pair p q))
      fun _ _ => Bool.or_eq_true_iff

end Sys2Proof.Machine
end

section
/-! PROOFS. Wave operations at issue (O39; R139, R140). -/

namespace Sys2Proof.Machine

/-- A trap taken after a change of the issuing context that leaves what a trap reads. -/
theorem State.tookTrap_of_ctxOnly {s u t : State} {c : Word} {e : Off} {a : Word} (h : s.ctxOnly u) (hmode : u.cx.mode = s.cx.mode)
    (hr : u.cx.r = s.cx.r) (hf : u.cx.f = s.cx.f) (hk : u.cx.k = s.cx.k) (ht : u.tookTrap t c e a) : s.tookTrap t c e a := by
  have hcur : u.cur = s.cur := (congrArg State.cur h.rest).trans rfl
  have hvec : u.here.kstvec = s.here.kstvec := (congrArg Core.kstvec h.core).trans rfl
  obtain ⟨hregs, hflow, hlres, hlf⟩ := ht.regs
  exact { ht with
    pmode := ht.pmode.trans hmode
    pc := ht.pc.trans (congrArg trapEntry hvec)
    regs := ⟨hregs.trans hr, hflow.trans hf, hlres.trans (congrArg _ hk), hlf.trans (congrArg _ hk)⟩
    others := fun c hc => (ht.others c (hcur ▸ hc)).trans (h.ctxs c hc)
    cores := fun n hn => (ht.cores n (hcur ▸ hn)).trans (h.cores n hn)
    mem := fun a => (ht.mem a).trans (h.mem a) }

/-- An event put on the agenda changes nothing that a trap reads or leaves. -/
theorem State.tookTrap_of_post {s t : State} {op : Instr} {arg : EvArg} {c : Word} {e : Off} {a : Word}
    (ht : (s.post op arg).tookTrap t c e a) : s.tookTrap t c e a := by
  obtain ⟨h1, h2, h3, h4, h5, h6, h7, h8, h9, h10, h11⟩ := ht
  exact ⟨h1, h2, h3, h4, h5, h6, h7, h8, h9, h10, h11⟩

/-- The failed operations of the issuing context changed: nothing that a trap reads or leaves is. -/
theorem State.tookTrap_of_waveFaults {s t : State} (f : Context → List WaveOp) {c : Word} {e : Off} {a : Word}
    (ht : (s.modCx fun x => { x with waveFaults := f x }).tookTrap t c e a) : s.tookTrap t c e a := by
  have hcx : (s.modCx fun x => { x with waveFaults := f x }).cx = { s.cx with waveFaults := f s.cx } := s.cx_modCx _
  exact State.tookTrap_of_ctxOnly (s.modCx_ctxOnly _) ((congrArg Context.mode hcx).trans rfl) ((congrArg Context.r hcx).trans rfl)
    ((congrArg Context.f hcx).trans rfl) ((congrArg Context.k hcx).trans rfl) ht

theorem State.plain_waveFaults {s : State} (h : s.plain) (f : Context → List WaveOp) :
    (s.modCx fun x => { x with waveFaults := f x }).plain := by
  have hcx : (s.modCx fun x => { x with waveFaults := f x }).cx = { s.cx with waveFaults := f s.cx } := s.cx_modCx _
  have hvec : (s.modCx fun x => { x with waveFaults := f x }).here.kstvec = s.here.kstvec :=
    (congrArg Core.kstvec (s.modCx_ctxOnly _).core).trans rfl
  exact ⟨fun ⟨hm, hpc⟩ => h.1 ⟨(congrArg Context.mode hcx).symm.trans hm, hpc.trans (congrArg trapEntry hvec)⟩, h.2⟩

/-- A local check of a wave operation that fails otherwise than on poison is a trap with its cause (R140). -/
theorem State.waveFail_tookTrap {s : State} (hp : s.plain) (w : WaveOp) {c : Cause} (hc : c ≠ Cause.poison) :
    ∃ a, s.tookTrap (s.waveFail w c) (s.faultCause c) s.cur.at_ a := by
  simp only [State.waveFail, hc, if_false]
  refine ⟨_, State.tookTrap_of_waveFaults _ (State.tookTrap_of_post (State.faultOpen_tookTrap ?_ c))⟩
  exact State.plain_waveFaults hp _

section
variable {s : State} {w : WaveOp} {b : Fin 32} {pr : Fin 8} (hpr : s.src.pBad pr = false) (hb : s.src.gBad b = false)
  (hin : s.src.inWave = true) (hact : s.src.waveLanes w.active &&& ~~~w.members = 0)
include hpr hb hin hact

/-- An operation that names no lane of its context, with no lane active, is over (R140). -/
theorem State.waveIssue_idle (hnone : s.src.waveLanes 0xF &&& w.members = 0) (h0 : w.active = 0) :
    s.waveIssue w b pr = .next s := by
  simp only [State.waveIssue, hin, hpr, hb, hact, hnone, if_pos h0, ne_eq, not_true_eq_false, Bool.not_true, Bool.or_self,
    Bool.false_eq_true, if_false, if_true]

/-- With a lane active it raises WMASK (R140). -/
theorem State.waveIssue_outside (hnone : s.src.waveLanes 0xF &&& w.members = 0) (h0 : w.active ≠ 0) :
    s.waveIssue w b pr = .next (s.waveFail w Cause.wmask) := by
  simp only [State.waveIssue, hin, hpr, hb, hact, hnone, h0, ne_eq, not_true_eq_false, Bool.not_true, Bool.or_self,
    Bool.false_eq_true, if_false, if_true]

/-- An operation that passes the local checks waits for its round (R139, R457). -/
theorem State.waveIssue_waits (hown : s.src.waveLanes 0xF &&& w.members ≠ 0) (hlegal : waveIllegal w.fn w.view w.arg = false)
    (hbad : w.bad = 0) : s.waveIssue w b pr = .next
      (((s.modCx fun x => { x with waveOp := some w, waveFaults := x.faultsKept }).joinUp).post .waveInstancePerform
        { core := s.cur.core, id := s.src.waveNo, group := bedOf s.cur.core }) := by
  simp only [State.waveIssue, hin, hpr, hb, hact, if_neg hown, hlegal, hbad, ne_eq, not_true_eq_false, Bool.not_true,
    Bool.or_self, Bool.false_eq_true, if_false]

end

/-- A word that waits for its round, outside a replay: the PC stands at it, and nothing else changes (R457). -/
theorem State.joinUp_waits {s : State} (h : s.cur.replay = none) :
    s.joinUp.cx = { s.cx with pc := if s.cur.pair then s.cur.p + 4 else s.cur.p, aword := s.cx.aword || s.cur.pair } ∧
      s.joinUp.cur.joined = true ∧ s.joinUp.agenda = s.agenda ∧ s.joinUp.mem = s.mem := by
  cases hpair : s.cur.pair
  · have e : s.joinUp = { s.modCx (fun x => { x with pc := s.cur.p }) with cur.joined := true } := by
      simp [State.joinUp, h, hpair]
    rw [e]
    refine ⟨(s.cx_modCx _).trans ?_, rfl, rfl, rfl⟩
    simp
  · have e : s.joinUp = { s.modCx (fun x => { x with pc := s.cur.p + 4, aword := true }) with cur.joined := true } := by
      simp [State.joinUp, h, hpair]
    rw [e]
    refine ⟨(s.cx_modCx _).trans ?_, rfl, rfl, rfl⟩
    simp

/-! ### The instructions -/

/-- An operation as an instruction with mask gB brings it: the function and the view, the lanes, and of a function of a predicate
the predicate, of another the source and the old destination (R121, R141 to R143). -/
structure State.brings (s : State) (o : Instr × WaveFn × View × Bool) (d a b : Fin 32) (q pr : Fin 8) (w : WaveOp) : Prop where
  issued : exec o.1 s = s.waveIssue w b pr
  fn : w.fn = o.2.1
  view : w.view = o.2.2.1
  members : w.members = (s.src.g b).setWidth 32
  arg : w.arg = s.src.g b
  active : w.active = s.active pr
  next : w.next = s.cx.pc
  value : if o.2.2.2 then w.pred = s.src.p q else w.src = s.src.v a ∧ w.old = s.src.v d
  bad : w.bad = if o.2.2.2 then (if s.src.pBad q then s.active pr else 0) else
    (s.src.vBad a ||| if o.2.1 = .shfl then s.src.vBad d else 0) &&& s.active pr

/-- The wave instructions with their functions and views; those of a predicate are marked. -/
def waveInstrs (d a b : Fin 32) (q r : Fin 8) (t : View) (pr : Fin 8) : List (Instr × WaveFn × View × Bool) :=
  [(.wballot d q b pr, .ballot, .b, true), (.wany r q b pr, .any, .b, true), (.wall r q b pr, .all, .b, true),
   (.wshfl d a b pr, .shfl, .d, false), (.wshup d a b pr, .shup, .d, false), (.wshdn d a b pr, .shdn, .d, false),
   (.wbfly d a b pr, .bfly, .d, false), (.wsum d a b t pr, .sum, t, false), (.wmin d a b t pr, .min, t, false),
   (.wmax d a b t pr, .max, t, false), (.wscan d a b t pr, .scan, t, false)]

theorem waveInstrs_bring (s : State) (d a b : Fin 32) (q r : Fin 8) (t : View) (pr : Fin 8) :
    ∀ o ∈ waveInstrs d a b q r t pr, ∃ w, s.brings o d a b q pr w := by
  simp only [waveInstrs, List.forall_mem_cons]
  iterate 3 refine ⟨⟨_, rfl, rfl, rfl, rfl, rfl, rfl, rfl, rfl, rfl⟩, ?_⟩
  iterate 8 refine ⟨⟨_, rfl, rfl, rfl, rfl, rfl, rfl, rfl, ⟨rfl, rfl⟩, rfl⟩, ?_⟩
  exact List.forall_mem_nil _

end Sys2Proof.Machine
end

section
/-! PROOFS. A wave round is performed (O39; R139): the members of a wave, their operations taken, and each of them in turn given
its result. -/

namespace Sys2Proof.Machine

/-! ### Changes of single contexts -/

/-- A change of a core that touches one context alone, among contexts. -/
def Core.onlyCtx (c : Fin 11) (k k' : Core) : Prop := ∀ d : Fin 11, d ≠ c → k'.ctxs[d] = k.ctxs[d]

theorem Core.onlyCtx_modCtx (k : Core) (c : Fin 11) (f : Context → Context) : k.onlyCtx c (k.modCtx c f) :=
  fun d h => Core.ctxs_modCtx_other k c d f h

theorem State.ctx_modCore (s : State) (n : Nat) (c : Fin 11) (f : Core → Core) :
    (s.modCore n f).ctx n c = (f (s.core n)).ctxs[c] := by rw [State.ctx, State.core_modCore]

theorem State.ctx_modCore_other (s : State) {n : Nat} {c : Fin 11} {f : Core → Core}
    (hf : Core.onlyCtx c (s.core n) (f (s.core n))) {m : Nat × Fin 11} (h : m ≠ (n, c)) :
    (s.modCore n f).ctx m.1 m.2 = s.ctx m.1 m.2 := by
  by_cases hn : m.1 = n
  · subst hn
    rw [State.ctx_modCore]
    exact hf m.2 fun e => h (Prod.ext rfl e)
  · rw [State.ctx, State.core_modCore_other _ _ _ _ hn]
    rfl

/-- Steps that each change one context: what a step does to its own context holds of the whole run, for each listed once. -/
theorem State.foldl_ctx {α : Type} {step : State → α → State} {key : α → Nat × Fin 11} {R : α → Context → Context → Prop} {l : List α}
    (hother : ∀ p ∈ l, ∀ u m, m ≠ key p → (step u p).ctx m.1 m.2 = u.ctx m.1 m.2)
    (hown : ∀ p ∈ l, ∀ u, R p (u.ctx (key p).1 (key p).2) ((step u p).ctx (key p).1 (key p).2)) (hl : (l.map key).Nodup)
    (s : State) {p : α} (hp : p ∈ l) : R p (s.ctx (key p).1 (key p).2) ((l.foldl step s).ctx (key p).1 (key p).2) := by
  have hkeep (l : List α) (hl : ∀ p ∈ l, ∀ u m, m ≠ key p → (step u p).ctx m.1 m.2 = u.ctx m.1 m.2) (u : State)
      {m : Nat × Fin 11} (h : m ∉ l.map key) : (l.foldl step u).ctx m.1 m.2 = u.ctx m.1 m.2 := by
    induction l generalizing u with
    | nil => rfl
    | cons q l ih =>
      rw [List.map_cons, List.mem_cons, not_or] at h
      exact (ih (fun p hp => hl p (List.mem_cons_of_mem q hp)) _ h.2).trans (hl q List.mem_cons_self u m h.1)
  induction l generalizing s with
  | nil => cases hp
  | cons q l ih =>
    obtain ⟨hq, hl⟩ := List.nodup_cons.1 hl
    have hrest {p : α} (h : p ∈ l) : p ∈ q :: l := List.mem_cons_of_mem q h
    rw [List.foldl_cons]
    rcases List.mem_cons.1 hp with rfl | hp
    · rw [hkeep l (fun p h => hother p (hrest h)) _ hq]
      exact hown p List.mem_cons_self s
    · have hne : key p ≠ key q := fun e => hq (e ▸ List.mem_map_of_mem hp)
      rw [← hother q List.mem_cons_self s _ hne]
      exact ih (fun p h => hother p (hrest h)) (fun p h => hown p (hrest h)) hl _ hp

/-! ### Members (R139) -/

theorem State.members_nodup (s : State) (b num : Nat) : (s.members b num).Nodup := by
  have hsome {x : Bool} {m n : Nat × Fin 11} (h : n ∈ (if x = true then some m else none)) : m = n := by
    cases x
    · cases h
    · exact Option.some.inj h
  rw [State.members, List.nodup_flatMap]
  constructor
  · intro n _
    refine List.Nodup.filterMap (fun c c' m hc hc' => ?_) (by decide)
    exact (Prod.ext_iff.1 ((hsome hc).trans (hsome hc').symm)).2
  · refine List.Nodup.pairwise_of_forall_ne (List.Nodup.map (fun i j h => ?_) List.nodup_range) fun n _ n' _ hne => ?_
    · simpa using h
    · intro m hm hm'
      obtain ⟨c, _, hc⟩ := List.mem_filterMap.1 hm
      obtain ⟨c', _, hc'⟩ := List.mem_filterMap.1 hm'
      exact hne (Prod.ext_iff.1 ((hsome hc).trans (hsome hc').symm)).1

theorem oldestPart_mem {l : List Part} {p : Part} (h : oldestPart l = some p) : p ∈ l := by
  induction l generalizing p with
  | nil => cases h
  | cons q l ih =>
    simp only [oldestPart] at h
    split at h
    · exact Option.some.inj h ▸ List.mem_cons_self
    · next r hr =>
      split at h
      · exact Option.some.inj h ▸ List.mem_cons_of_mem _ (ih hr)
      · exact Option.some.inj h ▸ List.mem_cons_self

theorem oldestPart_some {l : List Part} (h : l ≠ []) : ∃ p ∈ l, oldestPart l = some p := by
  cases hl : oldestPart l with
  | some p => exact ⟨p, oldestPart_mem hl, rfl⟩
  | none =>
    cases l with
    | nil => exact absurd rfl h
    | cons q l =>
      simp only [oldestPart] at hl
      split at hl
      · cases hl
      · split at hl <;> cases hl

/-- A member with its pending operation. -/
def partOf (op : Nat × Fin 11 → WaveOp) (m : Nat × Fin 11) : Part := { core := m.1, ctx := m.2, op := op m, pending := true }

/-- What a pending member receives, and its word over (R139). -/
def State.served (s : State) (ps : List Part) (t : State) (p : Part) : State :=
  (State.waveDeliver s t ps p).joinDone p.core p.ctx p.op.next p.op.replayed

/-- A round whose members have all arrived and agree: their operations are taken, and each is served (R139). -/
theorem execWaveInstancePerform_agreed {s : State} {op : Nat × Fin 11 → WaveOp}
    (hne : s.members s.ev.group s.ev.id ≠ [])
    (harrived : ∀ m ∈ s.members s.ev.group s.ev.id, (s.ctx m.1 m.2).wake = none ∧ (s.ctx m.1 m.2).waveFaults = [] ∧
      (s.ctx m.1 m.2).waveOp = some (op m) ∧ (s.ctx m.1 m.2).waveLanes 0xF &&& (op m).members ≠ 0)
    (hagree : ∀ m ∈ s.members s.ev.group s.ev.id, ∀ n ∈ s.members s.ev.group s.ev.id,
      (op m).agrees (op n) = true ∧ (op m).members = (op n).members) :
    exec .waveInstancePerform s =
      let ps := (s.members s.ev.group s.ev.id).map (partOf op)
      .next ((ps.foldl (s.served ps) (ps.foldl State.waveConsume s)).post .waveInstancePerform s.ev) := by
  generalize hms : s.members s.ev.group s.ev.id = ms at hne harrived hagree
  have hheads {l : List (Nat × Fin 11)} (h : ∀ m ∈ l, m ∈ ms) : l.filterMap s.waveHead = l.map (partOf op) := by
    rw [← List.filterMap_eq_map]
    refine List.filterMap_congr fun m hm => ?_
    obtain ⟨-, hf, ho, -⟩ := harrived m (h m hm)
    simp [State.waveHead, hf, ho, partOf]
  have hpend : (ms.map (partOf op)).filter Part.pending = ms.map (partOf op) :=
    List.filter_eq_self.2 fun p hp => by
      obtain ⟨m, -, rfl⟩ := List.mem_map.1 hp
      rfl
  have hps : ms.map (partOf op) ≠ [] := fun h => hne (List.map_eq_nil_iff.1 h)
  obtain ⟨w, hw, hold⟩ := oldestPart_some hps
  obtain ⟨m0, hm0, rfl⟩ := List.mem_map.1 hw
  have hnamed : ms.filter (fun m => decide ((s.ctx m.1 m.2).asFormed.waveLanes 0xF &&& (partOf op m0).op.members ≠ 0)) = ms :=
    List.filter_eq_self.2 fun m hm => by
      obtain ⟨hwake, -, -, hlanes⟩ := harrived m hm
      rw [(hagree m hm m0 hm0).2] at hlanes
      simpa [Context.asFormed, hwake, partOf] using hlanes
  have hperform : s.wavePerform (ms.map (partOf op)) = (ms.map (partOf op)).foldl (s.served (ms.map (partOf op)))
      ((ms.map (partOf op)).foldl State.waveConsume s) := by
    rw [State.wavePerform, hpend]
    split
    · next h => exact absurd h hps
    · next q rest h =>
      have hall : (rest.all fun p => p.op.agrees q.op) = true := by
        rw [List.all_eq_true]
        intro p hp
        obtain ⟨m, hm, rfl⟩ := List.mem_map.1 (h ▸ List.mem_cons_of_mem q hp : p ∈ ms.map (partOf op))
        obtain ⟨n, hn, rfl⟩ := List.mem_map.1 (h ▸ List.mem_cons_self : q ∈ ms.map (partOf op))
        exact (hagree m hm n hn).1
      simp only [hall, if_true, ← h]
      rfl
  have hempty : ((ms.map (partOf op)).isEmpty) = false := by simpa using hne
  have hempty' : ms.isEmpty = false := by simpa using hne
  simp only [exec_waveInstancePerform, execWaveInstancePerform, hms, hheads fun m hm => hm, hpend, hempty, Bool.false_eq_true,
    if_false, hold, hnamed, List.length_map, hempty', Bool.not_false, and_self, if_true, hperform]

end Sys2Proof.Machine
end

section
/-! PROOFS. What serving a participant of a wave round does to its context (O39; R139, R141 to R143). -/

namespace Sys2Proof.Machine

/-! ### Registers of a context written (R13, R15) -/

section
variable (k : Core) (c : Fin 11)

theorem Core.onlyCtx_latent {k k' : Core} {c : Fin 11} (n : Nat) (h : k.onlyCtx c k') : k.onlyCtx c (k'.latent n) := h

theorem Core.onlyCtx_trans {k k' k'' : Core} {c : Fin 11} (h : k.onlyCtx c k') (h' : k'.onlyCtx c k'') : k.onlyCtx c k'' :=
  fun d hd => (h' d hd).trans (h d hd)

theorem Core.onlyCtx_writeG (r : Fin 32) (x : Word) (mark : Bool) : k.onlyCtx c (k.writeG c r x mark) := by
  rw [Core.writeG]
  split
  · exact fun _ _ => rfl
  · exact Core.onlyCtx_latent _ (Core.onlyCtx_modCtx k c _)

theorem Core.onlyCtx_writeV (r : Fin 32) (m : Mask) (x : VReg) (marks : Mask) : k.onlyCtx c (k.writeV c r m x marks) :=
  Core.onlyCtx_latent _ (Core.onlyCtx_modCtx k c _)

theorem Core.onlyCtx_writeP (r : Fin 8) (m bits : Mask) : k.onlyCtx c (k.writeP c r m bits) := by
  rw [Core.writeP]
  split
  · exact fun _ _ => rfl
  · exact Core.onlyCtx_latent _ (Core.onlyCtx_modCtx k c _)

theorem Core.ctxs_writeG (r : Fin 32) (x : Word) (mark : Bool) (hr : r ≠ 0) :
    ((k.writeG c r x mark).ctxs[c]).g r = x ∧ ((k.writeG c r x mark).ctxs[c]).waveOp = k.ctxs[c].waveOp := by
  rw [Core.writeG, if_neg hr, Core.ctxs_latent, Core.ctxs_modCtx]
  exact ⟨by simp [Context.g, hr], rfl⟩

theorem Core.waveOp_writeG (r : Fin 32) (x : Word) (mark : Bool) :
    ((k.writeG c r x mark).ctxs[c]).waveOp = k.ctxs[c].waveOp := by
  by_cases hr : r = 0
  · simp [Core.writeG, hr]
  · exact (Core.ctxs_writeG k c r x mark hr).2

theorem Core.ctxs_writeV (r : Fin 32) (m : Mask) (f : Nat → Word) (marks : Mask) :
    (∀ l, l < 4 → lane l (((k.writeV c r m (ofLanes f) marks).ctxs[c]).v r) = if bitOf m l then f l else lane l (k.ctxs[c].v r)) ∧
      ((k.writeV c r m (ofLanes f) marks).ctxs[c]).waveOp = k.ctxs[c].waveOp := by
  rw [Core.writeV, Core.ctxs_latent, Core.ctxs_modCtx]
  refine ⟨fun l hl => ?_, rfl⟩
  rw [← lane_ofLanes f hl, ← lane_mix _ _ _ _ hl]
  simp [Context.v]

theorem Core.ctxs_writeP (r : Fin 8) (m : Mask) (v : Bool) :
    (r ≠ 0 → ∀ l, l < 4 → bitOf (((k.writeP c r m (if v then 0xF else 0)).ctxs[c]).p r) l =
      if bitOf m l then v else bitOf (k.ctxs[c].p r) l) ∧
      ((k.writeP c r m (if v then 0xF else 0)).ctxs[c]).waveOp = k.ctxs[c].waveOp := by
  by_cases hr : r = 0
  · exact ⟨fun h => absurd hr h, by simp [Core.writeP, hr]⟩
  · rw [Core.writeP, if_neg hr, Core.ctxs_latent, Core.ctxs_modCtx]
    refine ⟨fun _ l hl => ?_, rfl⟩
    have hbit : bitOf (if v then 0xF else 0 : Mask) l = v := by
      cases v
      · simp [bitOf]
      · interval_cases l <;> rfl
    have hmix : bitOf ((k.ctxs[c].r.p[r] &&& ~~~m) ||| ((if v then 0xF else 0) &&& m)) l =
        if bitOf m l then v else bitOf k.ctxs[c].r.p[r] l := by
      simp only [bitOf] at hbit ⊢
      simp only [BitVec.getLsbD_or, BitVec.getLsbD_and, BitVec.getLsbD_not, hl, decide_true, Bool.true_and, hbit]
      by_cases hb : m.getLsbD l = true <;> simp [hb]
    simpa [Context.p, hr] using hmix

end

/-! ### The end of the word (R457) -/

theorem Core.ctxs_capture (k : Core) (c : Fin 11) (w : Option (BitVec 32)) (a : Off) : (k.capture c w a).ctxs = k.ctxs := by
  rw [Core.capture.eq_def]
  split
  · dsimp only
    split <;> rfl
  · rfl

/-- The word of a context is over, and a capture takes it (R195, R457). -/
def Core.wordOver (k : Core) (c : Fin 11) (next : Off) (w : BitVec 32) (a : Off) : Core :=
  (k.modCtx c fun x => { x with pc := next, aword := false, reLanes := none, block := none }).capture c (some w) a

theorem Core.ctxs_wordOver (k : Core) (c : Fin 11) (next : Off) (w : BitVec 32) (a : Off) :
    (k.wordOver c next w a).ctxs[c] = { k.ctxs[c] with pc := next, aword := false, reLanes := none, block := none } := by
  simp only [Core.wordOver, Core.ctxs_capture, Core.ctxs_modCtx]

theorem Core.onlyCtx_wordOver (k : Core) (c : Fin 11) (next : Off) (w : BitVec 32) (a : Off) :
    k.onlyCtx c (k.wordOver c next w a) := fun d hd => by
  simp only [Core.wordOver, Core.ctxs_capture]
  exact Core.ctxs_modCtx_other _ _ _ _ hd

/-- The trap after a retired bundle of a context in user mode (R111). -/
theorem State.breakStep_user {s : State} {n : Nat} {c : Fin 11} (h : (s.ctx n c).mode = false) : ∃ t : TrapRec, s.breakStep n c =
    { s.modCore n (fun k => ((k.modCtx c fun x => x.enter t k.kstvec).suspendRep c).deferTrap c) with fresh := s.fresh + 1 } :=
  ⟨_, State.trapOf_next { s with fresh := s.fresh + 1 } n c _ _ fun hd => Bool.false_ne_true (h.symm.trans hd.1)⟩

/-- A served context keeps its registers, and memory stays: the word is over, and under KMODE.SSTEP a trap of its context
follows (R111, R457). -/
theorem State.joinDone_served (u : State) (n : Nat) (c : Fin 11) (next : Off) : ∃ F fresh,
    u.joinDone n c next false = { u.modCore n F with fresh := fresh } ∧
    (u.core n).onlyCtx c (F (u.core n)) ∧ ((F (u.core n)).ctxs[c]).r = (u.core n).ctxs[c].r ∧
    ((u.core n).ctxs[c].waveOp = none → ((F (u.core n)).ctxs[c]).waveOp = none) := by
  generalize hF : (fun k : Core => k.wordOver c next (BitVec.ofNat 32 (u.loadNat (ulmKey n (u.ctx n c).pc.toNat) 4))
    (u.ctx n c).pc) = F
  have hctx : (F (u.core n)).ctxs[c] =
      { (u.core n).ctxs[c] with pc := next, aword := false, reLanes := none, block := none } := by
    subst hF
    exact Core.ctxs_wordOver _ _ _ _ _
  have honly : (u.core n).onlyCtx c (F (u.core n)) := by
    subst hF
    exact Core.onlyCtx_wordOver _ _ _ _ _
  have hdone : u.joinDone n c next false =
      if (u.ctx n c).sstep && !(u.ctx n c).mode && (u.ctx n c).live && !(u.ctx n c).ending then (u.modCore n F).breakStep n c
      else u.modCore n F := by
    subst hF
    rfl
  rw [hdone]
  split
  · next hs =>
    simp only [Bool.and_eq_true, Bool.not_eq_true'] at hs
    obtain ⟨⟨⟨-, hm⟩, -⟩, -⟩ := hs
    have hmode : ((u.modCore n F).ctx n c).mode = false := by
      rw [State.ctx_modCore, hctx]
      exact hm
    obtain ⟨t, ht⟩ := State.breakStep_user hmode
    refine ⟨fun k => (((F k).modCtx c fun x => x.enter t (F k).kstvec).suspendRep c).deferTrap c, u.fresh + 1, ht.trans ?_,
      fun d hd => ?_, ?_, fun _ => ?_⟩
    · exact congrArg (fun x : State => { x with fresh := u.fresh + 1 }) (State.modCore_modCore u n F _)
    · rw [Core.ctxs_taken, Core.ctxs_modCtx_other _ _ _ _ hd]
      exact honly d hd
    · rw [Core.ctxs_taken, Core.ctxs_modCtx, hctx]
      rfl
    · rw [Core.ctxs_taken, Core.ctxs_modCtx]
      rfl
  · exact ⟨F, u.fresh, rfl, honly, by rw [hctx], fun h => by rw [hctx]; exact h⟩

/-! ### Results (R141 to R143) -/

/-- The lanes of a participant that take part: active, and named by the mask (R139). -/
def Part.lanes (s : State) (p : Part) : Mask :=
  ofBits fun l => bitOf p.op.active l && decide ((elem 8 l (s.ctx p.core p.ctx).k.lane).toNat < 32) &&
    bitOf p.op.members (elem 8 l (s.ctx p.core p.ctx).k.lane).toNat

/-- What a reduction or scan gives a lane: its elements packed (R143). -/
def State.reduced (s : State) (ps : List Part) (p : Part) (l : Nat) : Word :=
  packEls p.op.view.bits ((redAll s ps p.op).map fun y =>
    ((y[(elem 8 l (s.ctx p.core p.ctx).k.lane).toNat]?).map FRes.code).getD 0)

/-- The destination of a participant as a round leaves it, from its registers before and after. -/
def State.delivered (s : State) (ps : List Part) (p : Part) (old new : Context) : Prop :=
  let w := p.op
  let r := Fin.ofNat 8 w.dst.val
  let bits (v : Bool) : Prop := r ≠ 0 → ∀ l, l < 4 → bitOf (new.p r) l = if bitOf w.active l then v else bitOf (old.p r) l
  let lanes (f : Nat → Word) : Prop := ∀ l, l < 4 →
    lane l (new.v w.dst) = if bitOf (p.lanes s) l then f l else lane l (old.v w.dst)
  match w.fn with
  | .ballot => w.dst ≠ 0 → new.g w.dst = (ballotOf s ps).1.setWidth 64
  | .any => bits (decide ((ballotOf s ps).1 ≠ 0))
  | .all => bits (decide ((ballotOf s ps).1 = (ballotOf s ps).2))
  | .shfl | .shup | .shdn | .bfly =>
    lanes fun l => (shuffled s ps w l (elem 8 l (s.ctx p.core p.ctx).k.lane).toNat).1
  | .sum | .min | .max | .scan => lanes (s.reduced ps p)

/-- The result depends on the registers alone. -/
theorem State.delivered_congr {s : State} {ps : List Part} {p : Part} {old new old' new' : Context} (ho : old'.r = old.r)
    (hn : new'.r = new.r) (h : s.delivered ps p old new) : s.delivered ps p old' new' := by
  simpa only [State.delivered, Context.g, Context.p, Context.v, ho, hn] using h

/-- A predicate written whole or not at all in some lanes, and then marked where `b` says. -/
def Core.votes (k : Core) (c : Fin 11) (r : Fin 8) (m : Mask) (v b : Bool) : Core :=
  let k := k.writeP c r m (if v then 0xF else 0)
  if b then k.modCtx c fun x => { x with r.pMark := withBit x.r.pMark r true } else k

theorem Core.onlyCtx_votes (k : Core) (c : Fin 11) (r : Fin 8) (m : Mask) (v b : Bool) : k.onlyCtx c (k.votes c r m v b) := by
  rw [Core.votes]
  split
  · exact Core.onlyCtx_trans (Core.onlyCtx_writeP k c r m _) (Core.onlyCtx_modCtx _ c _)
  · exact Core.onlyCtx_writeP k c r m _

theorem Core.ctxs_votes (k : Core) (c : Fin 11) (r : Fin 8) (m : Mask) (v b : Bool) :
    (r ≠ 0 → ∀ l, l < 4 → bitOf (((k.votes c r m v b).ctxs[c]).p r) l = if bitOf m l then v else bitOf (k.ctxs[c].p r) l) ∧
      ((k.votes c r m v b).ctxs[c]).waveOp = k.ctxs[c].waveOp := by
  have h := Core.ctxs_writeP k c r m v
  rw [Core.votes]
  split
  · rw [Core.ctxs_modCtx]
    exact h
  · exact h

/-- Serving a participant changes its context alone, and leaves the result there (R141 to R143). -/
theorem State.waveDeliver_delivered (s t : State) (ps : List Part) (p : Part) : ∃ F, State.waveDeliver s t ps p = t.modCore p.core F ∧
    ∀ k : Core, k.onlyCtx p.ctx (F k) ∧ ((F k).ctxs[p.ctx]).waveOp = k.ctxs[p.ctx].waveOp ∧
      s.delivered ps p k.ctxs[p.ctx] (F k).ctxs[p.ctx] := by
  cases hfn : p.op.fn
  case ballot =>
    refine ⟨_, by simp only [State.waveDeliver, hfn]; rfl, fun k =>
      ⟨Core.onlyCtx_writeG k p.ctx _ _ _, Core.waveOp_writeG k p.ctx _ _ _, ?_⟩⟩
    simp only [State.delivered, hfn]
    exact fun hd => (Core.ctxs_writeG k _ _ _ _ hd).1
  case any | all =>
    refine ⟨fun k => k.votes p.ctx (Fin.ofNat 8 p.op.dst.val) p.op.active _ _, by simp only [State.waveDeliver, hfn]; rfl, fun k =>
      ⟨Core.onlyCtx_votes k p.ctx _ _ _ _, (Core.ctxs_votes k p.ctx _ _ _ _).2, ?_⟩⟩
    simp only [State.delivered, hfn]
    exact (Core.ctxs_votes k p.ctx _ _ _ _).1
  case shfl | shup | shdn | bfly =>
    refine ⟨_, by simp only [State.waveDeliver, hfn]; rfl, fun k =>
      ⟨Core.onlyCtx_writeV k p.ctx _ _ _ _, (Core.ctxs_writeV k p.ctx _ _ _ _).2, ?_⟩⟩
    simp only [State.delivered, hfn]
    exact (Core.ctxs_writeV k p.ctx _ _ _ _).1
  case sum | min | max | scan =>
    refine ⟨_, by simp only [State.waveDeliver, hfn]; rfl, fun k =>
      ⟨Core.onlyCtx_trans (Core.onlyCtx_writeV k p.ctx _ _ _ _) (Core.onlyCtx_modCtx _ p.ctx _), ?_, ?_⟩⟩
    · rw [Core.ctxs_modCtx]
      exact (Core.ctxs_writeV k p.ctx _ _ _ _).2
    · simp only [State.delivered, hfn]
      rw [Core.ctxs_modCtx]
      exact (Core.ctxs_writeV k p.ctx _ _ _ _).1

/-! ### The round (R139) -/

/-- Serving a participant outside a replay: other contexts and memory stay, and its own has the result. -/
theorem State.served_delivered (s : State) (ps : List Part) (t : State) {p : Part} (hp : p.op.replayed = false) :
    (∀ m, m ≠ (p.core, p.ctx) → (s.served ps t p).ctx m.1 m.2 = t.ctx m.1 m.2) ∧ (s.served ps t p).mem = t.mem ∧
    ((t.ctx p.core p.ctx).waveOp = none → ((s.served ps t p).ctx p.core p.ctx).waveOp = none) ∧
    s.delivered ps p (t.ctx p.core p.ctx) ((s.served ps t p).ctx p.core p.ctx) := by
  obtain ⟨F, hF, hdeliver⟩ := State.waveDeliver_delivered s t ps p
  obtain ⟨honly, hop, hgot⟩ := hdeliver (t.core p.core)
  obtain ⟨G, fresh, hG, honly', hr, hop'⟩ := State.joinDone_served (t.modCore p.core F) p.core p.ctx p.op.next
  have hserved : s.served ps t p = { (t.modCore p.core F).modCore p.core G with fresh := fresh } := by
    rw [State.served, hF, hp, hG]
  rw [State.core_modCore] at honly' hr hop'
  have hctx (m : Nat × Fin 11) : (s.served ps t p).ctx m.1 m.2 = (t.modCore p.core fun k => G (F k)).ctx m.1 m.2 := by
    rw [hserved, State.modCore_modCore]
    rfl
  refine ⟨fun m hm => ?_, by rw [hserved]; rfl, fun h => ?_, ?_⟩
  · rw [hctx]
    exact State.ctx_modCore_other t (Core.onlyCtx_trans honly honly') hm
  · rw [hctx (p.core, p.ctx), State.ctx_modCore]
    exact hop' (hop.trans h)
  · rw [hctx (p.core, p.ctx), State.ctx_modCore]
    exact State.delivered_congr rfl hr hgot

/-- Taking the pending operation of a participant leaves its registers, and other contexts and memory. -/
theorem State.waveConsume_pending (t : State) {p : Part} (hp : p.pending = true) :
    (∀ m, m ≠ (p.core, p.ctx) → (t.waveConsume p).ctx m.1 m.2 = t.ctx m.1 m.2) ∧
    ((t.waveConsume p).ctx p.core p.ctx).waveOp = none ∧ ((t.waveConsume p).ctx p.core p.ctx).r = (t.ctx p.core p.ctx).r := by
  refine ⟨fun m hm => State.ctx_modCore_other t (Core.onlyCtx_modCtx _ _ _) hm, ?_, ?_⟩
  · rw [State.waveConsume, State.ctx_modCtx, if_pos hp]
  · rw [State.waveConsume, State.ctx_modCtx, if_pos hp]

/-- Every participant of a round gets its result, its operation is over, and memory stays (R139). -/
theorem State.served_all (s : State) {op : Nat × Fin 11 → WaveOp} {ms : List (Nat × Fin 11)} (hnodup : ms.Nodup)
    (hfetched : ∀ m ∈ ms, (op m).replayed = false) :
    let ps := ms.map (partOf op)
    let u := ps.foldl (s.served ps) (ps.foldl State.waveConsume s)
    u.mem = s.mem ∧ ∀ m ∈ ms, (u.ctx m.1 m.2).waveOp = none ∧
      s.delivered ps (partOf op m) (s.ctx m.1 m.2) (u.ctx m.1 m.2) := by
  intro ps u
  have hfetched' : ∀ p ∈ ps, p.op.replayed = false := fun p hp => by
    obtain ⟨m, hm, rfl⟩ := List.mem_map.1 hp
    exact hfetched m hm
  have hpending : ∀ p ∈ ps, p.pending = true := fun p hp => by
    obtain ⟨m, -, rfl⟩ := List.mem_map.1 hp
    rfl
  have hkeys : (ps.map fun p => (p.core, p.ctx)).Nodup := by
    rw [List.map_map]
    exact (List.map_id ms).symm ▸ hnodup
  constructor
  · refine List.foldlRecOn ps (s.served ps) (motive := fun t => t.mem = s.mem) (State.mem_foldl (f := State.waveConsume) (fun _ _ => rfl) ps s)
      fun t ht p hp => ?_
    obtain ⟨-, hmem, -, -⟩ := s.served_delivered ps t (hfetched' p hp)
    exact hmem.trans ht
  · intro m hm
    have hp : partOf op m ∈ ps := List.mem_map_of_mem hm
    obtain ⟨hop, hr⟩ := State.foldl_ctx (R := fun _ old new => new.waveOp = none ∧ new.r = old.r)
      (fun p hp t => (State.waveConsume_pending t (hpending p hp)).1) (fun p hp t => (State.waveConsume_pending t (hpending p hp)).2)
      hkeys s hp
    obtain ⟨hop', hgot⟩ := State.foldl_ctx
      (R := fun p old new => (old.waveOp = none → new.waveOp = none) ∧ s.delivered ps p old new)
      (fun p hp t => (s.served_delivered ps t (hfetched' p hp)).1) (fun p hp t => (s.served_delivered ps t (hfetched' p hp)).2.2)
      hkeys (ps.foldl State.waveConsume s) hp
    exact ⟨hop' hop, State.delivered_congr hr.symm rfl hgot⟩

end Sys2Proof.Machine
end

section
/-! PROOFS. The values of a wave round (O39; R80, R81, R141 to R143): what its lanes bring, ballots and shuffles, trees and scans of
64-bit integers. -/

namespace Sys2Proof.Machine

/-! ### What the lanes of a wave bring (R139) -/

/-- Lane l of member m takes part as wave lane i. -/
def State.takes (s : State) (op : Nat × Fin 11 → WaveOp) (ms : List (Nat × Fin 11)) (m : Nat × Fin 11) (l i : Nat) : Prop :=
  m ∈ ms ∧ l < 4 ∧ i < 32 ∧ (elem 8 l (s.ctx m.1 m.2).k.lane).toNat = i ∧ bitOf (op m).active l = true ∧
    bitOf (op m).members i = true

/-- `c i` is what wave lane i brings, its word and its bit of the predicate; nothing where no lane takes part as i. -/
def State.brought (s : State) (op : Nat × Fin 11 → WaveOp) (ms : List (Nat × Fin 11)) (c : Nat → Option (Word × Bool)) : Prop :=
  (∀ m l i, s.takes op ms m l i → c i = some (lane l (op m).src, bitOf (op m).pred l)) ∧
  ∀ i, (∀ m l, ¬ s.takes op ms m l i) → c i = none

section
variable {s : State} {op : Nat × Fin 11 → WaveOp} {ms : List (Nat × Fin 11)} {c : Nat → Option (Word × Bool)}

theorem laneOf_some {i l : Nat} {o : WaveOp} (h : laneOf s (ms.map (partOf op)) i = some (o, l)) :
    ∃ m, o = op m ∧ s.takes op ms m l i := by
  obtain ⟨p, hp, hl⟩ := List.exists_of_findSome?_eq_some h
  obtain ⟨hp, -⟩ := List.mem_filter.1 hp
  obtain ⟨m, hm, rfl⟩ := List.mem_map.1 hp
  obtain ⟨l', hfind, he⟩ := Option.map_eq_some_iff.1 hl
  obtain ⟨rfl, rfl⟩ := Prod.ext_iff.1 he
  have hcond := List.find?_some hfind
  obtain ⟨hl4, hactive⟩ := mem_lanesOf.1 (List.mem_of_find?_eq_some hfind)
  simp only [Bool.and_eq_true, decide_eq_true_eq] at hcond
  exact ⟨m, rfl, hm, hl4, BitVec.lt_of_getLsbD hcond.2, hcond.1, hactive, hcond.2⟩

theorem laneOf_none {i : Nat} (h : laneOf s (ms.map (partOf op)) i = none) (m : Nat × Fin 11) (l : Nat) :
    ¬ s.takes op ms m l i := by
  rintro ⟨hm, hl, -, hpos, hactive, hmember⟩
  have hp : partOf op m ∈ (ms.map (partOf op)).filter Part.pending := List.mem_filter.2 ⟨List.mem_map_of_mem hm, rfl⟩
  have hnone := Option.map_eq_none_iff.1 (List.findSome?_eq_none_iff.1 h _ hp)
  have hfalse := List.find?_eq_none.1 hnone l (mem_lanesOf.2 ⟨hl, hactive⟩)
  exact hfalse (by simpa [partOf, hpos] using hmember)

/-- What a lane brings is what the model finds for it. -/
theorem laneOf_brought (hc : s.brought op ms c) (i : Nat) :
    (laneOf s (ms.map (partOf op)) i).map (fun x => (lane x.2 x.1.src, bitOf x.1.pred x.2)) = c i := by
  cases h : laneOf s (ms.map (partOf op)) i with
  | none => exact (hc.2 i (laneOf_none h)).symm
  | some x =>
    obtain ⟨o, l⟩ := x
    obtain ⟨m, rfl, ht⟩ := laneOf_some h
    exact (hc.1 m l i ht).symm

theorem State.brought_lt (hc : s.brought op ms c) {i : Nat} {z : Word × Bool} (h : c i = some z) : i < 32 := by
  by_contra hi
  have := hc.2 i fun m l ht => hi ht.2.2.1
  rw [this] at h
  cases h

/-- The lanes written in a participant are those that take part. -/
theorem Part.lanes_iff {m : Nat × Fin 11} (hm : m ∈ ms) {l : Nat} (hl : l < 4) : bitOf ((partOf op m).lanes s) l = true ↔
    s.takes op ms m l (elem 8 l (s.ctx m.1 m.2).k.lane).toNat := by
  rw [Part.lanes, bitOf_ofBits _ hl]
  rw [Bool.and_eq_true, Bool.and_eq_true, decide_eq_true_iff]
  exact ⟨fun ⟨⟨ha, hi⟩, hb⟩ => ⟨hm, hl, hi, rfl, ha, hb⟩, fun ⟨_, _, hi, _, ha, hb⟩ => ⟨⟨ha, hi⟩, hb⟩⟩

/-! ### Ballots (R141) -/

theorem bitOf_foldl_ballot {n i : Nat} (g : Nat → Option Bool) (h : i < n) (ls : List Nat) (r : BitVec n × BitVec n) :
    let r' := ls.foldl (fun (r : BitVec n × BitVec n) i => (g i).elim r fun b => (withBit r.1 i b, withBit r.2 i true)) r
    bitOf r'.1 i = (if i ∈ ls then (g i).getD (bitOf r.1 i) else bitOf r.1 i) ∧
      bitOf r'.2 i = (if i ∈ ls then (g i).isSome || bitOf r.2 i else bitOf r.2 i) := by
  induction ls generalizing r with
  | nil => simp
  | cons l ls ih =>
    simp only [List.foldl_cons, List.mem_cons]
    obtain ⟨h1, h2⟩ := ih ((g l).elim r fun b => (withBit r.1 l b, withBit r.2 l true))
    rw [h1, h2]
    by_cases hl : i = l
    · subst hl
      cases hg : g i <;> simp [bitOf_withBit_same _ _ _ h]
    · cases hg : g l <;> simp [hl, bitOf_withBit_other _ _ _ _ hl]

theorem ballotOf_bits (hc : s.brought op ms c) {i : Nat} (h : i < 32) :
    bitOf (ballotOf s (ms.map (partOf op))).1 i = ((c i).map Prod.snd).getD false ∧
      bitOf (ballotOf s (ms.map (partOf op))).2 i = (c i).isSome := by
  have hstep : ballotOf s (ms.map (partOf op)) = (List.range 32).foldl (fun (r : BitVec 32 × BitVec 32) i =>
      ((c i).map Prod.snd).elim r fun b => (withBit r.1 i b, withBit r.2 i true)) (0, 0) := by
    refine congrArg (fun f => (List.range 32).foldl f (0, 0)) (funext fun r => funext fun i => ?_)
    rw [← laneOf_brought hc i]
    cases laneOf s (ms.map (partOf op)) i <;> rfl
  obtain ⟨h1, h2⟩ := bitOf_foldl_ballot (fun i => (c i).map Prod.snd) h (List.range 32) (0, 0)
  rw [hstep, h1, h2, if_pos (List.mem_range.2 h), if_pos (List.mem_range.2 h)]
  have h0 : bitOf (0#32) i = false := by simp [bitOf]
  simp [h0]

/-- Bit i of a ballot is set where a lane that takes part has its bit. -/
theorem ballotOf_iff (hc : s.brought op ms c) (i : Nat) :
    bitOf (ballotOf s (ms.map (partOf op))).1 i = true ↔ ∃ z, c i = some (z, true) := by
  by_cases h : i < 32
  · rw [(ballotOf_bits hc h).1]
    rcases c i with _ | ⟨z, b⟩ <;> simp
  · refine ⟨fun hb => absurd (BitVec.lt_of_getLsbD hb) h, fun ⟨z, hz⟩ => absurd (State.brought_lt hc hz) h⟩

theorem ballotOf_ne_zero (hc : s.brought op ms c) :
    (ballotOf s (ms.map (partOf op))).1 ≠ 0 ↔ ∃ i z, c i = some (z, true) := by
  constructor
  · refine fun h => by_contra fun hno => h (BitVec.eq_of_getLsbD_eq fun i _ => ?_)
    exact (Bool.eq_false_iff.2 fun hb => hno ⟨i, (ballotOf_iff hc i).1 hb⟩).trans BitVec.getLsbD_zero.symm
  · rintro ⟨i, hz⟩ h
    have hb := (ballotOf_iff hc i).2 hz
    rw [h] at hb
    simp [bitOf] at hb

theorem ballotOf_eq_lanes (hc : s.brought op ms c) :
    (ballotOf s (ms.map (partOf op))).1 = (ballotOf s (ms.map (partOf op))).2 ↔ ∀ i z, c i ≠ some (z, false) := by
  constructor
  · intro h i z hz
    obtain ⟨h1, h2⟩ := ballotOf_bits hc (State.brought_lt hc hz)
    rw [h, h2, hz] at h1
    cases h1
  · intro h
    refine BitVec.eq_of_getLsbD_eq fun i hi => ?_
    obtain ⟨h1, h2⟩ := ballotOf_bits hc hi
    refine h1.trans (Eq.trans ?_ h2.symm)
    rcases hz : c i with _ | ⟨z, _ | _⟩
    · rfl
    · exact absurd hz (h i z)
    · rfl

/-! ### Shuffles (R142) -/

theorem shuffled_value (hc : s.brought op ms c) (w : WaveOp) (l i : Nat) : (shuffled s (ms.map (partOf op)) w l i).1 =
    (shuffleFrom w i (lane l w.old)).elim (lane l w.src) fun j => (c j).elim 0 Prod.fst := by
  rw [shuffled]
  cases shuffleFrom w i (lane l w.old) with
  | none => rfl
  | some j =>
    simp only [Option.elim_some]
    rw [← laneOf_brought hc j]
    cases laneOf s (ms.map (partOf op)) j <;> rfl

end

/-! ### Trees and scans (R80, R81) -/

theorem treeFold_rel {α β : Type} {R : α → β → Prop} {f : α → α → α} {g : β → β → β} {x : Nat → α} {y : Nat → β}
    (hx : ∀ i, R (x i) (y i)) (hf : ∀ a b a' b', R a a' → R b b' → R (f a b) (g a' b')) (k lo : Nat) :
    R (treeFold f x k lo) (treeFold g y k lo) := by
  induction k generalizing lo with
  | zero => exact hx lo
  | succ k ih => exact hf _ _ _ _ (ih lo) (ih _)

/-- A tree of sums is the sum. -/
theorem treeFold_add (x : Nat → Word) (k lo : Nat) :
    treeFold (· + ·) x k lo = ((List.range (2 ^ k)).map fun i => x (lo + i)).sum := by
  induction k generalizing lo with
  | zero => simp [treeFold]
  | succ k ih =>
    rw [treeFold, ih, ih, Nat.pow_succ, Nat.mul_two, List.range_add, List.map_append, List.sum_append, List.map_map]
    simp only [Function.comp_def, Nat.add_assoc]

/-- `g` chooses between two words one that is least by `f`. -/
def Chooses (f : Word → Int) (g : Word → Word → Word) : Prop :=
  ∀ a b, (g a b = a ∨ g a b = b) ∧ f (g a b) ≤ f a ∧ f (g a b) ≤ f b

/-- A tree of choices is one of the values, and least among them. -/
theorem treeFold_chooses {f : Word → Int} {g : Word → Word → Word} (hg : Chooses f g) (x : Nat → Word) (k lo : Nat) :
    (∃ j, j < lo + 2 ^ k ∧ treeFold g x k lo = x j) ∧ ∀ j, lo ≤ j → j < lo + 2 ^ k → f (treeFold g x k lo) ≤ f (x j) := by
  induction k generalizing lo with
  | zero =>
    refine ⟨⟨lo, by simp, rfl⟩, fun j h1 h2 => ?_⟩
    rw [Nat.pow_zero] at h2
    rw [show j = lo by omega]
    exact Int.le_refl _
  | succ k ih =>
    obtain ⟨⟨j1, hj1, e1⟩, hle1⟩ := ih lo
    obtain ⟨⟨j2, hj2, e2⟩, hle2⟩ := ih (lo + 2 ^ k)
    obtain ⟨hone, hl, hr⟩ := hg (treeFold g x k lo) (treeFold g x k (lo + 2 ^ k))
    have hpow : lo + 2 ^ (k + 1) = lo + 2 ^ k + 2 ^ k := by rw [Nat.pow_succ]; omega
    rw [treeFold, hpow]
    refine ⟨hone.elim (fun e => ⟨j1, Nat.lt_of_lt_of_le hj1 (Nat.le_add_right ..), e.trans e1⟩) fun e => ⟨j2, hj2, e.trans e2⟩, fun j h1 h2 => ?_⟩
    by_cases h : j < lo + 2 ^ k
    · exact Int.le_trans hl (hle1 j h1 h)
    · exact Int.le_trans hr (hle2 j (Nat.le_of_not_lt h) h2)

/-- The sum of the words below n. -/
def prefixSum (x : Nat → Word) (n : Nat) : Word := ((List.range n).map x).sum

theorem prefixSum_succ (x : Nat → Word) (n : Nat) : prefixSum x (n + 1) = prefixSum x n + x n := by
  simp [prefixSum, List.range_succ]

/-- A result that holds a word. -/
def FRes.holds (a : FRes) (z : Word) : Prop := a.code = z.toNat

/-- After k stages of a scan of sums, place i holds the sum of the last 2^k words up to i (R81). -/
def scanned (x : Nat → Word) (k : Nat) (y : List FRes) : Prop :=
  y.length = 32 ∧ ∀ i, i < 32 → ∃ a, y[i]? = some a ∧ a.holds (prefixSum x (i + 1) - prefixSum x (i + 1 - 2 ^ k))

theorem scanned_stage {x : Nat → Word} {f : FRes → FRes → FRes} (hf : ∀ a b z z', a.holds z → b.holds z' → (f a b).holds (z + z'))
    {k : Nat} {y : List FRes} (h : scanned x k y) : scanned x (k + 1) (scanStage f k y) := by
  obtain ⟨hlen, hy⟩ := h
  refine ⟨by simp [scanStage, hlen], fun i hi => ?_⟩
  obtain ⟨a, ha, hz⟩ := hy i hi
  have hpow : 2 ^ (k + 1) = 2 ^ k + 2 ^ k := by rw [Nat.pow_succ]; omega
  have hget : (scanStage f k y)[i]? = some (if i < 2 ^ k then a else (y[i - 2 ^ k]?).elim a fun b => f b a) := by
    rw [scanStage, List.getElem?_zipWith, hlen, List.getElem?_range hi, ha]
  refine ⟨_, hget, ?_⟩
  split
  · next hlow =>
    have h0 : i + 1 - 2 ^ k = 0 := by omega
    have h0' : i + 1 - 2 ^ (k + 1) = 0 := by omega
    rwa [h0', ← h0]
  · next hlow =>
    obtain ⟨b, hb, hz'⟩ := hy (i - 2 ^ k) (Nat.lt_of_le_of_lt (Nat.sub_le ..) hi)
    rw [hb]
    have hsum := hf b a _ _ hz' hz
    have e1 : i - 2 ^ k + 1 = i + 1 - 2 ^ k := by omega
    have e2 : i + 1 - 2 ^ k - 2 ^ k = i + 1 - 2 ^ (k + 1) := by omega
    rw [e1, e2] at hsum
    rwa [show prefixSum x (i + 1) - prefixSum x (i + 1 - 2 ^ (k + 1)) = prefixSum x (i + 1 - 2 ^ k) -
      prefixSum x (i + 1 - 2 ^ (k + 1)) + (prefixSum x (i + 1) - prefixSum x (i + 1 - 2 ^ k)) by abel]

/-- The whole scan: place i holds the sum of the words up to i. -/
theorem scanned_all {x : Nat → Word} {f : FRes → FRes → FRes} (hf : ∀ a b z z', a.holds z → b.holds z' → (f a b).holds (z + z'))
    {y : List FRes} (h : scanned x 0 y) {i : Nat} (hi : i < 32) :
    ∃ a, ((List.range 5).foldl (fun y k => scanStage f k y) y)[i]? = some a ∧ a.holds (prefixSum x (i + 1)) := by
  have h5 : scanned x 5 ((List.range 5).foldl (fun y k => scanStage f k y) y) :=
    scanned_stage hf (scanned_stage hf (scanned_stage hf (scanned_stage hf (scanned_stage hf h))))
  obtain ⟨a, ha, hz⟩ := h5.2 i hi
  refine ⟨a, ha, ?_⟩
  rwa [show i + 1 - 2 ^ 5 = 0 by omega, show prefixSum x 0 = 0 from rfl, sub_zero] at hz

end Sys2Proof.Machine
end

section
/-! PROOFS. Reductions and scans of 64-bit integers, and the obligation of wave operations (O39; R80, R81, R138 to R143). -/

namespace Sys2Proof.Machine

/-! ### Reductions of 64-bit integers (R80, R143) -/

theorem kindFmt_int {kind : Nat} (h : kind < 2) : kindFmt kind .d = none := by
  match kind, h with
  | 0, _ => rfl
  | 1, _ => rfl

theorem el_whole (x : Word) : el 64 0 x = x.toNat := Nat.mod_eq_of_lt x.isLt

theorem packEls_whole {x : Word} {n : Nat} (h : n = x.toNat) : packEls 64 [n] = x := by
  subst h
  refine BitVec.eq_of_toNat_eq ?_
  rw [packEls, BitVec.toNat_ofNat]
  have := x.isLt
  simp only [packEls.go]
  omega

theorem toSigned_toNat (x : Word) : toSigned 64 x.toNat = x.toInt := by
  rw [toSigned, BitVec.toInt_eq_toNat_cond]
  by_cases h : x.toNat < 2 ^ 63
  · rw [if_pos h, if_pos (by omega)]
  · rw [if_neg h, if_neg (by omega)]
    rfl

/-- The order of a kind of integer: signed for kind 0, unsigned for kind 1 (R138). -/
def kindOrder (kind : Nat) (z : Word) : Int := if kind = 0 then z.toInt else z.toNat

/-- What a minimum (1) or a maximum (2) makes least (R67). -/
def choiceOrder (op kind : Nat) (z : Word) : Int := if op = 1 then kindOrder kind z else -kindOrder kind z

theorem choiceOrder_injective (op kind : Nat) : Function.Injective (choiceOrder op kind) := by
  intro a b h
  have horder : kindOrder kind a = kindOrder kind b := by
    rw [choiceOrder, choiceOrder] at h
    split at h <;> omega
  rw [kindOrder, kindOrder] at horder
  split at horder
  · exact BitVec.eq_of_toInt_eq horder
  · exact BitVec.eq_of_toNat_eq (Int.ofNat.inj horder)

/-- The choice of a minimum or maximum. -/
def chosen (op kind : Nat) (a b : Word) : Word :=
  if kindOrder kind a < kindOrder kind b then (if op = 1 then a else b) else if op = 1 then b else a

theorem chosen_chooses {op : Nat} (kind : Nat) : Chooses (choiceOrder op kind) (chosen op kind) := by
  intro a b
  by_cases h : kindOrder kind a < kindOrder kind b <;> by_cases hop : op = 1 <;>
    simp only [chosen, choiceOrder, h, hop, if_true, if_false, true_or, or_true, true_and] <;> omega

theorem redStep_sum_holds {kind : Nat} (hk : kind < 2) (a b : FRes) (z z' : Word) (ha : a.holds z) (hb : b.holds z') :
    (redStep 0 kind .d a b).holds (z + z') := by
  simp only [redStep, kindFmt_int hk, FRes.holds, FRes.with]
  rw [ha, hb, BitVec.toNat_add]
  rfl

theorem redStep_choice_holds {op kind : Nat} (hop : op = 1 ∨ op = 2) (hk : kind < 2) (a b : FRes) (z z' : Word) (ha : a.holds z)
    (hb : b.holds z') : (redStep op kind .d a b).holds (chosen op kind z z') := by
  have hless : (if kind = 0 then decide (toSigned (View.bits .d) a.code < toSigned (View.bits .d) b.code) else
      decide (a.code < b.code)) = decide (kindOrder kind z < kindOrder kind z') := by
    rw [ha, hb, View.bits, toSigned_toNat, toSigned_toNat, kindOrder, kindOrder]
    split <;> simp
  simp only [redStep, kindFmt_int hk, FRes.holds, FRes.with, hless, chosen]
  rcases hop with rfl | rfl <;> by_cases h : kindOrder kind z < kindOrder kind z' <;> simp [h] <;> assumption

section
variable {s : State} {op : Nat × Fin 11 → WaveOp} {ms : List (Nat × Fin 11)} {c : Nat → Option (Word × Bool)}

/-- The word of wave lane i in a reduction; `e` is the identity, for a lane that does not take part. -/
def broughtWord (c : Nat → Option (Word × Bool)) (e : Word) (i : Nat) : Word := (c i).elim e Prod.fst

/-- The element of wave lane i in a reduction of 64-bit words. -/
def redValue (s : State) (ps : List Part) (w : WaveOp) (i : Nat) : FRes :=
  match laneOf s ps i with
  | some (o, l) => ⟨el w.view.bits 0 (lane l o.src), 0⟩
  | none => ⟨redIdentity (w.fn.redOp w.arg) (waveKind w.arg) w.view, 0⟩

theorem redValue_holds (hc : s.brought op ms c) {w : WaveOp} (hd : w.view = .d) {e : Word}
    (he : redIdentity (w.fn.redOp w.arg) (waveKind w.arg) .d = e.toNat) (i : Nat) :
    (redValue s (ms.map (partOf op)) w i).holds (broughtWord c e i) := by
  rw [broughtWord, ← laneOf_brought hc i, redValue, hd]
  cases laneOf s (ms.map (partOf op)) i with
  | none => exact he
  | some x => exact el_whole _

theorem State.reduced_whole {p : Part} (hd : p.op.view = .d) {ps : List Part} {l : Nat} {a : FRes} {z : Word}
    (ha : (redElem s ps p.op 0)[(elem 8 l (s.ctx p.core p.ctx).k.lane).toNat]? = some a) (hz : a.holds z) :
    s.reduced ps p l = z := by
  have hall : redAll s ps p.op = [redElem s ps p.op 0] := by
    rw [redAll, hd]
    rfl
  rw [State.reduced, hall, hd, List.map_singleton, ha]
  exact packEls_whole hz

/-- A reduction that is not a scan gives every wave lane its tree. -/
theorem redElem_tree {ps : List Part} {w : WaveOp} (hfn : w.fn ≠ .scan) {i : Nat} (hi : i < 32) :
    (redElem s ps w 0)[i]? =
      some (treeFold (redStep (w.fn.redOp w.arg) (waveKind w.arg) w.view) (redValue s ps w) 5 0) := by
  simp only [redElem, if_neg hfn]
  rw [List.getElem?_replicate, if_pos hi]
  rfl

theorem redElem_scan {ps : List Part} {w : WaveOp} (hfn : w.fn = .scan) (hd : w.view = .d) (hk : waveKind w.arg < 2) :
    redElem s ps w 0 = (List.range 5).foldl (fun y k => scanStage (redStep (waveSop w.arg) (waveKind w.arg) .d) k y)
      ((List.range 32).map (redValue s ps w)) := by
  have hscan : redElem s ps w 0 = (List.range 5).foldl
      (fun y k => scanStage (redStep (w.fn.redOp w.arg) (waveKind w.arg) w.view) k y)
      ((List.range 32).map fun i => (redValue s ps w i).plain (waveKind w.arg) w.view) := if_pos hfn
  simp only [hscan, hd, FRes.plain, kindFmt_int hk, hfn, WaveFn.redOp]

/-- The sum of the lanes that take part (R80). -/
theorem State.reduced_sum (hc : s.brought op ms c) {m : Nat × Fin 11} (hd : (op m).view = .d) (hfn : (op m).fn = .sum)
    (hk : waveKind (op m).arg < 2) {l : Nat} (hi : (elem 8 l (s.ctx m.1 m.2).k.lane).toNat < 32) :
    s.reduced (ms.map (partOf op)) (partOf op m) l = prefixSum (broughtWord c 0) 32 := by
  have he : redIdentity ((op m).fn.redOp (op m).arg) (waveKind (op m).arg) .d = (0 : Word).toNat := by
    simp only [redIdentity, kindFmt_int hk, hfn, WaveFn.redOp]
    rfl
  refine State.reduced_whole hd (redElem_tree (by rw [show (partOf op m).op.fn = _ from hfn]; simp) hi) ?_
  have htree := treeFold_rel (R := FRes.holds) (redValue_holds hc hd he) (redStep_sum_holds hk) 5 0
  rw [treeFold_add] at htree
  simp only [Nat.zero_add] at htree
  rw [show (partOf op m).op = op m from rfl, hfn, hd]
  exact htree

/-- The sum of the lanes that take part, up to a lane's own (R81). -/
theorem State.reduced_scan (hc : s.brought op ms c) {m : Nat × Fin 11} (hd : (op m).view = .d) (hfn : (op m).fn = .scan)
    (hk : waveKind (op m).arg < 2) (hsop : waveSop (op m).arg = 0) {l : Nat}
    (hi : (elem 8 l (s.ctx m.1 m.2).k.lane).toNat < 32) :
    s.reduced (ms.map (partOf op)) (partOf op m) l =
      prefixSum (broughtWord c 0) ((elem 8 l (s.ctx m.1 m.2).k.lane).toNat + 1) := by
  have he : redIdentity ((op m).fn.redOp (op m).arg) (waveKind (op m).arg) .d = (0 : Word).toNat := by
    simp only [redIdentity, kindFmt_int hk, hfn, WaveFn.redOp, hsop]
    rfl
  have hstart : scanned (broughtWord c 0) 0 ((List.range 32).map (redValue s (ms.map (partOf op)) (op m))) := by
    refine ⟨by simp, fun i hi => ⟨_, by rw [List.getElem?_map, List.getElem?_range hi]; rfl, ?_⟩⟩
    rw [Nat.pow_zero, Nat.add_sub_cancel, prefixSum_succ, add_sub_cancel_left]
    exact redValue_holds hc hd he i
  obtain ⟨a, ha, hz⟩ := scanned_all (redStep_sum_holds hk) hstart hi
  refine State.reduced_whole hd ?_ hz
  rw [show (partOf op m).op = op m from rfl, redElem_scan hfn hd hk, hsop]
  exact ha

/-- The least of the lanes that take part, of which there is one (R80); `e` is the identity, which nothing exceeds. -/
theorem State.reduced_choice (hc : s.brought op ms c) {m : Nat × Fin 11} (hd : (op m).view = .d) {r : Nat}
    (hr : (op m).fn.redOp (op m).arg = r) (hfn : (op m).fn ≠ .scan) (hop : r = 1 ∨ r = 2) (hk : waveKind (op m).arg < 2) {e : Word}
    (he : redIdentity r (waveKind (op m).arg) .d = e.toNat)
    (htop : ∀ z, choiceOrder r (waveKind (op m).arg) z ≤ choiceOrder r (waveKind (op m).arg) e) {l i : Nat}
    (ht : s.takes op ms m l i) :
    (∃ j p, c j = some (s.reduced (ms.map (partOf op)) (partOf op m) l, p)) ∧ ∀ j z p, c j = some (z, p) →
      choiceOrder r (waveKind (op m).arg) (s.reduced (ms.map (partOf op)) (partOf op m) l) ≤
        choiceOrder r (waveKind (op m).arg) z := by
  obtain ⟨-, -, hi, rfl, -, -⟩ := id ht
  have hown := hc.1 m l _ ht
  have htree := treeFold_rel (R := FRes.holds) (redValue_holds hc hd (hr ▸ he)) (redStep_choice_holds hop hk) 5 0
  have hval : s.reduced (ms.map (partOf op)) (partOf op m) l = treeFold (chosen r (waveKind (op m).arg)) (broughtWord c e) 5 0 := by
    refine State.reduced_whole hd (redElem_tree hfn hi) ?_
    rw [hr, hd]
    exact htree
  obtain ⟨⟨j, -, hj⟩, hle⟩ := treeFold_chooses (chosen_chooses (op := r) (waveKind (op m).arg)) (broughtWord c e) 5 0
  have hleast (j : Nat) (z : Word) (p : Bool) (h : c j = some (z, p)) : choiceOrder r (waveKind (op m).arg)
      (treeFold (chosen r (waveKind (op m).arg)) (broughtWord c e) 5 0) ≤ choiceOrder r (waveKind (op m).arg) z := by
    have := hle j (Nat.zero_le _) (by simpa using State.brought_lt hc h)
    rwa [show broughtWord c e j = z by rw [broughtWord, h]; rfl] at this
  rw [hval]
  refine ⟨?_, hleast⟩
  cases hcj : c j with
  | some z => exact ⟨j, z.2, by rw [hj, broughtWord, hcj]; rfl⟩
  | none =>
    have hbest := hleast _ _ _ hown
    rw [hj, show broughtWord c e j = e by rw [broughtWord, hcj]; rfl] at hbest ⊢
    rw [← choiceOrder_injective r _ (Int.le_antisymm (htop _) hbest)]
    exact ⟨_, _, hown⟩

end

end Sys2Proof.Machine
end

section
/-! PROOFS. What a round leaves in its participants (O39; R80, R141 to R143). -/

namespace Sys2Proof.Machine

section
variable {s : State} {op : Nat × Fin 11 → WaveOp} {ms : List (Nat × Fin 11)} {c : Nat → Option (Word × Bool)}

/-! ### The smallest and the largest (R80) -/

/-- The destination lanes of a minimum or maximum hold a word that a lane brought, least by f. -/
def leastOf (c : Nat → Option (Word × Bool)) (f : Word → Int) (x : Word) : Prop :=
  (∃ j p, c j = some (x, p)) ∧ ∀ j z p, c j = some (z, p) → f x ≤ f z

section
variable (hc : s.brought op ms c) {m : Nat × Fin 11} (hd : (op m).view = .d) {l i : Nat} (ht : s.takes op ms m l i)
include hc hd ht

theorem State.reduced_min_signed (hfn : (op m).fn = .min) (hk : waveKind (op m).arg = 0) :
    leastOf c BitVec.toInt (s.reduced (ms.map (partOf op)) (partOf op m) l) := by
  have h := State.reduced_choice hc hd (r := 1) (by rw [hfn]; rfl) (by rw [hfn]; simp) (.inl rfl) (hk ▸ Nat.zero_lt_two)
    (e := 0x7FFFFFFFFFFFFFFF) (by rw [hk]; rfl) (fun z => ?_) ht
  · rwa [hk] at h
  · rw [hk]
    exact Int.le_of_lt_add_one z.toInt_lt

theorem State.reduced_max_signed (hfn : (op m).fn = .max) (hk : waveKind (op m).arg = 0) :
    leastOf c (fun z => -z.toInt) (s.reduced (ms.map (partOf op)) (partOf op m) l) := by
  have h := State.reduced_choice hc hd (r := 2) (by rw [hfn]; rfl) (by rw [hfn]; simp) (.inr rfl) (hk ▸ Nat.zero_lt_two)
    (e := 0x8000000000000000) (by rw [hk]; rfl) (fun z => ?_) ht
  · rwa [hk] at h
  · rw [hk]
    exact Int.neg_le_neg z.le_toInt

theorem State.reduced_min_unsigned (hfn : (op m).fn = .min) (hk : waveKind (op m).arg = 1) :
    leastOf c (fun z => z.toNat) (s.reduced (ms.map (partOf op)) (partOf op m) l) := by
  have h := State.reduced_choice hc hd (r := 1) (by rw [hfn]; rfl) (by rw [hfn]; simp) (.inl rfl) (hk ▸ Nat.one_lt_two)
    (e := 0xFFFFFFFFFFFFFFFF) (by rw [hk]; rfl) (fun z => ?_) ht
  · rwa [hk] at h
  · rw [hk]
    exact Int.ofNat_le.2 (Nat.le_of_lt_add_one z.isLt)

theorem State.reduced_max_unsigned (hfn : (op m).fn = .max) (hk : waveKind (op m).arg = 1) :
    leastOf c (fun z => -z.toNat) (s.reduced (ms.map (partOf op)) (partOf op m) l) := by
  have h := State.reduced_choice hc hd (r := 2) (by rw [hfn]; rfl) (by rw [hfn]; simp) (.inr rfl) (hk ▸ Nat.one_lt_two)
    (e := 0) (by rw [hk]; rfl) (fun z => ?_) ht
  · rwa [hk] at h
  · rw [hk]
    exact Int.neg_le_neg (Int.natCast_nonneg _)

end

/-! ### What a round leaves in a participant -/

section
variable {m : Nat × Fin 11} (hm : m ∈ ms) {old new : Context}
  (hgot : s.delivered (ms.map (partOf op)) (partOf op m) old new)
include hm hgot

/-- A result for lanes: the lanes that take part have it, by their place, and the others keep what they had. -/
theorem State.delivered_lanes {f : Nat → Word} {z : Nat → Nat → Word}
    (hlanes : s.delivered (ms.map (partOf op)) (partOf op m) old new → ∀ l, l < 4 →
      lane l (new.v (op m).dst) = if bitOf ((partOf op m).lanes s) l then f l else lane l (old.v (op m).dst))
    (hz : ∀ l i, s.takes op ms m l i → f l = z l i) {l : Nat} (hl : l < 4) :
    (∀ i, s.takes op ms m l i → lane l (new.v (op m).dst) = z l i) ∧
      ((∀ i, ¬ s.takes op ms m l i) → lane l (new.v (op m).dst) = lane l (old.v (op m).dst)) := by
  refine ⟨fun i ht => ?_, fun h => ?_⟩
  · obtain ⟨-, -, -, hpos, -, -⟩ := id ht
    rw [hlanes hgot l hl, if_pos ((Part.lanes_iff hm hl).2 (hpos ▸ ht)), hz l i ht]
  · rw [hlanes hgot l hl, if_neg (fun hb => h _ ((Part.lanes_iff hm hl).1 hb))]

/-- A reduction or scan gives the lanes that take part their results. -/
theorem State.delivered_reduced (hfn : (op m).fn = .sum ∨ (op m).fn = .min ∨ (op m).fn = .max ∨ (op m).fn = .scan) {l : Nat} (hl : l < 4) :
    ∀ i, s.takes op ms m l i → lane l (new.v (op m).dst) = s.reduced (ms.map (partOf op)) (partOf op m) l := by
  refine (State.delivered_lanes hm hgot (z := fun l _ => s.reduced (ms.map (partOf op)) (partOf op m) l) (fun h => ?_)
    (fun _ _ _ => rfl) hl).1
  simp only [State.delivered, show (partOf op m).op = op m from rfl] at h
  rcases hfn with e | e | e | e <;> · rw [e] at h; exact h

/-- A shuffle gives the lanes that take part the words of the lanes that they name. -/
theorem State.delivered_shuffled (hc : s.brought op ms c)
    (hfn : (op m).fn = .shfl ∨ (op m).fn = .shup ∨ (op m).fn = .shdn ∨ (op m).fn = .bfly) {z : Nat → Nat → Word}
    (hz : ∀ l i, (shuffleFrom (op m) i (lane l (op m).old)).elim (lane l (op m).src) (fun j => (c j).elim 0 Prod.fst) = z l i) :
    ∀ l, l < 4 → (∀ i, s.takes op ms m l i → lane l (new.v (op m).dst) = z l i) ∧
      ((∀ i, ¬ s.takes op ms m l i) → lane l (new.v (op m).dst) = lane l (old.v (op m).dst)) := by
  refine fun l hl => State.delivered_lanes hm hgot
    (f := fun l => (shuffled s (ms.map (partOf op)) (op m) l (elem 8 l (s.ctx m.1 m.2).k.lane).toNat).1) (fun h => ?_)
    (fun l i ht => ?_) hl
  · simp only [State.delivered, show (partOf op m).op = op m from rfl] at h
    rcases hfn with e | e | e | e <;> · rw [e] at h; exact h
  · obtain ⟨-, -, -, rfl, -, -⟩ := id ht
    exact (shuffled_value hc (op m) l _).trans (hz l _)

/-- A sum or scan gives the lanes that take part the sum up to a place. -/
theorem State.delivered_sum (hfn : (op m).fn = .sum ∨ (op m).fn = .scan) {z : Nat → Nat → Word}
    (hz : ∀ l i, s.takes op ms m l i → s.reduced (ms.map (partOf op)) (partOf op m) l = z l i) :
    ∀ l, l < 4 → (∀ i, s.takes op ms m l i → lane l (new.v (op m).dst) = z l i) ∧
      ((∀ i, ¬ s.takes op ms m l i) → lane l (new.v (op m).dst) = lane l (old.v (op m).dst)) := by
  refine fun l hl => State.delivered_lanes hm hgot (f := s.reduced (ms.map (partOf op)) (partOf op m)) (fun h => ?_) hz hl
  simp only [State.delivered, show (partOf op m).op = op m from rfl] at h
  rcases hfn with e | e <;> · rw [e] at h; exact h

end
end

end Sys2Proof.Machine
end

section
/-! PROOFS. The obligation of wave operations (O39; R80, R81, R138 to R143). -/

namespace Sys2Proof.Machine

/-! ### At issue (R139, R140) -/

section
variable {s : State} {o : Instr × WaveFn × View × Bool} {d a b : Fin 32} {q pr : Fin 8} {w : WaveOp}

/-- A wave instruction that names no lane of its context raises WMASK where a lane is active. -/
theorem State.brings_outside (h : s.brings o d a b q pr w) (hpr : s.src.pBad pr = false) (hb : s.src.gBad b = false)
    (hin : s.src.inWave = true) (hact : s.src.waveLanes (s.active pr) &&& ~~~(s.src.g b).setWidth 32 = 0)
    (hnone : s.src.waveLanes 0xF &&& (s.src.g b).setWidth 32 = 0) (h0 : s.active pr ≠ 0) (hp : s.plain) :
    ∃ u ad, exec o.1 s = .next u ∧ s.tookTrap u (s.faultCause Cause.wmask) s.cur.at_ ad := by
  obtain ⟨ad, htrap⟩ := State.waveFail_tookTrap hp w (c := Cause.wmask) (by decide)
  refine ⟨_, ad, h.issued.trans (State.waveIssue_outside hpr hb hin ?_ ?_ ?_), htrap⟩
  · rwa [h.active, h.members]
  · rwa [h.members]
  · rwa [h.active]

/-- One that passes the local checks waits for its round. -/
theorem State.brings_waits (h : s.brings o d a b q pr w) (hpr : s.src.pBad pr = false) (hb : s.src.gBad b = false)
    (hin : s.src.inWave = true) (hact : s.src.waveLanes (s.active pr) &&& ~~~(s.src.g b).setWidth 32 = 0)
    (hown : s.src.waveLanes 0xF &&& (s.src.g b).setWidth 32 ≠ 0) (hlegal : waveIllegal o.2.1 o.2.2.1 (s.src.g b) = false)
    (hbad : if o.2.2.2 then s.src.pBad q = false else
      (s.src.vBad a ||| if o.2.1 = .shfl then s.src.vBad d else 0) &&& s.active pr = 0) :
    exec o.1 s = .next (((s.modCx fun x => { x with waveOp := some w, waveFaults := x.faultsKept }).joinUp).post
      .waveInstancePerform { core := s.cur.core, id := s.src.waveNo, group := bedOf s.cur.core }) := by
  refine h.issued.trans (State.waveIssue_waits hpr hb hin ?_ ?_ ?_ ?_)
  · rwa [h.active, h.members]
  · rwa [h.members]
  · rwa [h.fn, h.view, h.arg]
  · rw [h.bad]
    split
    · next hp => rw [if_pos hp] at hbad; rw [hbad]; rfl
    · next hp => rwa [if_neg hp] at hbad

end

/-! ### The round (R141 to R143) -/

theorem State.brought_fits {s : State} {op : Nat × Fin 11 → WaveOp} {ms : List (Nat × Fin 11)} {m : Nat × Fin 11} {l i : Nat}
    (h : s.takes op ms m l i) : (elem 8 l (s.ctx m.1 m.2).k.lane).toNat = i ∧ i < 32 := ⟨h.2.2.2.1, h.2.2.1⟩

/-- A vote: the predicate gets v in the lanes of the participant that are active. -/
theorem Part.voted {p : Part} {old new : Context} {v : Bool}
    (h : Fin.ofNat 8 p.op.dst.val ≠ 0 → ∀ l, l < 4 → bitOf (new.p (Fin.ofNat 8 p.op.dst.val)) l =
      if bitOf p.op.active l then v else bitOf (old.p (Fin.ofNat 8 p.op.dst.val)) l) {v' : Bool} (hv : v = v') (l : Nat) (hl : l < 4)
    (hd : p.op.dst.val % 8 ≠ 0) : bitOf (new.p (Fin.ofNat 8 p.op.dst.val)) l =
      if bitOf p.op.active l then v' else bitOf (old.p (Fin.ofNat 8 p.op.dst.val)) l :=
  hv ▸ h (fun h0 => hd (congrArg Fin.val h0)) l hl

theorem bitOf_setWidth_word (x : BitVec 32) {i : Nat} (h : i < 64) : bitOf (x.setWidth 64) i = bitOf x i := by
  simp [bitOf, h]

/-- Settles O39: at issue by what each instruction brings; a round delivers to every participant (`State.delivered`) what the
ballots, shuffles, trees and scans of its lanes are. -/
theorem waveOperations : Obligations.WaveOperations := by
  unfold Obligations.WaveOperations
  intro s d a b q r t pr x y members act ops
  refine ⟨fun o ho hpr hb hin hact => ?_, ?_⟩
  · obtain ⟨w, hw⟩ := waveInstrs_bring s d a b q r t pr o ho
    refine ⟨fun hnone h0 => hw.issued.trans (State.waveIssue_idle hpr hb hin (by rwa [hw.active, hw.members]) (by rwa [hw.members])
      (hw.active.trans h0)), fun hnone h0 hp => State.brings_outside hw hpr hb hin hact hnone h0 hp, fun hown hlegal hbad hreplay => ?_⟩
    obtain ⟨hcx, hjoined, hagenda, hmem⟩ := State.joinUp_waits
      (s := s.modCx fun x => { x with waveOp := some w, waveFaults := x.faultsKept }) hreplay
    refine ⟨_, State.brings_waits hw hpr hb hin hact hown hlegal hbad, w, hcx.trans ?_, hjoined, hw.fn, hw.view, hw.members, hw.arg,
      hw.active, hw.next, hw.value, congrArg (· ++ _) hagenda, fun k => ?_⟩
    · rw [State.cx_modCx]
      rfl
    · exact congrArg (memGet · k) hmem
  · intro op c ms pos takes has upTo hne harrived hagree _ htakes hnone
    have hc : s.brought op ms c := ⟨htakes, hnone⟩
    obtain ⟨hmem, hall⟩ := s.served_all (op := op) (State.members_nodup s s.ev.group s.ev.id) fun m hm => (harrived m hm).2.2.2.1
    refine ⟨_, execWaveInstancePerform_agreed hne (fun m hm => ?_) fun m hm n hn => ?_, fun k => congrArg (memGet · k) hmem,
      fun m hm => ?_⟩
    · obtain ⟨hwake, hfaults, hop, -, hown⟩ := harrived m hm
      exact ⟨hwake, hfaults, hop, hown⟩
    · obtain ⟨hfn, hview, hmembers, harg⟩ := hagree m hm n hn
      exact ⟨by simp [WaveOp.agrees, hfn, hview, hmembers, harg], hmembers⟩
    · obtain ⟨hop, hgot⟩ := hall m hm
      intro w old k delta kind gives bits least
      have hkind : waveKind w.arg = kind := extractLsb'_toNat_eq w.arg 40 3
      have hdelta : (w.arg.extractLsb' 32 5).toNat = delta := extractLsb'_toNat_eq w.arg 32 5
      have hfits (l i : Nat) (ht : takes m l i) : pos m l = i ∧ i < 32 := State.brought_fits ht
      refine ⟨hop, fun hfn hdst i hi => ?_, fun hfn => ?_, fun hfn => ?_, fun hfn => ?_, fun hfn => ?_, fun hfn => ?_, fun hfn => ?_,
        fun hd => ⟨fun hfn hk => ?_, fun hfn hk hsop => ?_, fun hfn hk l i ht => ?_, fun hfn hk l i ht => ?_, fun hfn hk l i ht => ?_,
          fun hfn hk l i ht => ?_⟩⟩
      · simp only [State.delivered, show (partOf op m).op = w from rfl, hfn] at hgot
        rw [show k.g w.dst = _ from hgot hdst, bitOf_setWidth_word _ hi, ballotOf_iff hc]
      · simp only [State.delivered, show (partOf op m).op = w from rfl, hfn] at hgot
        have hvote {v} (hv : _ = v) : bits v := Part.voted (p := partOf op m) hgot hv
        refine ⟨fun h => hvote (decide_eq_true ((ballotOf_ne_zero hc).2 h)), fun h => hvote (decide_eq_false fun h' => ?_)⟩
        obtain ⟨i, z, hz⟩ := (ballotOf_ne_zero hc).1 h'
        exact h i z hz
      · simp only [State.delivered, show (partOf op m).op = w from rfl, hfn] at hgot
        have hvote {v} (hv : _ = v) : bits v := Part.voted (p := partOf op m) hgot hv
        exact ⟨fun h => hvote (decide_eq_true ((ballotOf_eq_lanes hc).2 h)), fun ⟨i, z, hz⟩ =>
          hvote (decide_eq_false fun h' => (ballotOf_eq_lanes hc).1 h' i z hz)⟩
      · refine State.delivered_shuffled hm hgot hc (.inl hfn) fun l i => ?_
        simp only [shuffleFrom, show (op m).fn = _ from hfn, extractLsb'_toNat_eq, Option.elim_some]
        rw [Nat.pow_zero, Nat.div_one]
        rfl
      · refine State.delivered_shuffled hm hgot hc (.inr (.inl hfn)) fun l i => ?_
        simp only [shuffleFrom, show (op m).fn = _ from hfn, show ((op m).arg.extractLsb' 32 5).toNat = delta from hdelta]
        split <;> rfl
      · refine State.delivered_shuffled hm hgot hc (.inr (.inr (.inl hfn))) fun l i => ?_
        simp only [shuffleFrom, show (op m).fn = _ from hfn, show ((op m).arg.extractLsb' 32 5).toNat = delta from hdelta]
        split <;> rfl
      · refine State.delivered_shuffled hm hgot hc (.inr (.inr (.inr hfn))) fun l i => ?_
        simp only [shuffleFrom, show (op m).fn = _ from hfn, show ((op m).arg.extractLsb' 32 5).toNat = delta from hdelta]
        rfl
      · refine State.delivered_sum hm hgot (.inl hfn) fun l i ht => ?_
        obtain ⟨rfl, hi⟩ := hfits l i ht
        exact State.reduced_sum hc hd hfn (hkind.trans_lt hk) hi
      · refine State.delivered_sum hm hgot (.inr hfn) fun l i ht => ?_
        obtain ⟨rfl, hi⟩ := hfits l i ht
        exact State.reduced_scan hc hd hfn (hkind.trans_lt hk) ((extractLsb'_toNat_eq w.arg 44 2).trans hsop) hi
      · obtain ⟨⟨j, p, hj⟩, hle⟩ := State.reduced_min_signed hc hd ht hfn (hkind.trans hk)
        exact ⟨_, State.delivered_reduced hm hgot (.inr (.inl hfn)) ht.2.1 i ht, ⟨j, p, hj⟩, fun j z ⟨p, hz⟩ => hle j z p hz⟩
      · obtain ⟨⟨j, p, hj⟩, hle⟩ := State.reduced_max_signed hc hd ht hfn (hkind.trans hk)
        exact ⟨_, State.delivered_reduced hm hgot (.inr (.inr (.inl hfn))) ht.2.1 i ht, ⟨j, p, hj⟩, fun j z ⟨p, hz⟩ => hle j z p hz⟩
      · obtain ⟨⟨j, p, hj⟩, hle⟩ := State.reduced_min_unsigned hc hd ht hfn (hkind.trans hk)
        exact ⟨_, State.delivered_reduced hm hgot (.inr (.inl hfn)) ht.2.1 i ht, ⟨j, p, hj⟩, fun j z ⟨p, hz⟩ => hle j z p hz⟩
      · obtain ⟨⟨j, p, hj⟩, hle⟩ := State.reduced_max_unsigned hc hd ht hfn (hkind.trans hk)
        exact ⟨_, State.delivered_reduced hm hgot (.inr (.inr (.inl hfn))) ht.2.1 i ht, ⟨j, p, hj⟩, fun j z ⟨p, hz⟩ => hle j z p hz⟩

end Sys2Proof.Machine
end

section
/-! PROOFS. Exact values as rationals (O42; R66, R67, R70): sums, products, signs and the order. -/

namespace Sys2Proof.Machine

/-- A finite value. -/
def FVal.IsNum (v : FVal) : Prop := ∃ n m e, v = .num n m e

/-- A sign as a factor. -/
def signOf (n : Bool) : ℚ := if n then -1 else 1

theorem FVal.rat_num (n : Bool) (m : Nat) (e : Int) : (FVal.num n m e).rat = signOf n * (m * (2 : ℚ) ^ e) := mul_assoc ..

theorem signOf_mul_self (n : Bool) : signOf n * signOf n = 1 := by cases n <;> simp [signOf]

theorem abs_signOf (n : Bool) : |signOf n| = 1 := by cases n <;> simp [signOf]

theorem signOf_not (n : Bool) : signOf (!n) = -signOf n := by cases n <;> simp [signOf]

theorem signOf_xor (n k : Bool) : signOf (n ^^ k) = signOf n * signOf k := by cases n <;> cases k <;> simp [signOf]

theorem FVal.abs_rat_num (n : Bool) (m : Nat) (e : Int) : |(FVal.num n m e).rat| = m * (2 : ℚ) ^ e := by
  rw [FVal.rat_num, abs_mul, abs_signOf, one_mul, abs_of_nonneg (by positivity)]

/-- A shift to a lower base keeps the value. -/
theorem atBase_mul {m : Nat} {e base : Int} (h : base ≤ e) : (atBase m e base : ℚ) * (2 : ℚ) ^ base = m * (2 : ℚ) ^ e := by
  obtain ⟨k, hk⟩ := Int.le.dest h
  subst hk
  rw [atBase, Nat.shiftLeft_eq, show (base + (k : Int) - base).toNat = k by omega, zpow_add₀ two_ne_zero, zpow_natCast]
  push_cast
  ring

theorem signedAt_mul {n : Bool} {m : Nat} {e base : Int} (h : base ≤ e) :
    (signedAt n m e base : ℚ) * (2 : ℚ) ^ base = (FVal.num n m e).rat := by
  rw [FVal.rat_num, ← atBase_mul h, signedAt, signOf]
  cases n <;> simp

theorem FVal.isNum_flip {v : FVal} (h : v.IsNum) : v.flip.IsNum := by
  obtain ⟨n, m, e, rfl⟩ := h
  exact ⟨_, _, _, rfl⟩

theorem FVal.rat_flip (v : FVal) : v.flip.rat = -v.rat := by
  cases v with
  | nan s => simp [FVal.flip, FVal.rat]
  | inf n => simp [FVal.flip, FVal.rat]
  | num n m e => rw [FVal.flip, FVal.rat_num, FVal.rat_num, signOf_not, neg_mul]

/-- A sign and a magnitude of an integer. -/
theorem signOf_natAbs (t : Int) : signOf (decide (t < 0)) * (t.natAbs : ℚ) = t := by
  rw [signOf, Nat.cast_natAbs]
  by_cases h : t < 0
  · simp [h, abs_of_neg h]
  · simp [h, abs_of_nonneg (not_lt.1 h)]

/-- The exact sum of two finite values (R70). -/
theorem addVal_rat (rm : RndMode) {a b : FVal} (ha : a.IsNum) (hb : b.IsNum) :
    ∃ v, addVal rm a b = some v ∧ v.IsNum ∧ v.rat = a.rat + b.rat := by
  obtain ⟨n, m, e, rfl⟩ := ha
  obtain ⟨k, p, g, rfl⟩ := hb
  have hsum : (FVal.num n m e).rat + (FVal.num k p g).rat =
      ((signedAt n m e (min e g) + signedAt k p g (min e g) : Int) : ℚ) * (2 : ℚ) ^ min e g := by
    rw [← signedAt_mul (min_le_left e g), ← signedAt_mul (min_le_right e g), Int.cast_add, add_mul]
  refine ⟨_, rfl, ?_, ?_⟩
  · split <;> exact ⟨_, _, _, rfl⟩
  · rw [hsum]
    split
    · next h => rw [h, FVal.rat_num]; simp
    · rw [FVal.rat_num, ← mul_assoc, signOf_natAbs]

/-- The exact product of two finite values. -/
theorem mulVal_rat {a b : FVal} (ha : a.IsNum) (hb : b.IsNum) : ∃ v, mulVal a b = some v ∧ v.IsNum ∧ v.rat = a.rat * b.rat := by
  obtain ⟨n, m, e, rfl⟩ := ha
  obtain ⟨k, p, g, rfl⟩ := hb
  refine ⟨_, rfl, ⟨_, _, _, rfl⟩, ?_⟩
  rw [FVal.rat_num, FVal.rat_num, FVal.rat_num, signOf_xor, zpow_add₀ two_ne_zero]
  push_cast
  ring

theorem signedAt_lt_iff {n k : Bool} {m p : Nat} {e g : Int} :
    signedAt n m e (min e g) < signedAt k p g (min e g) ↔ (FVal.num n m e).rat < (FVal.num k p g).rat := by
  rw [← signedAt_mul (min_le_left e g), ← signedAt_mul (min_le_right e g), mul_lt_mul_iff_left₀ (by positivity), Int.cast_lt]

/-- The order of finite values. -/
theorem FVal.below_rat {a b : FVal} (ha : a.IsNum) (hb : b.IsNum) : a.below false b = decide (a.rat < b.rat) := by
  obtain ⟨n, m, e, rfl⟩ := ha
  obtain ⟨k, p, g, rfl⟩ := hb
  simp only [FVal.below, Bool.false_and, Bool.or_false]
  exact decide_eq_decide.2 signedAt_lt_iff

theorem FVal.below_iff {a b : FVal} (ha : a.IsNum) (hb : b.IsNum) : a.below false b = true ↔ a.rat < b.rat := by
  rw [FVal.below_rat ha hb, decide_eq_true_iff]

theorem FVal.isNan_of_isNum {a : FVal} (h : a.IsNum) : a.isNan = false := by
  obtain ⟨n, m, e, rfl⟩ := h
  rfl

theorem FVal.isInf_of_isNum {a : FVal} (h : a.IsNum) : a.isInf = false := by
  obtain ⟨n, m, e, rfl⟩ := h
  rfl

theorem FVal.finite_of_isNum {a : FVal} (h : a.IsNum) : a.finite = true := by
  rw [FVal.finite, FVal.isNan_of_isNum h, FVal.isInf_of_isNum h]
  rfl

theorem FVal.isZero_iff {a : FVal} (h : a.IsNum) : a.isZero = true ↔ a.rat = 0 := by
  obtain ⟨n, m, e, rfl⟩ := h
  rw [FVal.isZero, decide_eq_true_iff, ← abs_eq_zero, FVal.abs_rat_num]
  simp [zpow_ne_zero]

theorem FVal.same_iff {a b : FVal} (ha : a.IsNum) (hb : b.IsNum) : a.same b = true ↔ a.rat = b.rat := by
  simp only [FVal.same, FVal.isNan_of_isNum ha, FVal.isNan_of_isNum hb, FVal.below_rat ha hb, FVal.below_rat hb ha, Bool.not_false,
    Bool.true_and, Bool.and_eq_true, Bool.not_eq_true', decide_eq_false_iff_not, not_lt]
  exact ⟨fun ⟨h, h'⟩ => le_antisymm h' h, fun h => ⟨h.ge, h.le⟩⟩

theorem FVal.maxOf_rat {a b : FVal} (ha : a.IsNum) (hb : b.IsNum) : (a.maxOf b).IsNum ∧ (a.maxOf b).rat = max a.rat b.rat := by
  rw [FVal.maxOf]
  split
  · next h => exact ⟨hb, (max_eq_right ((FVal.below_iff ha hb).1 h).le).symm⟩
  · next h => exact ⟨ha, (max_eq_left (not_lt.1 (mt (FVal.below_iff ha hb).2 h))).symm⟩

theorem FVal.minOf_rat {a b : FVal} (ha : a.IsNum) (hb : b.IsNum) : (a.minOf b).IsNum ∧ (a.minOf b).rat = min a.rat b.rat := by
  rw [FVal.minOf]
  split
  · next h => exact ⟨hb, (min_eq_right ((FVal.below_iff hb ha).1 h).le).symm⟩
  · next h => exact ⟨ha, (min_eq_left (not_lt.1 (mt (FVal.below_iff hb ha).2 h))).symm⟩

end Sys2Proof.Machine
end

section
/-! PROOFS. Rounding to a multiple of a power of two (O42; R70): the floor and its neighbour, and which of them a mode takes. -/

namespace Sys2Proof.Machine

/-- A number of 24 bits lies on or outside neighbouring multiples of 2^u, where these have 24 bits or its unit is no finer. -/
theorem gap {n Q : Nat} {u v : Int} (hn : n < 2 ^ 24) (h : 2 ^ 23 ≤ Q ∨ u ≤ v) :
    (n : ℚ) * (2 : ℚ) ^ v ≤ Q * (2 : ℚ) ^ u ∨ ((Q : ℚ) + 1) * (2 : ℚ) ^ u ≤ n * (2 : ℚ) ^ v := by
  have hu : (0 : ℚ) < (2 : ℚ) ^ u := by positivity
  by_cases huv : u ≤ v
  · rw [← atBase_mul huv, mul_le_mul_iff_left₀ hu, mul_le_mul_iff_left₀ hu]
    norm_cast
    omega
  · left
    have hQ : (2 ^ 23 : ℚ) ≤ Q := by exact_mod_cast h.resolve_right huv
    have hv : v ≤ u - 1 := by omega
    have hn' : (n : ℚ) ≤ 2 ^ 24 := by exact_mod_cast hn.le
    calc (n : ℚ) * (2 : ℚ) ^ v ≤ 2 ^ 24 * (2 : ℚ) ^ (u - 1) := by gcongr; norm_num
      _ = 2 ^ 23 * (2 : ℚ) ^ u := by rw [zpow_sub₀ two_ne_zero]; norm_num; ring
      _ ≤ Q * (2 : ℚ) ^ u := by gcongr

/-- What m × 2^e, and a little more where sticky, stands for (R70). -/
def Magnitude (m : Nat) (e : Int) (sticky : Bool) (x : ℚ) : Prop :=
  if sticky then m * (2 : ℚ) ^ e < x ∧ x < (m + 1) * (2 : ℚ) ^ e else x = m * (2 : ℚ) ^ e

theorem Magnitude.ge {m : Nat} {e : Int} {sticky : Bool} {x : ℚ} (h : Magnitude m e sticky x) : m * (2 : ℚ) ^ e ≤ x := by
  cases sticky
  · exact (show x = _ from h).ge
  · exact (show _ ∧ _ from h).1.le

theorem Magnitude.lt {m : Nat} {e : Int} {sticky : Bool} {x : ℚ} (h : Magnitude m e sticky x) : x < (m + 1) * (2 : ℚ) ^ e := by
  cases sticky
  · rw [show x = _ from h]
    gcongr
    exact lt_add_one _
  · exact (show _ ∧ _ from h).2

/-- A magnitude x lies at or above Q × 2^u and below the next multiple, and rounds to q × 2^u (R70). -/
structure RoundsTo (rm : RndMode) (neg : Bool) (x : ℚ) (u : Int) (Q q : Nat) : Prop where
  low : Q * (2 : ℚ) ^ u ≤ x
  high : x < (Q + 1) * (2 : ℚ) ^ u
  here : x = Q * (2 : ℚ) ^ u → q = Q
  step : q = Q ∨ q = Q + 1
  nearest : rm = .rne → (q = Q → 2 * x ≤ (2 * Q + 1) * (2 : ℚ) ^ u) ∧ (q = Q + 1 → (2 * Q + 1) * (2 : ℚ) ^ u ≤ 2 * x)
  toward : (rm = .rdn ∧ neg = false) ∨ (rm = .rup ∧ neg = true) → q = Q
  away : (rm = .rdn ∧ neg = true) ∨ (rm = .rup ∧ neg = false) → x ≠ Q * (2 : ℚ) ^ u → q = Q + 1

/-- A multiple of 2^u rounds to itself. -/
theorem RoundsTo.self (rm : RndMode) (neg : Bool) (u : Int) (Q : Nat) : RoundsTo rm neg (Q * (2 : ℚ) ^ u) u Q Q where
  low := le_refl _
  high := by gcongr; exact lt_add_one _
  here := fun _ => rfl
  step := .inl rfl
  nearest := fun _ => ⟨fun _ => by rw [← mul_assoc]; gcongr; exact (lt_add_one _).le, fun h => absurd h (by omega)⟩
  toward := fun _ => rfl
  away := fun _ h => absurd rfl h

/-- The cut part y of a magnitude against a power P of two, and how the model rounds it, from its integral part r. -/
theorem roundsUp_spec {rm : RndMode} {neg odd sticky : Bool} {r P : Nat} {y : ℚ} (heven : 2 ∣ P)
    (hy : if sticky then (r : ℚ) < y ∧ y < r + 1 else y = r) (up : Bool)
    (hup : up = roundsUp rm neg odd (if 2 * r < P then .lt else if 2 * r = P ∧ !sticky then .eq else .gt) (decide (r ≠ 0) || sticky))
    (hP : 0 < P) :
    (y = 0 → up = false) ∧ (rm = .rne → (up = false → 2 * y ≤ P) ∧ (up = true → P ≤ 2 * y)) ∧
    ((rm = .rdn ∧ neg = false) ∨ (rm = .rup ∧ neg = true) → up = false) ∧
    ((rm = .rdn ∧ neg = true) ∨ (rm = .rup ∧ neg = false) → y ≠ 0 → up = true) := by
  have hinexact : (decide (r ≠ 0) || sticky) = decide (y ≠ 0) := by
    cases sticky
    · rw [show y = r from hy]
      simp
    · have h0 : (0 : ℚ) < y := lt_of_le_of_lt (Nat.cast_nonneg r) (show _ ∧ _ from hy).1
      simp [h0.ne']
  have hlt (h : 2 * r < P) : 2 * y < P := by
    have h2 : (2 * r + 2 : ℚ) ≤ P := by exact_mod_cast (show 2 * r + 2 ≤ P by omega)
    cases sticky
    · rw [show y = r from hy]; linarith
    · linarith [(show _ ∧ _ from hy).2]
  have hge (h : ¬ 2 * r < P) : (P : ℚ) ≤ 2 * y := by
    have h2 : (P : ℚ) ≤ 2 * r := by exact_mod_cast (not_lt.1 h)
    cases sticky
    · rw [show y = r from hy]; exact h2
    · linarith [(show _ ∧ _ from hy).1]
  have heq (h : 2 * r = P ∧ !sticky) : 2 * y = P := by
    obtain ⟨h, hs⟩ := h
    rw [Bool.not_eq_true'] at hs
    subst hs
    rw [show y = r from hy]
    exact_mod_cast h
  subst hup
  rw [hinexact]
  refine ⟨fun h0 => ?_, fun hrm => ?_, ?_, ?_⟩
  · have hr : 2 * r < P := by
      by_contra h
      have := hge h
      rw [h0, mul_zero] at this
      exact absurd this (not_le.2 (by exact_mod_cast hP))
    rw [if_pos hr]
    cases rm <;> simp [roundsUp, h0]
  · subst hrm
    split
    · next h => exact ⟨fun _ => (hlt h).le, fun h' => by simp [roundsUp] at h'⟩
    · next h =>
      split
      · next h' => exact ⟨fun _ => (heq h').le, fun _ => (heq h').ge⟩
      · exact ⟨fun h' => by simp [roundsUp] at h', fun _ => hge h⟩
  · rintro (⟨rfl, rfl⟩ | ⟨rfl, rfl⟩) <;> simp [roundsUp]
  · rintro (⟨rfl, rfl⟩ | ⟨rfl, rfl⟩) h <;> simpa [roundsUp] using h

/-- Rounding at 2^u gives one of the two multiples around the magnitude, as the mode says (R70). -/
theorem roundAt_roundsTo (rm : RndMode) (neg : Bool) {m : Nat} {e u : Int} {sticky : Bool} {x : ℚ} (hx : Magnitude m e sticky x)
    (hs : sticky = true → e < u) : ∃ Q, RoundsTo rm neg x u Q (roundAt rm neg m e sticky u).1 := by
  by_cases hue : u ≤ e
  · have hsticky : sticky = false := Bool.eq_false_iff.2 fun h => absurd (hs h) (not_lt.2 hue)
    subst hsticky
    refine ⟨atBase m e u, ?_⟩
    rw [roundAt, if_pos hue, show x = m * (2 : ℚ) ^ e from hx, ← atBase_mul hue]
    exact RoundsTo.self ..
  · obtain ⟨k, hk⟩ := Int.le.dest (not_le.1 hue).le
    have hk0 : k ≠ 0 := by omega
    have hP : (2 : ℚ) ^ u = ((2 ^ k : Nat) : ℚ) * (2 : ℚ) ^ e := by
      rw [← hk, zpow_add₀ two_ne_zero, zpow_natCast]
      push_cast
      ring
    have he : (0 : ℚ) < (2 : ℚ) ^ e := by positivity
    have hpos : 0 < 2 ^ k := Nat.two_pow_pos k
    generalize hy : x / (2 : ℚ) ^ e - ((m / 2 ^ k * 2 ^ k : Nat) : ℚ) = y
    have hxy : x = (((m / 2 ^ k * 2 ^ k : Nat) : ℚ) + y) * (2 : ℚ) ^ e := by
      rw [← hy]; field_simp; ring
    have hm : (m : ℚ) = ((m / 2 ^ k * 2 ^ k : Nat) : ℚ) + (m % 2 ^ k : Nat) := by
      exact_mod_cast (Nat.div_add_mod' m (2 ^ k)).symm
    have hcut : if sticky then ((m % 2 ^ k : Nat) : ℚ) < y ∧ y < (m % 2 ^ k : Nat) + 1 else y = (m % 2 ^ k : Nat) := by
      cases sticky
      · have := show x = _ from hx
        rw [hxy, mul_left_inj' he.ne', hm] at this
        exact add_left_cancel this
      · have h1 := hx.lt
        have h2 := (show _ ∧ _ from hx).1
        rw [hxy, mul_lt_mul_iff_left₀ he, hm] at h1 h2
        exact ⟨by linarith, by linarith⟩
    obtain ⟨hzero, hnear, hto, haway⟩ := roundsUp_spec (dvd_pow_self 2 hk0) hcut _ rfl hpos (rm := rm) (neg := neg)
      (odd := decide (m / 2 ^ k % 2 = 1))
    have hr : ((m % 2 ^ k : Nat) : ℚ) + 1 ≤ ((2 ^ k : Nat) : ℚ) := by exact_mod_cast Nat.mod_lt m hpos
    have hy0 : 0 ≤ y ∧ y < ((2 ^ k : Nat) : ℚ) := by
      have h0 : (0 : ℚ) ≤ ((m % 2 ^ k : Nat) : ℚ) := Nat.cast_nonneg _
      cases sticky
      · rw [show y = _ from hcut]; exact ⟨h0, by linarith⟩
      · obtain ⟨h1, h2⟩ := show _ ∧ _ from hcut
        exact ⟨by linarith, by linarith⟩
    have hfloor : x = ((m / 2 ^ k : Nat) : ℚ) * (2 : ℚ) ^ u ↔ y = 0 := by
      rw [hxy, hP, ← mul_assoc, mul_left_inj' he.ne', Nat.cast_mul, add_eq_left]
    refine ⟨m / 2 ^ k, ?_⟩
    rw [roundAt, if_neg hue]
    simp only [show (u - e).toNat = k by omega, Nat.shiftRight_eq_div_pow]
    generalize hup : roundsUp rm neg _ _ _ = up at hzero hnear hto haway ⊢
    have hiff : (m / 2 ^ k + if up = true then 1 else 0) = m / 2 ^ k ↔ up = false := by cases up <;> simp
    have hiff' : (m / 2 ^ k + if up = true then 1 else 0) = m / 2 ^ k + 1 ↔ up = true := by cases up <;> simp
    constructor
    · rw [hxy, hP, ← mul_assoc, mul_le_mul_iff_left₀ he, Nat.cast_mul]
      exact le_add_of_nonneg_right hy0.1
    · rw [hxy, hP, ← mul_assoc, mul_lt_mul_iff_left₀ he, Nat.cast_mul, add_mul, one_mul]
      linarith [hy0.2]
    · exact fun h => hiff.2 (hzero (hfloor.1 h))
    · cases up <;> simp
    · intro hrm
      rw [hiff, hiff', hxy, hP, ← mul_assoc, ← mul_assoc, mul_le_mul_iff_left₀ he, mul_le_mul_iff_left₀ he, Nat.cast_mul]
      exact ⟨fun h => by linarith [(hnear hrm).1 h], fun h => by linarith [(hnear hrm).2 h]⟩
    · exact fun h => hiff.2 (hto h)
    · exact fun h h0 => hiff'.2 (haway h (mt hfloor.2 h0))

end Sys2Proof.Machine
end

section
/-! PROOFS. The f32 codes and the rounding to them (O42; R65, R70, R71): what a code stands for, and what a rounded magnitude is. -/

namespace Sys2Proof.Machine

/-! ### Codes (R65) -/

/-- The largest finite f32. -/
def maxF32 : ℚ := ((2 ^ 24 - 1 : Nat) : ℚ) * (2 : ℚ) ^ (104 : Int)

/-- The value of an f32 code, from its exponent and fraction. -/
theorem value_f32 (c : Nat) : fmtF32.value c =
    if c / 2 ^ 23 % 2 ^ 8 = 0 then .num (c.testBit 31) (c % 2 ^ 23) (-149)
    else if c / 2 ^ 23 % 2 ^ 8 = 255 then
      if c % 2 ^ 23 = 0 then .inf (c.testBit 31) else .nan (!(c % 2 ^ 23).testBit 22)
    else .num (c.testBit 31) (2 ^ 23 + c % 2 ^ 23) ((c / 2 ^ 23 % 2 ^ 8 : Nat) - 150) := by
  have hexp : (-149 + (((c / 2 ^ 23 % 2 ^ 8 : Nat) : Int) - 1)) = (c / 2 ^ 23 % 2 ^ 8 : Nat) - 150 := by ring
  rw [← hexp]
  simp [FloatFmt.value, fmtF32, FloatFmt.emax, FloatFmt.emin, FloatFmt.bias, FloatFmt.width, FloatFmt.big]

/-- A finite code stands for a number of 24 bits in units of at least 2^−149. -/
theorem value_bounds {c : Nat} {n : Bool} {m : Nat} {e : Int} (h : fmtF32.value c = .num n m e) :
    m < 2 ^ 24 ∧ -149 ≤ e ∧ e ≤ 104 := by
  have hm : c % 2 ^ 23 < 2 ^ 23 := Nat.mod_lt _ (Nat.two_pow_pos 23)
  have he : c / 2 ^ 23 % 2 ^ 8 < 2 ^ 8 := Nat.mod_lt _ (Nat.two_pow_pos 8)
  rw [value_f32] at h
  split_ifs at h <;> cases h <;> omega

/-- A finite code is at most the largest. -/
theorem abs_rat32_le (c : Nat) : |rat32 c| ≤ maxF32 := by
  rw [rat32, maxF32]
  cases h : fmtF32.value c with
  | nan s => simp [FVal.rat]
  | inf n => simp [FVal.rat]
  | num n m e =>
    obtain ⟨hm, -, he⟩ := value_bounds h
    rw [FVal.abs_rat_num]
    have : (m : ℚ) ≤ ((2 ^ 24 - 1 : Nat) : ℚ) := by exact_mod_cast Nat.le_sub_one_of_lt hm
    gcongr
    norm_num

/-- A finite code lies on or outside neighbouring multiples of 2^u, taken on the side of a sign. -/
theorem rat32_gap {c : Nat} (hc : finite32 c) (neg : Bool) {Q : Nat} {u : Int} (h : 2 ^ 23 ≤ Q ∨ u = -149) :
    signOf neg * rat32 c ≤ Q * (2 : ℚ) ^ u ∨ ((Q : ℚ) + 1) * (2 : ℚ) ^ u ≤ signOf neg * rat32 c := by
  obtain ⟨n, m, e, hv⟩ := hc
  obtain ⟨hm, he, -⟩ := value_bounds hv
  rw [rat32, hv, FVal.rat_num, ← mul_assoc, ← signOf_xor]
  cases neg ^^ n
  · rw [show signOf false = 1 from rfl, one_mul]
    exact gap hm (h.imp_right fun hu => hu.le.trans he)
  · left
    have h1 : (0 : ℚ) ≤ Q * (2 : ℚ) ^ u := by positivity
    have h2 : (0 : ℚ) ≤ m * (2 : ℚ) ^ e := by positivity
    rw [show signOf true = -1 from rfl]
    linarith

/-- A code below infinity with its sign. -/
theorem value_signed (neg : Bool) {c : Nat} (h : c < 255 * 2 ^ 23) : fmtF32.value (fmtF32.signed neg c) =
    if c < 2 ^ 23 then .num neg c (-149) else .num neg (2 ^ 23 + c % 2 ^ 23) ((c / 2 ^ 23 : Nat) - 150) := by
  have hexp : (fmtF32.signed neg c) / 2 ^ 23 % 2 ^ 8 = c / 2 ^ 23 := by
    cases neg <;> simp only [FloatFmt.signed, FloatFmt.width, fmtF32] <;> norm_num at * <;> omega
  have hfrac : (fmtF32.signed neg c) % 2 ^ 23 = c % 2 ^ 23 := by
    cases neg <;> simp only [FloatFmt.signed, FloatFmt.width, fmtF32] <;> norm_num at *
    omega
  have hneg : (fmtF32.signed neg c).testBit 31 = neg := by
    rw [Nat.testBit_eq_decide_div_mod_eq]
    cases neg <;> simp only [FloatFmt.signed, FloatFmt.width, fmtF32] <;> norm_num at * <;> omega
  rw [value_f32, hexp, hfrac, hneg, if_neg (show c / 2 ^ 23 ≠ 255 by omega)]
  by_cases hlow : c < 2 ^ 23
  · rw [if_pos hlow, if_pos (Nat.div_eq_of_lt hlow), Nat.mod_eq_of_lt hlow]
  · rw [if_neg hlow, if_neg (by omega)]

theorem maxF32_lt : maxF32 < (2 : ℚ) ^ (128 : Int) := by
  rw [maxF32]
  norm_num

/-- A multiple with at least b + 1 bits that is at most the largest finite number has a small unit. -/
theorem unit_lt {q b : Nat} {u : Int} (hq : 2 ^ b ≤ q) (hmax : q * (2 : ℚ) ^ u ≤ maxF32) : b + u < 128 := by
  have hq' : (2 : ℚ) ^ (b : Int) ≤ q := by exact_mod_cast hq
  have hlt : (2 : ℚ) ^ (b + u) < (2 : ℚ) ^ (128 : Int) := by
    rw [zpow_add₀ two_ne_zero]
    calc (2 : ℚ) ^ (b : Int) * (2 : ℚ) ^ u ≤ q * (2 : ℚ) ^ u := by gcongr
      _ < _ := hmax.trans_lt maxF32_lt
  exact (zpow_lt_zpow_iff_right₀ one_lt_two).1 hlt

theorem signed_lt (neg : Bool) {c : Nat} (h : c < 2 ^ 31) : fmtF32.signed neg c < 2 ^ 32 := by
  cases neg <;> simp only [FloatFmt.signed, FloatFmt.width, fmtF32] <;> norm_num at * <;> omega

/-- The code of q × 2^u, with u the last place of the format, stands for it. -/
theorem value_encode {q : Nat} {u : Int} (hu : -149 ≤ u) (hq : q ≤ 2 ^ 24) (hplace : 2 ^ 23 ≤ q ∨ u = -149)
    (hmax : q * (2 : ℚ) ^ u ≤ maxF32) (neg : Bool) :
    fmtF32.encode q u < 255 * 2 ^ 23 ∧ ∃ m e, fmtF32.value (fmtF32.signed neg (fmtF32.encode q u)) = .num neg m e ∧
      (m : ℚ) * (2 : ℚ) ^ e = q * (2 : ℚ) ^ u := by
  have hcode : fmtF32.encode q u = (u + 149).toNat * 2 ^ 23 + q := by
    rw [FloatFmt.encode]
    norm_num [fmtF32, FloatFmt.emin, FloatFmt.bias]
  rcases Nat.lt_or_ge q (2 ^ 23) with hlow | hhigh
  · obtain rfl : u = -149 := hplace.resolve_left (by omega)
    have hc : fmtF32.encode q (-149) = q := by rw [hcode]; norm_num
    rw [hc]
    exact ⟨by omega, q, -149, by rw [value_signed neg (by omega), if_pos hlow], rfl⟩
  · have hu' := unit_lt hhigh hmax
    rcases Nat.lt_or_ge q (2 ^ 24) with hlt | hge
    · have hc : fmtF32.encode q u < 255 * 2 ^ 23 := by omega
      refine ⟨hc, q, u, ?_, rfl⟩
      rw [value_signed neg hc, if_neg (by omega)]
      congr 1 <;> omega
    · have hq24 : (q : ℚ) = 2 ^ 24 := by exact_mod_cast (show q = 2 ^ 24 by omega)
      have hu'' := unit_lt hge hmax
      have hc : fmtF32.encode q u < 255 * 2 ^ 23 := by omega
      refine ⟨hc, q / 2, u + 1, ?_, ?_⟩
      · rw [value_signed neg hc, if_neg (by omega)]
        congr 1 <;> omega
      · rw [show ((q / 2 : Nat) : ℚ) = 2 ^ 23 by exact_mod_cast (show q / 2 = 2 ^ 23 by omega), hq24, zpow_add₀ two_ne_zero]
        norm_num
        ring

/-- A code stands for a number: it is finite, 32 bits long, and has its value. -/
structure StandsFor (c : Nat) (x : ℚ) : Prop where
  finite : finite32 c
  fits : c < 2 ^ 32
  rat : rat32 c = x

theorem encode_standsFor {q : Nat} {u : Int} (hu : -149 ≤ u) (hq : q ≤ 2 ^ 24) (hplace : 2 ^ 23 ≤ q ∨ u = -149)
    (hmax : q * (2 : ℚ) ^ u ≤ maxF32) (neg : Bool) :
    StandsFor (fmtF32.signed neg (fmtF32.encode q u)) (signOf neg * (q * (2 : ℚ) ^ u)) := by
  obtain ⟨hlt, m, e, hvalue, hrat⟩ := value_encode hu hq hplace hmax neg
  exact ⟨⟨_, _, _, hvalue⟩, signed_lt neg (by omega), by rw [rat32, hvalue, FVal.rat_num, hrat]⟩

/-- A signed zero stands for zero. -/
theorem zero_standsFor (neg : Bool) : StandsFor (fmtF32.signed neg 0) 0 := by
  refine ⟨⟨_, _, _, value_signed neg (by norm_num)⟩, signed_lt neg (by norm_num), ?_⟩
  rw [rat32, value_signed neg (by norm_num), if_pos (by norm_num), FVal.rat_num]
  simp

/-! ### Rounding (R70, R71) -/

/-- A rounded magnitude stays below a number of 24 bits that the magnitude does not exceed. -/
theorem RoundsTo.le_of_le {rm : RndMode} {neg : Bool} {x : ℚ} {u v : Int} {Q q n : Nat} (h : RoundsTo rm neg x u Q q) (hn : n < 2 ^ 24)
    (hplace : 2 ^ 23 ≤ Q ∨ u ≤ v) (hx : x ≤ n * (2 : ℚ) ^ v) : q * (2 : ℚ) ^ u ≤ n * (2 : ℚ) ^ v := by
  rcases gap (u := u) hn hplace with hle | hge
  · rw [h.here (le_antisymm (hx.trans hle) h.low)]
    exact h.low.trans hx
  · refine le_trans ?_ hge
    have hq : (q : ℚ) ≤ Q + 1 := by exact_mod_cast (show q ≤ Q + 1 by have := h.step; omega)
    gcongr

/-- The floor of a magnitude in units of its last place has 24 bits at most (R70). -/
theorem RoundsTo.floor_lt {rm : RndMode} {neg : Bool} {x : ℚ} {u e : Int} {Q q m : Nat} {sticky : Bool} (h : RoundsTo rm neg x u Q q)
    (hx : Magnitude m e sticky x) (hu : e + m.log2 - 23 ≤ u) : Q < 2 ^ 24 := by
  have hm : (m : ℚ) + 1 ≤ (2 : ℚ) ^ ((m.log2 + 1 : Nat) : Int) := by exact_mod_cast Nat.lt_log2_self
  have hlt : Q * (2 : ℚ) ^ u < 2 ^ 24 * (2 : ℚ) ^ u := calc
    Q * (2 : ℚ) ^ u ≤ x := h.low
    _ < (m + 1) * (2 : ℚ) ^ e := hx.lt
    _ ≤ (2 : ℚ) ^ ((m.log2 + 1 : Nat) : Int) * (2 : ℚ) ^ e := by gcongr
    _ = (2 : ℚ) ^ (((m.log2 + 1 : Nat) : Int) + e) := (zpow_add₀ two_ne_zero ..).symm
    _ ≤ (2 : ℚ) ^ (24 + u) := zpow_le_zpow_right₀ one_le_two (by push_cast; omega)
    _ = 2 ^ 24 * (2 : ℚ) ^ u := by rw [zpow_add₀ two_ne_zero]; norm_num
  have := lt_of_mul_lt_mul_right hlt (by positivity)
  exact_mod_cast this

/-- In units of the free last place it has 24 bits (R70). -/
theorem RoundsTo.le_floor {rm : RndMode} {neg : Bool} {x : ℚ} {u e : Int} {Q q m : Nat} {sticky : Bool} (h : RoundsTo rm neg x u Q q)
    (hx : Magnitude m e sticky x) (hm : m ≠ 0) (hu : u = e + m.log2 - 23) : 2 ^ 23 ≤ Q := by
  have hm' : (2 : ℚ) ^ (m.log2 : Int) ≤ m := by exact_mod_cast Nat.log2_self_le hm
  have hlt : 2 ^ 23 * (2 : ℚ) ^ u < (Q + 1) * (2 : ℚ) ^ u := calc
    2 ^ 23 * (2 : ℚ) ^ u = (2 : ℚ) ^ (23 + u) := by rw [zpow_add₀ two_ne_zero]; norm_num
    _ = (2 : ℚ) ^ (m.log2 : Int) * (2 : ℚ) ^ e := by rw [← zpow_add₀ two_ne_zero, hu]; congr 1; ring
    _ ≤ m * (2 : ℚ) ^ e := by gcongr
    _ ≤ x := hx.ge
    _ < _ := h.high
  have := lt_of_mul_lt_mul_right hlt (by positivity)
  have : 2 ^ 23 < Q + 1 := by exact_mod_cast this
  omega

theorem leMag_iff {a b : Nat} {e k : Int} : leMag a e b k = true ↔ (a : ℚ) * (2 : ℚ) ^ e ≤ b * (2 : ℚ) ^ k := by
  rw [leMag, decide_eq_true_iff, ← atBase_mul (min_le_left e k), ← atBase_mul (min_le_right e k),
    mul_le_mul_iff_left₀ (by positivity), Nat.cast_le]

/-- A multiple that is at most the largest finite number does not overflow (R71). -/
theorem not_above {q : Nat} {u : Int} (h : q * (2 : ℚ) ^ u ≤ maxF32) : fmtF32.above q u = false := by
  have hle : leMag q u (2 ^ 24 - 1) 104 = true := leMag_iff.2 h
  rw [FloatFmt.above, show fmtF32.value fmtF32.maxCode = .num false (2 ^ 24 - 1) 104 from rfl]
  simp only [hle, Bool.not_true]

/-- A magnitude up to the largest finite number rounds to a multiple of its last place, and its code stands for that (R70). -/
theorem round_roundsTo (rm : RndMode) (neg : Bool) {m : Nat} {e : Int} {sticky : Bool} {x : ℚ} (hx : Magnitude m e sticky x)
    (hm : m ≠ 0) (hs : sticky = true → 24 ≤ m.log2) (hmax : x ≤ maxF32) : ∃ u Q q, RoundsTo rm neg x u Q q ∧
      (2 ^ 23 ≤ Q ∨ u = -149) ∧ StandsFor (fmtF32.round { rm := rm } neg m e sticky).code (signOf neg * (q * (2 : ℚ) ^ u)) := by
  have hfree : fmtF32.ulpFree m e = e + m.log2 - 23 := rfl
  have hulp : fmtF32.ulp m e = max (e + m.log2 - 23) (-149) := rfl
  have hn : 2 ^ 24 - 1 < 2 ^ 24 := by norm_num
  obtain ⟨Qf, hroundf⟩ := roundAt_roundsTo rm neg (u := fmtF32.ulpFree m e) hx fun h => by have := hs h; omega
  obtain ⟨Q, hround⟩ := roundAt_roundsTo rm neg (u := fmtF32.ulp m e) hx fun h => by have := hs h; omega
  have habove : fmtF32.above (roundAt rm neg m e sticky (fmtF32.ulpFree m e)).1 (fmtF32.ulpFree m e) = false :=
    not_above (hroundf.le_of_le (v := 104) hn (.inl (hroundf.le_floor hx hm hfree)) hmax)
  have hQ : Q < 2 ^ 24 := hround.floor_lt hx (by omega)
  have hplace : 2 ^ 23 ≤ Q ∨ fmtF32.ulp m e = -149 := by
    rcases le_total (e + m.log2 - 23) (-149) with h | h
    · exact .inr (hulp.trans (max_eq_right h))
    · exact .inl (hround.le_floor hx hm (hulp.trans (max_eq_left h)))
  have hq := hround.step
  refine ⟨_, Q, _, hround, hplace, ?_⟩
  rw [FloatFmt.round, if_neg hm]
  simp only [habove, Bool.false_and, Bool.false_eq_true, if_false]
  exact encode_standsFor (by omega) (by omega) (hplace.imp_left fun h => by omega)
    (hround.le_of_le (v := 104) hn (hplace.imp_right fun h => by omega) hmax) neg

end Sys2Proof.Machine
end

section
/-! PROOFS. The one rounding of an exact value to f32 (O42; R69, R70): nearest, below and above, of a value and of a quotient. -/

namespace Sys2Proof.Machine

/-- The code c is y rounded: the magnitude of y lies between neighbouring multiples of the last place, and c stands for the one
of them that the mode takes. -/
def Rounded (rm : RndMode) (c : Nat) (y : ℚ) : Prop :=
  ∃ neg x u Q q, y = signOf neg * x ∧ RoundsTo rm neg x u Q q ∧ (2 ^ 23 ≤ Q ∨ u = -149) ∧
    StandsFor c (signOf neg * (q * (2 : ℚ) ^ u))

theorem Rounded.fits {rm : RndMode} {c : Nat} {y : ℚ} (h : Rounded rm c y) : c < 2 ^ 32 := by
  obtain ⟨_, _, _, _, _, _, _, _, hc⟩ := h
  exact hc.fits

theorem Rounded.finite {rm : RndMode} {c : Nat} {y : ℚ} (h : Rounded rm c y) : finite32 c := by
  obtain ⟨_, _, _, _, _, _, _, _, hc⟩ := h
  exact hc.finite

theorem abs_signOf_mul_sub (neg : Bool) (a b : ℚ) : |signOf neg * a - b| = |a - signOf neg * b| := by
  rw [show a - signOf neg * b = signOf neg * (signOf neg * a - b) by rw [mul_sub, ← mul_assoc, signOf_mul_self, one_mul], abs_mul,
    abs_signOf, one_mul]

/-- Round to nearest gives a nearest number (R70). -/
theorem Rounded.nearest32 {c : Nat} {y : ℚ} (h : Rounded .rne c y) : nearest32 c y := by
  obtain ⟨neg, x, u, Q, q, rfl, hx, hplace, hc⟩ := h
  refine ⟨hc.finite, fun z _ hz => ?_⟩
  rw [hc.rat, ← mul_sub, abs_mul, abs_signOf, one_mul, ← abs_signOf_mul_sub]
  have hhalf : |q * (2 : ℚ) ^ u - x| ≤ x - Q * (2 : ℚ) ^ u ∧ |q * (2 : ℚ) ^ u - x| ≤ (Q + 1) * (2 : ℚ) ^ u - x := by
    obtain ⟨hdown, hup⟩ := hx.nearest rfl
    have hlow := hx.low
    have hhigh := hx.high
    rcases hx.step with rfl | rfl
    · have := hdown rfl
      rw [abs_of_nonpos (by linarith)]
      constructor <;> linarith
    · have := hup rfl
      push_cast
      rw [abs_of_nonneg (by linarith)]
      constructor <;> linarith
  rcases rat32_gap hz neg hplace with hle | hge
  · refine hhalf.1.trans ((sub_le_sub_left hle x).trans ?_)
    rw [abs_sub_comm]
    exact le_abs_self _
  · exact hhalf.2.trans ((sub_le_sub_right hge x).trans (le_abs_self _))

/-- A number that is a code's rounds to it (R70). -/
theorem Rounded.exact {rm : RndMode} {c : Nat} {y : ℚ} (h : Rounded rm c y) {n : Nat} {v : Int} (hn : n < 2 ^ 24) (hv : -149 ≤ v)
    (hy : |y| = n * (2 : ℚ) ^ v) : StandsFor c y := by
  obtain ⟨neg, x, u, Q, q, rfl, hx, hplace, hc⟩ := h
  have hx0 : 0 ≤ x := le_trans (by positivity) hx.low
  rw [abs_mul, abs_signOf, one_mul, abs_of_nonneg hx0] at hy
  have hfloor : x = Q * (2 : ℚ) ^ u := by
    rcases gap hn (hplace.imp_right fun hu => hu.le.trans hv) with hle | hge
    · exact le_antisymm (hy.le.trans hle) hx.low
    · exact absurd hx.high (not_lt.2 (hge.trans hy.ge))
  rwa [hx.here hfloor, ← hfloor] at hc

/-- Round down gives the largest number not above (R70). -/
theorem Rounded.below32 {c : Nat} {y : ℚ} (h : Rounded .rdn c y) : below32 c y := by
  obtain ⟨neg, x, u, Q, q, rfl, hx, hplace, hc⟩ := h
  cases neg with
  | false =>
    rw [hx.toward (.inl ⟨rfl, rfl⟩)] at hc
    simp only [signOf, Bool.false_eq_true, if_false, one_mul] at hc ⊢
    refine ⟨hc.finite, hc.rat.trans_le hx.low, fun z _ hz hzx => ?_⟩
    rw [hc.rat]
    have hgap := rat32_gap hz false hplace
    simp only [signOf, Bool.false_eq_true, if_false, one_mul] at hgap
    exact hgap.resolve_right fun hge => absurd (hge.trans hzx) (not_le.2 hx.high)
  | true =>
    simp only [signOf, if_true, neg_one_mul] at hc ⊢
    by_cases hfloor : x = Q * (2 : ℚ) ^ u
    · rw [hx.here hfloor, ← hfloor] at hc
      exact ⟨hc.finite, hc.rat.le, fun z _ _ hzx => hzx.trans hc.rat.ge⟩
    · rw [hx.away (.inl ⟨rfl, rfl⟩) hfloor] at hc
      push_cast at hc
      refine ⟨hc.finite, hc.rat.trans_le (neg_le_neg hx.high.le), fun z _ hz hzx => ?_⟩
      rw [hc.rat]
      have hgap := rat32_gap hz true hplace
      simp only [signOf, if_true, neg_one_mul] at hgap
      refine le_neg.2 (hgap.resolve_left fun hle => hfloor (le_antisymm ((le_neg.2 hzx).trans hle) hx.low))

/-- Round up of a magnitude. -/
theorem RoundsTo.above32 {c : Nat} {x : ℚ} {u : Int} {Q q : Nat} (hx : RoundsTo .rup false x u Q q)
    (hplace : 2 ^ 23 ≤ Q ∨ u = -149) (hc : StandsFor c (q * (2 : ℚ) ^ u)) : above32 c x := by
  by_cases hfloor : x = Q * (2 : ℚ) ^ u
  · rw [hx.here hfloor, ← hfloor] at hc
    exact ⟨hc.finite, hc.rat.ge, fun z _ _ hzx => hc.rat.le.trans hzx⟩
  · rw [hx.away (.inr ⟨rfl, rfl⟩) hfloor] at hc
    push_cast at hc
    refine ⟨hc.finite, hx.high.le.trans hc.rat.ge, fun z _ hz hzx => ?_⟩
    rw [hc.rat]
    have hgap := rat32_gap hz false hplace
    simp only [signOf, Bool.false_eq_true, if_false, one_mul] at hgap
    exact hgap.resolve_left fun hle => hfloor (le_antisymm (hzx.trans hle) hx.low)

/-- Round up gives the smallest number not below (R70). -/
theorem Rounded.above32 {c : Nat} {y : ℚ} (h : Rounded .rup c y) (hy : 0 ≤ y) : above32 c y := by
  obtain ⟨neg, x, u, Q, q, rfl, hx, hplace, hc⟩ := h
  have hx0 : 0 ≤ x := le_trans (by positivity) hx.low
  cases neg with
  | false =>
    simp only [signOf, Bool.false_eq_true, if_false, one_mul] at hc ⊢
    exact hx.above32 hplace hc
  | true =>
    have hzero : x = 0 := by
      simp only [signOf, if_true, neg_one_mul] at hy
      linarith
    subst hzero
    rw [hx.toward (.inr ⟨rfl, rfl⟩)] at hc
    have hQ : (Q : ℚ) * (2 : ℚ) ^ u = 0 := le_antisymm hx.low (by positivity)
    rw [hQ, mul_zero] at hc
    rw [mul_zero]
    exact ⟨hc.finite, hc.rat.ge, fun z _ _ hz => hc.rat.le.trans hz⟩

/-! ### What is rounded (R69) -/

theorem rounded_zero (rm : RndMode) (neg : Bool) : Rounded rm (fmtF32.signed neg 0) 0 :=
  ⟨neg, _, -149, 0, 0, by simp, RoundsTo.self rm neg (-149) 0, .inr rfl, by simpa using zero_standsFor neg⟩

/-- A magnitude up to the largest finite number is rounded once. -/
theorem round_rounded (rm : RndMode) (neg : Bool) {m : Nat} {e : Int} {sticky : Bool} {x : ℚ} (hx : Magnitude m e sticky x)
    (hm : m ≠ 0) (hs : sticky = true → 24 ≤ m.log2) (hmax : x ≤ maxF32) :
    Rounded rm (fmtF32.round { rm := rm } neg m e sticky).code (signOf neg * x) := by
  obtain ⟨u, Q, q, hround, hplace, hc⟩ := round_roundsTo rm neg hx hm hs hmax
  exact ⟨neg, x, u, Q, q, rfl, hround, hplace, hc⟩

/-- A finite value up to the largest is rounded once. -/
theorem deliver_rounded (rm : RndMode) {v : FVal} (hv : v.IsNum) (hmax : |v.rat| ≤ maxF32) :
    Rounded rm (fmtF32.deliver { rm := rm } v).code v.rat := by
  obtain ⟨n, m, e, rfl⟩ := hv
  rw [FVal.abs_rat_num] at hmax
  rw [FVal.rat_num]
  by_cases hm : m = 0
  · subst hm
    rw [Nat.cast_zero, zero_mul, mul_zero]
    exact rounded_zero rm n
  · exact round_rounded rm n (sticky := false) rfl hm (fun h => absurd h Bool.false_ne_true) hmax

/-- The quotient of a shifted magnitude, and whether something is left, stand for the exact quotient. -/
theorem magnitude_div (p : Nat) {d : Nat} (hd : 0 < d) (e : Int) :
    Magnitude (p / d) e (decide (p % d ≠ 0)) ((p : ℚ) / d * (2 : ℚ) ^ e) := by
  have hd' : (0 : ℚ) < d := by exact_mod_cast hd
  have he : (0 : ℚ) < (2 : ℚ) ^ e := by positivity
  have hp : (p : ℚ) / d = (p / d : Nat) + ((p % d : Nat) : ℚ) / d := by
    rw [eq_comm, ← eq_sub_iff_add_eq', div_eq_iff hd'.ne', sub_mul, div_mul_cancel₀ _ hd'.ne', eq_sub_iff_add_eq]
    exact_mod_cast Nat.mod_add_div' p d
  rw [Magnitude]
  by_cases hr : p % d = 0
  · simp only [hr, ne_eq, not_true_eq_false, decide_false, Bool.false_eq_true, if_false]
    rw [hp, hr]
    simp
  · have h0 : (0 : ℚ) < ((p % d : Nat) : ℚ) / d := by
      have : (0 : ℚ) < ((p % d : Nat) : ℚ) := by exact_mod_cast Nat.pos_of_ne_zero hr
      positivity
    have h1 : ((p % d : Nat) : ℚ) / d < 1 := by
      rw [div_lt_one hd']
      exact_mod_cast Nat.mod_lt p hd
    simp only [hr, ne_eq, not_false_eq_true, decide_true, if_true]
    rw [mul_lt_mul_iff_left₀ he, mul_lt_mul_iff_left₀ he, hp]
    exact ⟨lt_add_of_pos_right _ h0, by linarith⟩

/-- A magnitude shifted by `k` bits against a divisor, as `ratio` shifts it, has 25 bits of quotient at least. -/
theorem le_log2_shifted {n d k : Nat} (hn : n ≠ 0) (hd : d ≠ 0) (hk : 26 + d.log2 ≤ k + n.log2) : 25 ≤ (n <<< k / d).log2 := by
  have hlow : 2 ^ (k + n.log2) ≤ n <<< k := by
    rw [Nat.shiftLeft_eq, Nat.pow_add, Nat.mul_comm]
    exact Nat.mul_le_mul_right _ (Nat.log2_self_le hn)
  have hd' : d < 2 ^ (d.log2 + 1) := Nat.lt_log2_self
  have hq : 2 ^ 25 ≤ n <<< k / d := by
    rw [Nat.le_div_iff_mul_le (Nat.pos_of_ne_zero hd)]
    calc 2 ^ 25 * d ≤ 2 ^ 25 * 2 ^ (d.log2 + 1) := Nat.mul_le_mul_left _ hd'.le
      _ = 2 ^ (26 + d.log2) := by rw [← Nat.pow_add]; congr 1; omega
      _ ≤ 2 ^ (k + n.log2) := Nat.pow_le_pow_right two_pos hk
      _ ≤ n <<< k := hlow
  exact (Nat.le_log2 (by omega)).2 hq

theorem signOf_div (n d : Int) (hd : d ≠ 0) :
    signOf (decide (n < 0) ^^ decide (d < 0)) * ((n.natAbs : ℚ) / d.natAbs) = n / d := by
  have hd' : (d.natAbs : ℚ) ≠ 0 := by exact_mod_cast Int.natAbs_ne_zero.2 hd
  have hn := signOf_natAbs n
  have hd2 := signOf_natAbs d
  have hs := signOf_mul_self (decide (d < 0))
  have hs0 : signOf (decide (d < 0)) ≠ 0 := fun h => by simp [h] at hs
  rw [signOf_xor, ← hn, ← hd2, mul_assoc, eq_div_iff (mul_ne_zero hs0 hd')]
  calc _ = signOf (decide (n < 0)) * (n.natAbs : ℚ) * (signOf (decide (d < 0)) * signOf (decide (d < 0))) * (d.natAbs / d.natAbs) := by ring
    _ = _ := by rw [hs, div_self hd']; ring

/-- A quotient of integers is rounded once (R69). -/
theorem ratio_rounded (rm : RndMode) {n d : Int} (hd : d ≠ 0) (hmax : |(n : ℚ) / d| ≤ maxF32) :
    Rounded rm (ratio rm n d) ((n : ℚ) / d) := by
  rw [ratio]
  by_cases hn : n = 0
  · subst hn
    rw [if_pos (.inl rfl), Int.cast_zero, zero_div]
    exact rounded_zero rm false
  · rw [if_neg (by simp [hn, hd])]
    have hn' := Int.natAbs_ne_zero.2 hn
    have hd' := Int.natAbs_ne_zero.2 hd
    dsimp only
    generalize hk : 26 + d.natAbs.log2 - min (26 + d.natAbs.log2) n.natAbs.log2 = k
    have hlog := le_log2_shifted hn' hd' (k := k) (by omega)
    have hmag := magnitude_div (n.natAbs <<< k) (Nat.pos_of_ne_zero hd') (-(k : Int))
    have hx : ((n.natAbs <<< k : Nat) : ℚ) / d.natAbs * (2 : ℚ) ^ (-(k : Int)) = n.natAbs / d.natAbs := by
      rw [Nat.shiftLeft_eq, zpow_neg, zpow_natCast]
      push_cast
      field_simp
    rw [hx] at hmag
    rw [← signOf_div n d hd] at hmax ⊢
    refine round_rounded rm _ hmag (fun h0 => ?_) (fun _ => by omega) ?_
    · rw [h0] at hlog
      simp at hlog
    · rwa [abs_mul, abs_signOf, one_mul, abs_of_nonneg (by positivity)] at hmax

end Sys2Proof.Machine
end

section
/-! PROOFS. Rays against boxes (O42; R200): slabs, the near end and its rounding, the ranks of the hits. -/

namespace Sys2Proof.Machine

theorem option_filter_num {v : FVal} (h : v.IsNum) : (some v).filter (fun v => !v.isNan) = some v := by
  simp [FVal.isNan_of_isNum h]

theorem exactSub_rat {a b : FVal} (ha : a.IsNum) (hb : b.IsNum) : ∃ v, exactSub a b = some v ∧ v.IsNum ∧ v.rat = a.rat - b.rat := by
  obtain ⟨v, hv, hnum, hrat⟩ := addVal_rat .rne ha (FVal.isNum_flip hb)
  exact ⟨v, by rw [exactSub, hv, option_filter_num hnum], hnum, by rw [hrat, FVal.rat_flip, sub_eq_add_neg]⟩

theorem exactMul_rat {a b : FVal} (ha : a.IsNum) (hb : b.IsNum) : ∃ v, exactMul a b = some v ∧ v.IsNum ∧ v.rat = a.rat * b.rat := by
  obtain ⟨v, hv, hnum, hrat⟩ := mulVal_rat ha hb
  exact ⟨v, by rw [exactMul, hv, option_filter_num hnum], hnum, hrat⟩

/-- Where a ray meets a plane of a slab, the plane moved out by ε (R200). -/
def planeAt (plane o i : ℚ) : ℚ := (plane - o) * i

/-- The slab of an axis of finite values: the smaller and the larger of the ends (R200). -/
theorem slab_rat {lo hi o i eps : FVal} (hlo : lo.IsNum) (hhi : hi.IsNum) (ho : o.IsNum) (hi' : i.IsNum) (he : eps.IsNum) :
    ∃ n f, slab lo hi o i eps = some (n, f) ∧ n.IsNum ∧ f.IsNum ∧
      n.rat = min (planeAt (lo.rat - eps.rat) o.rat i.rat) (planeAt (hi.rat + eps.rat) o.rat i.rat) ∧
      f.rat = max (planeAt (lo.rat - eps.rat) o.rat i.rat) (planeAt (hi.rat + eps.rat) o.rat i.rat) := by
  obtain ⟨a, ha, hanum, harat⟩ := exactSub_rat hlo he
  obtain ⟨b, hb, hbnum, hbrat⟩ := addVal_rat .rne hhi he
  obtain ⟨a', ha', hanum', harat'⟩ := exactSub_rat hanum ho
  obtain ⟨b', hb', hbnum', hbrat'⟩ := exactSub_rat hbnum ho
  obtain ⟨t1, ht1, hnum1, hrat1⟩ := exactMul_rat hanum' hi'
  obtain ⟨t2, ht2, hnum2, hrat2⟩ := exactMul_rat hbnum' hi'
  obtain ⟨hmin, hminrat⟩ := FVal.minOf_rat hnum1 hnum2
  obtain ⟨hmax, hmaxrat⟩ := FVal.maxOf_rat hnum1 hnum2
  refine ⟨t1.minOf t2, t1.maxOf t2, ?_, hmin, hmax, ?_, ?_⟩
  · simp only [slab, ha, hb, FVal.isNan_of_isNum hbnum, FVal.isInf_of_isNum hi', Bool.false_eq_true, if_false, ha', hb',
      Option.bind_some, ht1, ht2]
  · rw [hminrat, hrat1, hrat2, harat', hbrat', harat, hbrat, planeAt, planeAt]
  · rw [hmaxrat, hrat1, hrat2, harat', hbrat', harat, hbrat, planeAt, planeAt]

/-- The numbers a box test reads: the origin, the reciprocal direction, the planes of each axis, ε and the ends of the ray. -/
structure BoxTest where
  o : Nat → FVal
  i : Nat → FVal
  lo : Nat → FVal
  hi : Nat → FVal
  eps : FVal
  tmin : FVal
  tmax : FVal

namespace BoxTest

/-- They are finite, and the ends of the ray are f32 numbers. -/
structure Finite (B : BoxTest) : Prop where
  o : ∀ k, k < 3 → (B.o k).IsNum
  i : ∀ k, k < 3 → (B.i k).IsNum
  lo : ∀ k, k < 3 → (B.lo k).IsNum
  hi : ∀ k, k < 3 → (B.hi k).IsNum
  eps : B.eps.IsNum
  tmin : B.tmin.IsNum
  tmax : B.tmax.IsNum
  tmin_le : |B.tmin.rat| ≤ maxF32
  tmax_le : |B.tmax.rat| ≤ maxF32

/-- Where the ray enters and leaves the slab of an axis. -/
def slabNear (B : BoxTest) (k : Nat) : ℚ :=
  min (planeAt ((B.lo k).rat - B.eps.rat) (B.o k).rat (B.i k).rat) (planeAt ((B.hi k).rat + B.eps.rat) (B.o k).rat (B.i k).rat)
def slabFar (B : BoxTest) (k : Nat) : ℚ :=
  max (planeAt ((B.lo k).rat - B.eps.rat) (B.o k).rat (B.i k).rat) (planeAt ((B.hi k).rat + B.eps.rat) (B.o k).rat (B.i k).rat)

/-- Where the ray enters and leaves the box, within its own ends (R200). -/
def near (B : BoxTest) : ℚ := max B.tmin.rat (max (B.slabNear 0) (max (B.slabNear 1) (B.slabNear 2)))
def far (B : BoxTest) : ℚ := min B.tmax.rat (min (B.slabFar 0) (min (B.slabFar 1) (B.slabFar 2)))

def Hit (B : BoxTest) : Prop := B.near ≤ B.far ∧ ∀ k, k < 3 → (B.lo k).rat ≤ (B.hi k).rat

/-- The near end of a hit is in the range of f32. -/
theorem abs_near_le {B : BoxTest} (h : B.Finite) (hit : B.Hit) : |B.near| ≤ maxF32 :=
  abs_le.2 ⟨(abs_le.1 h.tmin_le).1.trans (le_max_left _ _),
    hit.1.trans ((min_le_left _ _).trans (abs_le.1 h.tmax_le).2)⟩

/-- The slabs of the three axes. -/
theorem slabs {B : BoxTest} (h : B.Finite) : ∃ n f : Nat → FVal, ∀ k, k < 3 →
    slab (B.lo k) (B.hi k) (B.o k) (B.i k) B.eps = some (n k, f k) ∧ (n k).IsNum ∧ (f k).IsNum ∧
      (n k).rat = B.slabNear k ∧ (f k).rat = B.slabFar k := by
  have hslab (k : Nat) : ∃ p : FVal × FVal, k < 3 → slab (B.lo k) (B.hi k) (B.o k) (B.i k) B.eps = some p ∧ p.1.IsNum ∧ p.2.IsNum ∧
      p.1.rat = B.slabNear k ∧ p.2.rat = B.slabFar k := by
    by_cases hk : k < 3
    · obtain ⟨n, f, hs⟩ := slab_rat (h.lo k hk) (h.hi k hk) (h.o k hk) (h.i k hk) h.eps
      exact ⟨(n, f), fun _ => hs⟩
    · exact ⟨(.nan false, .nan false), fun hk' => absurd hk' hk⟩
  choose p hp using hslab
  exact ⟨fun k => (p k).1, fun k => (p k).2, hp⟩

/-- The near and the far end as the model folds them. -/
def nearEnd (B : BoxTest) (n : Nat → FVal) : FVal := ((B.tmin.maxOf (n 0)).maxOf (n 1)).maxOf (n 2)
def farEnd (B : BoxTest) (f : Nat → FVal) : FVal := ((B.tmax.minOf (f 0)).minOf (f 1)).minOf (f 2)

theorem nearEnd_rat {B : BoxTest} (h : B.Finite) {n : Nat → FVal} (hn : ∀ k, k < 3 → (n k).IsNum ∧ (n k).rat = B.slabNear k) :
    (B.nearEnd n).IsNum ∧ (B.nearEnd n).rat = B.near := by
  obtain ⟨⟨h0, e0⟩, ⟨h1, e1⟩, ⟨h2, e2⟩⟩ := And.intro (hn 0 (by norm_num)) (And.intro (hn 1 (by norm_num)) (hn 2 (by norm_num)))
  obtain ⟨ha, ea⟩ := FVal.maxOf_rat h.tmin h0
  obtain ⟨hb, eb⟩ := FVal.maxOf_rat ha h1
  obtain ⟨hc, ec⟩ := FVal.maxOf_rat hb h2
  exact ⟨hc, by rw [nearEnd, ec, eb, ea, e0, e1, e2, max_assoc, max_assoc, near]⟩

theorem farEnd_rat {B : BoxTest} (h : B.Finite) {f : Nat → FVal} (hf : ∀ k, k < 3 → (f k).IsNum ∧ (f k).rat = B.slabFar k) :
    (B.farEnd f).IsNum ∧ (B.farEnd f).rat = B.far := by
  obtain ⟨⟨h0, e0⟩, ⟨h1, e1⟩, ⟨h2, e2⟩⟩ := And.intro (hf 0 (by norm_num)) (And.intro (hf 1 (by norm_num)) (hf 2 (by norm_num)))
  obtain ⟨ha, ea⟩ := FVal.minOf_rat h.tmax h0
  obtain ⟨hb, eb⟩ := FVal.minOf_rat ha h1
  obtain ⟨hc, ec⟩ := FVal.minOf_rat hb h2
  exact ⟨hc, by rw [farEnd, ec, eb, ea, e0, e1, e2, min_assoc, min_assoc, far]⟩

/-- The ray of a box test. -/
structure RayOf (B : BoxTest) (r : Ray) : Prop where
  o : r.o = [B.o 0, B.o 1, B.o 2]
  i : r.i = [B.i 0, B.i 1, B.i 2]
  eps : r.eps = B.eps
  tmin : r.tmin = B.tmin
  tmax : r.tmax = B.tmax

/-- The model's test of finite values: the planes in order, and the ends of the ray. -/
theorem box_eq {B : BoxTest} (h : B.Finite) {r : Ray} (hr : B.RayOf r) {n f : Nat → FVal}
    (hs : ∀ k, k < 3 → slab (B.lo k) (B.hi k) (B.o k) (B.i k) B.eps = some (n k, f k)) :
    r.box [B.lo 0, B.lo 1, B.lo 2] [B.hi 0, B.hi 1, B.hi 2] =
      if (B.hi 0).below false (B.lo 0) || ((B.hi 1).below false (B.lo 1) || (B.hi 2).below false (B.lo 2)) then none
      else if (B.farEnd f).below false (B.nearEnd n) then none
      else some (if (B.nearEnd n).isZero then 0 else (fmtF32.deliver { rm := .rdn } (B.nearEnd n)).code) := by
  have hnan {g : Nat → FVal} (hg : ∀ k, k < 3 → (g k).IsNum) : (g 0).isNan = false ∧ (g 1).isNan = false ∧ (g 2).isNan = false :=
    ⟨FVal.isNan_of_isNum (hg 0 (by norm_num)), FVal.isNan_of_isNum (hg 1 (by norm_num)), FVal.isNan_of_isNum (hg 2 (by norm_num))⟩
  have h3 : List.range 3 = [0, 1, 2] := rfl
  simp [Ray.box, h3, hr.o, hr.i, hr.eps, hr.tmin, hr.tmax, hnan h.o, hnan h.i, hnan h.lo, hnan h.hi, FVal.isNan_of_isNum h.eps,
    FVal.isNan_of_isNum h.tmin, FVal.isNan_of_isNum h.tmax, hs 0, hs 1, hs 2, nearEnd, farEnd]
  rfl

/-- A box test of finite values: a hit has its near end rounded down (R200). -/
theorem box_hit {B : BoxTest} (h : B.Finite) {r : Ray} (hr : B.RayOf r) (hit : B.Hit) :
    ∃ n, r.box [B.lo 0, B.lo 1, B.lo 2] [B.hi 0, B.hi 1, B.hi 2] = some n ∧ Rounded .rdn n B.near := by
  obtain ⟨n, f, hs⟩ := slabs h
  obtain ⟨hn, en⟩ := nearEnd_rat h fun k hk => ⟨(hs k hk).2.1, (hs k hk).2.2.2.1⟩
  obtain ⟨hf, ef⟩ := farEnd_rat h fun k hk => ⟨(hs k hk).2.2.1, (hs k hk).2.2.2.2⟩
  have hplanes (k : Nat) (hk : k < 3) : (B.hi k).below false (B.lo k) = false := by
    rw [FVal.below_rat (h.hi k hk) (h.lo k hk), decide_eq_false_iff_not, not_lt]
    exact hit.2 k hk
  have hends : (B.farEnd f).below false (B.nearEnd n) = false := by
    rw [FVal.below_rat hf hn, decide_eq_false_iff_not, not_lt, ef, en]
    exact hit.1
  rw [box_eq h hr fun k hk => (hs k hk).1, hplanes 0 (by norm_num), hplanes 1 (by norm_num), hplanes 2 (by norm_num), hends]
  refine ⟨_, rfl, ?_⟩
  split
  · next hz =>
    rw [← en, (FVal.isZero_iff hn).1 hz]
    exact rounded_zero .rdn false
  · rw [← en]
    exact deliver_rounded .rdn hn (en ▸ abs_near_le h hit)

/-- Every other test is a miss. -/
theorem box_miss {B : BoxTest} (h : B.Finite) {r : Ray} (hr : B.RayOf r) (miss : ¬ B.Hit) :
    r.box [B.lo 0, B.lo 1, B.lo 2] [B.hi 0, B.hi 1, B.hi 2] = none := by
  obtain ⟨n, f, hs⟩ := slabs h
  obtain ⟨hn, en⟩ := nearEnd_rat h fun k hk => ⟨(hs k hk).2.1, (hs k hk).2.2.2.1⟩
  obtain ⟨hf, ef⟩ := farEnd_rat h fun k hk => ⟨(hs k hk).2.2.1, (hs k hk).2.2.2.2⟩
  rw [box_eq h hr fun k hk => (hs k hk).1]
  split
  · rfl
  · next hplanes =>
    rw [if_pos]
    rw [FVal.below_iff hf hn, ef, en]
    by_contra hends
    refine miss ⟨not_lt.1 hends, fun k hk => not_lt.1 fun hlt => hplanes ?_⟩
    have hbelow := (FVal.below_iff (h.hi k hk) (h.lo k hk)).2 hlt
    match k, hk with
    | 0, _ => simp [hbelow]
    | 1, _ => simp [hbelow]
    | 2, _ => simp [hbelow]

end BoxTest

end Sys2Proof.Machine
end

section
/-! PROOFS. The box instruction (O42; R200): the hits of the active lanes and their ranks. -/

namespace Sys2Proof.Machine

/-! ### Hits and ranks (R200) -/

/-- The lanes with a hit and their codes. -/
def boxHits (m : Mask) (box : Nat → Option Nat) : List (Nat × Nat) := (lanesOf m).filterMap fun l => (box l).map fun n => (l, n)

theorem mem_boxHits {m : Mask} {box : Nat → Option Nat} {h : Nat × Nat} :
    h ∈ boxHits m box ↔ h.1 < 4 ∧ bitOf m h.1 = true ∧ box h.1 = some h.2 := by
  obtain ⟨l, n⟩ := h
  simp only [boxHits, List.mem_filterMap, mem_lanesOf, Option.map_eq_some_iff, Prod.mk.injEq]
  constructor
  · rintro ⟨l', ⟨hl, hb⟩, n', hn, rfl, rfl⟩
    exact ⟨hl, hb, hn⟩
  · rintro ⟨hl, hb, hn⟩
    exact ⟨l, ⟨hl, hb⟩, n, hn, rfl, rfl⟩

theorem lanesOf_nodup (m : Mask) : (lanesOf m).Nodup := List.nodup_range.filter _

theorem boxHits_nodup (m : Mask) (box : Nat → Option Nat) : (boxHits m box).Nodup := by
  refine (lanesOf_nodup m).filterMap fun l l' h hl hl' => ?_
  obtain ⟨_, _, rfl⟩ := Option.map_eq_some_iff.1 hl
  obtain ⟨_, _, he⟩ := Option.map_eq_some_iff.1 hl'
  exact (congrArg Prod.fst he).symm

theorem boxHits_find_hit {m : Mask} {box : Nat → Option Nat} {l n : Nat} (hl : l < 4) (hm : bitOf m l = true) (hn : box l = some n) :
    (boxHits m box).find? (fun h => decide (h.1 = l)) = some (l, n) := by
  have hmem : (l, n) ∈ boxHits m box := mem_boxHits.2 ⟨hl, hm, hn⟩
  have hfound : ((boxHits m box).find? (fun h => decide (h.1 = l))).isSome := List.find?_isSome.2 ⟨_, hmem, by simp⟩
  obtain ⟨h, hh⟩ := Option.isSome_iff_exists.1 hfound
  obtain ⟨-, -, hbox⟩ := mem_boxHits.1 (List.mem_of_find?_eq_some hh)
  have hfst : h.1 = l := by simpa using List.find?_some hh
  rw [hh, ← Prod.mk.eta (p := h), hfst]
  rw [hfst, hn] at hbox
  rw [Option.some.inj hbox]

theorem boxHits_find_miss {m : Mask} {box : Nat → Option Nat} {l : Nat} (hn : box l = none) :
    (boxHits m box).find? (fun h => decide (h.1 = l)) = none := by
  refine List.find?_eq_none.2 fun h hh => ?_
  obtain ⟨-, -, hbox⟩ := mem_boxHits.1 hh
  refine fun hl => ?_
  rw [of_decide_eq_true hl, hn] at hbox
  cases hbox

/-- A rank counts the lanes before a lane: the nearer ones, and among equals the lower ones (R200). -/
theorem rankOf_boxHits {m : Mask} {box : Nat → Option Nat} (hfin : ∀ l n, l < 4 → bitOf m l = true → box l = some n → finite32 n)
    {l n : Nat} (hl : l < 4) (hm : bitOf m l = true) (hn : box l = some n) {h : List Nat} (hnodup : h.Nodup)
    (hh : ∀ k, k ∈ h ↔ ∃ p, k < 4 ∧ bitOf m k = true ∧ box k = some p ∧ (rat32 p < rat32 n ∨ (rat32 p = rat32 n ∧ k < l))) :
    rankOf (boxHits m box) l n = h.length := by
  have hfn := hfin l n hl hm hn
  rw [rankOf, ← List.length_map (f := Prod.fst)]
  refine List.Perm.length_eq ((List.perm_ext_iff_of_nodup (((boxHits_nodup m box).filter _).map_on ?_) hnodup).2 fun k => ?_)
  · rintro ⟨k, p⟩ hp ⟨k', p'⟩ hp' (rfl : k = k')
    obtain ⟨-, -, e⟩ := mem_boxHits.1 (List.mem_filter.1 hp).1
    obtain ⟨-, -, e'⟩ := mem_boxHits.1 (List.mem_filter.1 hp').1
    exact congrArg (k, ·) (Option.some.inj (e.symm.trans e'))
  · have hbefore {p : Nat} (hp : finite32 p) (k : Nat) : ((fmtF32.value p).below false (fmtF32.value n) ||
        ((fmtF32.value p).same (fmtF32.value n) && decide (k < l))) = true ↔ rat32 p < rat32 n ∨ (rat32 p = rat32 n ∧ k < l) := by
      rw [Bool.or_eq_true, Bool.and_eq_true, FVal.below_iff hp hfn, FVal.same_iff hp hfn, decide_eq_true_iff, rat32, rat32]
    rw [hh, List.mem_map]
    constructor
    · rintro ⟨⟨k, p⟩, hp, rfl⟩
      obtain ⟨hmem, hb⟩ := List.mem_filter.1 hp
      obtain ⟨hk, hkm, hbox⟩ := mem_boxHits.1 hmem
      exact ⟨p, hk, hkm, hbox, (hbefore (hfin k p hk hkm hbox) k).1 hb⟩
    · rintro ⟨p, hk, hkm, hbox, hb⟩
      exact ⟨(k, p), List.mem_filter.2 ⟨mem_boxHits.2 ⟨hk, hkm, hbox⟩, (hbefore (hfin k p hk hkm hbox) k).2 hb⟩, rfl⟩

/-! ### The instruction -/

/-- The box test of a lane (R199, R200). -/
def State.boxTest (s : State) (a b : Fin 32) (l : Nat) : BoxTest :=
  let box (k : Nat) : Fin 32 := if k = 0 then b else if k = 1 then b + 1 else b + 2
  { o := fun k => if k = 0 then s.f32 a 0 0 else if k = 1 then s.f32 a 0 1 else s.f32 a 1 0
    i := fun k => if k = 0 then s.f32 (a + 1) 0 0 else if k = 1 then s.f32 (a + 1) 0 1 else s.f32 (a + 1) 1 0
    lo := fun k => s.f32 (box k) l 0
    hi := fun k => s.f32 (box k) l 1
    eps := s.f32 a 1 1
    tmin := s.f32 a 3 1
    tmax := s.f32 (a + 1) 1 1 }

theorem State.boxTest_rayOf (s : State) (a b : Fin 32) (l : Nat) : (s.boxTest a b l).RayOf (s.ray a) := ⟨rfl, rfl, rfl, rfl, rfl⟩

/-- What the box instruction finds for a lane. -/
def State.boxOf (s : State) (a b : Fin 32) (l : Nat) : Option Nat :=
  (s.ray a).box ([b, b + 1, b + 2].map fun r => s.f32 r l 0) ([b, b + 1, b + 2].map fun r => s.f32 r l 1)

/-- The word of a lane: the code and the rank of a hit. -/
def boxWord (m : Mask) (box : Nat → Option Nat) (l : Nat) : Word :=
  match (boxHits m box).find? fun h => decide (h.1 = l) with
  | some h => pairLane h.2 (rankOf (boxHits m box) l h.2)
  | none => pairLane posInf 0xFFFFFFFF

theorem execBxt_writes {s : State} {d a b : Fin 32} {pr : Fin 8} (hpr : s.src.pBad pr = false)
    (hc : ∀ r ∈ [a, a + 1, b, b + 1, b + 2], s.src.vBad r = 0) :
    s.writesV (.bxt d a b pr) d (s.active pr) (boxWord (s.active pr) (s.boxOf a b)) := by
  have hclean {m : Mask} {vs : List (Fin 32)} (h : ∀ r ∈ vs, r ∈ [a, a + 1, b, b + 1, b + 2]) : s.vMarked m vs = false :=
    State.vMarked_eq_false.2 fun r hr => by rw [hc r (h r hr)]; exact BitVec.zero_and
  refine ⟨_, (exec_bxt ..).trans ?_, s.setV_ofLanes d _ _ 0⟩
  rw [execBxt]
  simp only [hpr, hclean (vs := [a]) (by simp), hclean (vs := [a + 1]) (by simp), hclean (vs := [b, b + 1, b + 2]) (by simp),
    Bool.or_self, Bool.and_false, Bool.false_eq_true, if_false]
  rfl

/-- The numbers of a lane are finite where the ray's and the box's are. -/
theorem State.boxTest_finite {s : State} {a b : Fin 32} {l : Nat}
    (hray : (∀ p ∈ [(0, 0), (0, 1), (1, 0), (1, 1), (2, 0), (2, 1), (3, 0), (3, 1)], (s.f32 a p.1 p.2).IsNum) ∧
      ∀ p ∈ [(0, 0), (0, 1), (1, 0), (1, 1)], (s.f32 (a + 1) p.1 p.2).IsNum)
    (hbox : ∀ r ∈ [b, b + 1, b + 2], ∀ e ∈ [0, 1], (s.f32 r l e).IsNum) : (s.boxTest a b l).Finite := by
  obtain ⟨ha, ha'⟩ := hray
  have hax (k : Nat) : (if k = 0 then b else if k = 1 then b + 1 else b + 2) ∈ [b, b + 1, b + 2] := by
    split_ifs <;> simp
  refine ⟨fun k _ => ?_, fun k _ => ?_, fun k _ => hbox _ (hax k) 0 (by simp), fun k _ => hbox _ (hax k) 1 (by simp), ha (1, 1) (by simp),
    ha (3, 1) (by simp), ha' (1, 1) (by simp), abs_rat32_le _, abs_rat32_le _⟩
  · simp only [State.boxTest]
    split_ifs
    · exact ha (0, 0) (by simp)
    · exact ha (0, 1) (by simp)
    · exact ha (1, 0) (by simp)
  · simp only [State.boxTest]
    split_ifs
    · exact ha' (0, 0) (by simp)
    · exact ha' (0, 1) (by simp)
    · exact ha' (1, 0) (by simp)

/-- The lanes' words: a hit has its near end rounded down and its rank, a miss none (R200). -/
theorem boxWord_spec {m : Mask} {box : Nat → Option Nat} {near : Nat → ℚ} {hit : Nat → Prop}
    (hhit : ∀ l, l < 4 → bitOf m l = true → hit l → ∃ n, box l = some n ∧ Rounded .rdn n (near l))
    (hmiss : ∀ l, l < 4 → bitOf m l = true → ¬ hit l → box l = none) : ∃ n : Nat → Nat,
      (∀ l, l < 4 → bitOf m l = true → hit l → below32 (n l) (near l)) ∧
      (∀ l, l < 4 → bitOf m l = true → ¬ hit l → boxWord m box l = pairLane posInf 0xFFFFFFFF) ∧
      ∀ l, l < 4 → bitOf m l = true → hit l → ∃ r, boxWord m box l = pairLane (n l) r ∧ ∀ h : List Nat, h.Nodup →
        (∀ k, k ∈ h ↔ k < 4 ∧ (bitOf m k = true ∧ hit k) ∧
          (rat32 (n k) < rat32 (n l) ∨ (rat32 (n k) = rat32 (n l) ∧ k < l))) → r = h.length := by
  have hsome {l n : Nat} (hl : l < 4) (hm : bitOf m l = true) (hn : box l = some n) : hit l ∧ Rounded .rdn n (near l) := by
    by_cases h : hit l
    · obtain ⟨n', hn', hr⟩ := hhit l hl hm h
      exact ⟨h, Option.some.inj (hn.symm.trans hn') ▸ hr⟩
    · exact absurd (hn.symm.trans (hmiss l hl hm h)) (by simp)
  refine ⟨fun l => (box l).getD 0, fun l hl hm h => ?_, fun l hl hm h => ?_, fun l hl hm h => ?_⟩
  · obtain ⟨n, hn, hr⟩ := hhit l hl hm h
    simpa only [hn, Option.getD_some] using hr.below32
  · rw [boxWord, boxHits_find_miss (hmiss l hl hm h)]
  · obtain ⟨n, hn, -⟩ := hhit l hl hm h
    simp only [hn, Option.getD_some]
    refine ⟨_, by rw [boxWord, boxHits_find_hit hl hm hn], fun hs hnodup hmem => ?_⟩
    refine rankOf_boxHits (fun l n hl hm hn => (hsome hl hm hn).2.finite) hl hm hn hnodup fun k => ?_
    rw [hmem]
    constructor
    · rintro ⟨hk, ⟨hkm, hkhit⟩, hlt⟩
      obtain ⟨p, hp, -⟩ := hhit k hk hkm hkhit
      rw [hp] at hlt
      exact ⟨p, hk, hkm, hp, hlt⟩
    · rintro ⟨p, hk, hkm, hp, hlt⟩
      rw [hp]
      exact ⟨hk, ⟨hkm, (hsome hk hkm hp).1⟩, hlt⟩

end Sys2Proof.Machine
end

section
/-! PROOFS. The triangle test (O42; R201): edge functions, bounds and distances as rationals, and the test in units of 2^−149. -/

namespace Sys2Proof.Machine

/-! ### Vectors -/

section
variable {R : Type} [CommRing R]

/-- Differences, cross and dot products of vectors of three components. -/
def sub3 (p q : Nat → R) (i : Nat) : R := p i - q i
def cross3 (p q : Nat → R) (i : Nat) : R := p ((i + 1) % 3) * q ((i + 2) % 3) - p ((i + 2) % 3) * q ((i + 1) % 3)
def dot3 (p q : Nat → R) : R := p 0 * q 0 + p 1 * q 1 + p 2 * q 2

/-- The edge function of corner j, and the numerator of the distance, of a ray from o along d against corners v (R201). -/
def triEdge (o d : Nat → R) (v : Nat → Nat → R) (j : Nat) : R := dot3 (cross3 (sub3 (v (j + 1)) o) (sub3 (v (j + 2)) o)) d
def triDist (o : Nat → R) (v : Nat → Nat → R) : R := dot3 (sub3 (v 0) o) (cross3 (sub3 (v 1) (v 0)) (sub3 (v 2) (v 0)))
def triSum (o d : Nat → R) (v : Nat → Nat → R) : R := triEdge o d v 0 + triEdge o d v 1 + triEdge o d v 2

variable [LinearOrder R]

/-- The bound of an edge function, in units of ε (R201). -/
def triBound (d : Nat → R) (v : Nat → Nat → R) (j : Nat) : R :=
  |cross3 (sub3 (v (j + 1)) (v (j + 2))) d 0| + |cross3 (sub3 (v (j + 1)) (v (j + 2))) d 1| +
    |cross3 (sub3 (v (j + 1)) (v (j + 2))) d 2|

/-- The ray passes within the bounds, on one side of all three edges (R201). -/
def triInside (o d : Nat → R) (v : Nat → Nat → R) (eps : R) : Prop :=
  triSum o d v ≠ 0 ∧ ((∀ j, j < 3 → -eps * triBound d v j ≤ triEdge o d v j) ∨ ∀ j, j < 3 → triEdge o d v j ≤ eps * triBound d v j)

/-- The side that culling keeps (R201). -/
def cullKeeps (c : Cull) (sum : R) : Prop :=
  match c with
  | .off => True
  | .back => sum ≤ 0
  | .front => 0 ≤ sum

end

/-! ### Units of 2^−149 -/

/-- The factor of a unit. -/
def unit149 : ℚ := (2 : ℚ) ^ (149 : Int)

theorem unit149_pos : 0 < unit149 := by
  rw [unit149]
  positivity

theorem units_rat {c : Nat} (hc : finite32 c) : ((fmtF32.value c).units : ℚ) = unit149 * (fmtF32.value c).rat := by
  obtain ⟨n, m, e, hv⟩ := hc
  obtain ⟨-, he, -⟩ := value_bounds hv
  rw [hv, FVal.units, ← signedAt_mul he, mul_comm, mul_assoc, unit149, ← zpow_add₀ two_ne_zero]
  norm_num

/-- Integers that are a vector in some unit. -/
def Scaled (a : ℚ) (P : Nat → Int) (p : Nat → ℚ) : Prop := ∀ k, k < 3 → (P k : ℚ) = a * p k

theorem Scaled.sub {a : ℚ} {P Q : Nat → Int} {p q : Nat → ℚ} (hp : Scaled a P p) (hq : Scaled a Q q) :
    Scaled a (sub3 P Q) (sub3 p q) := fun k hk => by
  rw [sub3, sub3, Int.cast_sub, hp k hk, hq k hk, mul_sub]

theorem Scaled.cross {a b : ℚ} {P Q : Nat → Int} {p q : Nat → ℚ} (hp : Scaled a P p) (hq : Scaled b Q q) :
    Scaled (a * b) (cross3 P Q) (cross3 p q) := fun k _ => by
  have h1 : (k + 1) % 3 < 3 := Nat.mod_lt _ (by norm_num)
  have h2 : (k + 2) % 3 < 3 := Nat.mod_lt _ (by norm_num)
  rw [cross3, cross3, Int.cast_sub, Int.cast_mul, Int.cast_mul, hp _ h1, hp _ h2, hq _ h1, hq _ h2]
  ring

theorem Scaled.dot {a b : ℚ} {P Q : Nat → Int} {p q : Nat → ℚ} (hp : Scaled a P p) (hq : Scaled b Q q) :
    ((dot3 P Q : Int) : ℚ) = a * b * dot3 p q := by
  rw [dot3, dot3, Int.cast_add, Int.cast_add, Int.cast_mul, Int.cast_mul, Int.cast_mul, hp 0 (by norm_num), hp 1 (by norm_num),
    hp 2 (by norm_num), hq 0 (by norm_num), hq 1 (by norm_num), hq 2 (by norm_num)]
  ring

section
variable {u : ℚ} {O D : Nat → Int} {V : Nat → Nat → Int} {o d : Nat → ℚ} {v : Nat → Nat → ℚ}
  (hu : 0 < u) (ho : Scaled u O o) (hd : Scaled u D d) (hv : ∀ j, Scaled u (V j) (v j))

include ho hv in
theorem triDist_scaled : ((triDist O V : Int) : ℚ) = u ^ 3 * triDist o v := by
  rw [triDist, ((hv 0).sub ho).dot (((hv 1).sub (hv 0)).cross ((hv 2).sub (hv 0))), triDist]
  ring

include ho hd hv in
theorem triEdge_scaled (j : Nat) : ((triEdge O D V j : Int) : ℚ) = u ^ 3 * triEdge o d v j := by
  rw [triEdge, (((hv (j + 1)).sub ho).cross ((hv (j + 2)).sub ho)).dot hd, triEdge]
  ring

include ho hd hv in
theorem triSum_scaled : ((triSum O D V : Int) : ℚ) = u ^ 3 * triSum o d v := by
  rw [triSum, Int.cast_add, Int.cast_add, triEdge_scaled ho hd hv, triEdge_scaled ho hd hv, triEdge_scaled ho hd hv, triSum]
  ring

include hu hd hv in
theorem triBound_scaled (j : Nat) : ((triBound D V j : Int) : ℚ) = u ^ 2 * triBound d v j := by
  have hw := ((hv (j + 1)).sub (hv (j + 2))).cross hd
  have habs (x : ℚ) : |u * u * x| = u ^ 2 * |x| := by rw [abs_mul, abs_of_pos (by positivity), sq]
  rw [triBound, Int.cast_add, Int.cast_add, Int.cast_abs, Int.cast_abs, Int.cast_abs, hw 0 (by norm_num), hw 1 (by norm_num),
    hw 2 (by norm_num), habs, habs, habs, triBound]
  ring

include hu ho hd hv in
/-- The test does not depend on the unit (R201). -/
theorem triInside_scaled {E : Int} {eps : ℚ} (he : (E : ℚ) = u * eps) : triInside O D V E ↔ triInside o d v eps := by
  have hu3 : 0 < u ^ 3 := by positivity
  have hbound (j : Nat) : ((E * triBound D V j : Int) : ℚ) = u ^ 3 * (eps * triBound d v j) := by
    rw [Int.cast_mul, he, triBound_scaled hu hd hv]
    ring
  have hzero : triSum O D V = 0 ↔ triSum o d v = 0 := by
    rw [← Int.cast_eq_zero (α := ℚ), triSum_scaled ho hd hv, mul_eq_zero, or_iff_right hu3.ne']
  have hlow (j : Nat) : -E * triBound D V j ≤ triEdge O D V j ↔ -eps * triBound d v j ≤ triEdge o d v j := by
    rw [← Int.cast_le (R := ℚ), neg_mul, neg_mul, Int.cast_neg, hbound, triEdge_scaled ho hd hv, ← mul_neg, mul_le_mul_iff_right₀ hu3]
  have hhigh (j : Nat) : triEdge O D V j ≤ E * triBound D V j ↔ triEdge o d v j ≤ eps * triBound d v j := by
    rw [← Int.cast_le (R := ℚ), hbound, triEdge_scaled ho hd hv, mul_le_mul_iff_right₀ hu3]
  simp only [triInside, Ne, hzero, hlow, hhigh]

include hu ho hd hv in
theorem cullKeeps_scaled (c : Cull) : cullKeeps c (triSum O D V) ↔ cullKeeps c (triSum o d v) := by
  have hu3 : 0 < u ^ 3 := by positivity
  cases c with
  | off => exact Iff.rfl
  | back => rw [cullKeeps, cullKeeps, ← Int.cast_nonpos (R := ℚ), triSum_scaled ho hd hv, ← not_lt, ← not_lt, mul_pos_iff_of_pos_left hu3]
  | front => rw [cullKeeps, cullKeeps, ← Int.cast_nonneg_iff (R := ℚ), triSum_scaled ho hd hv, mul_nonneg_iff_of_pos_left hu3]

include hu ho hd hv in
theorem triSum_pos_scaled : 0 < triSum O D V ↔ 0 < triSum o d v := by
  rw [← Int.cast_pos (R := ℚ), triSum_scaled ho hd hv, mul_pos_iff_of_pos_left (by positivity)]

end

/-- A common factor of a quotient cancels. -/
theorem div_scaled {u : ℚ} (hu : 0 < u) {n d : Int} {x y : ℚ} (hn : (n : ℚ) = u ^ 3 * x) (hd : (d : ℚ) = u ^ 3 * y) :
    (n : ℚ) / d = x / y := by
  rw [hn, hd, mul_div_mul_left _ _ (pow_ne_zero 3 hu.ne')]

end Sys2Proof.Machine
end

section
/-! PROOFS. The triangle test of the model (O42; R201): what it computes in units of 2^−149, and the instruction. -/

namespace Sys2Proof.Machine

/-! ### The model's vectors -/

/-- A vector as the model lists it. -/
def list3 {α : Type} (p : Nat → α) : List α := [p 0, p 1, p 2]

theorem vsub_list3 (p q : Nat → Int) : vsub (list3 p) (list3 q) = list3 (sub3 p q) := rfl

theorem vcross_list3 (p q : Nat → Int) : vcross (list3 p) (list3 q) = list3 (cross3 p q) := rfl

theorem vdotI_list3 (p q : Nat → Int) : vdotI (list3 p) (list3 q) = dot3 p q := by
  simp only [vdotI, list3, dot3, List.zipWith_cons_cons, List.zipWith_nil_left, List.sum_cons, List.sum_nil]
  ring

theorem sum_natAbs_list3 (p : Nat → Int) : ((list3 p).map fun x : Int => (x.natAbs : Int)).sum = |p 0| + |p 1| + |p 2| := by
  simp only [list3, List.map_cons, List.map_nil, List.sum_cons, List.sum_nil, Int.natCast_natAbs]
  ring

theorem ite_not_or {α : Type} (a b : Bool) (x : Option α) :
    (if (!a || b) = true then none else x) = if (a && !b) = true then x else none := by
  cases a <;> cases b <;> rfl

/-! ### The test -/

/-- The numbers a triangle test reads: the ray and the corners, with their indices modulo 3. -/
structure TriTest where
  o : Nat → FVal
  d : Nat → FVal
  v : Nat → Nat → FVal
  eps : FVal
  tmin : FVal
  tmax : FVal

/-- An f32 number. -/
def FVal.IsF32 (x : FVal) : Prop := ∃ c, finite32 c ∧ x = fmtF32.value c

theorem FVal.IsF32.isNum {x : FVal} (h : x.IsF32) : x.IsNum := by
  obtain ⟨c, hc, rfl⟩ := h
  exact hc

theorem FVal.IsF32.units {x : FVal} (h : x.IsF32) : (x.units : ℚ) = unit149 * x.rat := by
  obtain ⟨c, hc, rfl⟩ := h
  exact units_rat hc

namespace TriTest

structure Finite (T : TriTest) : Prop where
  o : ∀ k, k < 3 → (T.o k).IsF32
  d : ∀ k, k < 3 → (T.d k).IsF32
  v : ∀ j k, k < 3 → (T.v j k).IsF32
  eps : T.eps.IsF32
  tmin : T.tmin.IsF32
  tmax : T.tmax.IsF32

/-- The numbers in units of 2^−149. -/
def oU (T : TriTest) (k : Nat) : Int := (T.o k).units
def dU (T : TriTest) (k : Nat) : Int := (T.d k).units
def vU (T : TriTest) (j k : Nat) : Int := (T.v j k).units

/-- The numbers as rationals. -/
def oQ (T : TriTest) (k : Nat) : ℚ := (T.o k).rat
def dQ (T : TriTest) (k : Nat) : ℚ := (T.d k).rat
def vQ (T : TriTest) (j k : Nat) : ℚ := (T.v j k).rat

/-- The ray of a triangle test. -/
structure RayOf (T : TriTest) (r : Ray) : Prop where
  o : r.o = list3 T.o
  d : r.d = list3 T.d
  eps : r.eps = T.eps
  tmin : r.tmin = T.tmin
  tmax : r.tmax = T.tmax

/-- The corners as the model lists them. -/
def corners (T : TriTest) : List (List FVal) := list3 fun j => list3 (T.v j)

/-- What the model delivers for a distance t where the test holds. -/
def result (T : TriTest) (t : Nat) : Option (Nat × Nat × Nat × Bool) :=
  if (fmtF32.value t).below false T.tmin || T.tmax.below false (fmtF32.value t) then none
  else some (t, ratio .rne (triEdge T.oU T.dU T.vU 1) (triSum T.oU T.dU T.vU), ratio .rne (triEdge T.oU T.dU T.vU 2)
    (triSum T.oU T.dU T.vU), decide (0 < triSum T.oU T.dU T.vU))

/-- The model's condition, in units. -/
def holds (T : TriTest) (c : Cull) : Bool :=
  decide (triSum T.oU T.dU T.vU ≠ 0) &&
    (([0, 1, 2].all fun j => decide (-(T.eps.units * triBound T.dU T.vU j) ≤ triEdge T.oU T.dU T.vU j)) ||
      [0, 1, 2].all fun j => decide (triEdge T.oU T.dU T.vU j ≤ T.eps.units * triBound T.dU T.vU j)) &&
    !match c with
      | .off => false
      | .back => decide (0 < triSum T.oU T.dU T.vU)
      | .front => decide (triSum T.oU T.dU T.vU < 0)

theorem holds_iff (T : TriTest) (c : Cull) :
    T.holds c = true ↔ triInside T.oU T.dU T.vU T.eps.units ∧ cullKeeps c (triSum T.oU T.dU T.vU) := by
  have hall (p : Nat → Prop) [DecidablePred p] : ([0, 1, 2].all fun j => decide (p j)) = true ↔ ∀ j, j < 3 → p j := by
    simp only [List.all_cons, List.all_nil, Bool.and_true, Bool.and_eq_true, decide_eq_true_iff]
    refine ⟨fun ⟨h0, h1, h2⟩ j hj => ?_, fun h => ⟨h 0 (by norm_num), h 1 (by norm_num), h 2 (by norm_num)⟩⟩
    match j, hj with
    | 0, _ => exact h0
    | 1, _ => exact h1
    | 2, _ => exact h2
  unfold holds
  rw [Bool.and_eq_true, Bool.and_eq_true, Bool.or_eq_true, hall, hall, decide_eq_true_iff, triInside]
  simp only [neg_mul]
  cases c <;> simp [cullKeeps]

/-- The model's test of finite values, in units of 2^−149 (R201). -/
theorem triangle_eq {T : TriTest} (h : T.Finite) (hper : ∀ j, T.v j = T.v (j % 3)) {r : Ray} (hr : T.RayOf r) (c : Cull) :
    r.triangle T.corners c =
      if T.holds c then T.result (ratio .rne (triDist T.oU T.vU) (triSum T.oU T.dU T.vU)) else none := by
  have hfin : ((r.eps :: r.tmin :: r.tmax :: (r.o ++ r.d ++ T.corners.flatten)).all FVal.finite) = true := by
    have hf {x : FVal} (hx : x.IsF32) : x.finite = true := FVal.finite_of_isNum hx.isNum
    have h3 {p : Nat → FVal} (hp : ∀ k, k < 3 → (p k).IsF32) : (list3 p).all FVal.finite = true := by
      simp [list3, hf (hp 0 (by norm_num)), hf (hp 1 (by norm_num)), hf (hp 2 (by norm_num))]
    simp [hr.o, hr.d, hr.eps, hr.tmin, hr.tmax, hf h.eps, hf h.tmin, hf h.tmax]
    refine ⟨List.all_eq_true.1 (h3 h.o), List.all_eq_true.1 (h3 h.d), fun x hx => ?_⟩
    obtain ⟨j, -, rfl⟩ : ∃ j, j < 3 ∧ x = list3 (T.v j) := by
      rcases (by simpa [corners, list3] using hx) with rfl | rfl | rfl
      exacts [⟨0, by norm_num, rfl⟩, ⟨1, by norm_num, rfl⟩, ⟨2, by norm_num, rfl⟩]
    exact List.all_eq_true.1 (h3 (h.v j))
  have hcorner (j : Nat) : ((T.corners[j % 3]?).getD []).map FVal.units = list3 (T.vU j) := by
    have hj : j % 3 < 3 := Nat.mod_lt _ (by norm_num)
    rw [show T.vU j = T.vU (j % 3) by funext k; rw [vU, hper]; rfl]
    match j % 3, hj with
    | 0, _ => rfl
    | 1, _ => rfl
    | 2, _ => rfl
  have ho : r.o.map FVal.units = list3 T.oU := by rw [hr.o]; rfl
  have hd : r.d.map FVal.units = list3 T.dU := by rw [hr.d]; rfl
  rw [Ray.triangle, hfin]
  simp only [Bool.not_true, Bool.false_eq_true, if_false, hcorner, ho, hd, hr.eps, hr.tmin, hr.tmax, vsub_list3, vcross_list3,
    vdotI_list3, sum_natAbs_list3]
  cases c <;> exact ite_not_or _ _ _

/-- A miss: the ray is outside, or its side culled (R201). -/
theorem triangle_miss {T : TriTest} (h : T.Finite) (hper : ∀ j, T.v j = T.v (j % 3)) {r : Ray} (hr : T.RayOf r) {c : Cull}
    (hmiss : ¬ (triInside T.oQ T.dQ T.vQ T.eps.rat ∧ cullKeeps c (triSum T.oQ T.dQ T.vQ))) : r.triangle T.corners c = none := by
  have ho : Scaled unit149 T.oU T.oQ := fun k hk => (h.o k hk).units
  have hd : Scaled unit149 T.dU T.dQ := fun k hk => (h.d k hk).units
  have hv : ∀ j, Scaled unit149 (T.vU j) (T.vQ j) := fun j k hk => (h.v j k hk).units
  rw [triangle_eq h hper hr, if_neg]
  rwa [holds_iff, triInside_scaled unit149_pos ho hd hv h.eps.units, cullKeeps_scaled unit149_pos ho hd hv]

/-- What stands at a hit: the distance and the weights rounded to nearest, between the ends of the ray (R201). -/
theorem triangle_hit {T : TriTest} (h : T.Finite) (hper : ∀ j, T.v j = T.v (j % 3)) {r : Ray} (hr : T.RayOf r) {c : Cull}
    (hin : triInside T.oQ T.dQ T.vQ T.eps.rat) (hkept : cullKeeps c (triSum T.oQ T.dQ T.vQ))
    (hx : |triDist T.oQ T.vQ / triSum T.oQ T.dQ T.vQ| ≤ maxF32) (h1 : |triEdge T.oQ T.dQ T.vQ 1 / triSum T.oQ T.dQ T.vQ| ≤ maxF32)
    (h2 : |triEdge T.oQ T.dQ T.vQ 2 / triSum T.oQ T.dQ T.vQ| ≤ maxF32) : ∃ t u w,
      nearest32 t (triDist T.oQ T.vQ / triSum T.oQ T.dQ T.vQ) ∧ nearest32 u (triEdge T.oQ T.dQ T.vQ 1 / triSum T.oQ T.dQ T.vQ) ∧
      nearest32 w (triEdge T.oQ T.dQ T.vQ 2 / triSum T.oQ T.dQ T.vQ) ∧
      (T.tmin.rat ≤ rat32 t ∧ rat32 t ≤ T.tmax.rat →
        r.triangle T.corners c = some (t, u, w, decide (0 < triSum T.oQ T.dQ T.vQ))) ∧
      (¬ (T.tmin.rat ≤ rat32 t ∧ rat32 t ≤ T.tmax.rat) → r.triangle T.corners c = none) := by
  have ho : Scaled unit149 T.oU T.oQ := fun k hk => (h.o k hk).units
  have hd : Scaled unit149 T.dU T.dQ := fun k hk => (h.d k hk).units
  have hv : ∀ j, Scaled unit149 (T.vU j) (T.vQ j) := fun j k hk => (h.v j k hk).units
  have hsum := triSum_scaled ho hd hv
  have hnear {n : Int} {y : ℚ} (hn : (n : ℚ) = unit149 ^ 3 * y) (hy : |y / triSum T.oQ T.dQ T.vQ| ≤ maxF32) :
      nearest32 (ratio .rne n (triSum T.oU T.dU T.vU)) (y / triSum T.oQ T.dQ T.vQ) := by
    have hdiv := div_scaled unit149_pos hn hsum
    have hsum0 : triSum T.oU T.dU T.vU ≠ 0 := ((triInside_scaled unit149_pos ho hd hv h.eps.units).2 hin).1
    rw [← hdiv] at hy ⊢
    exact (ratio_rounded .rne hsum0 hy).nearest32
  have ht := hnear (triDist_scaled ho hv) hx
  have hholds : T.holds c = true := (holds_iff T c).2
    ⟨(triInside_scaled unit149_pos ho hd hv h.eps.units).2 hin, (cullKeeps_scaled unit149_pos ho hd hv c).2 hkept⟩
  refine ⟨_, _, _, ht, hnear (triEdge_scaled ho hd hv 1) h1, hnear (triEdge_scaled ho hd hv 2) h2, ?_⟩
  have hends : ((fmtF32.value (ratio .rne (triDist T.oU T.vU) (triSum T.oU T.dU T.vU))).below false T.tmin ||
      T.tmax.below false (fmtF32.value (ratio .rne (triDist T.oU T.vU) (triSum T.oU T.dU T.vU)))) = true ↔
      ¬ (T.tmin.rat ≤ rat32 (ratio .rne (triDist T.oU T.vU) (triSum T.oU T.dU T.vU)) ∧
        rat32 (ratio .rne (triDist T.oU T.vU) (triSum T.oU T.dU T.vU)) ≤ T.tmax.rat) := by
    rw [Bool.or_eq_true, FVal.below_iff ht.1 h.tmin.isNum, FVal.below_iff h.tmax.isNum ht.1, not_and_or, not_le, not_le]
    rfl
  rw [triangle_eq h hper hr, if_pos hholds, result]
  refine ⟨fun hin => ?_, fun hout => if_pos (hends.2 hout)⟩
  rw [if_neg (mt hends.1 (not_not.2 hin)), decide_eq_decide.2 (triSum_pos_scaled unit149_pos ho hd hv)]

end TriTest

end Sys2Proof.Machine
end

section
/-! PROOFS. The triangle, code and hit instructions (O42; R201, R202, R204). -/

namespace Sys2Proof.Machine

/-- A context instruction with an active lane and no mark has its effect (R198). -/
theorem State.onceActive_clean {s : State} {pr : Fin 8} {vs : List (Fin 32)} (hpr : s.src.pBad pr = false) (hact : s.active pr ≠ 0)
    (hc : ∀ r ∈ vs, s.src.vBad r = 0) (effect : State) : s.onceActive pr vs effect = .next effect := by
  have hmark : s.vMarked 0xF vs = false := State.vMarked_eq_false.2 fun r hr => by rw [hc r hr]; exact BitVec.zero_and
  rw [State.onceActive, hpr, hmark, if_neg Bool.false_ne_true, if_neg hact, if_neg Bool.false_ne_true]

/-! ### Triangles (R201) -/

/-- The triangle test of the instruction (R199). -/
def State.triTest (s : State) (a b : Fin 32) : TriTest where
  o := fun k => if k = 0 then s.f32 a 0 0 else if k = 1 then s.f32 a 0 1 else s.f32 a 1 0
  d := fun k => if k = 0 then s.f32 a 2 0 else if k = 1 then s.f32 a 2 1 else s.f32 a 3 0
  v := fun j k => if k < 2 then s.f32 b (j % 3) k else s.f32 (b + 1) (j % 3) 0
  eps := s.f32 a 1 1
  tmin := s.f32 a 3 1
  tmax := s.f32 (a + 1) 1 1

theorem State.triTest_rayOf (s : State) (a b : Fin 32) : (s.triTest a b).RayOf (s.ray a) := ⟨rfl, rfl, rfl, rfl, rfl⟩

theorem State.triTest_mod (s : State) (a b : Fin 32) (j : Nat) : (s.triTest a b).v j = (s.triTest a b).v (j % 3) := by
  simp only [State.triTest, Nat.mod_mod]

theorem State.triTest_finite {s : State} {a b : Fin 32}
    (ha : ∀ p ∈ [(0, 0), (0, 1), (1, 0), (1, 1), (2, 0), (2, 1), (3, 0), (3, 1)], (s.f32 a p.1 p.2).IsF32)
    (ha' : ∀ p ∈ [(0, 0), (0, 1), (1, 0), (1, 1)], (s.f32 (a + 1) p.1 p.2).IsF32)
    (hb : ∀ p ∈ [(0, 0), (0, 1), (1, 0), (1, 1), (2, 0), (2, 1)], (s.f32 b p.1 p.2).IsF32)
    (hb' : ∀ p ∈ [(0, 0), (1, 0), (2, 0)], (s.f32 (b + 1) p.1 p.2).IsF32) : (s.triTest a b).Finite := by
  refine ⟨fun k _ => ?_, fun k _ => ?_, fun j k _ => ?_, ha (1, 1) (by simp), ha (3, 1) (by simp), ha' (1, 1) (by simp)⟩
  · simp only [State.triTest]
    split_ifs
    exacts [ha (0, 0) (by simp), ha (0, 1) (by simp), ha (1, 0) (by simp)]
  · simp only [State.triTest]
    split_ifs
    exacts [ha (2, 0) (by simp), ha (2, 1) (by simp), ha (3, 0) (by simp)]
  · simp only [State.triTest]
    have hj : j % 3 < 3 := Nat.mod_lt _ (by norm_num)
    split_ifs with hk
    · exact hb (j % 3, k) (by simp; omega)
    · exact hb' (j % 3, 0) (by simp; omega)

section
variable {s : State} {d a b : Fin 32} {c : Cull} {pr : Fin 8} (hpr : s.src.pBad pr = false) (hact : s.active pr ≠ 0)
  (hc : ∀ r ∈ [a, a + 1, b, b + 1], s.src.vBad r = 0)
include hpr hact hc

theorem execTrix_hit {t u w : Nat} {back : Bool} (h : (s.ray a).triangle (s.vertices b) c = some (t, u, w, back)) :
    s.writesV (.trix d a b c pr) d 0x3 fun l => if l = 0 then pairLane t u else pairLane w (if back then 3 else 1) := by
  refine ⟨_, (exec_trix ..).trans ((State.onceActive_clean hpr hact hc _).trans ?_), s.setV_ofLanes d 0x3 _ 0⟩
  rw [h]

theorem execTrix_miss (h : (s.ray a).triangle (s.vertices b) c = none) :
    s.writesV (.trix d a b c pr) d 0x3 fun l => if l = 0 then pairLane posInf 0 else 0 := by
  refine ⟨_, (exec_trix ..).trans ((State.onceActive_clean hpr hact hc _).trans ?_), s.setV_ofLanes d 0x3 _ 0⟩
  rw [h]

end

/-! ### Codes (R202) -/

theorem toNat_pairLane (x y : Nat) : (pairLane x y).toNat = x % 2 ^ 32 + 2 ^ 32 * (y % 2 ^ 32) := by
  rw [pairLane, BitVec.toNat_ofNat, Nat.mod_eq_of_lt]
  have hx := Nat.mod_lt x (Nat.two_pow_pos 32)
  have hy := Nat.mod_lt y (Nat.two_pow_pos 32)
  omega

@[simp] theorem el_pairLane_low (x y : Nat) : el 32 0 (pairLane x y) = x % 2 ^ 32 := by
  rw [el, toNat_pairLane, Nat.mul_zero, Nat.shiftRight_zero, Nat.add_mul_mod_self_left, Nat.mod_mod]

@[simp] theorem el_pairLane_high (x y : Nat) : el 32 1 (pairLane x y) = y % 2 ^ 32 := by
  rw [el, toNat_pairLane, Nat.mul_one, Nat.shiftRight_eq_div_pow, Nat.add_mul_div_left _ _ (Nat.two_pow_pos 32),
    Nat.div_eq_of_lt (Nat.mod_lt _ (Nat.two_pow_pos 32)), Nat.zero_add, Nat.mod_mod]

/-- A decoded code is exact (R202). -/
theorem q16Value_standsFor (q : Nat) {sc : Int} (hsc : sc.natAbs ≤ 100) :
    StandsFor (q16Value q sc) ((BitVec.ofNat 16 q).toInt * (2 : ℚ) ^ sc) := by
  have hlow : -2 ^ 15 ≤ (BitVec.ofNat 16 q).toInt := (BitVec.ofNat 16 q).le_toInt
  have hhigh : (BitVec.ofNat 16 q).toInt < 2 ^ 15 := (BitVec.ofNat 16 q).toInt_lt
  rw [q16Value]
  generalize (BitVec.ofNat 16 q).toInt = n at hlow hhigh
  have hn : n.natAbs ≤ 2 ^ 15 := by omega
  have hvalue : (n : ℚ) * (2 : ℚ) ^ sc = (FVal.num (decide (n < 0)) n.natAbs sc).rat := by
    rw [FVal.rat_num, ← mul_assoc, signOf_natAbs]
  have hmax : (n.natAbs : ℚ) * (2 : ℚ) ^ sc ≤ maxF32 := by
    have hn' : (n.natAbs : ℚ) ≤ 2 ^ 15 := by exact_mod_cast hn
    calc (n.natAbs : ℚ) * (2 : ℚ) ^ sc ≤ 2 ^ 15 * (2 : ℚ) ^ (100 : Int) := by
          gcongr
          · norm_num
          · omega
      _ ≤ maxF32 := by rw [maxF32]; norm_num
  have habs := FVal.abs_rat_num (decide (n < 0)) n.natAbs sc
  rw [hvalue]
  exact (deliver_rounded .rne ⟨_, _, _, rfl⟩ (habs.trans_le hmax)).exact (by omega) (by omega) habs

/-- The lane of two f32 codes gives them back. -/
theorem StandsFor.low {x y : Nat} {z : ℚ} (h : StandsFor x z) : rat32 (el 32 0 (pairLane x y)) = z := by
  rw [el_pairLane_low, Nat.mod_eq_of_lt h.fits, h.rat]

theorem StandsFor.high {x y : Nat} {z : ℚ} (h : StandsFor y z) : rat32 (el 32 1 (pairLane x y)) = z := by
  rw [el_pairLane_high, Nat.mod_eq_of_lt h.fits, h.rat]

theorem State.regsOnly.pc {s t : State} (h : s.regsOnly t) : t.cx.pc = s.cx.pc := (congrArg Context.pc h.regs).trans rfl

theorem State.regsOnly.memory {s t : State} (h : s.regsOnly t) : t.mem = s.mem := (congrArg State.mem h.rest).trans rfl

/-- Two vector registers written one after the other: what each holds, and what stays. -/
theorem State.setV_setV_lanes (s : State) {d e : Fin 32} (hde : d ≠ e) (m n : Mask) (f g : Nat → Word) :
    let t := (s.setV d m (ofLanes f)).setV e n (ofLanes g)
    (∀ l, l < 4 → lane l (t.cx.v d) = if bitOf m l then f l else lane l (s.cx.v d)) ∧
    (∀ l, l < 4 → lane l (t.cx.v e) = if bitOf n l then g l else lane l (s.cx.v e)) ∧
    (∀ r, r ≠ d → r ≠ e → t.cx.v r = s.cx.v r) ∧ t.cx.r.g = s.cx.r.g ∧ t.cx.pc = s.cx.pc ∧ t.mem = s.mem := by
  have h1 := s.setV_ofLanes d m f 0
  have h2 := (s.setV d m (ofLanes f)).setV_ofLanes e n g 0
  refine ⟨fun l hl => ?_, fun l hl => ?_, fun r hd he => ?_, h2.gregs.1.trans h1.gregs.1, h2.pc.trans h1.pc, h2.memory.trans h1.memory⟩
  · rw [(h2.other d hde).1, h1.value l hl]
  · rw [h2.value l hl, (h1.other e hde.symm).1]
  · rw [(h2.other r he).1, (h1.other r hd).1]

theorem fin_ne_succ (d : Fin 32) : d ≠ d + 1 := by revert d; decide

section
variable {s : State} {d a b : Fin 32} {pr : Fin 8} (hpr : s.src.pBad pr = false) (hb : s.src.gBad b = false)
  (ha : s.src.vBad a &&& s.active pr = 0)
include hpr hb ha

/-- The codes of the active lanes are decoded exactly (R202). -/
theorem execCdec_does (hsc : ((s.src.g b).setWidth 8).toInt.natAbs ≤ 100) : s.does (.cdec d a b pr) fun t =>
    let q (l e : Nat) : Nat := q16Value (el 16 e (lane l (s.src.v a))) ((s.src.g b).setWidth 8).toInt
    (∀ l, l < 4 → lane l (t.cx.v d) = if bitOf (s.active pr) l then pairLane (q l 0) (q l 1) else lane l (s.cx.v d)) ∧
    (∀ l, l < 4 → lane l (t.cx.v (d + 1)) = if bitOf (s.active pr) l then pairLane (q l 2) 0 else lane l (s.cx.v (d + 1))) ∧
    (∀ r, r ≠ d → r ≠ d + 1 → t.cx.v r = s.cx.v r) ∧ t.cx.r.g = s.cx.r.g ∧ t.cx.pc = s.cx.pc ∧ t.mem = s.mem := by
  have hmark : s.vMarked (s.active pr) [a] = false := State.vMarked_eq_false.2 fun r hr => List.mem_singleton.1 hr ▸ ha
  by_cases hact : s.active pr = 0
  · have hoff (l : Nat) : ¬ bitOf (s.active pr) l = true := by rw [hact]; simp [bitOf]
    refine ⟨s, (exec_cdec ..).trans ?_, fun l _ => (if_neg (hoff l)).symm, fun l _ => (if_neg (hoff l)).symm, fun _ _ _ => rfl, rfl, rfl, rfl⟩
    simp only [execCdec, hpr, hact, Bool.false_eq_true, if_false, if_true]
  · refine ⟨_, (exec_cdec ..).trans ?_, s.setV_setV_lanes (fin_ne_succ d) (s.active pr) (s.active pr) _ _⟩
    simp only [execCdec, hpr, hact, hb, hmark, Bool.or_self, Bool.false_eq_true, if_false]
    exact congrArg Host.Outcome.next (if_neg (not_lt.2 hsc))

/-- A scale out of range is an illegal operation (R202). -/
theorem execCdec_faults (hact : s.active pr ≠ 0) (hsc : 100 < ((s.src.g b).setWidth 8).toInt.natAbs) (hp : s.plain) :
    ∃ addr, s.faults (.cdec d a b pr) Cause.illop addr := by
  have hmark : s.vMarked (s.active pr) [a] = false := State.vMarked_eq_false.2 fun r hr => List.mem_singleton.1 hr ▸ ha
  refine ⟨_, _, (exec_cdec ..).trans ?_, State.faultOpen_tookTrap hp Cause.illop⟩
  simp only [execCdec, hpr, hact, hb, hmark, Bool.or_self, Bool.false_eq_true, if_false]
  exact congrArg Host.Outcome.next (if_pos hsc)

end

/-! ### The better hit (R204) -/

/-- A candidate of finite distance wins when it hits and is nearer, or as near with the lower identity (R204). -/
theorem hitWins_iff {x y : VReg} (hx : finite32 (el 32 0 (lane 0 x))) (hy : finite32 (el 32 0 (lane 0 y))) : hitWins x y = true ↔
    bitOf (lane 1 x) 32 = true ∧ (bitOf (lane 1 y) 32 = false ∨ rat32 (el 32 0 (lane 0 x)) < rat32 (el 32 0 (lane 0 y)) ∨
      (rat32 (el 32 0 (lane 0 x)) = rat32 (el 32 0 (lane 0 y)) ∧ lane 2 x < lane 2 y)) := by
  simp only [hitWins, FVal.isNan_of_isNum hx, Bool.not_false, Bool.and_true, Bool.and_eq_true, Bool.or_eq_true, Bool.not_eq_true',
    FVal.below_iff hx hy, FVal.same_iff hx hy, decide_eq_true_eq, or_assoc]
  rfl

theorem bitOf_lane_mask {l k : Nat} (hl : l < 4) (hk : k < 4) : bitOf (BitVec.ofNat 4 (2 ^ k)) l = decide (l = k) := by
  interval_cases l <;> interval_cases k <;> rfl

section
variable {s : State} {d a b : Fin 32} {pr : Fin 8} (hpr : s.src.pBad pr = false) (hact : s.active pr ≠ 0)
  (hc : ∀ r ∈ [a, b, d], s.src.vBad r = 0)
include hpr hact hc

theorem execHcmp_wins (hde : d ≠ b) (h : hitWins (s.src.v a) (s.src.v d) = true) : s.does (.hcmp d a b pr) fun u =>
    u.cx.v d = s.src.v a ∧
    (∀ l, l < 4 → lane l (u.cx.v b) = if l = 1 then pairLane (el 32 0 (lane 1 (s.src.v b))) (el 32 0 (lane 0 (s.src.v a)))
      else lane l (s.cx.v b)) ∧
    (∀ r, r ≠ d → r ≠ b → u.cx.v r = s.cx.v r) ∧ u.cx.r.g = s.cx.r.g ∧ u.cx.pc = s.cx.pc ∧ u.mem = s.mem := by
  have hvs : ∀ r ∈ [a, d, b], s.src.vBad r = 0 := fun r hr => hc r (by simp at hr ⊢; tauto)
  refine ⟨_, (exec_hcmp ..).trans ((State.onceActive_clean hpr hact hvs _).trans (congrArg Host.Outcome.next (if_pos h))), ?_⟩
  have h1 := s.setV_gotV d 0xF (s.v a) 0
  have h2 := (s.setV d 0xF (s.v a)).setV_ofLanes b 0x2
    (fun l => if l = 1 then pairLane (el 32 0 (lane 1 (s.v b))) (el 32 0 (lane 0 (s.v a))) else 0) 0
  refine ⟨vreg_ext fun l hl => ?_, fun l hl => ?_, fun r hd hb => ?_, h2.gregs.1.trans h1.gregs.1, h2.pc.trans h1.pc,
    h2.memory.trans h1.memory⟩
  · rw [(h2.other d hde).1, h1.value l hl, if_pos (by interval_cases l <;> rfl)]
    rfl
  · rw [h2.value l hl, (h1.other b hde.symm).1, show (0x2 : Mask) = BitVec.ofNat 4 (2 ^ 1) from rfl, bitOf_lane_mask hl (by norm_num)]
    by_cases hl1 : l = 1
    · rw [if_pos (decide_eq_true hl1), if_pos hl1, if_pos hl1]
      rfl
    · rw [if_neg (by simpa using hl1), if_neg hl1]
  · rw [(h2.other r hb).1, (h1.other r hd).1]

theorem execHcmp_loses (h : ¬ hitWins (s.src.v a) (s.src.v d) = true) : exec (.hcmp d a b pr) s = .next s := by
  have hvs : ∀ r ∈ [a, d, b], s.src.vBad r = 0 := fun r hr => hc r (by simp at hr ⊢; tauto)
  exact (exec_hcmp ..).trans ((State.onceActive_clean hpr hact hvs _).trans (congrArg Host.Outcome.next (if_neg h)))

end

end Sys2Proof.Machine
end

section
/-! PROOFS. Rebased origins and coverage (O42; R69, R77, R203, R205). -/

namespace Sys2Proof.Machine

/-! ### Rebasing (R77, R203) -/

theorem add_code (a b : FVal) : (fmtF32.add {} a b).code = ((addVal .rne a b).elim fmtF32.invalid (fmtF32.deliver {})).code := rfl

theorem two_pow_126_le : (2 : ℚ) ^ 126 ≤ maxF32 := by
  rw [maxF32]
  norm_num

theorem two_pow_127_le : (2 : ℚ) ^ 127 ≤ maxF32 := by
  rw [maxF32]
  norm_num

/-- A difference in range is rounded to nearest (R77). -/
theorem difference_rounded {a b : FVal} (ha : a.IsNum) (hb : b.IsNum) (hmax : |a.rat - b.rat| ≤ maxF32) :
    Rounded .rne (fmtF32.add {} a b.flip).code (a.rat - b.rat) := by
  obtain ⟨v, hv, hnum, hrat⟩ := addVal_rat .rne ha (FVal.isNum_flip hb)
  rw [FVal.rat_flip, ← sub_eq_add_neg] at hrat
  rw [add_code, hv, ← hrat]
  exact deliver_rounded .rne hnum (hrat ▸ hmax)

theorem rebase_fst (x y : Nat) : (rebase x y).1 = fmtF32.add {} (fmtF64.value x) (fmtF64.value y).flip := by
  rw [rebase]
  split <;> rfl

/-- The error of a difference: exact, and not negative (R77). -/
theorem rebase_snd {x y : Nat} (ha : (fmtF64.value x).IsNum) (hb : (fmtF64.value y).IsNum)
    (hmax : |(fmtF64.value x).rat - (fmtF64.value y).rat| ≤ maxF32) : ∃ v, (rebase x y).2 = some v ∧ v.IsNum ∧
      v.rat = |(fmtF64.value x).rat - (fmtF64.value y).rat - rat32 (fmtF32.add {} (fmtF64.value x) (fmtF64.value y).flip).code| := by
  have hgot : finite32 (fmtF32.add {} (fmtF64.value x) (fmtF64.value y).flip).code := (difference_rounded ha hb hmax).finite
  obtain ⟨v, hv, ⟨n, m, e, rfl⟩, hrat⟩ := addVal_rat .rne ha (FVal.isNum_flip hb)
  obtain ⟨w, hw, ⟨k, p, g, rfl⟩, hrat'⟩ := addVal_rat .rne (a := .num n m e) ⟨_, _, _, rfl⟩ (FVal.isNum_flip hgot)
  refine ⟨.num false p g, ?_, ⟨_, _, _, rfl⟩, ?_⟩
  · simp only [rebase, hv, FVal.isInf_of_isNum hgot, Bool.false_eq_true, if_false, hw]
  · rw [FVal.rat_num, show signOf false = 1 from rfl, one_mul, ← FVal.abs_rat_num k p g, hrat', hrat, FVal.rat_flip, FVal.rat_flip,
      ← sub_eq_add_neg, ← sub_eq_add_neg]
    rfl

/-- The error is in range where the difference is. -/
theorem abs_sub_nearest_le {c : Nat} {y : ℚ} (h : nearest32 c y) : |y - rat32 c| ≤ |y| := by
  have hz := zero_standsFor false
  have := h.2 _ hz.fits hz.finite
  rwa [hz.rat, zero_sub, abs_neg, abs_sub_comm] at this

/-- The bound of three errors is the largest, rounded up (R77). -/
theorem rebaseBound_rounded {v : Nat → FVal} (hv : ∀ i, i < 3 → (v i).IsNum ∧ 0 ≤ (v i).rat ∧ (v i).rat ≤ maxF32) :
    Rounded .rup (rebaseBound [some (v 0), some (v 1), some (v 2)]).code (max (v 0).rat (max (v 1).rat (v 2).rat)) := by
  obtain ⟨⟨h0, p0, l0⟩, ⟨h1, p1, l1⟩, ⟨h2, p2, l2⟩⟩ :=
    And.intro (hv 0 (by norm_num)) (And.intro (hv 1 (by norm_num)) (hv 2 (by norm_num)))
  obtain ⟨ha, ea⟩ := FVal.maxOf_rat (a := .num false 0 0) ⟨_, _, _, rfl⟩ h0
  obtain ⟨hb, eb⟩ := FVal.maxOf_rat ha h1
  obtain ⟨hc, ec⟩ := FVal.maxOf_rat hb h2
  have hzero : (FVal.num false 0 0).rat = 0 := by simp [FVal.rat_num]
  have hlargest : ((((FVal.num false 0 0).maxOf (v 0)).maxOf (v 1)).maxOf (v 2)).rat = max (v 0).rat (max (v 1).rat (v 2).rat) := by
    rw [ec, eb, ea, hzero, max_eq_right p0, max_assoc]
  have hrange : |((((FVal.num false 0 0).maxOf (v 0)).maxOf (v 1)).maxOf (v 2)).rat| ≤ maxF32 := by
    rw [hlargest, abs_of_nonneg (p0.trans (le_max_left _ _))]
    exact max_le l0 (max_le l1 l2)
  rw [← hlargest]
  exact deliver_rounded .rup hc hrange

theorem getLsbD_foldl_flags (l : List FRes) (fl : Flags) (k : Nat) :
    (l.foldl (fun fl r => fl ||| r.flags) fl).getLsbD k = true ↔ fl.getLsbD k = true ∨ ∃ r ∈ l, r.flags.getLsbD k = true := by
  induction l generalizing fl with
  | nil => simp
  | cons r l ih =>
    rw [List.foldl_cons, ih, BitVec.getLsbD_or, Bool.or_eq_true, List.exists_mem_cons_iff, or_assoc]

/-- The flags of several results are those that one of them raises (R72). -/
theorem unionFlags_iff (l : List FRes) (k : Nat) : (unionFlags l).getLsbD k = true ↔ ∃ r ∈ l, r.flags.getLsbD k = true := by
  rw [unionFlags, getLsbD_foldl_flags]
  simp

section
variable {s : State} {d a b : Fin 32} {pr : Fin 8}

/-- A component of the rebased origin (R77). -/
def State.rebased (s : State) (a b : Fin 32) (i : Nat) : FRes :=
  fmtF32.add {} (fmtF64.value (lane i (s.src.v a)).toNat) (fmtF64.value (lane i (s.src.v b)).toNat).flip

/-- The bound of the rebased origin (R77). -/
def State.rebasedBound (s : State) (a b : Fin 32) : FRes :=
  rebaseBound ((List.range 3).map fun i => (rebase (lane i (s.src.v a)).toNat (lane i (s.src.v b)).toNat).2)

theorem execRbase_next (hpr : s.src.pBad pr = false) (hact : s.active pr ≠ 0) (hc : ∀ r ∈ [a, b], s.src.vBad r = 0) :
    exec (.rbase d a b pr) s = .next ((s.setV d 0x3 (ofLanes fun l =>
      if l = 0 then pairLane (s.rebased a b 0).code (s.rebased a b 1).code
      else pairLane (s.rebased a b 2).code (s.rebasedBound a b).code)).raise
        (unionFlags (s.rebasedBound a b :: (List.range 3).map (s.rebased a b)))) := by
  rw [exec_rbase, execRbase, State.onceActive_clean hpr hact hc]
  have hfst : (List.range 3).map (s.rebased a b) =
      ((List.range 3).map fun i => rebase (lane i (s.v a)).toNat (lane i (s.v b)).toNat).map Prod.fst := by
    rw [List.map_map]
    exact List.map_congr_left fun i _ => (rebase_fst _ _).symm
  have hcode (i : Nat) (hi : i < 3) : ((((List.range 3).map fun i => rebase (lane i (s.v a)).toNat (lane i (s.v b)).toNat)[i]?).map
      fun x => x.1.code).getD 0 = (s.rebased a b i).code := by
    rw [List.getElem?_map, List.getElem?_range hi]
    exact congrArg FRes.code (rebase_fst _ _)
  rw [hfst]
  simp only [hcode 0 (by norm_num), hcode 1 (by norm_num), hcode 2 (by norm_num), List.map_map]
  rfl

/-- The bound is the largest of the errors, rounded up (R77). -/
theorem State.rebasedBound_rounded (h : ∀ i, i < 3 → (fmtF64.value (lane i (s.src.v a)).toNat).IsNum ∧
      (fmtF64.value (lane i (s.src.v b)).toNat).IsNum ∧
      |(fmtF64.value (lane i (s.src.v a)).toNat).rat - (fmtF64.value (lane i (s.src.v b)).toNat).rat| ≤ maxF32) {err : Nat → ℚ}
    (herr : ∀ i, err i = |(fmtF64.value (lane i (s.src.v a)).toNat).rat - (fmtF64.value (lane i (s.src.v b)).toNat).rat -
      rat32 (s.rebased a b i).code|) : Rounded .rup (s.rebasedBound a b).code (max (err 0) (max (err 1) (err 2))) := by
  have hone (i : Nat) : ∃ v, i < 3 → (rebase (lane i (s.src.v a)).toNat (lane i (s.src.v b)).toNat).2 = some v ∧ v.IsNum ∧
      v.rat = err i := by
    by_cases hi : i < 3
    · obtain ⟨ha, hb, hmax⟩ := h i hi
      obtain ⟨v, hv⟩ := rebase_snd ha hb hmax
      exact ⟨v, fun _ => herr i ▸ hv⟩
    · exact ⟨.nan false, fun hi' => absurd hi' hi⟩
  choose v hv using hone
  have hlist : (List.range 3).map (fun i => (rebase (lane i (s.src.v a)).toNat (lane i (s.src.v b)).toNat).2) =
      [some (v 0), some (v 1), some (v 2)] := by
    rw [← (hv 0 (by norm_num)).1, ← (hv 1 (by norm_num)).1, ← (hv 2 (by norm_num)).1]
    rfl
  rw [State.rebasedBound, hlist, ← (hv 0 (by norm_num)).2.2, ← (hv 1 (by norm_num)).2.2, ← (hv 2 (by norm_num)).2.2]
  refine rebaseBound_rounded fun i hi => ⟨(hv i hi).2.1, ?_⟩
  obtain ⟨ha, hb, hmax⟩ := h i hi
  rw [(hv i hi).2.2, herr]
  exact ⟨abs_nonneg _, (abs_sub_nearest_le (difference_rounded ha hb hmax).nearest32).trans hmax⟩

end

/-! ### Coverage (R205) -/

/-- The edge functions of a sample, and its area. -/
def sampleEdge (p : Int × Int) (v : Nat → Int × Int) (j : Nat) : Int := edgeFn (v ((j + 1) % 3)) (v ((j + 2) % 3)) p
def sampleArea (p : Int × Int) (v : Nat → Int × Int) : Int := sampleEdge p v 0 + sampleEdge p v 1 + sampleEdge p v 2

/-- An edge owns its zero points (R205). -/
def Owns (u w : Int × Int) : Prop := w.2 < u.2 ∨ (u.2 = w.2 ∧ w.1 < u.1)

theorem edgeOwns_iff (u w : Int × Int) : edgeOwns u w = true ↔ Owns u w := by
  rw [edgeOwns, Bool.or_eq_true, Bool.and_eq_true, decide_eq_true_iff, decide_eq_true_iff, decide_eq_true_iff, Owns]

/-- The side that culling keeps (R205). -/
def covKeeps (c : Cull) (area : Int) : Prop :=
  match c with
  | .off => True
  | .back => 0 ≤ area
  | .front => area ≤ 0

/-- The sample is covered (R205). -/
def Covered (p : Int × Int) (v : Nat → Int × Int) (c : Cull) : Prop :=
  sampleArea p v ≠ 0 ∧ covKeeps c (sampleArea p v) ∧
    ((0 < sampleArea p v ∧ ∀ j, j < 3 → 0 < sampleEdge p v j ∨ (sampleEdge p v j = 0 ∧ Owns (v ((j + 1) % 3)) (v ((j + 2) % 3)))) ∨
      (sampleArea p v < 0 ∧ ∀ j, j < 3 → sampleEdge p v j < 0 ∨ (sampleEdge p v j = 0 ∧ Owns (v ((j + 2) % 3)) (v ((j + 1) % 3)))))

/-- The model's tests of a sample. -/
def sampleInside (p : Int × Int) (v : Nat → Int × Int) : Bool :=
  let neg := decide (sampleArea p v < 0)
  [0, 1, 2].all fun j =>
    let x := if neg then -(sampleEdge p v j) else sampleEdge p v j
    let own := if neg then edgeOwns (v ((j + 2) % 3)) (v ((j + 1) % 3)) else edgeOwns (v ((j + 1) % 3)) (v ((j + 2) % 3))
    decide (0 < x) || (decide (x = 0) && own)
def sampleCulled (c : Cull) (area : Int) : Bool :=
  match c with
  | .off => false
  | .back => decide (area < 0)
  | .front => decide (0 < area)

theorem sample_eq (p : Int × Int) (v : Nat → Int × Int) (z : Nat → FVal) (c : Cull) : sample p v z c =
    if sampleArea p v = 0 ∨ sampleCulled c (sampleArea p v) = true ∨ sampleInside p v = false then pairLane posInf 0
    else if !([0, 1, 2].all fun j => (z j).finite) then pairLane fmtF32.nanCode 1
    else pairLane (ratio .rne (([0, 1, 2].map fun j => sampleEdge p v j * (z j).units).sum) (sampleArea p v * 2 ^ 149)) 1 := by
  cases c <;> rfl

theorem all_corners {p : Nat → Bool} : [0, 1, 2].all p = true ↔ ∀ j, j < 3 → p j = true := by
  rw [List.all_eq_true]
  refine ⟨fun h j hj => h j (by simp; omega), fun h j hj => h j ?_⟩
  simp at hj
  omega

theorem covered_iff {p : Int × Int} {v : Nat → Int × Int} {c : Cull} : Covered p v c ↔
    ¬ (sampleArea p v = 0 ∨ sampleCulled c (sampleArea p v) = true ∨ sampleInside p v = false) := by
  have hkeeps : covKeeps c (sampleArea p v) ↔ ¬ sampleCulled c (sampleArea p v) = true := by
    cases c <;> simp [covKeeps, sampleCulled]
  rw [not_or, not_or, Bool.not_eq_false, ← hkeeps, Covered]
  refine and_congr_right fun h0 => and_congr_right fun _ => ?_
  rw [sampleInside, all_corners]
  by_cases hneg : sampleArea p v < 0
  · rw [or_iff_right fun h => absurd h.1 (not_lt.2 hneg.le), and_iff_right hneg]
    simp only [hneg, decide_true, if_true, Bool.or_eq_true, Bool.and_eq_true, decide_eq_true_eq, edgeOwns_iff, Int.neg_pos,
      Int.neg_eq_zero]
  · rw [or_iff_left fun h => hneg h.1, and_iff_right (by omega)]
    simp only [hneg, decide_false, Bool.false_eq_true, if_false, Bool.or_eq_true, Bool.and_eq_true, decide_eq_true_eq, edgeOwns_iff]

theorem sample_uncovered {p : Int × Int} {v : Nat → Int × Int} {z : Nat → FVal} {c : Cull} (h : ¬ Covered p v c) :
    sample p v z c = pairLane posInf 0 := by
  rw [sample_eq, if_pos (not_not.1 (mt covered_iff.2 h))]

/-- The depth of a covered sample, rounded to nearest (R205). -/
theorem sample_covered {p : Int × Int} {v : Nat → Int × Int} {z : Nat → FVal} {c : Cull} (h : Covered p v c)
    (hz : ∀ j, j < 3 → (z j).IsF32) {y : ℚ}
    (hy : y = ((sampleEdge p v 0 : ℚ) * (z 0).rat + sampleEdge p v 1 * (z 1).rat + sampleEdge p v 2 * (z 2).rat) / sampleArea p v)
    (hmax : |y| ≤ maxF32) : ∃ n, sample p v z c = pairLane n 1 ∧ nearest32 n y := by
  have hfin : ([0, 1, 2].all fun j => (z j).finite) = true := all_corners.2 fun j hj => FVal.finite_of_isNum (hz j hj).isNum
  have hu : ((2 ^ 149 : Int) : ℚ) = unit149 := by
    rw [unit149]
    norm_num
  have harea : sampleArea p v * 2 ^ 149 ≠ 0 := mul_ne_zero h.1 (by norm_num)
  have hquot : ((([0, 1, 2].map fun j => sampleEdge p v j * (z j).units).sum : Int) : ℚ) / ((sampleArea p v * 2 ^ 149 : Int) : ℚ) = y := by
    simp only [List.map_cons, List.map_nil, List.sum_cons, List.sum_nil, Int.cast_add, Int.cast_mul, (hz 0 (by norm_num)).units,
      (hz 1 (by norm_num)).units, (hz 2 (by norm_num)).units, Int.cast_zero, hu, hy]
    rw [← mul_div_mul_right _ (sampleArea p v : ℚ) unit149_pos.ne']
    ring
  refine ⟨_, ?_, (hquot ▸ ratio_rounded .rne harea (hquot.symm ▸ hmax) : Rounded .rne _ y).nearest32⟩
  rw [sample_eq, if_neg (covered_iff.1 h), hfin, if_neg (by simp)]

/-- Coverage of the active lanes (R205). -/
theorem execCov_writes {s : State} {d a b : Fin 32} {c : Cull} {pr : Fin 8} (hpr : s.src.pBad pr = false)
    (hc : ∀ r ∈ [a, b, b + 1], s.src.vBad r = 0) : s.writesV (.cov d a b c pr) d (s.active pr) fun l =>
      sample (s.i32 a l 0, s.i32 a l 1) (fun j => (s.i32 b j 0, s.i32 b j 1)) (fun j => s.f32 (b + 1) j 0) c := by
  have hclean {m : Mask} {vs : List (Fin 32)} (h : ∀ r ∈ vs, r ∈ [a, b, b + 1]) : s.vMarked m vs = false :=
    State.vMarked_eq_false.2 fun r hr => by rw [hc r (h r hr)]; exact BitVec.zero_and
  refine ⟨_, (exec_cov ..).trans ?_, s.setV_ofLanes d _ _ 0⟩
  simp only [execCov, hpr, hclean (vs := [a]) (by simp), hclean (vs := [b, b + 1]) (by simp), Bool.or_self, Bool.and_false,
    Bool.false_eq_true, if_false]

end Sys2Proof.Machine
end

section
/-! PROOFS. The depth test (O42; R206): the lanes one after the other, each at its own word. -/

namespace Sys2Proof.Machine

/-! ### Lane-precise instructions without a fault (R150) -/

theorem foldl_withBit_lanesOf (m : Mask) : (lanesOf m).foldl (fun m l => withBit m l true) (0 : Mask) = m := by
  refine BitVec.eq_of_getLsbD_eq fun l hl => ?_
  have h := bitOf_foldl_withBit (n := 4) (fun _ => true) hl (lanesOf m) 0
  rw [← bitOf, ← bitOf, h]
  by_cases hm : bitOf m l = true
  · rw [if_pos (mem_lanesOf.2 ⟨hl, hm⟩), hm]
  · rw [if_neg (fun h => hm (mem_lanesOf.1 h).2), Bool.eq_false_iff.2 hm]
    simp [bitOf]

/-- Where no check of a lane fails or waits, every lane performs and KLRES names them all (R150). -/
theorem State.lanewise_ok {s : State} {m : Mask} {chk : Nat → Check} (h : ∀ l ∈ lanesOf m, chk l = .ok) (perform : Mask → State) :
    s.lanewise m chk perform = (perform m).modCx fun x => { x with k.lres := m.setWidth 64 } := by
  have hwait : ((lanesOf m).any fun l => (chk l).waits) = false := by
    rw [List.any_eq_false]
    exact fun l hl => by simp [h l hl, Check.waits]
  have hbad : ((lanesOf m).filter fun l => (chk l).fault?.isSome) = [] := by
    rw [List.filter_eq_nil_iff]
    exact fun l hl => by simp [h l hl, Check.fault?]
  have hdone : ((lanesOf m).filter fun l => (chk l).passed) = lanesOf m := by
    rw [List.filter_eq_self]
    exact fun l hl => by simp [h l hl, Check.passed]
  simp only [State.lanewise, hwait, hbad, hdone, foldl_withBit_lanesOf, Bool.false_eq_true, if_false, if_true]

/-! ### The words of the lanes (R206) -/

/-- The words of four lanes do not overlap. -/
theorem lane_words_disjoint {base : Word} {l k : Nat} (hl : l < 4) (hk : k < 4) (hne : l ≠ k) : (base + BitVec.ofNat 64 (4 * l)).toNat + 4 ≤ (base + BitVec.ofNat 64 (4 * k)).toNat ∨
      (base + BitVec.ofNat 64 (4 * k)).toNat + 4 ≤ (base + BitVec.ofNat 64 (4 * l)).toNat := by
  rw [BitVec.toNat_add, BitVec.toNat_add, BitVec.toNat_ofNat, BitVec.toNat_ofNat]
  omega

/-- A depth test after the lanes `ls`: `key` are their words, `z` their depths, `pass` who passed; their results are in `r`, and
nothing else changed that a later lane reads. -/
structure DepthTested (s : State) (r : Fin 32) (key z : Nat → Nat) (pass : Nat → Bool) (ls : List Nat) (t : State) : Prop where
  cur : t.cur = s.cur
  poison : t.poison = s.poison
  wf : t.wf
  pc : t.cx.pc = s.cx.pc
  lanes : ∀ l, l < 4 → lane l (t.cx.v r) = if l ∈ ls then pairLane (z l) (if pass l then 1 else 0) else lane l (s.cx.v r)
  inside : ∀ l ∈ ls, ∀ j, j < 4 → t.byteAt (key l + j) = if pass l then byteOf (z l) j else s.byteAt (key l + j)
  outside : ∀ k, (∀ l ∈ ls, k < key l ∨ key l + 4 ≤ k) → t.byteAt k = s.byteAt k

theorem DepthTested.start {s : State} {r : Fin 32} {key z : Nat → Nat} {pass : Nat → Bool} (h : s.wf) :
    DepthTested s r key z pass [] s :=
  ⟨rfl, rfl, h, rfl, fun _ _ => by simp, fun _ hl => absurd hl (by simp), fun _ _ => rfl⟩

/-- A number read from bytes that stay is the same. -/
theorem State.loadNat_congr {s t : State} {a n : Nat} (h : ∀ k, k < n → t.byteAt (a + k) = s.byteAt (a + k)) :
    t.loadNat a n = s.loadNat a n := by
  rw [State.loadNat_eq_map, State.loadNat_eq_map]
  exact congrArg leNat (List.map_congr_left fun k hk => h k (List.mem_range.1 hk))

section
variable {s t : State} {r : Fin 32} {addr : Nat → Word} {pass : Nat → Bool} {ls : List Nat} {l : Nat}

/-- What a lane of a depth test writes: its depth where it passes (R206). -/
def State.depthWrite (t : State) (key z : Nat) (pass : Bool) : State :=
  if pass then (t.storeNat key 4 z).wrote key 4 else t

theorem State.depthWrite_memOnly (t : State) (key z : Nat) (pass : Bool) : t.memOnly (t.depthWrite key z pass) := by
  cases pass
  · exact t.memOnly_refl
  · exact t.storeUlm_memOnly key (natBytes z 4) 4

theorem State.depthWrite_wf {t : State} (h : t.wf) (key z : Nat) (pass : Bool) : (t.depthWrite key z pass).wf := by
  cases pass
  · exact h
  · simpa [State.wf, State.depthWrite] using State.storeNat_wf key 4 z h

theorem State.byteAt_depthWrite {t : State} (h : t.wf) (key z : Nat) (pass : Bool) (k : Nat) : (t.depthWrite key z pass).byteAt k =
    if pass ∧ key ≤ k ∧ k < key + 4 then byteOf z (k - key) else t.byteAt k := by
  cases pass
  · simp [State.depthWrite]
  · rw [State.depthWrite, if_pos rfl, State.byteAt_congr (State.wrote_mem _ _ _), State.byteAt_storeNat h]
    simp only [true_and]

/-- One lane more is tested: its word is read as it was at first, since the words of the lanes do not overlap (R206). -/
theorem DepthTested.step {z : Nat → Nat} (hz : ∀ k, z k = el 32 0 (lane k (s.v r)))
    (hpass : ∀ k, pass k = (bitOf (lane k (s.v r)) 32 &&
      (fmtF32.value (z k)).below false (fmtF32.value (s.loadNat (s.hereKey (addr k).toNat) 4))))
    (h : DepthTested s r (fun k => s.hereKey (addr k).toNat) z pass ls t) (hl : l < 4)
    (hclean : s.poisoned (s.hereKey (addr l).toNat) = false)
    (hdisjoint : ∀ k ∈ ls, s.hereKey (addr l).toNat + 4 ≤ s.hereKey (addr k).toNat ∨ s.hereKey (addr k).toNat + 4 ≤ s.hereKey (addr l).toNat) :
    DepthTested s r (fun k => s.hereKey (addr k).toNat) z pass (l :: ls) (s.depthTest t r l (addr l).toNat) := by
  have hkey : t.hereKey (addr l).toNat = s.hereKey (addr l).toNat := by rw [State.hereKey, State.hereKey, h.cur]
  have hpoison : t.poisoned (s.hereKey (addr l).toNat) = false := by rw [State.poisoned, h.poison]; exact hclean
  have hload : t.loadNat (s.hereKey (addr l).toNat) 4 = s.loadNat (s.hereKey (addr l).toNat) 4 := by
    refine State.loadNat_congr fun j hj => h.outside _ fun k hk => ?_
    have := hdisjoint k hk
    omega
  have htest : s.depthTest t r l (addr l).toNat = (t.depthWrite (s.hereKey (addr l).toNat) (z l) (pass l)).setV r (withBit 0 l true)
      (ofLanes fun _ => pairLane (z l) (if pass l then 1 else 0)) 0 := by
    have hp := hpass l
    simp only [State.depthTest, hkey, hpoison, Bool.false_eq_true, if_false, hload, ← hz, ← hp, State.depthWrite]
  generalize hu : t.depthWrite (s.hereKey (addr l).toNat) (z l) (pass l) = u at htest
  have hmem : t.memOnly u := hu ▸ State.depthWrite_memOnly ..
  have hbyte := State.byteAt_depthWrite h.wf (s.hereKey (addr l).toNat) (z l) (pass l)
  rw [hu] at hbyte
  have hset := u.setV_ofLanes r (withBit 0 l true) (fun _ => pairLane (z l) (if pass l then 1 else 0)) 0
  have hcx := State.memOnly_cx hmem
  rw [htest]
  refine ⟨?_, ?_, ?_, ?_, fun k hk => ?_, fun k hk j hj => ?_, fun k hk => ?_⟩
  · exact (State.memOnly_cur hmem).trans h.cur
  · exact ((congrArg State.poison hmem.rest).trans rfl).trans h.poison
  · exact (hu ▸ State.depthWrite_wf h.wf _ _ _ : u.wf)
  · rw [hset.pc, hcx]
    exact h.pc
  · rw [hset.value k hk]
    by_cases hkl : k = l
    · subst hkl
      rw [if_pos (bitOf_withBit_same _ _ _ hk), if_pos List.mem_cons_self]
    · have hbit : bitOf (withBit (0 : Mask) l true) k = false := by
        rw [bitOf_withBit_other _ _ _ _ hkl]
        simp [bitOf]
      rw [hbit, if_neg Bool.false_ne_true, show u.cx.v r = t.cx.v r by rw [hcx]; rfl, h.lanes k hk]
      simp only [List.mem_cons, hkl, false_or]
  · rw [hset.mem, hbyte]
    rcases List.mem_cons.1 hk with rfl | hk
    · by_cases hp : pass k = true
      · rw [if_pos ⟨hp, by omega, by omega⟩, if_pos hp, Nat.add_sub_cancel_left]
      · rw [if_neg fun h => hp h.1, if_neg hp]
        refine h.outside _ fun i hi => ?_
        have := hdisjoint i hi
        omega
    · rw [if_neg, h.inside k hk j hj]
      have := hdisjoint k hk
      omega
  · rw [hset.mem, hbyte, if_neg, h.outside k fun i hi => hk i (List.mem_cons_of_mem _ hi)]
    have := hk l List.mem_cons_self
    omega

/-- All the lanes tested, one after the other. -/
theorem DepthTested.all {z : Nat → Nat} (hz : ∀ k, z k = el 32 0 (lane k (s.v r)))
    (hpass : ∀ k, pass k = (bitOf (lane k (s.v r)) 32 &&
      (fmtF32.value (z k)).below false (fmtF32.value (s.loadNat (s.hereKey (addr k).toNat) 4)))) (rest : List Nat)
    (h : DepthTested s r (fun k => s.hereKey (addr k).toNat) z pass ls t) (hnodup : rest.Nodup) (hnew : ∀ l ∈ rest, l ∉ ls)
    (hrest : ∀ l ∈ rest, l < 4 ∧ s.poisoned (s.hereKey (addr l).toNat) = false) (hdone : ∀ l ∈ ls, l < 4)
    (hdisjoint : ∀ l k, l < 4 → k < 4 → l ≠ k →
      s.hereKey (addr l).toNat + 4 ≤ s.hereKey (addr k).toNat ∨ s.hereKey (addr k).toNat + 4 ≤ s.hereKey (addr l).toNat) :
    DepthTested s r (fun k => s.hereKey (addr k).toNat) z pass (rest.reverse ++ ls)
      (rest.foldl (fun t l => s.depthTest t r l (addr l).toNat) t) := by
  induction rest generalizing t ls with
  | nil => exact h
  | cons l rest ih =>
    obtain ⟨hl, hnodup⟩ := List.nodup_cons.1 hnodup
    obtain ⟨⟨hl4, hclean⟩, hrest⟩ := List.forall_mem_cons.1 hrest
    obtain ⟨hlnew, hnew⟩ := List.forall_mem_cons.1 hnew
    rw [List.reverse_cons, List.append_assoc, List.foldl_cons]
    refine ih (h.step hz hpass hl4 hclean fun k hk => hdisjoint l k hl4 (hdone k hk) fun e => hlnew (e ▸ hk)) hnodup
      (fun k hk => ?_) hrest (List.forall_mem_cons.2 ⟨hl4, hdone⟩)
    exact fun hmem => (List.mem_cons.1 hmem).elim (fun e => hl (e ▸ hk)) (hnew k hk)

/-- The word of a lane that was tested: its depth where it passed, and as it was where not. -/
theorem DepthTested.load {key z : Nat → Nat} (h : DepthTested s r key z pass ls t) (hw : s.wf) (hz : ∀ k, z k < 2 ^ 32) (hl : l ∈ ls) :
    t.loadNat (key l) 4 = if pass l then z l else s.loadNat (key l) 4 := by
  by_cases hp : pass l = true
  · have hstored : t.loadNat (key l) 4 = (s.storeNat (key l) 4 (z l)).loadNat (key l) 4 := State.loadNat_congr fun j hj => by
      rw [h.inside l hl j hj, if_pos hp, State.byteAt_storeNat hw, if_pos (by omega), Nat.add_sub_cancel_left]
    rw [hstored, State.loadNat_storeNat hw _ _ _ _ _ (le_refl _) (le_refl _), Nat.sub_self, Nat.pow_zero, Nat.div_one, if_pos hp]
    exact Nat.mod_eq_of_lt (hz l)
  · rw [if_neg hp]
    exact State.loadNat_congr fun j hj => by rw [h.inside l hl j hj, if_neg hp]

end

/-! ### The instruction -/

/-- The address of a lane's word (R206). -/
def State.depthAddr (s : State) (a : Fin 32) (o : BitVec 11) (l : Nat) : Word := s.ea a o 4 + BitVec.ofNat 64 (4 * l)

/-- A lane passes: it is covered, and nearer than what stands at its word (R206). -/
def State.depthPass (s : State) (d a : Fin 32) (o : BitVec 11) (l : Nat) : Bool :=
  bitOf (lane l (s.v d)) 32 && (fmtF32.value (el 32 0 (lane l (s.v d)))).below false
    (fmtF32.value (s.loadNat (s.hereKey (s.depthAddr a o l).toNat) 4))

/-- With no lane poisoned or refused, the depth test tests every lane of KMASK (R206). -/
theorem execZtst_tests {s : State} {d a : Fin 32} {o : BitVec 11} (hw : s.wf) (hc : s.cleanG [a]) (hv : s.src.vBad d &&& s.kmask = 0)
    (hok : ∀ l, l < 4 → bitOf s.kmask l = true → s.localCheck (s.depthAddr a o l).toNat 4 { r := true, w := true } = .ok ∧
      s.poisoned (s.hereKey (s.depthAddr a o l).toNat) = false) : ∃ t ls, (∀ l, l ∈ ls ↔ l < 4 ∧ bitOf s.kmask l = true) ∧
      exec (.ztst d a o) s = .next (t.modCx fun x => { x with k.lres := s.kmask.setWidth 64 }) ∧
      DepthTested s d (fun l => s.hereKey (s.depthAddr a o l).toNat) (fun l => el 32 0 (lane l (s.v d))) (s.depthPass d a o) ls t := by
  have hchk : ∀ l ∈ lanesOf s.kmask,
      s.laneCheck (bitOf (s.src.vBad d) l) (s.depthAddr a o l) 4 { r := true, w := true } = .ok := fun l hl => by
    obtain ⟨hl4, hm⟩ := mem_lanesOf.1 hl
    have hbad : bitOf (s.src.vBad d) l = false := by
      have hand : bitOf (s.src.vBad d &&& s.kmask) l = false := by rw [hv]; simp [bitOf]
      simpa [bitOf, BitVec.getLsbD_and, show s.kmask.getLsbD l = true from hm] using hand
    rw [State.laneCheck, hbad]
    exact (hok l hl4 hm).1
  have htested := DepthTested.all (addr := s.depthAddr a o) (z := fun l => el 32 0 (lane l (s.v d))) (fun _ => rfl)
    (pass := s.depthPass d a o) (fun _ => rfl) (lanesOf s.kmask) (DepthTested.start (r := d) hw) (lanesOf_nodup _)
    (fun l _ => by simp) (fun l hl => ⟨(mem_lanesOf.1 hl).1, (hok l (mem_lanesOf.1 hl).1 (mem_lanesOf.1 hl).2).2⟩)
    (fun l hl => absurd hl (by simp)) (fun l k hl hk hne => by
      have := lane_words_disjoint (base := s.ea a o 4) hl hk hne
      simp only [State.hereKey, ulmKey, State.depthAddr]
      omega)
  refine ⟨_, _, fun l => ?_, (exec_ztst ..).trans ((State.scalar_clean _ _ _ hc).trans
    (congrArg Host.Outcome.next (State.lanewise_ok hchk _))), htested⟩
  rw [List.append_nil, List.mem_reverse, mem_lanesOf]

end Sys2Proof.Machine
end

section
/-! PROOFS. The obligation of geometry (O42; R69, R77, R199 to R206). -/

namespace Sys2Proof.Machine

/-- Settles O42: every number the statement speaks of is that of a test above (`BoxTest`, `TriTest`, `Covered`, `DepthTested`), whose
values are exact and rounded once. -/
theorem geometry : Obligations.Geometry := by
  unfold Obligations.Geometry
  intro s d a b o c pr hpr act code z fin pair inf once clean ray og dir rc eps tmin tmax bx t1 t2 near far hit
  refine ⟨?_, ?_, ?_, ?_, ?_, ?_, ?_⟩
  · -- Boxes (R200)
    intro hclean hray hbox
    have hlo (l i : Nat) : z (bx i) l 0 = ((s.boxTest a b l).lo i).rat := rfl
    have hhi (l i : Nat) : z (bx i) l 1 = ((s.boxTest a b l).hi i).rat := rfl
    have hog (l i : Nat) : og i = ((s.boxTest a b l).o i).rat := by
      simp only [og, State.boxTest]
      split_ifs <;> rfl
    have hrc (l i : Nat) : rc i = ((s.boxTest a b l).i i).rat := by
      simp only [rc, State.boxTest]
      split_ifs <;> rfl
    have hnear (l : Nat) : near l = (s.boxTest a b l).near := by
      simp only [near, t1, t2, hlo l, hhi l, hog l, hrc l]
      rfl
    have hfar (l : Nat) : far l = (s.boxTest a b l).far := by
      simp only [far, t1, t2, hlo l, hhi l, hog l, hrc l]
      rfl
    have hhit (l : Nat) : hit l ↔ bitOf act l = true ∧ (s.boxTest a b l).Hit := by
      simp only [hit, hnear l, hfar l, hlo l, hhi l]
      rfl
    have hfin (l : Nat) (hl : l < 4) : (s.boxTest a b l).Finite := State.boxTest_finite hray fun r hr e he => by
      have hax (i : Nat) (hi : i < 3) : (s.f32 (bx i) l 0).IsNum ∧ (s.f32 (bx i) l 1).IsNum :=
        ⟨hbox l i hl hi (l, 0) (by simp), hbox l i hl hi (l, 1) (by simp)⟩
      simp only [List.mem_cons, List.not_mem_nil, or_false] at hr he
      rcases hr with rfl | rfl | rfl <;> rcases he with rfl | rfl
      exacts [(hax 0 (by norm_num)).1, (hax 0 (by norm_num)).2, (hax 1 (by norm_num)).1, (hax 1 (by norm_num)).2,
        (hax 2 (by norm_num)).1, (hax 2 (by norm_num)).2]
    refine ⟨_, execBxt_writes hpr hclean, ?_⟩
    simp only [hhit, hnear]
    obtain ⟨n, hbelow, hmiss, hrank⟩ := boxWord_spec (m := act) (box := s.boxOf a b) (near := fun l => (s.boxTest a b l).near)
      (hit := fun l => (s.boxTest a b l).Hit) (fun l hl _ h => BoxTest.box_hit (hfin l hl) (s.boxTest_rayOf a b l) h)
      (fun l hl _ h => BoxTest.box_miss (hfin l hl) (s.boxTest_rayOf a b l) h)
    exact ⟨n, fun l hl h => hbelow l hl h.1 h.2, fun l hl hm h => hmiss l hl hm fun h' => h ⟨hm, h'⟩, fun l hl h => hrank l hl h.1 h.2⟩
  · -- Triangles (R201)
    intro v cross dot sub e bd sum inside kept x miss honce hclean hray hb hb'
    have hf32 {r : Fin 32} {ls : List (Nat × Nat)} (h : fin r ls) : ∀ p ∈ ls, (s.f32 r p.1 p.2).IsF32 := fun p hp => ⟨_, h p hp, rfl⟩
    have hT : (s.triTest a b).Finite := State.triTest_finite (hf32 hray.1) (hf32 hray.2) (hf32 hb) (hf32 hb')
    have hog : og = (s.triTest a b).oQ := funext fun i => by
      simp only [og, TriTest.oQ, State.triTest]
      split_ifs <;> rfl
    have hdir : dir = (s.triTest a b).dQ := funext fun i => by
      simp only [dir, TriTest.dQ, State.triTest]
      split_ifs <;> rfl
    have hv : v = (s.triTest a b).vQ := funext fun j => funext fun i => by
      simp only [v, TriTest.vQ, State.triTest]
      split_ifs <;> rfl
    have he (j : Nat) : e j = triEdge (s.triTest a b).oQ (s.triTest a b).dQ (s.triTest a b).vQ j := by
      simp only [e, hog, hdir, hv]
      rfl
    have hbd (j : Nat) : bd j = triBound (s.triTest a b).dQ (s.triTest a b).vQ j := by
      simp only [bd, hdir, hv]
      rfl
    have hsum : sum = triSum (s.triTest a b).oQ (s.triTest a b).dQ (s.triTest a b).vQ := by
      simp only [sum, he]
      rfl
    have hx : x = triDist (s.triTest a b).oQ (s.triTest a b).vQ / sum := by
      simp only [x, hog, hv]
      rfl
    have hinside : inside ↔ triInside (s.triTest a b).oQ (s.triTest a b).dQ (s.triTest a b).vQ (s.triTest a b).eps.rat := by
      simp only [inside, hsum, he, hbd]
      rfl
    have hkept : kept ↔ cullKeeps c (triSum (s.triTest a b).oQ (s.triTest a b).dQ (s.triTest a b).vQ) := by
      rw [← hsum]
      cases c <;> rfl
    refine ⟨fun h => execTrix_miss hpr honce hclean (TriTest.triangle_miss hT (s.triTest_mod a b) (s.triTest_rayOf a b) ?_),
      fun hin hkeep hxr h1 h2 => ?_⟩
    · rwa [← hinside, ← hkept]
    · rw [hx, hsum] at hxr
      rw [he, hsum] at h1 h2
      obtain ⟨t, u, w, ht, hu, hw, hhit, hmiss⟩ := TriTest.triangle_hit hT (s.triTest_mod a b) (s.triTest_rayOf a b) (hinside.1 hin)
        (hkept.1 hkeep) (hxr.trans two_pow_127_le) (h1.trans two_pow_127_le) (h2.trans two_pow_127_le)
      rw [hx, he, he, hsum]
      refine ⟨t, u, w, ht, hu, hw, fun hends => ?_, fun hends => execTrix_miss hpr honce hclean (hmiss hends)⟩
      have hwrites := execTrix_hit (d := d) hpr honce hclean (hhit hends)
      simp only [decide_eq_true_eq] at hwrites
      exact hwrites
  · -- Codes (R202)
    intro sc q hb ha
    refine ⟨fun hsc => ?_, fun hsc honce hp => execCdec_faults hpr hb ha honce hsc hp⟩
    obtain ⟨t, hexec, hd, hd', hother, hg, hpc, hmem⟩ := execCdec_does (d := d) hpr hb ha hsc
    have hq (l e : Nat) := q16Value_standsFor (el 16 e (lane l (s.src.v a))) hsc
    refine ⟨t, hexec, fun l hl => ?_, hother, hg, hpc, hmem⟩
    rw [hd l hl, hd' l hl]
    split
    · exact ⟨(hq l 0).low, (hq l 1).high, (hq l 2).low, by rw [el_pairLane_high, Nat.zero_mod]⟩
    · exact ⟨rfl, rfl⟩
  · -- Rebased origins (R77, R203)
    intro f comp err honce hclean hf
    have hr (i : Nat) (hi : i < 3) : (f a i).IsNum ∧ (f b i).IsNum ∧ |(f a i).rat - (f b i).rat| ≤ maxF32 := by
      obtain ⟨ha, hb, hmax⟩ := hf i hi
      exact ⟨ha, hb, hmax.trans two_pow_126_le⟩
    have hbound := State.rebasedBound_rounded (s := s) (a := a) (b := b) hr (err := err) fun _ => rfl
    have herr : 0 ≤ max (err 0) (max (err 1) (err 2)) := (abs_nonneg _).trans (le_max_left _ _)
    refine ⟨_, _, _, (s.rebasedBound a b).code, s.setV_ofLanes d 0x3 _ 0, execRbase_next hpr honce hclean, rfl, rfl, hbound.above32 herr,
      s.rebasedBound a b, rfl, Nat.mod_eq_of_lt hbound.fits, fun k => ?_⟩
    rw [unionFlags_iff, List.exists_mem_cons_iff]
    refine or_congr_right ⟨fun ⟨r, hmem, hk⟩ => ?_, fun ⟨i, hi, hk⟩ => ⟨_, List.mem_map_of_mem (List.mem_range.2 hi), hk⟩⟩
    obtain ⟨i, hi, rfl⟩ := List.mem_map.1 hmem
    exact ⟨i, List.mem_range.1 hi, hk⟩
  · -- The better hit (R204)
    intro t wins honce hclean hta htd hdb
    have hwins : wins ↔ hitWins (s.src.v a) (s.src.v d) = true := (hitWins_iff hta htd).symm
    exact ⟨fun h => execHcmp_wins hpr honce hclean hdb (hwins.1 h), fun h => execHcmp_loses hpr honce hclean (mt hwins.2 h)⟩
  · -- Coverage (R205)
    intro i32 edge owns v at_ e area kept covered depth hclean hz hdepth
    refine ⟨_, execCov_writes hpr hclean, fun l hl _ => ?_⟩
    have hcov : covered l ↔ Covered (s.i32 a l 0, s.i32 a l 1) (fun j => (s.i32 b j 0, s.i32 b j 1)) c := by
      cases c <;> exact Iff.rfl
    refine ⟨fun h => sample_covered (hcov.1 h) (fun j hj => ?_) rfl ((hdepth l hl).trans two_pow_127_le), fun h =>
      sample_uncovered (mt hcov.2 h)⟩
    match j, hj with
    | 0, _ => exact ⟨_, hz (0, 0) (by simp), rfl⟩
    | 1, _ => exact ⟨_, hz (1, 0) (by simp), rfl⟩
    | 2, _ => exact ⟨_, hz (2, 0) (by simp), rfl⟩
  · -- The depth test (R206)
    intro ad key zs pass hw _ hg hv hok
    obtain ⟨t, ls, hls, hexec, ht⟩ := execZtst_tests hw hg hv hok
    have hcx := t.cx_modCx fun x => { x with k.lres := s.kmask.setWidth 64 }
    refine ⟨_, hexec, fun l hl => ?_, fun l hl hm => ?_, fun k hk => ?_, by rw [hcx], by rw [hcx]; exact ht.pc⟩
    · rw [hcx]
      refine (ht.lanes l hl).trans (if_congr ?_ rfl rfl)
      rw [hls, and_iff_right hl]
    · exact ht.load hw (fun l => el_lt 32 0 _) ((hls l).2 ⟨hl, hm⟩)
    · exact ht.outside k fun l hl => hk l ((hls l).1 hl).1 ((hls l).1 hl).2

end Sys2Proof.Machine
end

section
/-! PROOFS. Scalar words (O1 to O7; R85, R87 to R94): what each operation computes, in the words of the rule, and what it does
when a source is poisoned. -/

namespace Sys2Proof.Machine

/-! ### The values (R87 to R91) -/

/-- A shift count is the low six bits of its register (R87). -/
theorem shamt_eq (b : Word) : shamt b = b.toNat % 64 := by
  simp [shamt]

theorem rotl_eq_rotateLeft (a : Word) {n : Nat} (h : n < 64) : rotl a n = a.rotateLeft n := by
  rw [rotl, BitVec.rotateLeft_def, Nat.mod_eq_of_lt h]
  by_cases h0 : n = 0
  · subst h0
    simp [BitVec.ushiftRight_eq_zero]
  · rw [Nat.mod_eq_of_lt (by omega)]

/-- The smaller and the larger of two words under signed order. -/
theorem ite_slt_min (a b : Word) : (if b.slt a then b else a) = if a.toInt ≤ b.toInt then a else b := by
  simp only [BitVec.slt_iff_toInt_lt, ← Int.not_le, ite_not]

theorem ite_slt_max (a b : Word) : (if a.slt b then b else a) = if a.toInt ≤ b.toInt then b else a := by
  simp only [BitVec.slt_iff_toInt_lt]
  by_cases h : a.toInt = b.toInt
  · simp [BitVec.eq_of_toInt_eq h]
  · simp only [Int.lt_iff_le_and_ne, ne_eq, h, not_false_eq_true, and_true]

/-- The smaller and the larger of two words under unsigned order. -/
theorem ite_lt_min (a b : Word) : (if b < a then b else a) = if a.toNat ≤ b.toNat then a else b := by
  simp only [BitVec.lt_def, ← Nat.not_le, ite_not]

theorem ite_lt_max (a b : Word) : (if a < b then b else a) = if a.toNat ≤ b.toNat then b else a := by
  simp only [BitVec.lt_def]
  by_cases h : a.toNat = b.toNat
  · simp [BitVec.eq_of_toNat_eq h]
  · simp only [Nat.lt_iff_le_and_ne, ne_eq, h, not_false_eq_true, and_true]

theorem ofBool_slt (a b : Word) : ofBool 64 (a.slt b) = if a.toInt < b.toInt then 1 else 0 := by
  simp only [ofBool, BitVec.slt_iff_toInt_lt]
  rfl

theorem ofBool_lt (a b : Word) : ofBool 64 (decide (a < b)) = if a.toNat < b.toNat then 1 else 0 := by
  simp only [ofBool, decide_eq_true_eq, BitVec.lt_def]
  rfl

/-- The high half of a product of two numbers below 2^64 in magnitude. -/
theorem mulhu_eq (a b : Word) :
    BitVec.ofNat 64 (a.toNat * b.toNat / 2 ^ 64) = BitVec.extractLsb' 64 64 (a.setWidth 128 * b.setWidth 128) := by
  have h : a.toNat * b.toNat < 2 ^ 128 := by
    calc a.toNat * b.toNat < 2 ^ 64 * 2 ^ 64 := Nat.mul_lt_mul'' a.isLt b.isLt
      _ = 2 ^ 128 := by norm_num
  have ha : a.toNat % 2 ^ 128 = a.toNat := Nat.mod_eq_of_lt (a.isLt.trans (by norm_num))
  have hb : b.toNat % 2 ^ 128 = b.toNat := Nat.mod_eq_of_lt (b.isLt.trans (by norm_num))
  apply BitVec.eq_of_toNat_eq
  rw [BitVec.extractLsb'_toNat, BitVec.toNat_mul, BitVec.toNat_setWidth, BitVec.toNat_setWidth, BitVec.toNat_ofNat, ha, hb,
    Nat.mod_eq_of_lt h, Nat.shiftRight_eq_div_pow]

theorem mulh_eq (a b : Word) :
    BitVec.ofInt 64 (a.toInt * b.toInt / 2 ^ 64) = BitVec.extractLsb' 64 64 (a.signExtend 128 * b.signExtend 128) := by
  have hp : a.signExtend 128 * b.signExtend 128 = BitVec.ofInt 128 (a.toInt * b.toInt) := by
    rw [BitVec.ofInt_mul]
    rfl
  apply BitVec.eq_of_toNat_eq
  rw [hp, BitVec.extractLsb'_toNat, BitVec.toNat_ofInt, BitVec.toNat_ofInt, Nat.shiftRight_eq_div_pow]
  generalize a.toInt * b.toInt = z
  omega

/-- The quotient of the smallest number by −1, the one that does not fit, comes out as the smallest number (R88). -/
theorem divS_eq (a b : Word) : divS a b = if b = 0 then 0xFFFFFFFFFFFFFFFF
    else if a = 0x8000000000000000 ∧ b = 0xFFFFFFFFFFFFFFFF then 0x8000000000000000 else BitVec.ofInt 64 (a.toInt.tdiv b.toInt) := by
  rw [divS]
  refine if_congr Iff.rfl rfl ?_
  split
  · next h => rw [h.1, h.2]; decide
  · rfl

theorem remS_eq (a b : Word) : remS a b = if b = 0 then a
    else if a = 0x8000000000000000 ∧ b = 0xFFFFFFFFFFFFFFFF then 0 else BitVec.ofInt 64 (a.toInt.tmod b.toInt) := by
  rw [remS]
  refine if_congr Iff.rfl rfl ?_
  split
  · next h => rw [h.1, h.2]; decide
  · rfl

/-- A field of w bits standing at bit k of a word. -/
theorem toNat_field {w : Nat} (x : BitVec w) {k : Nat} (h : w + k ≤ 64) : ((x.setWidth 64 : Word) <<< k).toNat = x.toNat * 2 ^ k := by
  have hx : x.toNat * 2 ^ k < 2 ^ 64 :=
    calc x.toNat * 2 ^ k < 2 ^ w * 2 ^ k := Nat.mul_lt_mul_of_pos_right x.isLt (Nat.two_pow_pos k)
      _ = 2 ^ (w + k) := (Nat.pow_add 2 w k).symm
      _ ≤ 2 ^ 64 := Nat.pow_le_pow_right (by norm_num) h
  rw [BitVec.toNat_shiftLeft, BitVec.toNat_setWidth_of_le (by omega), Nat.shiftLeft_eq, Nat.mod_eq_of_lt hx]

/-- The fields of a window address stand beside each other, so that the word of `wadr` is their sum (R90, R146). -/
theorem wadrVal_eq (a b : Word) : wadrVal a b = BitVec.ofNat 64
    (2 ^ 55 + a.toNat / 2 ^ 32 % 2 ^ 10 * 2 ^ 45 + a.toNat % 2 ^ 16 * 2 ^ 29 + a.toNat / 2 ^ 42 % 2 * 2 ^ 28 + b.toNat % 2 ^ 17) := by
  have hor {x y : Nat} (i : Nat) (hx : x % 2 ^ i = 0) (hy : y < 2 ^ i) : x ||| y = x + y := by
    obtain ⟨k, rfl⟩ := Nat.dvd_of_mod_eq_zero hx
    exact (Nat.two_pow_add_eq_or_of_lt hy k).symm
  have hsum (p c m o : Nat) (hp : p < 2 ^ 10) (hc : c < 2 ^ 16) (hm : m < 2 ^ 1) (ho : o < 2 ^ 17) :
      2 ^ 55 ||| p * 2 ^ 45 ||| c * 2 ^ 29 ||| m * 2 ^ 28 ||| o = 2 ^ 55 + p * 2 ^ 45 + c * 2 ^ 29 + m * 2 ^ 28 + o := by
    rw [hor (x := 2 ^ 55) 55 (by omega) (by omega), hor (x := 2 ^ 55 + p * 2 ^ 45) 45 (by omega) (by omega),
      hor (x := 2 ^ 55 + p * 2 ^ 45 + c * 2 ^ 29) 29 (by omega) (by omega), hor 28 (by omega) (by omega)]
  have htop : (1#64 <<< 55).toNat = 2 ^ 55 := rfl
  have hoff : ((b.extractLsb' 0 17).setWidth 64 : Word).toNat = b.toNat % 2 ^ 17  := by
    rw [BitVec.toNat_setWidth_of_le (by norm_num), BitVec.extractLsb'_toNat, Nat.shiftRight_zero]
  apply BitVec.eq_of_toNat_eq
  rw [wadrVal, BitVec.toNat_or, BitVec.toNat_or, BitVec.toNat_or, BitVec.toNat_or, htop, hoff, toNat_field _ (by norm_num),
    toNat_field _ (by norm_num), toNat_field _ (by norm_num), hsum _ _ _ _ (BitVec.isLt _) (BitVec.isLt _) (BitVec.isLt _)
    (Nat.mod_lt _ (by norm_num))]
  simp only [BitVec.extractLsb'_toNat, BitVec.toNat_ofNat, Nat.shiftRight_eq_div_pow, Nat.pow_zero, Nat.div_one]
  omega

/-! ### Counts and fields of bits (R89) -/

/-- The leading zeros below bit n, of a number below 2^n: the number takes the rest of the bits, the highest of them set. -/
theorem clzBelow_spec (x n : Nat) (h : x < 2 ^ n) : clzBelow x n ≤ n ∧ x < 2 ^ (n - clzBelow x n) ∧
    (clzBelow x n < n → 2 ^ (n - 1 - clzBelow x n) ≤ x) := by
  induction n with
  | zero => exact ⟨Nat.le_refl _, h, fun hlt => absurd hlt (Nat.lt_irrefl _)⟩
  | succ n ih =>
    rw [clzBelow]
    split
    · next hb => exact ⟨Nat.zero_le _, h, fun _ => Nat.ge_two_pow_of_testBit hb⟩
    · next hb =>
      have hx : x < 2 ^ n := by
        rw [Nat.testBit_eq_decide_div_mod_eq, Nat.mod_eq_of_lt (Nat.div_lt_of_lt_mul (by rwa [← Nat.pow_succ]))] at hb
        rw [Nat.pow_succ] at h
        by_contra hn
        have : x / 2 ^ n = 1 := Nat.div_eq_of_lt_le (by omega) (by omega)
        simp [this] at hb
      obtain ⟨hle, hlt, hge⟩ := ih hx
      have e : n + 1 - (clzBelow x n + 1) = n - clzBelow x n := by omega
      have e' : n + 1 - 1 - (clzBelow x n + 1) = n - 1 - clzBelow x n := by omega
      exact ⟨Nat.succ_le_succ hle, e ▸ hlt, fun hn => e' ▸ hge (Nat.lt_of_succ_lt_succ hn)⟩

/-- The trailing zeros within n bits: the bits below are zero, and the one there is set. -/
theorem ctzFrom_spec (x n : Nat) : ctzFrom x n ≤ n ∧ x % 2 ^ ctzFrom x n = 0 ∧
    (ctzFrom x n < n → x / 2 ^ ctzFrom x n % 2 = 1) := by
  induction n generalizing x with
  | zero => exact ⟨Nat.le_refl _, Nat.mod_one x, fun hlt => absurd hlt (Nat.lt_irrefl _)⟩
  | succ n ih =>
    rw [ctzFrom]
    split
    · next hb => exact ⟨Nat.zero_le _, Nat.mod_one x, fun _ => by simpa using hb⟩
    · next hb =>
      obtain ⟨hle, hmod, hbit⟩ := ih (x / 2)
      have hx : x % 2 = 0 := by omega
      refine ⟨Nat.succ_le_succ hle, ?_, fun hn => ?_⟩
      · rw [Nat.pow_succ', Nat.mod_mul, hx, hmod]
      · rw [Nat.pow_succ', ← Nat.div_div_eq_div_mul]
        exact hbit (Nat.lt_of_succ_lt_succ hn)

/-- The one bits below bit n. -/
theorem popBelow_eq_countP (x : Word) (n : Nat) : popBelow x.toNat n = (List.range n).countP fun i => x.getLsbD i := by
  induction n with
  | zero => rfl
  | succ n ih =>
    rw [popBelow, ih, List.range_succ, List.countP_append, List.countP_singleton, Nat.add_comm]
    rfl

theorem fieldPos_eq (b : Word) : fieldPos b = b.toNat % 64 := by
  simp [fieldPos]

theorem fieldWidth_eq (b : Word) : fieldWidth b = min (b.toNat / 256 % 64 + 1) (64 - b.toNat % 64) := by
  rw [fieldWidth, fieldPos_eq, BitVec.extractLsb'_toNat, Nat.shiftRight_eq_div_pow]

/-! ### The words (R87 to R93) -/

section
variable {s : State} {i : Instr} {d a b : Fin 32} {f : Word → Word → Word} {z : Word}

/-- An operation on two registers writes its value, in the words of the rule. -/
theorem State.alu3_writes_of_eq (h : s.cleanG [a, b]) (hi : exec i s = s.alu3 f d a b) (hz : f (s.src.g a) (s.src.g b) = z) :
    s.writesG i d z :=
  hz ▸ State.alu3_writes hi h

/-- The same of an operation on one register. -/
theorem State.alu2_writes_of_eq {f : Word → Word} (h : s.cleanG [a]) (hi : exec i s = s.alu2 f d a) (hz : f (s.src.g a) = z) :
    s.writesG i d z :=
  hz ▸ State.alu2_writes hi h

/-- The same of an operation on a register and an immediate (R91). -/
theorem State.aluI_writes {n : BitVec 11} (h : s.cleanG [a]) (hi : exec i s = s.aluI f d a n) :
    s.writesG i d (f (s.src.g a) (n.signExtend 64)) :=
  State.alu2_writes hi h

end

/-- Settles O1: each is `State.alu3` with the operation of its row. -/
theorem aluThreeRegister : Obligations.AluThreeRegister := by
  unfold Obligations.AluThreeRegister
  intro s d a b h x y n
  have hn : shamt y = n := shamt_eq y
  refine ⟨State.alu3_writes (exec_add ..) h, State.alu3_writes (exec_sub ..) h, State.alu3_writes (exec_and ..) h,
    State.alu3_writes (exec_or ..) h, State.alu3_writes (exec_xor ..) h, State.alu3_writes (exec_andn ..) h, ?_, ?_, ?_, ?_, ?_, ?_, ?_, ?_, ?_, ?_⟩
  · exact State.alu3_writes_of_eq h (exec_shl ..) (congrArg (x <<< ·) hn)
  · exact State.alu3_writes_of_eq h (exec_shr ..) (congrArg (x >>> ·) hn)
  · exact State.alu3_writes_of_eq h (exec_sar ..) (congrArg x.sshiftRight hn)
  · exact State.alu3_writes_of_eq h (exec_rol ..) ((congrArg (rotl x) hn).trans (rotl_eq_rotateLeft x (Nat.mod_lt _ (by norm_num))))
  · exact State.alu3_writes_of_eq h (exec_min ..) (ite_slt_min x y)
  · exact State.alu3_writes_of_eq h (exec_max ..) (ite_slt_max x y)
  · exact State.alu3_writes_of_eq h (exec_minu ..) (ite_lt_min x y)
  · exact State.alu3_writes_of_eq h (exec_maxu ..) (ite_lt_max x y)
  · exact State.alu3_writes_of_eq h (exec_slt ..) (ofBool_slt x y)
  · exact State.alu3_writes_of_eq h (exec_sltu ..) (ofBool_lt x y)

/-- Settles O2: each is `State.alu3` with the operation of its row; the products by their high and low halves, the quotients and
remainders by the table of R88. -/
theorem multiplyDivide : Obligations.MultiplyDivide := by
  unfold Obligations.MultiplyDivide
  intro s d a b h x y
  refine ⟨?_, ?_, ?_, ?_, State.alu3_writes (exec_divu ..) h, ?_, State.alu3_writes (exec_remu ..) h⟩
  · exact State.alu3_writes_of_eq h (exec_mul ..) (BitVec.eq_of_toNat_eq (by rw [BitVec.toNat_mul, BitVec.toNat_ofNat]))
  · exact State.alu3_writes_of_eq h (exec_mulh ..) (mulh_eq x y)
  · exact State.alu3_writes_of_eq h (exec_mulhu ..) (mulhu_eq x y)
  · exact State.alu3_writes_of_eq h (exec_div ..) (divS_eq x y)
  · exact State.alu3_writes_of_eq h (exec_rem ..) (remS_eq x y)

/-- Settles O3: the counts by `clzBelow_spec`, `ctzFrom_spec` and `popBelow_eq_countP`; the fields at the place and of the width
that gB gives. -/
theorem selectAndBitFields : Obligations.SelectAndBitFields := by
  unfold Obligations.SelectAndBitFields
  intro s d a b x y z pos w ones
  have hpos : fieldPos y = pos := fieldPos_eq y
  have hones : Machine.ones (fieldWidth y) = ones := congrArg Machine.ones (fieldWidth_eq y)
  have hx : x.toNat < 2 ^ 64 := x.isLt
  refine ⟨fun h => s.scalar_writes _ _ d _ rfl h, fun h => ?_, fun h => ?_, fun h => ?_, fun h => ?_, fun h => ?_⟩
  · obtain ⟨hle, hlt, hge⟩ := clzBelow_spec x.toNat 64 hx
    exact ⟨clzBelow x.toNat 64, hle, hlt, hge, State.alu2_writes (exec_clz ..) h⟩
  · obtain ⟨hle, hmod, hbit⟩ := ctzFrom_spec x.toNat 64
    exact ⟨ctzFrom x.toNat 64, hle, hmod, hbit, State.alu2_writes (exec_ctz ..) h⟩
  · exact State.alu2_writes_of_eq h (exec_popc ..) (congrArg (BitVec.ofNat 64) (popBelow_eq_countP x 64))
  · refine State.alu3_writes_of_eq h (exec_bfx ..) (?_ : bfxVal x y = _)
    rw [bfxVal, hpos, hones]
  · have hv : bfiVal z x y = (z &&& ~~~(ones <<< pos)) ||| ((x <<< pos) &&& (ones <<< pos)) := by
      simp only [bfiVal, hpos, hones]
    exact hv ▸ s.scalar_writes _ _ d _ (exec_bfi ..) h

/-- Settles O4: `wadr` by the sum of its fields; a word with no register source has no poisoned one. -/
theorem movesAndLongImmediates : Obligations.MovesAndLongImmediates := by
  unfold Obligations.MovesAndLongImmediates
  have hnone (s : State) : s.cleanG [] := fun _ h => nomatch h
  refine ⟨fun s d a b => ?_, fun s d i => ?_⟩
  · intro x y
    exact ⟨State.alu2_writes (exec_mov ..), State.alu3_writes (exec_lea ..),
      fun h => State.alu3_writes_of_eq h (exec_wadr ..) (wadrVal_eq x y)⟩
  · have h30 : ones 30 = 0x3FFFFFFF := rfl
    refine ⟨?_, fun h => ?_, exec_nopC s, exec_nopA s⟩
    · exact s.scalar_writes _ [] d _ (exec_lui ..) (hnone s)
    · rw [← h30]
      exact s.scalar_writes _ [d] d _ (exec_lhi ..) h

/-- Settles O5: each is an operation on one register, and on the extended immediate or its shift count. -/
theorem immediates : Obligations.Immediates := by
  unfold Obligations.Immediates
  intro s d a i n x
  refine ⟨fun h => ?_, s.scalar_writes _ [] d _ (exec_li ..) fun _ h => nomatch h⟩
  exact ⟨State.aluI_writes h (exec_addi ..), State.aluI_writes h (exec_andi ..), State.aluI_writes h (exec_ori ..),
    State.aluI_writes h (exec_xori ..), State.alu2_writes (exec_shli ..) h, State.alu2_writes (exec_shri ..) h,
    State.alu2_writes (exec_sari ..) h⟩

/-! ### Poisoned sources (R85) -/

/-- The instruction is a scalar one that reads the registers of the list. -/
def State.readsAll (s : State) (rs : List (Fin 32)) (i : Instr) : Prop :=
  ∃ l e, rs ⊆ l ∧ exec i s = s.scalar l e

theorem State.readsAll_faults {s : State} {rs : List (Fin 32)} {i : Instr} (h : s.readsAll rs i) (hp : s.plain) {r : Fin 32}
    (hr : r ∈ rs) (hb : s.src.gBad r = true) : s.faults i Cause.poison 0 := by
  obtain ⟨l, e, hl, hi⟩ := h
  exact s.scalar_faults i l e hi hp r (hl hr) hb

/-- Settles O6: each is a scalar instruction (`State.scalar`) that reads the registers named. -/
theorem poisonedSourceTraps : Obligations.PoisonedSourceTraps := by
  unfold Obligations.PoisonedSourceTraps
  intro s d a b i o k hp
  refine ⟨fun hb j hj => ?_, fun hb j hj => ?_⟩
  · have hreads : s.readsAll [a, b] j := by
      revert j
      simp only [List.forall_mem_cons]
      iterate 24 refine ⟨⟨[a, b], _, fun _ h => h, rfl⟩, ?_⟩
      iterate 2 refine ⟨⟨[d, a, b], _, fun _ h => List.mem_cons_of_mem d h, rfl⟩, ?_⟩
      iterate 6 refine ⟨⟨[a, b], _, fun _ h => h, rfl⟩, ?_⟩
      exact List.forall_mem_nil _
    obtain hb | hb := hb
    · exact State.readsAll_faults hreads hp List.mem_cons_self hb
    · exact State.readsAll_faults hreads hp (List.mem_cons_of_mem a List.mem_cons_self) hb
  · have hreads : s.readsAll [a] j := by
      revert j
      simp only [List.forall_mem_cons]
      iterate 13 refine ⟨⟨[a], _, fun _ h => h, rfl⟩, ?_⟩
      exact List.forall_mem_nil _
    exact State.readsAll_faults hreads hp List.mem_cons_self hb

/-! ### Branches (R94) -/

/-- A taken branch moves the PC to its target (R38). -/
theorem State.jump_wentTo {n : Nat} (s : State) (o : BitVec n) :
    s.wentTo (s.jump o) (BitVec.ofInt 17 (s.cur.p.toNat + 4 * o.toInt)) := by
  rw [State.jump, branchTarget_eq]
  exact s.setPc_wentTo _

/-- The instruction goes to a word offset from the bundle where a condition holds, and does nothing where it does not. -/
def State.branches {n : Nat} (s : State) (i : Instr) (c : Prop) (o : BitVec n) : Prop :=
  (c → s.goesTo i (BitVec.ofInt 17 (s.cur.p.toNat + 4 * o.toInt))) ∧ (¬ c → exec i s = .next s)

theorem State.branches_of_exec {n : Nat} {s : State} {i : Instr} {c : Prop} {t : Bool} {o : BitVec n}
    (hi : exec i s = .next (if t then s.jump o else s)) (ht : t = true ↔ c) : s.branches i c o :=
  ⟨fun h => ⟨_, by rw [hi, if_pos (ht.2 h)], s.jump_wentTo o⟩, fun h => by rw [hi, if_neg (mt ht.1 h)]⟩

/-- A branch on registers that are not poisoned. -/
theorem State.branchG_branches {n : Nat} {s : State} {i : Instr} {c : Prop} {t : Bool} {o : BitVec n} {l : List (Fin 32)}
    (h : s.cleanG l) (hi : exec i s = s.branchG l t o) (ht : t = true ↔ c) : s.branches i c o :=
  State.branches_of_exec (hi.trans (s.scalar_clean _ l h)) ht

/-- A branch on a predicate that is not poisoned. -/
theorem State.branchP_branches {s : State} {i : Instr} {c : Prop} {t : Mask → Mask → Bool} {o : BitVec 18} {pr : Fin 8}
    (h : s.src.pBad pr = false) (hi : exec i s = s.branchP pr t o) (ht : t (s.src.p pr) s.src.f.kmask = true ↔ c) :
    s.branches i c o := by
  refine State.branches_of_exec (hi.trans ?_) ht
  rw [State.branchP, if_neg (by simp [h])]
  rfl

/-- Settles O7: a branch is its condition on the sources, and its jump. -/
theorem branches : Obligations.Branches := by
  unfold Obligations.Branches
  intro s a b pr o o18 o12 x y m at_ cond
  refine ⟨⟨_, exec_br .., s.jump_wentTo o⟩, fun h => ⟨?_, ?_, ?_, ?_⟩, fun h => ⟨?_, ?_⟩, fun h => ⟨?_, ?_, ?_, ?_⟩⟩
  · exact State.branchP_branches h (exec_bany ..) decide_eq_true_iff
  · exact State.branchP_branches h (exec_ball ..) decide_eq_true_iff
  · exact State.branchP_branches h (exec_bnone ..) decide_eq_true_iff
  · exact State.branchP_branches h (exec_bnall ..) decide_eq_true_iff
  · exact State.branchG_branches h (exec_bz ..) decide_eq_true_iff
  · exact State.branchG_branches h (exec_bnz ..) decide_eq_true_iff
  · exact State.branchG_branches h (exec_blt ..) BitVec.slt_iff_toInt_lt
  · refine State.branchG_branches h (exec_bge ..) ?_
    rw [Bool.not_eq_true', ← Bool.not_eq_true, BitVec.slt_iff_toInt_lt, Int.not_lt]
    rfl
  · exact State.branchG_branches h (exec_bltu ..) decide_eq_true_iff
  · exact State.branchG_branches h (exec_bgeu ..) decide_eq_true_iff

end Sys2Proof.Machine
end

section
/-! PROOFS. If, else and end of if (O11; R84, R98, R100). -/

namespace Sys2Proof.Machine

section
variable {s : State} {o : BitVec 15} {pr : Fin 8}

/-- The entry an `ifm` pushes: the mask at entry, and where the else-part begins (R98). -/
def State.ifEntry (s : State) (o : BitVec 15) : MaskEntry :=
  { mask := s.cx.f.kmask, kind := .ifKind, resume := BitVec.ofInt 17 (s.cur.p.toNat + 4 * o.toInt) }

/-- An `ifm` with room on the stack pushes its entry; it goes on with the lanes of the predicate, or at the else-part where
there is none. -/
theorem execIfm_eq (h : s.first) (hb : s.cx.pBad pr = false) (hd : s.cx.f.kmsd.toNat < 32) : exec (.ifm o pr) s = .next
    (let t := s.setFlow (s.cx.f.push (s.ifEntry o))
     if s.cx.f.kmask &&& s.cx.p pr ≠ 0 then t.setMask (s.cx.f.kmask &&& s.cx.p pr) else t.setPc (s.ifEntry o).resume) := by
  have hroom : ¬ 32 ≤ s.cx.f.kmsd.toNat := Nat.not_le.2 hd
  simp only [exec_ifm, execIfm, State.p, State.src_of_first h, branchTarget_eq]
  rw [if_neg hroom, if_neg (by simp [hb])]
  rfl

/-- Lanes take the then-part. -/
theorem execIfm_then (h : s.first) (hb : s.cx.pBad pr = false) (hd : s.cx.f.kmsd.toNat < 32)
    (hm : s.cx.f.kmask &&& s.cx.p pr ≠ 0) : s.does (.ifm o pr) fun t => s.became t { s.cx with
      f := { s.cx.f.push (s.ifEntry o) with kmask := s.cx.f.kmask &&& s.cx.p pr } } := by
  refine ⟨_, (execIfm_eq h hb hd).trans (congrArg Host.Outcome.next (if_pos hm)), ?_⟩
  rw [State.setFlow, State.setMask, State.modCx_modCx]
  exact s.modCx_became _

/-- No lane does: the context goes on at the else-part. -/
theorem execIfm_else (h : s.first) (hb : s.cx.pBad pr = false) (hd : s.cx.f.kmsd.toNat < 32)
    (hm : s.cx.f.kmask &&& s.cx.p pr = 0) : s.does (.ifm o pr) fun t => s.became t { s.cx with
      f := s.cx.f.push (s.ifEntry o), pc := (s.ifEntry o).resume } := by
  refine ⟨_, (execIfm_eq h hb hd).trans (congrArg Host.Outcome.next (if_neg (not_not.2 hm))), ?_⟩
  rw [State.setFlow, State.setPc_modCx]
  exact s.modCx_became _

/-- An `elm` under an if goes on with the lanes that the then-part left out (R98). -/
theorem execElm_eq (h0 : s.cx.f.kmsd ≠ 0) (hk : s.cx.f.top.kind = .ifKind) (hb : s.cx.f.top.bad = false) :
    exec (.elm o) s = .next (if s.cx.f.top.mask &&& ~~~s.cx.f.kmask ≠ 0 then s.setMask (s.cx.f.top.mask &&& ~~~s.cx.f.kmask)
      else s.jump o) := by
  have hif : ¬ (s.cx.f.kmsd = 0 ∨ s.cx.f.top.kind ≠ .ifKind) := not_or.2 ⟨h0, not_not.2 hk⟩
  rw [exec_elm, execElm, if_neg hif, if_neg (by simp [hb])]

/-- A `fim` brings the mask of the top entry back and pops it; under a `jv` it goes back there (R98). -/
theorem execFim_pops (h0 : s.cx.f.kmsd ≠ 0) (hk : s.cx.f.top.kind ≠ .loopKind) (hb : s.cx.f.top.bad = false) :
    s.does .fim fun t => s.became t { s.cx with
      f := { s.cx.f.pop with kmask := keepMask s.cx.f.top.mask s.cx.f.kmask },
      pc := if s.cx.f.top.kind = .repeatKind then s.cx.f.top.resume else s.cx.pc } := by
  have hif : ¬ (s.cx.f.kmsd = 0 ∨ s.cx.f.top.kind = .loopKind) := not_or.2 ⟨h0, hk⟩
  refine ⟨_, ?_, s.modCx_became fun x => { x with
      f := { s.cx.f.pop with kmask := keepMask s.cx.f.top.mask s.cx.f.kmask },
      pc := if s.cx.f.top.kind = .repeatKind then s.cx.f.top.resume else x.pc }⟩
  rw [exec_fim, execFim, if_neg hif, if_neg (by simp [hb])]
  refine congrArg Host.Outcome.next ?_
  by_cases hr : s.cx.f.top.kind = .repeatKind
  · simp only [if_pos hr, State.setFlow, State.setPc_modCx]
  · simp only [if_neg hr, State.setFlow]

end

/-- Settles O11: entering an if pushes, its end pops, and each faults where the stack does not allow it. -/
theorem ifElse : Obligations.IfElse := by
  unfold Obligations.IfElse
  simp -zeta only [Vector.getElem?_toList]
  intro s o pr hfirst f m p at_ pushed top
  refine ⟨fun hb hd => ⟨execIfm_then hfirst hb hd, execIfm_else hfirst hb hd⟩, fun h0 hk hb => ⟨fun he => ?_, fun he => ?_⟩,
    execFim_pops, fun hp => ⟨fun _ hd => ⟨_, ?_, State.faultMstack_tookTrap hp⟩, fun h => ⟨_, ?_, State.faultMstack_tookTrap hp⟩,
      fun h => ⟨_, ?_, State.faultMstack_tookTrap hp⟩⟩⟩
  · exact ⟨_, (execElm_eq h0 hk hb).trans (congrArg Host.Outcome.next (if_pos he)), s.modCx_became _⟩
  · exact ⟨_, (execElm_eq h0 hk hb).trans (congrArg Host.Outcome.next (if_neg (not_not.2 he))), s.jump_wentTo o⟩
  · exact congrArg Host.Outcome.next (if_pos hd)
  · exact congrArg Host.Outcome.next (if_pos h)
  · exact congrArg Host.Outcome.next (if_pos h)

end Sys2Proof.Machine
end

section
/-! PROOFS. A jump by per-lane targets (O10; R96). -/

namespace Sys2Proof.Machine

/-- The targets of the active lanes, in ascending order of the lanes (R96). -/
def laneTargets (m : Mask) (target : Nat → Off) : List (Nat × Off) := (lanesOf m).map fun l => (l, target l)

/-- The lanes with a target are those the mask and the target name. -/
theorem bitOf_sameTarget (m : Mask) (target : Nat → Off) (t0 : Off) {l : Nat} (hl : l < 4) :
    bitOf ((laneTargets m target).foldl (fun m t => if t.2 = t0 then withBit m t.1 true else m) (0 : Mask)) l =
      (bitOf m l && decide (target l = t0)) := by
  have hf : (laneTargets m target).foldl (fun m t => if t.2 = t0 then withBit m t.1 true else m) (0 : Mask) =
      ((lanesOf m).filter fun l => decide (target l = t0)).foldl (fun m l => withBit m l true) 0 := by
    simp only [laneTargets, List.foldl_map, List.foldl_filter, decide_eq_true_eq]
  rw [hf, bitOf_foldl_withBit (fun _ => true) hl]
  by_cases h : l ∈ (lanesOf m).filter fun l => decide (target l = t0)
  · obtain ⟨hm, ht⟩ := List.mem_filter.1 h
    rw [if_pos h, (mem_lanesOf.1 hm).2, ht]
    rfl
  · rw [if_neg h]
    rw [List.mem_filter, mem_lanesOf, not_and_or] at h
    symm
    simpa [hl, bitOf, or_iff_not_imp_left] using h

/-- The lowest active lane leads the list. -/
theorem laneTargets_lowest {m : Mask} (target : Nat → Off) {j : Nat} (hj : j < 4) (hm : bitOf m j = true)
    (hlow : ∀ l, l < j → bitOf m l = false) : ∃ rest, laneTargets m target = (j, target j) :: rest := by
  have hhead : (lanesOf m).head? = some j := by
    rw [lanesOf, List.head?_filter, List.find?_range_eq_some]
    exact ⟨hm, List.mem_range.2 hj, fun l hl => by simp [hlow l hl]⟩
  obtain ⟨rest, hrest⟩ := List.head?_eq_some_iff.1 hhead
  exact ⟨_, by rw [laneTargets, hrest, List.map_cons]⟩

/-- The first misaligned target is that of the lowest such lane. -/
theorem laneTargets_misaligned {m : Mask} {target : Nat → Off} {j : Nat} (hj : j < 4) (hm : bitOf m j = true)
    (ht : (target j).toNat % 4 ≠ 0) (hlow : ∀ l, l < j → bitOf m l = true → (target l).toNat % 4 = 0) :
    (laneTargets m target).find? (fun t => decide (t.2.toNat % 4 ≠ 0)) = some (j, target j) := by
  have hfind : (lanesOf m).find? (fun l => decide ((target l).toNat % 4 ≠ 0)) = some j := by
    rw [lanesOf, List.find?_filter, List.find?_range_eq_some]
    refine ⟨by simp [hm, ht], List.mem_range.2 hj, fun l hl => ?_⟩
    cases hb : bitOf m l
    · rfl
    · simp [hlow l hl hb]
  rw [laneTargets, List.find?_map]
  exact congrArg (Option.map _) hfind

theorem laneTargets_aligned {m : Mask} {target : Nat → Off}
    (h : ∀ l, l < 4 → bitOf m l = true → (target l).toNat % 4 = 0) :
    (laneTargets m target).find? (fun t => decide (t.2.toNat % 4 ≠ 0)) = none := by
  rw [List.find?_eq_none]
  intro t ht
  obtain ⟨l, hl, rfl⟩ := List.mem_map.1 ht
  obtain ⟨hl4, hb⟩ := mem_lanesOf.1 hl
  simp [h l hl4 hb]

section
variable {s : State} {a : Fin 32}

/-- The target a lane of the issuing context names (R96). -/
def State.target (s : State) (a : Fin 32) (l : Nat) : Off := (lane l (s.cx.v a)).setWidth 17

/-- A `jv` whose active lanes have aligned targets, with the lowest active lane and the lanes that have its target. -/
theorem execJv_aligned (h : s.first) (hv : s.cx.vBad a &&& s.cx.f.kmask = 0) {j : Nat} (hj : j < 4)
    (hm : bitOf s.cx.f.kmask j = true) (hlow : ∀ l, l < j → bitOf s.cx.f.kmask l = false)
    (hal : ∀ l, l < 4 → bitOf s.cx.f.kmask l = true → (s.target a l).toNat % 4 = 0) {same : Mask}
    (hs : ∀ l, l < 4 → bitOf same l = (bitOf s.cx.f.kmask l && decide (s.target a l = s.target a j))) :
    exec (.jv a) s = .next (if same = s.cx.f.kmask then s.setPc (s.target a j)
      else if 32 ≤ s.cx.f.kmsd.toNat then s.faultMstack
      else (s.setFlow { s.cx.f.push { mask := s.cx.f.kmask &&& ~~~same, kind := .repeatKind, resume := s.cur.p } with
          kmask := same }).setPc (s.target a j)) := by
  obtain ⟨rest, hlist⟩ := laneTargets_lowest (s.target a) hj hm hlow
  have hsame : (laneTargets s.cx.f.kmask (s.target a)).foldl
      (fun m t => if t.2 = s.target a j then withBit m t.1 true else m) (0 : Mask) = same :=
    BitVec.eq_of_getLsbD_eq fun l hl => (bitOf_sameTarget _ _ _ hl).trans (hs l hl).symm
  have hnone := laneTargets_aligned hal
  have hts : (lanesOf s.cx.f.kmask).map (fun l => (l, (lane l (s.cx.v a)).setWidth 17)) =
      laneTargets s.cx.f.kmask (s.target a) := rfl
  rw [hlist] at hsame hnone hts
  simp only [exec_jv, execJv, State.v, State.src_of_first h, hts, hnone, hsame]
  rw [if_neg (not_not.2 hv)]

/-- A `jv` with a misaligned target raises ALIGN with the lowest such lane's target. -/
theorem execJv_misaligned (h : s.first) (hv : s.cx.vBad a &&& s.cx.f.kmask = 0) {j : Nat} (hj : j < 4)
    (hm : bitOf s.cx.f.kmask j = true) (ht : (s.target a j).toNat % 4 ≠ 0)
    (hlow : ∀ l, l < j → bitOf s.cx.f.kmask l = true → (s.target a l).toNat % 4 = 0) :
    exec (.jv a) s = .next (s.fault Cause.align ((s.target a j).setWidth 64)) := by
  have hsome := laneTargets_misaligned hj hm ht hlow
  have hts : (lanesOf s.cx.f.kmask).map (fun l => (l, (lane l (s.cx.v a)).setWidth 17)) =
      laneTargets s.cx.f.kmask (s.target a) := rfl
  simp only [exec_jv, execJv, State.v, State.src_of_first h, hts, hsome]
  rw [if_neg (not_not.2 hv)]

end

/-- Settles O10: with aligned targets the lanes of the lowest one's target go there, and the others wait in a new entry. -/
theorem jumpByLanes : Obligations.JumpByLanes := by
  unfold Obligations.JumpByLanes
  intro s a j hfirst m f target hv hj hm
  refine ⟨fun hal hlow same hs => ?_, fun ht hlow hp => ?_⟩
  · have hexec := execJv_aligned hfirst hv hj hm hlow hal hs
    refine ⟨fun he => ⟨_, hexec.trans (congrArg _ (if_pos he)), s.setPc_wentTo _⟩, fun he hd => ?_, fun he hd hp => ?_⟩
    · refine ⟨_, hexec.trans (congrArg _ ((if_neg he).trans (if_neg (Nat.not_le.2 hd)))), ?_⟩
      rw [State.setFlow, State.setPc_modCx]
      exact s.modCx_became _
    · exact ⟨_, hexec.trans (congrArg _ ((if_neg he).trans (if_pos hd))), State.faultMstack_tookTrap hp⟩
  · exact ⟨_, execJv_misaligned hfirst hv hj hm ht hlow, s.fault_tookTrap _ _ hp.1 hp.2⟩

end Sys2Proof.Machine
end

section
/-! PROOFS. The return from a trap (O15; R85, R112), and entries undone by exits (O9; R95, R98, R110 to R112). -/

namespace Sys2Proof.Machine

/-- Where a context that returns goes on, and what it executes there, given the offset in KEPC and the size of the bundle that
stands there (R112). -/
def Context.goneOn (x : Context) (a size : Off) (back : Redo) (m : Mask) : Context :=
  let code : Cause := back.cause.setWidth 8
  let x := { x with fbuf := [] }
  if code = Cause.swtrap ∨ code = Cause.brkStep ∨ code = 0 then { x with pc := a }
  else if bitOf back.cause 15 then
    if m = 0 then { x with pc := a + 4 } else { x with pc := a, aword := true }
  else if m = 0 then { x with pc := a + size }
  else if bitOf back.cause 14 then { x with pc := a, reLanes := some { back with lanes := m } }
  else { x with pc := a }

/-- The offset in KEPC, as a return reads it (R33, R112). -/
def Context.returnOff (x : Context) : Off := x.k.epc.setWidth 17 &&& 0x1FFFC

/-- The mode comes back from PMODE, and KCAUSE is cleared (R112). -/
def Context.restored (x : Context) : Context := { x with mode := x.pmode, k.cause := 0 }

/-- Where the issuing context goes on after a return with lanes m. -/
def State.resumption (s : State) (m : Mask) (x : Context) : Context :=
  x.goneOn s.cx.returnOff (s.bundleSize s.cur.core s.cx.returnOff)
    { lanes := m, cause := s.cx.k.cause, pc := s.cur.p, mode := s.cx.mode, parked := false } m

/-- The issuing context after a return. -/
def State.returned (s : State) (m : Mask) : Context := s.resumption m s.cx.restored

/-- A return changes the issuing context, and lets its core go on with a replay. -/
theorem State.trapReturn_leaves (s : State) (m : Mask) : (s.trapReturn m).cx = s.returned m ∧
    (∀ c : Fin 11, c ≠ s.cur.ctx → (s.trapReturn m).here.ctxs[c] = s.here.ctxs[c]) ∧
    (∀ a, (s.trapReturn m).byteAt a = s.byteAt a) ∧ ∀ n, n ≠ s.cur.core → (s.trapReturn m).core n = s.core n := by
  have hoff : (s.modCx Context.restored).cx.returnOff = s.cx.returnOff :=
    (congrArg Context.returnOff (s.cx_modCx Context.restored)).trans rfl
  have e : s.trapReturn m = (s.modCx fun x => s.resumption m x.restored).modHere fun k => k.resumeRep s.cur.ctx := by
    have h : s.trapReturn m = ((s.modCx Context.restored).modCx fun x => x.goneOn (s.modCx Context.restored).cx.returnOff
        (s.bundleSize s.cur.core (s.modCx Context.restored).cx.returnOff)
        { lanes := m, cause := s.cx.k.cause, pc := s.cur.p, mode := s.cx.mode, parked := false } m).modHere
          fun k => k.resumeRep s.cur.ctx := rfl
    rw [h, hoff, State.modCx_modCx]
    rfl
  have honly := s.modCx_ctxOnly fun x => s.resumption m x.restored
  rw [e]
  refine ⟨?_, fun c hc => ?_, fun a => rfl, fun n hn => ?_⟩
  · rw [State.cx_modHere]
    exact s.cx_modCx _
  · rw [State.here_modHere]
    exact honly.ctxs c hc
  · exact (State.core_modCore_other _ _ n _ hn).trans (honly.cores n hn)

/-! ### Which return it is (R112) -/

/-- The code of a cause is its low byte (R22). -/
theorem setWidth_eq_code (w : Word) (c : Cause) : w.setWidth 8 = c ↔ w.toNat % 256 = c.toNat := by
  rw [← BitVec.toNat_inj, BitVec.toNat_setWidth]

section
variable {x : Context} {a size : Off} {back : Redo} {m : Mask}

/-- The causes after which a return goes on at KEPC: SWTRAP, BREAK and none. -/
def Redo.goesOn (back : Redo) : Prop :=
  back.cause.toNat % 256 = 0x11 ∨ back.cause.toNat % 256 = 0x14 ∨ back.cause.toNat % 256 = 0

theorem Redo.goesOn_iff : back.goesOn ↔ (back.cause.setWidth 8 : Cause) = Cause.swtrap ∨
    (back.cause.setWidth 8 : Cause) = Cause.brkStep ∨ (back.cause.setWidth 8 : Cause) = 0 := by
  simp only [setWidth_eq_code]
  rfl

theorem Context.goneOn_plain (h : back.goesOn) : x.goneOn a size back m = { x with fbuf := [], pc := a } :=
  if_pos (Redo.goesOn_iff.1 h)

/-- Of a pair the A-word alone is to be executed again, or nothing is. -/
theorem Context.goneOn_pair (h : ¬ back.goesOn) (hp : back.cause.getLsbD 15 = true) : x.goneOn a size back m =
    if m = 0 then { x with fbuf := [], pc := a + 4 } else { x with fbuf := [], pc := a, aword := true } :=
  (if_neg (mt Redo.goesOn_iff.2 h)).trans (if_pos hp)

/-- Otherwise the bundle is executed again, or not. -/
theorem Context.goneOn_bundle (h : ¬ back.goesOn) (hp : back.cause.getLsbD 15 = false) : x.goneOn a size back m =
    if m = 0 then { x with fbuf := [], pc := a + size }
    else if bitOf back.cause 14 then { x with fbuf := [], pc := a, reLanes := some { back with lanes := m } }
    else { x with fbuf := [], pc := a } :=
  (if_neg (mt Redo.goesOn_iff.2 h)).trans (if_neg (by rw [bitOf, hp]; decide))

end

/-! ### The instruction -/

section
variable {s : State} {m : Mask}

/-- A return in a mode that may return, with KCAUSE and KEPC unmarked. -/
theorem execTret_returns (h : s.cx.mode = true ∨ (s.cx.pmode = false ∧ s.cx.k.cause.toNat % 256 ≠ 0)) (h0 : s.kBad 0x000 = false)
    (h1 : s.kBad 0x001 = false) : exec (.tret false m) s = .next (s.trapReturn m) := by
  have hpriv : (!s.cx.mode && s.cx.pmode) = false ∧ (!s.cx.mode && decide ((s.cx.k.cause.setWidth 8 : Cause) = 0)) = false := by
    rcases h with h | ⟨h, hc⟩
    · simp [h]
    · have hc' : ¬ (s.cx.k.cause.setWidth 8 : Cause) = 0 := mt (setWidth_eq_code _ _).1 hc
      simp only [h, hc', Bool.and_false, decide_false, and_self]
  simp only [exec_tret, execTret, h0, h1, Bool.false_or, hpriv, Bool.or_self, Bool.false_eq_true, if_false]

/-- A return that is not allowed raises PRIV. -/
theorem execTret_denied {d : Bool} (h : (d = true ∧ (s.cx.mode = false ∨ s.cx.pmode = true)) ∨
      (d = false ∧ ¬ (s.cx.mode = true ∨ (s.cx.pmode = false ∧ s.cx.k.cause.toNat % 256 ≠ 0)) ∧ s.kBad 0x000 = false ∧
        s.kBad 0x001 = false)) : exec (.tret d m) s = .next (s.faultOpen Cause.priv) := by
  rcases h with ⟨rfl, h⟩ | ⟨rfl, h, h0, h1⟩
  · rw [exec_tret, execTret]
    cases hm : s.cx.mode
    · simp
    · have hp : s.cx.pmode = true := h.resolve_left (by simp [hm])
      simp [hp]
  · obtain ⟨hm, hc⟩ := not_or.1 h
    rw [Bool.not_eq_true] at hm
    rw [exec_tret, execTret]
    cases hp : s.cx.pmode
    · have hc' : (s.cx.k.cause.setWidth 8 : Cause) = 0 := (setWidth_eq_code _ _).2 (not_not.1 fun hn => hc ⟨hp, hn⟩)
      simp [hm, h0, h1, hc']
    · simp [hm]

/-- The user handler is entered (R112). -/
theorem execTret_user (hm : s.cx.mode = true) (hp : s.cx.pmode = false) (hb : s.kBad 0x00C = false) :
    s.does (.tret true m) fun t => s.became t { s.cx with
      mode := false, pc := (s.cx.k.utvec.setWidth 17) &&& 0x1FFFC, fbuf := [] } := by
  have hpc (w : Word) : (w &&& 0x1FFFC).setWidth 17 = (w.setWidth 17 &&& 0x1FFFC : Off) := BitVec.setWidth_and
  refine ⟨_, ?_, s.modCx_became fun x => { x with mode := false, pc := x.k.utvec.setWidth 17 &&& 0x1FFFC, fbuf := [] }⟩
  simp only [exec_tret, execTret, hm, hp, hb, hpc, Bool.not_true, Bool.false_and, Bool.false_eq_true, if_false, if_true]

theorem execTret_user_marked (h : s.plain) (hm : s.cx.mode = true) (hp : s.cx.pmode = false) (hb : s.kBad 0x00C = true) :
    s.faults (.tret true m) Cause.poison 0 := by
  refine ⟨s.faultPoison, ?_, s.fault_tookTrap _ _ h.1 h.2⟩
  simp [exec_tret, execTret, hm, hp, hb]

/-- A marked KCAUSE or KEPC is a poisoned source (R85). -/
theorem execTret_marked (h : s.plain) (hm : s.cx.mode = true ∨ s.cx.pmode = false)
    (hb : ¬ (s.kBad 0x000 = false ∧ s.kBad 0x001 = false)) : s.faults (.tret false m) Cause.poison 0 := by
  have hpriv : (!s.cx.mode && s.cx.pmode) = false := by rcases hm with hm | hm <;> simp [hm]
  have hbad : (s.kBad 0x000 || s.kBad 0x001) = true := by
    rw [← Bool.or_eq_false_iff, Bool.not_eq_false] at hb
    exact hb
  refine ⟨s.faultPoison, ?_, s.fault_tookTrap _ _ h.1 h.2⟩
  simp only [exec_tret, execTret, hbad, Bool.false_or, hpriv, Bool.false_eq_true, if_false, if_true]

end

/-- The size of the bundle at an offset (R33). -/
theorem State.bundleSize_eq (s : State) (n : Nat) (a : Off) :
    s.bundleSize n a = if s.loadNat (ulmKey n a.toNat) 4 / 2 ^ 31 % 2 = 1 then 4 else 8 := by
  rw [State.bundleSize]
  refine if_congr ?_ rfl rfl
  rw [bitOf, BitVec.getLsbD_ofNat]
  simp [Nat.testBit_eq_decide_div_mod_eq]

/-- Settles O15: what a return leaves is `State.trapReturn_leaves`; where it goes on is `Context.goneOn`, case by case. -/
theorem trapReturn : Obligations.TrapReturn := by
  unfold Obligations.TrapReturn
  intro s m d x code pair lanep a size back redo clean plain mayReturn returns
  have hsize : s.bundleSize s.cur.core a = size := s.bundleSize_eq _ _
  have hret {y : Context} (hmay : mayReturn) (hc : clean) (hy : s.returned m = y) : returns y :=
    ⟨_, execTret_returns hmay hc.1 hc.2, hy ▸ s.trapReturn_leaves m⟩
  refine ⟨execTret_user, fun hmay hc => ⟨fun h => ?_, fun h hp hm => ?_, fun h hp hm => ?_, fun h hp hm => ?_,
    fun h hp hm hl => ?_, fun h hp hm hl => ?_⟩, fun hp h => ⟨_, _, execTret_denied h, State.faultOpen_tookTrap hp _⟩,
    execTret_user_marked, execTret_marked⟩
  · exact hret hmay hc (Context.goneOn_plain (back := redo) h)
  · exact hret hmay hc ((Context.goneOn_pair (back := redo) h hp).trans (if_pos hm))
  · exact hret hmay hc ((Context.goneOn_pair (back := redo) h hp).trans (if_neg hm))
  · refine hret hmay hc ((Context.goneOn_bundle (back := redo) h hp).trans ((if_pos hm).trans ?_))
    rw [← hsize]
    rfl
  · exact hret hmay hc ((Context.goneOn_bundle (back := redo) h hp).trans ((if_neg hm).trans (if_pos hl)))
  · exact hret hmay hc ((Context.goneOn_bundle (back := redo) h hp).trans ((if_neg hm).trans (if_neg (Bool.not_eq_true _ ▸ hl))))

/-! ### Entries undone by exits (O9) -/

/-- The issuing context after a trap (R110). -/
theorem State.cx_trap {s : State} (r : TrapRec) (h : ¬ s.doubleFault) : (s.trap r).cx = s.cx.enter r s.here.kstvec := by
  have e : (s.trap r).cx = (s.modHere fun k =>
      ((k.modCtx s.cur.ctx fun x => x.enter r k.kstvec).suspendRep s.cur.ctx).deferTrap s.cur.ctx).cx := by
    rw [State.trap, State.trapOf_next _ _ _ _ _ h]
    rfl
  rw [e, State.cx_modHere, Core.ctxs_taken, Core.ctxs_modCtx]
  rfl

/-- The mark of a K-register of a context goes with the marks of its context. -/
theorem State.kBad_of_mark {s t : State} {n : Nat} (hn : kPerCore n = false) (h : t.cx.k.mark = s.cx.k.mark) :
    t.kBad n = s.kBad n := by
  simp only [State.kBad, hn, h, Bool.false_eq_true, if_false]

/-- The return address pushed is the next to be popped; the others stay. -/
theorem Flow.pushRet_pops {f : Flow} (h : f.depth.toNat < 8) (a : Off) :
    (f.pushRet a).depth.toNat = f.depth.toNat + 1 ∧ (f.pushRet a).depth - 1 = f.depth ∧
      (f.pushRet a).retBad.getLsbD f.depth.toNat = false ∧ (f.pushRet a).ret[f.depth.toNat]? = some a ∧
      ∀ i, i < f.depth.toNat → (f.pushRet a).ret[i]? = f.ret[i]? := by
  refine ⟨BitVec.toNat_add_of_lt (show f.depth.toNat + 1 < 16 by omega), BitVec.add_sub_cancel .., ?_, ?_, fun i hi => ?_⟩
  · exact bitOf_withBit_same _ _ _ h
  · simp [Flow.pushRet, h]
  · exact Vector.getElem?_setIfInBounds_ne (by omega)

/-- The entry pushed is the top one, and a pop takes it off. -/
theorem Flow.push_pops {f : Flow} (h : f.kmsd.toNat < 32) (e : MaskEntry) :
    (f.push e).kmsd ≠ 0 ∧ (f.push e).top = e ∧ (f.push e).kmsd - 1 = f.kmsd := by
  have hk : (f.push e).kmsd.toNat = f.kmsd.toNat + 1 := BitVec.toNat_add_of_lt (show f.kmsd.toNat + 1 < 64 by omega)
  refine ⟨fun h0 => ?_, ?_, BitVec.add_sub_cancel ..⟩
  · rw [h0] at hk
    exact absurd hk (Nat.succ_ne_zero _).symm
  · rw [Flow.top, hk, Nat.add_sub_cancel]
    simp [Flow.push, h]

/-- A next state that an instruction answers is the one it is said to answer. -/
theorem State.does_of_next {s t : State} {i : Instr} {P : State → Prop} (h : s.does i P) (ht : exec i s = .next t) : P t := by
  obtain ⟨t', hi, hp⟩ := h
  exact Host.Outcome.next.inj (hi.symm.trans ht) ▸ hp

/-- A return after a call, whatever else has changed (R95). -/
theorem ret_undoes_call {s t u : State} {o : BitVec 24} (hd : s.cx.f.depth.toNat < 8) (ht : exec (.call o) s = .next t)
    (hu : u.cx.f = t.cx.f) : u.does .ret fun v => v.cx.pc = s.cur.next ∧ v.cx.f.depth = s.cx.f.depth ∧
      v.cx.f.spilled = s.cx.f.spilled ∧ ∀ i, i < s.cx.f.depth.toNat → v.cx.f.ret[i]? = s.cx.f.ret[i]? := by
  obtain ⟨hcall, -⟩ := callsAndReturns.1 s 0 o
  have hf : u.cx.f = s.cx.f.pushRet s.cur.next := hu.trans (congrArg Context.f (State.does_of_next (hcall hd) ht).cx)
  obtain ⟨hdepth, hback, hclean, htop, hbelow⟩ := Flow.pushRet_pops hd s.cur.next
  rw [← hf] at hdepth hback hclean htop hbelow
  have hi : u.cx.f.depth.toNat - 1 = s.cx.f.depth.toNat := by omega
  obtain ⟨v, hret, hv⟩ := execRet_pops (s := u) (by omega) (hi ▸ hclean)
  refine ⟨v, hret, ?_⟩
  beta_reduce
  rw [hv.cx, Vector.getElem?_toList, hi, htop]
  exact ⟨rfl, hback, (congrArg Flow.spilled hf).trans rfl, hbelow⟩

/-- The end of an if after its beginning, whatever the then-part did (R98). -/
theorem fim_undoes_ifm {s t u : State} {o : BitVec 15} {pr : Fin 8} (hs : s.first) (hb : s.cx.pBad pr = false)
    (hd : s.cx.f.kmsd.toNat < 32) (hm : s.cx.f.kmask ≠ 0) (ht : exec (.ifm o pr) s = .next t)
    (hstack : u.cx.f.stack = t.cx.f.stack) (hkmsd : u.cx.f.kmsd = t.cx.f.kmsd) :
    u.does .fim fun v => v.cx.f.kmask = s.cx.f.kmask ∧ v.cx.f.kmsd = s.cx.f.kmsd ∧ v.cx.pc = u.cx.pc := by
  have hpushed : t.cx.f.stack = (s.cx.f.push (s.ifEntry o)).stack ∧ t.cx.f.kmsd = (s.cx.f.push (s.ifEntry o)).kmsd := by
    by_cases hp : s.cx.f.kmask &&& s.cx.p pr = 0
    · rw [(State.does_of_next (execIfm_else hs hb hd hp) ht).cx]
      exact ⟨rfl, rfl⟩
    · rw [(State.does_of_next (execIfm_then hs hb hd hp) ht).cx]
      exact ⟨rfl, rfl⟩
  obtain ⟨hne, htop, hback⟩ := Flow.push_pops hd (s.ifEntry o)
  rw [← hpushed.2, ← hkmsd] at hne hback
  have htop : u.cx.f.top = s.ifEntry o := by
    rw [Flow.top, hstack, hkmsd, hpushed.1, hpushed.2]
    exact htop
  obtain ⟨v, hfim, hv⟩ := execFim_pops (s := u) hne (by rw [htop]; nofun) (by rw [htop]; rfl)
  refine ⟨v, hfim, ?_⟩
  beta_reduce
  rw [hv.cx, htop]
  exact ⟨if_neg hm, hback, rfl⟩

/-- The offset after an aligned word, as KEPC holds it, is where a return goes on. -/
theorem returnOff_of_aligned {p : Off} (h : p.toNat % 4 = 0) : ((p + 4).setWidth 64 : Word).setWidth 17 &&& 0x1FFFC = p + 4 := by
  have hp : p + 4 = BitVec.ofNat 17 (p.toNat + 4) := BitVec.eq_of_toNat_eq (by rw [BitVec.toNat_add, BitVec.toNat_ofNat]; rfl)
  have hw : ((p + 4).setWidth 64 : Word).setWidth 17 = p + 4 := BitVec.setWidth_setWidth_of_le _ (by norm_num)
  have hdiv : (p.toNat + 4) / 4 * 4 = p.toNat + 4 := by omega
  rw [hw, hp, and_mask_eq_aligned, hdiv]

/-- A return after a software trap, whatever changed outside the context (R111, R112). -/
theorem tret_undoes_trap {s t u : State} {i : BitVec 14} {m : Mask} (hn : ¬ s.doubleFault) (hp : s.cur.p.toNat % 4 = 0)
    (h0 : s.kBad 0x000 = false) (h1 : s.kBad 0x001 = false) (ht : exec (.trap i) s = .next t) (hu : u.cx = t.cx) :
    u.does (.tret false m) fun v => v.cx.pc = s.cur.p + 4 ∧ v.cx.mode = s.cx.mode ∧ v.cx.r = s.cx.r ∧ v.cx.f = s.cx.f ∧
      v.cx.k.cause = 0 := by
  have hcx : u.cx = s.cx.enter { code := Cause.swtrap, epc := s.cur.p + 4, addr := i.setWidth 64 } s.here.kstvec := by
    rw [hu, ← Host.Outcome.next.inj ((exec_trap i s).symm.trans ht), State.cx_trap _ hn]
  have hmark : u.cx.k.mark = s.cx.k.mark := by rw [hcx]; rfl
  have hmode : u.cx.mode = true := by rw [hcx]; rfl
  have hcause : u.cx.k.cause = 0x11 := by
    rw [hcx]
    exact TrapRec.kcause_whole ..
  have hoff : u.cx.returnOff = s.cur.p + 4 := by
    rw [hcx]
    exact returnOff_of_aligned hp
  refine ⟨_, execTret_returns (.inl hmode) ((State.kBad_of_mark (by decide) hmark).trans h0)
    ((State.kBad_of_mark (by decide) hmark).trans h1), ?_⟩
  beta_reduce
  rw [(u.trapReturn_leaves m).1, State.returned, State.resumption, Context.goneOn_plain (.inl (by rw [hcause]; rfl)), hoff, hcx]
  exact ⟨rfl, rfl, rfl, rfl, rfl⟩

/-- Settles O9: `ret_undoes_call`, `fim_undoes_ifm` and `tret_undoes_trap`. -/
theorem entriesAndExitsCancel : Obligations.EntriesAndExitsCancel := by
  unfold Obligations.EntriesAndExitsCancel
  exact ⟨fun s t u o => ret_undoes_call, fun s t u o pr hs hb hd hm ht _ => fim_undoes_ifm hs hb hd hm ht, fun s t u i m => tret_undoes_trap⟩

end Sys2Proof.Machine
end

section
/-! PROOFS. What `cquery` shows of a context (O13; R103, R208). -/

namespace Sys2Proof.Machine

/-- A truth value standing at a bit of a word. -/
theorem getLsbD_ofBool_placed (v : Bool) {i : Nat} (hi : i < 64) (j : Nat) :
    (ofBool 64 v <<< i).getLsbD j = (decide (j = i) && v) := by
  rw [BitVec.getLsbD_shiftLeft]
  cases v
  · simp [ofBool]
  · by_cases h : j = i
    · simp [ofBool, h, hi]
    · have : j < i ∨ ¬ j - i = 0 := by omega
      rcases this with h' | h' <;> simp [ofBool, h, h']

section
variable {k : Core} {c : Fin 11} {w : Bool}

/-- The bits shown of a live context that is not suspended. -/
theorem Core.statusOf_live (hl : k.ctxs[c].live = true) (hs : k.ctxs[c].susp = false) (i : Nat) : (k.statusOf c w).getLsbD i =
    (decide (i = 0) || decide (i = 2) && k.parkBit c || decide (i = 3) && w || decide (i = 4) && k.ctxs[c].asFormed.inWave ||
      decide (i = 5) && k.holds c || decide (i = 6) && k.ctxs[c].mode) := by
  have e : k.statusOf c w = ofBool 64 true <<< 0 ||| ofBool 64 (k.parkBit c) <<< 2 ||| ofBool 64 w <<< 3 |||
      ofBool 64 k.ctxs[c].asFormed.inWave <<< 4 ||| ofBool 64 (k.holds c) <<< 5 ||| ofBool 64 k.ctxs[c].mode <<< 6 := by
    simp only [Core.statusOf, hl, hs, Bool.not_true, Bool.false_and, Bool.false_eq_true, if_false]
  rw [e]
  simp only [BitVec.getLsbD_or, getLsbD_ofBool_placed _ (show 0 < 64 by omega), getLsbD_ofBool_placed _ (show 2 < 64 by omega),
    getLsbD_ofBool_placed _ (show 3 < 64 by omega), getLsbD_ofBool_placed _ (show 4 < 64 by omega),
    getLsbD_ofBool_placed _ (show 5 < 64 by omega), getLsbD_ofBool_placed _ (show 6 < 64 by omega), Bool.and_true]

/-- The bits shown of a suspended context. -/
theorem Core.statusOf_suspended (hs : k.ctxs[c].susp = true) (i : Nat) : (k.statusOf c w).getLsbD i =
    (decide (i = 0) && k.ctxs[c].live || decide (i = 1) || decide (i = 4) && k.ctxs[c].inWave || decide (i = 5) && k.holds c ||
      decide (i = 6) && k.ctxs[c].mode) := by
  have e : k.statusOf c w = ofBool 64 k.ctxs[c].live <<< 0 ||| ofBool 64 true <<< 1 ||| ofBool 64 k.ctxs[c].inWave <<< 4 |||
      ofBool 64 (k.holds c) <<< 5 ||| ofBool 64 k.ctxs[c].mode <<< 6 := by
    simp only [Core.statusOf, hs, Bool.not_true, Bool.and_false, Bool.false_eq_true, if_false, if_true]
  rw [e]
  simp only [BitVec.getLsbD_or, getLsbD_ofBool_placed _ (show 0 < 64 by omega), getLsbD_ofBool_placed _ (show 1 < 64 by omega),
    getLsbD_ofBool_placed _ (show 4 < 64 by omega), getLsbD_ofBool_placed _ (show 5 < 64 by omega),
    getLsbD_ofBool_placed _ (show 6 < 64 by omega), Bool.and_true]

theorem Core.statusOf_absent (hl : k.ctxs[c].live = false) (hs : k.ctxs[c].susp = false) : k.statusOf c w = 0 := by
  simp only [Core.statusOf, hl, hs, Bool.not_false, Bool.and_self, if_true]

/-- Where a context waits for nothing its PARK bit is its own mark. -/
theorem Core.parkBit_of_block_none (h : k.ctxs[c].block = none) : k.parkBit c = k.ctxs[c].parked := by
  simp only [Core.parkBit, h, Option.map_none, Bool.or_false]

end

theorem Context.asFormed_of_wake_none {x : Context} (h : x.wake = none) : x.asFormed = x := by
  rw [Context.asFormed, h]

/-! ### When a wait goes on (R208, R209) -/

section
variable {s : State} {n : Nat} {c : Fin 11}

theorem State.waits_of_waveOp (h : (s.core n).ctxs[c].waveOp.isSome = true) : s.waits n c = true :=
  Bool.or_eq_true_iff.2 (.inl h)

theorem State.waits_of_block_none (h : (s.core n).ctxs[c].block = none) (hw : (s.core n).ctxs[c].waveOp = none) :
    s.waits n c = false := by
  rw [State.waits]
  simp only [h, hw, Option.isSome_none, Option.map_none, Bool.or_self]

theorem State.waits_of_cwait {b : Block} {d : Fin 11} (hb : (s.core n).ctxs[c].block = some b) (hk : b.kind = .cwait d)
    (hw : (s.core n).ctxs[c].waveOp = none) :
    s.waits n c = ((s.core n).ctxs[c].wake.isNone && (s.core n).ctxs[d].live) := by
  rw [State.waits]
  simp only [hb, hk, hw, Option.isSome_none, Option.map_some, Bool.false_or]

end

/-- The status of a context says what R103 lists (R103, R208). -/
theorem State.statusOf_says (s : State) (n : Nat) (c : Fin 11) :
    let k := s.core n
    let x := k.ctxs[c]
    let w := k.statusOf c (s.waits n c)
    (x.live = true → x.susp = false →
      w.getLsbD 0 = true ∧ w.getLsbD 1 = false ∧ w.getLsbD 5 = decide (k.claim = some c) ∧ w.getLsbD 6 = x.mode ∧
      (∀ i, 7 ≤ i → w.getLsbD i = false) ∧ (x.wake = none → w.getLsbD 4 = x.k.wave.getLsbD 31) ∧
      (x.block = none → w.getLsbD 2 = x.parked) ∧ (x.block = none → x.waveOp = none → w.getLsbD 3 = false) ∧
      (x.waveOp.isSome = true → w.getLsbD 3 = true) ∧
      (∀ b d, x.block = some b → b.kind = .cwait d → x.waveOp = none →
        w.getLsbD 3 = (x.wake.isNone && k.ctxs[d].live))) ∧
    (x.live = false → x.susp = false → w = 0) ∧
    (x.susp = true → w.getLsbD 1 = true ∧ w.getLsbD 0 = x.live ∧ w.getLsbD 2 = false ∧ w.getLsbD 3 = false) := by
  intro k x w
  refine ⟨fun hl hs => ?_, Core.statusOf_absent, fun hs => ?_⟩
  · have hbit (i : Nat) : w.getLsbD i = _ := Core.statusOf_live hl hs i
    have h2 : w.getLsbD 2 = k.parkBit c := (hbit 2).trans (by simp)
    have h3 : w.getLsbD 3 = s.waits n c := (hbit 3).trans (by simp)
    have h4 : w.getLsbD 4 = x.asFormed.inWave := (hbit 4).trans (by simp [x])
    refine ⟨(hbit 0).trans (by simp), (hbit 1).trans (by simp), (hbit 5).trans (by simp [Core.holds]), (hbit 6).trans (by simp [x]),
      fun i hi => ?_, fun h => ?_, fun h => h2.trans (Core.parkBit_of_block_none h), fun h hw => h3.trans (State.waits_of_block_none h hw),
      fun h => h3.trans (State.waits_of_waveOp h), fun b d hb hk hw => h3.trans (State.waits_of_cwait hb hk hw)⟩
    · rw [hbit i]
      simp [show i ≠ 0 by omega, show i ≠ 2 by omega, show i ≠ 3 by omega, show i ≠ 4 by omega, show i ≠ 5 by omega,
        show i ≠ 6 by omega]
    · rw [h4, Context.asFormed_of_wake_none h]
      rfl
  · have hbit (i : Nat) : w.getLsbD i = _ := Core.statusOf_suspended hs i
    exact ⟨(hbit 1).trans (by simp), (hbit 0).trans (by simp [x]), (hbit 2).trans (by simp), (hbit 3).trans (by simp)⟩

end Sys2Proof.Machine
end

section
/-! PROOFS. Starting a context, asking for it and waiting for it (O13; R102 to R104, R238). -/

namespace Sys2Proof.Machine

/-- A helper the launch permits, neither live nor suspended (R102). -/
def Core.helperFree (k : Core) (c : Fin 11) : Prop :=
  0 < c.val ∧ c.val ≤ k.helpers ∧ k.ctxs[c].live = false ∧ k.ctxs[c].susp = false

/-- The condition by which the model looks for a free helper. -/
def Core.helperOk (k : Core) (c : Fin 11) : Bool :=
  decide (0 < c.val) && decide (c.val ≤ k.helpers) && !(k.ctxs[c]).live && !(k.ctxs[c]).susp

theorem Core.helperOk_iff (k : Core) (c : Fin 11) : k.helperOk c = true ↔ k.helperFree c := by
  simp [Core.helperOk, Core.helperFree, and_assoc]

theorem Core.freeHelper_eq (k : Core) : k.freeHelper = ((List.range 11).map (Fin.ofNat 11)).find? k.helperOk := rfl

/-- The lowest free helper is found. -/
theorem Core.freeHelper_some {k : Core} {c : Fin 11} (h : k.helperFree c) (hlow : ∀ d, d < c → ¬ k.helperFree d) :
    k.freeHelper = some c := by
  have hfin {i : Nat} (hi : i < 11) : (Fin.ofNat 11 i).val = i := Nat.mod_eq_of_lt hi
  have hc : Fin.ofNat 11 c.val = c := Fin.ext (hfin c.isLt)
  have hfind : (List.range 11).find? (k.helperOk ∘ Fin.ofNat 11) = some c.val := by
    rw [List.find?_range_eq_some]
    refine ⟨by simpa [hc] using (k.helperOk_iff c).2 h, List.mem_range.2 c.isLt, fun j hj => ?_⟩
    rw [Function.comp_apply, Bool.not_eq_true', ← Bool.not_eq_true, k.helperOk_iff]
    exact hlow _ (Fin.lt_def.2 ((hfin (hj.trans c.isLt)).symm ▸ hj))
  rw [Core.freeHelper_eq, List.find?_map, hfind, Option.map_some, hc]

theorem Core.freeHelper_none {k : Core} (h : ∀ c, ¬ k.helperFree c) : k.freeHelper = none := by
  rw [Core.freeHelper_eq, List.find?_eq_none]
  exact fun c _ hc => h c ((k.helperOk_iff c).1 hc)

/-- Bits [36:32] of a word. -/
theorem topBits_ne_zero (x : Word) : x.extractLsb' 32 5 ≠ 0 ↔ x.toNat / 2 ^ 32 % 32 ≠ 0 := by
  rw [Ne, ← BitVec.toNat_inj, BitVec.extractLsb'_toNat, Nat.shiftRight_eq_div_pow]
  rfl

section
variable {s : State} {d a b : Fin 32}

/-- What a helper is started with (R13, R102, R238). -/
def State.helperEntry (s : State) (a b : Fin 32) : Context :=
  { Context.helper (s.src.g a) (s.src.g b) s.cx s.cur.ctx with after := s.accessesDue }

theorem execCstart_eq (hc : s.cleanG [a, b]) (ha : (s.src.g a).toNat % 4 = 0) (ht : (s.src.g a).toNat / 2 ^ 32 % 32 = 0) :
    exec (.cstart d a b) s = .next (match s.here.freeHelper with
      | none => s.setG d 0
      | some c => (s.modHere fun k => (k.modCtx c fun _ => s.helperEntry a b).closePast c fun _ => true).setG d
          (BitVec.ofNat 64 c.val)) := by
  have hok : ¬ ((s.src.g a).toNat % 4 ≠ 0 ∨ (s.src.g a).extractLsb' 32 5 ≠ 0) := by
    rw [topBits_ne_zero]
    exact not_or.2 ⟨not_not.2 ha, not_not.2 ht⟩
  rw [exec_cstart, execCstart, s.scalar_clean _ _ hc]
  exact congrArg Host.Outcome.next (if_neg hok)

/-- The lowest free helper is started, and gD names it (R102). -/
theorem execCstart_starts (hc : s.cleanG [a, b]) (ha : (s.src.g a).toNat % 4 = 0) (ht : (s.src.g a).toNat / 2 ^ 32 % 32 = 0)
    {c : Fin 11} (hfree : s.here.helperFree c) (hlow : ∀ k, k < c → ¬ s.here.helperFree k) (hne : c ≠ s.cur.ctx) :
    s.does (.cstart d a b) fun t => t.here.ctxs[c] = s.helperEntry a b ∧
      t.cx.g d = (if d = 0 then 0 else BitVec.ofNat 64 c.val) ∧ (∀ r, r ≠ d → t.cx.g r = s.cx.g r) ∧
      (∀ k : Fin 11, k ≠ c → k ≠ s.cur.ctx → t.here.ctxs[k] = s.here.ctxs[k]) ∧ ∀ k, t.byteAt k = s.byteAt k := by
  obtain ⟨u, hu⟩ : ∃ u, u = s.modHere fun k => (k.modCtx c fun _ => s.helperEntry a b).closePast c fun _ => true := ⟨_, rfl⟩
  have hcur : u.cur = s.cur := by rw [hu]; rfl
  have hhere : u.here.ctxs = (s.here.modCtx c fun _ => s.helperEntry a b).ctxs := by
    rw [hu, State.here_modHere]
    rfl
  have hcx : u.cx = s.cx := by
    rw [hu, State.cx_modHere]
    exact Core.ctxs_modCtx_other s.here _ _ (fun _ => s.helperEntry a b) hne.symm
  have hg := u.setG_gotG d (BitVec.ofNat 64 c.val) false
  have hctxs (k : Fin 11) (hk : k ≠ s.cur.ctx) := hg.ctxs k (hcur ▸ hk)
  refine ⟨u.setG d (BitVec.ofNat 64 c.val), ?_, ?_, hg.value, fun r hr => ?_, fun k hk hk' => ?_, fun k => ?_⟩
  · rw [execCstart_eq hc ha ht, Core.freeHelper_some hfree hlow, hu]
  · rw [hctxs c hne, hhere, Core.ctxs_modCtx]
  · rw [(hg.other r hr).1, hcx]
  · rw [hctxs k hk', hhere, Core.ctxs_modCtx_other _ _ _ _ hk]
  · rw [hg.mem k, hu]
    rfl

theorem execCstart_none (hc : s.cleanG [a, b]) (ha : (s.src.g a).toNat % 4 = 0) (ht : (s.src.g a).toNat / 2 ^ 32 % 32 = 0)
    (hnone : ∀ k, ¬ s.here.helperFree k) : s.writesG (.cstart d a b) d 0 :=
  ⟨_, by rw [execCstart_eq hc ha ht, Core.freeHelper_none hnone], s.setG_gotG d 0 false⟩

theorem execCstart_misaligned (hc : s.cleanG [a, b])
    (h : ¬ ((s.src.g a).toNat % 4 = 0 ∧ (s.src.g a).toNat / 2 ^ 32 % 32 = 0)) (hp : s.plain) :
    s.faults (.cstart d a b) Cause.align (s.src.g a) := by
  have hbad : (s.src.g a).toNat % 4 ≠ 0 ∨ (s.src.g a).extractLsb' 32 5 ≠ 0 := by
    rw [topBits_ne_zero]
    exact not_and_or.1 h
  refine ⟨s.fault Cause.align (s.src.g a), ?_, s.fault_tookTrap _ _ hp.1 hp.2⟩
  rw [exec_cstart, execCstart, s.scalar_clean _ _ hc]
  exact congrArg Host.Outcome.next (if_pos hbad)

/-- The context number in a register: bits [3:0] (R103, R104). -/
theorem ctxNumber_eq (x : Word) : (x.extractLsb' 0 4).toNat = x.toNat % 16 := by
  simp

theorem execCquery_status (hc : s.cleanG [a]) {k : Fin 11} (hk : k.val = (s.src.g a).toNat % 16) :
    s.does (.cquery d a) fun t => s.gotG t d (s.here.statusOf k (s.waits s.cur.core k)) false := by
  have hn : ((s.src.g a).extractLsb' 0 4).toNat = k.val := (ctxNumber_eq _).trans hk.symm
  refine ⟨_, ?_, s.setG_gotG d _ false⟩
  rw [exec_cquery, execCquery]
  simp only [s.scalar_clean _ _ hc, State.g, hn, dif_pos k.isLt]

theorem execCquery_none (hc : s.cleanG [a]) (hn : 10 < (s.src.g a).toNat % 16) : s.writesG (.cquery d a) d 0 := by
  have hn' : ¬ ((s.src.g a).extractLsb' 0 4).toNat < 11 := by rw [ctxNumber_eq]; omega
  refine ⟨_, ?_, s.setG_gotG d 0 false⟩
  rw [exec_cquery, execCquery]
  simp only [s.scalar_clean _ _ hc, State.g]
  exact congrArg Host.Outcome.next (dif_neg hn')

/-- A wait whose end has come is over. -/
theorem execCwait_over (hc : s.cleanG [a]) (hw : s.cx.wake = some .released) :
    s.does (.cwait a) fun t => s.became t { s.cx with wake := none } := by
  refine ⟨_, ?_, s.modCx_became fun x => { x with wake := none }⟩
  rw [exec_cwait, execCwait]
  simp only [s.scalar_clean _ _ hc, State.unlessReleased, if_pos hw]

/-- There is nothing to wait for: no such context, the issuing one, or one that is not live (R104). -/
theorem execCwait_nothing (hc : s.cleanG [a]) (hw : s.cx.wake ≠ some .released) (hn : 10 < (s.src.g a).toNat % 16 ∨
      (s.src.g a).toNat % 16 = s.cur.ctx.val ∨ ∀ k : Fin 11, k.val = (s.src.g a).toNat % 16 → s.here.ctxs[k].live = false) :
    exec (.cwait a) s = .next s := by
  rw [exec_cwait, execCwait]
  simp only [s.scalar_clean _ _ hc, State.unlessReleased, if_neg hw, State.g, ctxNumber_eq]
  by_cases h : (s.src.g a).toNat % 16 < 11
  · have hstay : ¬ ((s.src.g a).toNat % 16 ≠ s.cur.ctx.val ∧ s.here.ctxs[(⟨(s.src.g a).toNat % 16, h⟩ : Fin 11)].live = true) := by
      rintro ⟨hne, hlive⟩
      rcases hn with hn | hn | hn
      · omega
      · exact hne hn
      · rw [hn _ rfl] at hlive
        cases hlive
    rw [dif_pos h, if_neg hstay]
  · rw [dif_neg h]

end

end Sys2Proof.Machine
end

section
/-! PROOFS. The end of a context (O13; R105, R182). -/

namespace Sys2Proof.Machine

/-- A context that leaves its wave (R21, R107). -/
def Context.leftWave (x : Context) : Context :=
  { x with k.wave := withBit x.k.wave 31 false, k.lane := 0xFFFFFFFF, waveFaults := [] }

/-- A context after it has left its wave, where it was in one. -/
def Context.outOfWave (x : Context) : Context := if x.inWave then x.leftWave else x

theorem Context.outOfWave_wave (x : Context) : x.outOfWave.k.wave.getLsbD 31 = false := by
  rw [Context.outOfWave]
  split
  · exact bitOf_withBit_same _ _ _ (by norm_num)
  · next h => exact Bool.eq_false_iff.2 h

theorem Context.outOfWave_r (x : Context) : x.outOfWave.r = x.r := by
  rw [Context.outOfWave]
  split <;> rfl

/-- A change of a context that leaves it as it was. -/
theorem Core.modCtx_of_eq {k : Core} {c : Fin 11} {f : Context → Context} (h : f k.ctxs[c] = k.ctxs[c]) : k.modCtx c f = k := by
  rw [Core.modCtx, h]
  simp

/-- Leaving a wave changes the context, and puts events on the agenda. -/
theorem State.leaveWave_core (s : State) (n : Nat) (c : Fin 11) :
    (s.leaveWave n c).core n = (s.core n).modCtx c Context.outOfWave := by
  simp only [State.leaveWave]
  split
  · next h =>
    have e : (s.core n).ctxs[c].outOfWave = (s.core n).ctxs[c].leftWave := if_pos h
    refine (s.core_modCore n fun k => k.modCtx c Context.leftWave).trans ?_
    rw [Core.modCtx, Core.modCtx, e]
  · next h => exact (Core.modCtx_of_eq (if_neg h)).symm

theorem State.leaveWave_frame (s : State) (n : Nat) (c : Fin 11) : (s.leaveWave n c).cur = s.cur ∧
    (s.leaveWave n c).mem = s.mem ∧ (s.leaveWave n c).beds = s.beds ∧
    ∀ m, m ≠ n → (s.leaveWave n c).core m = s.core m := by
  simp only [State.leaveWave]
  split
  · exact ⟨rfl, rfl, rfl, fun m hm => s.core_modCore_other n m (fun k => k.modCtx c Context.leftWave) hm⟩
  · exact ⟨rfl, rfl, rfl, fun _ _ => rfl⟩

/-- What a core drops at the end of a context: its claim with what it holds in the scale FIFO and the operand latch, and its
repetition buffer (R105, R182). -/
def Core.dropped (k : Core) (c : Fin 11) : Core :=
  { k with
    claim := if k.holds c then none else k.claim, fifo := if k.holds c then [] else k.fifo,
    fifoBad := if k.holds c then [] else k.fifoBad, latch := if k.holds c then none else k.latch, rep := if k.ownsRep c then none else k.rep,
    desync := if k.holds c then none else k.desync, scaleBad := if k.holds c then false else k.scaleBad }

/-- A context that has ended (R105). -/
def Context.ended (x : Context) (c : Fin 11) : Context :=
  { x with
    f.kmsd := 0, f.depth := 0, f.spilled := 0, hold := 0, block := none, req := none, wake := none,
    live := decide (c = 0), ending := decide (c = 0) }

theorem State.endContext_cur (s : State) : s.endContext.cur = { s.cur with trapped := true } :=
  congrArg (fun c : Cur => { c with trapped := true }) (s.leaveWave_frame s.cur.core s.cur.ctx).1

/-- The issuing core after the end of its context. -/
theorem State.endContext_here (s : State) : s.endContext.here =
    ((s.here.modCtx s.cur.ctx Context.outOfWave).dropped s.cur.ctx).modCtx s.cur.ctx fun x => x.ended s.cur.ctx := by
  have e : s.endContext.core s.cur.core = (((s.leaveWave s.cur.core s.cur.ctx).modCore s.cur.core fun k => k.dropped s.cur.ctx).modCore
      s.cur.core fun k => k.modCtx s.cur.ctx fun x => x.ended s.cur.ctx).core s.cur.core := rfl
  rw [State.here, State.endContext_cur, e, State.core_modCore, State.core_modCore, State.leaveWave_core]
  rfl

/-- The issuing context after its end. -/
theorem State.endContext_cx (s : State) : s.endContext.cx = s.cx.outOfWave.ended s.cur.ctx := by
  have e : s.endContext.cx = s.endContext.here.ctxs[s.cur.ctx] := by
    simp only [State.cx, State.endContext_cur]
  have hdrop (k : Core) : (k.dropped s.cur.ctx).ctxs = k.ctxs := rfl
  rw [e, State.endContext_here, Core.ctxs_modCtx, hdrop, Core.ctxs_modCtx]
  rfl

/-- What the end of a context leaves alone, and the event it puts on the agenda. -/
theorem State.endContext_frame (s : State) : s.endContext.mem = s.mem ∧ s.endContext.beds = s.beds ∧
    (∀ c : Fin 11, c ≠ s.cur.ctx → s.endContext.here.ctxs[c] = s.here.ctxs[c]) ∧
    ∃ l, s.endContext.agenda = l ++ [{ op := .c0CompletionReport, arg := { core := s.cur.core }, lane := 0 }] := by
  obtain ⟨-, hmem, hbeds, -⟩ := s.leaveWave_frame s.cur.core s.cur.ctx
  refine ⟨hmem, hbeds, fun c hc => ?_, _, rfl⟩
  rw [State.endContext_here, Core.ctxs_modCtx_other _ _ _ _ hc]
  exact Core.ctxs_modCtx_other s.here _ _ Context.outOfWave hc

/-- The claim, what goes with it, and the buffer after the end of a context that may have held them. -/
theorem Core.dropped_leaves (k : Core) (c : Fin 11) : (k.dropped c).claim ≠ some c ∧
    (k.claim = some c → (k.dropped c).fifo = [] ∧ (k.dropped c).latch = none) ∧
    ∀ r, (k.dropped c).rep = some r → r.owner ≠ c := by
  refine ⟨?_, fun h => ?_, fun r hr => ?_⟩
  · by_cases h : k.claim = some c
    · simp [Core.dropped, Core.holds, h]
    · simp [Core.dropped, Core.holds, h]
  · simp [Core.dropped, Core.holds, h]
  · rintro rfl
    by_cases h : k.rep = some r
    · simp [Core.dropped, Core.ownsRep, h] at hr
    · simp only [Core.dropped] at hr
      split at hr
      · cases hr
      · exact h hr

/-- No report of an operation out of step is due to the context. -/
theorem State.desyncFirst_of_none {s : State} (h : s.here.desync = none ∨ s.here.claim ≠ some s.cur.ctx) (k : State) :
    s.desyncFirst k = k := by
  rw [State.desyncFirst]
  split
  · next o ho =>
    have hc : s.here.claim ≠ some s.cur.ctx := h.resolve_left (by rw [ho]; nofun)
    exact if_neg (by simpa [Core.holds] using hc)
  · rfl

theorem State.reportsFirst_of_none {s : State} (h : s.cx.reports = []) (k : State) : s.reportsFirst k = k := by
  rw [State.reportsFirst, h]

/-- A drained context with nothing to report ends (R105). -/
theorem execCexit_ends {s : State} (hd : s.drained = true) (hr : s.cx.reports = [])
    (hc : s.here.desync = none ∨ s.here.claim ≠ some s.cur.ctx) : exec .cexit s = .next s.endContext := by
  rw [exec_cexit, execCexit, State.desyncFirst_of_none hc, if_neg (by simp [hd]), State.reportsFirst_of_none hr]

/-- Settles O13: starting, asking, waiting and ending, each by its own lemma above; a status by the bits it shows. -/
theorem contextInstructions : Obligations.ContextInstructions := by
  unfold Obligations.ContextInstructions
  refine ⟨fun s d a b c => ?_, State.statusOf_says, fun s hd hr hc => ⟨_, execCexit_ends hd hr hc, ?_⟩⟩
  · intro x y n fresh free
    refine ⟨fun hc ha ht => ⟨execCstart_starts hc ha ht, execCstart_none hc ha ht⟩, execCstart_misaligned,
      fun hc => ⟨execCquery_none hc, fun k hk => execCquery_status hc hk, execCwait_over hc, execCwait_nothing hc⟩,
      _, exec_cyield s, s.modCx_became _⟩
  · obtain ⟨hmem, -, hothers, hagenda⟩ := s.endContext_frame
    obtain ⟨hclaim, hheld, hrep⟩ := (s.here.modCtx s.cur.ctx Context.outOfWave).dropped_leaves s.cur.ctx
    rw [s.endContext_cx, s.endContext_here]
    exact ⟨rfl, rfl, rfl, rfl, rfl, hclaim, hheld, hrep, s.cx.outOfWave_wave, s.cx.outOfWave_r,
      fun c hc => s.endContext_here ▸ hothers c hc, State.byteAt_congr hmem, hagenda⟩

end Sys2Proof.Machine
end

section
/-! PROOFS. What a formation writes into a member's registers (O38; R107, R220). -/

namespace Sys2Proof.Machine

/-! ### A view of what a run of steps changes -/

section
variable {α β γ : Type} {view : β → γ} {step : β → α → β} {l : List α}

theorem view_foldl_of_kept (h : ∀ b, ∀ i ∈ l, view (step b i) = view b) (b : β) : view (l.foldl step b) = view b := by
  induction l generalizing b with
  | nil => rfl
  | cons i l ih =>
    exact (ih (fun b j hj => h b j (List.mem_cons_of_mem i hj)) _).trans (h b i List.mem_cons_self)

/-- Some step writes the view, and the others leave it. -/
theorem view_foldl_of_written {P : α → Prop} {val : γ} (hw : ∀ b, ∀ i ∈ l, P i → view (step b i) = val)
    (hk : ∀ b, ∀ i ∈ l, ¬ P i → view (step b i) = view b) (he : ∃ i ∈ l, P i) (b : β) : view (l.foldl step b) = val := by
  induction l generalizing b with
  | nil => simp at he
  | cons i l ih =>
    have hw' : ∀ b, ∀ j ∈ l, P j → view (step b j) = val := fun b j hj => hw b j (List.mem_cons_of_mem i hj)
    have hk' : ∀ b, ∀ j ∈ l, ¬ P j → view (step b j) = view b := fun b j hj => hk b j (List.mem_cons_of_mem i hj)
    by_cases hl : ∃ j ∈ l, P j
    · exact ih hw' hk' hl _
    · have hkept := view_foldl_of_kept (fun b j hj => hk' b j hj fun hp => hl ⟨j, hj, hp⟩) (step b i)
      obtain ⟨j, hj, hp⟩ := he
      rcases List.mem_cons.1 hj with rfl | hj
      · exact hkept.trans (hw b j List.mem_cons_self hp)
      · exact absurd ⟨j, hj, hp⟩ hl

end

/-! ### One register written -/

/-- A context but for its registers. -/
def Context.bare (x : Context) : Context := { x with r := Regs.zero }

section
variable (k : Core) (c : Fin 11)

/-- A g register written: the other registers, and the rest of the context, stay. -/
theorem Core.writeG_effect (r : Fin 32) (x : Word) (mark : Bool) :
    ((k.writeG c r x mark).ctxs[c]).bare = (k.ctxs[c]).bare ∧ ((k.writeG c r x mark).ctxs[c]).r.p = (k.ctxs[c]).r.p ∧
      ((k.writeG c r x mark).ctxs[c]).r.v = (k.ctxs[c]).r.v ∧
      ∀ i, ((k.writeG c r x mark).ctxs[c]).g i = if i = r ∧ i ≠ 0 then x else (k.ctxs[c]).g i := by
  by_cases hr : r = 0
  · rw [Core.writeG, if_pos hr]
    exact ⟨rfl, rfl, rfl, fun i => (if_neg fun e => e.2 (e.1.trans hr)).symm⟩
  · rw [Core.writeG, if_neg hr, Core.ctxs_latent, Core.ctxs_modCtx]
    refine ⟨rfl, rfl, rfl, fun i => ?_⟩
    by_cases hi : i = 0
    · simp [Context.g, hi]
    · by_cases h : i = r
      · simp [Context.g, h, hr]
      · have hval : r.val ≠ i.val := fun e => h (Fin.ext e.symm)
        simp [Context.g, hi, h, hval]

/-- A v register written in every lane. -/
theorem Core.writeV_effect (r : Fin 32) (x : VReg) (marks : Mask) :
    ((k.writeV c r 0xF x marks).ctxs[c]).bare = (k.ctxs[c]).bare ∧ ((k.writeV c r 0xF x marks).ctxs[c]).r.g = (k.ctxs[c]).r.g ∧
      ((k.writeV c r 0xF x marks).ctxs[c]).r.p = (k.ctxs[c]).r.p ∧
      ∀ i, ((k.writeV c r 0xF x marks).ctxs[c]).v i = if i = r then x else (k.ctxs[c]).v i := by
  rw [Core.writeV, Core.ctxs_latent, Core.ctxs_modCtx]
  refine ⟨rfl, rfl, rfl, fun i => ?_⟩
  by_cases h : i = r
  · subst h
    refine vreg_ext fun l hl => ?_
    have hall : bitOf (0xF : Mask) l = true := by interval_cases l <;> rfl
    have hmix := lane_mix (k.ctxs[c].v i) x 0xF l hl
    rw [if_pos hall] at hmix
    rw [if_pos rfl, ← hmix]
    simp [Context.v]
  · have hval : r.val ≠ i.val := fun e => h (Fin.ext e.symm)
    simp [Context.v, h, hval]

/-- A predicate cleared in every lane; p0 stays. -/
theorem Core.writeP_effect (r : Fin 8) :
    ((k.writeP c r 0xF 0).ctxs[c]).bare = (k.ctxs[c]).bare ∧ ((k.writeP c r 0xF 0).ctxs[c]).r.g = (k.ctxs[c]).r.g ∧
      ((k.writeP c r 0xF 0).ctxs[c]).r.v = (k.ctxs[c]).r.v ∧
      ∀ i, ((k.writeP c r 0xF 0).ctxs[c]).p i = if i = r ∧ i ≠ 0 then 0 else (k.ctxs[c]).p i := by
  by_cases hr : r = 0
  · rw [Core.writeP, if_pos hr]
    exact ⟨rfl, rfl, rfl, fun i => (if_neg fun e => e.2 (e.1.trans hr)).symm⟩
  · rw [Core.writeP, if_neg hr, Core.ctxs_latent, Core.ctxs_modCtx]
    refine ⟨rfl, rfl, rfl, fun i => ?_⟩
    by_cases hi : i = 0
    · simp [Context.p, hi]
    · by_cases h : i = r
      · simp [Context.p, h, hr, show ~~~0xF#4 = 0#4 from rfl]
      · have hval : r.val ≠ i.val := fun e => h (Fin.ext e.symm)
        simp [Context.p, hi, h, hval]

theorem Core.bare_writeG (r : Fin 32) (x : Word) (mark : Bool) :
    ((k.writeG c r x mark).ctxs[c]).bare = (k.ctxs[c]).bare := (k.writeG_effect c r x mark).1

theorem Core.g_writeG (r i : Fin 32) (x : Word) (mark : Bool) :
    ((k.writeG c r x mark).ctxs[c]).g i = if i = r ∧ i ≠ 0 then x else (k.ctxs[c]).g i :=
  (k.writeG_effect c r x mark).2.2.2 i

theorem Core.p_writeG (r : Fin 32) (x : Word) (mark : Bool) : ((k.writeG c r x mark).ctxs[c]).r.p = (k.ctxs[c]).r.p :=
  (k.writeG_effect c r x mark).2.1

theorem Core.v_writeG (r : Fin 32) (x : Word) (mark : Bool) : ((k.writeG c r x mark).ctxs[c]).r.v = (k.ctxs[c]).r.v :=
  (k.writeG_effect c r x mark).2.2.1

theorem Core.bare_writeV (r : Fin 32) (x : VReg) (marks : Mask) :
    ((k.writeV c r 0xF x marks).ctxs[c]).bare = (k.ctxs[c]).bare := (k.writeV_effect c r x marks).1

theorem Core.g_writeV (r : Fin 32) (x : VReg) (marks : Mask) :
    ((k.writeV c r 0xF x marks).ctxs[c]).r.g = (k.ctxs[c]).r.g := (k.writeV_effect c r x marks).2.1

theorem Core.p_writeV (r : Fin 32) (x : VReg) (marks : Mask) :
    ((k.writeV c r 0xF x marks).ctxs[c]).r.p = (k.ctxs[c]).r.p := (k.writeV_effect c r x marks).2.2.1

theorem Core.v_writeV (r i : Fin 32) (x : VReg) (marks : Mask) :
    ((k.writeV c r 0xF x marks).ctxs[c]).v i = if i = r then x else (k.ctxs[c]).v i :=
  (k.writeV_effect c r x marks).2.2.2 i

theorem Core.bare_writeP (r : Fin 8) : ((k.writeP c r 0xF 0).ctxs[c]).bare = (k.ctxs[c]).bare := (k.writeP_effect c r).1

theorem Core.g_writeP (r : Fin 8) : ((k.writeP c r 0xF 0).ctxs[c]).r.g = (k.ctxs[c]).r.g := (k.writeP_effect c r).2.1

theorem Core.v_writeP (r : Fin 8) : ((k.writeP c r 0xF 0).ctxs[c]).r.v = (k.ctxs[c]).r.v := (k.writeP_effect c r).2.2.1

theorem Core.p_writeP (r i : Fin 8) :
    ((k.writeP c r 0xF 0).ctxs[c]).p i = if i = r ∧ i ≠ 0 then 0 else (k.ctxs[c]).p i := (k.writeP_effect c r).2.2.2 i

end

/-! ### The payload dealt (R107) -/

/-- What v register j of the member at a place receives. -/
def payload (es : List HitEntry) (place j : Nat) : VReg :=
  (List.range 4).foldl (fun v l => setLane l v (((es[4 * place + l]?).bind fun e => e.words[j]?).getD 0)) 0

def payloadMarks (es : List HitEntry) (place j : Nat) : Mask :=
  (List.range 4).foldl (fun m l => withBit m l (((es[4 * place + l]?).bind fun e => e.marks[j]?).getD false)) 0

theorem lane_payload (es : List HitEntry) (place j : Nat) {l : Nat} (hl : l < 4) :
    lane l (payload es place j) = ((es[4 * place + l]?).bind fun e => e.words[j]?).getD 0 := by
  refine view_foldl_of_written (view := fun v : VReg => lane l v) (P := fun i => i = l) (fun v i _ h => ?_) (fun v i _ h => ?_)
    ⟨l, List.mem_range.2 hl, rfl⟩ 0
  · subst h
    exact elem_setElem_same v _ (by omega)
  · exact elem_setElem_other v _ (by omega) (Ne.symm h)

section
variable (k : Core) (c : Fin 11) (place : Nat) (es : List HitEntry) {regs : Nat}

theorem Core.deal_eq : k.deal c place regs es =
    (List.range regs).foldl (fun k j => k.writeV c (Fin.ofNat 32 j) 0xF (payload es place j) (payloadMarks es place j)) k := rfl

theorem Core.bare_deal : ((k.deal c place regs es).ctxs[c]).bare = (k.ctxs[c]).bare := by
  rw [Core.deal_eq]
  exact view_foldl_of_kept (view := fun k : Core => (k.ctxs[c]).bare) (fun k _ _ => k.bare_writeV c _ _ _) k

theorem Core.g_deal : ((k.deal c place regs es).ctxs[c]).r.g = (k.ctxs[c]).r.g := by
  rw [Core.deal_eq]
  exact view_foldl_of_kept (view := fun k : Core => (k.ctxs[c]).r.g) (fun k _ _ => k.g_writeV c _ _ _) k

theorem Core.p_deal : ((k.deal c place regs es).ctxs[c]).r.p = (k.ctxs[c]).r.p := by
  rw [Core.deal_eq]
  exact view_foldl_of_kept (view := fun k : Core => (k.ctxs[c]).r.p) (fun k _ _ => k.p_writeV c _ _ _) k

theorem ofNat32_inj {i j : Nat} (hi : i < 32) (hj : j < 32) (h : Fin.ofNat 32 i = Fin.ofNat 32 j) : i = j := by
  have h' := congrArg Fin.val h
  simpa [Nat.mod_eq_of_lt hi, Nat.mod_eq_of_lt hj] using h'

theorem Core.v_deal_dealt {j : Nat} (hr : regs ≤ 8) (hj : j < regs) :
    ((k.deal c place regs es).ctxs[c]).v (Fin.ofNat 32 j) = payload es place j := by
  rw [Core.deal_eq]
  refine view_foldl_of_written (view := fun k : Core => (k.ctxs[c]).v (Fin.ofNat 32 j)) (P := fun i => i = j) (fun k i _ h => ?_)
    (fun k i hi h => ?_) ⟨j, List.mem_range.2 hj, rfl⟩ k
  · subst h
    exact (k.v_writeV c _ _ _ _).trans (if_pos rfl)
  · have hi := List.mem_range.1 hi
    exact (k.v_writeV c _ _ _ _).trans (if_neg fun e => h (ofNat32_inj (by omega) (by omega) e).symm)

theorem Core.v_deal_kept {j : Nat} (hj : regs ≤ j) (hj' : j < 32) :
    ((k.deal c place regs es).ctxs[c]).v (Fin.ofNat 32 j) = (k.ctxs[c]).v (Fin.ofNat 32 j) := by
  rw [Core.deal_eq]
  refine view_foldl_of_kept (view := fun k : Core => (k.ctxs[c]).v (Fin.ofNat 32 j)) (fun k i hi => ?_) k
  have hi := List.mem_range.1 hi
  refine (k.v_writeV c _ _ _ _).trans (if_neg fun e => ?_)
  have := ofNat32_inj hj' (by omega) e
  omega

end

/-! ### The registers of a member that goes on at reorder entries (R107, R220) -/

/-- The three runs of clears: g registers but the stack and frame pointers, predicates, and the v registers above the payload. -/
def Core.clearG (k : Core) (c : Fin 11) : Core := (List.range 32).foldl (fun k i =>
  if Fin.ofNat 32 i = 29 ∨ Fin.ofNat 32 i = 30 then k else k.writeG c (Fin.ofNat 32 i) 0) k
def Core.clearP (k : Core) (c : Fin 11) : Core := (List.range 8).foldl (fun k i => k.writeP c (Fin.ofNat 8 i) 0xF 0) k
def Core.clearV (k : Core) (c : Fin 11) : Core :=
  (List.range 24).foldl (fun k i => k.writeV c (Fin.ofNat 32 (8 + i)) 0xF 0) k

/-- A context with an empty return stack. -/
def Context.unstacked (x : Context) : Context := { x with f.depth := 0, f.spilled := 0 }

section
variable (k : Core) (c : Fin 11)

theorem Core.reordered_eq : k.reordered c = (((k.clearG c).clearP c).clearV c).modCtx c Context.unstacked := rfl

theorem Core.bare_clearG : ((k.clearG c).ctxs[c]).bare = (k.ctxs[c]).bare := by
  rw [Core.clearG]
  refine view_foldl_of_kept (view := fun k : Core => (k.ctxs[c]).bare) (fun k i _ => ?_) k
  split
  · rfl
  · exact k.bare_writeG c _ _ _

theorem Core.v_clearG : ((k.clearG c).ctxs[c]).r.v = (k.ctxs[c]).r.v := by
  rw [Core.clearG]
  refine view_foldl_of_kept (view := fun k : Core => (k.ctxs[c]).r.v) (fun k i _ => ?_) k
  split
  · rfl
  · exact k.v_writeG c _ _ _

theorem Core.g_clearG (r : Fin 32) : ((k.clearG c).ctxs[c]).g r = if r = 29 ∨ r = 30 then (k.ctxs[c]).g r else 0 := by
  have hself : Fin.ofNat 32 r.val = r := Fin.ext (Nat.mod_eq_of_lt r.isLt)
  rw [Core.clearG]
  by_cases hr : r = 29 ∨ r = 30
  · rw [if_pos hr]
    refine view_foldl_of_kept (view := fun k : Core => (k.ctxs[c]).g r) (fun k i _ => ?_) k
    split
    · rfl
    · next h => exact (k.g_writeG c _ _ _ _).trans (if_neg fun e : r = Fin.ofNat 32 i ∧ r ≠ 0 => h (e.1 ▸ hr))
  · rw [if_neg hr]
    by_cases hz : r = 0
    · rw [Context.g, if_pos hz]
    refine view_foldl_of_written (view := fun k : Core => (k.ctxs[c]).g r) (P := fun i => i = r.val) (fun k i _ h => ?_)
      (fun k i hi h => ?_) ⟨r.val, List.mem_range.2 r.isLt, rfl⟩ k
    · rw [h, hself, if_neg hr]
      exact (k.g_writeG c _ _ _ _).trans (if_pos ⟨rfl, hz⟩)
    · split
      · rfl
      · refine (k.g_writeG c _ _ _ _).trans (if_neg fun e => h ?_)
        exact ofNat32_inj (List.mem_range.1 hi) r.isLt (e.1.symm.trans hself.symm)

theorem Core.bare_clearP : ((k.clearP c).ctxs[c]).bare = (k.ctxs[c]).bare :=
  view_foldl_of_kept (view := fun k : Core => (k.ctxs[c]).bare) (fun k _ _ => k.bare_writeP c _) k

theorem Core.g_clearP : ((k.clearP c).ctxs[c]).r.g = (k.ctxs[c]).r.g :=
  view_foldl_of_kept (view := fun k : Core => (k.ctxs[c]).r.g) (fun k _ _ => k.g_writeP c _) k

theorem Core.v_clearP : ((k.clearP c).ctxs[c]).r.v = (k.ctxs[c]).r.v :=
  view_foldl_of_kept (view := fun k : Core => (k.ctxs[c]).r.v) (fun k _ _ => k.v_writeP c _) k

theorem Core.p_clearP (r : Fin 8) : ((k.clearP c).ctxs[c]).p r = if r = 0 then 0xF else 0 := by
  by_cases hz : r = 0
  · rw [Context.p, if_pos hz, if_pos hz]
  rw [if_neg hz]
  have hself : Fin.ofNat 8 r.val = r := Fin.ext (Nat.mod_eq_of_lt r.isLt)
  refine view_foldl_of_written (view := fun k : Core => (k.ctxs[c]).p r) (P := fun i => Fin.ofNat 8 i = r) (fun k i _ h => ?_)
    (fun k i _ h => ?_) ⟨r.val, List.mem_range.2 r.isLt, hself⟩ k
  · exact (k.p_writeP c _ _).trans (if_pos ⟨h.symm, hz⟩)
  · exact (k.p_writeP c _ _).trans (if_neg fun e => h e.1.symm)

theorem Core.bare_clearV : ((k.clearV c).ctxs[c]).bare = (k.ctxs[c]).bare :=
  view_foldl_of_kept (view := fun k : Core => (k.ctxs[c]).bare) (fun k _ _ => k.bare_writeV c _ _ _) k

theorem Core.g_clearV : ((k.clearV c).ctxs[c]).r.g = (k.ctxs[c]).r.g :=
  view_foldl_of_kept (view := fun k : Core => (k.ctxs[c]).r.g) (fun k _ _ => k.g_writeV c _ _ _) k

theorem Core.p_clearV : ((k.clearV c).ctxs[c]).r.p = (k.ctxs[c]).r.p :=
  view_foldl_of_kept (view := fun k : Core => (k.ctxs[c]).r.p) (fun k _ _ => k.p_writeV c _ _ _) k

theorem Core.v_clearV {j : Nat} (hj : j < 32) :
    ((k.clearV c).ctxs[c]).v (Fin.ofNat 32 j) = if 8 ≤ j then 0 else (k.ctxs[c]).v (Fin.ofNat 32 j) := by
  by_cases h8 : 8 ≤ j
  · rw [if_pos h8]
    refine view_foldl_of_written (view := fun k : Core => (k.ctxs[c]).v (Fin.ofNat 32 j)) (P := fun i => 8 + i = j)
      (fun k i _ h => ?_) (fun k i hi h => ?_) ⟨j - 8, List.mem_range.2 (by omega), by omega⟩ k
    · subst h
      exact (k.v_writeV c _ _ _ _).trans (if_pos rfl)
    · have hi := List.mem_range.1 hi
      exact (k.v_writeV c _ _ _ _).trans (if_neg fun e => h (ofNat32_inj hj (by omega) e).symm)
  · rw [if_neg h8]
    refine view_foldl_of_kept (view := fun k : Core => (k.ctxs[c]).v (Fin.ofNat 32 j)) (fun k i hi => ?_) k
    have hi := List.mem_range.1 hi
    refine (k.v_writeV c _ _ _ _).trans (if_neg fun e => ?_)
    have := ofNat32_inj hj (by omega) e
    omega

/-- A g register by the file of g registers, and so for p and v. -/
theorem Context.g_congr {x y : Context} (h : x.r.g = y.r.g) (r : Fin 32) : x.g r = y.g r := by
  rw [Context.g, Context.g, h]
theorem Context.p_congr {x y : Context} (h : x.r.p = y.r.p) (r : Fin 8) : x.p r = y.p r := by
  rw [Context.p, Context.p, h]
theorem Context.v_congr {x y : Context} (h : x.r.v = y.r.v) (r : Fin 32) : x.v r = y.v r := by
  rw [Context.v, Context.v, h]

theorem Context.unstacked_g (x : Context) (r : Fin 32) : x.unstacked.g r = x.g r := rfl
theorem Context.unstacked_p (x : Context) (r : Fin 8) : x.unstacked.p r = x.p r := rfl
theorem Context.unstacked_v (x : Context) (r : Fin 32) : x.unstacked.v r = x.v r := rfl
theorem Context.bare_unstacked (x : Context) : x.unstacked.bare = x.bare.unstacked := rfl

theorem Core.ctx_reordered : (k.reordered c).ctxs[c] = ((((k.clearG c).clearP c).clearV c).ctxs[c]).unstacked := by
  rw [Core.reordered_eq, Core.ctxs_modCtx]

theorem Core.bare_reordered : ((k.reordered c).ctxs[c]).bare = (k.ctxs[c]).bare.unstacked := by
  rw [Core.ctx_reordered, Context.bare_unstacked, Core.bare_clearV, Core.bare_clearP, Core.bare_clearG]

theorem Core.g_reordered (r : Fin 32) : ((k.reordered c).ctxs[c]).g r = if r = 29 ∨ r = 30 then (k.ctxs[c]).g r else 0 := by
  rw [Core.ctx_reordered, Context.unstacked_g, Context.g_congr (Core.g_clearV _ c), Context.g_congr (Core.g_clearP _ c),
    Core.g_clearG]

theorem Core.p_reordered (r : Fin 8) : ((k.reordered c).ctxs[c]).p r = if r = 0 then 0xF else 0 := by
  rw [Core.ctx_reordered, Context.unstacked_p, Context.p_congr (Core.p_clearV _ c), Core.p_clearP]

theorem Core.v_reordered {j : Nat} (hj : j < 32) : ((k.reordered c).ctxs[c]).v (Fin.ofNat 32 j) =
    if 8 ≤ j then 0 else (k.ctxs[c]).v (Fin.ofNat 32 j) := by
  rw [Core.ctx_reordered, Context.unstacked_v, Core.v_clearV _ c hj, Context.v_congr (Core.v_clearP _ c),
    Context.v_congr (k.v_clearG c)]

end

/-! ### A member's context once it has taken its formation (R107) -/

/-- A member's context, but for its registers: KWAVE, KLANE and KMASK, and no return address where it goes on elsewhere. -/
def Context.asMember (x : Context) (f : Formed) : Context := { x.joins f with f.kmask := f.own.getD x.f.kmask }
def Context.taken (x : Context) (f : Formed) : Context := (if f.resume.isSome then x.unstacked else x).asMember f

theorem Context.asMember_r (x : Context) (f : Formed) : (x.asMember f).r = x.r := by
  rw [Context.asMember, Context.joins]
  split <;> rfl

theorem Context.bare_asMember (x : Context) (f : Formed) : (x.asMember f).bare = x.bare.asMember f := by
  rw [Context.asMember, Context.asMember, Context.joins, Context.joins]
  split <;> rfl

/-- What a formation leaves of a member's context and what it gives it, but for the registers. -/
theorem Context.bare_taken_effect (x : Context) (f : Formed) : (x.bare.taken f).wake = x.wake ∧ (x.bare.taken f).req = x.req ∧
    (x.bare.taken f).pc = x.pc ∧ (x.bare.taken f).f.kmask = f.own.getD x.f.kmask ∧
    (∀ w l, f.wave = some (w, l) → (x.bare.taken f).k.wave = w ∧ (x.bare.taken f).k.lane = l) ∧
    (f.resume = none → (x.bare.taken f).f.depth = x.f.depth) ∧
    (f.resume ≠ none → (x.bare.taken f).f.depth = 0 ∧ (x.bare.taken f).f.spilled = 0) := by
  rw [Context.taken, Context.asMember, Context.joins]
  cases f.resume <;> cases f.wave <;> simp +contextual [Context.bare, Context.unstacked]

section
variable (k : Core) (c : Fin 11) (place : Nat) (f : Formed)

/-- The core with the registers of a formation, before the rest of it. -/
def Core.dealt : Core :=
  let k := k.deal c place f.regs f.entries
  if f.resume.isSome then k.reordered c else k

theorem Core.form_eq : k.form c place f = (k.dealt c place f).modCtx c fun y => y.asMember f := rfl

theorem Core.r_form : ((k.form c place f).ctxs[c]).r = ((k.dealt c place f).ctxs[c]).r := by
  rw [Core.form_eq, Core.ctxs_modCtx, Context.asMember_r]

theorem Core.bare_form : ((k.form c place f).ctxs[c]).bare = (k.ctxs[c]).bare.taken f := by
  rw [Core.form_eq, Core.ctxs_modCtx, Context.bare_asMember, Core.dealt, Context.taken]
  split
  · rw [Core.bare_reordered, Core.bare_deal]
  · rw [Core.bare_deal]

variable {k c place f}

theorem Core.dealt_plain (h : f.resume = none) : k.dealt c place f = k.deal c place f.regs f.entries := by
  rw [Core.dealt, h]
  rfl

theorem Core.dealt_resumed (h : f.resume ≠ none) : k.dealt c place f = (k.deal c place f.regs f.entries).reordered c :=
  if_pos (Option.isSome_iff_ne_none.2 h)

/-- The g registers of a member: all that they were, or the stack and frame pointers alone. -/
theorem Core.g_form (r : Fin 32) :
    ((k.form c place f).ctxs[c]).g r = if f.resume = none ∨ r = 29 ∨ r = 30 then (k.ctxs[c]).g r else 0 := by
  rw [Context.g_congr (congrArg Regs.g (k.r_form c place f))]
  by_cases h : f.resume = none
  · rw [Core.dealt_plain h, if_pos (.inl h), Context.g_congr (Core.g_deal ..)]
  · rw [Core.dealt_resumed h, Core.g_reordered, Context.g_congr (Core.g_deal ..)]
    simp only [h, false_or]

theorem Core.p_form_plain (h : f.resume = none) : ((k.form c place f).ctxs[c]).r.p = (k.ctxs[c]).r.p := by
  rw [Core.r_form, Core.dealt_plain h, Core.p_deal]

theorem Core.p_form_resumed (h : f.resume ≠ none) (r : Fin 8) : ((k.form c place f).ctxs[c]).p r = if r = 0 then 0xF else 0 := by
  rw [Context.p_congr (congrArg Regs.p (k.r_form c place f)), Core.dealt_resumed h, Core.p_reordered]

/-- The payload of a member's lanes. -/
theorem Core.v_form_dealt (hr : f.regs ≤ 8) {j : Nat} (hj : j < f.regs) :
    ((k.form c place f).ctxs[c]).v (Fin.ofNat 32 j) = payload f.entries place j := by
  rw [Context.v_congr (congrArg Regs.v (k.r_form c place f))]
  by_cases h : f.resume = none
  · rw [Core.dealt_plain h, Core.v_deal_dealt k c place f.entries hr hj]
  · rw [Core.dealt_resumed h, Core.v_reordered _ c (by omega), if_neg (by omega), Core.v_deal_dealt k c place f.entries hr hj]

theorem Core.v_form_kept (h : f.resume = none) {j : Nat} (hj : f.regs ≤ j) (hj' : j < 32) :
    ((k.form c place f).ctxs[c]).v (Fin.ofNat 32 j) = (k.ctxs[c]).v (Fin.ofNat 32 j) := by
  rw [Context.v_congr (congrArg Regs.v (k.r_form c place f)), Core.dealt_plain h, Core.v_deal_kept k c place f.entries hj hj']

theorem Core.v_form_cleared (h : f.resume ≠ none) {j : Nat} (hj : 8 ≤ j) (hj' : j < 32) :
    ((k.form c place f).ctxs[c]).v (Fin.ofNat 32 j) = 0 := by
  rw [Context.v_congr (congrArg Regs.v (k.r_form c place f)), Core.dealt_resumed h, Core.v_reordered _ c hj', if_pos hj]

end

end Sys2Proof.Machine
end

section
/-! PROOFS. `wform` and `wsync` as they issue (O38; R106 to R108). -/

namespace Sys2Proof.Machine

/-- A context whose wait is over. -/
def Context.woken (x : Context) : Context := { x with wake := none, req := none }

/-- A formation taken: gD, the member's registers, and the PC of the entries. -/
def State.takesFormed (s : State) (d : Fin 32) (f : Formed) : State :=
  ((s.modCx Context.woken).setG d f.gd).modHere fun k => k.form s.cur.ctx (s.cur.core % 8) f
def State.toResume (s : State) (f : Formed) : State :=
  match f.resume with
  | some r => s.setPc r
  | none => s

section
variable {s : State} {d a : Fin 32} {f : Formed}

theorem execWform_formed (hc : s.cleanG [a]) (hw : s.cx.wake = some (.formed f)) :
    exec (.wform d a) s = .next ((s.takesFormed d f).toResume f) := by
  rw [exec_wform, execWform, s.scalar_clean _ _ hc]
  simp only [hw]
  rfl

theorem State.toResume_cx (s : State) (f : Formed) : (s.toResume f).cx = { s.cx with pc := f.resume.getD s.cx.pc } := by
  rw [State.toResume]
  cases f.resume with
  | none => rfl
  | some r => exact s.cx_modCx fun x => { x with pc := r }

theorem State.toResume_mem (s : State) (f : Formed) : (s.toResume f).mem = s.mem := by
  rw [State.toResume]
  split <;> rfl

/-- The core as the formation finds it: the wait over and gD written. -/
def State.gdWritten (s : State) (d : Fin 32) (f : Formed) : Core :=
  (s.here.modCtx s.cur.ctx Context.woken).writeG s.cur.ctx d f.gd

theorem State.takesFormed_eq (s : State) (d : Fin 32) (f : Formed) : s.takesFormed d f = s.modHere fun k =>
    ((k.modCtx s.cur.ctx Context.woken).writeG s.cur.ctx d f.gd).form s.cur.ctx (s.cur.core % 8) f := by
  rw [State.takesFormed, State.setG, State.modHere_modHere]
  exact s.modHere_modHere _ _

theorem State.takesFormed_cx (s : State) (d : Fin 32) (f : Formed) :
    (s.takesFormed d f).cx = ((s.gdWritten d f).form s.cur.ctx (s.cur.core % 8) f).ctxs[s.cur.ctx] := by
  rw [s.takesFormed_eq d f, State.cx_modHere]
  rfl

theorem State.gdWritten_bare (s : State) (d : Fin 32) (f : Formed) :
    ((s.gdWritten d f).ctxs[s.cur.ctx]).bare = s.cx.woken.bare := by
  rw [State.gdWritten, Core.bare_writeG, Core.ctxs_modCtx]
  rfl

theorem State.gdWritten_g (s : State) (d r : Fin 32) (f : Formed) :
    ((s.gdWritten d f).ctxs[s.cur.ctx]).g r = if r = d ∧ r ≠ 0 then f.gd else s.cx.g r := by
  rw [State.gdWritten, Core.g_writeG, Core.ctxs_modCtx]
  rfl

theorem State.gdWritten_p (s : State) (d : Fin 32) (f : Formed) : ((s.gdWritten d f).ctxs[s.cur.ctx]).r.p = s.cx.r.p := by
  rw [State.gdWritten, Core.p_writeG, Core.ctxs_modCtx]
  rfl

theorem State.gdWritten_v (s : State) (d : Fin 32) (f : Formed) : ((s.gdWritten d f).ctxs[s.cur.ctx]).r.v = s.cx.r.v := by
  rw [State.gdWritten, Core.v_writeG, Core.ctxs_modCtx]
  rfl

theorem execWform_takes (hc : s.cleanG [a]) (hw : s.cx.wake = some (.formed f)) (hr : f.regs ≤ 8) :
    s.does (.wform d a) fun t => t.cx.wake = none ∧ t.cx.req = none ∧ t.cx.f.kmask = f.own.getD s.cx.f.kmask ∧
      t.cx.pc = f.resume.getD s.cx.pc ∧
      t.cx.g d = (if d = 0 ∨ (f.resume ≠ none ∧ d ≠ 29 ∧ d ≠ 30) then 0 else f.gd) ∧
      (∀ w l, f.wave = some (w, l) → t.cx.k.wave = w ∧ t.cx.k.lane = l) ∧
      (∀ j l, j < f.regs → l < 4 → lane l (t.cx.v (Fin.ofNat 32 j)) =
        ((f.entries[4 * (s.cur.core % 8) + l]?).bind fun e => e.words[j]?).getD 0) ∧
      (f.resume = none → t.cx.f.depth = s.cx.f.depth ∧ t.cx.r.p = s.cx.r.p ∧ (∀ r, r ≠ d → t.cx.g r = s.cx.g r) ∧
        ∀ j, f.regs ≤ j → j < 32 → t.cx.v (Fin.ofNat 32 j) = s.cx.v (Fin.ofNat 32 j)) ∧
      (f.resume ≠ none → t.cx.f.depth = 0 ∧ t.cx.f.spilled = 0 ∧
        (∀ r, r ≠ d → t.cx.g r = if r = 29 ∨ r = 30 then s.cx.g r else 0) ∧
        (∀ r, t.cx.p r = if r = 0 then 0xF else 0) ∧ ∀ j, 8 ≤ j → j < 32 → t.cx.v (Fin.ofNat 32 j) = 0) ∧
      ∀ k, t.byteAt k = s.byteAt k := by
  obtain ⟨u, hu⟩ : ∃ u, u = s.takesFormed d f := ⟨_, rfl⟩
  have hcx : u.cx = ((s.gdWritten d f).form s.cur.ctx (s.cur.core % 8) f).ctxs[s.cur.ctx] := hu ▸ s.takesFormed_cx d f
  have hbare : u.cx.bare = s.cx.woken.bare.taken f := by rw [hcx, Core.bare_form, State.gdWritten_bare]
  have hg (r : Fin 32) : u.cx.g r = if f.resume = none ∨ r = 29 ∨ r = 30 then
      (if r = d ∧ r ≠ 0 then f.gd else s.cx.g r) else 0 := by rw [hcx, Core.g_form, State.gdWritten_g]
  obtain ⟨hwake, hreq, hpc, hmask, hwave, hplain, hresumed⟩ := s.cx.woken.bare_taken_effect f
  rw [← hbare] at hwake hreq hpc hmask hwave hplain hresumed
  have hpc : u.cx.pc = s.cx.pc := hpc
  refine ⟨_, execWform_formed hc hw, ?_⟩
  beta_reduce
  rw [← hu, State.toResume_cx]
  refine ⟨hwake, hreq, hmask, by rw [hpc], (hg d).trans ?_, hwave, fun j l hj hl => ?_, fun h => ⟨hplain h, ?_, fun r hr => ?_,
    fun j hj hj' => ?_⟩, fun h => ⟨(hresumed h).1, (hresumed h).2, fun r hr => ?_, fun r => ?_, fun j hj hj' => ?_⟩,
    State.byteAt_congr ((u.toResume_mem f).trans (hu ▸ rfl))⟩
  · by_cases hd : d = 0
    · simp [hd, Context.g]
    · by_cases h : f.resume = none
      · simp [hd, h]
      · by_cases hs : d = 29 ∨ d = 30
        · rcases hs with rfl | rfl <;> simp
        · obtain ⟨h29, h30⟩ := not_or.1 hs
          simp [h, h29, h30]
  · exact (congrArg (lane l) (hcx ▸ Core.v_form_dealt hr hj)).trans (lane_payload _ _ j hl)
  · exact hcx ▸ (Core.p_form_plain h).trans (s.gdWritten_p d f)
  · exact (hg r).trans (by simp [h, hr])
  · exact hcx ▸ (Core.v_form_kept h hj hj').trans (Context.v_congr (s.gdWritten_v d f) _)
  · exact (hg r).trans (by simp [h, hr])
  · exact hcx ▸ Core.p_form_resumed h r
  · exact hcx ▸ Core.v_form_cleared h hj hj'

/-! ### A formation without entries: gD, and nothing but gD, on top of the member's context -/

/-- A g register of a context written, unmarked. -/
def Context.putG (y : Context) (d : Fin 32) (x : Word) (epoch : Nat) : Context :=
  { y with r.g := y.r.g.set d x, r.gMark := withBit y.r.gMark d false, r.gAt := y.r.gAt.set d epoch }

theorem Core.writeG_eq_putG (k : Core) (c : Fin 11) (x : Word) (hd : d ≠ 0) : k.writeG c d x =
    (k.modCtx c fun y => y.putG d x k.epoch).latent (if bitOf k.ctxs[c].r.gMark d then 1 else 0) := by
  rw [Core.writeG, if_neg hd, Bool.not_false, Bool.and_true]
  rfl

theorem Context.asMember_putG (y : Context) (f : Formed) (x : Word) (epoch : Nat) :
    (y.putG d x epoch).asMember f = (y.asMember f).putG d x epoch := by
  rw [Context.asMember, Context.asMember, Context.joins, Context.joins]
  split <;> rfl

theorem Core.writeG_asMember (k : Core) (c : Fin 11) (x : Word) (f : Formed) :
    (k.writeG c d x).modCtx c (fun y => y.asMember f) = (k.modCtx c fun y => y.asMember f).writeG c d x := by
  by_cases hd : d = 0
  · rw [Core.writeG, if_pos hd, Core.writeG, if_pos hd]
  · have hlatent (k : Core) (n : Nat) (g : Context → Context) : (k.latent n).modCtx c g = (k.modCtx c g).latent n := rfl
    rw [Core.writeG_eq_putG k c x hd, Core.writeG_eq_putG _ c x hd, hlatent, Core.modCtx_modCtx, Core.modCtx_modCtx,
      Core.ctxs_modCtx, Context.asMember_r]
    simp only [Context.asMember_putG]
    rfl

theorem execWform_plain (hc : s.cleanG [a]) (hw : s.cx.wake = some (.formed f)) (hregs : f.regs = 0) (hres : f.resume = none) :
    ∃ u, s.became u { s.cx.joins f with wake := none, req := none, f.kmask := f.own.getD s.cx.f.kmask } ∧
      s.does (.wform d a) fun t => u.gotG t d f.gd false := by
  obtain ⟨u, hu⟩ : ∃ u, u = s.modCx fun x => x.woken.asMember f := ⟨_, rfl⟩
  have hcx : s.cx.woken.asMember f = { s.cx.joins f with wake := none, req := none, f.kmask := f.own.getD s.cx.f.kmask } := by
    rw [Context.asMember, Context.joins, Context.joins]
    split <;> rfl
  refine ⟨u, hcx ▸ hu ▸ s.modCx_became fun x => x.woken.asMember f, u.setG d f.gd, ?_, u.setG_gotG d f.gd false⟩
  have hform (k : Core) : k.form s.cur.ctx (s.cur.core % 8) f = k.modCtx s.cur.ctx fun y => y.asMember f := by
    rw [Core.form_eq, Core.dealt_plain hres, hregs]
    rfl
  have e : s.takesFormed d f = u.setG d f.gd := by
    have hwrite (k : Core) := (k.modCtx s.cur.ctx Context.woken).writeG_asMember (d := d) s.cur.ctx f.gd f
    simp only [Core.modCtx_modCtx] at hwrite
    calc s.takesFormed d f
        = s.modHere fun k => ((k.modCtx s.cur.ctx Context.woken).writeG s.cur.ctx d f.gd).modCtx s.cur.ctx fun y => y.asMember f := by
          rw [s.takesFormed_eq d f]
          simp only [hform]
      _ = s.modHere fun k => (k.modCtx s.cur.ctx fun y => y.woken.asMember f).writeG s.cur.ctx d f.gd :=
          congrArg s.modHere (funext hwrite)
      _ = u.setG d f.gd := hu ▸ (s.modHere_modHere (fun k => k.modCtx s.cur.ctx fun y => y.woken.asMember f)
          fun k => k.writeG s.cur.ctx d f.gd).symm
  rw [execWform_formed hc hw, State.toResume, hres, e]

/-! ### Waiting (R106, R108) -/

theorem State.stall_cx (s : State) (k : BlockKind) : ∃ b, (s.stall k).cx = { s.cx with block := some b } :=
  ⟨_, s.cx_modCx fun x => { x with block := some { kind := k, since := _, off := s.cur.at_ } }⟩

theorem execWform_waits (hc : s.cleanG [a]) (hw : s.cx.wake = none) (hm : s.cx.f.kmsd = 0) (hin : s.cx.inWave = false) :
    s.does (.wform d a) fun t => t.cur.stalled = true ∧ t.cx.req = some (s.src.g a) ∧ t.cx.r = s.cx.r ∧
      ({ op := .waveFormation, arg := { group := s.cur.core / 8, core := s.cur.core }, lane := 0 } : Task) ∈ t.agenda := by
  have hleave : s.leaveWave s.cur.core s.cur.ctx = s := if_neg (by rw [show s.ctx s.cur.core s.cur.ctx = s.cx from rfl, hin]; nofun)
  obtain ⟨u, hu⟩ : ∃ u, u = (s.modCx fun x => { x with req := some (s.src.g a) }).post .waveFormation
    { group := bedOf s.cur.core, core := s.cur.core } := ⟨_, rfl⟩
  have hexec : exec (.wform d a) s = .next (u.stall .wform) := by
    rw [exec_wform, execWform, s.scalar_clean _ _ hc]
    simp only [hw, if_neg (not_not.2 hm), hleave, hu]
    rfl
  obtain ⟨b, hb⟩ := u.stall_cx .wform
  have hcx : u.cx = { s.cx with req := some (s.src.g a) } := hu ▸ s.cx_modCx fun x => { x with req := some (s.src.g a) }
  refine ⟨_, hexec, rfl, ?_, ?_, ?_⟩
  · rw [hb, hcx]
  · rw [hb, hcx]
  · rw [show (u.stall .wform).agenda = u.agenda from rfl, hu]
    exact List.mem_append_right _ List.mem_cons_self

theorem execWsync_over (hc : s.cleanG [a]) (hw : s.cx.wake = some .synced) :
    s.does (.wsync a) fun t => s.became t { s.cx with wake := none, req := none } := by
  refine ⟨_, ?_, s.modCx_became fun x => { x with wake := none, req := none }⟩
  rw [exec_wsync, execWsync, s.scalar_clean _ _ hc]
  simp only [hw]

theorem execWsync_waits (hc : s.cleanG [a]) (hw : s.cx.wake = none) (hin : s.cx.inWave = true)
    (hl : s.cx.waveLanes s.src.f.kmask &&& ~~~((s.src.g a).setWidth 32) = 0) (hr : s.released = true) :
    s.does (.wsync a) fun t => t.cur.stalled = true ∧ t.cx.req = some (s.src.g a) ∧ t.cx.r = s.cx.r ∧
      ({ op := .wsyncComplete, arg := { group := s.cur.core / 8, id := s.cx.waveNo }, lane := 0 } : Task) ∈ t.agenda := by
  obtain ⟨u, hu⟩ : ∃ u, u = (s.modCx fun x => { x with req := some (s.src.g a) }).post .wsyncComplete
    { group := bedOf s.cur.core, id := s.cx.waveNo } := ⟨_, rfl⟩
  have hexec : exec (.wsync a) s = .next (u.stall .wsync) := by
    rw [exec_wsync, execWsync, s.scalar_clean _ _ hc]
    simp only [hw, hin, hr, State.g, hl, hu]
    rfl
  obtain ⟨b, hb⟩ := u.stall_cx .wsync
  have hcx : u.cx = { s.cx with req := some (s.src.g a) } := hu ▸ s.cx_modCx fun x => { x with req := some (s.src.g a) }
  refine ⟨_, hexec, rfl, ?_, ?_, ?_⟩
  · rw [hb, hcx]
  · rw [hb, hcx]
  · rw [show (u.stall .wsync).agenda = u.agenda from rfl, hu]
    exact List.mem_append_right _ List.mem_cons_self

end

end Sys2Proof.Machine
end

section
/-! PROOFS. `reord`: the lanes go back to the hit sorter (O38; R109, R215). -/

namespace Sys2Proof.Machine

theorem State.coreOf_congr {s t : State} (hc : t.cores = s.cores) (hs : t.saved = s.saved) (l c : Nat) :
    t.coreOf l c = s.coreOf l c := by
  have hlive : t.live l c = s.live l c := by rw [State.live, State.live, State.core_congr hc]
  rw [State.coreOf, State.coreOf, hlive, State.core_congr hc, hs]

theorem State.bed_modBed (s : State) (b : Nat) (f : Bed → Bed) : (s.modBed b f).bed b = f (s.bed b) :=
  assoc_assocSet_same _ _ _ _

/-- Below level 2 an event of Brine goes on as it is. -/
theorem State.brineFrom_low {s : State} {l dst : Nat} (h : (s.coreOf l dst).brineLevel < 2) (ty : Nat) (w : Sender) (what : Word) :
    s.brineFrom ty l dst w what = some s := if_pos h

/-- Entries of a bed whose core records nothing enter in order, each with the next number. -/
theorem State.sorterTakes_low (l b : Nat) (w : Sender) (es : List HitEntry) (s : State)
    (h : (s.coreOf l (8 * b)).brineLevel < 2) : ∃ t, s.sorterTakes l b w es = some t ∧
      (t.bed b).sorter = (s.bed b).sorter ++ (es.zipIdx s.nextId).map (fun h => { h.1 with num := h.2 }) ∧
      t.cores = s.cores ∧ t.saved = s.saved ∧ t.mem = s.mem ∧ t.cur = s.cur := by
  induction es generalizing s with
  | nil => exact ⟨s, rfl, (List.append_nil _).symm, rfl, rfl, rfl, rfl⟩
  | cons e es ih =>
    obtain ⟨u, hu⟩ : ∃ u, u = { s with nextId := s.nextId + 1 }.modBed b fun x =>
      { x with sorter := x.sorter ++ [{ e with num := s.nextId }] } := ⟨_, rfl⟩
    have hbed : (u.bed b).sorter = (s.bed b).sorter ++ [{ e with num := s.nextId }] := by
      rw [hu, State.bed_modBed]
      rfl
    have hcores : u.cores = s.cores := hu ▸ rfl
    have hsaved : u.saved = s.saved := hu ▸ rfl
    obtain ⟨t, ht, hsorter, hcores', hsaved', hmem, hcur⟩ := ih u (State.coreOf_congr hcores hsaved l (8 * b) ▸ h)
    refine ⟨t, ?_, ?_, hcores'.trans hcores, hsaved'.trans hsaved, hmem.trans (hu ▸ rfl), hcur.trans (hu ▸ rfl)⟩
    · rw [State.sorterTakes, State.brineFrom_low h, Option.bind_some, ← ht, hu]
      rfl
    · rw [hsorter, hbed, List.append_assoc, show u.nextId = s.nextId + 1 from hu ▸ rfl]
      rfl

theorem zipIdx_map_num (es : List HitEntry) (n : Nat) : (es.zipIdx n).map (fun h => { h.1 with num := h.2 }) =
    es.zipIdx.map fun h => { h.1 with num := n + h.2 } := by
  rw [List.zipIdx_eq_map_add, List.map_map]
  rfl

/-- The events a `reord` puts on the agenda, and the end of its context. -/
def State.reordEnds (t : State) (bed : Nat) : State :=
  (((t.post .waveFormation { group := bed }).post .partialWaveTimeout { group := bed }).post .overflowReturn
    { core := 8 * bed, qport := .q1 }).endContext

theorem execReord_eq {s t : State} {a b : Fin 32} (hc : s.cleanG [a, b]) (hm : s.cx.f.kmsd = 0) (hctx : s.cur.ctx ≠ 0)
    (ha : (s.src.g b).toNat % 4 = 0) (hd : s.drained = true) (hdes : s.here.desync = none) (hrep : s.cx.reports = [])
    {es : List HitEntry} (hes : es = (lanesOf s.src.f.kmask).map (s.reorderEntry ((s.src.g a).setWidth 8) ((s.src.g b).setWidth 17)))
    (hroom : sorterPlaces (s.bed (s.cur.core / 8)).sorter + sorterPlaces es ≤ 256)
    (ht : s.sorterTakes s.here.launch (s.cur.core / 8) (s.sender s.cur.core s.cur.ctx) es = some t) :
    exec (.reord a b) s = .next (t.reordEnds (s.cur.core / 8)) := by
  have hclean : ¬ [a, b].any s.src.gBad = true := by simp [hc a, hc b]
  have hfits : ¬ 256 < sorterPlaces (s.bed (s.cur.core / 8)).sorter + sorterPlaces es := Nat.not_lt.2 hroom
  subst hes
  rw [exec_reord, execReord]
  refine congrArg Host.Outcome.next ((if_neg (not_not.2 hm)).trans ((if_neg hctx).trans ((if_neg hclean).trans
    ((if_neg (not_not.2 ha)).trans ((if_neg (by simp [hd])).trans ?_)))))
  rw [State.desyncFirst_of_none (.inl hdes), State.reportsFirst_of_none hrep]
  refine (if_neg hfits).trans ?_
  simp only [State.g, bedOf, ht]
  rfl

theorem execReord_returns {s : State} {a b : Fin 32} (hc : s.cleanG [a, b]) (hm : s.cx.f.kmsd = 0) (hctx : s.cur.ctx ≠ 0)
    (ha : (s.src.g b).toNat % 4 = 0) (hd : s.drained = true) (hdes : s.here.desync = none) (hrep : s.cx.reports = [])
    {es : List HitEntry} (hes : es = (lanesOf s.src.f.kmask).map (s.reorderEntry ((s.src.g a).setWidth 8) ((s.src.g b).setWidth 17)))
    (hroom : sorterPlaces (s.bed (s.cur.core / 8)).sorter + sorterPlaces es ≤ 256)
    (hlow : (s.coreOf s.here.launch (8 * (s.cur.core / 8))).brineLevel < 2) :
    s.does (.reord a b) fun t =>
      (t.bed (s.cur.core / 8)).sorter =
        (s.bed (s.cur.core / 8)).sorter ++ (es.zipIdx.map fun h => { h.1 with num := s.nextId + h.2 }) ∧
      t.cx.live = false ∧
      (∀ h ∈ es, h.key = (s.src.g a).setWidth 8 ∧ h.resume = some ((s.src.g b).setWidth 17) ∧ h.words.length = 8) ∧
      es.length = (lanesOf s.src.f.kmask).length ∧ ∀ k, t.byteAt k = s.byteAt k := by
  obtain ⟨t, ht, hsorter, -, -, hmem, hcur⟩ := s.sorterTakes_low s.here.launch (s.cur.core / 8) (s.sender s.cur.core s.cur.ctx) es hlow
  obtain ⟨u, hu⟩ : ∃ u, u = ((t.post .waveFormation { group := s.cur.core / 8 }).post .partialWaveTimeout
    { group := s.cur.core / 8 }).post .overflowReturn { core := 8 * (s.cur.core / 8), qport := .q1 } := ⟨_, rfl⟩
  have hends : t.reordEnds (s.cur.core / 8) = u.endContext := hu ▸ rfl
  have hctx' : u.cur.ctx = s.cur.ctx := by rw [hu, ← hcur]; rfl
  obtain ⟨hendmem, hendbeds, -⟩ := u.endContext_frame
  refine ⟨_, execReord_eq hc hm hctx ha hd hdes hrep hes hroom ht, ?_⟩
  rw [hends]
  refine ⟨?_, ?_, fun h hh => ?_, by rw [hes, List.length_map], State.byteAt_congr ((hendmem.trans (hu ▸ rfl)).trans hmem)⟩
  · rw [← zipIdx_map_num, ← hsorter, State.bed, hendbeds, hu]
    rfl
  · rw [State.endContext_cx, hctx']
    exact decide_eq_false hctx
  · obtain ⟨l, -, rfl⟩ := List.mem_map.1 (hes ▸ hh)
    exact ⟨rfl, rfl, by simp [State.reorderEntry]⟩

end Sys2Proof.Machine
end

section
/-! PROOFS. The requests of a bed (O38; R106). -/

namespace Sys2Proof.Machine

theorem oldest_mem {l : List (Nat × Nat × Fin 11)} {w : Nat × Nat × Fin 11} (h : oldest l = some w) : w ∈ l := by
  induction l generalizing w with
  | nil => cases h
  | cons v l ih =>
    simp only [oldest] at h
    split at h
    · exact Option.some.inj h ▸ List.mem_cons_self
    · next r hr =>
      split at h
      · exact Option.some.inj h ▸ List.mem_cons_of_mem _ (ih hr)
      · exact Option.some.inj h ▸ List.mem_cons_self

theorem oldest_some {l : List (Nat × Nat × Fin 11)} (h : l ≠ []) : ∃ w ∈ l, oldest l = some w := by
  cases hl : oldest l with
  | some w => exact ⟨w, oldest_mem hl, rfl⟩
  | none =>
    cases l with
    | nil => exact absurd rfl h
    | cons v l =>
      simp only [oldest] at hl
      split at hl
      · cases hl
      · split at hl <;> cases hl

/-- The contexts a core is searched for. -/
theorem mem_contexts (c : Fin 11) : c ∈ (List.range 11).map (Fin.ofNat 11) :=
  List.mem_map.2 ⟨c.val, List.mem_range.2 c.isLt, Fin.ext (Nat.mod_eq_of_lt c.isLt)⟩

/-- What a waiter of some cores is. -/
theorem State.mem_bedWaiters {s : State} {cores : List Nat} {f : Context → Bool} {w : Nat × Nat × Fin 11} :
    w ∈ s.bedWaiters cores f ↔ w.2.1 ∈ cores ∧ (s.core w.2.1).run = .running ∧ (s.ctx w.2.1 w.2.2).live = true ∧
      (s.ctx w.2.1 w.2.2).susp = false ∧ f (s.ctx w.2.1 w.2.2) = true ∧ (s.ctx w.2.1 w.2.2).block.map Block.since = some w.1 := by
  obtain ⟨since, n, c⟩ := w
  rw [State.bedWaiters, List.mem_flatMap]
  constructor
  · rintro ⟨n', hn, h⟩
    obtain ⟨c', -, h⟩ := List.mem_filterMap.1 h
    dsimp only at h
    split at h
    · next hcond =>
      obtain ⟨b, hb, he⟩ := Option.map_eq_some_iff.1 h
      obtain ⟨rfl, rfl, rfl⟩ : b.since = since ∧ n' = n ∧ c' = c := by simpa using he
      simp only [Bool.and_eq_true, decide_eq_true_eq, Bool.not_eq_true'] at hcond
      obtain ⟨⟨⟨hrun, hlive⟩, hsusp⟩, hf⟩ := hcond
      exact ⟨hn, hrun, hlive, hsusp, hf, Option.map_eq_some_iff.2 ⟨b, hb, rfl⟩⟩
    · cases h
  · rintro ⟨hn, hrun, hlive, hsusp, hf, hb⟩
    obtain ⟨b, hb, rfl⟩ := Option.map_eq_some_iff.1 hb
    refine ⟨n, hn, List.mem_filterMap.2 ⟨c, mem_contexts c, (if_pos ?_).trans (Option.map_eq_some_iff.2 ⟨b, hb, rfl⟩)⟩⟩
    simp only [Bool.and_eq_true, decide_eq_true_eq, Bool.not_eq_true']
    exact ⟨⟨⟨hrun, hlive⟩, hsusp⟩, hf⟩

/-- The requests that stand in a bed, one of each core that has any. -/
def State.formRequests (s : State) (b : Nat) : List (Nat × Nat × Fin 11) :=
  (bedCores b).filterMap fun n => oldest (s.bedWaiters [n] Context.forming)

/-- What a request asks for: key, ANY and PLAIN (R106). -/
def State.asks (s : State) (w : Nat × Nat × Fin 11) : Word := (s.ctx w.2.1 w.2.2).req.getD 0 &&& 0x3FF

theorem mem_bedCores {b n : Nat} : n ∈ bedCores b ↔ n / 8 = b := by
  rw [bedCores, List.mem_map]
  constructor
  · rintro ⟨i, hi, rfl⟩
    have := List.mem_range.1 hi
    omega
  · intro h
    exact ⟨n % 8, List.mem_range.2 (by omega), by omega⟩

theorem bedCores_nodup (b : Nat) : (bedCores b).Nodup :=
  List.nodup_range.map fun i j (h : 8 * b + i = 8 * b + j) => by omega

section
variable {s : State} {b : Nat}

theorem State.request_of_core {n : Nat} {w : Nat × Nat × Fin 11} (h : oldest (s.bedWaiters [n] Context.forming) = some w) :
    w.2.1 = n ∧ (s.core n).run = .running := by
  obtain ⟨hn, hrun, -⟩ := State.mem_bedWaiters.1 (oldest_mem h)
  have hn := List.mem_singleton.1 hn
  exact ⟨hn, hn ▸ hrun⟩

theorem State.formRequests_core {w : Nat × Nat × Fin 11} (h : w ∈ s.formRequests b) : w.2.1 / 8 = b := by
  obtain ⟨n, hn, hw⟩ := List.mem_filterMap.1 h
  rw [(State.request_of_core hw).1]
  exact mem_bedCores.1 hn

/-- No two requests are of one core. -/
theorem State.formRequests_nodup (s : State) (b : Nat) : ((s.formRequests b).map fun w => w.2.1).Nodup := by
  refine List.pairwise_map.2 (List.Pairwise.filterMap _ (fun n m hne w hw v hv => ?_) (bedCores_nodup b))
  rw [(State.request_of_core hw).1, (State.request_of_core hv).1]
  exact hne

theorem State.formRequests_inj {w v : Nat × Nat × Fin 11} (hw : w ∈ s.formRequests b) (hv : v ∈ s.formRequests b)
    (h : w.2.1 = v.2.1) : w = v := List.inj_on_of_nodup_map (s.formRequests_nodup b) hw hv h

theorem State.formRequests_keys_nodup (s : State) (b : Nat) : ((s.formRequests b).map Prod.snd).Nodup :=
  List.pairwise_map.2 ((List.pairwise_map.1 (s.formRequests_nodup b)).imp fun h e => h (congrArg Prod.fst e))

/-- With eight requests every core of the bed runs. -/
theorem State.running_of_requests (h8 : (s.formRequests b).length = 8) {n : Nat} (hn : n / 8 = b) : (s.core n).run = .running := by
  have hlen : (s.formRequests b).length = (bedCores b).length := by rw [h8, bedCores, List.length_map, List.length_range]
  obtain ⟨w, hw⟩ := Option.isSome_iff_exists.1 (List.filterMap_length_eq_length.1 hlen n (mem_bedCores.2 hn))
  exact (State.request_of_core hw).2

end

end Sys2Proof.Machine
end

section
/-! PROOFS. The barrier of a wave completes (O38; R108). -/

namespace Sys2Proof.Machine

theorem State.mem_members {s : State} {b num : Nat} {m : Nat × Fin 11} : m ∈ s.members b num ↔ m.1 / 8 = b ∧
    (s.ctx m.1 m.2).asFormed.live = true ∧ (s.ctx m.1 m.2).asFormed.inWave = true ∧ (s.ctx m.1 m.2).asFormed.waveNo = num := by
  obtain ⟨n, c⟩ := m
  simp only [State.members, List.mem_flatMap, mem_bedCores, List.mem_filterMap, Option.ite_none_right_eq_some, Option.some.injEq,
    Bool.and_eq_true, decide_eq_true_eq]
  constructor
  · rintro ⟨n', hn, c', -, ⟨⟨hlive, hin⟩, hnum⟩, he⟩
    obtain ⟨rfl, rfl⟩ := Prod.mk.inj he
    exact ⟨hn, hlive, hin, hnum⟩
  · rintro ⟨hn, hlive, hin, hnum⟩
    exact ⟨n, hn, c, mem_contexts c, ⟨⟨hlive, hin⟩, hnum⟩, rfl⟩

/-- A context waits in `wsync` for its wave, whose number is given. -/
def Context.syncing (num : Nat) (x : Context) : Bool :=
  decide (x.block.map Block.kind = some .wsync) && x.req.isSome && x.wake.isNone && x.inWave && decide (x.waveNo = num)

theorem Context.syncing_iff {num : Nat} {x : Context} : x.syncing num = true ↔ x.block.map Block.kind = some .wsync ∧
    x.req.isSome = true ∧ x.wake = none ∧ x.inWave = true ∧ x.waveNo = num := by
  simp [Context.syncing, and_assoc]

/-- The barrier completes for the participants, when every one of them waits and their masks agree. -/
theorem execWsyncComplete_agreed {s : State} {w : Nat × Nat × Fin 11} {m : Nat × Fin 11} {named : Word}
    (hold : oldest (s.bedWaiters (bedCores s.ev.group) (Context.syncing s.ev.id)) = some w) (hw : w.2 = m)
    (hmem : s.members s.ev.group s.ev.id = [m]) (hreq : (s.ctx m.1 m.2).req = some named)
    (hsync : (s.ctx m.1 m.2).syncing s.ev.id = true) (hsusp : (s.ctx m.1 m.2).susp = false)
    (hlanes : (s.ctx m.1 m.2).asFormed.waveLanes 0xF &&& named.setWidth 32 ≠ 0) :
    exec .wsyncComplete s = .next ((s.modCtx m.1 m.2 fun x => { x with wake := some .synced }).post .wsyncComplete
      { group := s.ev.group, id := s.ev.id }) := by
  subst hw
  have hparts : (s.members s.ev.group s.ev.id).filter (fun p => decide ((s.ctx p.1 p.2).asFormed.waveLanes 0xF &&&
      ((s.ctx w.2.1 w.2.2).req.getD 0).setWidth 32 ≠ 0)) = [w.2] := by
    rw [hmem, hreq]
    exact List.filter_cons_of_pos (decide_eq_true hlanes)
  rw [exec_wsyncComplete, execWsyncComplete]
  unfold Context.syncing at hold hsync
  simp only [hold, hparts]
  refine congrArg Host.Outcome.next ((if_pos ?_).trans ?_)
  · refine List.all_eq_true.2 fun p hp => ?_
    rw [List.mem_singleton.1 hp, hsusp]
    exact Bool.and_eq_true_iff.2 ⟨hsync, rfl⟩
  · simp

theorem execWsyncComplete_alone {s : State} {n : Nat} {c : Fin 11} {named : Word}
    (hmem : s.members s.ev.group s.ev.id = [(8 * s.ev.group + n, c)]) (hrun : (s.core (8 * s.ev.group + n)).run = .running)
    (hblock : (s.ctx (8 * s.ev.group + n) c).block.map Block.kind = some .wsync) (hwake : (s.ctx (8 * s.ev.group + n) c).wake = none)
    (hsusp : (s.ctx (8 * s.ev.group + n) c).susp = false) (hreq : (s.ctx (8 * s.ev.group + n) c).req = some named)
    (hlanes : (s.ctx (8 * s.ev.group + n) c).waveLanes 0xF &&& named.setWidth 32 ≠ 0) :
    s.does .wsyncComplete fun t => (t.ctx (8 * s.ev.group + n) c).wake = some .synced ∧ t.mem = s.mem := by
  obtain ⟨m, hm⟩ : ∃ m, m = 8 * s.ev.group + n := ⟨_, rfl⟩
  rw [← hm] at hmem hrun hblock hwake hsusp hreq hlanes ⊢
  have hformed := Context.asFormed_of_wake_none hwake
  obtain ⟨hbed, hlive, hin, hnum⟩ := State.mem_members.1 (hmem ▸ List.mem_singleton_self (m, c))
  rw [hformed] at hlive hin hnum
  have hsync : (s.ctx m c).syncing s.ev.id = true := Context.syncing_iff.2 ⟨hblock, hreq ▸ rfl, hwake, hin, hnum⟩
  obtain ⟨b, hb, -⟩ := Option.map_eq_some_iff.1 hblock
  have hwaits : (b.since, m, c) ∈ s.bedWaiters (bedCores s.ev.group) (Context.syncing s.ev.id) :=
    State.mem_bedWaiters.2 ⟨mem_bedCores.2 hbed, hrun, hlive, hsusp, hsync, Option.map_eq_some_iff.2 ⟨b, hb, rfl⟩⟩
  obtain ⟨w, hw, hold⟩ := oldest_some (List.ne_nil_of_mem hwaits)
  have hsame : w.2 = (m, c) := by
    obtain ⟨hwb, -, hwl, -, hws, -⟩ := State.mem_bedWaiters.1 hw
    obtain ⟨-, -, hwwake, hwin, hwnum⟩ := Context.syncing_iff.1 hws
    refine List.mem_singleton.1 (hmem ▸ State.mem_members.2 ⟨mem_bedCores.1 hwb, ?_⟩)
    rw [Context.asFormed_of_wake_none hwwake]
    exact ⟨hwl, hwin, hwnum⟩
  refine ⟨_, execWsyncComplete_agreed hold hsame hmem hreq hsync hsusp (hformed.symm ▸ hlanes), ?_, rfl⟩
  exact congrArg Context.wake (s.ctx_modCtx m c fun x => { x with wake := some .synced })

end Sys2Proof.Machine
end

section
/-! PROOFS. A formation (O38; R106, R107, R284): which of its cases holds, and what each of them gives the members. -/

namespace Sys2Proof.Machine

/-! ### The cases (R106) -/

section
variable {s : State} {b : Nat}

/-- A bed whose first core records nothing forms without a replay. -/
theorem State.formsReplay_low (h : (s.core (8 * b)).brineLevel < 2) : s.formsReplay b = false := by
  rw [State.formsReplay, decide_eq_false (Nat.not_le.2 h), Bool.false_and]

/-- An event of a live core whose level is below that of the event is not recorded. -/
theorem State.brineRecord_low {l n : Nat} (hl : s.live l n = true) (h : (s.core n).brineLevel < 2) (ctx ty : Nat) (v1 v2 : Word) :
    s.brineRecord 2 l n ctx ty v1 v2 = s := by
  have hcore : s.coreOf l n = s.core n := if_pos hl
  exact if_pos (.inl (hcore ▸ h))

/-- Requests that differ. -/
def State.refuses (s : State) (reqs : List (Nat × Nat × Fin 11)) : State :=
  reqs.foldl (fun s v => s.modCtx v.2.1 v.2.2 fun x => { x with wake := some (.fault Cause.wmask) }) s

/-- The members of a plain wave: KMASK of each, at its place. -/
def State.plainMembers (s : State) (reqs : List (Nat × Nat × Fin 11)) : BitVec 32 :=
  reqs.foldl (fun m v => setElem 4 (v.2.1 % 8) m (s.ctx v.2.1 v.2.2).f.kmask) 0

/-- Every participant joins. -/
def State.joinAll (s : State) (reqs : List (Nat × Nat × Fin 11)) (plain : Bool) (num : Nat) (es : List HitEntry)
    (members : BitVec 32) (key : Byte) : State :=
  reqs.foldl (fun s v => s.join v.2.1 v.2.2 plain num es members key) s

/-- One formation more of a bed. -/
def State.countsForm (s : State) (b : Nat) : State := s.modBed b fun x => { x with forms := x.forms + 1 }

variable {w : Nat × Nat × Fin 11} {rest : List (Nat × Nat × Fin 11)}

theorem execWaveFormation_differ (h : s.formRequests s.ev.group = w :: rest) (h8 : (w :: rest).length = 8)
    (hd : ∃ v ∈ w :: rest, s.asks v ≠ s.asks w) : exec .waveFormation s = .next (s.refuses (w :: rest)) := by
  have hany : ((w :: rest).any fun v => decide (s.asks v ≠ s.asks w)) = true := by simpa using hd
  rw [exec_waveFormation, execWaveFormation]
  rw [State.formRequests] at h
  simp only [h, if_neg (show ¬ (w :: rest).length < 8 by omega)]
  exact congrArg Host.Outcome.next (if_pos hany)

/-- What a plain wave leaves: every request of the bed joins. -/
def State.formsPlain (s : State) (b : Nat) (reqs : List (Nat × Nat × Fin 11)) : State :=
  (s.joinAll reqs true (s.bed b).forms.toNat [] (s.plainMembers reqs) 0).countsForm b

/-- The entries of a wave leave the sorter; and what a formation of a bin leaves: the requests join. -/
def State.takesEntries (s : State) (b : Nat) (key : Byte) (es : List HitEntry) : State :=
  s.modBed b fun x => { x with sorter := dropEntries key es x.sorter }
def waveMembers (es : List HitEntry) : BitVec 32 := BitVec.ofNat 32 (2 ^ es.length - 1)
def State.formsBin (s : State) (b : Nat) (reqs : List (Nat × Nat × Fin 11)) (key : Byte) (es : List HitEntry) : State :=
  ((s.takesEntries b key es).joinAll reqs false (s.bed b).forms.toNat es (waveMembers es) key).countsForm b

theorem any_differ_false (ha : ∀ v ∈ w :: rest, s.asks v = s.asks w) :
    ¬ ((w :: rest).any fun v => decide (s.asks v ≠ s.asks w)) = true := by
  rw [List.any_eq_true]
  rintro ⟨v, hv, hne⟩
  exact of_decide_eq_true hne (ha v hv)

theorem State.live_of_requests (h8 : (s.formRequests b).length = 8) : s.live (s.core (8 * b)).launch (8 * b) = true := by
  rw [State.live, State.running_of_requests h8 (by omega), decide_eq_true rfl]
  rfl

theorem execWaveFormation_plain (h : s.formRequests s.ev.group = w :: rest) (h8 : (w :: rest).length = 8)
    (ha : ∀ v ∈ w :: rest, s.asks v = s.asks w) (hlow : (s.core (8 * s.ev.group)).brineLevel < 2)
    (hplain : bitOf (s.asks w) 9 = true) : exec .waveFormation s = .next (s.formsPlain s.ev.group (w :: rest)) := by
  have hrecord := State.brineRecord_low (State.live_of_requests (h ▸ h8)) hlow 0 9 plainBin
    ((s.plainMembers (w :: rest)).setWidth 64)
  rw [exec_waveFormation, execWaveFormation]
  rw [State.formRequests] at h
  simp only [h, if_neg (show ¬ (w :: rest).length < 8 by omega), State.formsReplay_low hlow]
  refine congrArg Host.Outcome.next ((if_neg (any_differ_false ha)).trans ((if_pos hplain).trans ((if_neg nofun).trans ?_)))
  exact congrArg (fun t : State => (t.joinAll (w :: rest) true (s.bed s.ev.group).forms.toNat [] (s.plainMembers (w :: rest)) 0).countsForm
    s.ev.group) hrecord

/-- What a run of joins leaves of the state. -/
theorem State.joinAll_frame (s : State) (reqs : List (Nat × Nat × Fin 11)) (plain : Bool) (num : Nat) (es : List HitEntry)
    (members : BitVec 32) (key : Byte) : (s.joinAll reqs plain num es members key).beds = s.beds ∧
      (s.joinAll reqs plain num es members key).mem = s.mem ∧ ∀ n,
      ((s.joinAll reqs plain num es members key).core n).kbrine = (s.core n).kbrine ∧
      ((s.joinAll reqs plain num es members key).core n).launch = (s.core n).launch ∧
      ((s.joinAll reqs plain num es members key).core n).run = (s.core n).run := by
  have hctx (t : State) (m n : Nat) (c : Fin 11) (f : Context → Context) : ((t.modCtx m c f).core n).kbrine = (t.core n).kbrine ∧
      ((t.modCtx m c f).core n).launch = (t.core n).launch ∧ ((t.modCtx m c f).core n).run = (t.core n).run := by
    by_cases hn : n = m
    · subst hn
      rw [State.modCtx, State.core_modCore]
      exact ⟨rfl, rfl, rfl⟩
    · rw [State.modCtx, State.core_modCore_other _ _ _ _ hn]
      exact ⟨rfl, rfl, rfl⟩
  have hbeds (t : State) (v : Nat × Nat × Fin 11) : (t.join v.2.1 v.2.2 plain num es members key).beds = t.beds := rfl
  have hmem (t : State) (v : Nat × Nat × Fin 11) : (t.join v.2.1 v.2.2 plain num es members key).mem = t.mem := rfl
  refine ⟨view_foldl_of_kept (view := State.beds) (fun t v _ => hbeds t v) s,
    view_foldl_of_kept (view := State.mem) (fun t v _ => hmem t v) s,
    fun n => ⟨?_, ?_, ?_⟩⟩
  · exact view_foldl_of_kept (view := fun t : State => (t.core n).kbrine) (fun t v _ => (hctx t _ _ _ _).1) s
  · exact view_foldl_of_kept (view := fun t : State => (t.core n).launch) (fun t v _ => (hctx t _ _ _ _).2.1) s
  · exact view_foldl_of_kept (view := fun t : State => (t.core n).run) (fun t v _ => (hctx t _ _ _ _).2.2) s

theorem execWaveFormation_bin (h : s.formRequests s.ev.group = w :: rest) (h8 : (w :: rest).length = 8)
    (ha : ∀ v ∈ w :: rest, s.asks v = s.asks w) (hlow : (s.core (8 * s.ev.group)).brineLevel < 2)
    (hplain : bitOf (s.asks w) 9 = false) {key : Byte} (hchoose : ∀ now tmo, (s.bed s.ev.group).choose (s.asks w) now tmo = some key)
    {es : List HitEntry} (hes : takeEntries ((s.bed s.ev.group).bin key) = es) :
    exec .waveFormation s = .next ((s.formsBin s.ev.group (w :: rest) key es).post .overflowReturn
      { core := 8 * s.ev.group, qport := .q1 }) := by
  obtain ⟨t, ht⟩ : ∃ t, t = (s.takesEntries s.ev.group key es).joinAll (w :: rest) false (s.bed s.ev.group).forms.toNat es
    (waveMembers es) key := ⟨_, rfl⟩
  have hcore : (t.core (8 * s.ev.group)).kbrine = (s.core (8 * s.ev.group)).kbrine ∧
      (t.core (8 * s.ev.group)).launch = (s.core (8 * s.ev.group)).launch ∧
      (t.core (8 * s.ev.group)).run = (s.core (8 * s.ev.group)).run :=
    ht ▸ (State.joinAll_frame _ _ _ _ _ _ _).2.2 (8 * s.ev.group)
  obtain ⟨hbrine, hlaunch, hrun⟩ := hcore
  have hlive : t.live (s.core (8 * s.ev.group)).launch (8 * s.ev.group) = true := by
    rw [← State.live_of_requests (h ▸ h8), State.live, State.live, hlaunch, hrun]
  have hlow' : (t.core (8 * s.ev.group)).brineLevel < 2 := by
    rw [Core.brineLevel, hbrine]
    exact hlow
  have hrecord := State.brineRecord_low hlive hlow' 0 9 (key.setWidth 64) ((waveMembers es).setWidth 64)
  rw [exec_waveFormation, execWaveFormation]
  rw [State.formRequests] at h
  rw [State.asks] at hchoose
  simp only [h, if_neg (show ¬ (w :: rest).length < 8 by omega), State.formsReplay_low hlow, hchoose, hes]
  refine congrArg Host.Outcome.next ((if_neg (any_differ_false ha)).trans ((if_neg (Bool.eq_false_iff.1 hplain)).trans
    ((if_neg nofun).trans ?_)))
  subst ht
  exact congrArg (fun t : State => (t.countsForm s.ev.group).post .overflowReturn { core := 8 * s.ev.group, qport := .q1 }) hrecord

end

end Sys2Proof.Machine
end

section
/-! PROOFS. What a formation gives its members, and leaves in the sorter (O38; R106, R107, R284). -/

namespace Sys2Proof.Machine

/-! ### The entries of a bin (R107, R284) -/

/-- A run over a list that keeps all but the first `n` elements with a property: the others stay in order. -/
theorem drop_first_filter {α : Type} (p : α → Bool) (n : Nat) (l acc : List α) (r : Nat) :
    let out := (l.foldl (fun (r : Nat × List α) e => if p e && decide (r.1 < n) then (r.1 + 1, r.2) else (r.1, e :: r.2)) (r, acc)).2.reverse
    out.filter p = acc.reverse.filter p ++ (l.filter p).drop (n - r) ∧
      out.filter (fun e => !p e) = acc.reverse.filter (fun e => !p e) ++ l.filter fun e => !p e := by
  induction l generalizing r acc with
  | nil => simp
  | cons e l ih =>
    intro out
    by_cases hp : p e = true
    · by_cases hr : r < n
      · have hout : out = (l.foldl (fun (r : Nat × List α) e => if p e && decide (r.1 < n) then (r.1 + 1, r.2) else (r.1, e :: r.2))
            (r + 1, acc)).2.reverse := by simp [out, hp, hr]
        obtain ⟨hkey, hother⟩ := ih acc (r + 1)
        rw [hout, hkey, hother]
        simp [hp, show n - r = n - (r + 1) + 1 by omega]
      · have hout : out = (l.foldl (fun (r : Nat × List α) e => if p e && decide (r.1 < n) then (r.1 + 1, r.2) else (r.1, e :: r.2))
            (r, e :: acc)).2.reverse := by simp [out, hr]
        obtain ⟨hkey, hother⟩ := ih (e :: acc) r
        rw [hout, hkey, hother]
        simp [hp, show n - r = 0 by omega]
    · have hout : out = (l.foldl (fun (r : Nat × List α) e => if p e && decide (r.1 < n) then (r.1 + 1, r.2) else (r.1, e :: r.2))
          (r, e :: acc)).2.reverse := by simp [out, hp]
      obtain ⟨hkey, hother⟩ := ih (e :: acc) r
      rw [hout, hkey, hother]
      simp [hp]

section
variable {b : Bed} {key : Byte}

/-- A bin of plain entries that has as many as a wave takes gives its first 32. -/
theorem takeEntries_full (hplain : ∀ e ∈ b.bin key, e.resume = none) :
    takeEntries (b.bin key) = (b.bin key).take 32 := by
  cases hb : b.bin key with
  | nil => rfl
  | cons e l =>
    rw [hb] at hplain
    rw [takeEntries, hplain e List.mem_cons_self, List.filter_eq_self.2 fun x hx => decide_eq_true (hplain x hx)]

theorem dropEntries_full (h32 : 32 ≤ (b.bin key).length) (hplain : ∀ e ∈ b.bin key, e.resume = none) :
    (dropEntries key ((b.bin key).take 32) b.sorter).filter (fun e => decide (e.key = key)) = (b.bin key).drop 32 ∧
      (dropEntries key ((b.bin key).take 32) b.sorter).filter (fun e => decide (e.key ≠ key)) =
        b.sorter.filter fun e => decide (e.key ≠ key) := by
  have hlen : ((b.bin key).take 32).length = 32 := List.length_take_of_le h32
  have hhead : ((b.bin key).take 32).head?.map HitEntry.resume = some none := by
    cases hb : b.bin key with
    | nil => simp [hb] at h32
    | cons e l => simp [hplain e (hb ▸ List.mem_cons_self)]
  have hsame (e : HitEntry) (he : e ∈ b.sorter) : (decide (e.key = key) &&
      decide (((b.bin key).take 32).head?.map HitEntry.resume = some e.resume)) = decide (e.key = key) := by
    by_cases hk : e.key = key
    · have hmem : e ∈ b.bin key := List.mem_filter.2 ⟨he, decide_eq_true hk⟩
      rw [hhead, hplain e hmem, decide_eq_true rfl, Bool.and_true]
    · rw [decide_eq_false hk, Bool.false_and]
  have hdrop : dropEntries key ((b.bin key).take 32) b.sorter = (b.sorter.foldl (fun (r : Nat × List HitEntry) e =>
      if decide (e.key = key) && decide (r.1 < 32) then (r.1 + 1, r.2) else (r.1, e :: r.2)) (0, [])).2.reverse := by
    rw [dropEntries]
    refine congrArg (fun r : Nat × List HitEntry => r.2.reverse) (List.foldl_ext _ _ _ fun r e he => ?_)
    beta_reduce
    rw [hsame e he, hlen]
  obtain ⟨hkey, hother⟩ := drop_first_filter (fun e : HitEntry => decide (e.key = key)) 32 b.sorter [] 0
  rw [hdrop]
  simp only [decide_not]
  exact ⟨hkey, hother⟩

/-- A request for a key whose bin has as many entries as a wave takes gets that bin. -/
theorem Bed.choose_full (h32 : 32 ≤ (b.bin key).length) (now tmo : Nat) : b.choose (key.setWidth 64) now tmo = some key := by
  have hq (full : Bool) : binQualifies full now tmo (b.bin key) = true := by
    cases hb : b.bin key with
    | nil => simp [hb] at h32
    | cons e l =>
      rw [hb] at h32
      rw [binQualifies, decide_eq_true h32]
      rfl
  have hbit : bitOf (key.setWidth 64 : Word) 8 = false := by simp [bitOf]
  rw [Bed.choose, hbit]
  simp [hq]

end

/-! ### What a member is told (R107) -/

/-- What a formation gives a participant whose context is given, of the core at a place. -/
def Context.formedAs (x : Context) (place : Nat) (plain : Bool) (num : Nat) (es : List HitEntry) (members : BitVec 32)
    (key : Byte) : Formed :=
  let resume := (es.head?).bind HitEntry.resume
  let own : Mask := if plain then x.f.kmask else ownLanes place es.length
  let gd : Word := members.setWidth 64 ||| (if plain then (0 : Word) else (key.setWidth 64 : Word) <<< 32) |||
    (ofBool 64 resume.isSome <<< 40)
  if own = 0 then { gd := gd }
  else
    { gd := gd, wave := some (BitVec.ofNat 64 (2 ^ 31 + num), klaneOf place own), own := if plain then none else some own,
      regs := if plain then 0 else if resume.isSome then 8 else 4, entries := es, resume := resume }

theorem State.join_eq (s : State) (n : Nat) (x : Fin 11) (plain : Bool) (num : Nat) (es : List HitEntry) (members : BitVec 32)
    (key : Byte) : s.join n x plain num es members key = s.modCtx n x fun y =>
      { y with wake := some (.formed ((s.ctx n x).formedAs (n % 8) plain num es members key)) } := rfl

theorem State.ctx_modCtx_other (s : State) {n : Nat} {c : Fin 11} (f : Context → Context) {m : Nat × Fin 11} (h : m ≠ (n, c)) :
    (s.modCtx n c f).ctx m.1 m.2 = s.ctx m.1 m.2 :=
  s.ctx_modCore_other (Core.onlyCtx_modCtx _ c f) h

section
variable {s t : State} {b : Nat} {w : Nat × Nat × Fin 11}

/-- Every participant has what the formation gives it. -/
theorem State.ctx_joinAll (hw : w ∈ s.formRequests b) (ht : t.cores = s.cores) (plain : Bool) (num : Nat)
    (es : List HitEntry) (members : BitVec 32) (key : Byte) :
    (t.joinAll (s.formRequests b) plain num es members key).ctx w.2.1 w.2.2 = { s.ctx w.2.1 w.2.2 with
      wake := some (.formed ((s.ctx w.2.1 w.2.2).formedAs (w.2.1 % 8) plain num es members key)) } := by
  have hstart : t.ctx w.2.1 w.2.2 = s.ctx w.2.1 w.2.2 := by rw [State.ctx, State.core_congr ht]; rfl
  rw [← hstart]
  refine State.foldl_ctx (key := Prod.snd) (R := fun v old new => new = { old with
    wake := some (.formed (old.formedAs (v.2.1 % 8) plain num es members key)) }) (fun v _ u m hm => ?_) (fun v _ u => ?_)
    (s.formRequests_keys_nodup b) t hw
  · exact State.ctx_modCtx_other _ _ hm
  · rw [State.join_eq, State.ctx_modCtx]

/-- Requests that differ: each gets the fault. -/
theorem State.ctx_refuses (hw : w ∈ s.formRequests b) :
    (s.refuses (s.formRequests b)).ctx w.2.1 w.2.2 = { s.ctx w.2.1 w.2.2 with wake := some (.fault Cause.wmask) } := by
  refine State.foldl_ctx (key := Prod.snd) (R := fun _ old new => new = { old with wake := some (.fault Cause.wmask) })
    (fun v _ u m hm => ?_) (fun v _ u => ?_) (s.formRequests_keys_nodup b) s hw
  · exact State.ctx_modCtx_other _ _ hm
  · rw [State.ctx_modCtx]

theorem elem_klaneOf (place : Nat) (own : Mask) {l : Nat} (hl : l < 4) :
    elem 8 l (klaneOf place own) = if bitOf own l then BitVec.ofNat 8 (4 * place + l) else (0xFF : BitVec 8) := by
  refine view_foldl_of_written (view := fun v : Word => elem 8 l v) (P := fun i => i = l) (fun v i _ h => ?_) (fun v i _ h => ?_)
    ⟨l, List.mem_range.2 hl, rfl⟩ 0
  · subst h
    exact elem_setElem_same v _ (by omega)
  · exact elem_setElem_other v _ (by omega) (Ne.symm h)

/-- KMASK of every member stands at its place in the members of a plain wave. -/
theorem State.elem_plainMembers (hw : w ∈ s.formRequests b) :
    elem 4 (w.2.1 % 8) (s.plainMembers (s.formRequests b)) = (s.ctx w.2.1 w.2.2).f.kmask := by
  refine view_foldl_of_written (view := fun m : BitVec 32 => elem 4 (w.2.1 % 8) m) (P := fun v => v = w) (fun m v _ h => ?_)
    (fun m v hv h => ?_) ⟨w, hw, rfl⟩ 0
  · subst h
    exact elem_setElem_same m _ (by omega)
  · refine elem_setElem_other m _ (by omega) fun e => h (State.formRequests_inj hv hw ?_)
    have := State.formRequests_core hw
    have := State.formRequests_core hv
    omega

/-- Thirty-two entries give every core all its lanes. -/
theorem ownLanes_full {place : Nat} (h : place < 8) : ownLanes place 32 = 0xF := by
  interval_cases place <;> rfl

/-- A plain wave's member with active lanes. -/
theorem Context.formedAs_plain {x : Context} (hx : x.f.kmask ≠ 0) (place num : Nat) (members : BitVec 32) :
    x.formedAs place true num [] members 0 = { gd := members.setWidth 64, wave := some (BitVec.ofNat 64 (2 ^ 31 + num),
      klaneOf place x.f.kmask) } := by
  have hgd : (members.setWidth 64 : Word) ||| 0 ||| (ofBool 64 false <<< 40) = members.setWidth 64 := by simp [ofBool]
  rw [Context.formedAs]
  exact (if_neg hx).trans (congrArg (fun g : Word => ({ gd := g, wave := some (BitVec.ofNat 64 (2 ^ 31 + num),
    klaneOf place x.f.kmask) } : Formed)) hgd)

/-- A member of a wave of 32 plain entries of a bin. -/
theorem Context.formedAs_full {x : Context} {place : Nat} (hp : place < 8) (num : Nat) (key : Byte) {es : List HitEntry}
    (h32 : es.length = 32) (hplain : ∀ e ∈ es, e.resume = none) :
    x.formedAs place false num es (waveMembers es) key =
      { gd := BitVec.ofNat 64 (2 ^ 32 - 1 + key.toNat * 2 ^ 32)
        wave := some (BitVec.ofNat 64 (2 ^ 31 + num), klaneOf place 0xF), own := some 0xF, regs := 4, entries := es } := by
  have hres : es.head?.bind HitEntry.resume = none := by
    cases es with
    | nil => rfl
    | cons e l => exact hplain e List.mem_cons_self
  have hmembers : waveMembers es = 0xFFFFFFFF := by
    rw [waveMembers, h32]
    rfl
  have hgd : ((0xFFFFFFFF#32).setWidth 64 : Word) ||| (key.setWidth 64 : Word) <<< 32 ||| ofBool 64 false <<< 40 =
      BitVec.ofNat 64 (2 ^ 32 - 1 + key.toNat * 2 ^ 32) := by
    apply BitVec.eq_of_toNat_eq
    have hor := Nat.two_pow_add_eq_or_of_lt (show 2 ^ 32 - 1 < 2 ^ 32 by norm_num) key.toNat
    have hshift : ((key.setWidth 64 : Word) <<< 32).toNat = 2 ^ 32 * key.toNat := by
      rw [BitVec.toNat_shiftLeft, BitVec.toNat_setWidth, Nat.shiftLeft_eq]
      omega
    have hones : (0xFFFFFFFF#32).toNat % 2 ^ 64 = 2 ^ 32 - 1 := rfl
    have hzero : (ofBool 64 false <<< 40 : Word) = 0#64 := rfl
    rw [hzero, BitVec.or_zero, BitVec.toNat_or, hshift, BitVec.toNat_setWidth, hones, Nat.or_comm, ← hor, BitVec.toNat_ofNat]
    have := key.isLt
    omega
  rw [Context.formedAs]
  simp only [hres, h32, hmembers, ownLanes_full hp]
  exact congrArg (fun g : Word => ({ gd := g, wave := some (BitVec.ofNat 64 (2 ^ 31 + num), klaneOf place 0xF), own := some 0xF,
                                     regs := 4, entries := es } : Formed)) hgd

theorem elem_setWidth64 (m : BitVec 32) {i : Nat} (hi : i < 8) : elem 4 i (m.setWidth 64 : Word) = elem 4 i m := by
  apply BitVec.eq_of_getLsbD_eq
  intro j hj
  have : 4 * i + j < 64 := by omega
  simp [elem, hj, this]

end

end Sys2Proof.Machine
end

section
/-! PROOFS. Forming a wave, its barrier and `reord` (O38; R106 to R109, R283, R284). -/

namespace Sys2Proof.Machine

section
variable {s : State}

theorem execWaveFormation_refuses (h8 : (s.formRequests s.ev.group).length = 8)
    (hd : ∃ w ∈ s.formRequests s.ev.group, ∃ v ∈ s.formRequests s.ev.group, s.asks w ≠ s.asks v) :
    s.does .waveFormation fun t => t.mem = s.mem ∧ t.beds = s.beds ∧ ∀ w ∈ s.formRequests s.ev.group,
      t.ctx w.2.1 w.2.2 = { s.ctx w.2.1 w.2.2 with wake := some (.fault Cause.wmask) } := by
  cases hr : s.formRequests s.ev.group with
  | nil => simp [hr] at h8
  | cons u rest =>
    have hhead : ∃ v ∈ u :: rest, s.asks v ≠ s.asks u := by
      obtain ⟨w, hw, v, hv, hne⟩ := hr ▸ hd
      by_contra h
      have hsame {w} (hw : w ∈ u :: rest) : s.asks w = s.asks u := by_contra fun hne => h ⟨w, hw, hne⟩
      exact hne ((hsame hw).trans (hsame hv).symm)
    refine ⟨_, execWaveFormation_differ hr (hr ▸ h8) hhead, ?_, ?_, fun w hw => ?_⟩
    · refine view_foldl_of_kept (view := State.mem) (fun t v _ => ?_) s
      rfl
    · refine view_foldl_of_kept (view := State.beds) (fun t v _ => ?_) s
      rfl
    · rw [← hr] at hw ⊢
      exact State.ctx_refuses hw

theorem execWaveFormation_formsPlain (h8 : (s.formRequests s.ev.group).length = 8)
    (ha : ∀ w ∈ s.formRequests s.ev.group, ∀ v ∈ s.formRequests s.ev.group, s.asks w = s.asks v)
    (hp : ∀ w ∈ s.formRequests s.ev.group, bitOf (s.asks w) 9 = true) (hlow : (s.core (8 * s.ev.group)).brineLevel < 2) :
    exec .waveFormation s = .next (s.formsPlain s.ev.group (s.formRequests s.ev.group)) := by
  cases hr : s.formRequests s.ev.group with
  | nil => simp [hr] at h8
  | cons u rest =>
    rw [hr] at ha hp
    exact execWaveFormation_plain hr (hr ▸ h8) (fun v hv => ha v hv u List.mem_cons_self) hlow (hp u List.mem_cons_self)

/-- The bed after a plain formation, and its members. -/
theorem State.formsPlain_leaves (b : Nat) : ((s.formsPlain b (s.formRequests b)).bed b).forms = (s.bed b).forms + 1 ∧
    (s.formsPlain b (s.formRequests b)).mem = s.mem ∧ ∀ w ∈ s.formRequests b, (s.ctx w.2.1 w.2.2).f.kmask ≠ 0 →
      ∃ (f : Formed) (places : Word),
        (s.formsPlain b (s.formRequests b)).ctx w.2.1 w.2.2 = { s.ctx w.2.1 w.2.2 with wake := some (.formed f) } ∧
        (∀ v ∈ s.formRequests b, elem 4 (v.2.1 % 8) f.gd = (s.ctx v.2.1 v.2.2).f.kmask) ∧
        f.own = none ∧ f.regs = 0 ∧ f.resume = none ∧
        f.wave = some (BitVec.ofNat 64 (2 ^ 31 + (s.bed b).forms.toNat), places) ∧
        ∀ l, l < 4 → elem 8 l places =
          if bitOf (s.ctx w.2.1 w.2.2).f.kmask l then BitVec.ofNat 8 (4 * (w.2.1 % 8) + l) else (0xFF : BitVec 8) := by
  obtain ⟨hbeds, hmem, -⟩ := s.joinAll_frame (s.formRequests b) true (s.bed b).forms.toNat [] (s.plainMembers (s.formRequests b)) 0
  refine ⟨?_, hmem, fun w hw hx => ?_⟩
  · rw [State.formsPlain, State.countsForm, State.bed_modBed, State.bed, hbeds]
    rfl
  · have hctx := State.ctx_joinAll hw rfl true (s.bed b).forms.toNat [] (s.plainMembers (s.formRequests b)) 0
    rw [Context.formedAs_plain hx] at hctx
    refine ⟨_, klaneOf (w.2.1 % 8) (s.ctx w.2.1 w.2.2).f.kmask, hctx, fun v hv => ?_, rfl, rfl, rfl, rfl,
      fun l hl => elem_klaneOf _ _ hl⟩
    exact (elem_setWidth64 _ (by omega)).trans (State.elem_plainMembers hv)

/-- The bed after a formation of a bin of plain entries, and its members. -/
theorem State.formsBin_leaves {b : Nat} {key : Byte} (h32 : 32 ≤ ((s.bed b).bin key).length)
    (hplain : ∀ e ∈ (s.bed b).bin key, e.resume = none) {es : List HitEntry} (hes : ((s.bed b).bin key).take 32 = es) :
    ((s.formsBin b (s.formRequests b) key es).bed b).forms = (s.bed b).forms + 1 ∧
      (s.formsBin b (s.formRequests b) key es).mem = s.mem ∧
      ((s.formsBin b (s.formRequests b) key es).bed b).sorter.filter (fun h => decide (h.key = key)) =
        ((s.bed b).bin key).drop 32 ∧
      ((s.formsBin b (s.formRequests b) key es).bed b).sorter.filter (fun h => decide (h.key ≠ key)) =
        (s.bed b).sorter.filter (fun h => decide (h.key ≠ key)) ∧
      ∀ w ∈ s.formRequests b, ∃ (f : Formed) (places : Word),
        (s.formsBin b (s.formRequests b) key es).ctx w.2.1 w.2.2 = { s.ctx w.2.1 w.2.2 with wake := some (.formed f) } ∧
        f.gd = BitVec.ofNat 64 (2 ^ 32 - 1 + key.toNat * 2 ^ 32) ∧ f.own = some 0xF ∧ f.regs = 4 ∧ f.resume = none ∧
        f.entries = es ∧ f.wave = some (BitVec.ofNat 64 (2 ^ 31 + (s.bed b).forms.toNat), places) ∧
        ∀ l, l < 4 → elem 8 l places = BitVec.ofNat 8 (4 * (w.2.1 % 8) + l) := by
  have hlen : es.length = 32 := hes ▸ List.length_take_of_le h32
  have hnone : ∀ e ∈ es, e.resume = none := fun e he => hplain e (List.mem_of_mem_take (hes.symm ▸ he))
  obtain ⟨hbeds, hmem, -⟩ := (s.takesEntries b key es).joinAll_frame (s.formRequests b) false (s.bed b).forms.toNat es
    (waveMembers es) key
  have hbed : (s.formsBin b (s.formRequests b) key es).bed b =
      { s.bed b with sorter := dropEntries key es (s.bed b).sorter, forms := (s.bed b).forms + 1 } := by
    have hstart : ((s.takesEntries b key es).joinAll (s.formRequests b) false (s.bed b).forms.toNat es (waveMembers es) key).bed b =
        { s.bed b with sorter := dropEntries key es (s.bed b).sorter } := by
      rw [State.bed, hbeds]
      exact s.bed_modBed b fun x => { x with sorter := dropEntries key es x.sorter }
    rw [State.formsBin, State.countsForm, State.bed_modBed, hstart]
  obtain ⟨hkey, hother⟩ := dropEntries_full h32 hplain
  rw [hes] at hkey hother
  rw [hbed]
  refine ⟨rfl, hmem, hkey, hother, fun w hw => ?_⟩
  have hctx := State.ctx_joinAll (t := s.takesEntries b key es) hw rfl false (s.bed b).forms.toNat es (waveMembers es) key
  rw [Context.formedAs_full (Nat.mod_lt _ (by norm_num)) _ key hlen hnone] at hctx
  refine ⟨_, klaneOf (w.2.1 % 8) 0xF, hctx, rfl, rfl, rfl, rfl, rfl, rfl, fun l hl => ?_⟩
  rw [elem_klaneOf _ _ hl, if_pos (by interval_cases l <;> rfl)]

theorem execWaveFormation_formsBin {key : Byte} (h8 : (s.formRequests s.ev.group).length = 8)
    (ha : ∀ w ∈ s.formRequests s.ev.group, s.asks w = key.setWidth 64) (hlow : (s.core (8 * s.ev.group)).brineLevel < 2)
    (h32 : 32 ≤ ((s.bed s.ev.group).bin key).length) (hplain : ∀ e ∈ (s.bed s.ev.group).bin key, e.resume = none) :
    exec .waveFormation s = .next ((s.formsBin s.ev.group (s.formRequests s.ev.group) key
      (((s.bed s.ev.group).bin key).take 32)).post .overflowReturn { core := 8 * s.ev.group, qport := .q1 }) := by
  cases hr : s.formRequests s.ev.group with
  | nil => simp [hr] at h8
  | cons u rest =>
    rw [hr] at ha
    have hu := ha u List.mem_cons_self
    refine execWaveFormation_bin hr (hr ▸ h8) (fun v hv => (ha v hv).trans hu.symm) hlow ?_ (fun now tmo => ?_)
      (takeEntries_full hplain)
    · rw [hu]
      simp [bitOf]
    · rw [hu]
      exact Bed.choose_full h32 now tmo

end

/-- Settles O38: each issue and each event by its own lemma above; a formation by what the eight requests ask for. -/
theorem waves : Obligations.Waves := by
  unfold Obligations.Waves
  intro s d a b x bed key es e reqs want waits
  refine ⟨fun hc => ⟨fun f hw hr => ⟨fun h0 hn => execWform_plain hc hw h0 hn, execWform_takes hc hw hr⟩, execWsync_over hc,
    execWform_waits hc, execWsync_waits hc⟩, fun hc hm hctx hb hd hdes hrep hroom hlow =>
      execReord_returns hc hm hctx hb hd hdes hrep rfl hroom hlow, execWaveFormation_refuses, fun k => ?_,
      fun h8 ha hp hlow => ?_, ⟨_, rfl, rfl⟩, fun n c named _ hmem hrun hw hreq hlanes => ?_⟩
  · intro bin h8 ha hlow h32 hplain
    exact ⟨_, execWaveFormation_formsBin h8 ha hlow h32 hplain, State.formsBin_leaves h32 hplain rfl⟩
  · have hnine (w : Nat × Nat × Fin 11) (hw : w ∈ reqs) : bitOf (s.asks w) 9 = true := by
      have hmask : bitOf (want w &&& (0x3FF : Word)) 9 = bitOf (want w) 9 := by simp [bitOf]
      exact hmask.trans (hp w hw)
    exact ⟨_, execWaveFormation_formsPlain h8 ha hnine hlow, State.formsPlain_leaves e⟩
  · obtain ⟨hblock, -, hwake, hsusp⟩ := hw
    exact execWsyncComplete_alone hmem hrun hblock hwake hsusp hreq hlanes

end Sys2Proof.Machine
end
